-- ==== Sys2Proof/Word.lean ====
section
/-!
DEFINITION. The word types of the PX7760 model: a register is a 32-bit word (R6) and memories are bytes; and the shapes of
what the boot ROM finds in flash (R338, R376, R377, R456).
-/
namespace Sys2Proof

/-- A 32-bit register word (R6). -/
abbrev Word := BitVec 32

/-- A byte. -/
abbrev Byte := BitVec 8

/-- A copy of an image as the boot ROM reads it from flash (R338, R376, R377): its signature block's magic, type, length and
first 64 bytes, the copied bytes, vendor and OEM public key and signature, SVN and RAISE_SVN, and the image descriptor. -/
structure ImageCopy where
  magic     : Nat
  type      : Nat
  length    : Nat
  block     : List Byte
  bytes     : List Byte
  vendorKey : List Byte
  vendorSig : List Byte
  oemKey    : List Byte
  oemSig    : List Byte
  svn       : Nat
  raise     : Bool
  version   : Nat
  epoch     : Nat
  steppings : List Nat
  peers     : List Nat
deriving DecidableEq, Repr

/-- The Early Set (R456): its copy, and the settings it carries: configuration register writes by offset, static
exact-match entries in the layout of FWD_EM_ADD's payload words, static routing rules of eight words, transport public keys
by owner. -/
structure EarlySet where
  copy  : ImageCopy
  regs  : List (Nat × Nat)
  em    : List (List Nat)
  rules : List (List Nat)
  pubs  : List (Nat × List Byte)
deriving DecidableEq, Repr

end Sys2Proof
end

