-- ==== Sys2Proof/Syntax.lean ====
section
/-!
DEFINITION. The commands of the PX7760 block: one constructor per row of spec/opcode_table.json, with its operands.
Operands that the spec takes from outside the device (data on a line, in host memory or in flash, a measurement, an error
injected by nature) are arguments.  A command of the Gateway Command Set names the mailbox slot (owner, slot) it runs from.
-/
namespace Sys2Proof

/-- A command or event of the block. `fn` is the PCIe function of a host access (0 the physical function), `off` the byte
offset in its window, `en` the four byte enables, `val` the data written. -/
inductive Instr where
  /-- REGISTER_WRITE (R10): A host write to a register that has no row of its own sets RW fields, is discarded for RO fields, or takes effect as its access code gives. `en` marks the bytes accessed, of up to three words from the aligned `off` on (R7). -/
  | registerWrite (fn off en val : Nat)
  /-- W1C_WRITE (R11): A write of 1 to a W1C bit clears it, unless hardware sets the bit in the same cycle. -/
  | w1cWrite (fn off en val hwSet : Nat)
  /-- RC_COUNTER_READ (R12): A read of an RC field returns its value and clears it, or restarts it at 1 if hardware increments it in the same cycle. `en` marks the bytes accessed, of up to three words from the aligned `off` on (R7). -/
  | rcCounterRead (fn off en incr : Nat)
  /-- MMQ_PEAK_READ (R513): A read of SWC_MMQ_PEAK returns the peak USED and restarts the peak at the present USED. -/
  | mmqPeakRead (fn off en : Nat)
  /-- OCTETS_LO_READ (R202): A read of a MAC octet counter LO register returns bits 31:0, copies bits 63:32 into HI and clears the counter. -/
  | octetsLoRead (fn off en : Nat)
  /-- BASIN_READY (R42): The free list is built and SWC_STATUS.READY is set after power-good on PD_FABRIC. -/
  | basinReady
  /-- FWD_READY (R83): Every table entry of both replicas is invalidated and FWD_STATUS.READY is set. -/
  | fwdReady
  /-- TSS_READY (R146): The scheduling unit sets READY with gates open, no list and every bucket and filter disabled. -/
  | tssReady
  /-- VIE_READY (R176): VIE_STATUS.READY is set and Early Set streams start to be checked. -/
  | vieReady
  /-- CAN_GROUP_READY (R206): FBUS_STATUS.GROUP_READY or LIN_READY is set after power-good on the group's domain. -/
  | canGroupReady (g : Nat)
  /-- BRG_READY (R244): The bridge sets BRG_STATUS.READY and Early Set rules come into force. -/
  | brgReady
  /-- TIME_READY (R298): The time unit sets READY with every base at 0 in UNSET. -/
  | timeReady
  /-- SQ_READY (R183): A SerDes quad sets READY once every PLL its configuration uses is locked. -/
  | sqReady (q : Nat)
  /-- MAC_READY (R203): A MAC sets MAC_STATUS.READY after its domain and quad are ready. -/
  | macReady (mac : Nat)
  /-- HDMA_READY (R301): The host interface and event queues become ready after PCIe link-up and owner 2 becomes active. -/
  | hdmaReady
  /-- SBB_READY (R416): SBB_STATUS.READY is set after power-good on PD_SIDEBAND. -/
  | sbbReady
  /-- EVF_READY (R468): EVF_STATUS.READY is set after power-good on PD_CTL. -/
  | evfReady
  /-- FRAME_FIRST_CELL (R51): The first cell of an arriving frame is charged to a quota or the shared pool and the frame is admitted or dropped whole. -/
  | frameFirstCell (port : Nat) (head : List Byte) (age owner ecc : Nat)
  /-- FRAME_LOOKUP_START (R62): The lookup of a frame starts at its 128th byte or at its last byte if shorter. -/
  | frameLookupStart (port : Nat)
  /-- FRAME_LOOKUP_DONE (R85): The pipeline lookup resolves VLAN, exact-match, LPM and ACL and assembles drop, destinations, class, stream and sampling. -/
  | frameLookupDone (port : Nat) (ecc : List (Nat × Nat × Bool))
  /-- FRAME_TAIL (R63): The last byte of a frame arrives and its FCS and other tail conditions decide whether it is good or bad. -/
  | frameTail (port : Nat) (rest : List Byte) (symErr : Option Nat) (ecc : Nat)
  /-- ARBITER_ITERATION (R69): Each 16 ns iteration every unmatched egress offers a grant to its oldest eligible request and ingress ports accept. -/
  | arbiterIteration
  /-- EGRESS_TX_START (R120): When the transmitter is free the scheduler selects an eligible class and its frame starts. -/
  | egressTxStart (e : Nat)
  /-- EGRESS_FRAME_END (R41): An egress reads the frame's last byte or discards its copy and releases its reference. -/
  | egressFrameEnd (e ecc : Nat)
  /-- PAUSE_REPEAT (R56): A held port-class repeats its pause each time half the quanta time has passed. -/
  | pauseRepeat (pc : Nat)
  /-- INTERNAL_SOURCE_START (R59): An internal source waiting for credit starts its frame once XOFF less USED covers its cells. -/
  | internalSourceStart (port : Nat)
  /-- SOJOURN_AGEOUT (R60): A frame older than SWC_MAX_SOJOURN is discarded or stomped and reported. -/
  | sojournAgeout (frame : Nat)
  /-- MODERATED_RECORD_FLUSH (R54): At the end of a moderation millisecond the summed drops are posted in one further record. -/
  | moderatedRecordFlush (kind w3 : Nat)
  /-- AUDIT_PASS_START (R72): Every 10 ms with AUDIT_EN the switch core starts a leaked-buffer audit pass. -/
  | auditPassStart
  /-- AUDIT_PASS_END (R72): An audit pass ends and cells suspect in two consecutive passes are reclaimed.
  `doubles` pairs the cells in use or listed twice with those a late release names. -/
  | auditPassEnd (leaks : List Nat) (doubles : List Nat × List Nat)
  /-- LEARN_ACCEPT (R89): The learning arbiter accepts a queued learn and inserts, relocates, stashes or evicts for the key. -/
  | learnAccept
  /-- REFRESH_ACCEPT (R95): The arbiter serves a refresh and sets the entry's AGE to FWD_AGE_NOW. -/
  | refreshAccept
  /-- AGE_TICK (R99): FWD_AGE_NOW advances each ageing unit and the sweep removes entries at or past LIMIT. -/
  | ageTick
  /-- LEARN_MESSAGE_RECEIVE (R27): A learning message from the other pipeline is applied to its replica. -/
  | learnMessageReceive (pipeB : Bool)
  /-- MOVE_WINDOW_CLOSE (R105): A recent-learn record's window closes and a CONFIRM message is sent if a move occurred. -/
  | moveWindowClose (key : Nat)
  /-- CASCADE_LEARN_SEND (R108): A learning-message batch is sent when it holds 60 records or 10 µs after its first record. -/
  | cascadeLearnSend
  /-- CASCADE_LEARN_RECEIVE (R106): A member applies the LEARN, AGE_OUT and CONFIRM records of a received 0x88B5 frame. -/
  | cascadeLearnReceive
  /-- CASCADE_WITHDRAW (R34): After a cascade link goes down the entries learnt through it are withdrawn and an event posted. -/
  | cascadeWithdraw (port : Nat)
  /-- PORT_FLUSH_ON_DOWN (R101): After link loss on a FLUSH_ON_DOWN port its learned entries are removed. -/
  | portFlushOnDown (port : Nat)
  /-- TABLE_UE_REPAIR (R114): An uncorrectable table entry is repaired from the shadow ahead of other scrubber work. -/
  | tableUeRepair (authFail : Bool)
  /-- SCRUB_PASS (R115): The scrubber compares every entry of both replicas with the authenticated shadow every 2 s. -/
  | scrubPass (mism : List (Nat × Nat × Bool)) (auth : List Nat)
  /-- SCRUB_RECHECK (R116): Once FWD_SHADOW_SEQ reaches the recorded value a mismatching entry is compared again and repaired. -/
  | scrubRecheck (table index : Nat) (pipeB still authFail : Bool)
  /-- SCRUB_DEFER (R116): A recheck whose shadow does not catch up within 10 ms is skipped for the pass. -/
  | scrubDefer (table index : Nat) (pipeB : Bool)
  /-- PFC_FRAME_RECEIVE (R510): A received 802.1Qbb pause frame stops the honoured classes for their quanta. -/
  | pfcFrameReceive (mac enable : Nat) (quanta : List Nat)
  /-- PFC_PAUSE_EXPIRE (R510): The received pause time of a class runs out and the class becomes eligible again. -/
  | pfcPauseExpire (mac cls : Nat)
  /-- GCL_ENTRY_ADVANCE (R122): The interval of a gate-list entry ends and the next entry's gate states apply. -/
  | gclEntryAdvance (mac : Nat)
  /-- GCL_SWITCH (R124): At the change time S the pending bank becomes the list in force and TSS_GCL_SWITCHED is posted. -/
  | gclSwitch (mac : Nat)
  /-- GCL_RESTART (R126): After a step of its time base a gate list restarts from entry 0 at the first cycle start. -/
  | gclRestart (mac : Nat)
  /-- PREEMPT_VERIFY_DONE (R127): 802.3br verification succeeds and PREEMPT_ACTIVE is set. -/
  | preemptVerifyDone (mac : Nat)
  /-- NOTICE_EXPIRE (R129): An express notice hold ends after 1,000 ns and is counted. -/
  | noticeExpire (mac : Nat)
  /-- SLUICE_GATE_ADVANCE (R136): A Sluice gate list entry ends and the next entry's state applies. -/
  | sluiceGateAdvance (gate : Nat)
  /-- FRER_RECOVERY_RESET (R137): No frame passing for RESET_MS resets the recovery state. -/
  | frerRecoveryReset (pair : Nat)
  /-- FRER_LATENT_CHECK (R139): Every RESET_MS the passed and discarded counts are compared and TSS_FRER_LATENT posted on excess. -/
  | frerLatentCheck (pair : Nat)
  /-- QSAMPLER_SWEEP (R140): Each INTERVAL a queue-sampler list is swept and its records written whole or skipped. -/
  | qsamplerSweep (list : Nat) (descs : List (List Nat))
  /-- VIE_PACKET_OBSERVE (R150): The VIE reads a watched packet at P28, opens or closes frames and updates its checks.
  `behind` pairs whether the write path is behind with the Basin errors the read meets. -/
  | viePacketObserve (behind : Bool × Nat)
  /-- VIE_VERDICT (R160): The VIE reaches its verdict on a frame and updates failure counts, alarms and counters. -/
  | vieVerdict (stream : Nat)
  /-- VIE_MISSING_EXPIRE (R153): The MISSING watchdog expires, counts a missing frame and re-arms. -/
  | vieMissingExpire (stream : Nat)
  /-- VIE_NOTICE_TASK (R167): The VIE_NOTICE task sends a stale notice for each stream in its cause. -/
  | vieNoticeTask
  /-- VIE_FALLBACK_TASK (R165): The VIE_FALLBACK task starts the fallback of each stream in its cause. -/
  | vieFallbackTask
  /-- VIE_FRER_TASK (R166): The VIE_FRER task forces the FRER pair of each stream in its cause. -/
  | vieFrerTask
  /-- VIE_HOST_TASK (R164): The VIE_HOST task posts VIE_ALARM records for each stream in its cause. -/
  | vieHostTask
  /-- VIE_HEARTBEAT (R168): Every HEARTBEAT_MS an enabled stream sends a notice. -/
  | vieHeartbeat (stream : Nat)
  /-- RSV_TRIGGER_TASK (R173): A Reservoir trigger task moves its rings to POST, extends POST or counts the trigger ignored. -/
  | rsvTriggerTask (k : Nat)
  /-- RSV_POST_EXPIRE (R173): POST_MS after a trigger a ring becomes FROZEN and RSV_FROZEN is posted. -/
  | rsvPostExpire (ring : Nat)
  /-- LINE_LOSS (R184): Block lock, synchronisation or PHY link is lost; a frame in reception ends bad with cause 5. -/
  | lineLoss (mac : Nat) (rest : List Byte)
  /-- LINK_DOWN (R184): The line stays lost for LINK_DOWN_US and the MAC declares link-down. -/
  | linkDown (mac : Nat)
  /-- LINK_UP (R184): The line stays good for LINK_UP_MS and the MAC declares link-up at the port rate. -/
  | linkUp (mac rate : Nat)
  /-- SQ_PLL_UNLOCK (R183): A quad PLL loses lock and takes every lane it serves to link-down. -/
  | sqPllUnlock (quad pll : Nat)
  /-- PLCA_OPPORTUNITY (R187): At its PLCA transmit opportunity the port sends a frame or yields.
  `mac` pairs the port with whether the opportunity goes on with a further frame. -/
  | plcaOpportunity (mac : Nat × Bool)
  /-- PLCA_BEACON_LOSS (R187): A non-coordinator hearing no beacon falls back to CSMA/CD and posts MAC_PLCA_LOST. -/
  | plcaBeaconLoss (mac : Nat)
  /-- PLCA_BEACON_HEARD (R187): A port in CSMA/CD returns to PLCA at the next beacon it hears. -/
  | plcaBeaconHeard (mac : Nat)
  /-- T1S_COLLISION (R188): A collision on E20–E23 is counted and the frame scheduled for retry or abandoned after 16 attempts. -/
  | t1sCollision (mac : Nat)
  /-- T1S_BACKOFF_EXPIRE (R188): The backoff after a collision ends and the frame is retried from its first cell. -/
  | t1sBackoffExpire (mac : Nat)
  /-- EEE_LPI_ENTER (R192): After IDLE_US with every class empty the transmitter enters low-power idle. -/
  | eeeLpiEnter (mac : Nat)
  /-- EEE_LPI_EXIT (R192): An eligible class, pause or express notice starts the exit from low-power idle. -/
  | eeeLpiExit (mac : Nat)
  /-- EEE_WAKE_DONE (R192): TW_US after the exit began the transmitter may start its first frame. -/
  | eeeWakeDone (mac : Nat)
  /-- PARTNER_LPI_CHANGE (R192): The receiver reports the partner entering or leaving low-power idle. -/
  | partnerLpiChange (mac : Nat) (on : Bool)
  /-- ETH_WAKE_DETECT (R195): An ETH_WAKE_n input or matching T1S wake pattern requests a wake and records its cause.
  `bytes` pairs the level of the input with the frame received. -/
  | ethWakeDetect (mac : Nat) (bytes : Bool × List Byte)
  /-- CAN_INTEGRATE (R206): An enabled CAN controller sees 11 recessive bits and sets SYNC. -/
  | canIntegrate (ctl : Nat)
  /-- CAN_FRAME_RECEIVE (R216): A CAN frame received without error is filtered and queued, rejected or lost on overflow. -/
  | canFrameReceive (ctl fmt w0 w1 w2 : Nat) (data : List Byte) (age : Nat)
  /-- CAN_RXQ_POP (R219): The consumer pops a receive queue head and the next entry becomes the head.
  `next` pairs whether the head is only read with whether the new head is read after the pop. -/
  | canRxqPop (ctl q : Nat) (next : Bool × Bool)
  /-- CAN_ERROR (R214): A CAN bus error updates the error counters and writes an error record.
  `age` pairs the age of the SOF sample with the loop delay measured, if one was. -/
  | canError (ctl type : Nat) (tx severe : Bool) (age : Nat × Option Nat)
  /-- CAN_BUS_RECOVER (R215): After 128 occurrences of 11 recessive bits the controller rejoins and posts CAN_BUS_ON. -/
  | canBusRecover (ctl : Nat)
  /-- CAN_TX_REQUEST (R221): A transmit request enters the event transmit queue or is refused when full. -/
  | canTxRequest (ctl : Nat) (rec : List Nat)
  /-- CAN_BUS_IDLE_OFFER (R221): At bus idle the controller offers its highest-priority pending request, discarding aged ones. -/
  | canBusIdleOffer (ctl : Nat)
  /-- CAN_TX_ARB_LOST (R222): A request loses arbitration and waits for the next bus idle. -/
  | canTxArbLost (ctl : Nat)
  /-- CAN_TX_COMPLETE (R222): A frame is sent and a confirmation record is written when enabled. -/
  | canTxComplete (ctl age tdcv : Nat)
  /-- CAN_MODE_APPLY (R213): A requested mode change takes effect at the next bus idle. -/
  | canModeApply (ctl : Nat)
  /-- CAN_FILTER_APPLY (R217): Filter table writes take effect at bus idle. -/
  | canFilterApply (ctl : Nat)
  /-- CAN_SCHED_CYCLE_START (R223): A basic cycle of the schedule matrix starts and pending slot or cell changes take effect. -/
  | canSchedCycleStart (ctl : Nat)
  /-- CAN_SCHED_SLOT_START (R224): At a slot start the named buffer's frame is offered exclusively or joins arbitration. -/
  | canSchedSlotStart (ctl slot : Nat)
  /-- CAN_SCHED_WINDOW_END (R224): A slot frame not sent by START plus WINDOW is abandoned and counted as a miss. -/
  | canSchedWindowEnd (ctl slot : Nat)
  /-- CAN_SCHED_RESTART (R227): After a step of its time base the matrix restarts at cycle 0. -/
  | canSchedRestart (ctl : Nat)
  /-- CANW_MATCH (R228): A CAN wake detector matches a frame, requests a wake and keeps the frame in CANW_LAST. -/
  | canwMatch (w ident : Nat) (ide : Bool) (dlc : Nat) (data : List Byte)
  /-- CANW_DECODE_ERROR (R229): A wake detector decoding error raises its count and at 32 sets FRAME_ERR and may wake. -/
  | canwDecodeError (w : Nat) (fd : Bool)
  /-- LIN_SCHED_ENTRY (R232): When an entry's DELAY ends the commander starts the next entry and sends its header. -/
  | linSchedEntry (l : Nat)
  /-- LIN_HEADER_RECEIVE (R233): A controller receives a LIN header and publishes, subscribes or ignores per its frame table. -/
  | linHeaderReceive (l pid : Nat) (syncOk stopOk : Bool)
  /-- LIN_RESPONSE_RECEIVE (R234): A LIN response is received and checked, with errors reported as records. -/
  | linResponseReceive (l : Nat) (data : List Byte) (csum : Nat) (framing bitErr : Bool)
  /-- LIN_RESPONSE_TIMEOUT (R234): A subscribed response not complete within the frame time reports no or partial response. -/
  | linResponseTimeout (l got : Nat)
  /-- LIN_BUS_IDLE (R235): Bus inactivity for IDLE_S seconds is reported as a status record. -/
  | linBusIdle (l : Nat)
  /-- LIN_WAKE_DETECT (R235): A dominant level of at least 150 µs on LIN_RX is reported or, with PD_LIN off, requests a wake. -/
  | linWakeDetect (l : Nat)
  /-- LIN_WAKE_SIGNAL_END (R235): The WAKE_US dominant wake signal sent on command ends. -/
  | linWakeSignalEnd (l : Nat)
  /-- RILL_DMA_MOVE (R240): The host DMA engine moves a completed Rill packet into its bound queue. -/
  | rillDmaMove (f : Nat) (descs : List (List Nat))
  /-- RILL_WIN_POP (R241): A read at +0x3C of a direct Rill window pops the head word. -/
  | rillWinPop (fn off en : Nat)
  /-- RILL_POINTER_MISMATCH (R242): A duplicated Rill pointer mismatch resets the FIFO and discards its packets. -/
  | rillPointerMismatch (f : Nat) (descs : List (List Nat))
  /-- BRIDGE_DISPATCH_SLOT (R246): The dispatcher takes one record, looks up its rule and issues every copy in a 192 ns slot. -/
  | bridgeDispatchSlot
  /-- J1939_TP_TIMEOUT (R261): A session without TP.DT for 750 ms or 1,250 ms is aborted. -/
  | j1939TpTimeout (src sa da : Nat)
  /-- SIGNAL_MAPPING_APPLY (R256): A record's signal mappings are applied to assembly buffers and resulting frames issued. -/
  | signalMappingApply
  /-- SIGNAL_PERIODIC_ISSUE (R256): A periodic assembly buffer issues a frame every PERIOD_MS. -/
  | signalPeriodicIssue (buf : Nat)
  /-- SIGNAL_TIMEOUT (R257): A mapping not written within its timeout sets its bits to all ones and is reported. -/
  | signalTimeout (map : Nat)
  /-- ACF_BATCH_TIMEOUT (R263): TIMEOUT_US after its first message a tunnel batch is sent. -/
  | acfBatchTimeout (t : Nat)
  /-- ACF_INBOUND_FRAME (R265): An ACF frame at P25 matching an inbound tunnel becomes low-class records, or is discarded. -/
  | acfInboundFrame
  /-- TIME_TB_SET (R277): A host command write with OP SET requests that the base take the staged time. -/
  | timeTbSet (fn b : Nat) (neg : Bool)
  /-- TIME_TB_STEP (R277): A host command write with OP STEP requests the staged offset be added or subtracted. -/
  | timeTbStep (fn b : Nat) (neg : Bool)
  /-- TIME_TB_ADJ (R277): A host command write with OP ADJ requests the staged rate replace ADJ. -/
  | timeTbAdj (fn b : Nat) (neg : Bool)
  /-- TIME_TB_LOCK (R277): A host command write with OP LOCK requests that the base become locked. -/
  | timeTbLock (fn b : Nat) (neg : Bool)
  /-- TIME_TB_UNLOCK (R277): A host command write with OP UNLOCK requests that the base return to ACQUIRE. -/
  | timeTbUnlock (fn b : Nat) (neg : Bool)
  /-- TIME_TB_COMMIT (R277): At the next whole nanosecond the pending time-base operation is committed or refused and RESULT set. -/
  | timeTbCommit (b : Nat)
  /-- TIME_TB_NS_READ (R280): A read of TIME_TB_NS returns nanoseconds and latches seconds and fraction into the reader's shadow. -/
  | timeTbNsRead (fn off en : Nat)
  /-- TXTS_W3_READ (R287): A read of TIME_TXTS_W3 pops the head transmit timestamp entry. -/
  | txtsW3Read (fn off en : Nat)
  /-- CAP_NS_READ (R293): A read of TIME_CAP_NS returns and pops the head capture stamp. -/
  | capNsRead (fn off en : Nat)
  /-- EPOCH_SECOND (R289): At each whole second of a base a TIME_EPOCH record is posted to queues with epochs enabled. -/
  | epochSecond (b : Nat)
  /-- PULSE_EDGE (R291): A pulse output reaches an assertion or deassertion instant and fires PULSE[n]. -/
  | pulseEdge (p : Nat)
  /-- CAPTURE_EDGE (R293): A qualified capture edge is stamped into the FIFO and fires CAPTURE[n]. -/
  | captureEdge (c : Nat) (rising : Bool)
  /-- SUPERVISOR_SAMPLE (R294): Once a second the supervisor records each locked base's correction and tests it for suspect drift. -/
  | supervisorSample (b : Nat)
  /-- SOURCE_LOSS_HOLDOVER (R294): Three missed synchronisation intervals put a base into HOLDOVER with CAUSE 3. -/
  | sourceLossHoldover (b : Nat)
  /-- SLEW_UPDATE (R296): At each source measurement in SLEW the supervisor recomputes the rate, or blocks the slew. -/
  | slewUpdate (b : Nat) (primary alternate : Bool) (offset fs : Int)
  /-- TIME_RELOCK (R296): After 16 s within 100 ns a slewing base returns to LOCKED and TIME_RELOCK is posted. -/
  | timeRelock (b : Nat)
  /-- PCIE_LINK_UP (R301): The PCIe link comes up and the host interface readiness work starts. -/
  | pcieLinkUp
  /-- PCIE_LINK_DOWN (R302): A PCIe link-down tears down owner 2 and every VF owner and disables SR-IOV. -/
  | pcieLinkDown
  /-- PCIE_HOT_RESET (R302): A hot reset tears down owner 2 and every VF owner and disables SR-IOV. -/
  | pcieHotReset
  /-- PERST_DEASSERT (R457): PERST# deassertion starts PCIe link training once PD_PCIE is powered. -/
  | perstDeassert
  /-- VF_ENABLE (R301): Setting VF Enable creates the VF owners, or holds them until the C-image is ready. -/
  | vfEnable (n : Nat)
  /-- VF_DISABLE (R20): Disabling a VF or SR-IOV tears down the corresponding owners. -/
  | vfDisable
  /-- FLR_VF (R302): A function-level reset of a VF tears down and re-creates its owner. -/
  | flrVf (vf : Nat)
  /-- FLR_PF (R302): A function-level reset of the PF tears down owner 2 and every VF owner. -/
  | flrPf
  /-- BUS_MASTER_CHANGE (R303): Clearing or setting Bus Master Enable stops or resumes a function's ring traffic. -/
  | busMasterChange (fn mrrs tags : Nat) (on relaxed ari : Bool)
  /-- MSIX_UNMASK (R306): Unmasking a vector with its pending bit set sends the message. -/
  | msixUnmask (fn vec : Nat)
  /-- TXQ_TAIL_WRITE (R308): A host write of a transmit ring TAIL adds work or is discarded as bad. -/
  | txqTailWrite (fn off en val : Nat)
  /-- RXQ_TAIL_WRITE (R318): A host write of a receive ring TAIL posts buffers and ends DIVERT if descriptors are free. -/
  | rxqTailWrite (fn off en val : Nat)
  /-- TX_EN_SET (R308): Setting TX_EN enables a transmit ring with HEAD and TAIL at 0. -/
  | txEnSet (fn off en val : Nat)
  /-- TX_EN_CLEAR (R309): Clearing TX_EN stops descriptor fetch and flushes remaining descriptors. -/
  | txEnClear (fn off en val : Nat)
  /-- RX_EN_SET (R308): Setting RX_EN enables a receive ring with HEAD and TAIL at 0 and ends DIVERT. -/
  | rxEnSet (fn off en val : Nat)
  /-- RX_EN_CLEAR (R309): Clearing RX_EN ends hold and DIVERT and writes or discards pending frames. -/
  | rxEnClear (fn off en val : Nat)
  /-- RING_STOP_DONE (R309): Within 100 µs of an enable being cleared the ring's flush completes and a record reports it stopped. -/
  | ringStopDone (ring : Nat) (descs : List (List Nat))
  /-- TX_DESCRIPTOR_FETCH (R311): On its round-robin visit the engine fetches and judges a ring's descriptors for one frame. -/
  | txDescriptorFetch (ring : Nat) (descs : List (List Nat))
  /-- TX_DATA_READ_DONE (R312): The data reads of a transmit frame complete and the frame enters P24 and its descriptors complete. -/
  | txDataReadDone (ring : Nat) (data : List Byte)
  /-- HOST_READ_ERROR (R313): A descriptor or data read ending in error or timeout stops the ring with READ_ERR. -/
  | hostReadError (ring : Nat) (rx : Bool)
  /-- READ_REQUEST_ISSUE (R319): A waiting memory read is issued once a tag and completion-buffer space are free. -/
  | readRequestIssue
  /-- P24_FRAME_ARRIVE (R317): A frame reaching P24 is written to its receive ring, enters the pending list, waits or is discarded. -/
  | p24FrameArrive (descs : List (List Nat))
  /-- RX_FRAME_WRITE (R315): A frame is written into free receive descriptors with data before write-back. -/
  | rxFrameWrite (ring : Nat) (descs : List (List Nat))
  /-- HOLD_TIMER_EXPIRE (R318): A receive ring's hold timer reaches HOLD and the ring enters DIVERT, discarding pending frames. -/
  | holdTimerExpire (ring : Nat)
  /-- COALESCE_TIMER (R316): COAL_US after the first unannounced completion the ring's completions are announced. -/
  | coalesceTimer (ring : Nat) (tx : Bool)
  /-- SPOUT_RECORD_WRITE (R321): Spout writes a staged event record into its owner's event queue, or loses it and counts it. -/
  | spoutRecordWrite
  /-- EVQ_EN_SET (R321): Setting EN of EVQ_CTRL resets PROD, CONS and SEQ, clears OVF_PENDING and arms the queue. -/
  | evqEnSet (fn off en val : Nat)
  /-- EVQ_CONS_WRITE (R323): A host consumer write frees slots and arms the queue, or is discarded as bad. -/
  | evqConsWrite (fn off en val : Nat)
  /-- EVQ_MOD_TIMER (R323): MOD_US after the first record of an armed queue one MSI-X message is sent. -/
  | evqModTimer (owner : Nat)
  /-- EVQ_SERVICE_LATE (R465): An event queue left unconsumed for EVF_SVC_BOUND posts one EVF_EVQ_LATE record. -/
  | evqServiceLate (owner : Nat)
  /-- MBX_RING_READ (R329): A read of MBX_RING rings a slot, copying it and setting POSTED, or returns FULL, BUSY or NOT_READY. -/
  | mbxRingRead (fn off en : Nat)
  /-- MBX_ABORT_WRITE (R335): A write of a slot to MBX_ABORT cancels its command if in flight. -/
  | mbxAbortWrite (fn off en val : Nat)
  /-- MBX_SLOT_WRITE (R334): A host write to mailbox slot RAM, with a collision recorded if the device writes the word in the same cycle. -/
  | mbxSlotWrite (fn off en val : Nat) (dev : Option Nat)
  /-- FW_TAKE_COMMAND (R330): Firmware takes a POSTED command into one of 64 ACTIVE places by round robin over owners. -/
  | fwTakeCommand (buf : Option (List Byte)) (ecc : Bool)
  /-- FW_RESTART (R336): The control firmware restarts, replays its journal and completes uncommitted commands with RESTARTED. -/
  | fwRestart
  /-- SYS_HELLO (R337): Negotiates the GCS version for the owner. -/
  | sysHello (owner slot : Nat)
  /-- SYS_INFO (R353): Returns versions, epochs, stepping and limit counts. -/
  | sysInfo (owner slot : Nat)
  /-- SYS_BOOT_REPORT (R353): Returns MBX_BOOT_REPORT and the four image descriptors. -/
  | sysBootReport (owner slot : Nat)
  /-- SYS_FLASH_ERASE (R350): Erases a list of flash sectors element by element. -/
  | sysFlashErase (owner slot : Nat)
  /-- SYS_FLASH_WRITE (R350): Writes 256-byte flash pages from a host buffer element by element. -/
  | sysFlashWrite (owner slot : Nat)
  /-- SYS_RESET (R353): Resets the device 1 ms after its completion is posted. -/
  | sysReset (owner slot : Nat)
  /-- SYS_EARLY_READ (R353): Copies the Early Set into a host buffer. -/
  | sysEarlyRead (owner slot : Nat)
  /-- SYS_EARLY_WRITE (R353): Stages a signed Early Set in flash for the next boot. -/
  | sysEarlyWrite (owner slot : Nat) (copy : ImageCopy)
  /-- SYS_EVF_ROUTE (R468): Connects or disconnects event sources and task inputs. -/
  | sysEvfRoute (owner slot : Nat)
  /-- SYS_CASCADE_FORM (R462): Sets the device index and cascade links and authenticates members. -/
  | sysCascadeForm (owner slot : Nat) (auth : Bool)
  /-- SYS_CASCADE_RESYNC (R109): Asks a member to resend its LEARN state. -/
  | sysCascadeResync (owner slot : Nat)
  /-- SYS_CASCADE_STATUS (R353): Returns members seen, links and learning sequence state. -/
  | sysCascadeStatus (owner slot : Nat)
  /-- OWN_CREATE (R353): Creates a network owner 258–511. -/
  | ownCreate (owner slot : Nat)
  /-- OWN_TEARDOWN (R21): Tears down an owner through the steps of R21 and reports frames discarded and commands aborted. -/
  | ownTeardown (owner slot : Nat)
  /-- TEARDOWN_DRAIN_END (R21): The owner's queues finish draining, leftovers are discarded and Treust destroys its key. -/
  | teardownDrainEnd (owner : Nat)
  /-- OWNER_NUMBER_FREE (R403): Once every bank CLEAR of the owner has completed the owner number becomes free. -/
  | ownerNumberFree (owner : Nat)
  /-- OWN_GRANT (R354): Grants resources to an owner all or none. -/
  | ownGrant (owner slot : Nat)
  /-- OWN_REVOKE (R354): Returns resources to owner 1 all or none. -/
  | ownRevoke (owner slot : Nat)
  /-- OWN_POLICY_READ (R352): Copies a policy into a host buffer. -/
  | ownPolicyRead (owner slot : Nat)
  /-- OWN_SET_LIMITS (R461): Sets an owner's event-queue service bound and receive ring HOLD. -/
  | ownSetLimits (owner slot : Nat)
  /-- OWN_LIST (R353): Returns the active owners and their kinds. -/
  | ownList (owner slot : Nat)
  /-- PORT_SET (R355): Sets MAC mode, rate, link timing, PHY latency and defaults. -/
  | portSet (owner slot : Nat)
  /-- PORT_GET (R353): Returns port settings and link state. -/
  | portGet (owner slot : Nat)
  /-- PORT_QUAD_SET (R181): Sets PLLA_RATE of a quad. -/
  | portQuadSet (owner slot : Nat)
  /-- PORT_EQ_SET (R182): Sets the transmit FIR taps of a lane. -/
  | portEqSet (owner slot : Nat)
  /-- PORT_STEER_SET (R191): Writes one receive steering entry. -/
  | portSteerSet (owner slot : Nat)
  /-- PORT_EEE_SET (R193): Sets low-power idle, IDLE_US and TW_US. -/
  | portEeeSet (owner slot : Nat)
  /-- PORT_PLCA_SET (R189): Sets PLCA settings and PLCA_MAXLEN. -/
  | portPlcaSet (owner slot : Nat)
  /-- PORT_WAKE_SET (R194): Sets WAKE_POL and T1S wake patterns. -/
  | portWakeSet (owner slot : Nat)
  /-- PORT_MACSEC_SET (R199): Sets SecY settings and bypass list. -/
  | portMacsecSet (owner slot : Nat)
  /-- PORT_SLEEP (R194): Puts a MAC group to sleep. -/
  | portSleep (owner slot : Nat)
  /-- FWD_EM_ADD (R356): Inserts or replaces a static exact-match entry. -/
  | fwdEmAdd (owner slot : Nat)
  /-- FWD_EM_DEL (R353): Removes an exact-match entry by key. -/
  | fwdEmDel (owner slot : Nat)
  /-- FWD_EM_ADD_BULK (R350): Inserts up to 1,024 entries from a host buffer element by element. -/
  | fwdEmAddBulk (owner slot : Nat)
  /-- FWD_EM_READ (R353): Reads exact-match entries by key or position. -/
  | fwdEmRead (owner slot : Nat)
  /-- FWD_FLUSH (R353): Removes learned entries by port, VID or both. -/
  | fwdFlush (owner slot : Nat)
  /-- FWD_LPM_ADD (R111): Inserts a prefix with ordered moves. -/
  | fwdLpmAdd (owner slot : Nat)
  /-- FWD_LPM_DEL (R353): Removes a prefix. -/
  | fwdLpmDel (owner slot : Nat)
  /-- FWD_ACL_WRITE (R112): Writes an ACL entry. -/
  | fwdAclWrite (owner slot : Nat)
  /-- FWD_ACL_DEL (R353): Invalidates an ACL entry. -/
  | fwdAclDel (owner slot : Nat)
  /-- FWD_VLAN_SET (R353): Writes a VLAN entry. -/
  | fwdVlanSet (owner slot : Nat)
  /-- FWD_MCAST_SET (R353): Writes a multicast group mask. -/
  | fwdMcastSet (owner slot : Nat)
  /-- FWD_NHOP_SET (R353): Writes a next-hop entry. -/
  | fwdNhopSet (owner slot : Nat)
  /-- FWD_AGE_SET (R100): Sets the ageing UNIT and LIMIT. -/
  | fwdAgeSet (owner slot : Nat)
  /-- FWD_LEARN_SET (R102): Sets port learning fields, MOVE_HOLD_MS and the learning time base. -/
  | fwdLearnSet (owner slot : Nat)
  /-- FWD_CFG_SET (R353): Sets EVICT_POLICY, scrubber, ACL and LPM enables. -/
  | fwdCfgSet (owner slot : Nat)
  /-- FWD_SAMPLER_SET (R78): Sets a mirror sampler's point, N, mode and destination. -/
  | fwdSamplerSet (owner slot : Nat)
  /-- FWD_CASCADE_PATH (R106): Sets the cascade link toward each member. -/
  | fwdCascadePath (owner slot : Nat)
  /-- QOS_CLASS_SET (R121): Sets the class settings of an egress port. -/
  | qosClassSet (owner slot : Nat)
  /-- QOS_GCL_LOAD (R357): Loads a gate control list as pending, or stops the list in force. -/
  | qosGclLoad (owner slot : Nat)
  /-- QOS_CBS_SET (R130): Sets IDLE_SLOPE and HI_CREDIT of class 5 or 6. -/
  | qosCbsSet (owner slot : Nat)
  /-- QOS_PREEMPT_SET (R127): Sets PREEMPT_EN, VERIFY_EN and ADD_FRAG. -/
  | qosPreemptSet (owner slot : Nat)
  /-- QOS_WEIR_SET (R134): Configures one Weir bucket, resetting its tokens on a change. -/
  | qosWeirSet (owner slot : Nat)
  /-- QOS_SLUICE_FILTER_SET (R135): Configures one stream filter. -/
  | qosSluiceFilterSet (owner slot : Nat)
  /-- QOS_SLUICE_GATE_LOAD (R136): Loads a Sluice gate list. -/
  | qosSluiceGateLoad (owner slot : Nat)
  /-- QOS_SLUICE_UNBLOCK (R135): Clears BLOCKED or CLOSED_INVALID. -/
  | qosSluiceUnblock (owner slot : Nat)
  /-- QOS_FRER_SET (R137): Configures one protected stream pair. -/
  | qosFrerSet (owner slot : Nat)
  /-- QOS_STREAM_ADMIT (R358): Admits a stream with a declared bound. -/
  | qosStreamAdmit (owner slot : Nat)
  /-- QOS_STREAM_WITHDRAW (R353): Withdraws an admitted stream. -/
  | qosStreamWithdraw (owner slot : Nat)
  /-- QOS_BOUND_READ (R353): Returns the bound and terms of a stream. -/
  | qosBoundRead (owner slot : Nat)
  /-- QOS_VOQ_SET (R49): Sets MODE, PFC_EN, DEFAULT_QUOTA, XOFF, XON and HEADROOM of a port-class. -/
  | qosVoqSet (owner slot : Nat)
  /-- QOS_QUOTA_SET (R55): Sets RESERVED and MAX_FRAME_CELLS of a quota. -/
  | qosQuotaSet (owner slot : Nat)
  /-- QOS_SHARED_SET (R57): Sets GLOBAL_XOFF and the sojourn limit. -/
  | qosSharedSet (owner slot : Nat)
  /-- QOS_QSAMPLER_SET (R140): Sets a queue-sampler list. -/
  | qosQsamplerSet (owner slot : Nat)
  /-- VID_STREAM_SET (R162): Sets a VIE stream's format, timing, counter, age and CRC settings. -/
  | vidStreamSet (owner slot : Nat)
  /-- VID_STREAM_ENABLE (R162): Enables a VIE stream with every check starting in alarm. -/
  | vidStreamEnable (owner slot : Nat)
  /-- VID_STREAM_DISABLE (R162): Disables a VIE stream, undoing fallback and sending an UNWATCHED notice. -/
  | vidStreamDisable (owner slot : Nat)
  /-- VID_LATTICE_SET (R156): Sets the signature lattice. -/
  | vidLatticeSet (owner slot : Nat)
  /-- VID_ACTION_SET (R163): Sets thresholds, channels, hysteresis, fallback and FRER. -/
  | vidActionSet (owner slot : Nat)
  /-- VID_NOTICE_SET (R167): Sets notice destination, subtype and heartbeat. -/
  | vidNoticeSet (owner slot : Nat)
  /-- VID_SYNC_SET (R170): Sets a sync group, its pulse and phase. -/
  | vidSyncSet (owner slot : Nat)
  /-- VID_STATE_READ (R353): Returns VIE state and per-stream status words. -/
  | vidStateRead (owner slot : Nat)
  /-- VID_RING_SET (R171): Configures a Reservoir ring and trigger masks. -/
  | vidRingSet (owner slot : Nat)
  /-- VID_RING_RELEASE (R173): Releases a FROZEN ring to RECORDING. -/
  | vidRingRelease (owner slot : Nat)
  /-- VID_RING_READ (R174): Delivers decrypted ring data to a host DMA queue. -/
  | vidRingRead (owner slot : Nat)
  /-- VID_RING_EXPORT (R174): Delivers ring data re-encrypted for export. -/
  | vidRingExport (owner slot : Nat)
  /-- VID_TRIGGER (R173): Fires a Reservoir trigger task. -/
  | vidTrigger (owner slot : Nat)
  /-- FBUS_CAN_SET (R210): Sets CAN_CFG, bit timing and PWM. -/
  | fbusCanSet (owner slot : Nat)
  /-- FBUS_CAN_TDC_SET (R211): Sets CAN_TDC. -/
  | fbusCanTdcSet (owner slot : Nat)
  /-- FBUS_FILTER_WRITE (R217): Writes 1–64 filter pairs. -/
  | fbusFilterWrite (owner slot : Nat)
  /-- FBUS_RXQ_SET (R218): Sets the receive storage split and overwrite modes. -/
  | fbusRxqSet (owner slot : Nat)
  /-- FBUS_CAN_RECOVER (R215): Lets a bus-off controller rejoin after the recessive sequence. -/
  | fbusCanRecover (owner slot : Nat)
  /-- FBUS_SCHED_LOAD (R223): Loads a schedule matrix from a host buffer. -/
  | fbusSchedLoad (owner slot : Nat)
  /-- FBUS_MSGBUF_WRITE (R226): Writes a schedule message buffer's pending copy. -/
  | fbusMsgbufWrite (owner slot : Nat)
  /-- FBUS_TX (R221): Places a request in an event transmit queue. -/
  | fbusTx (owner slot : Nat)
  /-- FBUS_LIN_SET (R230): Sets LIN_CFG, rate and timing. -/
  | fbusLinSet (owner slot : Nat)
  /-- FBUS_LIN_TABLE_LOAD (R232): Loads a LIN frame table or schedule table. -/
  | fbusLinTableLoad (owner slot : Nat)
  /-- FBUS_LIN_SCHED_SELECT (R232): Requests a LIN schedule table. -/
  | fbusLinSchedSelect (owner slot : Nat)
  /-- FBUS_LIN_WAKE (R235): Sends a LIN wake signal. -/
  | fbusLinWake (owner slot : Nat)
  /-- FBUS_WAKE_DET_SET (R228): Configures a CAN wake detector. -/
  | fbusWakeDetSet (owner slot : Nat)
  /-- FBUS_RILL_SET (R237): Binds a Rill FIFO to a host DMA queue. -/
  | fbusRillSet (owner slot : Nat)
  /-- GWY_RULE_WRITE (R359): Places or updates one routing rule. -/
  | gwyRuleWrite (owner slot : Nat)
  /-- GWY_RULE_READ (R353): Reads a rule by index or key. -/
  | gwyRuleRead (owner slot : Nat)
  /-- GWY_RULE_DEL (R353): Removes a rule. -/
  | gwyRuleDel (owner slot : Nat)
  /-- GWY_RULE_BULK (R350): Places up to 512 rules from a host buffer element by element. -/
  | gwyRuleBulk (owner slot : Nat)
  /-- GWY_SRC_SET (R248): Sets BRG_SRC_CFG and mask sets. -/
  | gwySrcSet (owner slot : Nat)
  /-- GWY_REWRITE_SET (R250): Writes identifier rewrite entries. -/
  | gwyRewriteSet (owner slot : Nat)
  /-- GWY_SIG_MAP_SET (R255): Writes signal mappings. -/
  | gwySigMapSet (owner slot : Nat)
  /-- GWY_SIG_BUF_SET (R256): Configures an assembly buffer and its SEND mode. -/
  | gwySigBufSet (owner slot : Nat)
  /-- GWY_TUNNEL_SET (R262): Configures an outbound tunnel. -/
  | gwyTunnelSet (owner slot : Nat)
  /-- GWY_RXTUNNEL_SET (R265): Configures an inbound tunnel. -/
  | gwyRxtunnelSet (owner slot : Nat)
  /-- GWY_AUTH_SET (R266): Configures an authentication entry without key. -/
  | gwyAuthSet (owner slot : Nat)
  /-- GWY_AUTH_FRESH_SET (R268): Sets the receive freshness L. -/
  | gwyAuthFreshSet (owner slot : Nat)
  /-- GWY_J1939_READ (R258): Reads the J1939 claim table. -/
  | gwyJ1939Read (owner slot : Nat)
  /-- GWY_ENABLE (R353): Sets BRG_CFG.EN and AUTH_EN. -/
  | gwyEnable (owner slot : Nat)
  /-- TIME_BASE_OP (R360): Carries out SET, STEP, ADJ, LOCK or UNLOCK through firmware's staging set. -/
  | timeBaseOp (owner slot : Nat)
  /-- TIME_BASE_READ (R353): Returns a base's value, state and ADJ. -/
  | timeBaseRead (owner slot : Nat)
  /-- TIME_SUPERVISE_SET (R296): Sets the alternate source, SLEW_PPM and SLEW_LIMIT_NS. -/
  | timeSuperviseSet (owner slot : Nat)
  /-- TIME_DOMAIN_SET (R283): Writes a PTP domain entry. -/
  | timeDomainSet (owner slot : Nat)
  /-- TIME_LINK_DELAY_SET (R284): Sets the mean link delay of a MAC. -/
  | timeLinkDelaySet (owner slot : Nat)
  /-- TIME_PULSE_SET (R291): Configures a pulse output. -/
  | timePulseSet (owner slot : Nat)
  /-- TIME_CAPTURE_SET (R293): Configures a capture input. -/
  | timeCaptureSet (owner slot : Nat)
  /-- TIME_EPOCH_REQ (R289): Posts an epoch record now. -/
  | timeEpochReq (owner slot : Nat)
  /-- SEC_LIFECYCLE_READ (R365): Returns the lifecycle state and a fresh challenge. -/
  | secLifecycleRead (owner slot : Nat)
  /-- SEC_LIFECYCLE_ADVANCE (R365): Advances the lifecycle one step with proof and programs the fuses. -/
  | secLifecycleAdvance (owner slot : Nat)
  /-- SEC_KEY_ROTATE (R361): Derives a new Basin key slot for an owner and switches KEY_SEL. -/
  | secKeyRotate (owner slot : Nat)
  /-- SEC_MACSEC_SA_INSTALL (R361): Opens a wrapped SAK blob and installs an SA. -/
  | secMacsecSaInstall (owner slot : Nat)
  /-- SEC_MACSEC_SA_ENABLE (R200): Enables or disables an SA. -/
  | secMacsecSaEnable (owner slot : Nat)
  /-- SEC_MACSEC_SA_DELETE (R371): Destroys an SA's key. -/
  | secMacsecSaDelete (owner slot : Nat)
  /-- SEC_CMAC_KEY_INSTALL (R373): Installs a wrapped key for an authentication entry. -/
  | secCmacKeyInstall (owner slot : Nat)
  /-- SEC_SESSION_OPEN (R373): Opens a secure session and creates a network owner. -/
  | secSessionOpen (owner slot : Nat)
  /-- SEC_SESSION_CLOSE (R21): Closes a session and tears its owner down. -/
  | secSessionClose (owner slot : Nat)
  /-- SEC_DEBUG_UNLOCK (R395): Returns a challenge or, with a valid signature, opens a debug level. -/
  | secDebugUnlock (owner slot : Nat)
  /-- SEC_TAMPER_STATUS (R392): Returns tamper and glitch detector state. -/
  | secTamperStatus (owner slot : Nat)
  /-- SEC_TAMPER_SET (R392): Sets tamper input polarity and enables. -/
  | secTamperSet (owner slot : Nat)
  /-- MEM_BANK_GRANT (R401): Hands a general bank to an owner in CLEAR or PASS mode. -/
  | memBankGrant (owner slot : Nat)
  /-- MEM_BANK_RETAIN (R407): Places a bank in or out of retention. -/
  | memBankRetain (owner slot : Nat)
  /-- MEM_MARCH_RUN (R411): Runs a destructive or preserving March C− test on a bank mask. -/
  | memMarchRun (owner slot : Nat)
  /-- MEM_MARCH_RESULT (R413): Returns the result of the last March test. -/
  | memMarchResult (owner slot : Nat)
  /-- MEM_CONFLICT_READ (R406): Returns bank-conflict counts. -/
  | memConflictRead (owner slot : Nat)
  /-- MEM_LPDDR_REGION (R414): Defines LPDDR5 regions and their owners. -/
  | memLpddrRegion (owner slot : Nat)
  /-- PWR_STATE_SET (R362): Requests a power state transition. -/
  | pwrStateSet (owner slot : Nat)
  /-- PWR_STATE_READ (R353): Returns the power state and domain status. -/
  | pwrStateRead (owner slot : Nat)
  /-- PWR_DOMAIN_SET (R437): Switches single domains in PARTIAL. -/
  | pwrDomainSet (owner slot : Nat)
  /-- PWR_WAKE_SET (R435): Arms wake sources. -/
  | pwrWakeSet (owner slot : Nat)
  /-- PWR_RAIL_SET (R444): Sets a rail-control channel sequence entry. -/
  | pwrRailSet (owner slot : Nat)
  /-- PWR_WAKE_CAUSE_READ (R353): Returns PWR_WAKE_CAUSE and then clears it. -/
  | pwrWakeCauseRead (owner slot : Nat)
  /-- PWR_CLOCK_STATUS (R446): Returns reference monitor and holdover state. -/
  | pwrClockStatus (owner slot : Nat)
  /-- DIAG_UNIT_RESET (R14): Resets one unit. -/
  | diagUnitReset (owner slot : Nat)
  /-- DIAG_GROUP_RESET (R14): Resets one group. -/
  | diagGroupReset (owner slot : Nat)
  /-- DIAG_LOOPBACK (R353): Sets a MAC or lane loopback. -/
  | diagLoopback (owner slot : Nat)
  /-- DIAG_TESTGEN (R353): Drives the test generator at P30. -/
  | diagTestgen (owner slot : Nat)
  /-- DIAG_SBB_READ (R419): Performs a far-bus read through an SBB slot. -/
  | diagSbbRead (owner slot : Nat)
  /-- DIAG_SBB_WRITE (R426): Performs a far-bus write through an SBB slot. -/
  | diagSbbWrite (owner slot : Nat)
  /-- DIAG_SBB_SEQ (R423): Performs an exclusive locked far-bus sequence. -/
  | diagSbbSeq (owner slot : Nat)
  /-- DIAG_GPIO_SET (R427): Sets direction and level of a host-settable GPIO. -/
  | diagGpioSet (owner slot : Nat)
  /-- DIAG_REG_READ (R479): Reads firmware-only registers for owner 1. -/
  | diagRegRead (owner slot : Nat)
  /-- DIAG_INJECT (R353): Injects an ECC or pointer error for test. -/
  | diagInject (owner slot : Nat)
  /-- BOOT_ROM_START (R376): At power-good the boot ROM reads lifecycle, derives keys, applies the Early Set and tries image pairs. -/
  | bootRomStart (tamper : Nat) (early : Option EarlySet) (copies : List (Option ImageCopy))
  /-- S_IMAGE_READY (R396): The S-image reports ready and SEC_STATUS.READY is set. -/
  | sImageReady (store : Option (Nat × Nat × List (Nat × Nat)))
  /-- C_IMAGE_READY (R455): The C-image reports ready, MBX READY is set, registers are sealed and VF owners created. -/
  | cImageReady
  /-- KEY_SLOT_RETIRE (R361): When no descriptor refers to the old Basin key slot its key is destroyed and SEC_KEY_RETIRED posted. -/
  | keySlotRetire (owner : Nat)
  /-- JOB_FRAME_RECEIVE (R385): A crypto job segment at P27 is accepted, processed and answered by a result frame, or rejected. -/
  | jobFrameReceive
  /-- JOB_SLOT_ALLOCATE (R387): A waiting first segment gets a job slot once one is free. -/
  | jobSlotAllocate
  /-- JOB_IDLE_TIMEOUT (R387): No segment for IDLE_US ends the job with SEG_ERR. -/
  | jobIdleTimeout (slot : Nat)
  /-- TRNG_HEALTH_FAIL (R391): A TRNG health test fails; the pool is discarded and restarted, latching TRNG_FAIL after three in 1 s. -/
  | trngHealthFail
  /-- TRNG_RESTART_DONE (R391): The TRNG start-up tests pass and delivery resumes. -/
  | trngRestartDone
  /-- TAMPER_DETECT (R393): A tamper source trips; the root key latch closes and Basin admission stops. -/
  | tamperDetect (sources : Nat)
  /-- TAMPER_KEY_ZEROISE (R393): Inline key registers are zeroised, the Basin is emptied and crypto jobs abort. -/
  | tamperKeyZeroise
  /-- TAMPER_CISTERN_WIPE (R393): Cistern is overwritten with zeros and read back. -/
  | tamperCisternWipe
  /-- TAMPER_SAFE_RESUME (R393): The free list is rebuilt and Safe Set forwarding from the Early Set resumes. -/
  | tamperSafeResume
  /-- TAMPER_CONTROL_RESTART (R393): The S-image halts, the control pair restarts into the recovery service and owners are torn down. -/
  | tamperControlRestart
  /-- JTAG_DEBUG_UNLOCK (R395): A debug unlock phase through the JTAG debug mailbox returns a challenge or opens a level. -/
  | jtagDebugUnlock (level : Nat) (key sig : List Byte)
  /-- BANK_CLEAR_DONE (R401): A bank CLEAR completes, opens the bank to its new owner and posts MEM_BANK_HANDOVER. -/
  | bankClearDone (bank : Nat)
  /-- BANK_ACCESS (R404): A master's access or atomic operation to a general bank is served or refused. -/
  | bankAccess (bank master owner op width off value ecc : Nat)
  /-- APERTURE_ADD_READ (R405): A read of the ADD view performs a 32-bit ADD of MEM_ATOM_OPERAND and returns the old value. -/
  | apertureAddRead (fn off en : Nat)
  /-- APERTURE_SWAP_READ (R405): A read of the SWAP view swaps in MEM_ATOM_OPERAND and returns the old value. -/
  | apertureSwapRead (fn off en : Nat)
  /-- BANK_WAKE_DONE (R408): A bank leaves retention and serves its queued accesses. -/
  | bankWakeDone (bank : Nat)
  /-- MARCH_CHUNK_DONE (R412): A preserving March chunk is restored and unlocked and the next chunk locked. -/
  | marchChunkDone
  /-- MARCH_TEST_DONE (R413): A March test ends, posting MEM_MARCH_DONE and marking failing banks. -/
  | marchTestDone (fails : List (Nat × Nat × Nat × Nat × Nat))
  /-- SBB_GO_READ (R419): A REQ_CTRL write with GO and OP 0 starts a far-bus read in a slot. -/
  | sbbGoRead (slot addr ctrl : Nat)
  /-- SBB_GO_WRITE (R419): A REQ_CTRL write with GO and OP 1 starts a far-bus write in a slot. -/
  | sbbGoWrite (slot addr ctrl : Nat) (data : List Byte)
  /-- SBB_GO_RMW (R419): A REQ_CTRL write with GO and OP 2 starts an MDIO read-modify-write. -/
  | sbbGoRmw (slot addr word ctrl : Nat)
  /-- SBB_CANCEL (R426): A REQ_CTRL write with CANCEL stops the slot's transaction at the next safe point. -/
  | sbbCancel (slot : Nat)
  /-- SBB_SLOT_RESP_READ (R420): A read of SBB_SLOT_RESP holds up to 4 µs for completion and returns VALID or RETRY. -/
  | sbbSlotRespRead (slot : Nat)
  /-- SBB_HOLD_EXPIRE (R420): A held response read returns RETRY after 4 µs. -/
  | sbbHoldExpire (slot : Nat)
  /-- SBB_PIECE_COMPLETE (R422): A far-bus piece ends and the next piece starts or the transfer completes or fails. -/
  | sbbPieceComplete (slot code n : Nat) (data : List Byte) (sdaLow : Bool)
  /-- SBB_RETRY_GAP_EXPIRE (R424): After RETRY_GAP_US a NACKed or lost I2C piece is attempted again. -/
  | sbbRetryGapExpire (slot : Nat)
  /-- SBB_WRITE_POLL (R422): An acknowledge poll after an I2C write piece is answered or WR_CYCLE_MS expires. -/
  | sbbWritePoll (slot : Nat) (acked : Bool)
  /-- SBB_LOCK_TIMEOUT (R423): A channel lock reaching LOCK_MAX is released and reported LOCK_TIMEOUT. -/
  | sbbLockTimeout (chan : Nat)
  /-- GPIO_EDGE (R427): A qualified edge on a GPIO input fires GPIO_IN[n]. -/
  | gpioEdge (line : Nat) (level : Bool)
  /-- GPIO_TASK (R428): A GPIO task sets, clears or toggles its line, resolving conflicts to SAFE. -/
  | gpioTask (k : Nat)
  /-- RAIL_FAULT (R429): A rail losing power-good or timing out is disabled, reported and fires RAIL_FAULT[n]. -/
  | railFault (rail : Nat)
  /-- RAIL_RETRY_EXPIRE (R429): After RETRY_MS a faulted rail is turned on again. -/
  | railRetryExpire (rail : Nat)
  /-- RAIL_STAGE_ADVANCE (R444): When a stage is done and ON_DELAY_MS passed the next stage of rails is enabled, or on power-down switched off. -/
  | railStageAdvance
  /-- EVF_SW_FIRE_WRITE (R477): A firmware write of EVF_SW_FIRE fires the SW sources. -/
  | evfSwFireWrite (val : Nat)
  /-- PULSE_FIRE_TASK (R467): A PULSE_FIRE task makes an enabled one-shot output assert now. -/
  | pulseFireTask (p : Nat)
  /-- CAPTURE_SOFT_TASK (R467): A CAPTURE_SOFT task enters a stamp into a capture FIFO. -/
  | captureSoftTask (c : Nat)
  /-- RECORD_TASK (R470): A RECORD task posts an EVF_TASK record with its causes. -/
  | recordTask (k : Nat)
  /-- POR (R449): VDD_AO rising resets PD_AO and starts up into ACTIVE or OFF. -/
  | por (pwrOn : Bool)
  /-- PWR_ON_EDGE (R433): PWR_ON going high starts the regulators and start-up from OFF or STANDBY. -/
  | pwrOnEdge
  /-- RST_N_LOW (R449): RST_N low for 1 µs abandons any transition and holds the device in reset. -/
  | rstNLow
  /-- RST_N_HIGH (R453): RST_N returning high with regulators on gives power-good and starts up with cause 1. -/
  | rstNHigh
  /-- REG_DELAY_EXPIRE (R442): DELAY_MS after the previous channel's power-good the next regulator is enabled. -/
  | regDelayExpire
  /-- REG_POWER_GOOD (R442): A regulator reports power-good, and the last one gives device power-good. -/
  | regPowerGood (n : Nat)
  /-- REG_PG_TIMEOUT (R443): A regulator without power-good in PG_TIMEOUT_MS turns the channels off and latches FAULT. -/
  | regPgTimeout (n : Nat)
  /-- REG_PG_LOST (R443): Power-good lost on a regulator takes domains off, resetting for REG0–3 or dropping LPDDR for REG4–5. -/
  | regPgLost (n : Nat)
  /-- REG_RETRY_EXPIRE (R443): 10 ms after a loss of power-good the power-up is retried. -/
  | regRetryExpire
  /-- REG_OFF_STEP (R442): During power-down each regulator is turned off 1 ms after the one above it. -/
  | regOffStep
  /-- PWR_TRANSITION_START (R433): A requested transition begins, tearing down owners and switching domains. -/
  | pwrTransitionStart
  /-- DOMAIN_SWITCH_ROUND (R439): Every 40 µs up to four eligible domains are switched on or off. -/
  | domainSwitchRound
  /-- DOMAIN_POWER_GOOD (R439): A domain reports power-good, its reset is released and its blocks start ready work. -/
  | domainPowerGood (d : Nat)
  /-- DOMAIN_PG_TIMEOUT (R440): A domain without power-good in 40 µs is switched off and marked faulted. -/
  | domainPgTimeout (d : Nat)
  /-- STANDBY_WAKE (R435): An armed wake source or a latched detection in STANDBY starts regulators and start-up into TARGET. -/
  | standbyWake
  /-- LISTEN_WAKE (R435): A wake detection in LISTEN or PARTIAL powers its source's domains and may go on to ACTIVE. -/
  | listenWake (source : Nat)
  /-- WAKE_TIMER_EXPIRE (R449): The STANDBY wake timer of TIMER_S seconds expires and requests a wake. -/
  | wakeTimerExpire
  /-- REF_MONITOR_WINDOW (R446): Each one-second window the reference is measured and drift, holdover or restore decided. -/
  | refMonitorWindow (ppm : Int)
  /-- REF_EDGE_LOSS (R446): REF_XI showing no edge for 1 µs sets REF_LOST and enters holdover. -/
  | refEdgeLoss
  /-- AO_XTAL_FAIL (R446): CK_AO stopping or departing by over 2 % suspends drift judgement. -/
  | aoXtalFail
  /-- PLL_RELOCK_DONE (R447): The slewing root PLL finishes relocking, clears HOLDOVER and posts PWR_REF_RESTORED. -/
  | pllRelockDone
  /-- THERM_SAMPLE (R448): Every 1 ms the junction sensor updates TEMP and sets or clears THERM_WARN. -/
  | thermSample (temp : Int)
  /-- THERMAL_RESTART (R448): Once the sensor reads below 110 °C, at most every 10 s, the device powers up with cause 5. -/
  | thermalRestart
  /-- TREUST_LOCKSTEP_FAULT (R449): A lockstep mismatch or watchdog expiry of the Treust pair resets the device. -/
  | treustLockstepFault
  /-- CONTROL_PAIR_FAULT (R449): A lockstep mismatch or watchdog expiry of the control pair restarts that subsystem. -/
  | controlPairFault
  /-- POWER_LOSS (R494): The supplies, VDD_AO included, fall in any order and the device becomes unpowered, leaving any lifecycle advance as old or new state. -/
  | powerLoss (programmed : Bool)
  /-- SYS_RESET_EXPIRE (R353): 1 ms after the SYS_RESET completion is posted the device resets with cause 2. -/
  | sysResetExpire
  /-- LPDDR_READY (R455): Firmware finishes training the LPDDR5 interface and LPDDR readiness is set and posted. -/
  | lpddrReady
  /-- LINE_RESTORED (R184): PCS block lock, synchronisation or the integrated PHY's link returns, cancelling a pending link-down debounce or starting the LINK_UP_MS timing. -/
  | lineRestored (mac : Nat)
  /-- CASCADE_CONTROL_RECEIVE (R109): A member receives a cascade control message, such as a request to resend its LEARN state or another member's back-pressure edges. -/
  | cascadeControlReceive (port member kind : Nat) (edges : List (Nat × Nat))
  /-- SHADOW_REBUILD (R116): Firmware finishes rebuilding the table shadow from the tables and clears FWD_STATUS.LOG_LOST, resuming scrubber repairs. -/
  | shadowRebuild
  /-- RAIL_POWER_GOOD (R429): A RAIL_PG_n input reports power-good after its deglitch, stopping the rail's PG timeout and completing its stage. -/
  | railPowerGood (rail : Nat)
  /-- SBB_CHAN_REWRITE (R424): Firmware rewrites a sideband channel's settings and, if SDA is found high, the channel's FAULT clears. -/
  | sbbChanRewrite (chan cfg timing : Nat) (sdaHigh : Bool)
deriving DecidableEq, Repr

end Sys2Proof
end

