-- ==== Sys2Proof/Machine/Operands.lean ====
section
/-!
DEFINITION. Operand forms: byte strings in network order, frame headers (R84, R86, R110, R112), payload words (R343).
-/
namespace Sys2Proof.Machine

/-- Bytes in network order as a number. -/
def be (l : List Byte) : Nat := l.foldl (fun a b => a * 256 + b.toNat) 0

/-- Bytes, low byte first, as a number (R6). -/
def le (l : List Byte) : Nat := l.foldr (fun b a => a * 256 + b.toNat) 0

/-- A number as `n` bytes in network order. -/
def toBe (n v : Nat) : List Byte := (List.range n).map (fun i => BitVec.ofNat 8 (v / 256 ^ (n - 1 - i)))

/-- A number as `n` bytes, low byte first. -/
def toLe (n v : Nat) : List Byte := (List.range n).map (fun i => BitVec.ofNat 8 (v / 256 ^ i))

/-- `n` bytes from byte `i`. -/
def sub (l : List Byte) (i n : Nat) : List Byte := (l.drop i).take n

/-- 32-bit words, low byte first, of a byte string; a short last word is filled with zeros. -/
def wordsOf : Nat → List Byte → List Nat
  | 0, _ => []
  | _ + 1, [] => []
  | n + 1, l => le (l.take 4) :: wordsOf n (l.drop 4)

/-- The bytes of 32-bit words, low byte first. -/
def bytesOf (ws : List Nat) : List Byte := ws.flatMap (toLe 4)

/-- Bits `hi` to `lo` of a word. -/
def bits (w hi lo : Nat) : Nat := w / 2 ^ lo % 2 ^ (hi + 1 - lo)

/-- One bit of a word. -/
def bit (w i : Nat) : Bool := w.testBit i

/-- The low `n` bits of a signed number, as two's complement. -/
def twos (n : Nat) (x : Int) : Nat := (x % (2 ^ n : Int)).toNat

/-- The signed number whose two's complement in `n` bits is `w`. -/
def signed (n w : Nat) : Int := if w % 2 ^ n < 2 ^ (n - 1) then (w % 2 ^ n : Nat) else (w % 2 ^ n : Nat) - 2 ^ n

/-- The header of an Ethernet frame as the lookup reads it. -/
structure Hdr where
  da     : Nat
  sa     : Nat
  tagged : Bool
  pcp    : Nat
  vid    : Nat
  etype  : Nat
  body   : List Byte
deriving DecidableEq, Repr

/-- Read a header; the outer tag is the one at byte 12 (R118). -/
def parseHdr (b : List Byte) : Hdr :=
  let t := be (sub b 12 2)
  if t = 0x8100 || t = 0x88A8 then
    let tci := be (sub b 14 2)
    ⟨be (sub b 0 6), be (sub b 6 6), true, tci / 2 ^ 13, tci % 2 ^ 12, be (sub b 16 2), b.drop 18⟩
  else ⟨be (sub b 0 6), be (sub b 6 6), false, 0, 0, t, b.drop 14⟩

/-- The drop-eligible indicator of a frame's outer tag. -/
def deiOf (b : List Byte) : Bool := (parseHdr b).tagged && (be (sub b 14 2)).testBit 12

/-- Byte at which the Ethertype stands. -/
def Hdr.etypeAt (d : Hdr) : Nat := if d.tagged then 16 else 12

/-- The exact-match key of a MAC address and VID (R86). -/
def keyOf (mac vid : Nat) : Nat := vid * 2 ^ 48 + mac

/-- The group bit of a MAC address. -/
def isGroup (mac : Nat) : Bool := mac.testBit 40

/-- The reserved destination addresses of R84. -/
def isReserved (mac : Nat) : Bool := mac / 16 == 0x0180C200000

/-- The AVTP stream_id of a frame body (IEEE 1722 stream header). -/
def avtpStreamId (body : List Byte) : Nat := be (sub body 4 8)

/-- The LPM key of a frame (R110): family, VRF and destination address. -/
def lpmKey (d : Hdr) (vrf : Nat) : Nat :=
  if d.etype = 0x0800 then 1 * 2 ^ 158 + vrf * 2 ^ 146 + be (sub d.body 16 4) * 2 ^ 96
  else 2 * 2 ^ 158 + vrf * 2 ^ 146 + be (sub d.body 24 16)

/-- The ACL key of a frame (R112). IPv6 frames use format 0b01, all others format 0b00. -/
def aclKey (d : Hdr) (port vid pcp : Nat) (stream : Option Nat) : Nat :=
  let s := stream.getD 0
  let base := port * 2 ^ 313 + vid * 2 ^ 301 + s * 2 ^ 41
  if d.etype = 0x86DD then
    let dst := be (sub d.body 24 16)
    let src := be (sub d.body 8 16)
    let nh := be (sub d.body 6 1)
    let l4 := d.body.drop 40
    let hasPorts := nh = 6 || nh = 17
    base + 2 ^ 318 + bits dst 127 80 * 2 ^ 253 + bits dst 79 32 * 2 ^ 205 + bits dst 31 16 * 2 ^ 189
      + (bits dst 15 0 * 2 ^ 16 + bits src 127 112) * 2 ^ 157 + bits src 111 80 * 2 ^ 125
      + (bits src 79 64 * 2 ^ 16 + nh * 2 ^ 8) * 2 ^ 93
      + (if hasPorts then be (sub l4 0 2) * 2 ^ 77 + be (sub l4 2 2) * 2 ^ 61 else 0)
      + (if nh = 6 then be (sub l4 13 1) * 2 ^ 53 else 0)
  else
    let ip := d.etype = 0x0800
    let ihl := be (sub d.body 0 1) % 16 * 4
    let proto := be (sub d.body 9 1)
    let dscp := be (sub d.body 1 1) / 4
    let l4 := d.body.drop ihl
    let hasPorts := ip && (proto = 6 || proto = 17)
    base + d.da * 2 ^ 253 + d.sa * 2 ^ 205 + d.etype * 2 ^ 189
      + (if ip then be (sub d.body 12 4) * 2 ^ 157 + be (sub d.body 16 4) * 2 ^ 125 else 0)
      + ((if ip then proto * 2 ^ 24 + dscp * 2 ^ 18 else 0) + pcp * 2 ^ 15) * 2 ^ 93
      + (if hasPorts then be (sub l4 0 2) * 2 ^ 77 + be (sub l4 2 2) * 2 ^ 61 else 0)
      + (if ip && proto = 6 then be (sub l4 13 1) * 2 ^ 53 else 0)

/-- An AVTP video packet (IEEE 1722-2016, PRESUMED, log entry 18): subtype, sequence_num, tv, avtp_timestamp, stream_id, the
end-of-frame bit (ef or M, bit 4 of byte 22), the RVF line number, and the video payload. -/
structure Avtp where
  subtype : Nat
  seq     : Nat
  tv      : Bool
  ts      : Nat
  sid     : Nat
  eof     : Bool
  line    : Nat
  payload : List Byte

/-- The AVTP video packet in a frame of Ethertype 0x22F0, for the subtype of a format (R149): 0 RVF (0x07), 1 CVF (0x03). -/
def avtpOf (format : Nat) (b : List Byte) : Option Avtp :=
  let d := parseHdr b
  let p := d.body
  if d.etype != 0x22F0 || p.length < 24 || be (sub p 0 1) != (if format = 0 then 7 else 3) then none
  else
    let n := be (sub p 20 2)
    some ⟨be (sub p 0 1), be (sub p 2 1), be (sub p 1 1) % 2 == 1, be (sub p 12 4), avtpStreamId p,
      (be (sub p 22 1)).testBit 4, if format = 0 then be (sub p 30 2) else 0,
      if format = 0 then sub p 32 (n - 8) else sub p 24 n⟩

end Sys2Proof.Machine
end

