-- ==== Sys2Proof/Machine/Flags.lean ====
section
/-!
DEFINITION. Check values and flag computations: the CRCs of frames, hashes and video (R64, R87), and saturation.
-/
namespace Sys2Proof.Machine

/-- One bit of a reflected CRC: shift right, feed back the polynomial. -/
def crcBitR (poly c : Nat) : Nat := if c % 2 = 1 then (c / 2) ^^^ poly else c / 2

/-- One byte of a reflected CRC. -/
def crcByteR (poly c b : Nat) : Nat :=
  (List.range 8).foldl (fun a _ => crcBitR poly a) (c ^^^ b)

/-- A reflected CRC over bytes from a preset register. -/
def crcR (poly init : Nat) (l : List Byte) : Nat := l.foldl (fun c b => crcByteR poly c b.toNat) init

/-- One bit of an unreflected `w`-bit CRC. -/
def crcBitF (w poly c : Nat) : Nat :=
  if c.testBit (w - 1) then (c * 2 % 2 ^ w) ^^^ poly else c * 2 % 2 ^ w

/-- One byte of an unreflected `w`-bit CRC. -/
def crcByteF (w poly c b : Nat) : Nat :=
  (List.range 8).foldl (fun a _ => crcBitF w poly a) (c ^^^ (b * 2 ^ (w - 8)))

/-- An unreflected CRC over bytes. -/
def crcF (w poly init : Nat) (l : List Byte) : Nat := l.foldl (fun c b => crcByteF w poly c b.toNat) init

/-- The IEEE 802.3 CRC-32 of bytes. -/
def crc32 (l : List Byte) : Nat := crcR 0xEDB88320 0xFFFFFFFF l ^^^ 0xFFFFFFFF

/-- CRC-32C register over bytes from a preset (R87). -/
def crc32cFrom (seed : Nat) (l : List Byte) : Nat := crcR 0x82F63B78 seed l

/-- CRC-32 register over bytes from a preset (R87). -/
def crc32From (seed : Nat) (l : List Byte) : Nat := crcR 0xEDB88320 seed l

/-- The CRC-64 of the content signature (R156): ECMA-182 polynomial, not reflected, preset to all ones. -/
def crc64 (l : List Byte) : Nat := crcF 64 0x42F0E1EBA9EA3693 (2 ^ 64 - 1) l

/-- The frame check sequence of bytes, as sent (low byte first). -/
def fcsOf (l : List Byte) : List Byte := toLe 4 (crc32 l)

/-- The stomp pattern of bytes: the complement of the correct FCS (R64). -/
def stompOf (l : List Byte) : List Byte := toLe 4 (crc32 l ^^^ 0xFFFFFFFF)

/-- A frame whose last four bytes are its correct FCS. -/
def fcsGood (l : List Byte) : Bool := l.drop (l.length - 4) == fcsOf (l.take (l.length - 4))

/-- A frame whose last four bytes are the stomp pattern (R66). -/
def fcsStomp (l : List Byte) : Bool := l.drop (l.length - 4) == stompOf (l.take (l.length - 4))

/-- The TYPE‖KEY value a hash runs over, as 9 bytes, most significant first (R87). -/
def hashInput (type key : Nat) : List Byte := toBe 9 (type * 2 ^ 68 + key)

/-- Saturate an unsigned value at 32 bits. -/
def sat32 (n : Nat) : Nat := min n 0xFFFFFFFF

/-- Saturate a signed value to 32 bits, in two's complement. -/
def satInt32 (x : Int) : Nat := twos 32 (max (-2147483648) (min x 2147483647))

end Sys2Proof.Machine
end

