-- ==== Sys2Proof/Machine/Crypto.lean ====
section
/-!
DEFINITION. The published algorithms of R4, written out from their standards (PRESUMED, log entry 2): AES (FIPS 197), CMAC (NIST SP
800-38B), GCM (SP 800-38D), XTS (SP 800-38E), SHA-384 (FIPS 180-4), ECDSA verification (FIPS 186-5) and ECDH (SP 800-56A) on P-384.
-/
namespace Sys2Proof.Machine

/-! ### AES (FIPS 197) -/

/-- The S-box, a row of sixteen bytes to a number. -/
def sboxRows : List Nat :=
  [0x637C777BF26B6FC53001672BFED7AB76, 0xCA82C97DFA5947F0ADD4A2AF9CA472C0,
   0xB7FD9326363FF7CC34A5E5F171D83115, 0x04C723C31896059A071280E2EB27B275,
   0x09832C1A1B6E5AA0523BD6B329E32F84, 0x53D100ED20FCB15B6ACBBE394A4C58CF,
   0xD0EFAAFB434D338545F9027F503C9FA8, 0x51A3408F929D38F5BCB6DA2110FFF3D2,
   0xCD0C13EC5F974417C4A77E3D645D1973, 0x60814FDC222A908846EEB814DE5E0BDB,
   0xE0323A0A4906245CC2D3AC629195E479, 0xE7C8376D8DD54EA96C56F4EA657AAE08,
   0xBA78252E1CA6B4C6E8DD741F4BBD8B8A, 0x703EB5664803F60E613557B986C11D9E,
   0xE1F8981169D98E949B1E87E9CE5528DF, 0x8CA1890DBFE6426841992D0FB054BB16]

/-- The inverse S-box. -/
def invSboxRows : List Nat :=
  [0x52096AD53036A538BF40A39E81F3D7FB, 0x7CE339829B2FFF87348E4344C4DEE9CB,
   0x547B9432A6C2233DEE4C950B42FAC34E, 0x082EA16628D924B2765BA2496D8BD125,
   0x72F8F66486689816D4A45CCC5D65B692, 0x6C704850FDEDB9DA5E154657A78D9D84,
   0x90D8AB008CBCD30AF7E45805B8B34506, 0xD02C1E8FCA3F0F02C1AFBD0301138A6B,
   0x3A9111414F67DCEA97F2CFCEF0B4E673, 0x96AC7422E7AD3585E2F937E81C75DF6E,
   0x47F11A711D29C5896FB7620EAA18BE1B, 0xFC563E4BC6D279209ADBC0FE78CD5AF4,
   0x1FDDA8338807C731B11210592780EC5F, 0x60517FA919B54A0D2DE57A9F93C99CEF,
   0xA0E03B4DAE2AF5B0C8EBBB3C83539961, 0x172B047EBA77D626E169146355210C7D]

/-- Look a byte up in a box of sixteen rows. -/
def boxAt (rows : List Nat) (x : Nat) : Nat := rows.getD (x / 16) 0 >>> (8 * (15 - x % 16)) % 256

/-- The bytes of a block, byte 0 first. -/
def blockBytes (b : Nat) : List Nat := (List.range 16).map (fun i => b >>> (8 * (15 - i)) % 256)

/-- The block of sixteen bytes. -/
def bytesBlock (l : List Nat) : Nat := l.foldl (fun a b => a * 256 + b) 0

/-- Multiply by x in GF(2^8). -/
def xtime (a : Nat) : Nat := if a < 128 then 2 * a else (2 * a) ^^^ 0x11B

/-- Multiply in GF(2^8) by a constant below 16. -/
def gfMul (c a : Nat) : Nat :=
  (if c.testBit 0 then a else 0) ^^^ (if c.testBit 1 then xtime a else 0) ^^^
    (if c.testBit 2 then xtime (xtime a) else 0) ^^^ (if c.testBit 3 then xtime (xtime (xtime a)) else 0)

/-- SubBytes of a word. -/
def subWord (w : Nat) : Nat :=
  boxAt sboxRows (w / 2 ^ 24) * 2 ^ 24 + boxAt sboxRows (w / 2 ^ 16 % 256) * 2 ^ 16 + boxAt sboxRows (w / 2 ^ 8 % 256) * 2 ^ 8 +
    boxAt sboxRows (w % 256)

/-- The round constant of expansion step `i`, counted from 1. -/
def rcon : Nat → Nat
  | 0 => 0x8D
  | n + 1 => xtime (rcon n)

/-- Key expansion: `ws` holds the words so far, latest first, `nk` to the key. -/
def aesWords (nk : Nat) : Nat → List Nat → List Nat
  | 0, ws => ws
  | n + 1, ws =>
    let i := ws.length
    let p := ws.getD 0 0
    let t :=
      if i % nk = 0 then subWord (p * 2 ^ 8 % 2 ^ 32 + p / 2 ^ 24) ^^^ (rcon (i / nk) * 2 ^ 24)
      else if 6 < nk ∧ i % nk = 4 then subWord p else p
    aesWords nk n ((ws.getD (nk - 1) 0 ^^^ t) :: ws)

/-- Four words to a round key. -/
def roundKeys : List Nat → List Nat
  | a :: b :: c :: d :: l => (a * 2 ^ 96 + b * 2 ^ 64 + c * 2 ^ 32 + d) :: roundKeys l
  | _ => []

/-- The round keys of a key of `nk` words, the first round's first: `nk + 7` of them. -/
def aesKeys (nk key : Nat) : List Nat :=
  roundKeys (aesWords nk (4 * (nk + 7) - nk) ((List.range nk).map (fun i => key >>> (32 * i) % 2 ^ 32))).reverse

/-- SubBytes and ShiftRows. -/
def subShift (b : Nat) : List Nat :=
  let l := blockBytes b
  (List.range 16).map (fun i => boxAt sboxRows (l.getD ((5 * i) % 16) 0))

/-- The inverses of ShiftRows and SubBytes. -/
def invSubShift (b : Nat) : List Nat :=
  let l := blockBytes b
  (List.range 16).map (fun i => boxAt invSboxRows (l.getD ((13 * i) % 16) 0))

/-- A column mix by the first row of its matrix: the rows below are rotations of it. -/
def mixBy (m : List Nat) (l : List Nat) : List Nat :=
  (List.range 16).map (fun i => (List.range 4).foldl (fun a k =>
    a ^^^ gfMul (m.getD ((k + 4 - i % 4) % 4) 0) (l.getD (i / 4 * 4 + k) 0)) 0)

/-- The rounds after the first key addition. -/
def aesRounds : List Nat → Nat → Nat
  | [], b => b
  | [k], b => bytesBlock (subShift b) ^^^ k
  | k :: ks, b => aesRounds ks (bytesBlock (mixBy [2, 3, 1, 1] (subShift b)) ^^^ k)

/-- The inverse rounds: the keys last first, the whitening key last. -/
def aesInvRounds : List Nat → Nat → Nat
  | [], b => b
  | [k], b => bytesBlock (invSubShift b) ^^^ k
  | k :: ks, b => aesInvRounds ks (bytesBlock (mixBy [14, 11, 13, 9] (blockBytes (bytesBlock (invSubShift b) ^^^ k))))

/-- One block through AES with round keys. -/
def aesEnc (ks : List Nat) (b : Nat) : Nat := aesRounds (ks.drop 1) (b ^^^ ks.getD 0 0)

/-- One block through the inverse of AES with round keys. -/
def aesDec (ks : List Nat) (b : Nat) : Nat :=
  let r := ks.reverse
  aesInvRounds (r.drop 1) (b ^^^ r.getD 0 0)

/-- The round keys of an AES-256 key. -/
def keys256 (key : BitVec 256) : List Nat := aesKeys 8 key.toNat

/-- The round keys of an AES-128 key. -/
def keys128 (key : BitVec 128) : List Nat := aesKeys 4 key.toNat

/-! ### Modes -/

/-- Bytes in blocks of sixteen, the last one filled up with zeros. -/
def blocksOf : Nat → List Byte → List Nat
  | 0, _ => []
  | _ + 1, [] => []
  | n + 1, l => be ((l ++ List.replicate 16 0).take 16) :: blocksOf n (l.drop 16)

/-- Every block of a byte string. -/
def toBlocks (l : List Byte) : List Nat := blocksOf (l.length / 16 + 1) l

/-- Counter mode: block `i` of the data is masked with the cipher of the counter block `ctr + i`, whose low 32 bits wrap. -/
def ctrXor (ks : List Nat) (ctr : Nat) (l : List Byte) : List Byte :=
  let stream := (List.range ((l.length + 15) / 16)).flatMap (fun i =>
    toBe 16 (aesEnc ks (ctr / 2 ^ 32 * 2 ^ 32 + (ctr + i) % 2 ^ 32)))
  List.zipWith (· ^^^ ·) l stream

/-- Multiply in GF(2^128) as GHASH does. -/
def ghashMul (x y : Nat) : Nat :=
  ((List.range 128).foldl (fun (zv : Nat × Nat) i =>
    (if x.testBit (127 - i) then zv.1 ^^^ zv.2 else zv.1,
      if zv.2 % 2 = 1 then (zv.2 / 2) ^^^ (0xE1 * 2 ^ 120) else zv.2 / 2)) (0, y)).1

/-- GHASH of blocks. -/
def ghash (hk : Nat) (bs : List Nat) : Nat := bs.foldl (fun a b => ghashMul (a ^^^ b) hk) 0

/-- The counter block before the first one of the data: a 96-bit IV is followed by 1. -/
def gcmJ0 (ks : List Nat) (iv : List Byte) : Nat :=
  if iv.length = 12 then be iv * 2 ^ 32 + 1
  else ghash (aesEnc ks 0) (toBlocks iv ++ [8 * iv.length])

/-- The GCM tag over additional data and ciphertext. -/
def gcmTagOf (ks : List Nat) (iv aad ct : List Byte) : Nat :=
  aesEnc ks (gcmJ0 ks iv) ^^^ ghash (aesEnc ks 0) (toBlocks aad ++ toBlocks ct ++ [8 * aad.length * 2 ^ 64 + 8 * ct.length])

/-- GCM's encryption and decryption of data. -/
def gcmCrypt (ks : List Nat) (iv l : List Byte) : List Byte := ctrXor ks (gcmJ0 ks iv + 1) l

/-- Double in GF(2^128) as CMAC does. -/
def cmacDbl (x : Nat) : Nat := if x.testBit 127 then (2 * x % 2 ^ 128) ^^^ 0x87 else 2 * x

/-- CMAC of a message. -/
def cmacOf (ks : List Nat) (msg : List Byte) : Nat :=
  let k1 := cmacDbl (aesEnc ks 0)
  let full := !msg.isEmpty && msg.length % 16 == 0
  let bs := if full then toBlocks msg else toBlocks (msg ++ [0x80])
  let x := bs.dropLast.foldl (fun a b => aesEnc ks (a ^^^ b)) 0
  aesEnc ks (x ^^^ bs.getLastD 0 ^^^ (if full then k1 else cmacDbl k1))

/-- One block through XTS under a tweak value. -/
def xtsBlock (enc : Bool) (ks : List Nat) (t : Nat) (b : List Byte) : List Byte :=
  let w := be (toLe 16 t)
  toBe 16 ((if enc then aesEnc ks (be b ^^^ w) else aesDec ks (be b ^^^ w)) ^^^ w)

/-- Multiply a tweak value by the primitive element; it is held low byte first. -/
def xtsDbl (t : Nat) : Nat := if t.testBit 127 then (2 * t % 2 ^ 128) ^^^ 0x87 else 2 * t

/-- The blocks of a data unit, the last two with ciphertext stealing when the unit does not end on a block. -/
def xtsBlocks (enc : Bool) (ks : List Nat) : Nat → Nat → List Byte → List Byte
  | 0, _, _ => []
  | n + 1, t, l =>
    if l.isEmpty then []
    else if l.length < 32 ∧ 16 < l.length then
      let tail := l.drop 16
      let c := xtsBlock enc ks (if enc then t else xtsDbl t) (l.take 16)
      xtsBlock enc ks (if enc then xtsDbl t else t) (tail ++ c.drop tail.length) ++ c.take tail.length
    else xtsBlock enc ks t (l.take 16) ++ xtsBlocks enc ks n (xtsDbl t) (l.drop 16)

/-- A data unit of at least sixteen bytes through XTS: the tweak is its number, low byte first. -/
def xtsCrypt (enc : Bool) (ks1 ks2 : List Nat) (unit : Nat) (l : List Byte) : List Byte :=
  xtsBlocks enc ks1 (l.length / 16 + 1) (le (toBe 16 (aesEnc ks2 (be (toLe 16 unit))))) l

/-! ### The functions the device uses -/

/-- One AES-256 block under a key. -/
def aes256 (key : BitVec 256) (block : BitVec 128) : BitVec 128 := BitVec.ofNat 128 (aesEnc (keys256 key) block.toNat)

/-- AES-CMAC under an AES-256 key. -/
def cmac256 (key : BitVec 256) (msg : List Byte) : BitVec 128 := BitVec.ofNat 128 (cmacOf (keys256 key) msg)

/-- AES-CMAC under an AES-128 key. -/
def cmac128 (key : BitVec 128) (msg : List Byte) : BitVec 128 := BitVec.ofNat 128 (cmacOf (keys128 key) msg)

/-- The tag of GCM-AES-256. -/
def gcmTag (key : BitVec 256) (iv aad ct : List Byte) : BitVec 128 := BitVec.ofNat 128 (gcmTagOf (keys256 key) iv aad ct)

/-- The tag of GCM-AES-128. -/
def gcmTag128 (key : BitVec 128) (iv aad ct : List Byte) : BitVec 128 := BitVec.ofNat 128 (gcmTagOf (keys128 key) iv aad ct)

/-- The encryption of GCM-AES-256. -/
def gcmXor (key : BitVec 256) (iv l : List Byte) : List Byte := gcmCrypt (keys256 key) iv l

/-- The encryption of GCM-AES-128. -/
def gcmXor128 (key : BitVec 128) (iv l : List Byte) : List Byte := gcmCrypt (keys128 key) iv l

/-- One data unit of AES-256-XTS. -/
def xts256 (enc : Bool) (k1 k2 : BitVec 256) (unit : Nat) (l : List Byte) : List Byte := xtsCrypt enc (keys256 k1) (keys256 k2) unit l

/-- One data unit of AES-128-XTS. -/
def xts128 (enc : Bool) (k1 k2 : BitVec 128) (unit : Nat) (l : List Byte) : List Byte := xtsCrypt enc (keys128 k1) (keys128 k2) unit l

/-! ### SHA-384 (FIPS 180-4) -/

/-- The round constants. -/
def shaK : List Nat :=
  [0x428A2F98D728AE22, 0x7137449123EF65CD, 0xB5C0FBCFEC4D3B2F, 0xE9B5DBA58189DBBC,
   0x3956C25BF348B538, 0x59F111F1B605D019, 0x923F82A4AF194F9B, 0xAB1C5ED5DA6D8118,
   0xD807AA98A3030242, 0x12835B0145706FBE, 0x243185BE4EE4B28C, 0x550C7DC3D5FFB4E2,
   0x72BE5D74F27B896F, 0x80DEB1FE3B1696B1, 0x9BDC06A725C71235, 0xC19BF174CF692694] ++
  [0xE49B69C19EF14AD2, 0xEFBE4786384F25E3, 0x0FC19DC68B8CD5B5, 0x240CA1CC77AC9C65,
   0x2DE92C6F592B0275, 0x4A7484AA6EA6E483, 0x5CB0A9DCBD41FBD4, 0x76F988DA831153B5,
   0x983E5152EE66DFAB, 0xA831C66D2DB43210, 0xB00327C898FB213F, 0xBF597FC7BEEF0EE4,
   0xC6E00BF33DA88FC2, 0xD5A79147930AA725, 0x06CA6351E003826F, 0x142929670A0E6E70] ++
  [0x27B70A8546D22FFC, 0x2E1B21385C26C926, 0x4D2C6DFC5AC42AED, 0x53380D139D95B3DF,
   0x650A73548BAF63DE, 0x766A0ABB3C77B2A8, 0x81C2C92E47EDAEE6, 0x92722C851482353B,
   0xA2BFE8A14CF10364, 0xA81A664BBC423001, 0xC24B8B70D0F89791, 0xC76C51A30654BE30,
   0xD192E819D6EF5218, 0xD69906245565A910, 0xF40E35855771202A, 0x106AA07032BBD1B8] ++
  [0x19A4C116B8D2D0C8, 0x1E376C085141AB53, 0x2748774CDF8EEB99, 0x34B0BCB5E19B48A8,
   0x391C0CB3C5C95A63, 0x4ED8AA4AE3418ACB, 0x5B9CCA4F7763E373, 0x682E6FF3D6B2B8A3,
   0x748F82EE5DEFB2FC, 0x78A5636F43172F60, 0x84C87814A1F0AB72, 0x8CC702081A6439EC,
   0x90BEFFFA23631E28, 0xA4506CEBDE82BDE9, 0xBEF9A3F7B2C67915, 0xC67178F2E372532B] ++
  [0xCA273ECEEA26619C, 0xD186B8C721C0C207, 0xEADA7DD6CDE0EB1E, 0xF57D4F7FEE6ED178,
   0x06F067AA72176FBA, 0x0A637DC5A2C898A6, 0x113F9804BEF90DAE, 0x1B710B35131C471B,
   0x28DB77F523047D84, 0x32CAAB7B40C72493, 0x3C9EBE0A15C9BEBC, 0x431D67C49C100D4C,
   0x4CC5D4BECB3E42B6, 0x597F299CFC657E2A, 0x5FCB6FAB3AD6FAEC, 0x6C44198C4A475817]

/-- Rotate a 64-bit word right. -/
def rotr (n x : Nat) : Nat := x >>> n ||| (x <<< (64 - n)) % 2 ^ 64

/-- The message schedule: `w` holds the words so far, latest first. -/
def shaSchedule : Nat → List Nat → List Nat
  | 0, w => w
  | n + 1, w =>
    let a := w.getD 1 0
    let b := w.getD 14 0
    let s1 := rotr 19 a ^^^ rotr 61 a ^^^ a >>> 6
    let s0 := rotr 1 b ^^^ rotr 8 b ^^^ b >>> 7
    shaSchedule n (((s1 + w.getD 6 0 + s0 + w.getD 15 0) % 2 ^ 64) :: w)

/-- The working variables a to h. -/
structure ShaVars where
  a : Nat
  b : Nat
  c : Nat
  d : Nat
  e : Nat
  f : Nat
  g : Nat
  h : Nat

/-- One round. -/
def ShaVars.round (v : ShaVars) (kw : Nat × Nat) : ShaVars :=
  let t1 := v.h + (rotr 14 v.e ^^^ rotr 18 v.e ^^^ rotr 41 v.e) + ((v.e &&& v.f) ^^^ ((2 ^ 64 - 1 - v.e) &&& v.g)) + kw.1 + kw.2
  let t2 := (rotr 28 v.a ^^^ rotr 34 v.a ^^^ rotr 39 v.a) + ((v.a &&& v.b) ^^^ (v.a &&& v.c) ^^^ (v.b &&& v.c))
  ⟨(t1 + t2) % 2 ^ 64, v.a, v.b, v.c, (v.d + t1) % 2 ^ 64, v.e, v.f, v.g⟩

/-- One block of 128 bytes. -/
def ShaVars.block (v : ShaVars) (l : List Byte) : ShaVars :=
  let ws := (shaSchedule 64 ((List.range 16).map (fun i => be (sub l (8 * i) 8))).reverse).reverse
  let u := (List.zip shaK ws).foldl ShaVars.round v
  let s (x y : Nat) := (x + y) % 2 ^ 64
  ⟨s u.a v.a, s u.b v.b, s u.c v.c, s u.d v.d, s u.e v.e, s u.f v.f, s u.g v.g, s u.h v.h⟩

/-- The blocks of a padded message. -/
def ShaVars.blocks : Nat → ShaVars → List Byte → ShaVars
  | 0, v, _ => v
  | n + 1, v, l => if l.isEmpty then v else ShaVars.blocks n (v.block (l.take 128)) (l.drop 128)

/-- SHA-384 of a message. -/
def sha384 (m : List Byte) : BitVec 384 :=
  let p := m ++ [0x80] ++ List.replicate ((239 - m.length % 128) % 128) 0 ++ toBe 16 (8 * m.length)
  let v := ShaVars.blocks (p.length / 128) ⟨0xCBBB9D5DC1059ED8, 0x629A292A367CD507, 0x9159015A3070DD17, 0x152FECD8F70E5939, 0x67332667FFC00B31, 0x8EB44A8768581511, 0xDB0C2E0D64F98FA7, 0x47B5481DBEFA4FA4⟩ p
  BitVec.ofNat 384 (((((v.a * 2 ^ 64 + v.b) * 2 ^ 64 + v.c) * 2 ^ 64 + v.d) * 2 ^ 64 + v.e) * 2 ^ 64 + v.f)

/-! ### P-384 (FIPS 186, SP 800-186) -/

/-- The prime of the field. -/
def p384 : Nat := 2 ^ 384 - 2 ^ 128 - 2 ^ 96 + 2 ^ 32 - 1

/-- The order n of the curve. -/
def p384Order : Nat :=
  0xFFFFFFFFFFFFFFFFFFFFFFFFFFFFFFFFFFFFFFFFFFFFFFFFC7634D81F4372DDF581A0DB248B0A77AECEC196ACCC52973

/-- The coefficient b; a is -3. -/
def p384B : Nat :=
  0xB3312FA7E23EE7E4988E056BE3F82D19181D9C6EFE8141120314088F5013875AC656398D8A2ED19D2A85C8EDD3EC2AEF

/-- A point in Jacobian coordinates; Z = 0 is the point at infinity. -/
structure EcPoint where
  x : Nat
  y : Nat
  z : Nat
deriving DecidableEq, Repr

/-- The base point. -/
def p384G : EcPoint :=
  ⟨0xAA87CA22BE8B05378EB1C71EF320AD746E1D3B628BA79B9859F741E082542A385502F25DBF55296C3A545E3872760AB7,
   0x3617DE4A96262C6F5D9E98BF9292DC29F8F41DBD289A147CE9DA3113B5F0B8C00A60B1CE1D7E819D7A431D7C90EA0E5F, 1⟩

/-- Subtract in the field. -/
def fSub (a b : Nat) : Nat := (a + p384 - b % p384) % p384

/-- A power modulo `m`, over the bits of a 384-bit exponent. -/
def powMod (m x e : Nat) : Nat :=
  (List.range 384).foldl (fun a i => if e.testBit (383 - i) then a * a % m * x % m else a * a % m) 1

/-- Twice a point. -/
def EcPoint.dbl (p : EcPoint) : EcPoint :=
  let g := p.y * p.y % p384
  let be := p.x * g % p384
  let zz := p.z * p.z % p384
  let al := 3 * (fSub p.x zz * ((p.x + zz) % p384)) % p384
  let x := fSub (al * al) (8 * be)
  ⟨x, fSub (al * fSub (4 * be) x) (8 * (g * g)), 2 * (p.y * p.z) % p384⟩

/-- The sum of two points. -/
def EcPoint.add (p q : EcPoint) : EcPoint :=
  if p.z = 0 then q
  else if q.z = 0 then p
  else
    let z1 := p.z * p.z % p384
    let z2 := q.z * q.z % p384
    let u1 := p.x * z2 % p384
    let u2 := q.x * z1 % p384
    let s1 := p.y * z2 % p384 * q.z % p384
    let s2 := q.y * z1 % p384 * p.z % p384
    if u1 = u2 then (if s1 = s2 then p.dbl else ⟨1, 1, 0⟩)
    else
      let h := fSub u2 u1
      let r := fSub s2 s1
      let hh := h * h % p384
      let x := fSub (fSub (r * r) (hh * h)) (2 * (u1 * hh))
      ⟨x, fSub (r * fSub (u1 * hh) x) (s1 * (hh * h % p384)), h * p.z % p384 * q.z % p384⟩

/-- A multiple of a point. -/
def EcPoint.mul (k : Nat) (p : EcPoint) : EcPoint :=
  (List.range 384).foldl (fun a i => if k.testBit (383 - i) then a.dbl.add p else a.dbl) ⟨1, 1, 0⟩

/-- The affine coordinates of a point. -/
def EcPoint.affine (p : EcPoint) : Nat × Nat :=
  let i := powMod p384 p.z (p384 - 2)
  let ii := i * i % p384
  (p.x * ii % p384, p.y * ii % p384 * i % p384)

/-- The point of 96 bytes, X then Y, most significant byte first, if it lies on the curve. -/
def pointOf (l : List Byte) : Option EcPoint :=
  let x := be (l.take 48)
  let y := be (l.drop 48)
  if l.length = 96 ∧ x < p384 ∧ y < p384 ∧ y * y % p384 = fSub (x * x * x + p384B) (3 * x) then some ⟨x, y, 1⟩ else none

/-- The public point of a private scalar, X then Y. -/
def pubP384 (d : BitVec 384) : BitVec 768 :=
  let a := (EcPoint.mul d.toNat p384G).affine
  BitVec.ofNat 768 (a.1 * 2 ^ 384 + a.2)

/-- The x-coordinate of the product of a private scalar and a public point; none where the point does not lie on the curve. -/
def ecdhP384 (d : BitVec 384) (pub : List Byte) : Option (BitVec 384) :=
  (pointOf pub).map (fun q => BitVec.ofNat 384 (EcPoint.mul d.toNat q).affine.1)

/-- A signature r then s of 96 bytes over a digest is valid under a public key. -/
def ecdsaP384 (pub : List Byte) (digest : BitVec 384) (sig : List Byte) : Bool :=
  let r := be (sig.take 48)
  let s := be (sig.drop 48)
  match pointOf pub with
  | none => false
  | some q =>
    if sig.length != 96 || r == 0 || s == 0 || decide (p384Order ≤ r) || decide (p384Order ≤ s) then false
    else
      let w := powMod p384Order s (p384Order - 2)
      let v := (EcPoint.mul (digest.toNat * w % p384Order) p384G).add (EcPoint.mul (r * w % p384Order) q)
      v.z != 0 && v.affine.1 % p384Order == r

end Sys2Proof.Machine
end

