-- ==== Sys2Proof/Config.lean ====
section
/-!
DEFINITION. What the spec leaves open: random draws, and values no rule states.  Each is an opaque constant with no body: no proof
can see a value of it.  DESIGN CHOICE, log entry 3.
-/
namespace Sys2Proof.Config

/-- A free value: the `n`th draw of a run. DESIGN CHOICE, log entry 3. -/
opaque freeValue : Nat → BitVec 128

/-- The ECDH shared secret with a public key that is no point of P-384 (no rule states it; log entry 2). -/
opaque ecdhOffCurve : (pub : List Byte) → BitVec 384

/-- The member mask a VLAN entry shows before anything has written it (R83 floods within it and states no mask). -/
opaque unwrittenVlan : (vid : Nat) → BitVec 32

/-- The router MAC address a VLAN entry's index names (R80; no command of the spec writes it). -/
opaque routerMac : (index : Nat) → BitVec 48

/-- Records the change-record queue holds beside one before it overflows (R82 gives no size). -/
opaque changeQueueMore : Nat

/-- Entries a queue holds beside one whose size no rule gives, by its number (R30). -/
opaque queueMore : (queue : Nat) → Nat

/-- MiB of LPDDR5 fitted on the board, up to 8,192 (R431). -/
opaque lpddrMib : Nat

/-- T_in of a stream that enters at an internal port, in ps (R143 states none). -/
opaque tInternal : (port maxlen : Nat) → Nat

end Sys2Proof.Config
end

