-- ==== Sys2Proof/Machine/RegMap.lean ====
section
/-!
DEFINITION. The register map: one offset function per register definition of the spec's chapters (R484), the bit
positions of its fields, its reset value and how the host may access it (R10).  A register's key is its byte offset in
BAR0; the per-owner MBX words have the keys `0x1000_0000 + 0x100 * owner + displacement`, since BAR0 maps owner 2 only.
-/
namespace Sys2Proof.Machine

/-- A bit field of a 32-bit register, bits `hi` to `lo`. -/
structure Field where
  hi : Nat
  lo : Nat
deriving DecidableEq, Repr

namespace Reg
/-- GLB_ID (R1). -/
def GLB_ID : Nat := 0
/-- GLB_TOPOLOGY (R35). -/
def GLB_TOPOLOGY : Nat := 4
/-- MBX_RING (R342). -/
def MBX_RING (i0 i1 : Nat) : Nat := 0x10000000 + 256 * i0 + 4 * i1
/-- MBX_ABORT (R342). -/
def MBX_ABORT (i0 : Nat) : Nat := 0x10000080 + 256 * i0
/-- MBX_OWNER_STATUS (R342). -/
def MBX_OWNER_STATUS (i0 : Nat) : Nat := 0x10000084 + 256 * i0
/-- MBX_INFLIGHT (R342). -/
def MBX_INFLIGHT (i0 : Nat) : Nat := 0x10000088 + 256 * i0
/-- MBX_COLLIDE (R334). -/
def MBX_COLLIDE (i0 : Nat) : Nat := 0x1000008c + 256 * i0
/-- MBX_COLLIDE_COUNT (R334). -/
def MBX_COLLIDE_COUNT (i0 : Nat) : Nat := 0x10000090 + 256 * i0
/-- MBX_RING_REFUSED (R329). -/
def MBX_RING_REFUSED (i0 : Nat) : Nat := 0x10000094 + 256 * i0
/-- MBX_STATUS (R342). -/
def MBX_STATUS : Nat := 0x1f000
/-- MBX_GCS_VERSION (R337). -/
def MBX_GCS_VERSION : Nat := 0x1f004
/-- MBX_BOOT_REPORT (R339). -/
def MBX_BOOT_REPORT : Nat := 0x1f008
/-- MBX_C_VERSION (R342). -/
def MBX_C_VERSION : Nat := 0x1f00c
/-- MBX_S_VERSION (R342). -/
def MBX_S_VERSION : Nat := 0x1f010
/-- MBX_EPOCHS (R342). -/
def MBX_EPOCHS : Nat := 0x1f014
/-- EVQ_CTRL (R321). -/
def EVQ_CTRL (i0 : Nat) : Nat := 0x20000 + 256 * i0
/-- EVQ_BASE_LO (R321). -/
def EVQ_BASE_LO (i0 : Nat) : Nat := 0x20004 + 256 * i0
/-- EVQ_BASE_HI (R321). -/
def EVQ_BASE_HI (i0 : Nat) : Nat := 0x20008 + 256 * i0
/-- EVQ_MOD (R323). -/
def EVQ_MOD (i0 : Nat) : Nat := 0x2000c + 256 * i0
/-- EVQ_PROD (R321). -/
def EVQ_PROD (i0 : Nat) : Nat := 0x20010 + 256 * i0
/-- EVQ_CONS (R323). -/
def EVQ_CONS (i0 : Nat) : Nat := 0x20014 + 256 * i0
/-- EVQ_STATUS (R322). -/
def EVQ_STATUS (i0 : Nat) : Nat := 0x20018 + 256 * i0
/-- EVQ_LOST (R322). -/
def EVQ_LOST (i0 : Nat) : Nat := 0x2001c + 256 * i0
/-- EVQ_SEQ (R321). -/
def EVQ_SEQ (i0 : Nat) : Nat := 0x20020 + 256 * i0
/-- EVQ_BAD_CONS (R323). -/
def EVQ_BAD_CONS (i0 : Nat) : Nat := 0x20024 + 256 * i0
/-- HDMA_STATUS (R301). -/
def HDMA_STATUS : Nat := 0x40000
/-- HDMA_RD_INFLIGHT (R319). -/
def HDMA_RD_INFLIGHT : Nat := 0x40004
/-- HDMA_MSIX_ALLOC (R306). -/
def HDMA_MSIX_ALLOC : Nat := 0x40008
/-- HDMA_RD_WAIT (R319). -/
def HDMA_RD_WAIT : Nat := 0x40100
/-- HDMA_RD_ERR (R313). -/
def HDMA_RD_ERR : Nat := 0x40104
/-- HDMA_BAD_TAIL (R308). -/
def HDMA_BAD_TAIL : Nat := 0x40108
/-- HDMA_BAD_VECTOR (R307). -/
def HDMA_BAD_VECTOR : Nat := 0x4010c
/-- HDMA_Q_CTRL (R308). -/
def HDMA_Q_CTRL (i0 : Nat) : Nat := 0x60000 + 64 * i0
/-- HDMA_TXQ_BASE_LO (R308). -/
def HDMA_TXQ_BASE_LO (i0 : Nat) : Nat := 0x60004 + 64 * i0
/-- HDMA_TXQ_BASE_HI (R308). -/
def HDMA_TXQ_BASE_HI (i0 : Nat) : Nat := 0x60008 + 64 * i0
/-- HDMA_TXQ_TAIL (R308). -/
def HDMA_TXQ_TAIL (i0 : Nat) : Nat := 0x6000c + 64 * i0
/-- HDMA_TXQ_HEAD (R308). -/
def HDMA_TXQ_HEAD (i0 : Nat) : Nat := 0x60010 + 64 * i0
/-- HDMA_RXQ_BASE_LO (R308). -/
def HDMA_RXQ_BASE_LO (i0 : Nat) : Nat := 0x60014 + 64 * i0
/-- HDMA_RXQ_BASE_HI (R308). -/
def HDMA_RXQ_BASE_HI (i0 : Nat) : Nat := 0x60018 + 64 * i0
/-- HDMA_RXQ_TAIL (R308). -/
def HDMA_RXQ_TAIL (i0 : Nat) : Nat := 0x6001c + 64 * i0
/-- HDMA_RXQ_HEAD (R308). -/
def HDMA_RXQ_HEAD (i0 : Nat) : Nat := 0x60020 + 64 * i0
/-- HDMA_Q_COAL (R316). -/
def HDMA_Q_COAL (i0 : Nat) : Nat := 0x60024 + 64 * i0
/-- HDMA_Q_STATUS (R318). -/
def HDMA_Q_STATUS (i0 : Nat) : Nat := 0x60028 + 64 * i0
/-- HDMA_RX_DIVERT (R318). -/
def HDMA_RX_DIVERT (i0 : Nat) : Nat := 0x6002c + 64 * i0
/-- HDMA_TX_FRAMES (R312). -/
def HDMA_TX_FRAMES (i0 : Nat) : Nat := 0x60030 + 64 * i0
/-- HDMA_RX_FRAMES (R315). -/
def HDMA_RX_FRAMES (i0 : Nat) : Nat := 0x60034 + 64 * i0
/-- SWC_STATUS (R42). -/
def SWC_STATUS : Nat := 0x80000
/-- SWC_CFG (R79). -/
def SWC_CFG : Nat := 0x80004
/-- SWC_FREE_CELLS (R513). -/
def SWC_FREE_CELLS : Nat := 0x80008
/-- SWC_FREE_DESC (R40). -/
def SWC_FREE_DESC : Nat := 0x8000c
/-- SWC_SHARED_CFG (R57). -/
def SWC_SHARED_CFG : Nat := 0x80010
/-- SWC_SHARED_USED (R57). -/
def SWC_SHARED_USED : Nat := 0x80014
/-- SWC_MAX_SOJOURN (R60). -/
def SWC_MAX_SOJOURN : Nat := 0x80018
/-- SWC_AUDIT_STATUS (R72). -/
def SWC_AUDIT_STATUS : Nat := 0x8001c
/-- SWC_CELLS_RETIRED (R47). -/
def SWC_CELLS_RETIRED : Nat := 0x80020
/-- SWC_NULL_FRAMES (R61). -/
def SWC_NULL_FRAMES : Nat := 0x80100
/-- SWC_CASCADE_REJECT (R33). -/
def SWC_CASCADE_REJECT : Nat := 0x80104
/-- SWC_LEAK_RECLAIM (R72). -/
def SWC_LEAK_RECLAIM : Nat := 0x80108
/-- SWC_DOUBLE_FREE (R74). -/
def SWC_DOUBLE_FREE : Nat := 0x8010c
/-- SWC_BASIN_CE (R47). -/
def SWC_BASIN_CE : Nat := 0x80110
/-- SWC_BASIN_UE (R47). -/
def SWC_BASIN_UE : Nat := 0x80114
/-- SWC_AGEOUT (R60). -/
def SWC_AGEOUT : Nat := 0x80118
/-- SWC_SAMPLE_SKIP (R77). -/
def SWC_SAMPLE_SKIP : Nat := 0x8011c
/-- SWC_RUNT (R61). -/
def SWC_RUNT : Nat := 0x80120
/-- SWC_TAIL_CAUSE (R63). -/
def SWC_TAIL_CAUSE (i0 : Nat) : Nat := 0x80140 + 4 * i0
/-- SWC_STOMP_TX (R64). -/
def SWC_STOMP_TX (i0 : Nat) : Nat := 0x80200 + 4 * i0
/-- SWC_HDRM_DROP (R58). -/
def SWC_HDRM_DROP (i0 : Nat) : Nat := 0x80280 + 4 * i0
/-- SWC_PFC_XOFF_TX (R56). -/
def SWC_PFC_XOFF_TX (i0 : Nat) : Nat := 0x80300 + 4 * i0
/-- SWC_CREDIT_STALL (R59). -/
def SWC_CREDIT_STALL (i0 : Nat) : Nat := 0x80380 + 4 * i0
/-- SWC_VOQ_CFG (R48). -/
def SWC_VOQ_CFG (i0 : Nat) : Nat := 0x81000 + 4 * i0
/-- SWC_VOQ_THR (R56). -/
def SWC_VOQ_THR (i0 : Nat) : Nat := 0x81400 + 4 * i0
/-- SWC_VOQ_HDRM (R58). -/
def SWC_VOQ_HDRM (i0 : Nat) : Nat := 0x81800 + 4 * i0
/-- SWC_PC_USED (R56). -/
def SWC_PC_USED (i0 : Nat) : Nat := 0x81c00 + 4 * i0
/-- SWC_MMQ_CFG (R51). -/
def SWC_MMQ_CFG (i0 : Nat) : Nat := 0x82000 + 4 * i0
/-- SWC_MMQ_USED (R51). -/
def SWC_MMQ_USED (i0 : Nat) : Nat := 0x82200 + 4 * i0
/-- SWC_MMQ_DROP (R51). -/
def SWC_MMQ_DROP (i0 : Nat) : Nat := 0x82400 + 4 * i0
/-- SWC_MMQ_PEAK (R513). -/
def SWC_MMQ_PEAK (i0 : Nat) : Nat := 0x82600 + 4 * i0
/-- SWC_SMP_CFG (R75). -/
def SWC_SMP_CFG (i0 : Nat) : Nat := 0x82800 + 4 * i0
/-- SWC_SMP_POINT (R75). -/
def SWC_SMP_POINT (i0 : Nat) : Nat := 0x82900 + 4 * i0
/-- SWC_SMP_COUNT (R75). -/
def SWC_SMP_COUNT (i0 : Nat) : Nat := 0x82a00 + 4 * i0
/-- SWC_VOQ_DEPTH (R30). -/
def SWC_VOQ_DEPTH (i0 : Nat) : Nat := 0x90000 + 4 * i0
/-- FWD_STATUS (R83). -/
def FWD_STATUS : Nat := 0xc0000
/-- FWD_CFG (R117). -/
def FWD_CFG : Nat := 0xc0004
/-- FWD_HASH_SEED0 (R87). -/
def FWD_HASH_SEED0 : Nat := 0xc0008
/-- FWD_HASH_SEED1 (R87). -/
def FWD_HASH_SEED1 : Nat := 0xc000c
/-- FWD_AGE_CFG (R98). -/
def FWD_AGE_CFG : Nat := 0xc0010
/-- FWD_AGE_NOW (R98). -/
def FWD_AGE_NOW : Nat := 0xc0014
/-- FWD_LEARN_CFG (R102). -/
def FWD_LEARN_CFG : Nat := 0xc0018
/-- FWD_EM_COUNT (R117). -/
def FWD_EM_COUNT : Nat := 0xc001c
/-- FWD_CHANGE_SEQ (R82). -/
def FWD_CHANGE_SEQ : Nat := 0xc0020
/-- FWD_SHADOW_SEQ (R82). -/
def FWD_SHADOW_SEQ : Nat := 0xc0024
/-- FWD_CASCADE_PATH (R106). -/
def FWD_CASCADE_PATH (i0 : Nat) : Nat := 0xc0030 + 4 * i0
/-- FWD_PORT_CFG (R101). -/
def FWD_PORT_CFG (i0 : Nat) : Nat := 0xc0100 + 4 * i0
/-- FWD_LEARN_APPLIED (R89). -/
def FWD_LEARN_APPLIED : Nat := 0xc0200
/-- FWD_LEARN_DROP (R97). -/
def FWD_LEARN_DROP : Nat := 0xc0204
/-- FWD_LEARN_STALE (R103). -/
def FWD_LEARN_STALE : Nat := 0xc0208
/-- FWD_LEARN_LIMITED (R96). -/
def FWD_LEARN_LIMITED : Nat := 0xc020c
/-- FWD_REFRESH_SKIP (R97). -/
def FWD_REFRESH_SKIP : Nat := 0xc0210
/-- FWD_MOVE_APPLIED (R103). -/
def FWD_MOVE_APPLIED : Nat := 0xc0214
/-- FWD_MOVE_SUSPECT (R103). -/
def FWD_MOVE_SUSPECT : Nat := 0xc0218
/-- FWD_MOVE_HELD (R103). -/
def FWD_MOVE_HELD : Nat := 0xc021c
/-- FWD_STATIC_CONFLICT (R96). -/
def FWD_STATIC_CONFLICT : Nat := 0xc0220
/-- FWD_RECENT_OVF (R102). -/
def FWD_RECENT_OVF : Nat := 0xc0224
/-- FWD_EVICT (R92). -/
def FWD_EVICT : Nat := 0xc0228
/-- FWD_INSERT_FAIL (R93). -/
def FWD_INSERT_FAIL : Nat := 0xc022c
/-- FWD_AGED_OUT (R99). -/
def FWD_AGED_OUT : Nat := 0xc0230
/-- FWD_VLAN_DROP (R84). -/
def FWD_VLAN_DROP : Nat := 0xc0234
/-- FWD_ACL_TIE (R113). -/
def FWD_ACL_TIE : Nat := 0xc0238
/-- FWD_ACL_DENY (R85). -/
def FWD_ACL_DENY : Nat := 0xc023c
/-- FWD_UE_DROP (R114). -/
def FWD_UE_DROP : Nat := 0xc0240
/-- FWD_SCRUB_PASSES (R115). -/
def FWD_SCRUB_PASSES : Nat := 0xc0244
/-- FWD_SCRUB_DEFER (R116). -/
def FWD_SCRUB_DEFER : Nat := 0xc0248
/-- FWD_SHADOW_AUTH (R115). -/
def FWD_SHADOW_AUTH : Nat := 0xc024c
/-- FWD_ECC_CE (R114). -/
def FWD_ECC_CE (i0 : Nat) : Nat := 0xc0250 + 4 * i0
/-- FWD_ECC_UE (R114). -/
def FWD_ECC_UE (i0 : Nat) : Nat := 0xc0270 + 4 * i0
/-- FWD_SCRUB_REPAIR (R116). -/
def FWD_SCRUB_REPAIR (i0 : Nat) : Nat := 0xc0290 + 4 * i0
/-- FWD_PORT_LEARNED (R96). -/
def FWD_PORT_LEARNED (i0 : Nat) : Nat := 0xc0400 + 4 * i0
/-- FWD_ACL_TIE_LAST (R113). -/
def FWD_ACL_TIE_LAST : Nat := 0xc0500
/-- FWD_ACL_HIT (R113). -/
def FWD_ACL_HIT (i0 : Nat) : Nat := 0xd0000 + 4 * i0
/-- TSS_STATUS (R146). -/
def TSS_STATUS : Nat := 0x100000
/-- TSS_GCL_INDEX (R146). -/
def TSS_GCL_INDEX : Nat := 0x100010
/-- TSS_GCL_DATA (R146). -/
def TSS_GCL_DATA : Nat := 0x100014
/-- TSS_PCP_MAP (R118). -/
def TSS_PCP_MAP (i0 : Nat) : Nat := 0x100080 + 4 * i0
/-- TSS_PORT_CFG (R120). -/
def TSS_PORT_CFG (i0 : Nat) : Nat := 0x100100 + 4 * i0
/-- TSS_DWRR_QUANTUM (R121). -/
def TSS_DWRR_QUANTUM (i0 : Nat) : Nat := 0x100200 + 4 * i0
/-- TSS_CLASS_MAXLEN (R121). -/
def TSS_CLASS_MAXLEN (i0 : Nat) : Nat := 0x100600 + 4 * i0
/-- TSS_CBS_IDLE (R130). -/
def TSS_CBS_IDLE (i0 : Nat) : Nat := 0x100a00 + 4 * i0
/-- TSS_CBS_HICREDIT (R130). -/
def TSS_CBS_HICREDIT (i0 : Nat) : Nat := 0x100ac0 + 4 * i0
/-- TSS_GCL_CTRL (R124). -/
def TSS_GCL_CTRL (i0 : Nat) : Nat := 0x100c00 + 32 * i0
/-- TSS_GCL_BASE_S (R124). -/
def TSS_GCL_BASE_S (i0 : Nat) : Nat := 0x100c04 + 32 * i0
/-- TSS_GCL_BASE_NS (R124). -/
def TSS_GCL_BASE_NS (i0 : Nat) : Nat := 0x100c08 + 32 * i0
/-- TSS_GCL_CYCLE_NS (R122). -/
def TSS_GCL_CYCLE_NS (i0 : Nat) : Nat := 0x100c0c + 32 * i0
/-- TSS_GCL_EXT_NS (R124). -/
def TSS_GCL_EXT_NS (i0 : Nat) : Nat := 0x100c10 + 32 * i0
/-- TSS_GCL_ENTRY_NOW (R122). -/
def TSS_GCL_ENTRY_NOW (i0 : Nat) : Nat := 0x100c14 + 32 * i0
/-- TSS_SLUICE_GATE_CTRL (R136). -/
def TSS_SLUICE_GATE_CTRL (i0 : Nat) : Nat := 0x101000 + 16 * i0
/-- TSS_SLUICE_GATE_CYCLE (R136). -/
def TSS_SLUICE_GATE_CYCLE (i0 : Nat) : Nat := 0x101004 + 16 * i0
/-- TSS_SLUICE_GATE_BASE_S (R136). -/
def TSS_SLUICE_GATE_BASE_S (i0 : Nat) : Nat := 0x101008 + 16 * i0
/-- TSS_SLUICE_GATE_BASE_NS (R136). -/
def TSS_SLUICE_GATE_BASE_NS (i0 : Nat) : Nat := 0x10100c + 16 * i0
/-- TSS_FRER_CFG (R137). -/
def TSS_FRER_CFG (i0 : Nat) : Nat := 0x102000 + 32 * i0
/-- TSS_FRER_HANDLE0 (R137). -/
def TSS_FRER_HANDLE0 (i0 : Nat) : Nat := 0x102004 + 32 * i0
/-- TSS_FRER_HANDLE1 (R137). -/
def TSS_FRER_HANDLE1 (i0 : Nat) : Nat := 0x102008 + 32 * i0
/-- TSS_FRER_PASSED (R137). -/
def TSS_FRER_PASSED (i0 : Nat) : Nat := 0x10200c + 32 * i0
/-- TSS_FRER_DISCARDED (R137). -/
def TSS_FRER_DISCARDED (i0 : Nat) : Nat := 0x102010 + 32 * i0
/-- TSS_FRER_OOO (R137). -/
def TSS_FRER_OOO (i0 : Nat) : Nat := 0x102014 + 32 * i0
/-- TSS_FRER_ROGUE (R137). -/
def TSS_FRER_ROGUE (i0 : Nat) : Nat := 0x102018 + 32 * i0
/-- TSS_FRER_RESETS (R137). -/
def TSS_FRER_RESETS (i0 : Nat) : Nat := 0x10201c + 32 * i0
/-- TSS_QS_CFG (R140). -/
def TSS_QS_CFG (i0 : Nat) : Nat := 0x102800 + 4 * i0
/-- TSS_QS_LIST (R140). -/
def TSS_QS_LIST (i0 i1 : Nat) : Nat := 0x102c00 + 1024 * i0 + 4 * i1
/-- TSS_PREEMPT_TX (R128). -/
def TSS_PREEMPT_TX (i0 : Nat) : Nat := 0x103c00 + 4 * i0
/-- TSS_NOTICE_EXPIRED (R129). -/
def TSS_NOTICE_EXPIRED (i0 : Nat) : Nat := 0x103c80 + 4 * i0
/-- TSS_GATE_OVERRUN (R125). -/
def TSS_GATE_OVERRUN (i0 : Nat) : Nat := 0x103d00 + 4 * i0
/-- TSS_GCL_RESTART (R126). -/
def TSS_GCL_RESTART (i0 : Nat) : Nat := 0x103d80 + 4 * i0
/-- TSS_PFC_RX (R510). -/
def TSS_PFC_RX (i0 : Nat) : Nat := 0x103e00 + 4 * i0
/-- TSS_QS_SKIP (R140). -/
def TSS_QS_SKIP (i0 : Nat) : Nat := 0x103e80 + 4 * i0
/-- TSS_BOUND_RECOMPUTE (R144). -/
def TSS_BOUND_RECOMPUTE : Nat := 0x103e90
/-- TSS_BOUND_REFUSED (R144). -/
def TSS_BOUND_REFUSED : Nat := 0x103e94
/-- TSS_BOUND_BROKEN_COUNT (R145). -/
def TSS_BOUND_BROKEN_COUNT : Nat := 0x103e98
/-- TSS_SLUICE_BLOCKED_DROP (R135). -/
def TSS_SLUICE_BLOCKED_DROP : Nat := 0x103ea0
/-- TSS_SLUICE_SDU_DROP (R135). -/
def TSS_SLUICE_SDU_DROP : Nat := 0x103ea4
/-- TSS_SLUICE_GATE_DROP (R135). -/
def TSS_SLUICE_GATE_DROP : Nat := 0x103ea8
/-- TSS_WEIR_RATE (R132). -/
def TSS_WEIR_RATE (i0 : Nat) : Nat := 0x104000 + 8 * i0
/-- TSS_WEIR_BURST (R132). -/
def TSS_WEIR_BURST (i0 : Nat) : Nat := 0x104004 + 8 * i0
/-- TSS_SLUICE_FILTER (R135). -/
def TSS_SLUICE_FILTER (i0 : Nat) : Nat := 0x10e000 + 4 * i0
/-- TSS_STREAM_BOUND (R144). -/
def TSS_STREAM_BOUND (i0 : Nat) : Nat := 0x112000 + 4 * i0
/-- TSS_STREAM_DECLARED (R144). -/
def TSS_STREAM_DECLARED (i0 : Nat) : Nat := 0x116000 + 4 * i0
/-- TSS_WEIR_RED (R133). -/
def TSS_WEIR_RED (i0 : Nat) : Nat := 0x11a000 + 4 * i0
/-- TSS_SLUICE_DROP (R135). -/
def TSS_SLUICE_DROP (i0 : Nat) : Nat := 0x11f000 + 4 * i0
/-- MAC_STATUS (R203). -/
def MAC_STATUS (i0 : Nat) : Nat := 0x140000 + 4096 * i0
/-- MAC_CFG (R178). -/
def MAC_CFG (i0 : Nat) : Nat := 0x140004 + 4096 * i0
/-- MAC_LINK_CFG (R184). -/
def MAC_LINK_CFG (i0 : Nat) : Nat := 0x140008 + 4096 * i0
/-- MAC_EEE_CFG (R192). -/
def MAC_EEE_CFG (i0 : Nat) : Nat := 0x14000c + 4096 * i0
/-- MAC_RX_PHY_LAT (R196). -/
def MAC_RX_PHY_LAT (i0 : Nat) : Nat := 0x140010 + 4096 * i0
/-- MAC_TX_PHY_LAT (R196). -/
def MAC_TX_PHY_LAT (i0 : Nat) : Nat := 0x140014 + 4096 * i0
/-- MAC_PLCA_CFG (R186). -/
def MAC_PLCA_CFG (i0 : Nat) : Nat := 0x140020 + 4096 * i0
/-- MAC_PLCA_LIMIT (R189). -/
def MAC_PLCA_LIMIT (i0 : Nat) : Nat := 0x140024 + 4096 * i0
/-- MAC_PLCA_STATUS (R187). -/
def MAC_PLCA_STATUS (i0 : Nat) : Nat := 0x140028 + 4096 * i0
/-- MAC_SEC_CFG (R198). -/
def MAC_SEC_CFG (i0 : Nat) : Nat := 0x140040 + 4096 * i0
/-- MAC_SEC_REPLAY_WINDOW (R201). -/
def MAC_SEC_REPLAY_WINDOW (i0 : Nat) : Nat := 0x140044 + 4096 * i0
/-- MAC_SEC_BYPASS (R199). -/
def MAC_SEC_BYPASS (i0 i1 : Nat) : Nat := 0x140048 + 4096 * i0 + 4 * i1
/-- MAC_STEER (R190). -/
def MAC_STEER (i0 i1 : Nat) : Nat := 0x140100 + 4096 * i0 + 8 * i1
/-- MAC_STEER_TYPE (R190). -/
def MAC_STEER_TYPE (i0 i1 : Nat) : Nat := 0x140104 + 4096 * i0 + 8 * i1
/-- MAC_WAKE_PAT (R194). -/
def MAC_WAKE_PAT (i0 i1 : Nat) : Nat := 0x140200 + 4096 * i0 + 4 * i1
/-- MAC_WAKE_PAT_EN (R194). -/
def MAC_WAKE_PAT_EN (i0 : Nat) : Nat := 0x140400 + 4096 * i0
/-- MAC_RX_OCTETS_LO (R202). -/
def MAC_RX_OCTETS_LO (i0 : Nat) : Nat := 0x140800 + 4096 * i0
/-- MAC_RX_OCTETS_HI (R202). -/
def MAC_RX_OCTETS_HI (i0 : Nat) : Nat := 0x140804 + 4096 * i0
/-- MAC_RX_FRAMES_OK (R185). -/
def MAC_RX_FRAMES_OK (i0 : Nat) : Nat := 0x140808 + 4096 * i0
/-- MAC_RX_MCAST (R185). -/
def MAC_RX_MCAST (i0 : Nat) : Nat := 0x14080c + 4096 * i0
/-- MAC_RX_BCAST (R185). -/
def MAC_RX_BCAST (i0 : Nat) : Nat := 0x140810 + 4096 * i0
/-- MAC_RX_FCS_ERR (R185). -/
def MAC_RX_FCS_ERR (i0 : Nat) : Nat := 0x140814 + 4096 * i0
/-- MAC_RX_SYMBOL_ERR (R185). -/
def MAC_RX_SYMBOL_ERR (i0 : Nat) : Nat := 0x140818 + 4096 * i0
/-- MAC_RX_STOMP (R185). -/
def MAC_RX_STOMP (i0 : Nat) : Nat := 0x14081c + 4096 * i0
/-- MAC_RX_RUNT (R185). -/
def MAC_RX_RUNT (i0 : Nat) : Nat := 0x140820 + 4096 * i0
/-- MAC_RX_OVERSIZE (R185). -/
def MAC_RX_OVERSIZE (i0 : Nat) : Nat := 0x140824 + 4096 * i0
/-- MAC_RX_PAUSE (R185). -/
def MAC_RX_PAUSE (i0 : Nat) : Nat := 0x140828 + 4096 * i0
/-- MAC_TX_OCTETS_LO (R202). -/
def MAC_TX_OCTETS_LO (i0 : Nat) : Nat := 0x140830 + 4096 * i0
/-- MAC_TX_OCTETS_HI (R202). -/
def MAC_TX_OCTETS_HI (i0 : Nat) : Nat := 0x140834 + 4096 * i0
/-- MAC_TX_FRAMES_OK (R185). -/
def MAC_TX_FRAMES_OK (i0 : Nat) : Nat := 0x140838 + 4096 * i0
/-- MAC_TX_PAUSE (R185). -/
def MAC_TX_PAUSE (i0 : Nat) : Nat := 0x14083c + 4096 * i0
/-- MAC_TX_ABORT (R67). -/
def MAC_TX_ABORT (i0 : Nat) : Nat := 0x140840 + 4096 * i0
/-- MAC_TX_LPI_ENTRIES (R192). -/
def MAC_TX_LPI_ENTRIES (i0 : Nat) : Nat := 0x140848 + 4096 * i0
/-- MAC_RX_LPI_ENTRIES (R192). -/
def MAC_RX_LPI_ENTRIES (i0 : Nat) : Nat := 0x14084c + 4096 * i0
/-- MAC_LPI_WAKE_DELAYED (R192). -/
def MAC_LPI_WAKE_DELAYED (i0 : Nat) : Nat := 0x140850 + 4096 * i0
/-- MAC_LINK_DOWN (R184). -/
def MAC_LINK_DOWN (i0 : Nat) : Nat := 0x140854 + 4096 * i0
/-- MAC_COLLISIONS (R188). -/
def MAC_COLLISIONS (i0 : Nat) : Nat := 0x140864 + 4096 * i0
/-- MAC_TX_EXCESS_COLL (R188). -/
def MAC_TX_EXCESS_COLL (i0 : Nat) : Nat := 0x140868 + 4096 * i0
/-- MAC_PLCA_YIELD (R187). -/
def MAC_PLCA_YIELD (i0 : Nat) : Nat := 0x14086c + 4096 * i0
/-- MAC_SEC_TX_PROTECTED (R199). -/
def MAC_SEC_TX_PROTECTED (i0 : Nat) : Nat := 0x140880 + 4096 * i0
/-- MAC_SEC_TX_PN_EXHAUST (R200). -/
def MAC_SEC_TX_PN_EXHAUST (i0 : Nat) : Nat := 0x140884 + 4096 * i0
/-- MAC_SEC_RX_OK (R201). -/
def MAC_SEC_RX_OK (i0 : Nat) : Nat := 0x140888 + 4096 * i0
/-- MAC_SEC_RX_INVALID (R201). -/
def MAC_SEC_RX_INVALID (i0 : Nat) : Nat := 0x14088c + 4096 * i0
/-- MAC_SEC_RX_NOT_VALID (R201). -/
def MAC_SEC_RX_NOT_VALID (i0 : Nat) : Nat := 0x140890 + 4096 * i0
/-- MAC_SEC_RX_LATE (R201). -/
def MAC_SEC_RX_LATE (i0 : Nat) : Nat := 0x140894 + 4096 * i0
/-- MAC_SEC_RX_NO_SA (R201). -/
def MAC_SEC_RX_NO_SA (i0 : Nat) : Nat := 0x140898 + 4096 * i0
/-- MAC_SEC_RX_UNTAGGED (R201). -/
def MAC_SEC_RX_UNTAGGED (i0 : Nat) : Nat := 0x14089c + 4096 * i0
/-- MAC_SEC_RX_BYPASS (R201). -/
def MAC_SEC_RX_BYPASS (i0 : Nat) : Nat := 0x1408a0 + 4096 * i0
/-- SQ_CFG (R181). -/
def SQ_CFG (i0 : Nat) : Nat := 0x158000 + 256 * i0
/-- SQ_STATUS (R183). -/
def SQ_STATUS (i0 : Nat) : Nat := 0x158004 + 256 * i0
/-- SQ_LANE_EQ (R182). -/
def SQ_LANE_EQ (i0 i1 : Nat) : Nat := 0x158010 + 256 * i0 + 4 * i1
/-- SQ_PLL_UNLOCK (R183). -/
def SQ_PLL_UNLOCK (i0 : Nat) : Nat := 0x158020 + 256 * i0
/-- CAN_STATUS (R243). -/
def CAN_STATUS (i0 : Nat) : Nat := 0x180000 + 4096 * i0
/-- CAN_CFG (R213). -/
def CAN_CFG (i0 : Nat) : Nat := 0x180004 + 4096 * i0
/-- CAN_NBT (R209). -/
def CAN_NBT (i0 : Nat) : Nat := 0x180008 + 4096 * i0
/-- CAN_DBT (R209). -/
def CAN_DBT (i0 : Nat) : Nat := 0x18000c + 4096 * i0
/-- CAN_TDC (R211). -/
def CAN_TDC (i0 : Nat) : Nat := 0x180010 + 4096 * i0
/-- CAN_XL_PWM (R212). -/
def CAN_XL_PWM (i0 : Nat) : Nat := 0x180014 + 4096 * i0
/-- CAN_ERR (R214). -/
def CAN_ERR (i0 : Nat) : Nat := 0x180018 + 4096 * i0
/-- CAN_RXQ_CFG (R218). -/
def CAN_RXQ_CFG (i0 : Nat) : Nat := 0x18001c + 4096 * i0
/-- CAN_TXQ_CFG (R222). -/
def CAN_TXQ_CFG (i0 : Nat) : Nat := 0x180020 + 4096 * i0
/-- CAN_SCHED_CFG (R223). -/
def CAN_SCHED_CFG (i0 : Nat) : Nat := 0x180024 + 4096 * i0
/-- CAN_SCHED_CYCLE_NS (R223). -/
def CAN_SCHED_CYCLE_NS (i0 : Nat) : Nat := 0x180028 + 4096 * i0
/-- CAN_SCHED_BASE_S (R223). -/
def CAN_SCHED_BASE_S (i0 : Nat) : Nat := 0x18002c + 4096 * i0
/-- CAN_SCHED_BASE_NS (R223). -/
def CAN_SCHED_BASE_NS (i0 : Nat) : Nat := 0x180030 + 4096 * i0
/-- CAN_SCHED_NOW (R223). -/
def CAN_SCHED_NOW (i0 : Nat) : Nat := 0x180034 + 4096 * i0
/-- CAN_RX_OK (R216). -/
def CAN_RX_OK (i0 : Nat) : Nat := 0x180100 + 4096 * i0
/-- CAN_RX_REJECT (R216). -/
def CAN_RX_REJECT (i0 : Nat) : Nat := 0x180104 + 4096 * i0
/-- CAN_RXQ_OVF (R218). -/
def CAN_RXQ_OVF (i0 i1 : Nat) : Nat := 0x180108 + 4096 * i0 + 4 * i1
/-- CAN_TX_OK (R222). -/
def CAN_TX_OK (i0 : Nat) : Nat := 0x180110 + 4096 * i0
/-- CAN_TX_ARB_LOST (R222). -/
def CAN_TX_ARB_LOST (i0 : Nat) : Nat := 0x180114 + 4096 * i0
/-- CAN_TXQ_FULL (R221). -/
def CAN_TXQ_FULL (i0 : Nat) : Nat := 0x180118 + 4096 * i0
/-- CAN_TX_AGED (R222). -/
def CAN_TX_AGED (i0 : Nat) : Nat := 0x18011c + 4096 * i0
/-- CAN_SCHED_MISS (R224). -/
def CAN_SCHED_MISS (i0 : Nat) : Nat := 0x180120 + 4096 * i0
/-- CAN_SCHED_SKIP (R213). -/
def CAN_SCHED_SKIP (i0 : Nat) : Nat := 0x180124 + 4096 * i0
/-- CAN_SCHED_RESTART (R227). -/
def CAN_SCHED_RESTART (i0 : Nat) : Nat := 0x180128 + 4096 * i0
/-- CAN_ERR_TYPE (R214). -/
def CAN_ERR_TYPE (i0 i1 : Nat) : Nat := 0x18012c + 4096 * i0 + 4 * i1
/-- CAN_BUS_OFF (R215). -/
def CAN_BUS_OFF (i0 : Nat) : Nat := 0x180140 + 4096 * i0
/-- CAN_TDC_SAT (R211). -/
def CAN_TDC_SAT (i0 : Nat) : Nat := 0x180144 + 4096 * i0
/-- CAN_PEX (R207). -/
def CAN_PEX (i0 : Nat) : Nat := 0x180148 + 4096 * i0
/-- CAN_ERR_REC_LOST (R214). -/
def CAN_ERR_REC_LOST (i0 : Nat) : Nat := 0x18014c + 4096 * i0
/-- CAN_FILT_VAL (R216). -/
def CAN_FILT_VAL (i0 i1 : Nat) : Nat := 0x180200 + 4096 * i0 + 8 * i1
/-- CAN_FILT_MASK (R216). -/
def CAN_FILT_MASK (i0 i1 : Nat) : Nat := 0x180204 + 4096 * i0 + 8 * i1
/-- CAN_SCHED_CELL (R223). -/
def CAN_SCHED_CELL (i0 i1 : Nat) : Nat := 0x180400 + 4096 * i0 + 4 * i1
/-- CAN_SCHED_SLOT (R223). -/
def CAN_SCHED_SLOT (i0 i1 : Nat) : Nat := 0x180800 + 4096 * i0 + 8 * i1
/-- CAN_SCHED_WIN (R223). -/
def CAN_SCHED_WIN (i0 i1 : Nat) : Nat := 0x180804 + 4096 * i0 + 8 * i1
/-- LIN_STATUS (R232). -/
def LIN_STATUS (i0 : Nat) : Nat := 0x1b0000 + 2048 * i0
/-- LIN_CFG (R232). -/
def LIN_CFG (i0 : Nat) : Nat := 0x1b0004 + 2048 * i0
/-- LIN_RATE (R230). -/
def LIN_RATE (i0 : Nat) : Nat := 0x1b0008 + 2048 * i0
/-- LIN_SCHED_CTRL (R232). -/
def LIN_SCHED_CTRL (i0 : Nat) : Nat := 0x1b000c + 2048 * i0
/-- LIN_TIMING (R231). -/
def LIN_TIMING (i0 : Nat) : Nat := 0x1b0010 + 2048 * i0
/-- LIN_ERR (R234). -/
def LIN_ERR (i0 i1 : Nat) : Nat := 0x1b0100 + 2048 * i0 + 4 * i1
/-- LIN_FRAMES_OK (R234). -/
def LIN_FRAMES_OK (i0 : Nat) : Nat := 0x1b011c + 2048 * i0
/-- LIN_FRAME (R233). -/
def LIN_FRAME (i0 i1 : Nat) : Nat := 0x1b0200 + 2048 * i0 + 4 * i1
/-- LIN_SPORADIC (R232). -/
def LIN_SPORADIC (i0 i1 : Nat) : Nat := 0x1b0300 + 2048 * i0 + 4 * i1
/-- LIN_SCHED (R232). -/
def LIN_SCHED (i0 i1 i2 : Nat) : Nat := 0x1b0400 + 2048 * i0 + 256 * i1 + 4 * i2
/-- FBUS_RILL_CFG (R237). -/
def FBUS_RILL_CFG (i0 : Nat) : Nat := 0x1b8000 + 16 * i0
/-- FBUS_RILL_STATUS (R240). -/
def FBUS_RILL_STATUS (i0 : Nat) : Nat := 0x1b8004 + 16 * i0
/-- FBUS_RILL_TAG (R241). -/
def FBUS_RILL_TAG (i0 : Nat) : Nat := 0x1b8008 + 16 * i0
/-- FBUS_RILL_WIN (R241). -/
def FBUS_RILL_WIN (i0 i1 : Nat) : Nat := 0x1b9000 + 64 * i0 + 4 * i1
/-- CANW_CFG (R228). -/
def CANW_CFG (i0 : Nat) : Nat := 0x1ba000 + 64 * i0
/-- CANW_ID (R228). -/
def CANW_ID (i0 : Nat) : Nat := 0x1ba004 + 64 * i0
/-- CANW_ID_MASK (R228). -/
def CANW_ID_MASK (i0 : Nat) : Nat := 0x1ba008 + 64 * i0
/-- CANW_DATA_LO (R228). -/
def CANW_DATA_LO (i0 : Nat) : Nat := 0x1ba00c + 64 * i0
/-- CANW_DATA_HI (R228). -/
def CANW_DATA_HI (i0 : Nat) : Nat := 0x1ba010 + 64 * i0
/-- CANW_DMASK_LO (R228). -/
def CANW_DMASK_LO (i0 : Nat) : Nat := 0x1ba014 + 64 * i0
/-- CANW_DMASK_HI (R228). -/
def CANW_DMASK_HI (i0 : Nat) : Nat := 0x1ba018 + 64 * i0
/-- CANW_STATUS (R229). -/
def CANW_STATUS (i0 : Nat) : Nat := 0x1ba01c + 64 * i0
/-- CANW_LAST (R228). -/
def CANW_LAST (i0 i1 : Nat) : Nat := 0x1ba020 + 64 * i0 + 4 * i1
/-- FBUS_RILL_DROP (R237). -/
def FBUS_RILL_DROP (i0 : Nat) : Nat := 0x1bc000 + 4 * i0
/-- FBUS_RILL_RESET (R242). -/
def FBUS_RILL_RESET (i0 : Nat) : Nat := 0x1bc100 + 4 * i0
/-- FBUS_RILL_RESET_LOST (R242). -/
def FBUS_RILL_RESET_LOST (i0 : Nat) : Nat := 0x1bc200 + 4 * i0
/-- FBUS_RILL_PKTS (R240). -/
def FBUS_RILL_PKTS (i0 : Nat) : Nat := 0x1bc300 + 4 * i0
/-- BRG_STATUS (R273). -/
def BRG_STATUS : Nat := 0x1bd000
/-- BRG_CFG (R272). -/
def BRG_CFG : Nat := 0x1bd004
/-- BRG_RULES_USED (R248). -/
def BRG_RULES_USED : Nat := 0x1bd008
/-- BRG_SRC_CFG (R248). -/
def BRG_SRC_CFG (i0 : Nat) : Nat := 0x1bd100 + 4 * i0
/-- BRG_TUNNEL_CFG (R262). -/
def BRG_TUNNEL_CFG (i0 : Nat) : Nat := 0x1bd400 + 32 * i0
/-- BRG_TUNNEL_SID_HI (R262). -/
def BRG_TUNNEL_SID_HI (i0 : Nat) : Nat := 0x1bd404 + 32 * i0
/-- BRG_TUNNEL_SID_LO (R262). -/
def BRG_TUNNEL_SID_LO (i0 : Nat) : Nat := 0x1bd408 + 32 * i0
/-- BRG_TUNNEL_DA_HI (R262). -/
def BRG_TUNNEL_DA_HI (i0 : Nat) : Nat := 0x1bd40c + 32 * i0
/-- BRG_TUNNEL_DA_LO (R262). -/
def BRG_TUNNEL_DA_LO (i0 : Nat) : Nat := 0x1bd410 + 32 * i0
/-- BRG_TUNNEL_TMO (R263). -/
def BRG_TUNNEL_TMO (i0 : Nat) : Nat := 0x1bd414 + 32 * i0
/-- BRG_TUNNEL_MTT (R263). -/
def BRG_TUNNEL_MTT (i0 : Nat) : Nat := 0x1bd418 + 32 * i0
/-- BRG_TUNNEL_TB (R263). -/
def BRG_TUNNEL_TB (i0 : Nat) : Nat := 0x1bd41c + 32 * i0
/-- BRG_RXTUN_CFG (R265). -/
def BRG_RXTUN_CFG (i0 : Nat) : Nat := 0x1bd800 + 32 * i0
/-- BRG_RXTUN_SID_HI (R265). -/
def BRG_RXTUN_SID_HI (i0 : Nat) : Nat := 0x1bd804 + 32 * i0
/-- BRG_RXTUN_SID_LO (R265). -/
def BRG_RXTUN_SID_LO (i0 : Nat) : Nat := 0x1bd808 + 32 * i0
/-- BRG_SRC_MASK (R248). -/
def BRG_SRC_MASK (i0 i1 : Nat) : Nat := 0x1bdc00 + 16 * i0 + 4 * i1
/-- BRG_SIG_TMO (R257). -/
def BRG_SIG_TMO (i0 : Nat) : Nat := 0x1be300 + 4 * i0
/-- BRG_DISPATCHED (R246). -/
def BRG_DISPATCHED : Nat := 0x1be400
/-- BRG_NO_RULE (R248). -/
def BRG_NO_RULE : Nat := 0x1be404
/-- BRG_TXQ_DROP (R253). -/
def BRG_TXQ_DROP : Nat := 0x1be408
/-- BRG_TXQ_REPLACED (R253). -/
def BRG_TXQ_REPLACED : Nat := 0x1be40c
/-- BRG_FMT_DROP (R252). -/
def BRG_FMT_DROP : Nat := 0x1be410
/-- BRG_RATE_DROP (R254). -/
def BRG_RATE_DROP : Nat := 0x1be414
/-- BRG_SIG_SHORT (R255). -/
def BRG_SIG_SHORT : Nat := 0x1be418
/-- BRG_SIG_TIMEOUT (R257). -/
def BRG_SIG_TIMEOUT : Nat := 0x1be41c
/-- BRG_J1939_CONFLICT (R258). -/
def BRG_J1939_CONFLICT : Nat := 0x1be420
/-- BRG_J1939_UNCLAIMED (R259). -/
def BRG_J1939_UNCLAIMED : Nat := 0x1be424
/-- BRG_TP_DONE (R261). -/
def BRG_TP_DONE : Nat := 0x1be428
/-- BRG_TP_ABORT (R261). -/
def BRG_TP_ABORT : Nat := 0x1be42c
/-- BRG_TP_NO_SESSION (R260). -/
def BRG_TP_NO_SESSION : Nat := 0x1be430
/-- BRG_TP_OVERSIZE (R260). -/
def BRG_TP_OVERSIZE : Nat := 0x1be434
/-- BRG_ACF_FRAMES_TX (R263). -/
def BRG_ACF_FRAMES_TX : Nat := 0x1be438
/-- BRG_ACF_MSGS_TX (R263). -/
def BRG_ACF_MSGS_TX : Nat := 0x1be43c
/-- BRG_ACF_UNSUP (R262). -/
def BRG_ACF_UNSUP : Nat := 0x1be440
/-- BRG_ACF_RX_MALFORMED (R265). -/
def BRG_ACF_RX_MALFORMED : Nat := 0x1be444
/-- BRG_ACF_RX_SEQ_GAP (R265). -/
def BRG_ACF_RX_SEQ_GAP : Nat := 0x1be448
/-- BRG_AUTH_OK (R268). -/
def BRG_AUTH_OK : Nat := 0x1be44c
/-- BRG_AUTH_FAIL (R268). -/
def BRG_AUTH_FAIL : Nat := 0x1be450
/-- BRG_SIGNED (R269). -/
def BRG_SIGNED : Nat := 0x1be454
/-- BRG_HIGH_WAIT_MAX (R247). -/
def BRG_HIGH_WAIT_MAX : Nat := 0x1be458
/-- FBUS_STATUS (R206). -/
def FBUS_STATUS : Nat := 0x1bf000
/-- VIE_STATUS (R176). -/
def VIE_STATUS : Nat := 0x1c0000
/-- VIE_NOTICE_CFG (R168). -/
def VIE_NOTICE_CFG : Nat := 0x1c0004
/-- VIE_ALARM_LO (R161). -/
def VIE_ALARM_LO : Nat := 0x1c0008
/-- VIE_ALARM_HI (R161). -/
def VIE_ALARM_HI : Nat := 0x1c000c
/-- VIE_LATE (R169). -/
def VIE_LATE : Nat := 0x1c0010
/-- VIE_CH_CAUSE_LO (R163). -/
def VIE_CH_CAUSE_LO (i0 : Nat) : Nat := 0x1c0100 + 8 * i0
/-- VIE_CH_CAUSE_HI (R163). -/
def VIE_CH_CAUSE_HI (i0 : Nat) : Nat := 0x1c0104 + 8 * i0
/-- VIE_SYNC_CFG (R170). -/
def VIE_SYNC_CFG (i0 : Nat) : Nat := 0x1c0200 + 8 * i0
/-- VIE_SYNC_PHASE (R170). -/
def VIE_SYNC_PHASE (i0 : Nat) : Nat := 0x1c0204 + 8 * i0
/-- VIE_S_CFG (R147). -/
def VIE_S_CFG (i0 : Nat) : Nat := 0x1c1000 + 256 * i0
/-- VIE_S_NOMINAL (R153). -/
def VIE_S_NOMINAL (i0 : Nat) : Nat := 0x1c1004 + 256 * i0
/-- VIE_S_TIMING (R153). -/
def VIE_S_TIMING (i0 : Nat) : Nat := 0x1c1008 + 256 * i0
/-- VIE_S_FRAME (R152). -/
def VIE_S_FRAME (i0 : Nat) : Nat := 0x1c100c + 256 * i0
/-- VIE_S_PIXEL (R156). -/
def VIE_S_PIXEL (i0 : Nat) : Nat := 0x1c1010 + 256 * i0
/-- VIE_S_COUNTER (R154). -/
def VIE_S_COUNTER (i0 : Nat) : Nat := 0x1c1014 + 256 * i0
/-- VIE_S_LAT_ORG (R156). -/
def VIE_S_LAT_ORG (i0 : Nat) : Nat := 0x1c1018 + 256 * i0
/-- VIE_S_LAT_STEP (R156). -/
def VIE_S_LAT_STEP (i0 : Nat) : Nat := 0x1c101c + 256 * i0
/-- VIE_S_LAT_COUNT (R156). -/
def VIE_S_LAT_COUNT (i0 : Nat) : Nat := 0x1c1020 + 256 * i0
/-- VIE_S_AGE_MAX (R159). -/
def VIE_S_AGE_MAX (i0 : Nat) : Nat := 0x1c1024 + 256 * i0
/-- VIE_S_TS_OFFSET (R159). -/
def VIE_S_TS_OFFSET (i0 : Nat) : Nat := 0x1c1028 + 256 * i0
/-- VIE_S_THRESH (R160). -/
def VIE_S_THRESH (i0 : Nat) : Nat := 0x1c102c + 256 * i0
/-- VIE_S_ACT (R163). -/
def VIE_S_ACT (i0 : Nat) : Nat := 0x1c1030 + 256 * i0
/-- VIE_S_HYST (R161). -/
def VIE_S_HYST (i0 : Nat) : Nat := 0x1c1034 + 256 * i0
/-- VIE_S_FALLBACK (R165). -/
def VIE_S_FALLBACK (i0 : Nat) : Nat := 0x1c1038 + 256 * i0
/-- VIE_S_NOTICE (R167). -/
def VIE_S_NOTICE (i0 : Nat) : Nat := 0x1c103c + 256 * i0
/-- VIE_S_NOTICE_DA (R167). -/
def VIE_S_NOTICE_DA (i0 : Nat) : Nat := 0x1c1040 + 256 * i0
/-- VIE_S_STATE (R161). -/
def VIE_S_STATE (i0 : Nat) : Nat := 0x1c1080 + 256 * i0
/-- VIE_S_LAST_COUNTER (R154). -/
def VIE_S_LAST_COUNTER (i0 : Nat) : Nat := 0x1c1084 + 256 * i0
/-- VIE_S_LAST_SIG_LO (R156). -/
def VIE_S_LAST_SIG_LO (i0 : Nat) : Nat := 0x1c1088 + 256 * i0
/-- VIE_S_LAST_SIG_HI (R156). -/
def VIE_S_LAST_SIG_HI (i0 : Nat) : Nat := 0x1c108c + 256 * i0
/-- VIE_S_LAST_CRC (R156). -/
def VIE_S_LAST_CRC (i0 : Nat) : Nat := 0x1c1090 + 256 * i0
/-- VIE_S_LAST_AGE (R159). -/
def VIE_S_LAST_AGE (i0 : Nat) : Nat := 0x1c1094 + 256 * i0
/-- VIE_S_FRAMES (R157). -/
def VIE_S_FRAMES (i0 : Nat) : Nat := 0x1c10a0 + 256 * i0
/-- VIE_S_STATIC (R157). -/
def VIE_S_STATIC (i0 : Nat) : Nat := 0x1c10a4 + 256 * i0
/-- VIE_S_REPEAT (R156). -/
def VIE_S_REPEAT (i0 : Nat) : Nat := 0x1c10a8 + 256 * i0
/-- VIE_S_FORMAT_ERR (R149). -/
def VIE_S_FORMAT_ERR (i0 : Nat) : Nat := 0x1c10ac + 256 * i0
/-- VIE_S_AGE_SKIP (R159). -/
def VIE_S_AGE_SKIP (i0 : Nat) : Nat := 0x1c10b0 + 256 * i0
/-- VIE_S_VERDICT_LOST (R175). -/
def VIE_S_VERDICT_LOST (i0 : Nat) : Nat := 0x1c10b4 + 256 * i0
/-- VIE_S_FAIL (R160). -/
def VIE_S_FAIL (i0 i1 : Nat) : Nat := 0x1c10c0 + 256 * i0 + 4 * i1
/-- RSV_RING_CFG (R171). -/
def RSV_RING_CFG (i0 : Nat) : Nat := 0x1c8000 + 32 * i0
/-- RSV_RING_BASE (R171). -/
def RSV_RING_BASE (i0 : Nat) : Nat := 0x1c8004 + 32 * i0
/-- RSV_RING_SIZE (R171). -/
def RSV_RING_SIZE (i0 : Nat) : Nat := 0x1c8008 + 32 * i0
/-- RSV_RING_STATE (R173). -/
def RSV_RING_STATE (i0 : Nat) : Nat := 0x1c800c + 32 * i0
/-- RSV_RING_FILL (R172). -/
def RSV_RING_FILL (i0 : Nat) : Nat := 0x1c8010 + 32 * i0
/-- RSV_DROP (R172). -/
def RSV_DROP (i0 : Nat) : Nat := 0x1c8014 + 32 * i0
/-- RSV_TRIG_IGNORED (R173). -/
def RSV_TRIG_IGNORED (i0 : Nat) : Nat := 0x1c8018 + 32 * i0
/-- RSV_TRIG_MASK (R173). -/
def RSV_TRIG_MASK (i0 : Nat) : Nat := 0x1c8200 + 4 * i0
/-- TIME_STATUS (R298). -/
def TIME_STATUS : Nat := 0x200000
/-- TIME_TB_NS (R280). -/
def TIME_TB_NS (i0 : Nat) : Nat := 0x200100 + 128 * i0
/-- TIME_TB_SEC_LO (R280). -/
def TIME_TB_SEC_LO (i0 : Nat) : Nat := 0x200104 + 128 * i0
/-- TIME_TB_SEC_HI (R280). -/
def TIME_TB_SEC_HI (i0 : Nat) : Nat := 0x200108 + 128 * i0
/-- TIME_TB_FRAC (R280). -/
def TIME_TB_FRAC (i0 : Nat) : Nat := 0x20010c + 128 * i0
/-- TIME_TB_STATE (R276). -/
def TIME_TB_STATE (i0 : Nat) : Nat := 0x200110 + 128 * i0
/-- TIME_TB_CTRL (R278). -/
def TIME_TB_CTRL (i0 : Nat) : Nat := 0x200114 + 128 * i0
/-- TIME_TB_ADJ_LO (R275). -/
def TIME_TB_ADJ_LO (i0 : Nat) : Nat := 0x200118 + 128 * i0
/-- TIME_TB_ADJ_HI (R275). -/
def TIME_TB_ADJ_HI (i0 : Nat) : Nat := 0x20011c + 128 * i0
/-- TIME_TB_HOLD_ADJ_LO (R295). -/
def TIME_TB_HOLD_ADJ_LO (i0 : Nat) : Nat := 0x200120 + 128 * i0
/-- TIME_TB_HOLD_ADJ_HI (R295). -/
def TIME_TB_HOLD_ADJ_HI (i0 : Nat) : Nat := 0x200124 + 128 * i0
/-- TIME_TB_SLEW_LIMIT (R296). -/
def TIME_TB_SLEW_LIMIT (i0 : Nat) : Nat := 0x200128 + 128 * i0
/-- TIME_TB_WR_SEC_HI (R277). -/
def TIME_TB_WR_SEC_HI (i0 : Nat) : Nat := 0x200130 + 128 * i0
/-- TIME_TB_WR_SEC_LO (R277). -/
def TIME_TB_WR_SEC_LO (i0 : Nat) : Nat := 0x200134 + 128 * i0
/-- TIME_TB_WR_NS (R277). -/
def TIME_TB_WR_NS (i0 : Nat) : Nat := 0x200138 + 128 * i0
/-- TIME_TB_WR_ADJ_LO (R277). -/
def TIME_TB_WR_ADJ_LO (i0 : Nat) : Nat := 0x20013c + 128 * i0
/-- TIME_TB_WR_ADJ_HI (R277). -/
def TIME_TB_WR_ADJ_HI (i0 : Nat) : Nat := 0x200140 + 128 * i0
/-- TIME_TB_CMD (R277). -/
def TIME_TB_CMD (i0 : Nat) : Nat := 0x200144 + 128 * i0
/-- TIME_TB_CMD_STATUS (R277). -/
def TIME_TB_CMD_STATUS (i0 : Nat) : Nat := 0x200148 + 128 * i0
/-- TIME_TB_STEP_REFUSED (R277). -/
def TIME_TB_STEP_REFUSED (i0 : Nat) : Nat := 0x20014c + 128 * i0
/-- TIME_DOM_CFG (R283). -/
def TIME_DOM_CFG (i0 : Nat) : Nat := 0x200600 + 4 * i0
/-- TIME_PORT_LINK_DELAY (R284). -/
def TIME_PORT_LINK_DELAY (i0 : Nat) : Nat := 0x200640 + 4 * i0
/-- TIME_PULSE_CFG (R291). -/
def TIME_PULSE_CFG (i0 : Nat) : Nat := 0x200800 + 32 * i0
/-- TIME_PULSE_START_S (R291). -/
def TIME_PULSE_START_S (i0 : Nat) : Nat := 0x200804 + 32 * i0
/-- TIME_PULSE_START_NS (R291). -/
def TIME_PULSE_START_NS (i0 : Nat) : Nat := 0x200808 + 32 * i0
/-- TIME_PULSE_PERIOD (R291). -/
def TIME_PULSE_PERIOD (i0 : Nat) : Nat := 0x20080c + 32 * i0
/-- TIME_PULSE_WIDTH (R291). -/
def TIME_PULSE_WIDTH (i0 : Nat) : Nat := 0x200810 + 32 * i0
/-- TIME_PULSE_LATE (R292). -/
def TIME_PULSE_LATE (i0 : Nat) : Nat := 0x200814 + 32 * i0
/-- TIME_CAP_CFG (R293). -/
def TIME_CAP_CFG (i0 : Nat) : Nat := 0x200a00 + 32 * i0
/-- TIME_CAP_SEC_LO (R293). -/
def TIME_CAP_SEC_LO (i0 : Nat) : Nat := 0x200a04 + 32 * i0
/-- TIME_CAP_NS (R293). -/
def TIME_CAP_NS (i0 : Nat) : Nat := 0x200a08 + 32 * i0
/-- TIME_CAP_STATUS (R293). -/
def TIME_CAP_STATUS (i0 : Nat) : Nat := 0x200a0c + 32 * i0
/-- TIME_CAP_LOST (R293). -/
def TIME_CAP_LOST (i0 : Nat) : Nat := 0x200a10 + 32 * i0
/-- TIME_TXTS_W0 (R287). -/
def TIME_TXTS_W0 (i0 : Nat) : Nat := 0x200c00 + 16 * i0
/-- TIME_TXTS_W1 (R287). -/
def TIME_TXTS_W1 (i0 : Nat) : Nat := 0x200c04 + 16 * i0
/-- TIME_TXTS_W2 (R287). -/
def TIME_TXTS_W2 (i0 : Nat) : Nat := 0x200c08 + 16 * i0
/-- TIME_TXTS_W3 (R287). -/
def TIME_TXTS_W3 (i0 : Nat) : Nat := 0x200c0c + 16 * i0
/-- TIME_TXTS_STATUS (R286). -/
def TIME_TXTS_STATUS (i0 : Nat) : Nat := 0x200d80 + 4 * i0
/-- TIME_TXTS_LOST (R286). -/
def TIME_TXTS_LOST (i0 : Nat) : Nat := 0x200e00 + 4 * i0
/-- TIME_TXTS_DENIED (R285). -/
def TIME_TXTS_DENIED (i0 : Nat) : Nat := 0x200e80 + 4 * i0
/-- TIME_CF_SAT (R284). -/
def TIME_CF_SAT (i0 : Nat) : Nat := 0x200f00 + 4 * i0
/-- SEC_STATUS (R396). -/
def SEC_STATUS : Nat := 0x240000
/-- SEC_DEVICE_ID_LO (R396). -/
def SEC_DEVICE_ID_LO : Nat := 0x240004
/-- SEC_DEVICE_ID_HI (R396). -/
def SEC_DEVICE_ID_HI : Nat := 0x240008
/-- SEC_JOB_CFG (R387). -/
def SEC_JOB_CFG : Nat := 0x240010
/-- SEC_JOB_DA_HI (R384). -/
def SEC_JOB_DA_HI : Nat := 0x240014
/-- SEC_JOB_DA_LO (R384). -/
def SEC_JOB_DA_LO : Nat := 0x240018
/-- SEC_JOB_ACTIVE (R387). -/
def SEC_JOB_ACTIVE : Nat := 0x24001c
/-- SEC_TAMPER_CFG (R392). -/
def SEC_TAMPER_CFG : Nat := 0x240020
/-- SEC_TAMPER_LOG (R393). -/
def SEC_TAMPER_LOG : Nat := 0x240024
/-- SEC_AO_STORE_SEQ (R383). -/
def SEC_AO_STORE_SEQ : Nat := 0x240028
/-- SEC_DEVID_PUB (R372). -/
def SEC_DEVID_PUB (i0 : Nat) : Nat := 0x240100 + 4 * i0
/-- SEC_JOBS_DONE (R388). -/
def SEC_JOBS_DONE : Nat := 0x240200
/-- SEC_LEN_ERR (R388). -/
def SEC_LEN_ERR : Nat := 0x240204
/-- SEC_TAG_FAIL (R389). -/
def SEC_TAG_FAIL : Nat := 0x240208
/-- SEC_SEG_ERR (R388). -/
def SEC_SEG_ERR : Nat := 0x24020c
/-- SEC_JOB_REFUSED (R388). -/
def SEC_JOB_REFUSED : Nat := 0x240210
/-- SEC_JOB_REJECT (R384). -/
def SEC_JOB_REJECT : Nat := 0x240214
/-- SEC_LPDDR_AUTH_FAIL (R382). -/
def SEC_LPDDR_AUTH_FAIL : Nat := 0x240218
/-- SEC_KEYS_DESTROYED (R374). -/
def SEC_KEYS_DESTROYED : Nat := 0x24021c
/-- SEC_TRNG_HEALTH (R391). -/
def SEC_TRNG_HEALTH : Nat := 0x240220
/-- SEC_GLITCH_EVENTS (R392). -/
def SEC_GLITCH_EVENTS : Nat := 0x240224
/-- MEM_STATUS (R410). -/
def MEM_STATUS : Nat := 0x280000
/-- MEM_BANK_OWNER (R400). -/
def MEM_BANK_OWNER (i0 : Nat) : Nat := 0x280100 + 4 * i0
/-- MEM_FW_RETAIN (R407). -/
def MEM_FW_RETAIN : Nat := 0x280140
/-- MEM_FW_FAILED (R410). -/
def MEM_FW_FAILED : Nat := 0x280144
/-- MEM_MARCH_RESULT (R413). -/
def MEM_MARCH_RESULT : Nat := 0x280204
/-- MEM_MARCH_DETAIL (R413). -/
def MEM_MARCH_DETAIL : Nat := 0x280208
/-- MEM_APERTURE_SEL (R405). -/
def MEM_APERTURE_SEL : Nat := 0x280300
/-- MEM_ATOM_OPERAND (R405). -/
def MEM_ATOM_OPERAND : Nat := 0x280304
/-- MEM_CONFLICT (R406). -/
def MEM_CONFLICT (i0 : Nat) : Nat := 0x280400 + 4 * i0
/-- MEM_BANK_DENIED (R400). -/
def MEM_BANK_DENIED : Nat := 0x280420
/-- MEM_ECC_CE (R399). -/
def MEM_ECC_CE : Nat := 0x280424
/-- MEM_ECC_UE (R399). -/
def MEM_ECC_UE : Nat := 0x280428
/-- MEM_WAKE_WAITS (R408). -/
def MEM_WAKE_WAITS : Nat := 0x28042c
/-- MEM_LPDDR_REGION (R414). -/
def MEM_LPDDR_REGION (i0 : Nat) : Nat := 0x280500 + 8 * i0
/-- MEM_LPDDR_SIZE (R414). -/
def MEM_LPDDR_SIZE (i0 : Nat) : Nat := 0x280504 + 8 * i0
/-- PWR_STATUS (R453). -/
def PWR_STATUS : Nat := 0x2c0000
/-- PWR_READY (R454). -/
def PWR_READY : Nat := 0x2c0004
/-- PWR_READY_PORTS (R454). -/
def PWR_READY_PORTS : Nat := 0x2c0008
/-- PWR_DOMAIN_ON_LO (R436). -/
def PWR_DOMAIN_ON_LO : Nat := 0x2c0010
/-- PWR_DOMAIN_ON_HI (R436). -/
def PWR_DOMAIN_ON_HI : Nat := 0x2c0014
/-- PWR_DOMAIN_PG_LO (R439). -/
def PWR_DOMAIN_PG_LO : Nat := 0x2c0018
/-- PWR_DOMAIN_PG_HI (R439). -/
def PWR_DOMAIN_PG_HI : Nat := 0x2c001c
/-- PWR_DOMAIN_FAULT_LO (R440). -/
def PWR_DOMAIN_FAULT_LO : Nat := 0x2c0020
/-- PWR_DOMAIN_FAULT_HI (R440). -/
def PWR_DOMAIN_FAULT_HI : Nat := 0x2c0024
/-- PWR_RESET_CAUSE (R449). -/
def PWR_RESET_CAUSE : Nat := 0x2c0030
/-- PWR_WAKE_CAUSE (R435). -/
def PWR_WAKE_CAUSE : Nat := 0x2c0034
/-- PWR_WAKE_CAUSE_ETH (R195). -/
def PWR_WAKE_CAUSE_ETH : Nat := 0x2c0038
/-- PWR_WAKE_CAUSE_LIN (R235). -/
def PWR_WAKE_CAUSE_LIN : Nat := 0x2c003c
/-- PWR_WAKE_FIRST (R435). -/
def PWR_WAKE_FIRST : Nat := 0x2c0040
/-- PWR_WAKE_CFG (R433). -/
def PWR_WAKE_CFG : Nat := 0x2c0050
/-- PWR_WAKE_ARM (R435). -/
def PWR_WAKE_ARM : Nat := 0x2c0054
/-- PWR_WAKE_ARM_ETH (R435). -/
def PWR_WAKE_ARM_ETH : Nat := 0x2c0058
/-- PWR_WAKE_ARM_LIN (R435). -/
def PWR_WAKE_ARM_LIN : Nat := 0x2c005c
/-- PWR_REG_CFG (R442). -/
def PWR_REG_CFG (i0 : Nat) : Nat := 0x2c0100 + 4 * i0
/-- PWR_RAIL_SEQ (R444). -/
def PWR_RAIL_SEQ (i0 : Nat) : Nat := 0x2c0200 + 4 * i0
/-- PWR_CLK_STATUS (R446). -/
def PWR_CLK_STATUS : Nat := 0x2c0300
/-- PWR_REF_PPM (R446). -/
def PWR_REF_PPM : Nat := 0x2c0304
/-- PWR_REF_PPM_LAST (R446). -/
def PWR_REF_PPM_LAST : Nat := 0x2c0308
/-- PWR_THERM (R448). -/
def PWR_THERM : Nat := 0x2c0310
/-- PWR_REF_DRIFT_EVENTS (R446). -/
def PWR_REF_DRIFT_EVENTS : Nat := 0x2c0400
/-- PWR_HOLDOVER_ENTRIES (R447). -/
def PWR_HOLDOVER_ENTRIES : Nat := 0x2c0404
/-- PWR_DOMAIN_FAULTS (R440). -/
def PWR_DOMAIN_FAULTS : Nat := 0x2c0408
/-- PWR_WAKES (R433). -/
def PWR_WAKES : Nat := 0x2c040c
/-- PWR_THERM_SHUTDOWNS (R448). -/
def PWR_THERM_SHUTDOWNS : Nat := 0x2c0410
/-- PWR_REG_FAULTS (R443). -/
def PWR_REG_FAULTS (i0 : Nat) : Nat := 0x2c0420 + 4 * i0
/-- SBB_STATUS (R416). -/
def SBB_STATUS : Nat := 0x300000
/-- SBB_CHAN_CFG (R422). -/
def SBB_CHAN_CFG (i0 : Nat) : Nat := 0x300100 + 16 * i0
/-- SBB_CHAN_TIMING (R424). -/
def SBB_CHAN_TIMING (i0 : Nat) : Nat := 0x300104 + 16 * i0
/-- SBB_REQ_ADDR (R419). -/
def SBB_REQ_ADDR (i0 : Nat) : Nat := 0x301000 + 32 * i0
/-- SBB_REQ_DATA (R419). -/
def SBB_REQ_DATA (i0 : Nat) : Nat := 0x301004 + 32 * i0
/-- SBB_REQ_CTRL (R419). -/
def SBB_REQ_CTRL (i0 : Nat) : Nat := 0x301008 + 32 * i0
/-- SBB_SLOT_RESP_LO (R420). -/
def SBB_SLOT_RESP_LO (i0 : Nat) : Nat := 0x301010 + 32 * i0
/-- SBB_SLOT_RESP_HI (R420). -/
def SBB_SLOT_RESP_HI (i0 : Nat) : Nat := 0x301014 + 32 * i0
/-- SBB_SLOT_STATE (R420). -/
def SBB_SLOT_STATE (i0 : Nat) : Nat := 0x301018 + 32 * i0
/-- SBB_SLOT_BUF (R419). -/
def SBB_SLOT_BUF (i0 i1 : Nat) : Nat := 0x302000 + 256 * i0 + 4 * i1
/-- SBB_GPIO_CFG (R427). -/
def SBB_GPIO_CFG (i0 : Nat) : Nat := 0x303000 + 4 * i0
/-- SBB_GPIO_TASK (R428). -/
def SBB_GPIO_TASK (i0 : Nat) : Nat := 0x303100 + 4 * i0
/-- SBB_RAIL_CFG (R429). -/
def SBB_RAIL_CFG (i0 : Nat) : Nat := 0x303200 + 8 * i0
/-- SBB_RETRY_RESP (R420). -/
def SBB_RETRY_RESP : Nat := 0x303400
/-- SBB_GO_BUSY (R418). -/
def SBB_GO_BUSY : Nat := 0x303404
/-- SBB_LATE (R426). -/
def SBB_LATE : Nat := 0x303408
/-- SBB_GPIO_CONFLICT (R428). -/
def SBB_GPIO_CONFLICT : Nat := 0x30340c
/-- SBB_RAIL_FAULTS (R429). -/
def SBB_RAIL_FAULTS (i0 : Nat) : Nat := 0x303410 + 4 * i0
/-- SBB_CHAN_ERR (R424). -/
def SBB_CHAN_ERR (i0 : Nat) : Nat := 0x303440 + 4 * i0
/-- SBB_CHAN_XFERS (R424). -/
def SBB_CHAN_XFERS (i0 : Nat) : Nat := 0x303470 + 4 * i0
/-- EVF_STATUS (R468). -/
def EVF_STATUS : Nat := 0x340000
/-- EVF_SW_FIRE (R477). -/
def EVF_SW_FIRE : Nat := 0x340004
/-- EVF_COINCIDE (R469). -/
def EVF_COINCIDE : Nat := 0x340008
/-- EVF_EVQ_LATE (R465). -/
def EVF_EVQ_LATE : Nat := 0x34000c
/-- EVF_LATE (R473). -/
def EVF_LATE (i0 : Nat) : Nat := 0x340010 + 4 * i0
/-- EVF_ROUTE (R468). -/
def EVF_ROUTE (i0 i1 : Nat) : Nat := 0x341000 + 32 * i0 + 4 * i1
/-- EVF_CAUSE (R469). -/
def EVF_CAUSE (i0 i1 : Nat) : Nat := 0x342000 + 32 * i0 + 4 * i1
/-- EVF_TASK_CFG (R470). -/
def EVF_TASK_CFG (i0 : Nat) : Nat := 0x343000 + 4 * i0
/-- EVF_TASK_COUNT (R469). -/
def EVF_TASK_COUNT (i0 : Nat) : Nat := 0x343200 + 4 * i0
/-- EVF_SVC_BOUND (R465). -/
def EVF_SVC_BOUND (i0 : Nat) : Nat := 0x344000 + 4 * i0
end Reg

namespace Fld
def GLB_ID_PART : Field := ⟨31, 16⟩
def GLB_ID_VARIANT : Field := ⟨15, 8⟩
def GLB_ID_STEP_MAJOR : Field := ⟨7, 4⟩
def GLB_ID_STEP_MINOR : Field := ⟨3, 0⟩
def GLB_TOPOLOGY_MEMBERS_SEEN : Field := ⟨15, 12⟩
def GLB_TOPOLOGY_CASCADE_PORTS : Field := ⟨11, 8⟩
def GLB_TOPOLOGY_CASCADE_SIZE : Field := ⟨5, 4⟩
def GLB_TOPOLOGY_DEV_INDEX : Field := ⟨1, 0⟩
def MBX_RING_IN_FLIGHT : Field := ⟨13, 8⟩
def MBX_RING_RESULT : Field := ⟨1, 0⟩
def MBX_ABORT_SLOT : Field := ⟨4, 0⟩
def MBX_OWNER_STATUS_READY : Field := ⟨31, 31⟩
def MBX_OWNER_STATUS_NEGOTIATED : Field := ⟨30, 30⟩
def MBX_OWNER_STATUS_SAFE_SET : Field := ⟨29, 29⟩
def MBX_OWNER_STATUS_IN_FLIGHT : Field := ⟨21, 16⟩
def MBX_OWNER_STATUS_GCS_MINOR : Field := ⟨15, 0⟩
def MBX_COLLIDE_COLLIDE : Field := ⟨31, 31⟩
def MBX_COLLIDE_LAST_WORD : Field := ⟨9, 0⟩
def MBX_STATUS_FW_ACTIVE : Field := ⟨22, 16⟩
def MBX_STATUS_SAFE_SET : Field := ⟨1, 1⟩
def MBX_STATUS_READY : Field := ⟨0, 0⟩
def MBX_BOOT_REPORT_SAFE_SET : Field := ⟨31, 31⟩
def MBX_BOOT_REPORT_SAFE_CAUSE : Field := ⟨25, 24⟩
def MBX_BOOT_REPORT_PAIR : Field := ⟨18, 16⟩
def MBX_BOOT_REPORT_CAUSES : Field := ⟨15, 0⟩
def MBX_EPOCHS_C_EPOCH : Field := ⟨31, 16⟩
def MBX_EPOCHS_S_EPOCH : Field := ⟨15, 0⟩
def EVQ_CTRL_EN : Field := ⟨31, 31⟩
def EVQ_CTRL_EPOCH_EN : Field := ⟨30, 30⟩
def EVQ_CTRL_TB : Field := ⟨29, 27⟩
def EVQ_CTRL_LOG2 : Field := ⟨26, 22⟩
def EVQ_CTRL_VEC_EN : Field := ⟨21, 21⟩
def EVQ_CTRL_VECTOR : Field := ⟨20, 10⟩
def EVQ_MOD_MOD_US : Field := ⟨31, 16⟩
def EVQ_MOD_MOD_COUNT : Field := ⟨15, 0⟩
def EVQ_STATUS_ARMED : Field := ⟨31, 31⟩
def EVQ_STATUS_OVF_PENDING : Field := ⟨30, 30⟩
def EVQ_STATUS_ACTIVE : Field := ⟨0, 0⟩
def HDMA_STATUS_TAG_MODE : Field := ⟨9, 8⟩
def HDMA_STATUS_READY : Field := ⟨0, 0⟩
def HDMA_RD_INFLIGHT_CPLBUF_USED : Field := ⟨25, 16⟩
def HDMA_RD_INFLIGHT_READS : Field := ⟨9, 0⟩
def HDMA_MSIX_ALLOC_PF_VECTORS : Field := ⟨27, 16⟩
def HDMA_MSIX_ALLOC_VF_VECTORS : Field := ⟨6, 0⟩
def HDMA_Q_CTRL_TX_EN : Field := ⟨31, 31⟩
def HDMA_Q_CTRL_RX_EN : Field := ⟨30, 30⟩
def HDMA_Q_CTRL_TX_LOG2 : Field := ⟨29, 26⟩
def HDMA_Q_CTRL_RX_LOG2 : Field := ⟨25, 22⟩
def HDMA_Q_CTRL_HOLD : Field := ⟨17, 11⟩
def HDMA_Q_CTRL_RX_TB : Field := ⟨10, 8⟩
def HDMA_TXQ_TAIL_TAIL : Field := ⟨15, 0⟩
def HDMA_RXQ_TAIL_TAIL : Field := ⟨15, 0⟩
def HDMA_Q_COAL_VEC_MODE : Field := ⟨31, 31⟩
def HDMA_Q_COAL_VECTOR : Field := ⟨30, 20⟩
def HDMA_Q_COAL_COAL_N : Field := ⟨19, 12⟩
def HDMA_Q_COAL_COAL_US : Field := ⟨11, 0⟩
def HDMA_Q_STATUS_DIVERT : Field := ⟨31, 31⟩
def HDMA_Q_STATUS_HOLDING : Field := ⟨30, 30⟩
def HDMA_Q_STATUS_TX_STOPPED : Field := ⟨29, 29⟩
def HDMA_Q_STATUS_RX_STOPPED : Field := ⟨28, 28⟩
def HDMA_Q_STATUS_PENDING : Field := ⟨6, 0⟩
def SWC_STATUS_AUDIT_BUSY : Field := ⟨7, 7⟩
def SWC_STATUS_GLOBAL_XOFF : Field := ⟨6, 6⟩
def SWC_STATUS_READY : Field := ⟨0, 0⟩
def SWC_CFG_SAMPLE_EN : Field := ⟨2, 2⟩
def SWC_CFG_AUDIT_EN : Field := ⟨1, 1⟩
def SWC_CFG_CUT_THROUGH_EN : Field := ⟨0, 0⟩
def SWC_SHARED_CFG_GLOBAL_XOFF : Field := ⟨17, 0⟩
def SWC_MAX_SOJOURN_LIMIT_MS : Field := ⟨15, 0⟩
def SWC_AUDIT_STATUS_PASSES : Field := ⟨31, 16⟩
def SWC_AUDIT_STATUS_SUSPECT : Field := ⟨15, 0⟩
def SWC_VOQ_CFG_DEFAULT_QUOTA : Field := ⟨14, 8⟩
def SWC_VOQ_CFG_PFC_EN : Field := ⟨1, 1⟩
def SWC_VOQ_CFG_MODE : Field := ⟨0, 0⟩
def SWC_VOQ_THR_XOFF : Field := ⟨31, 16⟩
def SWC_VOQ_THR_XON : Field := ⟨15, 0⟩
def SWC_VOQ_HDRM_HEADROOM : Field := ⟨15, 0⟩
def SWC_MMQ_CFG_EN : Field := ⟨31, 31⟩
def SWC_MMQ_CFG_MAX_FRAME_CELLS : Field := ⟨23, 18⟩
def SWC_MMQ_CFG_RESERVED : Field := ⟨17, 0⟩
def SWC_SMP_CFG_DEST : Field := ⟨17, 17⟩
def SWC_SMP_CFG_MODE : Field := ⟨16, 16⟩
def SWC_SMP_CFG_N : Field := ⟨15, 0⟩
def SWC_SMP_POINT_INDEX : Field := ⟨28, 16⟩
def SWC_SMP_POINT_TYPE : Field := ⟨1, 0⟩
def FWD_STATUS_STASH_USED : Field := ⟨14, 8⟩
def FWD_STATUS_SCRUB_BUSY : Field := ⟨2, 2⟩
def FWD_STATUS_LOG_LOST : Field := ⟨1, 1⟩
def FWD_STATUS_READY : Field := ⟨0, 0⟩
def FWD_CFG_SCRUB_EN : Field := ⟨3, 3⟩
def FWD_CFG_ACL_EN : Field := ⟨2, 2⟩
def FWD_CFG_LPM_EN : Field := ⟨1, 1⟩
def FWD_CFG_EVICT_POLICY : Field := ⟨0, 0⟩
def FWD_AGE_CFG_LIMIT : Field := ⟨30, 16⟩
def FWD_AGE_CFG_UNIT : Field := ⟨3, 0⟩
def FWD_AGE_NOW_NOW : Field := ⟨15, 0⟩
def FWD_LEARN_CFG_MOVE_HOLD_MS : Field := ⟨25, 16⟩
def FWD_LEARN_CFG_TB : Field := ⟨2, 0⟩
def FWD_EM_COUNT_COUNT : Field := ⟨18, 0⟩
def FWD_CASCADE_PATH_VALID : Field := ⟨31, 31⟩
def FWD_CASCADE_PATH_PORT : Field := ⟨4, 0⟩
def FWD_PORT_CFG_LEARN_LIMIT : Field := ⟨31, 14⟩
def FWD_PORT_CFG_FLUSH_ON_DOWN : Field := ⟨3, 3⟩
def FWD_PORT_CFG_CASCADE : Field := ⟨2, 2⟩
def FWD_PORT_CFG_MOVABLE : Field := ⟨1, 1⟩
def FWD_PORT_CFG_LEARN_EN : Field := ⟨0, 0⟩
def FWD_ACL_TIE_LAST_OTHER : Field := ⟨28, 16⟩
def FWD_ACL_TIE_LAST_WINNER : Field := ⟨12, 0⟩
def TSS_STATUS_BOUND_BROKEN : Field := ⟨1, 1⟩
def TSS_STATUS_READY : Field := ⟨0, 0⟩
def TSS_GCL_INDEX_SLUICE : Field := ⟨31, 31⟩
def TSS_GCL_INDEX_LIST : Field := ⟨23, 16⟩
def TSS_GCL_INDEX_BANK : Field := ⟨10, 10⟩
def TSS_GCL_INDEX_ENTRY : Field := ⟨9, 0⟩
def TSS_PCP_MAP_DEFAULT_PCP : Field := ⟨26, 24⟩
def TSS_PCP_MAP_MAP : Field := ⟨23, 0⟩
def TSS_PORT_CFG_PFC_HONOUR : Field := ⟨31, 24⟩
def TSS_PORT_CFG_EXPRESS_MASK : Field := ⟨23, 16⟩
def TSS_PORT_CFG_ADD_FRAG : Field := ⟨11, 10⟩
def TSS_PORT_CFG_VERIFY_EN : Field := ⟨9, 9⟩
def TSS_PORT_CFG_PREEMPT_ACTIVE : Field := ⟨8, 8⟩
def TSS_PORT_CFG_PREEMPT_EN : Field := ⟨7, 7⟩
def TSS_PORT_CFG_GATE_EN : Field := ⟨6, 6⟩
def TSS_PORT_CFG_SP_MIN : Field := ⟨3, 0⟩
def TSS_DWRR_QUANTUM_QUANTUM : Field := ⟨16, 0⟩
def TSS_CLASS_MAXLEN_MAXLEN : Field := ⟨13, 0⟩
def TSS_CBS_IDLE_EN : Field := ⟨31, 31⟩
def TSS_CBS_IDLE_IDLE_SLOPE : Field := ⟨24, 0⟩
def TSS_CBS_HICREDIT_HI_CREDIT : Field := ⟨31, 0⟩
def TSS_GCL_CTRL_EN : Field := ⟨31, 31⟩
def TSS_GCL_CTRL_PENDING : Field := ⟨30, 30⟩
def TSS_GCL_CTRL_BANK : Field := ⟨29, 29⟩
def TSS_GCL_CTRL_TB : Field := ⟨28, 26⟩
def TSS_GCL_CTRL_GUARD : Field := ⟨25, 16⟩
def TSS_GCL_CTRL_LIST_LEN : Field := ⟨10, 0⟩
def TSS_SLUICE_GATE_CTRL_EN : Field := ⟨31, 31⟩
def TSS_SLUICE_GATE_CTRL_INVALID_CLOSE : Field := ⟨30, 30⟩
def TSS_SLUICE_GATE_CTRL_CLOSED_INVALID : Field := ⟨29, 29⟩
def TSS_SLUICE_GATE_CTRL_TB : Field := ⟨28, 26⟩
def TSS_SLUICE_GATE_CTRL_LIST_LEN : Field := ⟨5, 0⟩
def TSS_FRER_CFG_EN : Field := ⟨31, 31⟩
def TSS_FRER_CFG_ROLE : Field := ⟨30, 30⟩
def TSS_FRER_CFG_FORCE : Field := ⟨29, 28⟩
def TSS_FRER_CFG_HISTORY : Field := ⟨27, 22⟩
def TSS_FRER_CFG_RESET_MS : Field := ⟨11, 0⟩
def TSS_FRER_HANDLE0_INPUT : Field := ⟨27, 16⟩
def TSS_FRER_HANDLE0_MEMBER_A : Field := ⟨11, 0⟩
def TSS_FRER_HANDLE1_MEMBER_B : Field := ⟨11, 0⟩
def TSS_QS_CFG_EN : Field := ⟨31, 31⟩
def TSS_QS_CFG_TB : Field := ⟨30, 28⟩
def TSS_QS_CFG_DEST : Field := ⟨23, 10⟩
def TSS_QS_CFG_INTERVAL : Field := ⟨9, 0⟩
def TSS_QS_LIST_VALID : Field := ⟨31, 31⟩
def TSS_QS_LIST_QUEUE : Field := ⟨13, 0⟩
def TSS_WEIR_RATE_EN : Field := ⟨31, 31⟩
def TSS_WEIR_RATE_MARK_ALL : Field := ⟨30, 30⟩
def TSS_WEIR_RATE_ACTION : Field := ⟨29, 28⟩
def TSS_WEIR_RATE_REMAP_CLASS : Field := ⟨27, 25⟩
def TSS_WEIR_RATE_RATE : Field := ⟨24, 0⟩
def TSS_WEIR_BURST_BURST : Field := ⟨24, 0⟩
def TSS_SLUICE_FILTER_EN : Field := ⟨31, 31⟩
def TSS_SLUICE_FILTER_OVERSIZE_BLOCK : Field := ⟨30, 30⟩
def TSS_SLUICE_FILTER_BLOCKED : Field := ⟨29, 29⟩
def TSS_SLUICE_FILTER_METER_EN : Field := ⟨28, 28⟩
def TSS_SLUICE_FILTER_GATE_EN : Field := ⟨27, 27⟩
def TSS_SLUICE_FILTER_GATE : Field := ⟨26, 19⟩
def TSS_SLUICE_FILTER_MAX_SDU : Field := ⟨13, 0⟩
def MAC_STATUS_MACSEC_ACTIVE : Field := ⟨8, 8⟩
def MAC_STATUS_RX_LPI : Field := ⟨6, 6⟩
def MAC_STATUS_TX_LPI : Field := ⟨5, 5⟩
def MAC_STATUS_RATE : Field := ⟨4, 2⟩
def MAC_STATUS_LINK_UP : Field := ⟨1, 1⟩
def MAC_STATUS_READY : Field := ⟨0, 0⟩
def MAC_CFG_DEFAULT_RXQ : Field := ⟨14, 12⟩
def MAC_CFG_WAKE_POL : Field := ⟨11, 11⟩
def MAC_CFG_RATE : Field := ⟨10, 8⟩
def MAC_CFG_AN_EN : Field := ⟨7, 7⟩
def MAC_CFG_RX_INV : Field := ⟨6, 6⟩
def MAC_CFG_TX_INV : Field := ⟨5, 5⟩
def MAC_CFG_MODE : Field := ⟨4, 2⟩
def MAC_CFG_EN : Field := ⟨0, 0⟩
def MAC_LINK_CFG_LINK_DOWN_US : Field := ⟨25, 16⟩
def MAC_LINK_CFG_LINK_UP_MS : Field := ⟨7, 0⟩
def MAC_EEE_CFG_EN : Field := ⟨31, 31⟩
def MAC_EEE_CFG_IDLE_US : Field := ⟨25, 16⟩
def MAC_EEE_CFG_TW_US : Field := ⟨9, 0⟩
def MAC_RX_PHY_LAT_NS : Field := ⟨31, 16⟩
def MAC_RX_PHY_LAT_FRAC : Field := ⟨15, 0⟩
def MAC_TX_PHY_LAT_NS : Field := ⟨31, 16⟩
def MAC_TX_PHY_LAT_FRAC : Field := ⟨15, 0⟩
def MAC_PLCA_CFG_EN : Field := ⟨31, 31⟩
def MAC_PLCA_CFG_ID : Field := ⟨26, 24⟩
def MAC_PLCA_CFG_NODE_COUNT : Field := ⟨19, 16⟩
def MAC_PLCA_CFG_TO_TIMER : Field := ⟨15, 8⟩
def MAC_PLCA_CFG_BURST_COUNT : Field := ⟨7, 0⟩
def MAC_PLCA_LIMIT_PLCA_MAXLEN : Field := ⟨29, 16⟩
def MAC_PLCA_LIMIT_BURST_TIMER : Field := ⟨7, 0⟩
def MAC_PLCA_STATUS_ACTIVE : Field := ⟨0, 0⟩
def MAC_SEC_CFG_EN : Field := ⟨31, 31⟩
def MAC_SEC_CFG_XPN : Field := ⟨30, 30⟩
def MAC_SEC_CFG_VALIDATE : Field := ⟨29, 28⟩
def MAC_SEC_CFG_REPLAY_PROTECT : Field := ⟨27, 27⟩
def MAC_SEC_CFG_CONFIDENTIAL : Field := ⟨26, 26⟩
def MAC_SEC_CFG_CONF_OFFSET : Field := ⟨25, 24⟩
def MAC_SEC_CFG_TX_AN : Field := ⟨1, 0⟩
def MAC_SEC_BYPASS_HI : Field := ⟨31, 16⟩
def MAC_SEC_BYPASS_LO : Field := ⟨15, 0⟩
def MAC_STEER_EN : Field := ⟨31, 31⟩
def MAC_STEER_MATCH_TYPE : Field := ⟨30, 30⟩
def MAC_STEER_MATCH_VID : Field := ⟨29, 29⟩
def MAC_STEER_MATCH_PCP : Field := ⟨28, 28⟩
def MAC_STEER_MATCH_GROUP : Field := ⟨27, 27⟩
def MAC_STEER_GROUP : Field := ⟨26, 26⟩
def MAC_STEER_PCP : Field := ⟨25, 23⟩
def MAC_STEER_RXQ : Field := ⟨22, 20⟩
def MAC_STEER_VID : Field := ⟨11, 0⟩
def MAC_STEER_TYPE_ETHERTYPE : Field := ⟨15, 0⟩
def MAC_WAKE_PAT_EN_PAT : Field := ⟨3, 0⟩
def SQ_CFG_PLLA_RATE : Field := ⟨0, 0⟩
def SQ_STATUS_SIG_DET : Field := ⟨7, 4⟩
def SQ_STATUS_PLLB_LOCK : Field := ⟨2, 2⟩
def SQ_STATUS_PLLA_LOCK : Field := ⟨1, 1⟩
def SQ_STATUS_READY : Field := ⟨0, 0⟩
def SQ_LANE_EQ_ADAPT_DONE : Field := ⟨31, 31⟩
def SQ_LANE_EQ_TX_POST : Field := ⟨20, 16⟩
def SQ_LANE_EQ_TX_MAIN : Field := ⟨15, 8⟩
def SQ_LANE_EQ_TX_PRE : Field := ⟨4, 0⟩
def CAN_STATUS_TXQ_DEPTH : Field := ⟨21, 16⟩
def CAN_STATUS_MODE_NOW : Field := ⟨7, 6⟩
def CAN_STATUS_PEX_ACTIVE : Field := ⟨5, 5⟩
def CAN_STATUS_TX_BUSY : Field := ⟨4, 4⟩
def CAN_STATUS_ERR_STATE : Field := ⟨3, 2⟩
def CAN_STATUS_SYNC : Field := ⟨1, 1⟩
def CAN_CFG_EN : Field := ⟨31, 31⟩
def CAN_CFG_MODE : Field := ⟨30, 29⟩
def CAN_CFG_FD_EN : Field := ⟨28, 28⟩
def CAN_CFG_XL_EN : Field := ⟨27, 27⟩
def CAN_CFG_PEX : Field := ⟨26, 26⟩
def CAN_CFG_AUTO_RECOVER : Field := ⟨25, 25⟩
def CAN_CFG_XL_TMS : Field := ⟨24, 24⟩
def CAN_CFG_TXCONF_EN : Field := ⟨23, 23⟩
def CAN_CFG_ERR_REC_EN : Field := ⟨22, 22⟩
def CAN_CFG_TB : Field := ⟨21, 19⟩
def CAN_CFG_NOMATCH : Field := ⟨18, 17⟩
def CAN_CFG_RXQ1_DIRECT : Field := ⟨16, 16⟩
def CAN_CFG_RXQ0_DIRECT : Field := ⟨15, 15⟩
def CAN_NBT_BRP : Field := ⟨31, 23⟩
def CAN_NBT_TSEG1 : Field := ⟨22, 15⟩
def CAN_NBT_TSEG2 : Field := ⟨14, 8⟩
def CAN_NBT_SJW : Field := ⟨6, 0⟩
def CAN_DBT_BRP : Field := ⟨28, 24⟩
def CAN_DBT_TSEG1 : Field := ⟨21, 16⟩
def CAN_DBT_TSEG2 : Field := ⟨12, 8⟩
def CAN_DBT_SJW : Field := ⟨4, 0⟩
def CAN_TDC_EN : Field := ⟨31, 31⟩
def CAN_TDC_TDCV : Field := ⟨23, 16⟩
def CAN_TDC_TDCO : Field := ⟨7, 0⟩
def CAN_XL_PWM_PWMO : Field := ⟨23, 16⟩
def CAN_XL_PWM_PWML : Field := ⟨15, 8⟩
def CAN_XL_PWM_PWMS : Field := ⟨7, 0⟩
def CAN_ERR_STATE : Field := ⟨31, 30⟩
def CAN_ERR_REC : Field := ⟨23, 16⟩
def CAN_ERR_TEC : Field := ⟨8, 0⟩
def CAN_RXQ_CFG_OVERWRITE1 : Field := ⟨31, 31⟩
def CAN_RXQ_CFG_OVERWRITE0 : Field := ⟨30, 30⟩
def CAN_RXQ_CFG_RXQ0_KIB : Field := ⟨3, 0⟩
def CAN_TXQ_CFG_TX_MAX_AGE_MS : Field := ⟨15, 0⟩
def CAN_SCHED_CFG_EN : Field := ⟨31, 31⟩
def CAN_SCHED_CFG_TB : Field := ⟨30, 28⟩
def CAN_SCHED_CFG_NCYC : Field := ⟨26, 24⟩
def CAN_SCHED_CFG_GUARD_US : Field := ⟨12, 0⟩
def CAN_SCHED_NOW_CYCLE : Field := ⟨19, 16⟩
def CAN_SCHED_NOW_SLOT : Field := ⟨5, 0⟩
def CAN_FILT_VAL_ACTION : Field := ⟨31, 30⟩
def CAN_FILT_VAL_IDE : Field := ⟨29, 29⟩
def CAN_FILT_VAL_VALUE : Field := ⟨28, 0⟩
def CAN_FILT_MASK_FMT_CLASSIC : Field := ⟨31, 31⟩
def CAN_FILT_MASK_FMT_FD : Field := ⟨30, 30⟩
def CAN_FILT_MASK_FMT_XL : Field := ⟨29, 29⟩
def CAN_FILT_MASK_MASK : Field := ⟨28, 0⟩
def CAN_SCHED_SLOT_EN : Field := ⟨31, 31⟩
def CAN_SCHED_SLOT_EXCL : Field := ⟨30, 30⟩
def CAN_SCHED_SLOT_START : Field := ⟨29, 0⟩
def CAN_SCHED_WIN_WINDOW : Field := ⟨29, 0⟩
def LIN_STATUS_BUS_ACTIVE : Field := ⟨16, 16⟩
def LIN_STATUS_TABLE : Field := ⟨9, 8⟩
def LIN_STATUS_ENTRY : Field := ⟨5, 0⟩
def LIN_CFG_EN : Field := ⟨31, 31⟩
def LIN_CFG_ROLE : Field := ⟨30, 30⟩
def LIN_CFG_TB : Field := ⟨29, 27⟩
def LIN_RATE_DIV_INT : Field := ⟨15, 4⟩
def LIN_RATE_DIV_FRAC : Field := ⟨3, 0⟩
def LIN_SCHED_CTRL_RUN : Field := ⟨31, 31⟩
def LIN_SCHED_CTRL_TABLE : Field := ⟨1, 0⟩
def LIN_TIMING_WAKE_US : Field := ⟨31, 16⟩
def LIN_TIMING_IDLE_S : Field := ⟨15, 12⟩
def LIN_TIMING_DELIM_BITS : Field := ⟨11, 8⟩
def LIN_TIMING_BREAK_BITS : Field := ⟨4, 0⟩
def LIN_FRAME_ENHANCED : Field := ⟨6, 6⟩
def LIN_FRAME_LENGTH : Field := ⟨5, 2⟩
def LIN_FRAME_ACTION : Field := ⟨1, 0⟩
def LIN_SCHED_VALID : Field := ⟨31, 31⟩
def LIN_SCHED_TYPE : Field := ⟨30, 28⟩
def LIN_SCHED_COLL_TABLE : Field := ⟨27, 26⟩
def LIN_SCHED_ID : Field := ⟨21, 16⟩
def LIN_SCHED_DELAY : Field := ⟨15, 0⟩
def FBUS_RILL_CFG_EN : Field := ⟨31, 31⟩
def FBUS_RILL_CFG_DIRECT : Field := ⟨30, 30⟩
def FBUS_RILL_CFG_QUEUE : Field := ⟨13, 0⟩
def FBUS_RILL_STATUS_WORDS : Field := ⟨22, 16⟩
def FBUS_RILL_STATUS_PKT_COUNT : Field := ⟨6, 0⟩
def FBUS_RILL_TAG_END : Field := ⟨31, 31⟩
def FBUS_RILL_TAG_VALID_BYTES : Field := ⟨6, 0⟩
def CANW_CFG_EN : Field := ⟨31, 31⟩
def CANW_CFG_RATE : Field := ⟨30, 29⟩
def CANW_CFG_IDE : Field := ⟨28, 28⟩
def CANW_CFG_DLC_EN : Field := ⟨27, 27⟩
def CANW_CFG_FD_PASSIVE : Field := ⟨26, 26⟩
def CANW_CFG_ERR_WAKE : Field := ⟨25, 25⟩
def CANW_CFG_DLC : Field := ⟨3, 0⟩
def CANW_STATUS_FRAME_ERR : Field := ⟨31, 31⟩
def CANW_STATUS_MATCHED : Field := ⟨30, 30⟩
def CANW_STATUS_ERRORS : Field := ⟨5, 0⟩
def BRG_STATUS_TP_OPEN : Field := ⟨9, 1⟩
def BRG_STATUS_READY : Field := ⟨0, 0⟩
def BRG_CFG_AUTH_EN : Field := ⟨1, 1⟩
def BRG_CFG_EN : Field := ⟨0, 0⟩
def BRG_RULES_USED_COUNT : Field := ⟨16, 0⟩
def BRG_SRC_CFG_EN : Field := ⟨31, 31⟩
def BRG_SRC_CFG_DEFAULT : Field := ⟨30, 30⟩
def BRG_SRC_CFG_J1939 : Field := ⟨29, 29⟩
def BRG_SRC_CFG_ENFORCE : Field := ⟨28, 28⟩
def BRG_TUNNEL_CFG_EN : Field := ⟨31, 31⟩
def BRG_TUNNEL_CFG_TSCF : Field := ⟨30, 30⟩
def BRG_TUNNEL_CFG_CLASS : Field := ⟨29, 27⟩
def BRG_TUNNEL_CFG_PCP : Field := ⟨26, 24⟩
def BRG_TUNNEL_CFG_VID : Field := ⟨23, 12⟩
def BRG_TUNNEL_CFG_MAX_BYTES : Field := ⟨10, 0⟩
def BRG_TUNNEL_DA_HI_DA : Field := ⟨15, 0⟩
def BRG_TUNNEL_TMO_SEQ : Field := ⟨23, 16⟩
def BRG_TUNNEL_TMO_TIMEOUT_US : Field := ⟨15, 0⟩
def BRG_TUNNEL_TB_TB : Field := ⟨2, 0⟩
def BRG_RXTUN_CFG_EN : Field := ⟨31, 31⟩
def BRG_RXTUN_CFG_LAST_SEQ : Field := ⟨7, 0⟩
def BRG_SRC_MASK_EN : Field := ⟨31, 31⟩
def BRG_SRC_MASK_MASK : Field := ⟨28, 0⟩
def BRG_SIG_TMO_TMO_MS : Field := ⟨15, 0⟩
def FBUS_STATUS_WAKE_READY : Field := ⟨9, 9⟩
def FBUS_STATUS_LIN_READY : Field := ⟨8, 8⟩
def FBUS_STATUS_GROUP_READY : Field := ⟨5, 0⟩
def VIE_STATUS_CH_ACTIVE : Field := ⟨31, 16⟩
def VIE_STATUS_READY : Field := ⟨0, 0⟩
def VIE_NOTICE_CFG_HEARTBEAT_MS : Field := ⟨25, 16⟩
def VIE_NOTICE_CFG_SUBTYPE : Field := ⟨7, 0⟩
def VIE_SYNC_CFG_EN : Field := ⟨31, 31⟩
def VIE_SYNC_CFG_PULSE : Field := ⟨30, 28⟩
def VIE_SYNC_CFG_TB : Field := ⟨27, 25⟩
def VIE_SYNC_CFG_SYNC_TOL_NS : Field := ⟨19, 0⟩
def VIE_S_CFG_EN : Field := ⟨31, 31⟩
def VIE_S_CFG_FORMAT : Field := ⟨30, 30⟩
def VIE_S_CFG_TB : Field := ⟨29, 27⟩
def VIE_S_CFG_SYNC_EN : Field := ⟨26, 26⟩
def VIE_S_CFG_SYNC : Field := ⟨25, 23⟩
def VIE_S_CFG_AGE_PORT : Field := ⟨22, 18⟩
def VIE_S_CFG_CRC_MODE : Field := ⟨17, 16⟩
def VIE_S_CFG_VERDICT_EN : Field := ⟨15, 15⟩
def VIE_S_CFG_CHECK_EN : Field := ⟨14, 8⟩
def VIE_S_TIMING_SLACK_US : Field := ⟨31, 16⟩
def VIE_S_TIMING_INTERVAL_TOL : Field := ⟨15, 0⟩
def VIE_S_FRAME_FRAME_BYTES : Field := ⟨31, 8⟩
def VIE_S_PIXEL_LINE_BYTES : Field := ⟨31, 16⟩
def VIE_S_PIXEL_PACK : Field := ⟨8, 8⟩
def VIE_S_PIXEL_PIX_BITS : Field := ⟨4, 0⟩
def VIE_S_COUNTER_STEP : Field := ⟨31, 24⟩
def VIE_S_COUNTER_WIDTH : Field := ⟨17, 16⟩
def VIE_S_COUNTER_COUNTER_OFFSET : Field := ⟨11, 0⟩
def VIE_S_LAT_ORG_Y0 : Field := ⟨31, 16⟩
def VIE_S_LAT_ORG_X0 : Field := ⟨15, 0⟩
def VIE_S_LAT_STEP_DY : Field := ⟨31, 16⟩
def VIE_S_LAT_STEP_DX : Field := ⟨15, 0⟩
def VIE_S_LAT_COUNT_NY : Field := ⟨28, 16⟩
def VIE_S_LAT_COUNT_NX : Field := ⟨12, 0⟩
def VIE_S_HYST_STATIC_MAX : Field := ⟨31, 16⟩
def VIE_S_HYST_CLEAR_N : Field := ⟨15, 8⟩
def VIE_S_HYST_DECAY : Field := ⟨3, 0⟩
def VIE_S_FALLBACK_FB_EN : Field := ⟨31, 31⟩
def VIE_S_FALLBACK_FB_STREAM : Field := ⟨29, 24⟩
def VIE_S_FALLBACK_FRER_EN : Field := ⟨23, 23⟩
def VIE_S_FALLBACK_FRER_RESTORE : Field := ⟨22, 22⟩
def VIE_S_FALLBACK_FRER_FORCE : Field := ⟨21, 20⟩
def VIE_S_FALLBACK_FRER_PAIR : Field := ⟨5, 0⟩
def VIE_S_NOTICE_EN : Field := ⟨31, 31⟩
def VIE_S_NOTICE_NOTICE_VID : Field := ⟨27, 16⟩
def VIE_S_NOTICE_NOTICE_DA_HI : Field := ⟨15, 0⟩
def VIE_S_STATE_AS_FALLBACK : Field := ⟨17, 17⟩
def VIE_S_STATE_FB_ACTIVE : Field := ⟨16, 16⟩
def VIE_S_STATE_FRAME_OPEN : Field := ⟨15, 15⟩
def VIE_S_STATE_ALARM : Field := ⟨14, 8⟩
def VIE_S_STATE_FC_MAX : Field := ⟨3, 0⟩
def RSV_RING_CFG_EN : Field := ⟨31, 31⟩
def RSV_RING_CFG_EXTEND : Field := ⟨30, 30⟩
def RSV_RING_CFG_STREAM : Field := ⟨29, 24⟩
def RSV_RING_CFG_POST_MS : Field := ⟨15, 0⟩
def RSV_RING_BASE_BASE_MIB : Field := ⟨12, 0⟩
def RSV_RING_SIZE_SIZE_MIB : Field := ⟨12, 0⟩
def RSV_RING_STATE_LOGGED : Field := ⟨11, 8⟩
def RSV_RING_STATE_STATE : Field := ⟨1, 0⟩
def RSV_TRIG_MASK_RINGS : Field := ⟨15, 0⟩
def TIME_STATUS_HOLDOVER : Field := ⟨23, 16⟩
def TIME_STATUS_LOCKED : Field := ⟨15, 8⟩
def TIME_STATUS_READY : Field := ⟨0, 0⟩
def TIME_TB_NS_NS : Field := ⟨29, 0⟩
def TIME_TB_STATE_STEP_COUNT : Field := ⟨31, 24⟩
def TIME_TB_STATE_CAUSE : Field := ⟨19, 16⟩
def TIME_TB_STATE_SUSPECT : Field := ⟨8, 8⟩
def TIME_TB_STATE_STATE : Field := ⟨2, 0⟩
def TIME_TB_CTRL_HOST_WR : Field := ⟨31, 31⟩
def TIME_TB_CTRL_SLEW_PPM : Field := ⟨16, 8⟩
def TIME_TB_WR_SEC_HI_SEC : Field := ⟨15, 0⟩
def TIME_TB_WR_NS_NS : Field := ⟨29, 0⟩
def TIME_TB_WR_ADJ_HI_ADJ : Field := ⟨7, 0⟩
def TIME_TB_CMD_NEG : Field := ⟨8, 8⟩
def TIME_TB_CMD_OP : Field := ⟨2, 0⟩
def TIME_TB_CMD_STATUS_BUSY : Field := ⟨31, 31⟩
def TIME_TB_CMD_STATUS_RESULT : Field := ⟨3, 0⟩
def TIME_DOM_CFG_EN : Field := ⟨31, 31⟩
def TIME_DOM_CFG_TB : Field := ⟨30, 28⟩
def TIME_DOM_CFG_MODE : Field := ⟨27, 26⟩
def TIME_DOM_CFG_UDP6 : Field := ⟨25, 25⟩
def TIME_DOM_CFG_UDP4 : Field := ⟨24, 24⟩
def TIME_DOM_CFG_L2 : Field := ⟨23, 23⟩
def TIME_DOM_CFG_SDO : Field := ⟨11, 8⟩
def TIME_DOM_CFG_DOMAIN : Field := ⟨7, 0⟩
def TIME_PORT_LINK_DELAY_NS : Field := ⟨31, 16⟩
def TIME_PORT_LINK_DELAY_FRAC : Field := ⟨15, 0⟩
def TIME_PULSE_CFG_EN : Field := ⟨31, 31⟩
def TIME_PULSE_CFG_PERIODIC : Field := ⟨30, 30⟩
def TIME_PULSE_CFG_POL : Field := ⟨29, 29⟩
def TIME_PULSE_CFG_VIE_OWNED : Field := ⟨28, 28⟩
def TIME_PULSE_CFG_TB : Field := ⟨27, 25⟩
def TIME_CAP_CFG_EN : Field := ⟨31, 31⟩
def TIME_CAP_CFG_EDGE : Field := ⟨30, 29⟩
def TIME_CAP_CFG_TB : Field := ⟨28, 26⟩
def TIME_CAP_CFG_NOTIFY : Field := ⟨25, 25⟩
def TIME_CAP_STATUS_OVF : Field := ⟨31, 31⟩
def TIME_CAP_STATUS_ENTRIES : Field := ⟨20, 16⟩
def TIME_CAP_STATUS_SEC_HI : Field := ⟨15, 0⟩
def TIME_TXTS_W0_VALID : Field := ⟨31, 31⟩
def TIME_TXTS_W0_ABORTED : Field := ⟨30, 30⟩
def TIME_TXTS_W0_TB : Field := ⟨26, 24⟩
def TIME_TXTS_W0_TS_ID : Field := ⟨15, 0⟩
def TIME_TXTS_STATUS_OVF : Field := ⟨31, 31⟩
def TIME_TXTS_STATUS_NOTIFY : Field := ⟨30, 30⟩
def TIME_TXTS_STATUS_ENTRIES : Field := ⟨6, 0⟩
def SEC_STATUS_DEBUG_LEVEL : Field := ⟨10, 9⟩
def SEC_STATUS_LIFECYCLE : Field := ⟨8, 6⟩
def SEC_STATUS_EARLY_BAD : Field := ⟨5, 5⟩
def SEC_STATUS_TAMPERED : Field := ⟨4, 4⟩
def SEC_STATUS_STORE_UNANCHORED : Field := ⟨3, 3⟩
def SEC_STATUS_TRNG_FAIL : Field := ⟨2, 2⟩
def SEC_STATUS_READY : Field := ⟨0, 0⟩
def SEC_JOB_CFG_EN : Field := ⟨31, 31⟩
def SEC_JOB_CFG_OWNER_MAX : Field := ⟨24, 16⟩
def SEC_JOB_CFG_IDLE_US : Field := ⟨15, 0⟩
def SEC_JOB_DA_HI_DA : Field := ⟨15, 0⟩
def SEC_JOB_ACTIVE_SLOTS : Field := ⟨8, 0⟩
def SEC_TAMPER_CFG_POL : Field := ⟨9, 8⟩
def SEC_TAMPER_CFG_EN : Field := ⟨4, 0⟩
def SEC_TAMPER_LOG_COUNT : Field := ⟨31, 16⟩
def SEC_TAMPER_LOG_SOURCES : Field := ⟨4, 0⟩
def MEM_STATUS_GEN_FAILED : Field := ⟨31, 16⟩
def MEM_STATUS_MARCH_BUSY : Field := ⟨1, 1⟩
def MEM_STATUS_READY : Field := ⟨0, 0⟩
def MEM_BANK_OWNER_CLEARING : Field := ⟨31, 31⟩
def MEM_BANK_OWNER_RETAINED : Field := ⟨30, 30⟩
def MEM_BANK_OWNER_WAKING : Field := ⟨29, 29⟩
def MEM_BANK_OWNER_FAILED : Field := ⟨28, 28⟩
def MEM_BANK_OWNER_AUTO_WAKE : Field := ⟨27, 27⟩
def MEM_BANK_OWNER_OWNER : Field := ⟨8, 0⟩
def MEM_MARCH_RESULT_DONE : Field := ⟨31, 31⟩
def MEM_MARCH_RESULT_FAIL : Field := ⟨30, 30⟩
def MEM_MARCH_RESULT_PRESERVE : Field := ⟨29, 29⟩
def MEM_MARCH_RESULT_GENERAL : Field := ⟨28, 28⟩
def MEM_MARCH_RESULT_BANK : Field := ⟨27, 23⟩
def MEM_MARCH_RESULT_WORD : Field := ⟨14, 0⟩
def MEM_MARCH_DETAIL_ELEMENT : Field := ⟨31, 29⟩
def MEM_MARCH_DETAIL_EXPECTED : Field := ⟨28, 28⟩
def MEM_MARCH_DETAIL_FAILS : Field := ⟨27, 16⟩
def MEM_MARCH_DETAIL_BIT : Field := ⟨6, 0⟩
def MEM_APERTURE_SEL_BANK : Field := ⟨6, 3⟩
def MEM_APERTURE_SEL_PAGE : Field := ⟨2, 0⟩
def MEM_LPDDR_REGION_EN : Field := ⟨31, 31⟩
def MEM_LPDDR_REGION_TYPE : Field := ⟨30, 28⟩
def MEM_LPDDR_REGION_OWNER : Field := ⟨24, 16⟩
def MEM_LPDDR_REGION_BASE_MIB : Field := ⟨12, 0⟩
def MEM_LPDDR_SIZE_SIZE_MIB : Field := ⟨12, 0⟩
def PWR_STATUS_PG : Field := ⟨31, 31⟩
def PWR_STATUS_REG_FAULT : Field := ⟨23, 23⟩
def PWR_STATUS_DOMAIN_FAULT : Field := ⟨22, 22⟩
def PWR_STATUS_THERM_WARN : Field := ⟨21, 21⟩
def PWR_STATUS_TRANSITION : Field := ⟨7, 7⟩
def PWR_STATUS_TARGET : Field := ⟨6, 4⟩
def PWR_STATUS_STATE : Field := ⟨2, 0⟩
def PWR_READY_FBUS_GROUP : Field := ⟨21, 16⟩
def PWR_READY_FUNC : Field := ⟨13, 0⟩
def PWR_READY_PORTS_QUAD : Field := ⟨28, 24⟩
def PWR_READY_PORTS_MAC : Field := ⟨23, 0⟩
def PWR_RESET_CAUSE_COUNT : Field := ⟨15, 8⟩
def PWR_RESET_CAUSE_LAST : Field := ⟨3, 0⟩
def PWR_WAKE_FIRST_VALID : Field := ⟨31, 31⟩
def PWR_WAKE_FIRST_SOURCE : Field := ⟨7, 0⟩
def PWR_WAKE_CFG_LISTEN_AUTO : Field := ⟨31, 31⟩
def PWR_WAKE_CFG_TARGET : Field := ⟨30, 28⟩
def PWR_WAKE_CFG_LISTEN_GROUP : Field := ⟨26, 24⟩
def PWR_WAKE_CFG_TIMER_S : Field := ⟨15, 0⟩
def PWR_REG_CFG_ON : Field := ⟨31, 31⟩
def PWR_REG_CFG_PG : Field := ⟨30, 30⟩
def PWR_REG_CFG_FAULT : Field := ⟨29, 29⟩
def PWR_REG_CFG_DELAY_MS : Field := ⟨15, 8⟩
def PWR_REG_CFG_PG_TIMEOUT_MS : Field := ⟨7, 0⟩
def PWR_RAIL_SEQ_AUTO : Field := ⟨31, 31⟩
def PWR_RAIL_SEQ_STAGE : Field := ⟨30, 28⟩
def PWR_RAIL_SEQ_LISTEN : Field := ⟨27, 27⟩
def PWR_RAIL_SEQ_PARTIAL : Field := ⟨26, 26⟩
def PWR_RAIL_SEQ_ACTIVE : Field := ⟨25, 25⟩
def PWR_RAIL_SEQ_DOMAIN : Field := ⟨21, 16⟩
def PWR_RAIL_SEQ_ON_DELAY_MS : Field := ⟨15, 8⟩
def PWR_RAIL_SEQ_OFF_DELAY_MS : Field := ⟨7, 0⟩
def PWR_CLK_STATUS_PLL_LOCK : Field := ⟨31, 31⟩
def PWR_CLK_STATUS_HOLDOVER : Field := ⟨30, 30⟩
def PWR_CLK_STATUS_REF_DRIFT : Field := ⟨29, 29⟩
def PWR_CLK_STATUS_REF_LOST : Field := ⟨28, 28⟩
def PWR_CLK_STATUS_AO_XTAL_FAIL : Field := ⟨27, 27⟩
def PWR_CLK_STATUS_RELOCKING : Field := ⟨26, 26⟩
def PWR_THERM_TEMP : Field := ⟨31, 16⟩
def PWR_THERM_WARN_C : Field := ⟨15, 8⟩
def SBB_STATUS_RAIL_FAULT : Field := ⟨27, 16⟩
def SBB_STATUS_CHAN_FAULT : Field := ⟨15, 4⟩
def SBB_STATUS_READY : Field := ⟨0, 0⟩
def SBB_CHAN_CFG_EN : Field := ⟨31, 31⟩
def SBB_CHAN_CFG_PRE_SUP : Field := ⟨30, 30⟩
def SBB_CHAN_CFG_PAGE : Field := ⟨29, 27⟩
def SBB_CHAN_CFG_FLASH_PAGES : Field := ⟨26, 26⟩
def SBB_CHAN_CFG_SPI_MODE : Field := ⟨25, 24⟩
def SBB_CHAN_CFG_RETRY_N : Field := ⟨23, 20⟩
def SBB_CHAN_CFG_DIV : Field := ⟨15, 0⟩
def SBB_CHAN_TIMING_RETRY_GAP_US : Field := ⟨31, 16⟩
def SBB_CHAN_TIMING_WR_CYCLE_MS : Field := ⟨15, 8⟩
def SBB_CHAN_TIMING_LOCK_MAX : Field := ⟨7, 0⟩
def SBB_REQ_ADDR_REG : Field := ⟨31, 16⟩
def SBB_REQ_ADDR_DEVAD : Field := ⟨12, 8⟩
def SBB_REQ_ADDR_DEVICE : Field := ⟨6, 0⟩
def SBB_REQ_CTRL_GO : Field := ⟨31, 31⟩
def SBB_REQ_CTRL_CANCEL : Field := ⟨30, 30⟩
def SBB_REQ_CTRL_OP : Field := ⟨29, 27⟩
def SBB_REQ_CTRL_CHANNEL : Field := ⟨26, 23⟩
def SBB_REQ_CTRL_C45 : Field := ⟨22, 22⟩
def SBB_REQ_CTRL_ALEN : Field := ⟨21, 20⟩
def SBB_REQ_CTRL_RETRY_N : Field := ⟨19, 16⟩
def SBB_REQ_CTRL_LOCK : Field := ⟨15, 15⟩
def SBB_REQ_CTRL_LEN : Field := ⟨7, 0⟩
def SBB_SLOT_STATE_IN_FLIGHT : Field := ⟨31, 31⟩
def SBB_SLOT_STATE_LOCK_HELD : Field := ⟨30, 30⟩
def SBB_SLOT_STATE_BYTES : Field := ⟨8, 0⟩
def SBB_GPIO_CFG_DIR : Field := ⟨31, 30⟩
def SBB_GPIO_CFG_LEVEL : Field := ⟨29, 29⟩
def SBB_GPIO_CFG_SAFE : Field := ⟨28, 28⟩
def SBB_GPIO_CFG_HOST_SET : Field := ⟨27, 27⟩
def SBB_GPIO_CFG_IN : Field := ⟨26, 26⟩
def SBB_GPIO_CFG_DEGLITCH_US : Field := ⟨23, 16⟩
def SBB_GPIO_CFG_EDGE : Field := ⟨1, 0⟩
def SBB_GPIO_TASK_EN : Field := ⟨31, 31⟩
def SBB_GPIO_TASK_ACTION : Field := ⟨29, 28⟩
def SBB_GPIO_TASK_LINE : Field := ⟨5, 0⟩
def SBB_RAIL_CFG_ON : Field := ⟨31, 31⟩
def SBB_RAIL_CFG_FAULT : Field := ⟨30, 30⟩
def SBB_RAIL_CFG_PG : Field := ⟨29, 29⟩
def SBB_RAIL_CFG_RETRIES : Field := ⟨25, 24⟩
def SBB_RAIL_CFG_RETRY_MS : Field := ⟨23, 8⟩
def SBB_RAIL_CFG_PG_TIMEOUT_MS : Field := ⟨7, 0⟩
def EVF_STATUS_READY : Field := ⟨0, 0⟩
def EVF_SW_FIRE_FIRE : Field := ⟨3, 0⟩
def EVF_TASK_CFG_RECORD : Field := ⟨31, 31⟩
def EVF_TASK_CFG_OWNER : Field := ⟨8, 0⟩
def EVF_SVC_BOUND_BOUND_MS : Field := ⟨13, 0⟩
end Fld

/-- A register definition as the host sees it: where it lies (base, and count and stride per index), which bits a
host write sets (`rw`), whether a host read clears it (`rc`), which bits a host write of 1 clears (`w1c`), and whether a
host read returns 0 whatever it holds (`hid`, the WO registers and those of R480); which bits are configuration that firmware or the
Early Set sets (`cfg`; DEDUCED, log entry 149), and which of those R13 seals (`rwl`, R481). -/
structure RegDesc where
  base : Nat
  dims : List (Nat × Nat)
  rw   : Nat
  rc   : Bool
  w1c  : Nat
  hid  : Bool
  cfg  : Nat
  rwl  : Nat
deriving DecidableEq, Repr

/-- `off - base` runs over the given counts and strides. -/
def coversDims : List (Nat × Nat) → Nat → Bool
  | [], r => r == 0
  | (c, s) :: ds, r => decide (r / s < c) && coversDims ds (r % s)

/-- The register lies at the offset. -/
def RegDesc.covers (d : RegDesc) (off : Nat) : Bool :=
  decide (d.base ≤ off) && coversDims d.dims (off - d.base)

/-- The GLB registers of chapter 00_scope.md, 01_architecture.md. -/
def regsGLB : List RegDesc :=
  [⟨0, [], 0, false, 0, false, 0, 0⟩,
   ⟨4, [], 0, false, 0, false, 0xf33, 0⟩]

/-- The MBX registers of chapter 11_mailboxes_and_firmware.md. -/
def regsMBX : List RegDesc :=
  [⟨0x10000000, [(512, 0x100), (32, 4)], 0, false, 0, false, 0, 0⟩,
   ⟨0x10000080, [(512, 0x100)], 0, false, 0, true, 0, 0⟩,
   ⟨0x10000084, [(512, 0x100)], 0, false, 0, false, 0, 0⟩,
   ⟨0x10000088, [(512, 0x100)], 0, false, 0, false, 0, 0⟩,
   ⟨0x1000008c, [(512, 0x100)], 0, false, 0x80000000, false, 0, 0⟩,
   ⟨0x10000090, [(512, 0x100)], 0, true, 0, false, 0, 0⟩,
   ⟨0x10000094, [(512, 0x100)], 0, true, 0, false, 0, 0⟩,
   ⟨0x1f000, [], 0, false, 0, false, 0, 0⟩,
   ⟨0x1f004, [], 0, false, 0, false, 0, 0⟩,
   ⟨0x1f008, [], 0, false, 0, false, 0, 0⟩,
   ⟨0x1f00c, [], 0, false, 0, false, 0, 0⟩,
   ⟨0x1f010, [], 0, false, 0, false, 0, 0⟩,
   ⟨0x1f014, [], 0, false, 0, false, 0, 0⟩]

/-- The EVQ registers of chapter 10_host_interface.md. -/
def regsEVQ : List RegDesc :=
  [⟨0x20000, [(512, 0x100)], 0xfffffc00, false, 0, false, 0, 0⟩,
   ⟨0x20004, [(512, 0x100)], 0xffffffc0, false, 0, false, 0, 0⟩,
   ⟨0x20008, [(512, 0x100)], 0xffffffff, false, 0, false, 0, 0⟩,
   ⟨0x2000c, [(512, 0x100)], 0xffffffff, false, 0, false, 0, 0⟩,
   ⟨0x20010, [(512, 0x100)], 0, false, 0, false, 0, 0⟩,
   ⟨0x20014, [(512, 0x100)], 0xffffffff, false, 0, false, 0, 0⟩,
   ⟨0x20018, [(512, 0x100)], 0, false, 0, false, 0, 0⟩,
   ⟨0x2001c, [(512, 0x100)], 0, true, 0, false, 0, 0⟩,
   ⟨0x20020, [(512, 0x100)], 0, false, 0, false, 0, 0⟩,
   ⟨0x20024, [(512, 0x100)], 0, true, 0, false, 0, 0⟩]

/-- The HDMA registers of chapter 10_host_interface.md. -/
def regsHDMA : List RegDesc :=
  [⟨0x40000, [], 0, false, 0, false, 0, 0⟩,
   ⟨0x40004, [], 0, false, 0, false, 0, 0⟩,
   ⟨0x40008, [], 0, false, 0, false, 0xfff007f, 0xfff007f⟩,
   ⟨0x40100, [], 0, true, 0, false, 0, 0⟩,
   ⟨0x40104, [], 0, true, 0, false, 0, 0⟩,
   ⟨0x40108, [], 0, true, 0, false, 0, 0⟩,
   ⟨0x4010c, [], 0, true, 0, false, 0, 0⟩,
   ⟨0x60000, [(2048, 0x40)], 0xffc00700, false, 0, false, 0, 0⟩,
   ⟨0x60004, [(2048, 0x40)], 0xffffffc0, false, 0, false, 0, 0⟩,
   ⟨0x60008, [(2048, 0x40)], 0xffffffff, false, 0, false, 0, 0⟩,
   ⟨0x6000c, [(2048, 0x40)], 0xffff, false, 0, false, 0, 0⟩,
   ⟨0x60010, [(2048, 0x40)], 0, false, 0, false, 0, 0⟩,
   ⟨0x60014, [(2048, 0x40)], 0xffffffc0, false, 0, false, 0, 0⟩,
   ⟨0x60018, [(2048, 0x40)], 0xffffffff, false, 0, false, 0, 0⟩,
   ⟨0x6001c, [(2048, 0x40)], 0xffff, false, 0, false, 0, 0⟩,
   ⟨0x60020, [(2048, 0x40)], 0, false, 0, false, 0, 0⟩,
   ⟨0x60024, [(2048, 0x40)], 0xffffffff, false, 0, false, 0, 0⟩,
   ⟨0x60028, [(2048, 0x40)], 0, false, 0, false, 0, 0⟩,
   ⟨0x6002c, [(2048, 0x40)], 0, true, 0, false, 0, 0⟩,
   ⟨0x60030, [(2048, 0x40)], 0, true, 0, false, 0, 0⟩,
   ⟨0x60034, [(2048, 0x40)], 0, true, 0, false, 0, 0⟩]

/-- The SWC registers of chapter 02_basin_and_switch_core.md, part 1. -/
def regsSWC1 : List RegDesc :=
  [⟨0x80000, [], 0, false, 0, false, 0, 0⟩,
   ⟨0x80004, [], 0, false, 0, false, 7, 0⟩,
   ⟨0x80008, [], 0, false, 0, false, 0, 0⟩,
   ⟨0x8000c, [], 0, false, 0, false, 0, 0⟩,
   ⟨0x80010, [], 0, false, 0, false, 0x3ffff, 0⟩,
   ⟨0x80014, [], 0, false, 0, false, 0, 0⟩,
   ⟨0x80018, [], 0, false, 0, false, 0xffff, 0⟩,
   ⟨0x8001c, [], 0, false, 0, false, 0, 0⟩,
   ⟨0x80020, [], 0, false, 0, false, 0, 0⟩,
   ⟨0x80100, [], 0, true, 0, false, 0, 0⟩,
   ⟨0x80104, [], 0, true, 0, false, 0, 0⟩,
   ⟨0x80108, [], 0, true, 0, false, 0, 0⟩,
   ⟨0x8010c, [], 0, true, 0, false, 0, 0⟩,
   ⟨0x80110, [], 0, true, 0, false, 0, 0⟩,
   ⟨0x80114, [], 0, true, 0, false, 0, 0⟩,
   ⟨0x80118, [], 0, true, 0, false, 0, 0⟩,
   ⟨0x8011c, [], 0, true, 0, false, 0, 0⟩,
   ⟨0x80120, [], 0, true, 0, false, 0, 0⟩,
   ⟨0x80140, [(8, 4)], 0, true, 0, false, 0, 0⟩,
   ⟨0x80200, [(24, 4)], 0, true, 0, false, 0, 0⟩,
   ⟨0x80280, [(32, 4)], 0, true, 0, false, 0, 0⟩,
   ⟨0x80300, [(24, 4)], 0, true, 0, false, 0, 0⟩,
   ⟨0x80380, [(7, 4)], 0, true, 0, false, 0, 0⟩,
   ⟨0x81000, [(256, 4)], 0, false, 0, false, 0x7f03, 0⟩,
   ⟨0x81400, [(256, 4)], 0, false, 0, false, 0xffffffff, 0⟩,
   ⟨0x81800, [(256, 4)], 0, false, 0, false, 0xffff, 0⟩,
   ⟨0x81c00, [(256, 4)], 0, false, 0, false, 0, 0⟩,
   ⟨0x82000, [(128, 4)], 0, false, 0, false, 0x80ffffff, 0⟩,
   ⟨0x82200, [(128, 4)], 0, false, 0, false, 0, 0⟩,
   ⟨0x82400, [(128, 4)], 0, true, 0, false, 0, 0⟩]

/-- The SWC registers of chapter 02_basin_and_switch_core.md, part 2. -/
def regsSWC2 : List RegDesc :=
  [⟨0x82600, [(128, 4)], 0, true, 0, false, 0, 0⟩,
   ⟨0x82800, [(64, 4)], 0, false, 0, false, 0x3ffff, 0⟩,
   ⟨0x82900, [(64, 4)], 0, false, 0, false, 0x1fff0003, 0⟩,
   ⟨0x82a00, [(64, 4)], 0, true, 0, false, 0, 0⟩,
   ⟨0x90000, [(8192, 4)], 0, false, 0, false, 0, 0⟩]

def regsSWC : List RegDesc := regsSWC1 ++ regsSWC2

/-- The FWD registers of chapter 03_forwarding_tables.md, part 1. -/
def regsFWD1 : List RegDesc :=
  [⟨0xc0000, [], 0, false, 0, false, 0, 0⟩,
   ⟨0xc0004, [], 0, false, 0, false, 0xf, 0⟩,
   ⟨0xc0008, [], 0, false, 0, true, 0xffffffff, 0xffffffff⟩,
   ⟨0xc000c, [], 0, false, 0, true, 0xffffffff, 0xffffffff⟩,
   ⟨0xc0010, [], 0, false, 0, false, 0x7fff000f, 0⟩,
   ⟨0xc0014, [], 0, false, 0, false, 0, 0⟩,
   ⟨0xc0018, [], 0, false, 0, false, 0x3ff0007, 0⟩,
   ⟨0xc001c, [], 0, false, 0, false, 0, 0⟩,
   ⟨0xc0020, [], 0, false, 0, false, 0, 0⟩,
   ⟨0xc0024, [], 0, false, 0, false, 0, 0⟩,
   ⟨0xc0030, [(4, 4)], 0, false, 0, false, 0x8000001f, 0⟩,
   ⟨0xc0100, [(32, 4)], 0, false, 0, false, 0xffffc00f, 0⟩,
   ⟨0xc0200, [], 0, true, 0, false, 0, 0⟩,
   ⟨0xc0204, [], 0, true, 0, false, 0, 0⟩,
   ⟨0xc0208, [], 0, true, 0, false, 0, 0⟩,
   ⟨0xc020c, [], 0, true, 0, false, 0, 0⟩,
   ⟨0xc0210, [], 0, true, 0, false, 0, 0⟩,
   ⟨0xc0214, [], 0, true, 0, false, 0, 0⟩,
   ⟨0xc0218, [], 0, true, 0, false, 0, 0⟩,
   ⟨0xc021c, [], 0, true, 0, false, 0, 0⟩,
   ⟨0xc0220, [], 0, true, 0, false, 0, 0⟩,
   ⟨0xc0224, [], 0, true, 0, false, 0, 0⟩,
   ⟨0xc0228, [], 0, true, 0, false, 0, 0⟩,
   ⟨0xc022c, [], 0, true, 0, false, 0, 0⟩,
   ⟨0xc0230, [], 0, true, 0, false, 0, 0⟩,
   ⟨0xc0234, [], 0, true, 0, false, 0, 0⟩,
   ⟨0xc0238, [], 0, true, 0, false, 0, 0⟩,
   ⟨0xc023c, [], 0, true, 0, false, 0, 0⟩,
   ⟨0xc0240, [], 0, true, 0, false, 0, 0⟩,
   ⟨0xc0244, [], 0, false, 0, false, 0, 0⟩]

/-- The FWD registers of chapter 03_forwarding_tables.md, part 2. -/
def regsFWD2 : List RegDesc :=
  [⟨0xc0248, [], 0, true, 0, false, 0, 0⟩,
   ⟨0xc024c, [], 0, true, 0, false, 0, 0⟩,
   ⟨0xc0250, [(6, 4)], 0, true, 0, false, 0, 0⟩,
   ⟨0xc0270, [(6, 4)], 0, true, 0, false, 0, 0⟩,
   ⟨0xc0290, [(6, 4)], 0, true, 0, false, 0, 0⟩,
   ⟨0xc0400, [(32, 4)], 0, false, 0, false, 0, 0⟩,
   ⟨0xc0500, [], 0, false, 0, false, 0, 0⟩,
   ⟨0xd0000, [(8192, 4)], 0, true, 0, false, 0, 0⟩]

def regsFWD : List RegDesc := regsFWD1 ++ regsFWD2

/-- The TSS registers of chapter 04_scheduling_and_latency.md, part 1. -/
def regsTSS1 : List RegDesc :=
  [⟨0x100000, [], 0, false, 0, false, 0, 0⟩,
   ⟨0x100010, [], 0x80ff07ff, false, 0, false, 0, 0⟩,
   ⟨0x100014, [], 0, false, 0, false, 0, 0⟩,
   ⟨0x100080, [(32, 4)], 0, false, 0, false, 0x7ffffff, 0⟩,
   ⟨0x100100, [(32, 4)], 0, false, 0, false, 0xffff0ecf, 0⟩,
   ⟨0x100200, [(256, 4)], 0, false, 0, false, 0x1ffff, 0⟩,
   ⟨0x100600, [(256, 4)], 0, false, 0, false, 0x3fff, 0⟩,
   ⟨0x100a00, [(48, 4)], 0, false, 0, false, 0x81ffffff, 0⟩,
   ⟨0x100ac0, [(48, 4)], 0, false, 0, false, 0xffffffff, 0⟩,
   ⟨0x100c00, [(24, 0x20)], 0, false, 0, false, 0, 0⟩,
   ⟨0x100c04, [(24, 0x20)], 0, false, 0, false, 0, 0⟩,
   ⟨0x100c08, [(24, 0x20)], 0, false, 0, false, 0, 0⟩,
   ⟨0x100c0c, [(24, 0x20)], 0, false, 0, false, 0, 0⟩,
   ⟨0x100c10, [(24, 0x20)], 0, false, 0, false, 0, 0⟩,
   ⟨0x100c14, [(24, 0x20)], 0, false, 0, false, 0, 0⟩,
   ⟨0x101000, [(256, 0x10)], 0, false, 0, false, 0, 0⟩,
   ⟨0x101004, [(256, 0x10)], 0, false, 0, false, 0, 0⟩,
   ⟨0x101008, [(256, 0x10)], 0, false, 0, false, 0, 0⟩,
   ⟨0x10100c, [(256, 0x10)], 0, false, 0, false, 0, 0⟩,
   ⟨0x102000, [(64, 0x20)], 0, false, 0, false, 0xffc00fff, 0⟩,
   ⟨0x102004, [(64, 0x20)], 0, false, 0, false, 0xfff0fff, 0⟩,
   ⟨0x102008, [(64, 0x20)], 0, false, 0, false, 0xfff, 0⟩,
   ⟨0x10200c, [(64, 0x20)], 0, true, 0, false, 0, 0⟩,
   ⟨0x102010, [(64, 0x20)], 0, true, 0, false, 0, 0⟩,
   ⟨0x102014, [(64, 0x20)], 0, true, 0, false, 0, 0⟩,
   ⟨0x102018, [(64, 0x20)], 0, true, 0, false, 0, 0⟩,
   ⟨0x10201c, [(64, 0x20)], 0, true, 0, false, 0, 0⟩,
   ⟨0x102800, [(4, 4)], 0, false, 0, false, 0xf0ffffff, 0⟩,
   ⟨0x102c00, [(4, 0x400), (256, 4)], 0, false, 0, false, 0x80003fff, 0⟩,
   ⟨0x103c00, [(20, 4)], 0, true, 0, false, 0, 0⟩]

/-- The TSS registers of chapter 04_scheduling_and_latency.md, part 2. -/
def regsTSS2 : List RegDesc :=
  [⟨0x103c80, [(20, 4)], 0, true, 0, false, 0, 0⟩,
   ⟨0x103d00, [(24, 4)], 0, true, 0, false, 0, 0⟩,
   ⟨0x103d80, [(24, 4)], 0, true, 0, false, 0, 0⟩,
   ⟨0x103e00, [(24, 4)], 0, true, 0, false, 0, 0⟩,
   ⟨0x103e80, [(4, 4)], 0, true, 0, false, 0, 0⟩,
   ⟨0x103e90, [], 0, false, 0, false, 0, 0⟩,
   ⟨0x103e94, [], 0, true, 0, false, 0, 0⟩,
   ⟨0x103e98, [], 0, false, 0, false, 0, 0⟩,
   ⟨0x103ea0, [], 0, true, 0, false, 0, 0⟩,
   ⟨0x103ea4, [], 0, true, 0, false, 0, 0⟩,
   ⟨0x103ea8, [], 0, true, 0, false, 0, 0⟩,
   ⟨0x104000, [(4864, 8)], 0, false, 0, false, 0xffffffff, 0⟩,
   ⟨0x104004, [(4864, 8)], 0, false, 0, false, 0x1ffffff, 0⟩,
   ⟨0x10e000, [(4096, 4)], 0, false, 0, false, 0xdff83fff, 0⟩,
   ⟨0x112000, [(4096, 4)], 0, false, 0, false, 0, 0⟩,
   ⟨0x116000, [(4096, 4)], 0, false, 0, false, 0, 0⟩,
   ⟨0x11a000, [(4864, 4)], 0, true, 0, false, 0, 0⟩,
   ⟨0x11f000, [(4096, 4)], 0, true, 0, false, 0, 0⟩]

def regsTSS : List RegDesc := regsTSS1 ++ regsTSS2

/-- The MAC registers of chapter 06_ethernet_ports.md, part 1. -/
def regsMAC1 : List RegDesc :=
  [⟨0x140000, [(24, 0x1000)], 0, false, 0, false, 0, 0⟩,
   ⟨0x140004, [(24, 0x1000)], 0, false, 0, false, 0x7ffd, 0⟩,
   ⟨0x140008, [(24, 0x1000)], 0, false, 0, false, 0x3ff00ff, 0⟩,
   ⟨0x14000c, [(24, 0x1000)], 0, false, 0, false, 0x83ff03ff, 0⟩,
   ⟨0x140010, [(24, 0x1000)], 0, false, 0, false, 0xffffffff, 0⟩,
   ⟨0x140014, [(24, 0x1000)], 0, false, 0, false, 0xffffffff, 0⟩,
   ⟨0x154020, [(4, 0x1000)], 0, false, 0, false, 0x870fffff, 0⟩,
   ⟨0x154024, [(4, 0x1000)], 0, false, 0, false, 0x3fff00ff, 0⟩,
   ⟨0x154028, [(4, 0x1000)], 0, false, 0, false, 0, 0⟩,
   ⟨0x140040, [(20, 0x1000)], 0, false, 0, false, 0xff000003, 0⟩,
   ⟨0x140044, [(20, 0x1000)], 0, false, 0, false, 0xffffffff, 0⟩,
   ⟨0x140048, [(20, 0x1000), (4, 4)], 0, false, 0, false, 0xffffffff, 0⟩,
   ⟨0x140100, [(24, 0x1000), (32, 8)], 0, false, 0, false, 0xfff00fff, 0⟩,
   ⟨0x140104, [(24, 0x1000), (32, 8)], 0, false, 0, false, 0xffff, 0⟩,
   ⟨0x154200, [(4, 0x1000), (128, 4)], 0, false, 0, false, 0xffffffff, 0⟩,
   ⟨0x154400, [(4, 0x1000)], 0, false, 0, false, 0xf, 0⟩,
   ⟨0x140800, [(24, 0x1000)], 0, true, 0, false, 0, 0⟩,
   ⟨0x140804, [(24, 0x1000)], 0, false, 0, false, 0, 0⟩,
   ⟨0x140808, [(24, 0x1000)], 0, true, 0, false, 0, 0⟩,
   ⟨0x14080c, [(24, 0x1000)], 0, true, 0, false, 0, 0⟩,
   ⟨0x140810, [(24, 0x1000)], 0, true, 0, false, 0, 0⟩,
   ⟨0x140814, [(24, 0x1000)], 0, true, 0, false, 0, 0⟩,
   ⟨0x140818, [(24, 0x1000)], 0, true, 0, false, 0, 0⟩,
   ⟨0x14081c, [(24, 0x1000)], 0, true, 0, false, 0, 0⟩,
   ⟨0x140820, [(24, 0x1000)], 0, true, 0, false, 0, 0⟩,
   ⟨0x140824, [(24, 0x1000)], 0, true, 0, false, 0, 0⟩,
   ⟨0x140828, [(24, 0x1000)], 0, true, 0, false, 0, 0⟩,
   ⟨0x140830, [(24, 0x1000)], 0, true, 0, false, 0, 0⟩,
   ⟨0x140834, [(24, 0x1000)], 0, false, 0, false, 0, 0⟩,
   ⟨0x140838, [(24, 0x1000)], 0, true, 0, false, 0, 0⟩]

/-- The MAC registers of chapter 06_ethernet_ports.md, part 2. -/
def regsMAC2 : List RegDesc :=
  [⟨0x14083c, [(24, 0x1000)], 0, true, 0, false, 0, 0⟩,
   ⟨0x140840, [(24, 0x1000)], 0, true, 0, false, 0, 0⟩,
   ⟨0x140848, [(24, 0x1000)], 0, true, 0, false, 0, 0⟩,
   ⟨0x14084c, [(24, 0x1000)], 0, true, 0, false, 0, 0⟩,
   ⟨0x140850, [(24, 0x1000)], 0, true, 0, false, 0, 0⟩,
   ⟨0x140854, [(24, 0x1000)], 0, true, 0, false, 0, 0⟩,
   ⟨0x140864, [(24, 0x1000)], 0, true, 0, false, 0, 0⟩,
   ⟨0x140868, [(24, 0x1000)], 0, true, 0, false, 0, 0⟩,
   ⟨0x14086c, [(24, 0x1000)], 0, true, 0, false, 0, 0⟩,
   ⟨0x140880, [(24, 0x1000)], 0, true, 0, false, 0, 0⟩,
   ⟨0x140884, [(24, 0x1000)], 0, true, 0, false, 0, 0⟩,
   ⟨0x140888, [(24, 0x1000)], 0, true, 0, false, 0, 0⟩,
   ⟨0x14088c, [(24, 0x1000)], 0, true, 0, false, 0, 0⟩,
   ⟨0x140890, [(24, 0x1000)], 0, true, 0, false, 0, 0⟩,
   ⟨0x140894, [(24, 0x1000)], 0, true, 0, false, 0, 0⟩,
   ⟨0x140898, [(24, 0x1000)], 0, true, 0, false, 0, 0⟩,
   ⟨0x14089c, [(24, 0x1000)], 0, true, 0, false, 0, 0⟩,
   ⟨0x1408a0, [(24, 0x1000)], 0, true, 0, false, 0, 0⟩,
   ⟨0x158000, [(5, 0x100)], 0, false, 0, false, 1, 0⟩,
   ⟨0x158004, [(5, 0x100)], 0, false, 0, false, 0, 0⟩,
   ⟨0x158010, [(5, 0x100), (4, 4)], 0, false, 0, false, 0x1fff1f, 0⟩,
   ⟨0x158020, [(5, 0x100)], 0, true, 0, false, 0, 0⟩]

def regsMAC : List RegDesc := regsMAC1 ++ regsMAC2

/-- The FBUS registers of chapter 07_can_and_lin.md, part 1. -/
def regsFBUS1 : List RegDesc :=
  [⟨0x180000, [(48, 0x1000)], 0, false, 0, false, 0, 0⟩,
   ⟨0x180004, [(48, 0x1000)], 0, false, 0, false, 0xffff8000, 0⟩,
   ⟨0x180008, [(48, 0x1000)], 0, false, 0, false, 0xffffff7f, 0⟩,
   ⟨0x18000c, [(48, 0x1000)], 0, false, 0, false, 0x1f3f1f1f, 0⟩,
   ⟨0x180010, [(48, 0x1000)], 0, false, 0, false, 0x800000ff, 0⟩,
   ⟨0x180014, [(48, 0x1000)], 0, false, 0, false, 0xffffff, 0⟩,
   ⟨0x180018, [(48, 0x1000)], 0, false, 0, false, 0, 0⟩,
   ⟨0x18001c, [(48, 0x1000)], 0, false, 0, false, 0xc000000f, 0⟩,
   ⟨0x180020, [(48, 0x1000)], 0, false, 0, false, 0xffff, 0⟩,
   ⟨0x180024, [(48, 0x1000)], 0, false, 0, false, 0xf7001fff, 0⟩,
   ⟨0x180028, [(48, 0x1000)], 0, false, 0, false, 0xffffffff, 0⟩,
   ⟨0x18002c, [(48, 0x1000)], 0, false, 0, false, 0xffffffff, 0⟩,
   ⟨0x180030, [(48, 0x1000)], 0, false, 0, false, 0xffffffff, 0⟩,
   ⟨0x180034, [(48, 0x1000)], 0, false, 0, false, 0, 0⟩,
   ⟨0x180100, [(48, 0x1000)], 0, true, 0, false, 0, 0⟩,
   ⟨0x180104, [(48, 0x1000)], 0, true, 0, false, 0, 0⟩,
   ⟨0x180108, [(48, 0x1000), (2, 4)], 0, true, 0, false, 0, 0⟩,
   ⟨0x180110, [(48, 0x1000)], 0, true, 0, false, 0, 0⟩,
   ⟨0x180114, [(48, 0x1000)], 0, true, 0, false, 0, 0⟩,
   ⟨0x180118, [(48, 0x1000)], 0, true, 0, false, 0, 0⟩,
   ⟨0x18011c, [(48, 0x1000)], 0, true, 0, false, 0, 0⟩,
   ⟨0x180120, [(48, 0x1000)], 0, true, 0, false, 0, 0⟩,
   ⟨0x180124, [(48, 0x1000)], 0, true, 0, false, 0, 0⟩,
   ⟨0x180128, [(48, 0x1000)], 0, true, 0, false, 0, 0⟩,
   ⟨0x18012c, [(48, 0x1000), (5, 4)], 0, true, 0, false, 0, 0⟩,
   ⟨0x180140, [(48, 0x1000)], 0, true, 0, false, 0, 0⟩,
   ⟨0x180144, [(48, 0x1000)], 0, true, 0, false, 0, 0⟩,
   ⟨0x180148, [(48, 0x1000)], 0, true, 0, false, 0, 0⟩,
   ⟨0x18014c, [(48, 0x1000)], 0, true, 0, false, 0, 0⟩,
   ⟨0x180200, [(48, 0x1000), (64, 8)], 0, false, 0, false, 0xffffffff, 0⟩]

/-- The FBUS registers of chapter 07_can_and_lin.md, part 2. -/
def regsFBUS2 : List RegDesc :=
  [⟨0x180204, [(48, 0x1000), (64, 8)], 0, false, 0, false, 0xffffffff, 0⟩,
   ⟨0x180400, [(48, 0x1000), (256, 4)], 0, false, 0, false, 0xffffffff, 0⟩,
   ⟨0x180800, [(48, 0x1000), (64, 8)], 0, false, 0, false, 0xffffffff, 0⟩,
   ⟨0x180804, [(48, 0x1000), (64, 8)], 0, false, 0, false, 0x3fffffff, 0⟩,
   ⟨0x1b0000, [(16, 0x800)], 0, false, 0, false, 0, 0⟩,
   ⟨0x1b0004, [(16, 0x800)], 0, false, 0, false, 0xf8000000, 0⟩,
   ⟨0x1b0008, [(16, 0x800)], 0, false, 0, false, 0xffff, 0⟩,
   ⟨0x1b000c, [(16, 0x800)], 0, false, 0, false, 0x80000003, 0⟩,
   ⟨0x1b0010, [(16, 0x800)], 0, false, 0, false, 0xffffff1f, 0⟩,
   ⟨0x1b0100, [(16, 0x800), (7, 4)], 0, true, 0, false, 0, 0⟩,
   ⟨0x1b011c, [(16, 0x800)], 0, true, 0, false, 0, 0⟩,
   ⟨0x1b0200, [(16, 0x800), (64, 4)], 0, false, 0, false, 0x7f, 0⟩,
   ⟨0x1b0300, [(16, 0x800), (16, 4)], 0, false, 0, false, 0xffffffff, 0⟩,
   ⟨0x1b0400, [(16, 0x800), (4, 0x100), (64, 4)], 0, false, 0, false, 0xfc3fffff, 0⟩,
   ⟨0x1b8000, [(64, 0x10)], 0, false, 0, false, 0xc0003fff, 0⟩,
   ⟨0x1b8004, [(64, 0x10)], 0, false, 0, false, 0, 0⟩,
   ⟨0x1b8008, [(64, 0x10)], 0, false, 0, false, 0, 0⟩,
   ⟨0x1b9000, [(64, 0x40), (16, 4)], 0, false, 0, false, 0, 0⟩,
   ⟨0x1ba000, [(8, 0x40)], 0, false, 0, false, 0xfe00000f, 0⟩,
   ⟨0x1ba004, [(8, 0x40)], 0, false, 0, false, 0xffffffff, 0⟩,
   ⟨0x1ba008, [(8, 0x40)], 0, false, 0, false, 0xffffffff, 0⟩,
   ⟨0x1ba00c, [(8, 0x40)], 0, false, 0, false, 0xffffffff, 0⟩,
   ⟨0x1ba010, [(8, 0x40)], 0, false, 0, false, 0xffffffff, 0⟩,
   ⟨0x1ba014, [(8, 0x40)], 0, false, 0, false, 0xffffffff, 0⟩,
   ⟨0x1ba018, [(8, 0x40)], 0, false, 0, false, 0xffffffff, 0⟩,
   ⟨0x1ba01c, [(8, 0x40)], 0, false, 0, false, 0, 0⟩,
   ⟨0x1ba020, [(8, 0x40), (5, 4)], 0, false, 0, false, 0, 0⟩,
   ⟨0x1bc000, [(64, 4)], 0, true, 0, false, 0, 0⟩,
   ⟨0x1bc100, [(64, 4)], 0, true, 0, false, 0, 0⟩,
   ⟨0x1bc200, [(64, 4)], 0, true, 0, false, 0, 0⟩]

/-- The FBUS registers of chapter 07_can_and_lin.md, part 3. -/
def regsFBUS3 : List RegDesc :=
  [⟨0x1bc300, [(64, 4)], 0, true, 0, false, 0, 0⟩,
   ⟨0x1bd000, [], 0, false, 0, false, 0, 0⟩,
   ⟨0x1bd004, [], 0, false, 0, false, 3, 0⟩,
   ⟨0x1bd008, [], 0, false, 0, false, 0, 0⟩,
   ⟨0x1bd100, [(96, 4)], 0, false, 0, false, 0xf0000000, 0⟩,
   ⟨0x1bd400, [(32, 0x20)], 0, false, 0, false, 0xfffff7ff, 0⟩,
   ⟨0x1bd404, [(32, 0x20)], 0, false, 0, false, 0xffffffff, 0⟩,
   ⟨0x1bd408, [(32, 0x20)], 0, false, 0, false, 0xffffffff, 0⟩,
   ⟨0x1bd40c, [(32, 0x20)], 0, false, 0, false, 0xffff, 0⟩,
   ⟨0x1bd410, [(32, 0x20)], 0, false, 0, false, 0xffffffff, 0⟩,
   ⟨0x1bd414, [(32, 0x20)], 0, false, 0, false, 0xffff, 0⟩,
   ⟨0x1bd418, [(32, 0x20)], 0, false, 0, false, 0xffffffff, 0⟩,
   ⟨0x1bd41c, [(32, 0x20)], 0, false, 0, false, 7, 0⟩,
   ⟨0x1bd800, [(32, 0x20)], 0, false, 0, false, 0x80000000, 0⟩,
   ⟨0x1bd804, [(32, 0x20)], 0, false, 0, false, 0xffffffff, 0⟩,
   ⟨0x1bd808, [(32, 0x20)], 0, false, 0, false, 0xffffffff, 0⟩,
   ⟨0x1bdc00, [(96, 0x10), (4, 4)], 0, false, 0, false, 0x9fffffff, 0⟩,
   ⟨0x1be300, [(16, 4)], 0, false, 0, false, 0xffff, 0⟩,
   ⟨0x1be400, [], 0, true, 0, false, 0, 0⟩,
   ⟨0x1be404, [], 0, true, 0, false, 0, 0⟩,
   ⟨0x1be408, [], 0, true, 0, false, 0, 0⟩,
   ⟨0x1be40c, [], 0, true, 0, false, 0, 0⟩,
   ⟨0x1be410, [], 0, true, 0, false, 0, 0⟩,
   ⟨0x1be414, [], 0, true, 0, false, 0, 0⟩,
   ⟨0x1be418, [], 0, true, 0, false, 0, 0⟩,
   ⟨0x1be41c, [], 0, true, 0, false, 0, 0⟩,
   ⟨0x1be420, [], 0, true, 0, false, 0, 0⟩,
   ⟨0x1be424, [], 0, true, 0, false, 0, 0⟩,
   ⟨0x1be428, [], 0, true, 0, false, 0, 0⟩,
   ⟨0x1be42c, [], 0, true, 0, false, 0, 0⟩]

/-- The FBUS registers of chapter 07_can_and_lin.md, part 4. -/
def regsFBUS4 : List RegDesc :=
  [⟨0x1be430, [], 0, true, 0, false, 0, 0⟩,
   ⟨0x1be434, [], 0, true, 0, false, 0, 0⟩,
   ⟨0x1be438, [], 0, true, 0, false, 0, 0⟩,
   ⟨0x1be43c, [], 0, true, 0, false, 0, 0⟩,
   ⟨0x1be440, [], 0, true, 0, false, 0, 0⟩,
   ⟨0x1be444, [], 0, true, 0, false, 0, 0⟩,
   ⟨0x1be448, [], 0, true, 0, false, 0, 0⟩,
   ⟨0x1be44c, [], 0, true, 0, false, 0, 0⟩,
   ⟨0x1be450, [], 0, true, 0, false, 0, 0⟩,
   ⟨0x1be454, [], 0, true, 0, false, 0, 0⟩,
   ⟨0x1be458, [], 0, true, 0, false, 0, 0⟩,
   ⟨0x1bf000, [], 0, false, 0, false, 0, 0⟩]

def regsFBUS : List RegDesc := regsFBUS1 ++ regsFBUS2 ++ regsFBUS3 ++ regsFBUS4

/-- The VIE registers of chapter 05_video_integrity.md, part 1. -/
def regsVIE1 : List RegDesc :=
  [⟨0x1c0000, [], 0, false, 0, false, 0, 0⟩,
   ⟨0x1c0004, [], 0, false, 0, false, 0x3ff00ff, 0⟩,
   ⟨0x1c0008, [], 0, false, 0, false, 0, 0⟩,
   ⟨0x1c000c, [], 0, false, 0, false, 0, 0⟩,
   ⟨0x1c0010, [], 0, true, 0, false, 0, 0⟩,
   ⟨0x1c0100, [(16, 8)], 0, false, 0, false, 0, 0⟩,
   ⟨0x1c0104, [(16, 8)], 0, false, 0, false, 0, 0⟩,
   ⟨0x1c0200, [(8, 8)], 0, false, 0, false, 0xfe0fffff, 0⟩,
   ⟨0x1c0204, [(8, 8)], 0, false, 0, false, 0xffffffff, 0⟩,
   ⟨0x1c1000, [(64, 0x100)], 0, false, 0, false, 0xffffff00, 0⟩,
   ⟨0x1c1004, [(64, 0x100)], 0, false, 0, false, 0xffffffff, 0⟩,
   ⟨0x1c1008, [(64, 0x100)], 0, false, 0, false, 0xffffffff, 0⟩,
   ⟨0x1c100c, [(64, 0x100)], 0, false, 0, false, 0xffffff00, 0⟩,
   ⟨0x1c1010, [(64, 0x100)], 0, false, 0, false, 0xffff011f, 0⟩,
   ⟨0x1c1014, [(64, 0x100)], 0, false, 0, false, 0xff030fff, 0⟩,
   ⟨0x1c1018, [(64, 0x100)], 0, false, 0, false, 0xffffffff, 0⟩,
   ⟨0x1c101c, [(64, 0x100)], 0, false, 0, false, 0xffffffff, 0⟩,
   ⟨0x1c1020, [(64, 0x100)], 0, false, 0, false, 0x1fff1fff, 0⟩,
   ⟨0x1c1024, [(64, 0x100)], 0, false, 0, false, 0xffffffff, 0⟩,
   ⟨0x1c1028, [(64, 0x100)], 0, false, 0, false, 0xffffffff, 0⟩,
   ⟨0x1c102c, [(64, 0x100)], 0, false, 0, false, 0xffffffff, 0⟩,
   ⟨0x1c1030, [(64, 0x100)], 0, false, 0, false, 0xffffffff, 0⟩,
   ⟨0x1c1034, [(64, 0x100)], 0, false, 0, false, 0xffffff0f, 0⟩,
   ⟨0x1c1038, [(64, 0x100)], 0, false, 0, false, 0xbff0003f, 0⟩,
   ⟨0x1c103c, [(64, 0x100)], 0, false, 0, false, 0x8fffffff, 0⟩,
   ⟨0x1c1040, [(64, 0x100)], 0, false, 0, false, 0xffffffff, 0⟩,
   ⟨0x1c1080, [(64, 0x100)], 0, false, 0, false, 0, 0⟩,
   ⟨0x1c1084, [(64, 0x100)], 0, false, 0, false, 0, 0⟩,
   ⟨0x1c1088, [(64, 0x100)], 0, false, 0, false, 0, 0⟩,
   ⟨0x1c108c, [(64, 0x100)], 0, false, 0, false, 0, 0⟩]

/-- The VIE registers of chapter 05_video_integrity.md, part 2. -/
def regsVIE2 : List RegDesc :=
  [⟨0x1c1090, [(64, 0x100)], 0, false, 0, false, 0, 0⟩,
   ⟨0x1c1094, [(64, 0x100)], 0, false, 0, false, 0, 0⟩,
   ⟨0x1c10a0, [(64, 0x100)], 0, true, 0, false, 0, 0⟩,
   ⟨0x1c10a4, [(64, 0x100)], 0, true, 0, false, 0, 0⟩,
   ⟨0x1c10a8, [(64, 0x100)], 0, true, 0, false, 0, 0⟩,
   ⟨0x1c10ac, [(64, 0x100)], 0, true, 0, false, 0, 0⟩,
   ⟨0x1c10b0, [(64, 0x100)], 0, true, 0, false, 0, 0⟩,
   ⟨0x1c10b4, [(64, 0x100)], 0, true, 0, false, 0, 0⟩,
   ⟨0x1c10c0, [(64, 0x100), (7, 4)], 0, true, 0, false, 0, 0⟩,
   ⟨0x1c8000, [(16, 0x20)], 0, false, 0, false, 0xff00ffff, 0⟩,
   ⟨0x1c8004, [(16, 0x20)], 0, false, 0, false, 0x1fff, 0⟩,
   ⟨0x1c8008, [(16, 0x20)], 0, false, 0, false, 0x1fff, 0⟩,
   ⟨0x1c800c, [(16, 0x20)], 0, false, 0, false, 0, 0⟩,
   ⟨0x1c8010, [(16, 0x20)], 0, false, 0, false, 0, 0⟩,
   ⟨0x1c8014, [(16, 0x20)], 0, true, 0, false, 0, 0⟩,
   ⟨0x1c8018, [(16, 0x20)], 0, true, 0, false, 0, 0⟩,
   ⟨0x1c8200, [(4, 4)], 0, false, 0, false, 0xffff, 0⟩]

def regsVIE : List RegDesc := regsVIE1 ++ regsVIE2

/-- The TIME registers of chapter 09_time.md, part 1. -/
def regsTIME1 : List RegDesc :=
  [⟨0x200000, [], 0, false, 0, false, 0, 0⟩,
   ⟨0x200100, [(8, 0x80)], 0, false, 0, false, 0, 0⟩,
   ⟨0x200104, [(8, 0x80)], 0, false, 0, false, 0, 0⟩,
   ⟨0x200108, [(8, 0x80)], 0, false, 0, false, 0, 0⟩,
   ⟨0x20010c, [(8, 0x80)], 0, false, 0, false, 0, 0⟩,
   ⟨0x200110, [(8, 0x80)], 0, false, 0, false, 0, 0⟩,
   ⟨0x200114, [(8, 0x80)], 0, false, 0, false, 0x8001ff00, 0⟩,
   ⟨0x200118, [(8, 0x80)], 0, false, 0, false, 0, 0⟩,
   ⟨0x20011c, [(8, 0x80)], 0, false, 0, false, 0, 0⟩,
   ⟨0x200120, [(8, 0x80)], 0, false, 0, false, 0, 0⟩,
   ⟨0x200124, [(8, 0x80)], 0, false, 0, false, 0, 0⟩,
   ⟨0x200128, [(8, 0x80)], 0, false, 0, false, 0, 0⟩,
   ⟨0x200130, [(8, 0x80)], 0xffff, false, 0, false, 0, 0⟩,
   ⟨0x200134, [(8, 0x80)], 0xffffffff, false, 0, false, 0, 0⟩,
   ⟨0x200138, [(8, 0x80)], 0x3fffffff, false, 0, false, 0, 0⟩,
   ⟨0x20013c, [(8, 0x80)], 0xffffffff, false, 0, false, 0, 0⟩,
   ⟨0x200140, [(8, 0x80)], 0xff, false, 0, false, 0, 0⟩,
   ⟨0x200144, [(8, 0x80)], 0, false, 0, true, 0, 0⟩,
   ⟨0x200148, [(8, 0x80)], 0, false, 0, false, 0, 0⟩,
   ⟨0x20014c, [(8, 0x80)], 0, true, 0, false, 0, 0⟩,
   ⟨0x200600, [(8, 4)], 0, false, 0, false, 0xff800fff, 0⟩,
   ⟨0x200640, [(24, 4)], 0, false, 0, false, 0xffffffff, 0⟩,
   ⟨0x200800, [(8, 0x20)], 0, false, 0, false, 0xfe000000, 0⟩,
   ⟨0x200804, [(8, 0x20)], 0, false, 0, false, 0xffffffff, 0⟩,
   ⟨0x200808, [(8, 0x20)], 0, false, 0, false, 0xffffffff, 0⟩,
   ⟨0x20080c, [(8, 0x20)], 0, false, 0, false, 0xffffffff, 0⟩,
   ⟨0x200810, [(8, 0x20)], 0, false, 0, false, 0xffffffff, 0⟩,
   ⟨0x200814, [(8, 0x20)], 0, true, 0, false, 0, 0⟩,
   ⟨0x200a00, [(8, 0x20)], 0, false, 0, false, 0xfe000000, 0⟩,
   ⟨0x200a04, [(8, 0x20)], 0, false, 0, false, 0, 0⟩]

/-- The TIME registers of chapter 09_time.md, part 2. -/
def regsTIME2 : List RegDesc :=
  [⟨0x200a08, [(8, 0x20)], 0, false, 0, false, 0, 0⟩,
   ⟨0x200a0c, [(8, 0x20)], 0, false, 0x80000000, false, 0, 0⟩,
   ⟨0x200a10, [(8, 0x20)], 0, true, 0, false, 0, 0⟩,
   ⟨0x200c00, [(24, 0x10)], 0, false, 0, false, 0, 0⟩,
   ⟨0x200c04, [(24, 0x10)], 0, false, 0, false, 0, 0⟩,
   ⟨0x200c08, [(24, 0x10)], 0, false, 0, false, 0, 0⟩,
   ⟨0x200c0c, [(24, 0x10)], 0, false, 0, false, 0, 0⟩,
   ⟨0x200d80, [(24, 4)], 0, false, 0x80000000, false, 0, 0⟩,
   ⟨0x200e00, [(24, 4)], 0, true, 0, false, 0, 0⟩,
   ⟨0x200e80, [(24, 4)], 0, true, 0, false, 0, 0⟩,
   ⟨0x200f00, [(24, 4)], 0, true, 0, false, 0, 0⟩]

def regsTIME : List RegDesc := regsTIME1 ++ regsTIME2

/-- The SEC registers of chapter 13_security.md. -/
def regsSEC : List RegDesc :=
  [⟨0x240000, [], 0, false, 0, false, 0, 0⟩,
   ⟨0x240004, [], 0, false, 0, false, 0, 0⟩,
   ⟨0x240008, [], 0, false, 0, false, 0, 0⟩,
   ⟨0x240010, [], 0, false, 0, false, 0x81ffffff, 0⟩,
   ⟨0x240014, [], 0, false, 0, false, 0xffff, 0xffff⟩,
   ⟨0x240018, [], 0, false, 0, false, 0xffffffff, 0xffffffff⟩,
   ⟨0x24001c, [], 0, false, 0, false, 0, 0⟩,
   ⟨0x240020, [], 0, false, 0, false, 0x31f, 0⟩,
   ⟨0x240024, [], 0, false, 0, false, 0, 0⟩,
   ⟨0x240028, [], 0, false, 0, false, 0, 0⟩,
   ⟨0x240100, [(24, 4)], 0, false, 0, false, 0, 0⟩,
   ⟨0x240200, [], 0, true, 0, false, 0, 0⟩,
   ⟨0x240204, [], 0, true, 0, false, 0, 0⟩,
   ⟨0x240208, [], 0, true, 0, false, 0, 0⟩,
   ⟨0x24020c, [], 0, true, 0, false, 0, 0⟩,
   ⟨0x240210, [], 0, true, 0, false, 0, 0⟩,
   ⟨0x240214, [], 0, true, 0, false, 0, 0⟩,
   ⟨0x240218, [], 0, true, 0, false, 0, 0⟩,
   ⟨0x24021c, [], 0, true, 0, false, 0, 0⟩,
   ⟨0x240220, [], 0, true, 0, false, 0, 0⟩,
   ⟨0x240224, [], 0, true, 0, false, 0, 0⟩]

/-- The MEM registers of chapter 14_on_chip_memories.md. -/
def regsMEM : List RegDesc :=
  [⟨0x280000, [], 0, false, 0, false, 0, 0⟩,
   ⟨0x280100, [(16, 4)], 0, false, 0, false, 0, 0⟩,
   ⟨0x280140, [], 0, false, 0, false, 0, 0⟩,
   ⟨0x280144, [], 0, false, 0, false, 0, 0⟩,
   ⟨0x280204, [], 0, false, 0, false, 0, 0⟩,
   ⟨0x280208, [], 0, false, 0, false, 0, 0⟩,
   ⟨0x280300, [], 0x7f, false, 0, false, 0, 0⟩,
   ⟨0x280304, [], 0xffffffff, false, 0, false, 0, 0⟩,
   ⟨0x280400, [(8, 4)], 0, true, 0, false, 0, 0⟩,
   ⟨0x280420, [], 0, true, 0, false, 0, 0⟩,
   ⟨0x280424, [], 0, true, 0, false, 0, 0⟩,
   ⟨0x280428, [], 0, true, 0, false, 0, 0⟩,
   ⟨0x28042c, [], 0, true, 0, false, 0, 0⟩,
   ⟨0x280500, [(32, 8)], 0, false, 0, false, 0xf1ff1fff, 0⟩,
   ⟨0x280504, [(32, 8)], 0, false, 0, false, 0x1fff, 0⟩]

/-- The PWR registers of chapter 16_power_clocks_startup.md. -/
def regsPWR : List RegDesc :=
  [⟨0x2c0000, [], 0, false, 0, false, 0, 0⟩,
   ⟨0x2c0004, [], 0, false, 0, false, 0, 0⟩,
   ⟨0x2c0008, [], 0, false, 0, false, 0, 0⟩,
   ⟨0x2c0010, [], 0, false, 0, false, 0, 0⟩,
   ⟨0x2c0014, [], 0, false, 0, false, 0, 0⟩,
   ⟨0x2c0018, [], 0, false, 0, false, 0, 0⟩,
   ⟨0x2c001c, [], 0, false, 0, false, 0, 0⟩,
   ⟨0x2c0020, [], 0, false, 0, false, 0, 0⟩,
   ⟨0x2c0024, [], 0, false, 0, false, 0, 0⟩,
   ⟨0x2c0030, [], 0, false, 0, false, 0, 0⟩,
   ⟨0x2c0034, [], 0, false, 0, false, 0, 0⟩,
   ⟨0x2c0038, [], 0, false, 0, false, 0, 0⟩,
   ⟨0x2c003c, [], 0, false, 0, false, 0, 0⟩,
   ⟨0x2c0040, [], 0, false, 0, false, 0, 0⟩,
   ⟨0x2c0050, [], 0, false, 0, false, 0xf700ffff, 0⟩,
   ⟨0x2c0054, [], 0, false, 0, false, 0xffffffff, 0⟩,
   ⟨0x2c0058, [], 0, false, 0, false, 0xffffffff, 0⟩,
   ⟨0x2c005c, [], 0, false, 0, false, 0xffffffff, 0⟩,
   ⟨0x2c0100, [(6, 4)], 0, false, 0, false, 0xffff, 0xffff⟩,
   ⟨0x2c0200, [(12, 4)], 0, false, 0, false, 0xfe3fffff, 0⟩,
   ⟨0x2c0300, [], 0, false, 0, false, 0, 0⟩,
   ⟨0x2c0304, [], 0, false, 0, false, 0, 0⟩,
   ⟨0x2c0308, [], 0, false, 0, false, 0, 0⟩,
   ⟨0x2c0310, [], 0, false, 0, false, 0xff00, 0⟩,
   ⟨0x2c0400, [], 0, true, 0, false, 0, 0⟩,
   ⟨0x2c0404, [], 0, true, 0, false, 0, 0⟩,
   ⟨0x2c0408, [], 0, true, 0, false, 0, 0⟩,
   ⟨0x2c040c, [], 0, true, 0, false, 0, 0⟩,
   ⟨0x2c0410, [], 0, true, 0, false, 0, 0⟩,
   ⟨0x2c0420, [(6, 4)], 0, true, 0, false, 0, 0⟩]

/-- The SBB registers of chapter 15_sideband_bridge.md. -/
def regsSBB : List RegDesc :=
  [⟨0x300000, [], 0, false, 0, false, 0, 0⟩,
   ⟨0x300100, [(12, 0x10)], 0, false, 0, false, 0xfff0ffff, 0⟩,
   ⟨0x300104, [(12, 0x10)], 0, false, 0, false, 0xffffffff, 0⟩,
   ⟨0x301000, [(16, 0x20)], 0, false, 0, true, 0, 0⟩,
   ⟨0x301004, [(16, 0x20)], 0, false, 0, true, 0, 0⟩,
   ⟨0x301008, [(16, 0x20)], 0, false, 0, true, 0, 0⟩,
   ⟨0x301010, [(16, 0x20)], 0, false, 0, true, 0, 0⟩,
   ⟨0x301014, [(16, 0x20)], 0, false, 0, true, 0, 0⟩,
   ⟨0x301018, [(16, 0x20)], 0, false, 0, true, 0, 0⟩,
   ⟨0x302000, [(16, 0x100), (64, 4)], 0, false, 0, true, 0, 0⟩,
   ⟨0x303000, [(48, 4)], 0, false, 0, false, 0xf8ff0003, 0⟩,
   ⟨0x303100, [(16, 4)], 0, false, 0, false, 0xb000003f, 0⟩,
   ⟨0x303200, [(12, 8)], 0, false, 0, false, 0x3ffffff, 0⟩,
   ⟨0x303400, [], 0, true, 0, false, 0, 0⟩,
   ⟨0x303404, [], 0, true, 0, false, 0, 0⟩,
   ⟨0x303408, [], 0, true, 0, false, 0, 0⟩,
   ⟨0x30340c, [], 0, true, 0, false, 0, 0⟩,
   ⟨0x303410, [(12, 4)], 0, true, 0, false, 0, 0⟩,
   ⟨0x303440, [(12, 4)], 0, true, 0, false, 0, 0⟩,
   ⟨0x303470, [(12, 4)], 0, true, 0, false, 0, 0⟩]

/-- The EVF registers of chapter 17_guarantees.md. -/
def regsEVF : List RegDesc :=
  [⟨0x340000, [], 0, false, 0, false, 0, 0⟩,
   ⟨0x340004, [], 0, false, 0, true, 0, 0⟩,
   ⟨0x340008, [], 0, true, 0, false, 0, 0⟩,
   ⟨0x34000c, [], 0, true, 0, false, 0, 0⟩,
   ⟨0x340010, [(3, 4)], 0, true, 0, false, 0, 0⟩,
   ⟨0x341000, [(128, 0x20), (8, 4)], 0, false, 0, false, 0xffffffff, 0⟩,
   ⟨0x342000, [(128, 0x20), (8, 4)], 0, false, 0, false, 0, 0⟩,
   ⟨0x343000, [(128, 4)], 0, false, 0, false, 0x800001ff, 0⟩,
   ⟨0x343200, [(128, 4)], 0, true, 0, false, 0, 0⟩,
   ⟨0x344000, [(512, 4)], 0, false, 0, false, 0x3fff, 0⟩]

/-- The registers of the block an offset lies in (R478). -/
def blockRegs (off : Nat) : List RegDesc :=
  if 0x10000000 ≤ off then regsMBX else
  match off / 0x40000 with
  | 0 => if off < 0x10000 then regsGLB else if off < 0x20000 then regsMBX else regsEVQ
  | 1 => regsHDMA
  | 2 => regsSWC
  | 3 => regsFWD
  | 4 => regsTSS
  | 5 => regsMAC
  | 6 => regsFBUS
  | 7 => regsVIE
  | 8 => regsTIME
  | 9 => regsSEC
  | 10 => regsMEM
  | 11 => regsPWR
  | 12 => regsSBB
  | 13 => regsEVF
  | _ => []

/-- The register definition at an offset, if any (R9). -/
def findReg (off : Nat) : Option RegDesc := (blockRegs off).find? (fun d => d.covers off)

/-- `off` is a word of the register array at `base` with the given counts and strides. -/
def within (off base : Nat) (dims : List (Nat × Nat)) : Bool :=
  decide (base ≤ off) && coversDims dims (off - base)

/-- Reset values of the GLB registers (00_scope.md, 01_architecture.md); every other word resets to 0. -/
def resetGLB (off : Nat) : Nat :=
  if within off 0 [] then 0x776000b0 else
  0

/-- Reset values of the MBX registers (11_mailboxes_and_firmware.md); every other word resets to 0. -/
def resetMBX (off : Nat) : Nat :=
  if within off 0x1f004 [] then 0x30002 else
  if within off 0x1f008 [] then 0x7ffff else
  0

/-- Reset values of the EVQ registers (10_host_interface.md); every other word resets to 0. -/
def resetEVQ (off : Nat) : Nat :=
  if within off 0x20000 [(512, 0x100)] then 0x1800000 else
  if within off 0x2000c [(512, 0x100)] then 0x320001 else
  0

/-- Reset values of the HDMA registers (10_host_interface.md); every other word resets to 0. -/
def resetHDMA (off : Nat) : Nat :=
  if within off 0x40008 [] then 0x80008 else
  if within off 0x60000 [(2048, 0x40)] then 0x11005000 else
  if within off 0x60024 [(2048, 0x40)] then 0x1032 else
  0

/-- Reset values of the SWC registers (02_basin_and_switch_core.md); every other word resets to 0. -/
def resetSWC (off : Nat) : Nat :=
  if within off 0x80004 [] then 3 else
  if within off 0x80010 [] then 0x18000 else
  if within off 0x80018 [] then 0x1f4 else
  if within off 0x81400 [(256, 4)] then 0x1000080 else
  if within off 0x81800 [(256, 4)] then 0x30 else
  0

/-- Reset values of the FWD registers (03_forwarding_tables.md); every other word resets to 0. -/
def resetFWD (off : Nat) : Nat :=
  if within off 0xc0004 [] then 0xc else
  if within off 0xc0010 [] then 0x12c0009 else
  if within off 0xc0018 [] then 0x640000 else
  if within off 0xc0100 [(32, 4)] then (if off < 0xC0160 then 0x9 else 0x8) else
  0

/-- Reset values of the TSS registers (04_scheduling_and_latency.md); every other word resets to 0. -/
def resetTSS (off : Nat) : Nat :=
  if within off 0x100080 [(32, 4)] then 0xfac681 else
  if within off 0x100100 [(32, 4)] then 0x800200 else
  if within off 0x100200 [(256, 4)] then 0x2400 else
  if within off 0x100600 [(256, 4)] then 0x2400 else
  if within off 0x100ac0 [(48, 4)] then 0x12000 else
  if within off 0x102000 [(64, 0x20)] then 0x8000064 else
  if within off 0x104004 [(4864, 8)] then 0x800 else
  if within off 0x10e000 [(4096, 4)] then 0x2400 else
  if within off 0x112000 [(4096, 4)] then 0xffffffff else
  if within off 0x116000 [(4096, 4)] then 0xffffffff else
  0

/-- Reset values of the MAC registers (06_ethernet_ports.md); every other word resets to 0. -/
def resetMAC (off : Nat) : Nat :=
  if within off 0x140008 [(24, 0x1000)] then 0xa000a else
  if within off 0x14000c [(24, 0x1000)] then 0x640010 else
  if within off 0x154020 [(4, 0x1000)] then 0x82000 else
  if within off 0x154024 [(4, 0x1000)] then 0x5f20080 else
  if within off 0x140040 [(20, 0x1000)] then 0x2c000000 else
  if within off 0x158010 [(5, 0x100), (4, 4)] then 0x43002 else
  if within off 0x154004 [(4, 0x1000)] then 0x18 else
  0

/-- Reset values of the FBUS registers (07_can_and_lin.md); every other word resets to 0. -/
def resetFBUS (off : Nat) : Nat :=
  if within off 0x180004 [(48, 0x1000)] then 0x6000000 else
  if within off 0x180008 [(48, 0x1000)] then 0x9f0f0f else
  if within off 0x18000c [(48, 0x1000)] then 0x1a0b0b else
  if within off 0x18001c [(48, 0x1000)] then 8 else
  if within off 0x1b0008 [(16, 0x800)] then 0x412 else
  if within off 0x1b0010 [(16, 0x800)] then 0x3e8010d else
  if within off 0x1b9000 [(64, 0x40), (16, 4)] then 0x1d1e1d1e else
  if within off 0x1bd400 [(32, 0x20)] then 0x5d0 else
  if within off 0x1bdc00 [(96, 0x10), (4, 4)] then 0x1fffffff else
  0

/-- Reset values of the TIME registers (09_time.md); every other word resets to 0. -/
def resetTIME (off : Nat) : Nat :=
  if within off 0x200114 [(8, 0x80)] then 0xa00 else
  if within off 0x200128 [(8, 0x80)] then 0xf4240 else
  if within off 0x200600 [(8, 4)] then 0x800100 else
  if within off 0x200a00 [(8, 0x20)] then 0x20000000 else
  0

/-- Reset values of the SEC registers (13_security.md); every other word resets to 0. -/
def resetSEC (off : Nat) : Nat :=
  if within off 0x240010 [] then 0x1003e8 else
  if within off 0x240020 [] then 0x1f else
  0

/-- Reset values of the MEM registers (14_on_chip_memories.md); every other word resets to 0. -/
def resetMEM (off : Nat) : Nat :=
  if within off 0x280100 [(16, 4)] then 0x8000001 else
  0

/-- Reset values of the PWR registers (16_power_clocks_startup.md); every other word resets to 0. -/
def resetPWR (off : Nat) : Nat :=
  if within off 0x2c0000 [] then 0xc0 else
  if within off 0x2c0050 [] then 0x40000000 else
  if within off 0x2c0100 [(6, 4)] then 0x10a else
  if within off 0x2c0200 [(12, 4)] then 0x3f0000 else
  if within off 0x2c0310 [] then 0x7800 else
  0

/-- Reset values of the SBB registers (15_sideband_bridge.md); every other word resets to 0. -/
def resetSBB (off : Nat) : Nat :=
  if within off 0x300100 [(12, 0x10)] then 0x3009c4 else
  if within off 0x300104 [(12, 0x10)] then 0x1f40a0a else
  0

/-- Reset values of the EVF registers (17_guarantees.md); every other word resets to 0. -/
def resetEVF (off : Nat) : Nat :=
  if within off 0x343000 [(128, 4)] then 1 else
  if within off 0x344000 [(512, 4)] then 0xa else
  0

/-- The reset value of the word at an offset, as the register chapters give it. -/
def resetVal (off : Nat) : BitVec 32 :=
  BitVec.ofNat 32 (if 0x10000000 ≤ off then 0 else
  match off / 0x40000 with
  | 0 => if off < 0x10000 then resetGLB off else if off < 0x20000 then resetMBX off else resetEVQ off
  | 1 => resetHDMA off
  | 2 => resetSWC off
  | 3 => resetFWD off
  | 4 => resetTSS off
  | 5 => resetMAC off
  | 6 => resetFBUS off
  | 8 => resetTIME off
  | 9 => resetSEC off
  | 10 => resetMEM off
  | 11 => resetPWR off
  | 12 => resetSBB off
  | 13 => resetEVF off
  | _ => 0)

end Sys2Proof.Machine
end

