-- ==== Sys2Proof/Machine/State.lean ====
section
/-!
DEFINITION. The state of the PX7760 as plain data: one sparse register file keyed by BAR0 offset, the tables, queues,
buffers and engines each chapter gives the device, the queue of waiting commands, and the state after reset.
-/
namespace Sys2Proof.Machine

/-- A map with natural-number keys: a list with strictly rising keys. -/
abbrev Kv (β : Type) := List (Nat × β)

/-- An event record before its sequence number is known (R320): recipient, type, word 1 and words 3 to 7; the cycle it was
staged in. -/
structure EvRec where
  owner : Nat
  kind  : Nat
  w1    : Nat
  w3    : Nat
  w4    : Nat
  w5    : Nat
  w6    : Nat
  w7    : Nat
  at_   : Nat
deriving DecidableEq, Repr

/-- The output pins the spec names. -/
inductive Pin where
  | pulse (n : Nat) | gpio (n : Nat) | railEn (n : Nat) | regEn (n : Nat) | xspiRst | canTxd (n : Nat) | linTx (n : Nat)
deriving DecidableEq, Repr

/-- Everything the device sends out of itself, newest first in `Hw.out`. -/
inductive Output where
  /-- A frame on the line of a MAC, its bytes with FCS; `ok = false` when it ends with the stomp pattern (R64). -/
  | macTx (mac : Nat) (bytes : List Byte) (ok : Bool)
  /-- An 802.1Qbb pause frame: class and quanta (R56). -/
  | pfcTx (mac : Nat) (classes : List (Nat × Nat))
  /-- The data of a host register read. -/
  | regData (off value : Nat)
  /-- A posted write into the memory of an owner's function. -/
  | hostWrite (owner addr : Nat) (words : List Nat)
  /-- Posted writes of frame data, with Relaxed Ordering or without (R315). -/
  | hostData (owner addr : Nat) (words : List Nat) (relaxed : Bool)
  /-- A read request into the memory of an owner's function. -/
  | hostRead (owner addr bytes : Nat)
  /-- An MSI-X message of a function's vector. -/
  | msix (owner vector : Nat)
  /-- An event record written to a queue, eight words (R320). -/
  | evRecord (owner index : Nat) (words : List Nat)
  /-- A frame or sample handed to the control cores, with the queue that carries it. -/
  | cpu (queue : Nat) (bytes : List Byte)
  /-- A level driven on a pin; none is high impedance (R451). -/
  | pin (p : Pin) (level : Option Bool)
  /-- A frame on the bus of a CAN controller: words 0 to 2 of its message record (format and flags, identifier, acceptance field), its
  data; the PWM short phase, long phase and offset of a data phase in the transceiver's fast mode (R212); the secondary sample point
  of its data phase in CK_CAN cycles (R211). -/
  | canTx (ctl : Nat) (head : List Nat) (data : List Byte) (fast : Option (Nat × Nat × Nat)) (ssp : Option Nat)
  /-- The beacon of a PLCA coordinator (R186). -/
  | plcaBeacon (mac : Nat)
  /-- A header or response on a LIN bus. -/
  | linTx (ctl : Nat) (data : List Byte)
  /-- A piece of a transfer on a far bus: channel, operation, request address word, register or offset, data written. -/
  | farBus (chan op addr at_ : Nat) (data : List Byte)
  /-- A channel leaves its bus: STOP, or CS released (R423, R426). -/
  | farBusEnd (chan : Nat)
  /-- The response of a sideband slot as firmware reads it (R420). -/
  | sbbResp (slot value : Nat)
  /-- What a general bank returns to a master: master, byte address, value. -/
  | bank (master addr value : Nat)
  /-- An access that ends with an error to its master, poisoned data at the PCIe aperture (R399). -/
  | busError (master addr : Nat)
  /-- Every pad of a power domain becomes high-impedance (R439, R451). -/
  | padsOff (domain : Nat)
  /-- A record of the secure store (R383): sequence number, transmit freshness values by entry. -/
  | store (seq : Nat) (values : List (Nat × Nat))
  /-- A write into the flash. -/
  | flash (addr : Nat) (data : List Byte)
  /-- What the JTAG debug mailbox returns (R395). -/
  | jtag (data : List Byte)
deriving DecidableEq, Repr

/-- Where a copy of a frame stands at its egress. -/
inductive CopyState where
  | waiting | granted | sending | held
deriving DecidableEq, Repr

/-- One egress reference of a frame (R41). -/
structure Copy where
  egress : Nat
  st     : CopyState
deriving DecidableEq, Repr

/-- What an egress changes in a frame: routed destination address and VID, the R-TAG of R137. -/
structure Edit where
  newDa    : Option Nat
  newVid   : Option Nat
  addRtag  : Option Nat
  stripRtag : Bool
deriving DecidableEq, Repr

/-- A frame descriptor (R40) with the outcome of its lookup. `id` names the descriptor; `acct` is the port-class charged
when `quota` is 255 (the shared pool); `refund` lists what a charge by MAXLEN or MAX_SDU gives back at the tail (bucket
kind 0 policer, 1 class shaper, 2 DWRR deficit; index; bytes charged); `dead` marks a frame whose copies and cells are gone
while its last bytes still arrive; `sentAt` keeps a watched frame's stamps of its last byte by egress; `dests` is the egress
mask of the lookup's result; `cut` says that forwarding began before the tail; `tie` that another ACL entry had the winner's
priority (R113); `dei` the drop-eligible indicator (R133); `limit` the cells it may draw, with the tail cause of more (R53,
R55); `counted` that its discard is counted already (R61); `heldBy` the shaper
buckets that have counted it as held (R133); `told` the failure instant of the alarm a notice frame reports (R169). -/
structure Frame where
  id      : Nat
  cells   : List Nat
  len     : Nat
  owner   : Nat
  keySel  : Nat
  ingress : Nat
  cls     : Nat
  arrival : Nat
  quota   : Nat
  acct    : Nat
  bad     : Option Nat
  tail    : Bool
  asked   : Bool
  looked  : Bool
  dead    : Bool
  stamps  : List Nat
  copies  : List Copy
  stream  : Option Nat
  vie     : Option Nat
  vid     : Nat
  pcp     : Nat
  untag   : Nat
  edit    : Edit
  tsReq   : Option (Nat × Nat)
  refund  : List (Nat × Nat × Nat)
  sdu     : Option Nat
  acl     : Option Nat
  kind    : Nat
  dest    : Option Nat
  sentAt  : List (Nat × List Nat)
  dests   : Nat
  cut     : Bool
  tie     : Bool
  dei     : Bool
  limit   : Nat × Nat
  counted : Bool
  heldBy  : List Nat
  told    : Option Nat
deriving DecidableEq, Repr

/-- A cell of the Basin: its generation count and its ciphertext (R44, R45). -/
structure BCell where
  gen  : Nat
  data : List Byte
deriving DecidableEq, Repr

/-- A MACsec secure association (R198); `by_` is the owner that installed it (R374). -/
structure Sa where
  key   : BitVec 256
  salt  : Nat
  ssci  : Nat
  sci   : Nat
  pn    : Nat
  en    : Bool
  thresh : Bool
  by_   : Nat
deriving DecidableEq, Repr

/-- What a frame in reception is validated under (R201): channel, AN and PN, the SA found and MAC_SEC_CFG as they stood at its
first bytes. -/
structure RxSec where
  ch  : Nat
  an  : Nat
  pn  : Nat
  sa  : Sa
  cfg : Nat
deriving DecidableEq, Repr

/-- A frame being received by a MAC: raw bytes so far, its descriptor unless it was not admitted, its MACsec validation,
whether it ended early as bad (R64), whether its discard is counted already (R61). -/
structure Rx where
  raw    : List Byte
  frame  : Option Nat
  sec    : Option RxSec
  stamps : List Nat
  cause  : Option Nat
  counted : Bool
deriving DecidableEq, Repr

/-- A frame of an internal source waiting for credit (R59), with the owner, the time-stamp request, the CAN controller it came
from, a class its source gives it, the watched stream whose notice it is, and the cycle it began to wait in. -/
structure SrcFrame where
  owner  : Nat
  bytes  : List Byte
  tsReq  : Option (Nat × Nat)
  canSrc : Option Nat
  kind   : Nat
  dest   : Option Nat
  cls    : Option Nat
  vie    : Option Nat
  told   : Option Nat
  at_    : Nat
deriving DecidableEq, Repr

/-- A moderated record (R54): type, subject, the drops summed in the running millisecond, and word 4 of the types that have
their count in word 5 (the latest event's value). -/
structure Moderation where
  kind  : Nat
  w3    : Nat
  count : Nat
  aux   : Option Nat
deriving DecidableEq, Repr

/-- What a frame being sent is protected under (R199): AN and PN, the SA and MAC_SEC_CFG as they stood when it began. -/
structure TxSec where
  an  : Nat
  pn  : Nat
  sa  : Sa
  cfg : Nat
deriving DecidableEq, Repr

/-- Transmission in progress on an egress: the frame, its transmit stamps, express or preemptable, its MACsec protection; the
cycle its fragment on the line began in, the bytes its earlier fragments sent, and whether it is suspended (R128). -/
structure TxCur where
  frame   : Nat
  stamps  : List Nat
  express : Bool
  sec     : Option TxSec
  start   : Nat
  sent    : Nat
  susp    : Bool
deriving DecidableEq, Repr

/-- A sample in a reserve cell (R76): its sampler, the queue it waits in, the key slot of P29's owner it is encrypted under, its
cell, its length, the cycle it was taken in. -/
structure Sample where
  sampler : Nat
  queue   : Nat
  owner   : Nat
  slot    : Nat
  cell    : Nat
  len     : Nat
  at_     : Nat
deriving DecidableEq, Repr

/-- The switch core (chapter The Basin and the switch core). `lossQ` holds the loss records of queue 14,878: cycle, sampler; `stallUs`
the last 1 µs interval, counted from 1, that SWC_CREDIT_STALL of an internal port has counted (R59). -/
structure Swc where
  frames   : List Frame
  nextId   : Nat
  cells    : Kv BCell
  retired  : List Nat
  leaked   : List Nat
  suspect  : List Nat
  touched  : List Nat
  rx       : Kv Rx
  tx       : Kv (List TxCur)
  srcWait  : Kv (List SrcFrame)
  stallUs  : Kv Nat
  holdAt   : Kv Nat
  pauseQ   : Kv (List (Nat × Nat))
  smpCount : Kv Nat
  samples  : List Sample
  lossQ    : List (Nat × Nat)
  smpLoss  : Kv Nat
  rotEgress : Kv Nat
  rotIngress : Kv Nat
deriving DecidableEq, Repr

/-- An exact-match entry (R86). -/
structure EmEntry where
  static : Bool
  type   : Nat
  key    : Nat
  age    : Nat
  port   : Nat
  group  : Option Nat
  stream : Nat
  vie    : Option Nat
  quota  : Option Nat
  cls    : Option Nat
  owner  : Option Nat
deriving DecidableEq, Repr

/-- What an ACL entry does with a frame it wins (R112). -/
inductive AclAct where
  | permit | deny | toPort (p : Nat) | toGroup (g : Nat)
deriving DecidableEq, Repr

/-- An ACL entry (R112): 320-bit value and mask. -/
structure AclEntry where
  value : Nat
  mask  : Nat
  prio  : Nat
  act   : AclAct
  setCls : Option Nat
  setStream : Option Nat
deriving DecidableEq, Repr

/-- A VLAN entry (R80, R110). -/
structure VlanEntry where
  member : Nat
  untag  : Nat
  router : Bool
  rmac   : Nat
  vrf    : Nat
deriving DecidableEq, Repr

/-- An LPM entry (R110): 160-bit value and mask, the prefix length it was added with, and its next hop. -/
structure LpmEntry where
  value : Nat
  mask  : Nat
  plen  : Nat
  nhop  : Nat
deriving DecidableEq, Repr

/-- A next-hop entry (R80). -/
structure Nhop where
  port : Nat
  mac  : Nat
  vid  : Nat
deriving DecidableEq, Repr

/-- A request in the arbiter's queue (R95, R96): learn or refresh of a key on a port, with its time in ns, whether it
came from a cascade member and whether its port may take over a station. -/
structure LearnReq where
  learn   : Bool
  key     : Nat
  port    : Nat
  gport   : Nat
  time    : Nat
  movable : Bool
  remote  : Option Nat
deriving DecidableEq, Repr

/-- A recent-learn record (R102). -/
structure Recent where
  gport : Nat
  port  : Nat
  time  : Nat
  movable : Bool
  moved : Bool
  said  : Bool
deriving DecidableEq, Repr

/-- A record of a learning message (R108): operation 1 LEARN, 2 AGE_OUT, 3 CONFIRM. -/
structure LmRec where
  op      : Nat
  movable : Bool
  vid     : Nat
  mac     : Nat
  dev     : Nat
  port    : Nat
  sec     : Nat
  ns      : Nat
deriving DecidableEq, Repr

/-- A comparison the scrubber will repeat (R116): table, index, pipeline B, the change sequence to wait for. -/
structure Recheck where
  table : Nat
  index : Nat
  pipeB : Bool
  seq   : Nat
deriving DecidableEq, Repr

/-- The value of a position of a table (R80): exact match, LPM, ACL, VLAN, multicast group, next hop; none is an empty one. -/
inductive TblVal where
  | em (e : Option EmEntry)
  | lpm (e : Option LpmEntry)
  | acl (e : Option AclEntry)
  | vlan (e : Option VlanEntry)
  | group (m : Nat)
  | nhop (e : Option Nhop)
deriving DecidableEq, Repr

/-- A change record (R82): its number, the table, the index, the new value. -/
structure ChangeRec where
  seq   : Nat
  table : Nat
  index : Nat
  val   : TblVal
deriving DecidableEq, Repr

/-- The control firmware's shadow of the six tables (R82). -/
structure Shadow where
  em    : Kv EmEntry
  vlan  : Kv VlanEntry
  mcast : Kv Nat
  nhop  : Kv Nhop
  lpm   : Kv LpmEntry
  acl   : Kv AclEntry
deriving DecidableEq, Repr

/-- The forwarding tables and the learning arbiter. `em` is the arbiter's table; `lagA` and `lagB` hold what a replica
still shows at positions whose learning message has not arrived (R27), each message with the cycle it was sent in; `changes`
are the change records firmware has not yet applied to `shadow`; `struck` lists entries of a replica that hold a wrong value
no ECC has shown yet: table, index, pipeline B (R115). -/
structure Fwd where
  em      : Kv EmEntry
  stashAge : List Nat
  lagA    : List (Nat × List (Nat × Option EmEntry))
  lagB    : List (Nat × List (Nat × Option EmEntry))
  vlan    : Kv VlanEntry
  mcast   : Kv Nat
  nhop    : Kv Nhop
  lpm     : Kv LpmEntry
  acl     : Kv AclEntry
  badUe   : List (Nat × Nat × Bool)
  learnQ  : List LearnReq
  recent  : Kv Recent
  sentAge : Kv Nat
  batch   : List (Nat × LmRec)
  txSeq   : Nat
  rxSeq   : Kv Nat
  origin  : Kv Nat
  confirm : Kv (Nat × Nat)
  recheck : List Recheck
  defVid  : Kv Nat
  defOwner : Kv Nat
  svcOwner : Kv Nat
  changes : List ChangeRec
  shadow  : Shadow
  struck  : List (Nat × Nat × Bool)
deriving DecidableEq, Repr

/-- A gate list, egress or Sluice (R122, R136): entries in the register layout, base time and cycle in ns. -/
structure GateList where
  entries : List Nat
  base    : Nat
  cycle   : Nat
  ext     : Nat
  tb      : Nat
  guard   : Nat
deriving DecidableEq, Repr

/-- An admitted stream (R358). -/
structure Admitted where
  declared : Nat
  ingress  : Nat
  cls      : Nat
  maxlen   : Nat
  egress   : Nat
  broken   : Option Nat
deriving DecidableEq, Repr

/-- Vector recovery state of a protected pair (R137). -/
structure Frer where
  genSeq  : Nat
  recSeq  : Nat
  history : Nat
  takeAny : Bool
  passed  : Nat
  discarded : Nat
deriving DecidableEq, Repr

/-- The scheduling unit. Lists of MACs have key 2 × mac + bank, lists of Sluice gates 100 + 2 × gate + bank; `sBank`, `sPend`
and `sNow` hold a gate's bank in force, the gates with a pending bank, the entry in force. `notice` holds the frames whose express
notice stands at a MAC with the cycle each ends in (R129); `swS` and `swOld` are the start S of a pending list in ns of its own base
and of the base of the list in force, by MAC or 256 + gate (R124); `unblockLog` the owners and words of the writes that cleared
BLOCKED or CLOSED_INVALID (R135); `sweepAt` the cycles in which queue-sampler lists began their last sweep (R140). Bucket tokens are in units of 1/4,000,000 byte, credits in units of 1/500,000 bit. -/
structure Tss where
  deficit : Kv Nat
  roundAt : Kv Nat
  inVisit : List Nat
  credit  : Kv Int
  tokens  : Kv (Nat × Nat)
  lists   : Kv GateList
  pendOff : List Nat
  gates   : Kv Nat
  ipv     : Kv Nat
  hold    : List Nat
  restart : List Nat
  pauseRx : Kv Nat
  notice  : Kv (List (Nat × Nat))
  frer    : Kv Frer
  sweep   : Kv Nat
  sweepAt : Kv Nat
  admitted : Kv Admitted
  sBank   : Kv Nat
  sPend   : List Nat
  sNow    : Kv Nat
  swS     : Kv Nat
  swOld   : Kv Nat
  unblockLog : List (Nat × Nat)
deriving DecidableEq, Repr

/-- MAC state beside the registers: MACsec SAs by MAC, direction, channel and AN; 64-bit octet counters; the
frame being retried after collisions with its attempts (R188); frames begun in the PLCA opportunity under way with the cycle the last
one ended in (R186); `wakePol` are the MACs whose wake detector acts on a high level (R194); line state. -/
structure MacSt where
  sa       : Kv Sa
  rxOct    : Kv Nat
  txOct    : Kv Nat
  lineGood : List Nat
  attempts : Kv (Nat × Nat)
  burst    : Kv (Nat × Nat)
  wakePol  : List Nat
  backoff  : List Nat
  lpiExit  : List Nat
  txsci    : Kv Nat
  loopback : Kv Nat
deriving DecidableEq, Repr

/-- A time-base operation waiting for its commit (R277): operands as staged, and the mailbox slot that waits for it when
firmware issued it. -/
structure TbOp where
  op   : Nat
  neg  : Bool
  sec  : Nat
  ns   : Nat
  adj  : Nat
  access : Bool
  slot : Option Nat
deriving DecidableEq, Repr

/-- A transmit timestamp entry (R286), with the cycle it was queued in. -/
structure TxTs where
  aborted : Bool
  tb  : Nat
  tsId : Nat
  sec : Nat
  ns  : Nat
  at_ : Nat
deriving DecidableEq, Repr

/-- A pulse output (R291): settings in force are in the registers; `next` waits for the next period boundary; `due` is the next
assertion in ns of the base, `off` the end of the pulse in progress in ns of the base without its steps. -/
structure Pulse where
  asserted : Bool
  fired    : Bool
  next     : Option (List Nat)
  due      : Nat
  off      : Nat
deriving DecidableEq, Repr

/-- A base just before a change of its count or rate: the cycle of the change, the count, the count without steps, ADJ, whether it had
never been set. -/
structure TbPast where
  clk   : Nat
  raw   : Nat
  run   : Nat
  adj   : Nat
  unset : Bool
deriving DecidableEq, Repr

/-- The time unit. A base is one count in units of 2^-47 ns, which holds seconds, nanoseconds, the visible fraction and
the 15 bits below it (R274). `corr` holds a base's rate samples, latest first, in units of 2^-48; `alt` its alternate source;
`capLast` when an input last had a qualified edge; `past` a base before each of its changes, oldest first (R220, R281); `epochAt` the
second of a base that its epoch records have reached (R289), `supAt` the cycle of its last rate sample (R294), `nearAt` the cycle since
which its offset in SLEW has stayed within 100 ns (R296). -/
structure TimeSt where
  base    : Kv Nat
  run     : Kv Nat
  hostOp  : Kv TbOp
  fwOp    : Kv TbOp
  shadow  : Kv (Nat × Nat)
  txts    : Kv (List TxTs)
  txtsOwner : Kv Nat
  cap     : Kv (List (Nat × Nat))
  pulse   : Kv Pulse
  corr    : Kv (List Int)
  alt     : Kv Nat
  capLast : Kv Nat
  onAlt   : List Nat
  blocked : List Nat
  domOwner : Kv Nat
  past    : Kv (List TbPast)
  epochAt : Kv Nat
  supAt   : Kv Nat
  nearAt  : Kv Nat
deriving DecidableEq, Repr

/-- A frame whose data is being read from host memory (R312): its descriptors, from HEAD on, its length, words 0 to 5 of the
first descriptor (R310), and whether it waits for credit (R59). -/
structure TxFrame where
  count : Nat
  len   : Nat
  words : List Nat
  stalled : Bool
deriving DecidableEq, Repr

/-- A frame in the pending list of a receive ring (R317): its descriptor in the Basin, or bytes of another kind with the cycle they came
in. -/
structure RxPend where
  frame : Option Nat
  kind  : Nat
  bytes : List Byte
  at_   : Nat
deriving DecidableEq, Repr

/-- A queue pair beside its registers: descriptors fetched and not yet judged, the frame whose data is being read, frames
pending and heads waiting for the receive ring (R317), the cycle its hold timer started in, frames discarded since DIVERT began,
completions not yet announced with the cycle of the first of them (R316), stops in progress (R309). -/
structure Ring where
  fetched : List (List Nat)
  reading : Option TxFrame
  pend    : List RxPend
  head    : List RxPend
  timer   : Option Nat
  diverted : Nat
  txAnn   : Nat
  rxAnn   : Nat
  txSince : Nat
  rxSince : Nat
  txStop  : Bool
  rxStop  : Bool
deriving DecidableEq, Repr

/-- A memory read the engine has formed (R319): ring, 0 descriptors, 1 transmit data, 2 receive descriptors; bytes. -/
structure ReadReq where
  ring  : Nat
  kind  : Nat
  addr  : Nat
  bytes : Nat
deriving DecidableEq, Repr

/-- The configuration space of one PCIe function that the device's behaviour depends on. -/
structure PciFn where
  busMaster : Bool
  relaxed   : Bool
  mrrs      : Nat
deriving DecidableEq, Repr

/-- The host interface. `waitUs` is the last 1 µs interval, counted from 1, that HDMA_RD_WAIT has counted (R319). -/
structure Hdma where
  linkUp  : Bool
  perst   : Bool
  numVfs  : Nat
  ari     : Bool
  fn      : Kv PciFn
  ring    : Kv Ring
  waiting : List ReadReq
  flight  : List ReadReq
  waitUs  : Nat
  rrOwner : Nat
  rrQueue : Kv Nat
  msixTbl : Kv Nat
  msixPba : Kv Bool
deriving DecidableEq, Repr

/-- A mailbox slot beside its RAM words (R327): 1 POSTED, 2 ACTIVE; the copy of R329, its place in doorbell order, the
host buffer read at ACTIVE (R345), whether its effect is committed, response so far (R350), an abort since its commit. -/
structure Slot where
  st     : Nat
  copy   : List Nat
  order  : Nat
  buf    : List Byte
  committed : Bool
  resp   : List Nat
  aborted : Bool
deriving DecidableEq, Repr

/-- The mailboxes and the command service. -/
structure Mbx where
  ram    : Kv Nat
  slots  : Kv Slot
  order  : Nat
  turn   : Nat
deriving DecidableEq, Repr

/-- The event queues beside their registers: Spout's staging, per-owner counts; `times` holds the cycles in which the records not yet
consumed were written. -/
structure Evq where
  staging : List EvRec
  lost    : Kv Nat
  since   : Kv Nat
  sinceRec : Kv Nat
  lateTimer : List Nat
  lateDone  : List Nat
  lateAt    : Kv Nat
  modr    : List Moderation
  firstEn : Bool
  times   : Kv (List Nat)
deriving DecidableEq, Repr

/-- A task run waiting for its row: the task, the sources that fired it (R468, R469), and the streams in the causes of the
VIE_ENTER sources among them (R164), with the cycle it fired in. -/
structure TaskRun where
  task  : Nat
  cause : List Nat
  streams : Nat
  at_     : Nat
deriving DecidableEq, Repr

/-- An owner's teardown in progress (R21): frames discarded, commands aborted, whether step 4 is done, and whether the owner is
created again. -/
structure Tear where
  frames : Nat
  cmds   : Nat
  erased : Bool
  again  : Bool
deriving DecidableEq, Repr

/-- Owners: who is active, the Basin key slots, configure and read grants by resource word (R344), teardowns; `due` are owners whose
teardown begins once the control firmware runs, and whether they are created again (R37); `await` are owners whose creation waits for the
TRNG (R391). -/
structure Own where
  active  : List Nat
  keys    : Kv (BitVec 256)
  keySel  : Kv Nat
  retiring : Kv Nat
  conf    : Kv Nat
  read    : Kv (List Nat)
  tear    : Kv Tear
  session : Kv Nat
  due     : Kv Bool
  await   : List Nat
deriving DecidableEq, Repr

/-- A power request accepted and not yet begun (R362): state, domain mask of PARTIAL, CAN group of LISTEN, the mailbox slot that
waits, the cycle from which it may begin. -/
structure PwrReq where
  goal  : Nat
  mask  : Nat
  group : Nat
  slot  : Option Nat
  due   : Nat
deriving DecidableEq, Repr

/-- The power manager beside its registers (R432 to R448): supplied; a request; a transition or start-up under way with its goal,
reset cause, whether it began in OFF; whether the boot ROM has still to run; domains to switch and ramping; the mailbox slot; the
regulator being turned on; the channel above which regulators go off; losses of power-good by cycle; a retry due; rails (0 not
begun, 1 up, 2 down, 3 up and done) with their stage; domains and rails faulted in this transition; wakes not yet served; RST_N low;
thermal shutdown and the last restart from one; windows of the reference monitor, good windows in drift and holdover, the frequency
word held; the transition under way is a wake from LISTEN or PARTIAL (R435); the cycles in which a regulator was last enabled or
reported power-good in its turn, in which one was last turned off, of the last round of domains, of the start or last finished stage of the rails going off, and of each rail's power-good or fault in this
transition; the cycle STANDBY was entered. -/
structure PwrSt where
  powered : Bool
  req     : Option PwrReq
  busy    : Bool
  startUp : Bool
  goal    : Nat
  cause   : Nat
  fromOff : Bool
  boot    : Bool
  toOn    : List Nat
  toOff   : List Nat
  ramping : List Nat
  slot    : Option Nat
  regUp   : Option Nat
  regDown : Option Nat
  fails   : List Nat
  retry   : Bool
  rails   : Nat
  stage   : Nat
  faults  : List Nat
  railFaults : Nat
  latched : List Nat
  rstLow  : Bool
  thermOff : Bool
  thermAt : Option Nat
  ppm     : List Int
  drift   : Nat
  hold    : Nat
  holdWord : Int
  waking  : Bool
  regAt   : Nat
  offAt   : Nat
  roundAt : Option Nat
  railAt  : Nat
  railDone : Kv Nat
  standbyAt : Nat
deriving DecidableEq, Repr

/-! ### Camera streams -/

/-- A closed frame of a watched stream awaiting its verdict (R150 to R156). `by_` is the descriptor id of its closing packet;
`disp` the display time once the copy has left AGE_PORT; `no` its number among the stream's closed frames; `cfg` the words of its
stream as they stood when it closed, once later ones are in force, and `fresh` that the histories were cleared before it (R162). -/
structure VieFrame where
  complete : Bool
  ts       : Option Nat
  counter  : Nat
  sig      : Nat
  crc      : Nat
  crcOk    : Bool
  close    : Nat
  by_      : Nat
  disp     : Option Nat
  no       : Nat
  cfg      : Option (List (Nat × Nat))
  fresh    : Bool
deriving DecidableEq, Repr

/-- What the lookups of a stream's packets have seen of the frame they belong to (R165): whether one is open, the format it is read by,
its timestamp, the last sequence number, a discontinuity, and the masks in force for it: its own display withheld, the streams whose displays it serves too. -/
structure VieLook where
  openF    : Bool
  fmt      : Nat
  ts       : Option Nat
  lastSeq  : Option Nat
  disc     : Bool
  withheld : Bool
  forDisp  : List Nat
deriving DecidableEq, Repr

/-- A watched stream: the open frame (bytes placed, gap, discontinuity), the counter, signature and CRC of the last complete
frame, frames missing or incomplete since, the watchdog (t_close and expiries), frames awaiting a verdict, alarms by check with
failure counts, runs of passes and DECAY counts, a configuration waiting for the next frame open, notices, fallback requested
and active, verdict records waiting with the cycle each came in, the checks that entered alarm last with their t_fail, the
number of frames closed, and whether the open frame begins new histories. -/
structure VieS where
  openF   : Bool
  bytes   : List Byte
  broken  : Bool
  ts      : Option Nat
  lastSeq : Option Nat
  seqGap  : Bool
  disc    : Bool
  hist    : Option (Nat × Nat × Nat)
  lastTs  : Nat
  prevTs  : Option Nat
  missed  : Nat
  armed   : Option (Nat × Nat)
  wait    : List VieFrame
  alarm   : Nat
  fc      : List Nat
  good    : List Nat
  passes  : List Nat
  staticRun : Nat
  staticSaid : Bool
  pend    : Option (List (Nat × Nat))
  seqNo   : Nat
  avtp    : Option Nat
  okTs    : Nat
  okCnt   : Nat
  fbReq   : Option Nat
  fbTo    : Option Nat
  forcing : Bool
  recs    : List (Nat × List Byte)
  entering : Nat
  tFail   : Nat
  closedNo : Nat
  fresh    : Bool
deriving DecidableEq, Repr

/-- A frame recorded in a Reservoir ring (R172): the number of the video frame, its first address, the sizes of its stored packets
with its frame record last, and its ciphertext (R171). -/
structure RsvFrame where
  no    : Nat
  addr  : Nat
  sizes : List Nat
  data  : List Byte
deriving DecidableEq, Repr

/-- A Reservoir ring (R171 to R173): frames recorded, oldest first; frames closed and awaiting their record, by number; the frame being
recorded; the cycles its staged packets came in; where the next frame goes; the end of POST; triggers logged, with the cycle of the
last task run; the owner master the recording is sealed under. -/
structure RsvRing where
  frames : List RsvFrame
  closed : List (Nat × List (List Byte))
  cur    : List (List Byte)
  times  : List Nat
  wptr   : Nat
  behind : Bool
  postEnd : Nat
  trig   : List (Nat × Nat)
  trigAt : Option Nat
  sealKey : Option (BitVec 256)
deriving DecidableEq, Repr

/-- The VIE and the Reservoir: streams, rings, what lookups have seen of each stream, and the cycle in which the source of each
channel last fired (R163). -/
structure Vie where
  s    : Kv VieS
  ring : Kv RsvRing
  look : Kv VieLook
  fired : Kv Nat
deriving DecidableEq, Repr

/-! ### CAN, LIN and Rill -/

/-- A transmit request (R221): a message record without timestamp words, its arrival, and the schedule slot it serves, with the end of
the slot's window in ns of `Hw.schedRun`; whether it has been offered. -/
structure CanReq where
  msg  : List Nat
  at_  : Nat
  slot : Option Nat
  until_ : Nat
  tried : Bool
deriving DecidableEq, Repr

/-- A CAN controller beside its registers: receive queues (each entry with its arrival), head locks, request queue,
confirmations and error records with their arrival, the request on the bus, whether a transmitter's error flag is on the bus, a
rejoin commanded (R215), filter writes waiting for bus idle, message buffers, with the cycle each was last written in and what it held
before (R226), schedule writes waiting for a cycle start, the basic cycle in force with its start in ns of `Hw.schedRun`, slot frames
offered, whether the time base stepped since, and the matrix start awaited in ns of the time base (R223, R227). -/
structure CanC where
  rx0    : List (Nat × List Nat)
  rx1    : List (Nat × List Nat)
  lock0  : Bool
  lock1  : Bool
  txq    : List CanReq
  conf   : List (Nat × List Nat)
  errq   : List (Nat × List Nat)
  sending : Option CanReq
  erring : Bool
  recover : Bool
  filt   : List (Nat × Nat)
  buf    : Kv (List Nat)
  prev   : Kv (Nat × Option (List Nat))
  sched  : List (Nat × Nat)
  cycle  : Option (Nat × Nat)
  live   : List CanReq
  stepped : Bool
  startAt : Option Nat
deriving DecidableEq, Repr

/-- A LIN controller beside its registers: publish buffers (data, marked updated), diagnostic requests with their arrival, received records, the
identifiers whose response is awaited and being sent, where to resume after the collision table being run, the
collision table to run next, whether an entry is in force, the cycle it began in, the cycle a wake signal on the bus ends in. -/
structure LinC where
  pub    : Kv (List Byte × Bool)
  diag   : List (Nat × List Byte)
  rxq    : List (Nat × List Nat)
  await  : Option Nat
  sent   : Option Nat
  coll   : Option (Nat × Nat)
  collNext : Option Nat
  running : Bool
  since  : Nat
  waking : Option Nat
deriving DecidableEq, Repr

/-- A Rill FIFO (R237 to R242): whole packets as record words, words of the head packet already read, whether DMA is moving the head
packet, and the cycle a reset of it ends in. -/
structure Rill where
  pkts : List (List Nat)
  read : Nat
  moving : Bool
  until_ : Nat
deriving DecidableEq, Repr

/-- The fieldbus controllers. -/
structure Fbus where
  can  : Kv CanC
  lin  : Kv LinC
  rill : Kv Rill
deriving DecidableEq, Repr

/-! ### The bridge -/

/-- A signal mapping (R255, R257): source start bit, length, source big-endian, buffer, destination start bit, destination
big-endian, timeout index (16 none); the cycle a record last wrote it in, whether it has timed out since. -/
structure SigMap where
  src   : Nat
  len   : Nat
  srcBe : Bool
  buf   : Nat
  dst   : Nat
  dstBe : Bool
  tmo   : Nat
  wrote : Nat
  out   : Bool
deriving DecidableEq, Repr

/-- An assembly buffer (R256): destination word in the layout of R250 (type 1 CAN queue, 2 LIN, 3 schedule buffer with the
controller in 27:22 and the buffer in 5:0), word 0 and 1 of the record it issues, mode, period, gap, data, the cycle of its last issue,
the cycle of its next periodic one. -/
structure AsmBuf where
  len    : Nat
  w0     : Nat
  ident  : Nat
  dest   : Nat
  send   : Nat
  period : Nat
  gap    : Nat
  data   : List Byte
  last   : Nat
  due    : Nat
deriving DecidableEq, Repr

/-- A J1939 transport session (R260, R261). -/
structure TpSess where
  src  : Nat
  sa   : Nat
  da   : Nat
  bam  : Bool
  size : Nat
  next : Nat
  need : Nat
  cts  : List Nat
  data : List Byte
  prio : Nat
  pgn  : Nat
  w0   : Nat
  t3   : Nat
  t4   : Nat
  dest : Nat
  last : Nat
deriving DecidableEq, Repr

/-- A tunnel batch (R263, R264): ACF data, messages, owner, the CAN controller of its first message, that message's timestamp, the cycle
the batch began in. -/
structure Batch where
  data  : List Byte
  count : Nat
  owner : Nat
  ctl   : Option Nat
  stamp : Nat
  at_   : Nat
deriving DecidableEq, Repr

/-- An authentication entry (R266 to R269): key, the owner that installed it, lengths, mode, freshness values. -/
structure Auth where
  key    : Option (BitVec 256)
  by_    : Nat
  len    : Nat
  fv     : Nat
  mac    : Nat
  strict : Bool
  resync : Nat
  fails  : Nat
  wait   : Bool
  l      : Nat
  f      : Nat
deriving DecidableEq, Repr

/-- The fieldbus bridge: routing rules, identifier rewrites, signal mappings and buffers, J1939 claims (source × 256 + address to
NAME and time), addresses claimed through this device's own controllers with the device's NAME, transport sessions, tunnel batches, inbound ACF records
by source, authentication entries, records whose mappings are to be applied with their arrival and their (count, first) lists, and the source each
round robin looks at first. -/
structure Brg where
  rules  : Kv (List Nat)
  rewr   : Kv Nat
  maps   : Kv SigMap
  bufs   : Kv AsmBuf
  claims : Kv (Nat × Nat)
  selfClaims : Kv Nat
  sess   : List TpSess
  batch  : Kv Batch
  acf    : Kv (List (Nat × List Nat))
  auth   : Kv Auth
  sig    : List (Nat × List Nat × List (Nat × Nat))
  hi     : Nat
  lo     : Nat
deriving DecidableEq, Repr

/-! ### Treust -/

/-- A crypto job in a slot (R385 to R388), with the cycles its first and its last segment came in. -/
structure Job where
  owner : Nat
  tag   : Nat
  op    : Nat
  key   : List Byte
  total : Nat
  aad   : Nat
  du    : Nat
  tagLen : Nat
  iv    : List Byte
  param : List Byte
  input : List Byte
  outAt : Nat
  resQ  : Nat
  cls   : Nat
  src   : Nat
  port  : Nat
  at_   : Nat
  seen  : Nat
deriving DecidableEq, Repr

/-- Treust: the boot nonce, session key, owner masters, transport keys, the challenges in force, a debug level 3 that waits for the last teardown (R395), jobs, the secure store's
sequence number, the TRNG, the tamper response stage and the cycle of the detection that began it. -/
structure Sec where
  nonce   : Nat
  dsess   : Option (BitVec 256)
  mo      : Kv (BitVec 256)
  rot     : Kv Nat
  pubs    : Kv (List Byte)
  latch   : Bool
  chal    : Option Nat
  dbgChal : Option Nat
  dbgWant : Bool
  jobs    : Kv Job
  waiting : List Nat
  fresh   : Kv Nat
  trngDown : Bool
  trngAt  : List Nat
  tamper  : Nat
  storeSeq : Nat
  admits   : Bool
  tamperAt : Nat
deriving DecidableEq, Repr

/-! ### Memories -/

/-- An access to a bank (R398, R404): master, owner presented, operation (0 read, 1 write, 2 ADD, 3 SWAP), width in bytes, byte
offset, operand, byte enables of a host read, the cycle it arrived in or its bank could first serve it, the error its word shows when
it is served (1 corrected, 2 uncorrectable). -/
structure BankReq where
  master : Nat
  owner  : Nat
  op     : Nat
  width  : Nat
  off    : Nat
  value  : Nat
  en     : Nat
  at_    : Nat
  ecc    : Nat
deriving DecidableEq, Repr

/-- A March test in progress (R409 to R413): banks to do, the first four of them in test (0 to 31 firmware SRAM, 32 + b general),
preserving, the chunk being tested, the mailbox slot that waits, and the cycle the chunk, or a destructive test, began in. -/
structure March where
  banks : List Nat
  preserve : Bool
  chunk : Nat
  slot  : Option Nat
  from_ : Nat
deriving DecidableEq, Repr

/-- On-chip memories. `ram` holds the general banks: bank b at addresses b * 0x40000 onwards; an unlisted byte reads 0. `bad`
lists 64-bit words with an uncorrectable error; `wait` accesses that wait for a bank, oldest first; `pend` owner writes held while
CLEARING is set (owner, PASS, the mailbox slot); `used` the firmware SRAM banks that hold the running C-image and the journal; `old` the owner
before a CLEAR and the cycle it began in; `grants` the mailbox slot that a running CLEAR completes; `retReq` banks to enter
retention once their accesses are done, with the mailbox slot that waits; `kept` banks whose contents retention kept over STANDBY (0 to 31 firmware SRAM, 32 + b
general); `denied` when a refusal was last reported; `last` the cycle each bank last served an access in, and its master; `wakeAt` the
cycle a wake began in; `off` banks powered off in LISTEN or PARTIAL (R441). -/
structure MemSt where
  ram    : List Host.Cell
  bad    : List Nat
  wait   : Kv (List BankReq)
  pend   : Kv (List (Nat × Bool × Option Nat))
  used   : Nat
  old    : Kv (Nat × Nat)
  grants : Kv Nat
  march  : Option March
  retReq : Kv (Option Nat)
  kept   : List Nat
  denied : Option Nat
  last   : Kv (Nat × Nat)
  wakeAt : Kv Nat
  off    : List Nat
deriving DecidableEq, Repr

/-! ### The sideband bridge -/

/-- A transaction in an SBB slot (R418 to R426): REQ_ADDR, REQ_DATA, REQ_CTRL, data to write, pieces left (register or offset,
first data byte, bytes), attempts at the piece, bytes done, data read, phase (0 waiting, 1 on the bus, 2 gap before a retry,
3 acknowledge poll, 4 complete), result code, the cycle a response read has been held from, the cycle a cancel was asked in, place in
the order of GO writes, the mailbox slot of the DIAG command it serves, the cycle the gap or the poll began in. -/
structure SbbTx where
  addr   : Nat
  word   : Nat
  ctrl   : Nat
  data   : List Byte
  left   : List (Nat × Nat × Nat)
  tries  : Nat
  done   : Nat
  got    : List Byte
  phase  : Nat
  code   : Nat
  hold   : Option Nat
  cancel : Option Nat
  order  : Nat
  serves : Option Nat
  since  : Nat
deriving DecidableEq, Repr

/-- The sideband bridge beside its registers: transactions by slot, the order of GO writes, locked channels with the slot that
holds the lock and the cycle its last locking request completed in, slots whose next response reports LOCK_TIMEOUT, what drove each GPIO line last (CK_PER cycle, level before that
cycle, level driven unless drives disagreed), faults of each rail since it was turned on with the cycle of the last, the cycle each
rail's enable was last asserted in, the requests of a far-bus sequence still
to run by mailbox slot. -/
structure Sbb where
  tx     : Kv SbbTx
  order  : Nat
  lock   : Kv (Nat × Nat)
  expired : List Nat
  drove  : Kv (Nat × Bool × Option Bool)
  railTry : Kv (Nat × Nat)
  railAt : Kv Nat
  seqs   : Kv (List (List Nat))
deriving DecidableEq, Repr

/-! ### The whole device -/

/-- Firmware and boot: the Early Set in force, the copies booted (C, then S), the four copies found in flash (C preferred, C
fallback, S preferred, S fallback), a reset requested (SYS_RESET), the fabric test generator, cascade members (key, path and status by index), registers sealed,
members authenticated (a mask), back-pressure edges of the members. -/
structure Sys where
  early  : Option EarlySet
  imgC   : Option ImageCopy
  imgS   : Option ImageCopy
  copies : List (Option ImageCopy)
  pair   : Nat
  resetReq : Option Nat
  testgen : List Nat
  peers  : Kv (List Nat)
  isSealed : Bool
  authed : Nat
  edges  : Kv (List (Nat × Nat))
deriving DecidableEq, Repr

/-- The hardware: the register file, the count of 2 ns cycles, free values drawn, what went out, task runs waiting, and the
blocks. -/
structure Hw where
  regs  : Kv Word
  clk   : Nat
  free  : Nat
  out   : List Output
  tasks : List TaskRun
  swc   : Swc
  fwd   : Fwd
  tss   : Tss
  mac   : MacSt
  vie   : Vie
  fbus  : Fbus
  brg   : Brg
  tim   : TimeSt
  hdma  : Hdma
  mbx   : Mbx
  evq   : Evq
  own   : Own
  sec   : Sec
  mem   : MemSt
  sbb   : Sbb
  pwr   : PwrSt
  sys   : Sys
deriving DecidableEq, Repr

/-- What is fused (R365, R366, R368, R378): the lifecycle code, the root key, DEVICE_ID, the hashes of the OEM image and
debug keys, the hash of the vendor key (in the boot ROM), and the minimum SVN of types 1 to 3. -/
structure Fuse where
  life    : Nat
  root    : BitVec 256
  devId   : Nat
  oemImg  : Nat
  oemDbg  : Nat
  vendor  : Nat
  svn     : List Nat
deriving DecidableEq, Repr

/-- Faults: the PX7760 reports everything through its own state, so no meaning stops with a fault. -/
inductive Fault where
  /-- Raised by no meaning of this model; kept so that the outcome type names a stop. Safe: it allows nothing more. -/
  | stopped
deriving DecidableEq, Repr

/-- Refusals. -/
inductive Refusal where
  /-- Raised by `exec` for a command that has no meaning yet. Safe: the run ends. -/
  | notModelled (mnemonic : String)
deriving DecidableEq, Repr

/-- The machine: commands waiting, first in first out; the fuses; the hardware. -/
structure State where
  pending : List Instr
  fuse    : Fuse
  hw      : Hw
deriving DecidableEq, Repr

/-! ### Reset -/

/-- The switch core at reset. -/
def Swc.reset : Swc := ⟨[], 0, [], [], [], [], [], [], [], [], [], [], [], [], [], [], [], [], []⟩

/-- The shadow at reset. -/
def Shadow.reset : Shadow := ⟨[], [], [], [], [], []⟩

/-- Forwarding at reset. -/
def Fwd.reset : Fwd :=
  ⟨[], [], [], [], [], [], [], [], [], [], [], [], [], [], 0, [], [], [], [], [], [], [], [], Shadow.reset, []⟩

/-- The scheduling unit at reset. -/
def Tss.reset : Tss := ⟨[], [], [], [], [], [], [], [], [], [], [], [], [], [], [], [], [], [], [], [], [], [], []⟩

/-- The MACs at reset. -/
def MacSt.reset : MacSt := ⟨[], [], [], [], [], [], [], [], [], [], []⟩

/-- The time unit at reset. -/
def TimeSt.reset : TimeSt := ⟨[], [], [], [], [], [], [], [], [], [], [], [], [], [], [], [], [], [], []⟩

/-- The host interface at reset; PERST# is asserted and the link is down. -/
def Hdma.reset : Hdma := ⟨false, true, 0, false, [], [], [], [], 0, 2, [], [], []⟩

/-- The mailboxes at reset. -/
def Mbx.reset : Mbx := ⟨[], [], 0, 0⟩

/-- The event queues at reset. -/
def Evq.reset : Evq := ⟨[], [], [], [], [], [], [], [], false, []⟩

/-- Owners at reset: 0 and 1 always exist (R17). -/
def Own.reset : Own := ⟨[0, 1], [], [], [], [], [], [], [], [], []⟩

/-- The VIE at reset. -/
def Vie.reset : Vie := ⟨[], [], [], []⟩

/-- The fieldbus at reset. -/
def Fbus.reset : Fbus := ⟨[], [], []⟩

/-- The bridge at reset. -/
def Brg.reset : Brg := ⟨[], [], [], [], [], [], [], [], [], [], [], 0, 0⟩

/-- Treust at reset. -/
def Sec.reset : Sec := ⟨0, none, [], [], [], false, none, none, false, [], [], [], false, [], 0, 0, true, 0⟩

/-- The memories at reset. -/
def MemSt.reset : MemSt := ⟨[], [], [], [], 0, [], [], none, [], [], none, [], [], []⟩

/-- The sideband bridge at reset. -/
def Sbb.reset : Sbb := ⟨[], 0, [], [], [], [], [], []⟩

/-- Power at reset: VDD_AO is present, the first regulator of a start-up into ACTIVE is about to be enabled (R433, R449). -/
def PwrSt.reset : PwrSt :=
  ⟨true, none, true, true, 4, 0, true, false, [], [], [], none, some 0, none, [], false, 0, 0, [], 0, [], false, false, none,
   [], 0, 0, 0, false, 0, 0, none, 0, [], 0⟩

/-- Firmware at reset. -/
def Sys.reset : Sys := ⟨none, none, none, [], 7, none, [], [], false, 0, []⟩

/-- The hardware at reset: every register at its reset value, memories empty, owners 0 and 1 (R17). -/
def Hw.reset : Hw :=
  ⟨[], 0, 0, [], [], Swc.reset, Fwd.reset, Tss.reset, MacSt.reset, Vie.reset, Fbus.reset, Brg.reset, TimeSt.reset,
   Hdma.reset, Mbx.reset, Evq.reset, Own.reset, Sec.reset, MemSt.reset, Sbb.reset, PwrSt.reset, Sys.reset⟩

/-- Fuses as shipped from the vendor: MANUFACTURED, with no OEM hash, SVN minima 0 (DESIGN CHOICE, log entry 1). -/
def Fuse.reset : Fuse := ⟨1, 0, 0, 0, 0, 0, [0, 0, 0]⟩

/-- The machine right after reset. -/
def State.reset : State := ⟨[], Fuse.reset, Hw.reset⟩

end Sys2Proof.Machine
end

