-- ==== Sys2Proof/Machine/Ops.lean ====
section
/-!
DEFINITION. The named operations over the state that every family shares: maps, registers and their fields, counters,
event records (R320 to R323), the event fabric (R466 to R470), readiness (R454), time bases (R274), free values.
-/
namespace Sys2Proof.Machine

/-! ### Maps -/

/-- The value at a key. -/
def kvGet {β : Type} : Kv β → Nat → Option β
  | [], _ => none
  | (k, v) :: m, i => if i = k then some v else kvGet m i

/-- Set the value at a key, keeping keys in rising order. -/
def kvPut {β : Type} : Kv β → Nat → β → Kv β
  | [], i, v => [(i, v)]
  | (k, w) :: m, i, v =>
    if i < k then (i, v) :: (k, w) :: m else if i = k then (i, v) :: m else (k, w) :: kvPut m i v

/-- Remove a key. -/
def kvDel {β : Type} (m : Kv β) (i : Nat) : Kv β := m.filter (fun e => e.1 != i)

/-- The value at a key, or a default. -/
def kvGetD {β : Type} (m : Kv β) (i : Nat) (d : β) : β := (kvGet m i).getD d

/-- Replace the value at a key by a function of it. -/
def kvMod {β : Type} (m : Kv β) (i : Nat) (d : β) (f : β → β) : Kv β := kvPut m i (f (kvGetD m i d))

/-- Add an element to a list without repeating it. -/
def insertNew (l : List Nat) (x : Nat) : List Nat := if l.contains x then l else l ++ [x]

/-- Remove every occurrence of an element. -/
def without (l : List Nat) (x : Nat) : List Nat := l.filter (fun y => y != x)

/-- The indices `0 … n - 1` of the bits set in a word. -/
def bitsOf (n w : Nat) : List Nat := (List.range n).filter (fun i => w.testBit i)

/-- The word with exactly the listed bits set. -/
def maskOf (l : List Nat) : Nat := l.foldl (fun a i => a ||| 2 ^ i) 0

/-! ### Fields and registers -/

/-- A field of a word. -/
def getF (w : Nat) (f : Field) : Nat := w / 2 ^ f.lo % 2 ^ (f.hi + 1 - f.lo)

/-- A word with one field replaced; a value too wide for the field is cut to it. -/
def putF (w : Nat) (f : Field) (v : Nat) : Nat :=
  w / 2 ^ (f.hi + 1) * 2 ^ (f.hi + 1) + v % 2 ^ (f.hi + 1 - f.lo) * 2 ^ f.lo + w % 2 ^ f.lo

/-- The word a register holds; one not in the file holds its reset value (R482). -/
def Hw.rd (h : Hw) (off : Nat) : Word := (kvGet h.regs off).getD (resetVal off)

/-- Insert a register into a file that does not list it, unless it is at its reset value. -/
def insReg : Kv Word → Nat → Word → Kv Word
  | [], i, v => if v = resetVal i then [] else [(i, v)]
  | (k, w) :: m, i, v =>
    if i < k then (if v = resetVal i then (k, w) :: m else (i, v) :: (k, w) :: m) else (k, w) :: insReg m i v

/-- Set the word a register holds; the file lists no register at its reset value. -/
def Hw.wr (h : Hw) (off : Nat) (v : Word) : Hw := { h with regs := insReg (kvDel h.regs off) off v }

/-- A register as a number. -/
def Hw.rn (h : Hw) (off : Nat) : Nat := (h.rd off).toNat

/-- Set a register to a number modulo 2^32. -/
def Hw.wn (h : Hw) (off n : Nat) : Hw := h.wr off (BitVec.ofNat 32 n)

/-- A field of a register. -/
def Hw.fld (h : Hw) (off : Nat) (f : Field) : Nat := getF (h.rn off) f

/-- Set a field of a register. -/
def Hw.setFld (h : Hw) (off : Nat) (f : Field) (v : Nat) : Hw := h.wn off (putF (h.rn off) f v)

/-- A one-bit field is 1. -/
def Hw.flag (h : Hw) (off : Nat) (f : Field) : Bool := h.fld off f == 1

/-- Advance a counter by `n`; counters saturate at 0xFFFF_FFFF. -/
def Hw.add (h : Hw) (off n : Nat) : Hw := h.wn off (min (h.rn off + n) 0xFFFFFFFF)

/-- Advance a counter by one, saturating. -/
def Hw.inc (h : Hw) (off : Nat) : Hw := h.add off 1

/-- Return a register to its reset value (R482). -/
def Hw.clr (h : Hw) (off : Nat) : Hw := { h with regs := kvDel h.regs off }

/-- Return every register whose offset satisfies `p` to its reset value (R482). -/
def Hw.clrWhere (h : Hw) (p : Nat → Bool) : Hw := { h with regs := h.regs.filter (fun e => !p e.1) }

/-- Write the fields of `mask` of a register from an image (R353). -/
def Hw.image (h : Hw) (off mask v : Nat) : Hw :=
  h.wn off ((h.rn off &&& (0xFFFFFFFF - mask)) ||| (v &&& mask))

/-- Put something on the outside of the device. -/
def Hw.emit (h : Hw) (o : Output) : Hw := { h with out := o :: h.out }

/-- Draw a free value: a value the spec leaves open, fresh each time (DESIGN CHOICE, log entry 3). -/
def Hw.draw (h : Hw) : Nat := (Config.freeValue h.free).toNat

/-- The state after a draw. -/
def Hw.drawn (h : Hw) : Hw := { h with free := h.free + 1 }

/-- A power domain is on and good (R439); PD_AO is on while VDD_AO is present. -/
def Hw.pg (h : Hw) (d : Nat) : Bool :=
  if d = 0 then h.pwr.powered
  else if d < 32 then (h.rn Reg.PWR_DOMAIN_PG_LO).testBit d else (h.rn Reg.PWR_DOMAIN_PG_HI).testBit (d - 32)

/-! ### Time bases (R274) -/

/-- Units of a base in one nanosecond: 2^-47 ns each. -/
def nsUnit : Nat := 2 ^ 47

/-- Where a base begins again at 0: 2^48 seconds (R274). -/
def tbSpan : Nat := 2 ^ 48 * 1000000000 * nsUnit

/-- The count of a time base, in units of 2^-47 ns. -/
def Hw.tbRaw (h : Hw) (b : Nat) : Nat := kvGetD h.tim.base b 0

/-- Whole nanoseconds of a time base since its zero. -/
def Hw.tbNs (h : Hw) (b : Nat) : Nat := h.tbRaw b / nsUnit

/-- The count of a base with its steps left out, by which a residence time is measured (R284). -/
def Hw.runRaw (h : Hw) (b : Nat) : Nat := kvGetD h.tim.run b 0

/-- The values of all eight bases in this cycle (R281), then their counts without steps, then 1 for those that have never been set
(R298). -/
def Hw.stamps (h : Hw) : List Nat :=
  (List.range 8).map h.tbRaw ++ (List.range 8).map h.runRaw ++
    (List.range 8).map (fun b => if h.fld (Reg.TIME_TB_STATE b) Fld.TIME_TB_STATE_STATE == 0 then 1 else 0)

/-- The signed value of the 40-bit two's-complement ADJ (R275). -/
def adjInt (a : Nat) : Int := if a < 2 ^ 39 then (a : Int) else (a : Int) - 2 ^ 40

/-- ADJ in force for a base. -/
def Hw.adj (h : Hw) (b : Nat) : Nat :=
  h.rn (Reg.TIME_TB_ADJ_HI b) % 256 * 2 ^ 32 + h.rn (Reg.TIME_TB_ADJ_LO b)

/-- The base as it stood `ago` cycles before, when a change came since: the first one after that cycle. -/
def Hw.pastOf (h : Hw) (b ago : Nat) : Option TbPast := (kvGetD h.tim.past b []).find? (fun p => decide (h.clk < p.clk + ago))

/-- Cycles of a base's counting in units of 2^-47 ns at a rate. -/
def spanRaw (cycles adj : Nat) : Nat := cycles * ((2 ^ 48 : Int) + adjInt adj).toNat

/-- A base had never been set `ago` cycles before (R276). -/
def Hw.unsetAgo (h : Hw) (b ago : Nat) : Bool :=
  match h.pastOf b ago with
  | some p => p.unset
  | none => h.fld (Reg.TIME_TB_STATE b) Fld.TIME_TB_STATE_STATE == 0

/-- The values of all bases `ago` cycles before, then their counts without steps, then 1 for those that had never been set (R220, R281):
a step or a rate committed since then does not show. -/
def Hw.stampsAgo (h : Hw) (ago : Nat) : List Nat :=
  (List.range 8).map (fun b => match h.pastOf b ago with
    | some p => p.raw - spanRaw (p.clk + ago - h.clk) p.adj
    | none => h.tbRaw b - spanRaw ago (h.adj b)) ++
  (List.range 8).map (fun b => match h.pastOf b ago with
    | some p => p.run - spanRaw (p.clk + ago - h.clk) p.adj
    | none => h.runRaw b - spanRaw ago (h.adj b)) ++
  (List.range 8).map (fun b => if h.unsetAgo b ago then 1 else 0)

/-- Nanoseconds of base `b` in a stamp of all bases. -/
def stampNs (s : List Nat) (b : Nat) : Nat := s.getD b 0 / nsUnit

/-- Base `b` had never been set when a stamp of all bases was taken. -/
def stampUnset (s : List Nat) (b : Nat) : Bool := s.getD (16 + b) 0 == 1

/-! ### Event records -/

/-- A record is lost: counted in EVQ_LOST, and OVF_PENDING set (R322). -/
def Hw.loseRecord (h : Hw) (owner : Nat) : Hw :=
  let h := (h.inc (Reg.EVQ_LOST owner)).setFld (Reg.EVQ_STATUS owner) Fld.EVQ_STATUS_OVF_PENDING 1
  { h with evq := { h.evq with lost := kvMod h.evq.lost owner 0 (· + 1) } }

/-- An owner being torn down takes no further records but the completions of its commands, until its state is erased (R21). -/
def Hw.deaf (h : Hw) (owner kind : Nat) : Bool :=
  match kvGet h.own.tear owner with
  | none => false
  | some t => kind != 0x0201 || t.erased

/-- The control firmware runs (R37). -/
def Hw.fwRuns (h : Hw) : Bool := h.flag Reg.MBX_STATUS Fld.MBX_STATUS_READY

/-- Raise a record for an owner: it is stamped on the queue's time base in this cycle (R281, R288) and staged in Spout,
or lost when the staging of 4,096 records is full (R322) or the owner is being torn down (R21). -/
def Hw.post (h : Hw) (owner kind w3 : Nat) (w4 w5 w6 w7 : Nat := 0) : Hw :=
  if 4096 ≤ h.evq.staging.length ∨ h.deaf owner kind then h.loseRecord owner
  else
    let w1 := h.tbNs (h.fld (Reg.EVQ_CTRL owner) Fld.EVQ_CTRL_TB) % 2 ^ 32
    { h with evq := { h.evq with staging := h.evq.staging ++ [⟨owner, kind, w1, w3, w4, w5, w6, w7, h.clk⟩] } }

/-- An owner is active and its teardown has not begun (R20, R21). -/
def Hw.alive (h : Hw) (o : Nat) : Bool := h.own.active.contains o && (kvGet h.own.tear o).isNone

/-- A resource word (R344). -/
def resWord (type index : Nat) : Nat := type * 2 ^ 24 + index

/-- The owner that holds a resource for configure access; owner 1 holds what is not granted (R19). -/
def Hw.holder (h : Hw) (type index : Nat) : Nat := kvGetD h.own.conf (resWord type index) 1

/-- Post to owner 1 and to the owner granted the subject (recipients G of R475). -/
def Hw.postG (h : Hw) (type index kind w3 : Nat) (w4 w5 w6 w7 : Nat := 0) : Hw :=
  let h1 := h.post 1 kind w3 w4 w5 w6 w7
  let g := h.holder type index
  if g = 1 then h1 else h1.post g kind w3 w4 w5 w6 w7

/-- Words 4 and 5 of a moderated record with a count. -/
def modWords (aux : Option Nat) (n : Nat) : Nat × Nat := match aux with | some a => (a, n) | none => (n, 0)

/-- Post under the moderation of R54: the first at once with a count of 1, the rest of the millisecond summed. -/
def Hw.postMod (h : Hw) (kind w3 : Nat) (aux : Option Nat := none) : Hw :=
  if h.evq.modr.any (fun m => m.kind == kind && m.w3 == w3) then
    { h with evq := { h.evq with modr := h.evq.modr.map (fun m =>
        if m.kind == kind && m.w3 == w3 then { m with count := m.count + 1, aux := aux } else m) } }
  else
    let h := h.post 1 kind w3 (modWords aux 1).1 (modWords aux 1).2
    { h with evq := { h.evq with modr := h.evq.modr ++ [⟨kind, w3, 0, aux⟩] } }

/-! ### The event fabric -/

/-- The task inputs routed from at least one of the sources (R468). -/
def Hw.routedTasks (h : Hw) (srcs : List Nat) : List Nat :=
  ((h.regs.filter (fun e => decide (0x341000 ≤ e.1) && decide (e.1 < 0x342000) &&
      srcs.any (fun s => s / 32 == e.1 % 32 / 4 && e.2.getLsbD (s % 32)))).map
    (fun e => (e.1 - 0x341000) / 32)).dedup

/-- The sources of a firing that a task's mask holds. -/
def Hw.causeOf (h : Hw) (t : Nat) (srcs : List Nat) : List Nat :=
  srcs.filter (fun s => (h.rd (Reg.EVF_ROUTE t (s / 32))).getLsbD (s % 32))

/-- Bits of group `g` among sources. -/
def groupBits (srcs : List Nat) (g : Nat) : Nat :=
  maskOf ((srcs.filter (fun s => s / 32 == g)).map (· % 32))

/-- The streams in the causes of the VIE_ENTER sources among some sources (R164). -/
def Hw.causeMask (h : Hw) (cause : List Nat) : Nat :=
  ((cause.filter (fun c => decide (c < 16))).map (fun c =>
    h.rn (Reg.VIE_CH_CAUSE_HI c) * 2 ^ 32 + h.rn (Reg.VIE_CH_CAUSE_LO c))).foldl (· ||| ·) 0

/-- A run of a task that fired in this cycle and still waits. -/
def Hw.runNow (h : Hw) (t : Nat) : Option TaskRun := h.tasks.find? (fun r => r.task == t && r.at_ == h.clk)

/-- One task input fires (R469): its cause mask and run count, and the run waits for the task's own step. Sources that reach a task in
one cycle make one run, with all of them in its cause. -/
def Hw.runTask (h : Hw) (t : Nat) (cause : List Nat) : Hw :=
  let old := h.runNow t
  let all := match old with | some r => cause.foldl insertNew r.cause | none => cause
  let h := (List.range 8).foldl (fun a w => a.wn (Reg.EVF_CAUSE t w) (groupBits all w)) h
  let run : TaskRun := ⟨t, all, h.causeMask all, h.clk⟩
  match old with
  | some _ => { h with tasks := h.tasks.map (fun r => if r.task == t && r.at_ == h.clk then run else r) }
  | none => { h.inc (Reg.EVF_TASK_COUNT t) with tasks := h.tasks ++ [run] }

/-- A task that an alarm fired acts later than R169 allows: counted in VIE_LATE. -/
def Hw.lateBy (h : Hw) (r : TaskRun) (cycles : Nat) : Hw :=
  if r.cause.any (fun c => decide (c < 16)) && decide (r.at_ + cycles < h.clk) then h.inc Reg.VIE_LATE else h

/-- Some task has two or more causes in this cycle. -/
def Hw.coincides (h : Hw) : Bool := h.tasks.any (fun r => r.at_ == h.clk && decide (2 ≤ r.cause.length))

/-- Sources fire in one cycle (R466, R468, R469); a fabric that is not ready routes nothing. A cycle with a coincidence is counted
once. -/
def Hw.fire (h : Hw) (srcs : List Nat) : Hw :=
  if h.flag Reg.EVF_STATUS Fld.EVF_STATUS_READY then
    let h1 := (h.routedTasks srcs).foldl (fun a t => a.runTask t (h.causeOf t srcs)) h
    if h1.coincides && !h.coincides then h1.inc Reg.EVF_COINCIDE else h1
  else h

/-- The first waiting run of a task. -/
def Hw.taskRun? (h : Hw) (t : Nat) : Option TaskRun := h.tasks.find? (fun r => r.task == t)

/-- Take the first waiting run of a task out of the queue. -/
def dropRun : List TaskRun → Nat → List TaskRun
  | [], _ => []
  | r :: rs, t => if r.task == t then rs else r :: dropRun rs t

/-- The EVF_TASK record of a run (R470): map of groups in word 3, cause words of the first four groups after it. -/
def Hw.taskRecordTo (h : Hw) (owner : Nat) (r : TaskRun) : Hw :=
  let gs := (List.range 8).filter (fun g => groupBits r.cause g != 0)
  let w (i : Nat) : Nat := match gs[i]? with | some g => groupBits r.cause g | none => 0
  h.post owner 0x0F01 (r.task + 2 ^ 8 * maskOf gs + (if 4 < gs.length then 2 ^ 31 else 0)) (w 0) (w 1) (w 2) (w 3)

/-- The records of a run: RECORD tasks always post, to owner 1 and their OWNER; others when RECORD is set (R470). -/
def Hw.taskRecord (h : Hw) (r : TaskRun) : Hw :=
  if 40 ≤ r.task then
    let o := h.fld (Reg.EVF_TASK_CFG r.task) Fld.EVF_TASK_CFG_OWNER
    let h := h.taskRecordTo 1 r
    if o = 1 then h else h.taskRecordTo o r
  else if h.flag (Reg.EVF_TASK_CFG r.task) Fld.EVF_TASK_CFG_RECORD then h.taskRecordTo 1 r else h

/-- Serve the first waiting run of a task with its effect; without one nothing happens. -/
def Hw.serveTask (h : Hw) (t : Nat) (eff : Hw → TaskRun → Hw) : Hw :=
  match h.taskRun? t with
  | none => h
  | some r => (eff { h with tasks := dropRun h.tasks t } r).taskRecord r

/-! ### Readiness -/

/-- The PWR_READY record of a change (R454): to owner 1, and to owner 2 once its event queue is enabled. -/
def Hw.readyRecord (h : Hw) : Hw :=
  let r := h.rn Reg.PWR_READY
  let p := h.rn Reg.PWR_READY_PORTS
  let h1 := h.post 1 0x0D01 0 r p
  if h.flag (Reg.EVQ_CTRL 2) Fld.EVQ_CTRL_EN then h1.post 2 0x0D01 0 r p else h1

/-- Bit `k` of the readiness mirrors: 0–31 in PWR_READY, 32–63 in PWR_READY_PORTS (R466). -/
def Hw.mirror (h : Hw) (k : Nat) (v : Nat) : Hw :=
  if k < 32 then h.setFld Reg.PWR_READY ⟨k, k⟩ v else h.setFld Reg.PWR_READY_PORTS ⟨k - 32, k - 32⟩ v

/-- A READY bit rises: the block's bit, its mirror, the source READY[k] and the record (R454). -/
def Hw.setReady (h : Hw) (off : Nat) (f : Field) (k : Nat) : Hw :=
  if h.flag off f then h
  else (((h.setFld off f 1).mirror k 1).fire [192 + k]).readyRecord

/-- A READY bit falls: posted in the same way, and no source fires (R454, R466). -/
def Hw.clrReady (h : Hw) (off : Nat) (f : Field) (k : Nat) : Hw :=
  if h.flag off f then ((h.setFld off f 0).mirror k 0).readyRecord else h

/-! ### Lifting an effect to the machine -/

/-- The outcome type of the machine. -/
abbrev Res := Host.Outcome State Fault Refusal

/-- A command whose effect is on the hardware alone: fuses and waiting commands are as before. -/
def onHw (s : State) (f : Hw → Hw) : Res := .next { s with hw := f s.hw }

/-- A command whose effect also reaches the fuses. -/
def onBoth (s : State) (f : Fuse → Hw → Fuse × Hw) : Res :=
  let r := f s.fuse s.hw
  .next { s with fuse := r.1, hw := r.2 }

end Sys2Proof.Machine
end

