-- ==== Sys2Proof/Machine/Basin.lean ====
section
/-!
DEFINITION. The Basin (R39 to R61): cells and their encryption, the accounts a frame is charged to, holds and pauses,
release of references, discards, samples.
-/
namespace Sys2Proof.Machine

/-- Number of Basin cells (R39). -/
def cellCount : Nat := 131072

/-- The bank group of a cell: cell n lies in bank n mod 128, groups are of 8 banks (R39). -/
def cellGroup (c : Nat) : Nat := c % 128 / 8

/-- Cells held by frames. -/
def Hw.heldCells (h : Hw) : List Nat := h.swc.frames.flatMap (·.cells)

/-- Cells of the sample reserve in use (R76). -/
def Hw.sampleCells (h : Hw) : List Nat := h.swc.samples.map (·.cell)

/-- A bank group is powered and its cells are on the free list: those of a group about to be switched off are not (R43). -/
def Hw.groupOn (h : Hw) (g : Nat) : Bool := h.pg (7 + g) && !h.pwr.toOff.contains (7 + g)

/-- The free list holds a cell: its group is powered, and no frame, sample, retirement or leak has it (R41, R47, R74). -/
def Hw.cellFree (h : Hw) (c : Nat) : Bool :=
  h.groupOn (cellGroup c) && !h.heldCells.contains c && !h.sampleCells.contains c && !h.swc.retired.contains c
    && !h.swc.leaked.contains c

/-- The first cell at or after `c`, cyclically, that is free and in another bank than `prev` (R39). -/
def Hw.findCell (h : Hw) (prev : Option Nat) : Nat → Nat → Option Nat
  | _, 0 => none
  | c, n + 1 =>
    if h.cellFree (c % cellCount) && (prev.map (· % 128) != some (c % cellCount % 128)) then some (c % cellCount)
    else h.findCell prev (c + 1) n

/-- A free cell; which of the free cells the list gives is not stated: a free value picks where to look (DESIGN CHOICE, log entry 12). -/
def Hw.pickCell (h : Hw) (prev : Option Nat) : Option Nat := h.findCell prev h.draw cellCount

/-- The initial counter block of a 16-byte block of a cell (R44). -/
def counterBlock (nonce gen cell blk : Nat) : Nat :=
  nonce % 2 ^ 32 * 2 ^ 96 + gen % 2 ^ 48 * 2 ^ 48 + cell * 2 ^ 31 + blk

/-- Encrypt or decrypt a cell's bytes in counter mode (R44). -/
def cellCrypt (key : BitVec 256) (nonce gen cell : Nat) (l : List Byte) : List Byte :=
  ctrXor (keys256 key) (counterBlock nonce gen cell 0) l

/-- The key in a Basin key slot of an owner (R375); a destroyed key is not there. -/
def Hw.basinKey? (h : Hw) (owner slot : Nat) : Option (BitVec 256) := kvGet h.own.keys (owner * 2 + slot)

/-- The generation count of a cell. -/
def Hw.cellGen (h : Hw) (c : Nat) : Nat := (kvGetD h.swc.cells c ⟨0, []⟩).gen

/-- Update the switch core. -/
def Hw.onSwc (h : Hw) (f : Swc → Swc) : Hw := { h with swc := f h.swc }

/-- The 1 µs interval of this cycle, counted from 1. -/
def Hw.usNow (h : Hw) : Nat := h.clk / 500 + 1

/-- The owners of LAST result frames of the lookaside engine that wait to be issued: their jobs still hold slots (R387), but for those ended
JOB_LIMIT, which never had one. -/
def Hw.resultsHeld (h : Hw) : List Nat :=
  ((kvGetD h.swc.srcWait 27 []).filter (fun f => (be (sub f.bytes 15 1)).testBit 1 && be (sub f.bytes 26 4) != 7)).map (·.owner)

/-- A source of an internal port waits in this cycle: SWC_CREDIT_STALL counts the 1 µs interval once (R59). -/
def Hw.stall (h : Hw) (port : Nat) : Hw :=
  if kvGetD h.swc.stallUs port 0 = h.usNow then h
  else (h.inc (Reg.SWC_CREDIT_STALL (port - 24))).onSwc (fun s => { s with stallUs := kvPut s.stallUs port h.usNow })

/-- Update the frame with a descriptor id. -/
def Hw.onFrame (h : Hw) (id : Nat) (f : Frame → Frame) : Hw :=
  h.onSwc (fun s => { s with frames := s.frames.map (fun x => if x.id == id then f x else x) })

/-- The frame with a descriptor id. -/
def Hw.frame? (h : Hw) (id : Nat) : Option Frame := h.swc.frames.find? (fun x => x.id == id)

/-- Write the bytes of a cell under the owner's key; a cell whose key is gone keeps the bytes it had. -/
def Hw.writeCell (h : Hw) (owner slot c : Nat) (l : List Byte) : Hw :=
  match h.basinKey? owner slot with
  | none => h
  | some k => h.onSwc (fun s => { s with cells := kvPut s.cells c ⟨h.cellGen c, cellCrypt k h.sec.nonce (h.cellGen c) c l⟩ })

/-- The 256-byte pieces of a frame. -/
def pieces : Nat → List Byte → List (List Byte)
  | 0, _ => []
  | n + 1, l => if l.isEmpty then [] else l.take 256 :: pieces n (l.drop 256)

/-- Write a frame's bytes into its cells. -/
def Hw.writeFrame (h : Hw) (f : Frame) (l : List Byte) : Hw :=
  (f.cells.zip (pieces 64 l)).foldl (fun a p => a.writeCell f.owner f.keySel p.1 p.2) h

/-- Read a frame: its cells decrypted under the buffer owner's key, up to LENGTH only (R24, R46). A frame whose key is destroyed
can be read by no egress (R46). -/
def Hw.readFrame (h : Hw) (f : Frame) : List Byte :=
  match h.basinKey? f.owner f.keySel with
  | none => []
  | some k =>
    (f.cells.flatMap (fun c =>
      let x := kvGetD h.swc.cells c ⟨0, []⟩
      cellCrypt k h.sec.nonce x.gen c x.data)).take f.len

/-- Cells a frame of `n` bytes occupies (R39). -/
def cellsFor (n : Nat) : Nat := (n + 255) / 256

/-! ### Accounts (R48, R51 to R59) -/

/-- The register word of a port-class. -/
def pcOf (port cls : Nat) : Nat := port * 8 + cls

/-- A port-class is in mode M (R48). -/
def Hw.modeM (h : Hw) (pc : Nat) : Bool := h.fld (Reg.SWC_VOQ_CFG pc) Fld.SWC_VOQ_CFG_MODE == 1

/-- USED of a port-class. -/
def Hw.pcUsed (h : Hw) (pc : Nat) : Nat := h.rn (Reg.SWC_PC_USED pc)

/-- USED of a quota. -/
def Hw.mmqUsed (h : Hw) (q : Nat) : Nat := h.rn (Reg.SWC_MMQ_USED q)

/-- XOFF of a port-class. -/
def Hw.xoff (h : Hw) (pc : Nat) : Nat := h.fld (Reg.SWC_VOQ_THR pc) Fld.SWC_VOQ_THR_XOFF

/-- XON of a port-class. -/
def Hw.xon (h : Hw) (pc : Nat) : Nat := h.fld (Reg.SWC_VOQ_THR pc) Fld.SWC_VOQ_THR_XON

/-- The global hold is in force (R57). -/
def Hw.globalXoff (h : Hw) : Bool := h.flag Reg.SWC_STATUS Fld.SWC_STATUS_GLOBAL_XOFF

/-- A MAC has its link up (R184). -/
def Hw.linkUp (h : Hw) (mac : Nat) : Bool := h.flag (Reg.MAC_STATUS mac) Fld.MAC_STATUS_LINK_UP

/-- A MAC's transmitter is sending a frame; a suspended frame (R128) is not on the line. -/
def Hw.txBusy (h : Hw) (e : Nat) : Bool :=
  match kvGetD h.swc.tx e [] with
  | [] => false
  | t :: _ => !t.susp

/-- A MAC's transmitter is in low-power idle or waking from it (R192). -/
def Hw.lpi (h : Hw) (mac : Nat) : Bool :=
  h.flag (Reg.MAC_STATUS mac) Fld.MAC_STATUS_TX_LPI || h.mac.lpiExit.contains mac

/-- Update the MAC state. -/
def Hw.onMac (h : Hw) (f : MacSt → MacSt) : Hw := { h with mac := f h.mac }

/-- Add to a 64-bit octet counter (R202). -/
def Hw.addRxOctets (h : Hw) (mac n : Nat) : Hw := h.onMac (fun m => { m with rxOct := kvMod m.rxOct mac 0 (· + n) })

/-- Add to a 64-bit octet counter (R202). -/
def Hw.addTxOctets (h : Hw) (mac n : Nat) : Hw := h.onMac (fun m => { m with txOct := kvMod m.txOct mac 0 (· + n) })

/-- Send the pauses that wait on a MAC as one 802.1Qbb frame of 64 bytes (R56, R185). -/
def Hw.sendPauses (h : Hw) (mac : Nat) : Hw :=
  let q := kvGetD h.swc.pauseQ mac []
  if q.isEmpty || !h.linkUp mac || h.lpi mac then h
  else
    let h := (h.onSwc (fun s => { s with pauseQ := kvDel s.pauseQ mac })).emit (.pfcTx mac q)
    let h := (h.inc (Reg.MAC_TX_PAUSE mac)).addTxOctets mac 64
    if q.any (fun c => c.2 != 0) then h.inc (Reg.SWC_PFC_XOFF_TX mac) else h

/-- Queue a pause for a class of a MAC; it waits for a frame being transmitted to end (R56). Nothing is queued while the
link is down: link-up sends the classes still held. -/
def Hw.queuePause (h : Hw) (mac cls quanta : Nat) : Hw :=
  if mac < 24 && h.linkUp mac && h.flag (Reg.SWC_VOQ_CFG (pcOf mac cls)) Fld.SWC_VOQ_CFG_PFC_EN then
    let q := (kvGetD h.swc.pauseQ mac []).filter (fun c => c.1 != cls) ++ [(cls, quanta)]
    let h := h.onSwc (fun s => { s with pauseQ := kvPut s.pauseQ mac q })
    if h.txBusy mac then h else h.sendPauses mac
  else h

/-- A mode B port-class begins to be held: its hold level is its USED, capped at XOFF (R58), and a pause with
quanta 0xFFFF is queued on a MAC (R56). -/
def Hw.beginHold (h : Hw) (pc : Nat) : Hw :=
  if (kvGet h.swc.holdAt pc).isSome then h
  else
    let h := h.onSwc (fun s => { s with holdAt := kvPut s.holdAt pc (min (h.pcUsed pc) (h.xoff pc)) })
    h.queuePause (pc / 8) (pc % 8) 0xFFFF

/-- A hold ends: a pause with quanta 0 is sent (R56). -/
def Hw.endHold (h : Hw) (pc : Nat) : Hw :=
  let h := h.onSwc (fun s => { s with holdAt := kvDel s.holdAt pc })
  h.queuePause (pc / 8) (pc % 8) 0

/-- The mode B port-classes. -/
def Hw.modeBs (h : Hw) : List Nat := (List.range 256).filter (fun pc => !h.modeM pc)

/-- XOFF checks after a charge: the port-class's own (R56) and the global one (R57). -/
def Hw.checkXoff (h : Hw) (pc : Nat) : Hw :=
  let h := if pc < 192 && !h.modeM pc && decide (h.xoff pc ≤ h.pcUsed pc) then h.beginHold pc else h
  if !h.globalXoff && decide (h.fld Reg.SWC_SHARED_CFG Fld.SWC_SHARED_CFG_GLOBAL_XOFF ≤ h.rn Reg.SWC_SHARED_USED) then
    let h := h.setFld Reg.SWC_STATUS Fld.SWC_STATUS_GLOBAL_XOFF 1
    h.modeBs.foldl (fun a p => a.beginHold p) h
  else h

/-- XON checks after a release: the end of the global hold below GLOBAL_XOFF less its 1/16 (R57), and the end of each
hold whose USED is at XON or below while no global hold stands (R56). -/
def Hw.checkXon (h : Hw) : Hw :=
  let gx := h.fld Reg.SWC_SHARED_CFG Fld.SWC_SHARED_CFG_GLOBAL_XOFF
  let h := if h.globalXoff && decide (h.rn Reg.SWC_SHARED_USED < gx - gx / 16)
    then h.setFld Reg.SWC_STATUS Fld.SWC_STATUS_GLOBAL_XOFF 0 else h
  if h.globalXoff then h
  else (h.swc.holdAt.map (·.1)).foldl (fun a pc => if a.pcUsed pc ≤ a.xon pc then a.endHold pc else a) h

/-- Charge `n` cells to a quota, or to the port-class and the shared pool. -/
def Hw.charge (h : Hw) (quota pc n : Nat) : Hw :=
  if quota < 128 then
    let h := h.wn (Reg.SWC_MMQ_USED quota) (h.mmqUsed quota + n)
    if h.rn (Reg.SWC_MMQ_PEAK quota) < h.mmqUsed quota then h.wn (Reg.SWC_MMQ_PEAK quota) (h.mmqUsed quota) else h
  else
    let h := h.wn (Reg.SWC_PC_USED pc) (h.pcUsed pc + n)
    (h.wn Reg.SWC_SHARED_USED (h.rn Reg.SWC_SHARED_USED + n)).checkXoff pc

/-- Give `n` cells back to the account they were charged to. -/
def Hw.uncharge (h : Hw) (quota pc n : Nat) : Hw :=
  if quota < 128 then h.wn (Reg.SWC_MMQ_USED quota) (h.mmqUsed quota - n)
  else
    let h := h.wn (Reg.SWC_PC_USED pc) (h.pcUsed pc - n)
    (h.wn Reg.SWC_SHARED_USED (h.rn Reg.SWC_SHARED_USED - n)).checkXon

/-- Allocate one more cell to a frame: its generation count advances (R45), and the cell is charged. -/
def Hw.drawCell (h : Hw) (id : Nat) : Hw :=
  match h.frame? id with
  | none => h
  | some f =>
    match h.pickCell f.cells.getLast? with
    | none => h.drawn
    | some c =>
      let g := h.cellGen c + 1
      let h := (h.drawn.onSwc (fun s => { s with
        cells := kvPut s.cells c ⟨g, (kvGetD s.cells c ⟨0, []⟩).data⟩, touched := insertNew s.touched c }))
      (h.onFrame id (fun x => { x with cells := x.cells ++ [c] })).charge f.quota f.acct 1

/-- Allocate `n` more cells to a frame. -/
def Hw.drawCells (h : Hw) (id : Nat) : Nat → Hw
  | 0 => h
  | n + 1 => (h.drawCell id).drawCells id n

/-- The express notices of a frame end, at one egress or everywhere (R129). -/
def Hw.dropNotice (h : Hw) (id : Nat) (e : Option Nat) : Hw :=
  { h with tss := { h.tss with notice := (h.tss.notice.map (fun n =>
      (n.1, if e = none ∨ e = some n.1 then n.2.filter (fun x => x.1 != id) else n.2))).filter (fun n => !n.2.isEmpty) } }

/-- Cells without their contents; the generation counts stay, which only a device reset clears (R45). -/
def emptyCells (m : Kv BCell) : Kv BCell := m.map (fun c => (c.1, ⟨c.2.gen, []⟩))

/-- Forget a frame whose references are all released: its cells return to the free list, unscrubbed (R41, R46), and its
account is credited. The descriptor of a frame still arriving stays, marked dead, until its tail. -/
def Hw.freeFrame (h : Hw) (f : Frame) : Hw :=
  let h := (h.dropNotice f.id none).onSwc (fun s => { s with
    touched := f.cells.foldl insertNew s.touched,
    frames := if f.tail then s.frames.filter (fun x => x.id != f.id)
      else s.frames.map (fun x => if x.id == f.id then { x with cells := [], copies := [], dead := true } else x) })
  h.uncharge f.quota f.acct f.cells.length

/-- An egress releases its reference; at the last one the cells return to the free list (R41). -/
def Hw.release (h : Hw) (id egress : Nat) : Hw :=
  match h.frame? id with
  | none => h
  | some f =>
    let cs := f.copies.filter (fun c => c.egress != egress)
    let h := (h.dropNotice id (some egress)).onFrame id (fun x => { x with copies := cs })
    if cs.isEmpty && f.looked then h.freeFrame { f with copies := [] } else h

/-! ### Samples (R75 to R77) -/

/-- The next gap of a sampler: N in counter mode, a free value from 1 to 2N − 1 in random mode (R75). -/
def Hw.smpGap (h : Hw) (s : Nat) : Nat × Hw :=
  let n := h.fld (Reg.SWC_SMP_CFG s) Fld.SWC_SMP_CFG_N
  if h.flag (Reg.SWC_SMP_CFG s) Fld.SWC_SMP_CFG_MODE then (h.draw % (2 * n - 1) + 1, h.drawn) else (n, h)

/-- The owner a service port is assigned to, owner 1 if none (R23). -/
def Hw.svcOwner (h : Hw) (port : Nat) : Nat := kvGetD h.fwd.svcOwner port 1

/-- The 32 bytes of metadata of a sample (R76; the order of the items is DESIGN CHOICE, log entry 13). -/
def sampleMeta (f : Frame) (s : Nat) : List Byte :=
  toBe 4 (stampNs f.stamps 0 % 2 ^ 32) ++ toBe 1 f.ingress ++ toBe 1 f.cls ++ toBe 2 f.len
    ++ toBe 4 f.dests ++ toBe 2 f.owner ++ toBe 1 s
    ++ toBe 1 (match f.bad with | none => 0 | some c => 128 + c) ++ List.replicate 16 0

/-- The queue a sampler's copies go to (R76). -/
def Hw.smpQueue (h : Hw) (s : Nat) : Nat := if h.flag (Reg.SWC_SMP_CFG s) Fld.SWC_SMP_CFG_DEST then 14877 else 14876

/-- A sampler's loss record is due: none went to queue 14,878 within the last millisecond, and the queue has room (R77). -/
def Hw.lossDue (h : Hw) (s : Nat) : Bool :=
  (match kvGet h.swc.smpLoss s with | some t => decide (t + 500000 ≤ h.clk) | none => true) &&
  !decide (Config.queueMore 14878 < h.swc.lossQ.length)

/-- A sample is not taken: counted, with at most one loss record per sampler and millisecond (R77). -/
def Hw.skipSample (h : Hw) (s : Nat) : Hw :=
  let h := h.inc Reg.SWC_SAMPLE_SKIP
  if h.lossDue s then
    h.onSwc (fun x => { x with smpLoss := kvPut x.smpLoss s h.clk, lossQ := x.lossQ ++ [(h.clk, s)] })
  else h

/-- The 32 bytes of a loss record: the sampler's number, big-endian, in the last bytes (R77; DESIGN CHOICE, log entry 13). -/
def lossRecord (s : Nat) : List Byte := toBe 32 s

/-- Take or skip the sample of a frame that a sampler selects: the reserve has 256 cells, the queue may be full (R77). The copy is
written to its reserve cell under the key of P29's owner (R76). -/
def Hw.takeSample (h : Hw) (f : Frame) (bytes : List Byte) (s : Nat) : Hw :=
  let q := h.smpQueue s
  let o := h.svcOwner 29
  let slot := kvGetD h.own.keySel o 0
  let full := decide (256 ≤ h.swc.samples.length) ||
    decide (Config.queueMore q < (h.swc.samples.filter (fun x => x.queue == q)).length)
  match (if full then none else h.pickCell none) with
  | none => h.skipSample s
  | some c =>
    let d := sampleMeta f s ++ bytes.take 128
    let h := (h.drawn.inc (Reg.SWC_SMP_COUNT s)).onSwc (fun x => { x with
      cells := kvPut x.cells c ⟨h.cellGen c + 1, (kvGetD x.cells c ⟨0, []⟩).data⟩, touched := insertNew x.touched c })
    (h.writeCell o slot c d).onSwc (fun x => { x with samples := x.samples ++ [⟨s, q, o, slot, c, d.length, h.clk⟩] })

/-- The bytes of a sample, decrypted; none once its key is destroyed. -/
def Hw.sampleBytes (h : Hw) (x : Sample) : Option (List Byte) :=
  (h.basinKey? x.owner x.slot).map (fun k =>
    let c := kvGetD h.swc.cells x.cell ⟨0, []⟩
    (cellCrypt k h.sec.nonce c.gen x.cell c.data).take x.len)

/-- A sample leaves the reserve: its cell is free again. -/
def Hw.dropSample (h : Hw) (c : Nat) : Hw :=
  h.onSwc (fun x => { x with samples := x.samples.filter (fun y => y.cell != c), touched := insertNew x.touched c })

/-- A sampler sees one frame of its point: it counts down and takes the frame at the end of its gap (R75). -/
def Hw.samplerSees (h : Hw) (f : Frame) (bytes : List Byte) (s : Nat) : Hw :=
  let left := match kvGet h.swc.smpCount s with
    | some k => (k, h)
    | none => h.smpGap s
  let h := left.2
  if left.1 ≤ 1 then
    let g := h.smpGap s
    let h := g.2.onSwc (fun x => { x with smpCount := kvPut x.smpCount s g.1 })
    h.takeSample f bytes s
  else h.onSwc (fun x => { x with smpCount := kvPut x.smpCount s (left.1 - 1) })

/-- The samplers a frame passes: ingress port, each egress port, winning ACL rule; a sampler with N = 0 is off. -/
def Hw.samplersOf (h : Hw) (f : Frame) : List Nat :=
  (List.range 64).filter (fun s =>
    let p := h.rn (Reg.SWC_SMP_POINT s)
    let i := getF p Fld.SWC_SMP_POINT_INDEX
    h.fld (Reg.SWC_SMP_CFG s) Fld.SWC_SMP_CFG_N != 0 &&
    match getF p Fld.SWC_SMP_POINT_TYPE with
    | 0 => i == f.ingress
    | 1 => f.dests.testBit i
    | 2 => f.acl == some i
    | _ => false)

/-- Run the samplers on a frame that has been looked up and has its tail (R76). -/
def Hw.sampleFrame (h : Hw) (f : Frame) (bytes : List Byte) : Hw :=
  if h.flag Reg.SWC_CFG Fld.SWC_CFG_SAMPLE_EN then
    (h.samplersOf f).foldl (fun a s => a.samplerSees f bytes s) h
  else h

/-! ### Readings the registers give of the Basin -/

/-- SWC_FREE_CELLS: cells on the free list, sample reserve excluded. -/
def Hw.freeCells (h : Hw) : Nat :=
  if h.flag Reg.SWC_STATUS Fld.SWC_STATUS_READY then
    ((List.range 16).filter h.groupOn).length * 8192
      - h.heldCells.length - h.swc.retired.length - h.swc.leaked.length - 256
  else 0

/-- SWC_VOQ_DEPTH: cells of the frames in a VOQ not yet granted to its egress (R30). -/
def Hw.voqDepth (h : Hw) (v : Nat) : Nat :=
  ((h.swc.frames.filter (fun f => f.ingress == v / 256 && f.cls == v % 8 &&
    f.copies.any (fun c => c.egress == v / 8 % 32 && c.st == CopyState.waiting))).map (fun f => f.cells.length)).sum

end Sys2Proof.Machine
end

