-- ==== Sys2Proof/Machine/Lookup.lean ====
section
/-!
DEFINITION. The pipeline lookup (R84, R85): table searches, ACL, the Sluice and policers (R133 to R136), replication
and elimination (R137), and the outcome it gives a frame.
-/
namespace Sys2Proof.Machine

/-- A fabric port's frames are looked up in pipeline B (R25, R26). -/
def pipeB (port : Nat) : Bool :=
  decide (12 ≤ port && port < 24) || port == 25 || port == 27 || port == 29 || port == 31

/-- Put back what the writes of one learning message replaced; the message lists its latest write first. -/
def undoMsg (m : Kv EmEntry) (msg : List (Nat × Option EmEntry)) : Kv EmEntry :=
  msg.foldl (fun m w => match w.2 with | none => kvDel m w.1 | some e => kvPut m w.1 e) m

/-- The exact-match table as a pipeline's replica shows it: learning messages still on the way are undone (R27). -/
def Hw.replica (h : Hw) (b : Bool) : Kv EmEntry :=
  (if b then h.fwd.lagB else h.fwd.lagA).foldr (fun msg m => undoMsg m msg.2) h.fwd.em

/-- The entry of a type and key in a replica, its position first; an uncorrectable entry is absent (R114). -/
def Hw.emFind (h : Hw) (b : Bool) (type key : Nat) : Option (Nat × EmEntry) :=
  (h.replica b).find? (fun e => e.2.type == type && e.2.key == key && !h.fwd.badUe.contains (0, e.1, b))

/-- The stream entry of a frame: type 3 for AVTP, then type 1, then type 2 (R84). -/
def Hw.streamEntry (h : Hw) (b : Bool) (d : Hdr) (vid : Nat) : Option EmEntry :=
  let avtp := if d.etype = 0x22F0 then h.emFind b 3 (avtpStreamId d.body) else none
  match avtp with
  | some e => some e.2
  | none =>
    match h.emFind b 1 (keyOf d.da vid) with
    | some e => some e.2
    | none => (h.emFind b 2 (keyOf d.sa vid)).map (·.2)

/-- The VLAN entry of a VID; one never written has a mask the spec does not state (DESIGN CHOICE, log entry 14). -/
def Hw.vlanOf (h : Hw) (vid : Nat) : VlanEntry :=
  (kvGet h.fwd.vlan vid).getD ⟨(Config.unwrittenVlan vid).toNat, 0, false, 0, 0⟩

/-- The VID of a frame: its tag's, or its port's default (R84); VID 1 before any PORT_SET (DESIGN CHOICE, log entry 14). -/
def Hw.vidOf (h : Hw) (port : Nat) (d : Hdr) : Nat := if d.tagged then d.vid else kvGetD h.fwd.defVid port 1

/-- The PCP of a frame: its outer tag's, or the port's DEFAULT_PCP (R118). -/
def Hw.pcpOf (h : Hw) (port : Nat) (d : Hdr) : Nat :=
  if d.tagged then d.pcp else h.fld (Reg.TSS_PCP_MAP port) Fld.TSS_PCP_MAP_DEFAULT_PCP

/-- The class the port's map gives a PCP (R118). -/
def Hw.mapClass (h : Hw) (port pcp : Nat) : Nat :=
  bits (h.fld (Reg.TSS_PCP_MAP port) Fld.TSS_PCP_MAP_MAP) (3 * pcp + 2) (3 * pcp)

/-- Port mask of a multicast group. -/
def Hw.groupMask (h : Hw) (g : Nat) : Nat := kvGetD h.fwd.mcast g 0

/-- The lowest-indexed LPM entry that matches a key, with its index (R110). -/
def Hw.lpmFind (h : Hw) (b : Bool) (key : Nat) : Option (Nat × LpmEntry) :=
  h.fwd.lpm.find? (fun e => (key &&& e.2.mask) == (e.2.value &&& e.2.mask) && !h.fwd.badUe.contains (1, e.1, b))

/-- The ACL entries that match a key, by index. -/
def Hw.aclHits (h : Hw) (b : Bool) (key : Nat) : List (Nat × AclEntry) :=
  h.fwd.acl.filter (fun e => (key &&& e.2.mask) == (e.2.value &&& e.2.mask) && !h.fwd.badUe.contains (2, e.1, b))

/-- The winner of a set of ACL matches: highest priority, lowest index (R113). -/
def aclWinner (l : List (Nat × AclEntry)) : Option (Nat × AclEntry) :=
  l.foldl (fun w e => match w with
    | none => some e
    | some x => if x.2.prio < e.2.prio then some e else some x) none

/-- Another entry of the winner's priority matched too: the TIE flag of the match record (R113). -/
def aclTie (l : List (Nat × AclEntry)) : Bool :=
  match aclWinner l with
  | none => false
  | some w => l.any (fun e => e.2.prio == w.2.prio && e.1 != w.1)

/-- Count the winning entry's hit and a tie with another entry of its priority (R113). -/
def Hw.aclCount (h : Hw) (l : List (Nat × AclEntry)) : Hw :=
  match aclWinner l with
  | none => h
  | some w =>
    let h := h.inc (Reg.FWD_ACL_HIT w.1)
    match l.filter (fun e => e.2.prio == w.2.prio && e.1 != w.1) with
    | [] => h
    | o :: _ =>
      let h := h.inc Reg.FWD_ACL_TIE
      (h.setFld Reg.FWD_ACL_TIE_LAST Fld.FWD_ACL_TIE_LAST_WINNER w.1).setFld Reg.FWD_ACL_TIE_LAST
        Fld.FWD_ACL_TIE_LAST_OTHER o.1

/-! ### ECC of table entries (R114) -/

/-- Entry errors a lookup met: table, index, uncorrectable. -/
def Hw.tableEcc (h : Hw) (b : Bool) (l : List (Nat × Nat × Bool)) : Hw :=
  l.foldl (fun a e =>
    if e.2.2 then
      let a := (a.inc (Reg.FWD_ECC_UE e.1)).post 1 0x0405 e.1 e.2.1 (if b then 1 else 0)
      { a with fwd := { a.fwd with badUe := (e.1, e.2.1, b) :: a.fwd.badUe.filter (fun x => x != (e.1, e.2.1, b)) } }
    else a.inc (Reg.FWD_ECC_CE e.1)) h

/-- An uncorrectable LPM or ACL entry whose position lies ahead of every match found. -/
def Hw.ueAhead (h : Hw) (b : Bool) (t : Nat) (best : Option Nat) : Bool :=
  h.fwd.badUe.any (fun x => x.1 == t && x.2.2 == b && (match best with | none => true | some i => decide (x.2.1 < i)))

/-! ### Weir buckets (R131 to R134) -/

/-- A token unit: a rate of 1 kb/s adds one unit each CK_FAB cycle of 2 ns, exactly. -/
def tokenUnit : Nat := 4000000

/-- Tokens of a bucket now, in units: refilled since it was last touched, never above BURST (R132). -/
def Hw.tokens (h : Hw) (b : Nat) : Nat :=
  let t := kvGetD h.tss.tokens b (0, h.clk)
  min (t.1 + h.fld (Reg.TSS_WEIR_RATE b) Fld.TSS_WEIR_RATE_RATE * (h.clk - t.2))
    (h.fld (Reg.TSS_WEIR_BURST b) Fld.TSS_WEIR_BURST_BURST * tokenUnit)

/-- Update the scheduling unit. -/
def Hw.onTss (h : Hw) (f : Tss → Tss) : Hw := { h with tss := f h.tss }

/-- Set a bucket's tokens. -/
def Hw.setTokens (h : Hw) (b n : Nat) : Hw := h.onTss (fun t => { t with tokens := kvPut t.tokens b (n, h.clk) })

/-- Deduct bytes; a refill of the same cycle comes first (R132). -/
def Hw.weirTake (h : Hw) (b bytes : Nat) : Hw := h.setTokens b (h.tokens b - bytes * tokenUnit)

/-- Give bytes back. -/
def Hw.weirGive (h : Hw) (b bytes : Nat) : Hw :=
  h.setTokens b (min (h.tokens b + bytes * tokenUnit) (h.fld (Reg.TSS_WEIR_BURST b) Fld.TSS_WEIR_BURST_BURST * tokenUnit))

/-- A bucket is enabled. -/
def Hw.weirOn (h : Hw) (b : Nat) : Bool := h.flag (Reg.TSS_WEIR_RATE b) Fld.TSS_WEIR_RATE_EN

/-! ### The Sluice (R135) -/

/-- What the Sluice and policer make of a frame of a stream: passed, its class, what its charge may give back. -/
structure Sluiced where
  pass   : Bool
  cls    : Nat
  refund : List (Nat × Nat × Nat)
  dei    : Bool

/-- A stream policer's judgement of `len` counted bytes (R133). -/
def Hw.police (h : Hw) (s cls len : Nat) (known : Bool) : Sluiced × Hw :=
  let b := 768 + s
  if len * tokenUnit ≤ h.tokens b then
    (⟨true, cls, if known then [] else [(0, b, len)], false⟩, h.weirTake b len)
  else
    let h := h.inc (Reg.TSS_WEIR_RED b)
    let h := if h.flag (Reg.TSS_WEIR_RATE b) Fld.TSS_WEIR_RATE_MARK_ALL
      then h.setFld (Reg.TSS_SLUICE_FILTER s) Fld.TSS_SLUICE_FILTER_BLOCKED 1 else h
    match h.fld (Reg.TSS_WEIR_RATE b) Fld.TSS_WEIR_RATE_ACTION with
    | 0 => (⟨false, cls, [], false⟩, h)
    | 1 => (⟨true, h.fld (Reg.TSS_WEIR_RATE b) Fld.TSS_WEIR_RATE_REMAP_CLASS, [], true⟩, h)
    | _ => (⟨true, cls, [], false⟩, h)

/-- The gate state word of a Sluice gate: bit 31 open, bit 30 IPV valid, bits 29:27 IPV; a gate without a list is open,
and one held closed is closed (R135, R136). -/
def Hw.sluiceOpen (h : Hw) (g : Nat) : Bool :=
  if h.flag (Reg.TSS_SLUICE_GATE_CTRL g) Fld.TSS_SLUICE_GATE_CTRL_CLOSED_INVALID then false
  else if h.flag (Reg.TSS_SLUICE_GATE_CTRL g) Fld.TSS_SLUICE_GATE_CTRL_EN then bit (kvGetD h.tss.ipv g (2 ^ 31)) 31
  else true

/-- The internal priority value of a gate's entry in force. -/
def Hw.sluiceIpv (h : Hw) (g : Nat) : Option Nat :=
  let w := kvGetD h.tss.ipv g (2 ^ 31)
  if h.flag (Reg.TSS_SLUICE_GATE_CTRL g) Fld.TSS_SLUICE_GATE_CTRL_EN && bit w 30 then some (bits w 29 27) else none

/-- A frame of stream `s` at the Sluice: the checks of R135 in order. `len` is its counted length when the tail has
arrived. -/
def Hw.sluice (h : Hw) (s cls : Nat) (len : Option Nat) : Sluiced × Hw :=
  let r := Reg.TSS_SLUICE_FILTER s
  if !h.flag r Fld.TSS_SLUICE_FILTER_EN then (⟨true, cls, [], false⟩, h)
  else if h.flag r Fld.TSS_SLUICE_FILTER_BLOCKED then
    (⟨false, cls, [], false⟩, (h.inc Reg.TSS_SLUICE_BLOCKED_DROP).inc (Reg.TSS_SLUICE_DROP s))
  else
    let sdu := h.fld r Fld.TSS_SLUICE_FILTER_MAX_SDU
    if (match len with | some n => decide (sdu < n) | none => false) then
      let h := (h.inc Reg.TSS_SLUICE_SDU_DROP).inc (Reg.TSS_SLUICE_DROP s)
      (⟨false, cls, [], false⟩,
        if h.flag r Fld.TSS_SLUICE_FILTER_OVERSIZE_BLOCK then h.setFld r Fld.TSS_SLUICE_FILTER_BLOCKED 1 else h)
    else
      let g := h.fld r Fld.TSS_SLUICE_FILTER_GATE
      let gated := h.flag r Fld.TSS_SLUICE_FILTER_GATE_EN
      if gated && !h.sluiceOpen g then
        let h := (h.inc Reg.TSS_SLUICE_GATE_DROP).inc (Reg.TSS_SLUICE_DROP s)
        (⟨false, cls, [], false⟩,
          if h.flag (Reg.TSS_SLUICE_GATE_CTRL g) Fld.TSS_SLUICE_GATE_CTRL_INVALID_CLOSE
          then h.setFld (Reg.TSS_SLUICE_GATE_CTRL g) Fld.TSS_SLUICE_GATE_CTRL_CLOSED_INVALID 1 else h)
      else
        let cls := if gated then (h.sluiceIpv g).getD cls else cls
        if h.flag r Fld.TSS_SLUICE_FILTER_METER_EN then
          h.police s cls (len.getD sdu) len.isSome
        else (⟨true, cls, [], false⟩, h)

/-! ### Replication and elimination (R137, R138) -/

/-- The pair whose ROLE and handle concern a stream: replicate on its input, eliminate on a member. -/
def Hw.frerPair (h : Hw) (s : Nat) : Option Nat :=
  (List.range 64).find? (fun n =>
    h.flag (Reg.TSS_FRER_CFG n) Fld.TSS_FRER_CFG_EN &&
    (if h.flag (Reg.TSS_FRER_CFG n) Fld.TSS_FRER_CFG_ROLE then
      h.fld (Reg.TSS_FRER_HANDLE0 n) Fld.TSS_FRER_HANDLE0_INPUT == s
    else h.fld (Reg.TSS_FRER_HANDLE0 n) Fld.TSS_FRER_HANDLE0_MEMBER_A == s ||
      h.fld (Reg.TSS_FRER_HANDLE1 n) Fld.TSS_FRER_HANDLE1_MEMBER_B == s))

/-- Recovery state of a pair; before any frame it takes any sequence number. -/
def Hw.frerOf (h : Hw) (n : Nat) : Frer := kvGetD h.tss.frer n ⟨0, 0, 0, true, 0, 0⟩

/-- Set the recovery state of a pair. -/
def Hw.setFrer (h : Hw) (n : Nat) (f : Frer) : Hw := h.onTss (fun t => { t with frer := kvPut t.frer n f })

/-- A frame passes elimination: counted. -/
def Hw.frerPass (h : Hw) (n : Nat) (f : Frer) : Hw :=
  (h.setFrer n { f with passed := f.passed + 1 }).inc (Reg.TSS_FRER_PASSED n)

/-- A frame is discarded by elimination: counted. -/
def Hw.frerDiscard (h : Hw) (n : Nat) (f : Frer) : Hw :=
  (h.setFrer n { f with discarded := f.discarded + 1 }).inc (Reg.TSS_FRER_DISCARDED n)

/-- Vector recovery of one sequence number with a history of HISTORY frames: passed or not (R137). Bit `i` of the history
is the number `i` below the highest one passed. -/
def Hw.vectorRecover (h : Hw) (n seq : Nat) : Bool × Hw :=
  let f := h.frerOf n
  let len := h.fld (Reg.TSS_FRER_CFG n) Fld.TSS_FRER_CFG_HISTORY
  if f.takeAny then (true, h.frerPass n { f with recSeq := seq, history := 1, takeAny := false })
  else
    let up := (seq + 65536 - f.recSeq) % 65536
    let down := (f.recSeq + 65536 - seq) % 65536
    if 0 < up && up < len then
      let h := if up = 1 then h else h.inc (Reg.TSS_FRER_OOO n)
      (true, h.frerPass n { f with recSeq := seq, history := (f.history * 2 ^ up + 1) % 2 ^ len })
    else if down < len then
      if f.history.testBit down then (false, h.frerDiscard n f)
      else
        let h := h.inc (Reg.TSS_FRER_OOO n)
        (true, h.frerPass n { f with history := f.history ||| 2 ^ down })
    else (false, (h.inc (Reg.TSS_FRER_ROGUE n)).frerDiscard n f)

/-- A member frame at elimination: FORCE restricts it to one member, then vector recovery (R137, R138). -/
def Hw.eliminate (h : Hw) (n s seq : Nat) : Bool × Hw :=
  let isA := h.fld (Reg.TSS_FRER_HANDLE0 n) Fld.TSS_FRER_HANDLE0_MEMBER_A == s
  match h.fld (Reg.TSS_FRER_CFG n) Fld.TSS_FRER_CFG_FORCE with
  | 1 => if isA then h.vectorRecover n seq else (false, h.frerDiscard n (h.frerOf n))
  | 2 => if isA then (false, h.frerDiscard n (h.frerOf n)) else h.vectorRecover n seq
  | _ => h.vectorRecover n seq

/-- The destination set of a stream handle: its stream entry's multicast group. -/
def Hw.streamDests (h : Hw) (s : Nat) : Nat :=
  match h.fwd.em.find? (fun e => e.2.type != 0 && e.2.stream == s) with
  | none => 0
  | some e => match e.2.group with | some g => h.groupMask g | none => 0

/-! ### PTP (R283) -/

/-- A PTP message in a frame: offset of its header in the frame, messageType, majorSdoId, domain, transport
(0 Ethernet, 1 UDP over IPv4, 2 UDP over IPv6). -/
structure PtpMsg where
  at_   : Nat
  type  : Nat
  sdo   : Nat
  dom   : Nat
  via   : Nat
deriving DecidableEq, Repr

/-- Read a PTP header at an offset of a frame. -/
def ptpAt (b : List Byte) (o via : Nat) : PtpMsg :=
  let w := be (sub b o 1)
  ⟨o, w % 16, w / 16, be (sub b (o + 4) 1), via⟩

/-- The PTP message a frame carries, if any. -/
def ptpOf (b : List Byte) : Option PtpMsg :=
  let d := parseHdr b
  let l3 := d.etypeAt + 2
  if d.etype = 0x88F7 then some (ptpAt b l3 0)
  else if d.etype = 0x0800 && be (sub d.body 9 1) = 17 then
    let l4 := be (sub d.body 0 1) % 16 * 4
    let dp := be (sub d.body (l4 + 2) 2)
    if dp = 319 || dp = 320 then some (ptpAt b (l3 + l4 + 8) 1) else none
  else if d.etype = 0x86DD && be (sub d.body 6 1) = 17 then
    let dp := be (sub d.body 42 2)
    if dp = 319 || dp = 320 then some (ptpAt b (l3 + 48) 2) else none
  else none

/-- The first enabled domain entry that a message matches (R283). -/
def Hw.ptpDomain (h : Hw) (m : PtpMsg) : Option Nat :=
  (List.range 8).find? (fun d =>
    let r := Reg.TIME_DOM_CFG d
    h.flag r Fld.TIME_DOM_CFG_EN && h.fld r Fld.TIME_DOM_CFG_SDO == m.sdo && h.fld r Fld.TIME_DOM_CFG_DOMAIN == m.dom &&
    (match m.via with
      | 0 => h.flag r Fld.TIME_DOM_CFG_L2
      | 1 => h.flag r Fld.TIME_DOM_CFG_UDP4
      | _ => h.flag r Fld.TIME_DOM_CFG_UDP6))

/-- Sync, Delay_Req, Pdelay_Req and Pdelay_Resp are event messages. -/
def PtpMsg.isEvent (m : PtpMsg) : Bool := decide (m.type < 4)

/-- Pdelay_Req, Pdelay_Resp and Pdelay_Resp_Follow_Up. -/
def PtpMsg.isPdelay (m : PtpMsg) : Bool := m.type == 2 || m.type == 3 || m.type == 10

/-- Where R283 takes a PTP message instead of forwarding it: the destination port and receiving owner. -/
def Hw.ptpTaken (h : Hw) (b : List Byte) : Option (Nat × Option Nat) :=
  match ptpOf b with
  | none => none
  | some m =>
    match h.ptpDomain m with
    | none => none
    | some d =>
      match h.fld (Reg.TIME_DOM_CFG d) Fld.TIME_DOM_CFG_MODE with
      | 0 => if m.isEvent then some (26, none) else none
      | 1 => if m.isEvent then
          (match kvGet h.tim.domOwner d with
            | some o => some (24, some o)
            | none => some (26, none)) else none
      | 2 => none
      | _ => if m.isPdelay then some (26, none) else none

/-! ### The outcome (R85) -/

/-- What the tables say of a frame, before the Sluice: drop, destinations, class, stream. -/
structure Looked where
  drop   : Bool
  dests  : Nat
  cls    : Nat
  entry  : Option EmEntry
  stream : Option Nat
  acl    : Option Nat
  edit   : Edit
  dest   : Option Nat
  untag  : Nat
  tie    : Bool

/-- An edit that changes nothing. -/
def noEdit : Edit := ⟨none, none, none, false⟩

/-- A port is a cascade link. -/
def Hw.isCascade (h : Hw) (port : Nat) : Bool := decide (port < 4) && h.flag (Reg.FWD_PORT_CFG port) Fld.FWD_PORT_CFG_CASCADE

/-- A legitimate 0x88B5 frame: on a port configured as a cascade link whose member is authenticated (R33). -/
def Hw.cascadeOk (h : Hw) (port : Nat) : Bool :=
  decide (port < 4) && h.flag (Reg.FWD_PORT_CFG port) Fld.FWD_PORT_CFG_CASCADE &&
  (List.range 4).any (fun k => h.rn (Reg.FWD_CASCADE_PATH k) == 2 ^ 31 + port &&
    (h.fld Reg.GLB_TOPOLOGY Fld.GLB_TOPOLOGY_MEMBERS_SEEN).testBit k)

/-- The table lookup of a frame's header bytes on an ingress port (R84, R85), counting drops and ACL wins. A frame outside its
VLAN still meets the ACL, whose deny precedes it; it counts in one of the two. The ACL's handle serves a frame that no stream
entry gives one; a reserved address meets neither stream identification nor the ACL; a routed frame keeps its edit when another
source gives its destinations (log entry 150). -/
def Hw.tableLookup (h : Hw) (port : Nat) (bytes : List Byte) : Looked × Hw :=
  let b := pipeB port
  let d := parseHdr bytes
  let vid := h.vidOf port d
  let pcp := h.pcpOf port d
  let v := h.vlanOf vid
  let mapped := h.mapClass port pcp
  let drop (h : Hw) : Looked × Hw := (⟨true, 0, mapped, none, none, none, noEdit, none, 0, false⟩, h)
  if h.fwd.badUe.contains (3, vid, b) then drop (h.inc Reg.FWD_UE_DROP)
  else if d.etype = 0x88B5 && !v.member.testBit port then drop (h.inc Reg.FWD_VLAN_DROP)
  else if d.etype = 0x88B5 && !h.cascadeOk port then drop (h.inc Reg.SWC_CASCADE_REJECT)
  else if isReserved d.da && !v.member.testBit port then drop (h.inc Reg.FWD_VLAN_DROP)
  else if d.etype = 0x88B5 || isReserved d.da then
    (⟨false, 2 ^ 26, mapped, none, none, none, noEdit, none, 0, false⟩, h)
  else
    let se := h.streamEntry b d vid
    let fe := (h.emFind b 0 (keyOf d.da vid)).map (·.2)
    let handle := se.map (·.stream)
    -- routing
    let routed := h.flag Reg.FWD_CFG Fld.FWD_CFG_LPM_EN && v.router && d.da == (Config.routerMac v.rmac).toNat
      && (d.etype == 0x0800 || d.etype == 0x86DD)
    let lp := if routed then h.lpmFind b (lpmKey d v.vrf) else none
    let lpmBad := routed && h.ueAhead b 1 (lp.map (·.1))
    let nh := match lp with | some e => kvGet h.fwd.nhop e.2.nhop | none => none
    let nhBad := match lp with | some e => h.fwd.badUe.contains (5, e.2.nhop, b) | none => false
    -- ACL
    let aclOn := h.flag Reg.FWD_CFG Fld.FWD_CFG_ACL_EN
    let hits := if aclOn then h.aclHits b (aclKey d port vid pcp handle) else []
    let win := aclWinner hits
    let aclBad := aclOn && h.ueAhead b 2 (hits.head?.map (·.1))
    let act : Option AclEntry := win.map (·.2)
    let verb : Option AclAct := act.map (fun a => a.act)
    -- destination set, earliest source first
    let flood := v.member &&& (0xFFFFFFFF - 2 ^ port)
    let groupOf (e : Option EmEntry) : Option Nat := match e with | some x => x.group | none => none
    let dst : Nat × Option Nat :=
      match verb with
      | some (.toPort p) => (2 ^ p, none)
      | some (.toGroup g) => (h.groupMask g, some g)
      | _ =>
        match groupOf se with
        | some g => (h.groupMask g, some g)
        | none =>
          if routed then (match nh with | some n => (2 ^ n.port, none) | none => (2 ^ 26, none))
          else match fe with
            | some e => (match e.group with | some g => (h.groupMask g, some g) | none => (2 ^ e.port, none))
            | none => (flood, none)
    let grpBad := match dst.2 with | some g => h.fwd.badUe.contains (4, g, b) | none => false
    let taken := h.ptpTaken bytes
    let edit : Edit := match nh, routed with
      | some n, true => ⟨some n.mac, some n.vid, none, false⟩
      | _, _ => noEdit
    let untag := match nh, routed with
      | some n, true => (h.vlanOf n.vid).untag
      | _, _ => v.untag
    let cls := match act with
      | some a => (match a.setCls with | some c => c | none => (match se with | some e => e.cls.getD mapped | none => mapped))
      | none => (match se with | some e => e.cls.getD mapped | none => mapped)
    let stream := match handle with | some s => some s | none => (match act with | some a => a.setStream | none => none)
    let recv := match taken with | some t => t.2 | none => (match fe with | some e => e.owner | none => none)
    let back := if h.isCascade port then 2 ^ port else 0
    let dests := match taken with | some t => 2 ^ t.1 | none => dst.1 &&& (0xFFFFFFFF - back)
    let outside := !v.member.testBit port
    let out (drop : Bool) (d : Nat) : Looked := ⟨drop, d, cls, se, stream, win.map (·.1), edit, recv, untag, aclTie hits⟩
    if aclBad || (!outside && (lpmBad || nhBad || grpBad)) then
      ({ out true 0 with acl := none, tie := false }, h.inc Reg.FWD_UE_DROP)
    else
      let h := h.aclCount hits
      if verb == some .deny then (out true 0, h.inc Reg.FWD_ACL_DENY)
      else if outside then (out true 0, h.inc Reg.FWD_VLAN_DROP)
      else (out false dests, h)

end Sys2Proof.Machine
end

