-- ==== Sys2Proof/Machine/Sched.lean ====
section
/-!
DEFINITION. The egress scheduler and the fabric arbiter (R68 to R71, R118 to R130): port rates, gates, eligibility,
class selection, grants.
-/
namespace Sys2Proof.Machine

/-- The port rate in kb/s of a RATE code (MAC_STATUS.RATE). -/
def rateKbps (code : Nat) : Nat :=
  [0, 10000, 100000, 1000000, 2500000, 5000000, 10000000, 25000000].getD code 0

/-- The port rate of a MAC while its link is up (R179). -/
def Hw.portRate (h : Hw) (mac : Nat) : Nat := rateKbps (h.fld (Reg.MAC_STATUS mac) Fld.MAC_STATUS_RATE)

/-- MACsec protects a MAC's traffic. -/
def Hw.macsecOn (h : Hw) (mac : Nat) : Bool :=
  decide (mac < 20) && h.flag (Reg.MAC_SEC_CFG mac) Fld.MAC_SEC_CFG_EN

/-! ### Gate lists (R122, R123) -/

/-- Gate states of an egress entry. -/
def gatesOf (e : Nat) : Nat := bits e 31 24

/-- The segments of one cycle: start, end, word. Entries beyond the cycle are cut; the last lasts to the cycle end. -/
def segments (dur : Nat → Nat) (cycle : Nat) : Nat → List Nat → List (Nat × Nat × Nat)
  | _, [] => []
  | t, [e] => if t < cycle then [(t, cycle, e)] else []
  | t, e :: es =>
    if t < cycle then (t, min (t + dur e) cycle, e) :: segments dur cycle (t + dur e) es else []

/-- The interval of an egress entry in ns. -/
def egressDur (e : Nat) : Nat := bits e 21 0 * 8

/-- The interval of a Sluice entry in ns. -/
def sluiceDur (e : Nat) : Nat := bits e 26 0

/-- Time from `phase` until the gate of a class next closes, over two cycles; none if it never closes. -/
def untilClosed (segs : List (Nat × Nat × Nat)) (phase cls : Nat) : Option Nat :=
  match segs.find? (fun s => decide (phase < s.2.1) && !(gatesOf s.2.2).testBit cls) with
  | some s => some (s.1 - phase)
  | none => none

/-- The list in force of a MAC. -/
def Hw.listOf (h : Hw) (mac : Nat) : Option GateList :=
  kvGet h.tss.lists (mac * 2 + h.fld (Reg.TSS_GCL_CTRL mac) Fld.TSS_GCL_CTRL_BANK)

/-- The port's gate list is in force. -/
def Hw.gateEn (h : Hw) (e : Nat) : Bool :=
  decide (e < 24) && h.flag (Reg.TSS_PORT_CFG e) Fld.TSS_PORT_CFG_GATE_EN

/-- The gate of a class is open now (all gates are open without a list). -/
def Hw.gateOpen (h : Hw) (e c : Nat) : Bool := !h.gateEn e || (kvGetD h.tss.gates e 255).testBit c

/-- Two cycles of a list from its cycle start. -/
def twoCycles (l : GateList) : List (Nat × Nat × Nat) :=
  let one := segments egressDur l.cycle 0 l.entries
  one ++ one.map (fun s => (s.1 + l.cycle, s.2.1 + l.cycle, s.2.2))

/-- Nanoseconds since the start of the cycle of a list that instant `now` of its base lies in. -/
def GateList.phase (l : GateList) (now : Nat) : Nat := (now + l.cycle - l.base % l.cycle) % l.cycle

/-- The list in the bank not in use, while a switch to it is pending (R124). -/
def Hw.pendingList (h : Hw) (mac : Nat) : Option GateList :=
  if h.flag (Reg.TSS_GCL_CTRL mac) Fld.TSS_GCL_CTRL_PENDING || h.tss.pendOff.contains mac then
    kvGet h.tss.lists (mac * 2 + (1 - h.fld (Reg.TSS_GCL_CTRL mac) Fld.TSS_GCL_CTRL_BANK))
  else none

/-- From a last cycle start `start`, a cycle cut at S that would be shorter than EXT_NS is not begun (R124). -/
def tooShort (start s ext : Nat) : Bool := decide (start < s ∧ s - start < ext)

/-- Nanoseconds until a class's gate closes under the list in force and the one that follows it at S (R122, R124): a last cycle
that is not begun closes nothing, the entry before it lasting until S. -/
def Hw.closeAcross (h : Hw) (e c now : Nat) (l : GateList) : Option Nat :=
  let own := untilClosed (twoCycles l) (l.phase now) c
  match h.pendingList e with
  | none => own
  | some n =>
    let s := kvGetD h.tss.swOld e 0
    let last := s - 1 - l.phase (s - 1)
    let stop := if tooShort last s n.ext then last else s
    match own with
    | some t => if now + t < stop then some t
      else if h.tss.pendOff.contains e then none else (untilClosed (twoCycles n) 0 c).map (· + (s - now))
    | none => if h.tss.pendOff.contains e then none else (untilClosed (twoCycles n) 0 c).map (· + (s - now))

/-- The remaining open time of a class's gate in units of 2^-47 ns, none when it does not close (R122). After a step of the base
the entry in force holds until the first cycle start (R126). -/
def Hw.openTime (h : Hw) (e c : Nat) : Option Nat :=
  match h.listOf e with
  | none => none
  | some l =>
    let raw := h.tbRaw l.tb
    let now := raw / nsUnit
    let ns := if h.tss.restart.contains e then
        (untilClosed (twoCycles l) 0 c).map (· + (l.cycle - l.phase now) % l.cycle)
      else h.closeAcross e c now l
    ns.map (fun ns => ns * nsUnit - raw % nsUnit)

/-- A frame of `len` counted bytes fits the open time left (R122): wire time plus GUARD, converted at the base's rate.
A port whose link is down has no wire time: there the gate alone decides, and its queues drain (R67). -/
def Hw.fits (h : Hw) (e c len : Nat) : Bool :=
  if !h.gateEn e then true
  else if !h.gateOpen e c then false
  else if !h.linkUp e then true
  else match h.openTime e c, h.listOf e with
    | some g, some l =>
      let bytes := len + 20 + (if h.macsecOn e then 32 else 0)
      let guard := if c = 7 then 0 else l.guard * 8
      let rate := h.portRate e
      let a := ((2 ^ 48 : Int) + adjInt (h.adj l.tb)).toNat
      decide ((bytes * 8000000 + guard * rate) * a * nsUnit ≤ g * rate * 2 ^ 48)
    | _, _ => true

/-! ### Requests (R29, R68) -/

/-- MAXLEN of a class on an egress. -/
def Hw.maxLen (h : Hw) (e c : Nat) : Nat := h.fld (Reg.TSS_CLASS_MAXLEN (e * 8 + c)) Fld.TSS_CLASS_MAXLEN_MAXLEN

/-- Cut-through toward an egress is permitted: a MAC whose rate is at most the ingress rate, its class gate open (R29). -/
def Hw.cutOk (h : Hw) (f : Frame) (e : Nat) : Bool :=
  h.flag Reg.SWC_CFG Fld.SWC_CFG_CUT_THROUGH_EN && decide (f.ingress < 24) && decide (e < 24)
    && decide (h.portRate e ≤ h.portRate f.ingress) && h.gateOpen e f.cls && (h.linkUp e)

/-- The frame may be requested toward the egress: tail arrived and good, or cut-through (R68). -/
def Hw.requestable (h : Hw) (f : Frame) (e : Nat) : Bool :=
  f.looked && !f.dead && (if f.tail then f.bad.isNone else f.bad.isNone && h.cutOk f e)

/-- The copy of a frame at an egress waits. -/
def Frame.waitsAt (f : Frame) (e : Nat) : Bool := f.copies.any (fun c => c.egress == e && c.st == CopyState.waiting)

/-- The head of a VOQ: the first frame of the ingress and class whose copy waits at the egress. -/
def Hw.voqHead (h : Hw) (i e c : Nat) : Option Frame :=
  h.swc.frames.find? (fun f => f.ingress == i && f.cls == c && f.waitsAt e)

/-- The frame waits at the head of its VOQ for a receive ring whose pending list is full (R317). -/
def Hw.ringBlocked (h : Hw) (f : Frame) : Bool :=
  h.hdma.ring.any (fun r => r.2.head.any (fun p => p.frame == some f.id))

/-- The eligible VOQ heads of a class toward an egress (R68). -/
def Hw.requests (h : Hw) (e c : Nat) : List Frame :=
  (List.range 32).filterMap (fun i =>
    match h.voqHead i e c with
    | some f => if h.requestable f e && !(e == 24 && h.ringBlocked f) then some f else none
    | none => none)

/-- Age of an ARRIVAL in modular 32-bit arithmetic (R71). -/
def Hw.waited (h : Hw) (arrival : Nat) : Nat := (h.clk % 2 ^ 32 + 2 ^ 32 - arrival) % 2 ^ 32

/-- Distance of an index from a rotating pointer over `n` places: the next after the pointer comes first. -/
def rotDist (n ptr i : Nat) : Nat := (i + n - ptr % n - 1) % n

/-- The better of two requests by age, then by pointer distance. -/
def olderOf (age dist : Nat → Nat) (a b : Nat) : Nat :=
  if age a < age b then b else if age b < age a then a else if dist b < dist a then b else a

/-- The request an egress offers a grant to: earliest ARRIVAL, then the rotating pointer of the egress and class. -/
def Hw.oldest (h : Hw) (e c : Nat) : Option Frame :=
  let ptr := kvGetD h.swc.rotEgress (e * 8 + c) 31
  (h.requests e c).foldl (fun w f => match w with
    | none => some f
    | some g =>
      if h.waited g.arrival < h.waited f.arrival then some f
      else if h.waited f.arrival < h.waited g.arrival then some g
      else if rotDist 32 ptr f.ingress < rotDist 32 ptr g.ingress then some f else some g) none

/-- The length a shaper and DWRR charge a frame: its counted length, MAXLEN while it is still arriving (R121, R133). -/
def Hw.chargeLen (h : Hw) (f : Frame) (e : Nat) : Nat := if f.tail then f.len else h.maxLen e f.cls

/-! ### Preemption (R127 to R129) -/

/-- Preemption is in operation on a port. -/
def Hw.preemptOn (h : Hw) (e : Nat) : Bool :=
  decide (e < 20) && h.flag (Reg.TSS_PORT_CFG e) Fld.TSS_PORT_CFG_PREEMPT_ACTIVE

/-- A class is express on a port; all are while preemption is not in operation (R127). -/
def Hw.isExpress (h : Hw) (e c : Nat) : Bool :=
  !h.preemptOn e || (h.fld (Reg.TSS_PORT_CFG e) Fld.TSS_PORT_CFG_EXPRESS_MASK).testBit c

/-- A frame is sent as express traffic on a port: by its class, or as a MAC control frame (R127). -/
def Hw.expressF (h : Hw) (e : Nat) (f : Frame) : Bool :=
  h.isExpress e f.cls || (parseHdr (h.readFrame f)).etype == 0x8808

/-- A preemptable frame or fragment may not start: an express notice stands, or the gate list holds (R123, R129). -/
def Hw.preemptHeld (h : Hw) (e : Nat) : Bool :=
  !(kvGetD h.tss.notice e []).isEmpty || h.tss.hold.contains e

/-- The minimum fragment in bytes, mCRC or FCS included (R127). -/
def Hw.minFrag (h : Hw) (e : Nat) : Nat := 64 * (1 + h.fld (Reg.TSS_PORT_CFG e) Fld.TSS_PORT_CFG_ADD_FRAG)

/-- Bytes the fragment under way has put on the line, its 8 bytes of preamble left out. -/
def Hw.fragBytes (h : Hw) (e : Nat) (t : TxCur) : Nat := (h.clk - t.start) * h.portRate e / 4000000 - 8

/-- A transmission can be preempted now (R128): the fragment with its mCRC has reached the minimum, and the minimum remains, FCS
included. What remains of a frame still arriving is counted from its class's MAXLEN. -/
def Hw.canCut (h : Hw) (e : Nat) (t : TxCur) (f : Frame) : Bool :=
  let b := h.fragBytes e t
  let all := (if f.tail then f.len else h.maxLen e f.cls) + (if t.sec.isSome then 32 else 0)
  h.preemptOn e && !t.express && !t.susp && decide (h.minFrag e ≤ b + 4) && decide (h.minFrag e ≤ all - (t.sent + b))

/-- The transmission on top of a MAC, with its frame. -/
def Hw.txTop (h : Hw) (e : Nat) : Option (TxCur × Frame) :=
  match kvGetD h.swc.tx e [] with
  | [] => none
  | t :: _ => (h.frame? t.frame).map (fun f => (t, f))

/-- Replace the transmission on top of a MAC. -/
def Hw.setTop (h : Hw) (e : Nat) (t : TxCur) : Hw :=
  h.onSwc (fun s => { s with tx := kvPut s.tx e (t :: (kvGetD s.tx e []).drop 1) })

/-- The transmission under way is preempted if it can be (R128). -/
def Hw.suspend (h : Hw) (e : Nat) : Hw :=
  match h.txTop e with
  | some (t, f) => if h.canCut e t f then
      (h.inc (Reg.TSS_PREEMPT_TX e)).setTop e { t with susp := true, sent := t.sent + h.fragBytes e t }
    else h
  | none => h

/-- A suspended transmission goes on with its next fragment when no notice or hold forbids it (R123, R129). -/
def Hw.resume (h : Hw) (e : Nat) : Hw :=
  match h.txTop e with
  | some (t, _) => if t.susp && !h.preemptHeld e then h.setTop e { t with susp := false, start := h.clk } else h
  | none => h

/-- Only express frames can be sent: a preemptable frame is on the line or suspended, or none may start (R120, R128). -/
def Hw.onlyExpress (h : Hw) (e : Nat) : Bool :=
  h.preemptHeld e || (match kvGetD h.swc.tx e [] with | [] => false | t :: _ => !t.express)

/-- A class is stopped by a received pause that the port honours (R510). -/
def Hw.paused (h : Hw) (e c : Nat) : Bool :=
  decide (e < 24) && (kvGet h.tss.pauseRx (e * 8 + c)).isSome && (h.fld (Reg.TSS_PORT_CFG e) Fld.TSS_PORT_CFG_PFC_HONOUR).testBit c

/-- A class's credit lets it send: it is not shaped, or its credit is at least 0 (R130). -/
def Hw.cbsOk (h : Hw) (e c : Nat) : Bool :=
  !((c = 5 || c = 6) && decide (e < 24) && h.flag (Reg.TSS_CBS_IDLE (e * 2 + (c - 5))) Fld.TSS_CBS_IDLE_EN)
    || decide (0 ≤ kvGetD h.tss.credit (e * 2 + (c - 5)) 0)

/-- A class's shaper holds the tokens of a length (R133). -/
def Hw.shaperOk (h : Hw) (e c len : Nat) : Bool :=
  !h.weirOn (e * 8 + c) || decide (len * tokenUnit ≤ h.tokens (e * 8 + c))

/-- Class `c` of egress `e` is eligible, with the frame it would send (R119): while a preemptable frame is on the line, or none may
start, an express frame only (R128, R129). -/
def Hw.eligible (h : Hw) (e c : Nat) : Option Frame :=
  match h.oldest e c with
  | none => none
  | some f =>
    let len := h.chargeLen f e
    if h.fits e c len && h.cbsOk e c && h.shaperOk e c len && !h.paused e c && (!h.onlyExpress e || h.expressF e f)
    then some f else none

/-- SP_MIN of a port. -/
def Hw.spMin (h : Hw) (e : Nat) : Nat := h.fld (Reg.TSS_PORT_CFG e) Fld.TSS_PORT_CFG_SP_MIN

/-- The highest eligible class at or above SP_MIN (R120). -/
def Hw.strictPick (h : Hw) (e : Nat) : Option (Nat × Frame) :=
  ([7, 6, 5, 4, 3, 2, 1, 0].filter (fun c => decide (h.spMin e ≤ c))).findSome?
    (fun c => (h.eligible e c).map (fun f => (c, f)))

/-- DWRR state of a port while it looks for a class: the class the round is at, whether its quantum was added. -/
structure Round where
  at_     : Nat
  inVisit : Bool
  deficit : Kv Nat

/-- The round of deficit weighted round robin (R121), for at most `fuel` moves. -/
def Hw.dwrr (h : Hw) (e : Nat) : Nat → Round → Option (Nat × Frame × Round)
  | 0, _ => none
  | fuel + 1, r =>
    let i := e * 8 + r.at_
    let q := h.fld (Reg.TSS_DWRR_QUANTUM i) Fld.TSS_DWRR_QUANTUM_QUANTUM
    let d := if r.inVisit then kvGetD r.deficit i 0 else kvGetD r.deficit i 0 + q
    let next (d : Nat) : Round :=
      ⟨if r.at_ = 0 then h.spMin e - 1 else r.at_ - 1, false, kvPut r.deficit i d⟩
    match h.eligible e r.at_ with
    | some f =>
      let len := h.chargeLen f e
      if len ≤ d then some (r.at_, f, ⟨r.at_, true, kvPut r.deficit i (d - len)⟩)
      else h.dwrr e fuel (next d)
    | none => h.dwrr e fuel (next (if (h.requests e r.at_).isEmpty then 0 else d))

/-- The class and frame the scheduler selects on an egress (R120), with the DWRR state it leaves. -/
def Hw.select (h : Hw) (e : Nat) : Option (Nat × Frame × Option Round) :=
  match h.strictPick e with
  | some p => some (p.1, p.2, none)
  | none =>
    if h.spMin e = 0 then none
    else
      let at_ := min (kvGetD h.tss.roundAt e (h.spMin e - 1)) (h.spMin e - 1)
      (h.dwrr e 24 ⟨at_, h.tss.inVisit.contains e, h.tss.deficit⟩).map (fun x => (x.1, x.2.1, some x.2.2))

/-- Keep the DWRR state of a selection. -/
def Hw.keepRound (h : Hw) (e : Nat) (r : Option Round) : Hw :=
  match r with
  | none => h
  | some r => h.onTss (fun t => { t with
      roundAt := kvPut t.roundAt e r.at_,
      inVisit := if r.inVisit then insertNew t.inVisit e else without t.inVisit e,
      deficit := r.deficit })

/-- A copy is granted to an egress and has not begun. -/
def Hw.grantedAt (h : Hw) (e : Nat) : Option Frame :=
  h.swc.frames.find? (fun f => f.copies.any (fun c => c.egress == e && c.st == CopyState.granted))

/-- The egress can be matched: nothing granted waits to start, and its transmitter is free or is sending a preemptable frame, which
an express frame preempts (R69, R120, R128). -/
def Hw.matchable (h : Hw) (e : Nat) : Bool :=
  (h.grantedAt e).isNone && (match kvGetD h.swc.tx e [] with | [] => true | t :: _ => h.preemptOn e && !t.express)

/-! ### The matching (R69) -/

/-- A grant offered: egress, class, frame, DWRR state. -/
structure Offer where
  egress : Nat
  cls    : Nat
  frame  : Frame
  round  : Option Round

/-- The port runs PLCA: it selects at its transmit opportunities only (R187). -/
def Hw.plca (h : Hw) (e : Nat) : Bool :=
  decide (20 ≤ e) && decide (e < 24) && h.linkUp e && h.flag (Reg.MAC_PLCA_STATUS e) Fld.MAC_PLCA_STATUS_ACTIVE

/-- The grants the unmatched egresses offer. -/
def Hw.offers (h : Hw) : List Offer :=
  ((List.range 32).filter (fun e => !h.plca e)).filterMap (fun e =>
    if h.matchable e then (h.select e).map (fun x => ⟨e, x.1, x.2.1, x.2.2⟩) else none)

/-- Transfer slots of an ingress in use: transfers accepted and not yet read or discarded (R69). A frame that P24 has moved to the
pending list of a ring has been read and holds none (DESIGN CHOICE, log entry 151). -/
def Hw.slotsUsed (h : Hw) (i : Nat) : Nat :=
  ((h.swc.frames.filter (fun f => f.ingress == i)).map (fun f =>
    (f.copies.filter (fun c => c.st == CopyState.granted || c.st == CopyState.sending)).length)).sum

/-- The offer an ingress accepts first: oldest ARRIVAL, then its pointer over the egress ports. -/
def Hw.bestOffer (h : Hw) (i : Nat) (l : List Offer) : Option Offer :=
  let ptr := kvGetD h.swc.rotIngress i 31
  l.foldl (fun w o => match w with
    | none => some o
    | some b =>
      if h.waited b.frame.arrival < h.waited o.frame.arrival then some o
      else if h.waited o.frame.arrival < h.waited b.frame.arrival then some b
      else if rotDist 32 ptr o.egress < rotDist 32 ptr b.egress then some o else some b) none

/-- Set the state of a frame's copy at an egress. -/
def Hw.setCopy (h : Hw) (id e : Nat) (st : CopyState) : Hw :=
  h.onFrame id (fun f => { f with copies := f.copies.map (fun c => if c.egress == e then { c with st := st } else c) })

/-- A frame of the egress that is not sent leaves an ABORTED time-stamp entry when one was asked for (R286); the queue
of the MAC and its owner decide (R285). -/
def Hw.txStamp (h : Hw) (f : Frame) (mac : Nat) (stamps : Option (List Nat)) : Hw :=
  match f.tsReq with
  | none => h
  | some (tsId, tb) =>
    if mac < 24 then
      let o := kvGetD h.tim.txtsOwner mac 2
      if o != f.owner then
        match stamps with
        | some _ => h.inc (Reg.TIME_TXTS_DENIED mac)
        | none => h
      else
        let q := kvGetD h.tim.txts mac []
        if 64 ≤ q.length then
          (h.setFld (Reg.TIME_TXTS_STATUS mac) Fld.TIME_TXTS_STATUS_OVF 1).inc (Reg.TIME_TXTS_LOST mac)
        else
          let ns := match stamps with | some s => stampNs s tb | none => 0
          let ent : TxTs := ⟨stamps.isNone, tb, tsId, ns / 1000000000, ns % 1000000000, h.clk⟩
          let h := { h with tim := { h.tim with txts := kvPut h.tim.txts mac (q ++ [ent]) } }
          if q.isEmpty && h.flag (Reg.TIME_TXTS_STATUS mac) Fld.TIME_TXTS_STATUS_NOTIFY then h.post o 0x0A03 mac else h
    else h

/-- An egress whose link is down abandons its copy: counted, reference released (R67). -/
def Hw.abandon (h : Hw) (f : Frame) (e : Nat) : Hw :=
  ((h.inc (Reg.MAC_TX_ABORT e)).txStamp f e none).release f.id e

/-- The class of an egress is empty: no copy waits there (R121). -/
def Hw.classEmpty (h : Hw) (e c : Nat) : Bool := !h.swc.frames.any (fun f => f.cls == c && !f.dead && f.waitsAt e)

/-- DWRR after a grant in class `c`: an emptied class has its deficit set to 0; else a frame charged MAXLEN may get some back at its
tail (R121). -/
def Hw.settleDeficit (h : Hw) (e c : Nat) (f : Frame) : Hw :=
  if h.spMin e ≤ c then h
  else if h.classEmpty e c then h.onTss (fun t => { t with deficit := kvDel t.deficit (e * 8 + c) })
  else if f.tail then h
  else h.onFrame f.id (fun x => { x with refund := x.refund ++ [(2, e * 8 + c, h.chargeLen f e)] })

/-- An offer is accepted: the copy leaves its VOQ, the pointers move to the port granted (DESIGN CHOICE, log entry 151); a down MAC
abandons it at once (R67). -/
def Hw.grant (h : Hw) (o : Offer) : Hw :=
  let f := o.frame
  let h := ((h.setCopy f.id o.egress .granted).keepRound o.egress o.round).settleDeficit o.egress o.cls f
  let h := h.onSwc (fun s => { s with
    rotEgress := kvPut s.rotEgress (o.egress * 8 + o.cls) f.ingress,
    rotIngress := kvPut s.rotIngress f.ingress o.egress })
  if decide (o.egress < 24) && !h.linkUp o.egress then h.abandon f o.egress else h

/-- A granted frame may begin: it fits its gate, its class is not paused, no notice or hold forbids it (R122, R123, R129, R510). -/
def Hw.permitted (h : Hw) (e : Nat) (f : Frame) : Bool :=
  h.fits e f.cls (h.chargeLen f e) && !h.paused e f.cls && (!h.onlyExpress e || h.expressF e f)

/-- A granted frame that may no longer begin waits in its VOQ again, and its deficit is given back (DESIGN CHOICE, log entry 152). -/
def Hw.withdraw (h : Hw) (e : Nat) : Hw :=
  match h.grantedAt e with
  | none => h
  | some f =>
    if 24 ≤ e || h.permitted e f then h
    else
      let h := (h.setCopy f.id e .waiting).onFrame f.id (fun x => { x with refund := x.refund.filter (fun r => !(r.1 == 2 && r.2.1 == e * 8 + f.cls)) })
      if f.cls < h.spMin e then h.onTss (fun t => { t with deficit := kvMod t.deficit (e * 8 + f.cls) 0 (· + h.chargeLen f e) }) else h

/-- The frame a shaper keeps from its egress is counted once (TSS_WEIR_RED). -/
def Hw.countHeld (h : Hw) (b : Nat) (f : Frame) : Hw :=
  if f.heldBy.contains b then h
  else (h.inc (Reg.TSS_WEIR_RED b)).onFrame f.id (fun x => { x with heldBy := x.heldBy ++ [b] })

/-- Count the frames that the class shapers of an egress hold in this cycle (R133). -/
def Hw.countShaped (h : Hw) (e : Nat) : Hw :=
  (List.range 8).foldl (fun a c =>
    if !a.weirOn (e * 8 + c) then a
    else match a.oldest e c with
      | some f => if a.shaperOk e c (a.chargeLen f e) then a else a.countHeld (e * 8 + c) f
      | none => a) h

/-- An ingress accepts as many offers as it has free slots. -/
def Hw.accept (h : Hw) (i : Nat) : Nat → List Offer → Hw
  | 0, _ => h
  | n + 1, l =>
    match h.bestOffer i l with
    | none => h
    | some o => (h.grant o).accept i n (l.filter (fun x => x.egress != o.egress))

/-- One iteration of the matching (R69). -/
def Hw.arbitrate (h : Hw) : Hw :=
  let h := (List.range 24).foldl Hw.withdraw h
  let h := (List.range 32).foldl Hw.countShaped h
  let os := h.offers
  (List.range 32).foldl (fun a i =>
    a.accept i (2 - h.slotsUsed i) (os.filter (fun o => o.frame.ingress == i))) h

end Sys2Proof.Machine
end

