-- ==== Sys2Proof/Machine/QosOps.lean ====
section
/-!
DEFINITION. Latency bounds of admitted streams (R141 to R145): the terms of R143 in picoseconds, the bound of a stream, the
streams a change breaks. R143 names what T_higher and T_same contain; the formulas are log entry 16's (DEDUCED).
-/
namespace Sys2Proof.Machine

/-- Time of bytes at a rate in kb/s, in ps, rounded up; none at rate 0. -/
def psOf (bytes rate : Nat) : Option Nat := if rate = 0 then none else some ((bytes * 8000000000 + rate - 1) / rate)

/-- Open intervals of a class in a row of segments: adjacent open segments are one interval. -/
def openRuns (cls : Nat) : Option (Nat × Nat) → List (Nat × Nat × Nat) → List (Nat × Nat)
  | none, [] => []
  | some r, [] => [r]
  | cur, s :: rest =>
    if (gatesOf s.2.2).testBit cls then
      match cur with
      | none => openRuns cls (some (s.1, s.2.1)) rest
      | some r => openRuns cls (some (r.1, s.2.1)) rest
    else match cur with
      | none => openRuns cls none rest
      | some r => r :: openRuns cls none rest

/-- The greatest wait from the last permitted start of one interval to the beginning of the next. -/
def worstGap (need : Nat) : List (Nat × Nat) → Nat
  | a :: b :: rest => max (b.1 - (a.2 - need)) (worstGap need (b :: rest))
  | _ => 0

/-- T_gate of a class on a list for a frame that needs `need` ps (wire time and GUARD); none when it can never start. -/
def gateTerm (l : GateList) (cls need : Nat) : Option Nat :=
  let one := segments egressDur l.cycle 0 l.entries
  let three := one ++ one.map (fun s => (s.1 + l.cycle, s.2.1 + l.cycle, s.2.2)) ++
    one.map (fun s => (s.1 + 2 * l.cycle, s.2.1 + 2 * l.cycle, s.2.2))
  let runs := (openRuns cls none three).map (fun r => (r.1 * 1000, r.2 * 1000))
  if one.all (fun s => (gatesOf s.2.2).testBit cls) then some 0
  else
    let use := runs.filter (fun r => decide (need ≤ r.2 - r.1))
    if use.length < 2 then none else some (worstGap need use)

/-- Bytes on the wire of a frame of `len` counted bytes (R122). -/
def Hw.wireLen (h : Hw) (e len : Nat) : Nat := len + 20 + (if h.macsecOn e then 32 else 0)

/-- The lists a bound on an egress has to hold under (R144): the list in force and the one pending; none stands for no list. -/
def Hw.boundLists (h : Hw) (e : Nat) : List (Option GateList) :=
  (if h.gateEn e then h.listOf e else none) ::
    (match h.pendingList e with
    | some l => if h.tss.pendOff.contains e then [] else [some l]
    | none => [])

/-- GUARD of a list for a class, in ps (R122). -/
def GateList.guardPs (l : GateList) (c : Nat) : Nat := if c = 7 then 0 else l.guard * 8000

/-- T_gate of a class over a switch of lists: the wait from the last permitted start under the old list to the first under the
new one (R357). -/
def switchTerm (old : Option GateList) (new : GateList) (cls need : Nat) : Option Nat :=
  let head := ((openRuns cls none (segments egressDur new.cycle 0 new.entries)).map (fun r => (r.1 * 1000, r.2 * 1000))).find?
    (fun r => decide (need ≤ r.2 - r.1))
  let before := match old with
    | some l => gateTerm l cls need
    | none => some 0
  match head, before with
  | some r, some b => if r.1 = 0 && b = 0 then some 0 else some (b + need + r.1)
  | _, _ => none

/-- The larger of two terms; an unbounded one stays so. -/
def termMax : Option Nat → Option Nat → Option Nat
  | some a, some b => some (max a b)
  | _, _ => none

/-- T_gate of a frame whose wire time is `wire` ps, over the list in force, the pending one and the switch between them (R143, R144,
R357). -/
def Hw.gateWait (h : Hw) (e c wire : Nat) : Option Nat :=
  let of (l : GateList) : Option Nat := gateTerm l c (wire + l.guardPs c)
  match h.boundLists e with
  | [none, some n] => termMax (of n) (switchTerm none n c (wire + n.guardPs c))
  | some l :: some n :: _ => termMax (of l) (termMax (of n) (switchTerm (some l) n c (wire + max (l.guardPs c) (n.guardPs c))))
  | some l :: _ => of l
  | _ => some 0

/-- Two classes can be sending at the same time under some list. -/
def Hw.openTogether (h : Hw) (e c d : Nat) : Bool :=
  (h.boundLists e).any (fun l => match l with
    | some l => l.entries.any (fun w => (gatesOf w).testBit c && (gatesOf w).testBit d)
    | none => true)

/-- Lower classes that can be sending when class `c` is open. -/
def Hw.lowerOpen (h : Hw) (e c : Nat) : List Nat := (List.range c).filter (h.openTogether e c)

/-- The PLCA access wait in ps (R189); unbounded with PLCA off or bursts on the segment. -/
def Hw.plcaWait (h : Hw) (e : Nat) : Option Nat :=
  let c := h.rn (Reg.MAC_PLCA_CFG e)
  if getF c Fld.MAC_PLCA_CFG_EN = 1 ∧ h.flag (Reg.MAC_PLCA_STATUS e) Fld.MAC_PLCA_STATUS_ACTIVE ∧
      getF c Fld.MAC_PLCA_CFG_BURST_COUNT = 0 then
    some (((getF c Fld.MAC_PLCA_CFG_NODE_COUNT - 1) *
      ((h.fld (Reg.MAC_PLCA_LIMIT e) Fld.MAC_PLCA_LIMIT_PLCA_MAXLEN + 8) * 8 + 96) + 20) * 100000)
  else none

/-- TW_US + 1 µs in ps on a port with EEE (R193). -/
def Hw.wakeTerm (h : Hw) (e : Nat) : Nat :=
  if h.flag (Reg.MAC_EEE_CFG e) Fld.MAC_EEE_CFG_EN then (h.fld (Reg.MAC_EEE_CFG e) Fld.MAC_EEE_CFG_TW_US + 1) * 1000000 else 0

/-- T_block (R143): the residue of R128 with preemption, less what the express notice hides from class 7 (R142), or the
largest lower-class wire frame. The table of R142 gives whole nanoseconds at 10 Gb/s only. -/
def Hw.lowerBlock (h : Hw) (e c : Nat) : Option Nat :=
  let low := h.lowerOpen e c
  let rate := h.portRate e
  if low.isEmpty then some 0
  else if h.preemptOn e && h.isExpress e c && low.all (fun d => !h.isExpress e d) then
    (psOf (2 * h.minFrag e + 15) rate).map (fun t =>
      if c = 7 then (if rate = 10000000 then (t - 17000 + 999) / 1000 * 1000 else t - 17000) else t)
  else psOf ((low.map (fun d => h.wireLen e (h.maxLen e d))).foldl max 0) rate

/-- T_block of an egress: the PLCA access wait on E20–E23 (R189), else the lower-class blocking and the wake (R193). -/
def Hw.blockTerm (h : Hw) (e c : Nat) : Option Nat :=
  if 20 ≤ e then h.plcaWait e else (h.lowerBlock e c).map (· + h.wakeTerm e)

/-- Ports a stream entry or another exact-match entry names (R86). -/
def EmEntry.isStream (e : EmEntry) : Bool := e.type != 0

/-- The fabric ports an entry sends to by itself. -/
def Hw.entryDests (h : Hw) (e : EmEntry) : Nat := match e.group with
  | some g => h.groupMask g
  | none => if e.isStream then 0 else 2 ^ e.port

/-- The ports that table entries name as destinations. -/
def Hw.namedMask (h : Hw) : Nat :=
  ((h.fwd.em.map (fun (e : Nat × EmEntry) => h.entryDests e.2)) ++ (h.fwd.lpm.map (fun (e : Nat × LpmEntry) => match kvGet h.fwd.nhop e.2.nhop with
      | some n => 2 ^ n.port
      | none => 0)) ++
    (h.fwd.acl.map (fun (e : Nat × AclEntry) => match e.2.act with
      | .toPort p => 2 ^ p
      | .toGroup g => h.groupMask g
      | _ => 0))).foldl (· ||| ·) 0

/-- Every port a frame of a stream entry can leave by: its group, or without one whatever LPM, a type-0 entry or flooding gives
(R85). -/
def Hw.entryReach (h : Hw) (e : EmEntry) : Nat :=
  if e.isStream && e.group.isNone then h.namedMask ||| (h.fwd.vlan.map (fun v => v.2.member)).foldl (· ||| ·) 0 else h.entryDests e

/-- Streams of a class that can leave an egress: static stream entries with that class, and admitted streams. -/
def Hw.streamsOn (h : Hw) (e c : Nat) : List Nat :=
  ((h.fwd.em.filter (fun x => x.2.isStream && x.2.cls == some c && (h.entryReach x.2).testBit e)).map (fun x => x.2.stream) ++
   (h.tss.admitted.filter (fun a => a.2.cls == c && a.2.egress.testBit e)).map (·.1)).dedup

/-! ### T_higher and T_same (R143; DEDUCED, log entry 16) -/

/-- Bytes a bucket of `burst` bytes and `rate` kb/s lets through in `w` ps. -/
def bucketBytes (burst rate w : Nat) : Nat := burst + rate * w / 8000000000

/-- MAXLEN of a stream: as admitted, else its class's on the egress. -/
def Hw.streamLen (h : Hw) (s e c : Nat) : Nat := match kvGet h.tss.admitted s with
  | some a => a.maxlen
  | none => h.maxLen e c

/-- Frames of a policed stream in `w` ps; none when it has no policer. The VIE limits its own notices (R167): one. -/
def Hw.streamFrames (h : Hw) (s e c w : Nat) : Option Nat :=
  if h.weirOn (768 + s) then
    some (bucketBytes (h.rn (Reg.TSS_WEIR_BURST (768 + s))) (h.fld (Reg.TSS_WEIR_RATE (768 + s)) Fld.TSS_WEIR_RATE_RATE) w /
      max 1 (h.streamLen s e c))
  else match kvGet h.tss.admitted s with
    | some a => if a.ingress = 28 then some 1 else none
    | none => none

/-- Time one frame of a higher class takes from class `c`: its wire frame, with what preemption adds (mCRC, gap and preamble), or
the notice hold of class 7 (R129). -/
def Hw.interference (h : Hw) (e c d len : Nat) : Option Nat :=
  let rate := h.portRate e
  let wire := psOf (h.wireLen e len) rate
  if h.preemptOn e && h.isExpress e d && !h.isExpress e c then
    match wire, psOf (h.wireLen e len + 24) rate with
    | some w, some p => some (if d = 7 then max (64000 + w) p else p)
    | _, _ => none
  else wire

/-- `n` times the interference of a frame. -/
def Hw.interferences (h : Hw) (e c d len : Nat) (n : Option Nat) : Option Nat :=
  match n, h.interference e c d len with
  | some n, some t => some (n * t)
  | _, _ => none

/-- The smaller of two terms, unbounded ones left out. -/
def termMin : Option Nat → Option Nat → Option Nat
  | some a, some b => some (min a b)
  | some a, none => some a
  | none, b => b

/-- The sum of terms; none when one is unbounded. -/
def termSum : List (Option Nat) → Option Nat
  | [] => some 0
  | t :: ts => match t, termSum ts with | some a, some b => some (a + b) | _, _ => none

/-- What a higher class can send in `w` ps as its Weir egress shaper limits it. -/
def Hw.byShaper (h : Hw) (e c d w : Nat) : Option Nat :=
  let b := e * 8 + d
  if h.weirOn b then
    h.interferences e c d (h.maxLen e d)
      (some (bucketBytes (h.rn (Reg.TSS_WEIR_BURST b)) (h.fld (Reg.TSS_WEIR_RATE b) Fld.TSS_WEIR_RATE_RATE) w / max 1 (h.maxLen e d)))
  else none

/-- As its credit limits it (R130): from HI_CREDIT, and one frame below 0. -/
def Hw.byCredit (h : Hw) (e c d w : Nat) : Option Nat :=
  let r := Reg.TSS_CBS_IDLE (e * 2 + (d - 5))
  if (d = 5 || d = 6) && h.flag r Fld.TSS_CBS_IDLE_EN then
    h.interferences e c d (h.maxLen e d)
      (some (bucketBytes (h.rn (Reg.TSS_CBS_HICREDIT (e * 2 + (d - 5))) / 8) (h.fld r Fld.TSS_CBS_IDLE_IDLE_SLOPE) w / max 1 (h.maxLen e d) + 1))
  else none

/-- As the policers of every stream in it limit it. -/
def Hw.byPolicers (h : Hw) (e c d w : Nat) : Option Nat :=
  termSum ((h.streamsOn e d).map (fun s => h.interferences e c d (h.streamLen s e d) (h.streamFrames s e d w)))

/-- Open time of a class per cycle of a list, in ps. -/
def openPerCycle (l : GateList) (d : Nat) : Nat :=
  ((segments egressDur l.cycle 0 l.entries).map (fun s => if (gatesOf s.2.2).testBit d then (s.2.1 - s.1) * 1000 else 0)).sum

/-- As its gate limits it, when some list closes it at times. -/
def Hw.byGate (h : Hw) (e d w : Nat) : Option Nat :=
  (h.boundLists e).foldl (fun t l => match t, l with
    | some a, some l =>
      let o := openPerCycle l d
      if o = l.cycle * 1000 then none else some (max a ((w / (l.cycle * 1000) + 1) * o))
    | _, _ => none) (some 0)

/-- Time the higher strict classes can take from class `c` in `w` ps; none when one of them is not limited. -/
def Hw.higherIn (h : Hw) (e c w : Nat) : Option Nat :=
  termSum (((List.range 8).filter (fun d => decide (c < d) && decide (h.spMin e ≤ d) && h.openTogether e c d)).map (fun d =>
    termMin (termMin (h.byShaper e c d w) (h.byCredit e c d w)) (termMin (h.byPolicers e c d w) (h.byGate e d w))))

/-- T_higher: the higher classes' time in the busy window, which contains it. -/
def Hw.higherTerm (h : Hw) (e c base : Nat) : Nat → Nat → Option Nat
  | 0, _ => none
  | n + 1, t => match h.higherIn e c (base + t) with
    | some u => if u ≤ t then some t else h.higherTerm e c base n u
    | none => none

/-- Other streams admitted to a class on an egress. -/
def Hw.sameStreams (h : Hw) (s e c : Nat) : List Nat :=
  (h.tss.admitted.filter (fun a => a.2.cls == c && a.2.egress.testBit e && a.1 != s)).map (·.1)

/-- Wire time of the frames of a stream in `w` ps. -/
def Hw.streamWire (h : Hw) (s e c w : Nat) : Option Nat :=
  match h.streamFrames s e c w, psOf (h.wireLen e (h.streamLen s e c)) (h.portRate e) with
  | some n, some t => some (n * t)
  | _, _ => none

/-- The time in which a class may start frames, over `p` ps: all of it without a list; under a list, per cycle, its open intervals
less the last frame's wire time and GUARD. -/
def startWindow (l : Option GateList) (c wire : Nat) : Nat × Nat × Nat :=
  match l with
  | none => (1000000000000, 1000000000000, 1000000000000)
  | some l =>
    let runs := (openRuns c none (segments egressDur l.cycle 0 l.entries)).map (fun r => (r.2 - r.1) * 1000)
    let o := openPerCycle l c
    (l.cycle * 1000, o, if o = l.cycle * 1000 then o else (runs.map (fun r => r - (wire + l.guardPs c))).sum)

/-- The admitted load of a class fits the time in which it may start, with what higher classes take of it: over one cycle of every
list, or over a second without one. -/
def Hw.loadFits (h : Hw) (s e c wire : Nat) : Bool :=
  (h.boundLists e).all (fun l =>
    let w := startWindow l c wire
    match termSum (h.higherIn e c w.2.1 :: ((s :: h.sameStreams s e c).map (fun x => h.streamWire x e c w.1))) with
    | some load => decide (load ≤ w.2.2)
    | none => false)

/-- A class whose gate closes at times under some list. -/
def Hw.gated (h : Hw) (e c : Nat) : Bool :=
  (h.boundLists e).any (fun l => match l with
    | some l => decide (openPerCycle l c < l.cycle * 1000)
    | none => false)

/-- DWRR shares of the other classes below SP_MIN while `need` ps of class `c` are sent: a quantum and a frame of each per round
(R121). -/
def Hw.dwrrShare (h : Hw) (e c need : Nat) : Option Nat :=
  if h.spMin e ≤ c then some 0
  else
    let rate := h.portRate e
    let rounds := need * rate / 8000000000 / max 1 (h.fld (Reg.TSS_DWRR_QUANTUM (e * 8 + c)) Fld.TSS_DWRR_QUANTUM_QUANTUM) + 1
    termSum (((List.range (h.spMin e)).filter (fun d => d != c && h.openTogether e c d)).map (fun d =>
      (psOf (h.fld (Reg.TSS_DWRR_QUANTUM (e * 8 + d)) Fld.TSS_DWRR_QUANTUM_QUANTUM + h.maxLen e d) rate).map (· * rounds)))

/-- T_same: the bursts of the other streams of the class, the stream's own burst ahead of its last frame where the gate never closes
(at a reopening the frame first ready after the close is first in line), and DWRR shares; unbounded without a policer of its own
or when the class's load does not fit. -/
def Hw.sameTerm (h : Hw) (s e c wire : Nat) : Option Nat :=
  if (h.streamFrames s e c 0).isNone || !h.loadFits s e c wire then none
  else
    let own := if h.gated e c then some 0 else (h.streamWire s e c 0).map (· - wire)
    match termSum (own :: (h.sameStreams s e c).map (fun x => h.streamWire x e c 0)) with
    | some b => (h.dwrrShare e c (b + wire)).map (· + b)
    | none => none

/-- A PHY latency register in ps (R196). -/
def Hw.phyPs (h : Hw) (r : Nat) : Nat := h.rn r * 1000 / 65536

/-- The ninth term (R141, R349): the serialisation onto a cascade link the stream leaves by, and the stated PHY latencies of the
links it crosses here; unbounded while such a link is down. -/
def Hw.cascadeTerm (h : Hw) (a : Admitted) (e : Nat) : Option Nat :=
  let inn := if h.isCascade a.ingress then (if h.linkUp a.ingress then some (h.phyPs (Reg.MAC_RX_PHY_LAT a.ingress)) else none) else some 0
  let out := if h.isCascade e then
      (if h.linkUp e then (psOf (a.maxlen + 8 + (if h.macsecOn e then 32 else 0)) (h.portRate e)).map (· + h.phyPs (Reg.MAC_TX_PHY_LAT e)) else none)
    else some 0
  termSum [inn, out]

/-- The terms of R143 in order, and the cascade links of R141 and R349, in ps. -/
def Hw.boundTerms (h : Hw) (s : Nat) (a : Admitted) (e : Nat) : List (Option Nat) :=
  let rin := h.portRate a.ingress
  let rout := h.portRate e
  let cut := h.flag Reg.SWC_CFG Fld.SWC_CFG_CUT_THROUGH_EN && decide (a.ingress < 24) && decide (rout ≤ rin)
  let wire := h.wireLen e a.maxlen
  let w := (psOf wire rout).getD 0
  let same := h.sameTerm s e a.cls w
  let block := h.blockTerm e a.cls
  [ if a.ingress < 24 then psOf (if cut then min 128 a.maxlen else a.maxlen) rin else some (Config.tInternal a.ingress a.maxlen),
    some 120000,
    some 64000,
    if rout = 0 then none else h.gateWait e a.cls w,
    block,
    if a.cls = 7 then some 0 else h.higherTerm e a.cls (w + same.getD 0 + block.getD 0) 64 0,
    same,
    psOf (a.maxlen + 8 + (if h.macsecOn e then 32 else 0)) rout,
    h.cascadeTerm a e ]

/-- Nanoseconds, rounded up (R144). -/
def nsCeil (ps : Nat) : Nat := (ps + 999) / 1000

/-- The ports at which a stream is delivered as another stream's configured fallback (R165). -/
def Hw.fallbackPorts (h : Hw) (s : Nat) : Nat :=
  let vs := (h.fwd.em.filter (fun e => e.2.type != 0 && e.2.stream == s)).filterMap (fun e => e.2.vie)
  if vs.isEmpty then 0
  else ((List.range 64).filter (fun x => h.flag (Reg.VIE_S_FALLBACK x) Fld.VIE_S_FALLBACK_FB_EN &&
    vs.contains (h.fld (Reg.VIE_S_FALLBACK x) Fld.VIE_S_FALLBACK_FB_STREAM))).foldl
      (fun m x => m ||| 2 ^ h.fld (Reg.VIE_S_CFG x) Fld.VIE_S_CFG_AGE_PORT) 0

/-- The bound of a stream and the egress MAC where it is reached, configured fallback deliveries included (R165); none when it has
no bound there. -/
def Hw.streamBound (h : Hw) (s : Nat) (a : Admitted) : Option Nat × Nat :=
  let es := bitsOf 24 (a.egress ||| h.fallbackPorts s)
  es.foldl (fun w e =>
    match w.1, termSum (h.boundTerms s a e) with
    | none, _ => w
    | some _, none => (none, e)
    | some b, some t => if b < nsCeil t then (some (nsCeil t), e) else w) (some 0, es.headD 0)

/-- The stream's bound holds. -/
def Hw.boundHolds (h : Hw) (s : Nat) (a : Admitted) : Bool :=
  match (h.streamBound s a).1 with | some b => decide (b ≤ a.declared) | none => false

/-- Number of the first term that is unbounded or larger than before, 1 to 9. -/
def firstWorse : Nat → List (Option Nat) → List (Option Nat) → Nat
  | n, x :: xs, y :: ys =>
    match x, y with
    | none, _ => n
    | some a, some b => if b < a then n else firstWorse (n + 1) xs ys
    | some _, none => firstWorse (n + 1) xs ys
  | _, _, _ => 8

/-- Bits 31 and 19:16 of R349 for a stream that fails after a change. -/
def Hw.failCode (old h : Hw) (s : Nat) (a : Admitted) : Nat :=
  let b := h.streamBound s a
  (if b.1.isNone then 2 ^ 31 else 0) + firstWorse 1 (h.boundTerms s a b.2) (old.boundTerms s a b.2) * 2 ^ 16

/-- Count the streams that are broken, in the counter and the status bit (R145). -/
def Hw.countBroken (h : Hw) : Hw :=
  let n := (h.tss.admitted.filter (fun a => a.2.broken.isSome)).length
  (h.wn Reg.TSS_BOUND_BROKEN_COUNT n).setFld Reg.TSS_STATUS Fld.TSS_STATUS_BOUND_BROKEN (if n = 0 then 0 else 1)

/-- Export the bounds of the streams that hold (R144). -/
def Hw.exportBounds (h : Hw) : Hw :=
  h.tss.admitted.foldl (fun a x =>
    match (a.streamBound x.1 x.2).1 with
    | some b => if b ≤ x.2.declared then
        (a.onTss (fun t => { t with admitted := kvPut t.admitted x.1 { x.2 with broken := none } })).wn
          (Reg.TSS_STREAM_BOUND x.1) b
      else a
    | none => a) h

/-- Firmware has recomputed the bounds of the streams that an accepted change affects (R144): counted when one moved, exported, the
streams that are broken counted again (R145). -/
def Hw.settleBounds (old h : Hw) : Hw :=
  if h.tss.admitted.isEmpty then h
  else
    let moved := h.tss.admitted.any (fun x => (kvGet old.tss.admitted x.1).isNone || h.streamBound x.1 x.2 != old.streamBound x.1 x.2)
    let h := if moved then h.wn Reg.TSS_BOUND_RECOMPUTE (h.rn Reg.TSS_BOUND_RECOMPUTE + 1) else h
    h.exportBounds.countBroken

/-- Firmware recomputes after an event that changed a term (R37, R145): streams whose bound no longer holds are marked broken and
reported; streams whose bound holds again are not broken any more. -/
def Hw.rebound (old h : Hw) : Hw :=
  if h.tss.admitted.isEmpty || !h.fwRuns then h
  else
    let h := h.wn Reg.TSS_BOUND_RECOMPUTE (h.rn Reg.TSS_BOUND_RECOMPUTE + 1)
    let h := h.tss.admitted.foldl (fun a x =>
      if x.2.broken.isSome || a.boundHolds x.1 x.2 then a
      else
        let code := old.failCode a x.1 x.2
        (a.onTss (fun t => { t with admitted := kvPut t.admitted x.1 { x.2 with broken := some code } })).postG 2 x.1
          0x0504 x.1 code) h
    h.exportBounds.countBroken

/-- The first admitted stream, in handle order, that a change would break, as the DETAIL of BOUND (R144, R349). -/
def Hw.boundBreaks (old h : Hw) : Option Nat :=
  (h.tss.admitted.find? (fun x => x.2.broken.isNone && !h.boundHolds x.1 x.2)).map (fun x => old.failCode h x.1 x.2 + x.1)

/-! ### The instant of a switch (R124) -/

/-- The first cycle start of a list at or after an instant of its base. -/
def GateList.startFrom (l : GateList) (t : Int) : Int :=
  let c : Int := l.cycle
  l.base + ((t - l.base + c - 1) / c) * c

/-- S in ns of the new list's base and of the base of the list in force (R124, R357): C is the first cycle start of the list in force
at or after the new base time and this commit, S the new list's first start at or after C. Instants of two bases are compared
through the values they hold now (R281; DEDUCED, log entry 157). -/
def Hw.switchAt (h : Hw) (old : Option GateList) (new : GateList) : Nat × Nat :=
  let nowN : Int := h.tbNs new.tb
  let nowO : Int := match old with | some l => h.tbNs l.tb | none => nowN
  let c := match old with
    | some l => l.startFrom (max (new.base - nowN + nowO) nowO) - nowO + nowN
    | none => max (new.base : Int) nowN
  let s := max (new.base : Int) (new.startFrom c)
  (s.toNat, (s - nowN + nowO).toNat)

/-- The start S of the pending list of key `k` (a MAC, or 256 + a Sluice gate) is kept. -/
def Hw.planSwitch (h : Hw) (k : Nat) (old : Option GateList) (new : GateList) : Hw :=
  let x := h.switchAt old new
  h.onTss (fun t => { t with swS := kvPut t.swS k x.1, swOld := kvPut t.swOld k x.2 })

/-- The switch is over. -/
def Hw.endSwitch (h : Hw) (k : Nat) : Hw := h.onTss (fun t => { t with swS := kvDel t.swS k, swOld := kvDel t.swOld k })

/-- S has come for a key, counted on a base. -/
def Hw.switchDue (h : Hw) (k tb : Nat) : Bool := decide (kvGetD h.tss.swS k 0 ≤ h.tbNs tb)

/-- The list in force would begin a last cycle too short to be begun (R124). -/
def Hw.heldLast (h : Hw) (k : Nat) (old : GateList) (new : Option GateList) : Bool :=
  match new with
  | some n => tooShort (h.tbNs old.tb - old.phase (h.tbNs old.tb)) (kvGetD h.tss.swOld k 0) n.ext
  | none => false

end Sys2Proof.Machine
end

