-- ==== Sys2Proof/Machine/Graph.lean ====
section
/-!
DEFINITION. What firmware checks of a configuration before it commits it (R49, R50, R462, R463): the rules of the Basin, the storage
division, the back-pressure graph, the service of the classes.
-/
namespace Sys2Proof.Machine

/-! ### The Basin (R49, R50) -/

/-- DETAIL of DEADLOCK for a broken rule of R49 or of the service check (R349). -/
def ruleCode (port cls : Nat) : Nat := 2 ^ 31 + cls * 256 + port

/-- Cells the configuration requires (R50). -/
def Hw.cellsNeeded (h : Hw) : Nat :=
  let quotas := (List.range 128).map (fun q =>
    let c := h.rn (Reg.SWC_MMQ_CFG q)
    if getF c Fld.SWC_MMQ_CFG_EN = 1 then getF c Fld.SWC_MMQ_CFG_RESERVED else 0)
  let modeB := (List.range 256).filter (fun pc => !h.modeM pc)
  let macs := (List.range 24).filter (fun m => h.flag (Reg.MAC_CFG m) Fld.MAC_CFG_EN && modeB.any (fun pc => pc / 8 == m))
  quotas.sum + 256 + h.fld Reg.SWC_SHARED_CFG Fld.SWC_SHARED_CFG_GLOBAL_XOFF +
    (modeB.map (fun pc => h.fld (Reg.SWC_VOQ_HDRM pc) Fld.SWC_VOQ_HDRM_HEADROOM)).sum + 35 * macs.length

/-- Cells lacking when `groups` of the 16 bank groups are powered. -/
def Hw.cellsLacking (h : Hw) (groups : Nat) : Nat := h.cellsNeeded - (groups * 8192 - h.swc.retired.length)

/-- Powered bank groups. -/
def Hw.groupsOn (h : Hw) : Nat := ((List.range 16).filter (fun g => h.pg (7 + g))).length

/-- A quota is enabled. -/
def Hw.quotaOn (h : Hw) (q : Nat) : Bool := h.flag (Reg.SWC_MMQ_CFG q) Fld.SWC_MMQ_CFG_EN

/-- The ports that frames of an ingress port can be flooded to. -/
def Hw.floodMask (h : Hw) (p : Nat) : Nat :=
  (h.fwd.vlan.map (fun v => if v.2.member.testBit p then v.2.member else 0)).foldl (· ||| ·) 0 &&& (0xFFFFFFFF - 2 ^ p)

/-- The egresses that frames of an ingress port can reach (R462). Results of P27 go to their owners. -/
def Hw.reach (h : Hw) (p : Nat) : Nat :=
  if p = 27 then 2 ^ 24 ||| 2 ^ 26 else h.floodMask p ||| (h.namedMask &&& (0xFFFFFFFF - 2 ^ p))

/-- Traffic charged to a quota can leave an egress in a class: a stream entry with a quota, a mode M port-class, or frames of CAN
origin, quota 64 + n, in the class of a tunnel (R49, R53). -/
def Hw.quotaTraffic (h : Hw) (e c : Nat) : Bool :=
  h.fwd.em.any (fun x => x.2.isStream && x.2.quota.isSome && x.2.cls.getD c == c && (h.entryReach x.2).testBit e) ||
  (List.range 32).any (fun p => h.modeM (pcOf p c) && (h.reach p).testBit e) ||
  ((h.reach 25).testBit e && (List.range 48).any (fun n => h.flag (Reg.CAN_CFG n) Fld.CAN_CFG_EN) &&
    (List.range 32).any (fun t => h.flag (Reg.BRG_TUNNEL_CFG t) Fld.BRG_TUNNEL_CFG_EN &&
      h.fld (Reg.BRG_TUNNEL_CFG t) Fld.BRG_TUNNEL_CFG_CLASS == c))

/-- The rules of R49 that a port-class's own settings break. -/
def Hw.voqBroken (h : Hw) (pc : Nat) : Bool :=
  let c := h.rn (Reg.SWC_VOQ_CFG pc)
  (h.modeM pc && !h.quotaOn (getF c Fld.SWC_VOQ_CFG_DEFAULT_QUOTA)) ||
  (!h.modeM pc && decide (pc < 192) && getF c Fld.SWC_VOQ_CFG_PFC_EN == 0) || decide (h.xoff pc ≤ h.xon pc)

/-- The rules of R49 a configuration breaks, as DETAIL codes; a quota without a port names port 0. -/
def Hw.brokenRules (h : Hw) : List Nat :=
  (List.range 256).filterMap (fun pc => if h.voqBroken pc then some (ruleCode (pc / 8) (pc % 8)) else none) ++
  h.fwd.em.filterMap (fun x => match x.2.quota with
    | some q => if x.2.isStream && !h.quotaOn q then some (ruleCode 0 (x.2.cls.getD 0)) else none
    | none => none) ++
  (List.range 48).filterMap (fun n =>
    if h.flag (Reg.CAN_CFG n) Fld.CAN_CFG_EN && !h.quotaOn (64 + n) then some (ruleCode 25 0) else none) ++
  (List.range 192).filterMap (fun pc =>
    if (h.fld (Reg.TSS_PORT_CFG (pc / 8)) Fld.TSS_PORT_CFG_PFC_HONOUR).testBit (pc % 8) && h.quotaTraffic (pc / 8) (pc % 8) then
      some (ruleCode (pc / 8) (pc % 8)) else none)

/-! ### The back-pressure graph (R462) -/

/-- The node of an ingress port-class of a device, by global port. -/
def inNode (gport cls : Nat) : Nat := gport * 8 + cls

/-- The node of an egress class of a device, by global port. -/
def outNode (gport cls : Nat) : Nat := 1024 + gport * 8 + cls

/-- The member and port at the far end of a cascade link, as recorded at formation. -/
def Hw.farEnd (h : Hw) (link : Nat) : Option (Nat × Nat) := match kvGet h.sys.peers (16 + link) with
  | some [m, p] => some (m, p)
  | _ => none

/-- Classes a frame can take at its lookup beside its own: ACL set-class, internal priority values, remapping policers. -/
def Hw.otherClasses (h : Hw) : List Nat :=
  (h.fwd.acl.filterMap (fun e => e.2.setCls) ++
   (h.tss.lists.filter (fun l => decide (100 ≤ l.1))).flatMap (fun l => (l.2.entries.filter (fun e => bit e 30)).map (fun e => bits e 29 27)) ++
   (h.regs.filter (fun r => decide (Reg.TSS_WEIR_RATE 768 ≤ r.1) && decide (r.1 < Reg.TSS_WEIR_RATE 4864) && r.1 % 8 == 0 &&
      getF r.2.toNat Fld.TSS_WEIR_RATE_EN == 1 && getF r.2.toNat Fld.TSS_WEIR_RATE_ACTION == 1)).map
        (fun r => getF r.2.toNat Fld.TSS_WEIR_RATE_REMAP_CLASS)).dedup

/-- An egress class that passes back-pressure on: a cascade link that honours pause, P26 and P27 (R462). -/
def Hw.passesOn (h : Hw) (e c : Nat) : Bool :=
  e == 26 || e == 27 || (h.isCascade e && (h.fld (Reg.TSS_PORT_CFG e) Fld.TSS_PORT_CFG_PFC_HONOUR).testBit c)

/-- The edges of this device. Firmware and the crypto engine answer in the class they were asked in. -/
def Hw.ownEdges (h : Hw) : List (Nat × Nat) :=
  let base := h.fld Reg.GLB_TOPOLOGY Fld.GLB_TOPOLOGY_DEV_INDEX * 32
  let more := h.otherClasses
  let ins := ((List.range 256).filter (fun pc => !h.modeM pc)).flatMap (fun pc =>
    (bitsOf 32 (h.reach (pc / 8))).flatMap (fun e =>
      ((pc % 8 :: more).dedup.filter (h.passesOn e)).map (fun c => (inNode (base + pc / 8) (pc % 8), outNode (base + e) c))))
  let outs := ((List.range 4).filter h.isCascade).flatMap (fun e => match h.farEnd e with
    | some (m, q) => ((List.range 8).filter (h.passesOn e)).map (fun c => (outNode (base + e) c, inNode (m * 32 + q) c))
    | none => [])
  let replies := [26, 27].flatMap (fun e => (List.range 8).map (fun c => (outNode (base + e) c, inNode (base + e) c)))
  ins ++ outs ++ replies

/-- Leave only edges that have an edge before and after them. -/
def pruneEdges : Nat → List (Nat × Nat) → List (Nat × Nat)
  | 0, l => l
  | n + 1, l =>
    let l' := l.filter (fun e => l.any (fun x => x.1 == e.2) && l.any (fun x => x.2 == e.1))
    if l'.length = l.length then l else pruneEdges n l'

/-- The edge that closes a cycle, as DETAIL (R349): an edge left after those on no cycle are taken away. -/
def Hw.graphCycle (h : Hw) : Option Nat :=
  let l := h.ownEdges ++ h.sys.edges.flatMap (·.2)
  (pruneEdges l.length l).head?.map (fun e => e.1 % 1024 / 8 * 2 ^ 16 + e.2 % 1024 / 8)

/-- Every deadlock condition a configuration breaks. -/
def Hw.deadlocks (h : Hw) : List Nat := h.graphCycle.toList ++ h.brokenRules

/-! ### The service check (R463) -/

/-- A strict class of a MAC is limited to less than the port rate; with the link down any limit counts. -/
def Hw.limited (h : Hw) (e c : Nat) : Bool :=
  let rate := h.portRate e
  let below (r : Nat) : Bool := rate == 0 || decide (r < rate)
  let shaper := h.weirOn (pcOf e c) && below (h.fld (Reg.TSS_WEIR_RATE (pcOf e c)) Fld.TSS_WEIR_RATE_RATE)
  let cbs := (c == 5 || c == 6) && h.flag (Reg.TSS_CBS_IDLE (e * 2 + (c - 5))) Fld.TSS_CBS_IDLE_EN &&
    below (h.fld (Reg.TSS_CBS_IDLE (e * 2 + (c - 5))) Fld.TSS_CBS_IDLE_IDLE_SLOPE)
  let ss := h.streamsOn e c
  let policed := ss.all (fun s => h.weirOn (768 + s)) &&
    below ((ss.map (fun s => h.fld (Reg.TSS_WEIR_RATE (768 + s)) Fld.TSS_WEIR_RATE_RATE)).sum)
  let gated := h.gateEn e && (match h.listOf e with
    | some l => (segments egressDur l.cycle 0 l.entries).any (fun s => !(gatesOf s.2.2).testBit c)
    | none => false)
  shaper || cbs || policed || gated

/-- The strict classes of an egress that lie above the lowest class carrying streams and are not limited. -/
def Hw.unserved (h : Hw) (e : Nat) : List Nat :=
  match (List.range 8).find? (fun c => !(h.streamsOn e c).isEmpty) with
  | none => []
  | some low => ((List.range 8).filter (fun c => decide (low < c) && decide (h.spMin e ≤ c) && !h.limited e c)).map (ruleCode e)

/-- The deadlock conditions that settings of an egress class can break. -/
def Hw.serviceRules (h : Hw) : List Nat := h.deadlocks ++ (List.range 24).flatMap h.unserved

end Sys2Proof.Machine
end

