-- ==== Sys2Proof/Machine/HostMap.lean ====
section
/-!
DEFINITION. What a host access reaches (R7, R9, R304, R305, R405, R483): the BAR0 map of the physical function and the
window of a virtual function; MSI-X messages (R306, R307).
-/
namespace Sys2Proof.Machine

/-- The owner that makes an access (R17): 2 for the physical function, n + 2 for virtual function n; 1,000 + o names owner o
itself, whose mailbox is served inside the device (R325; DEDUCED, log entry 20). -/
def fnOwner (fn : Nat) : Nat := if 1000 ≤ fn then fn - 1000 else if fn = 0 then 2 else fn + 2

/-- An access from inside the device. -/
def fnInside (fn : Nat) : Bool := decide (1000 ≤ fn)

/-- What stands at an offset of a function's space. -/
inductive HostAt where
  | nowhere
  /-- A register of the file. -/
  | reg (off : Nat)
  /-- VF_OWNER of a window. -/
  | vfOwner
  /-- Byte `b` of the function's mailbox. -/
  | slotRam (b : Nat)
  /-- Byte `b` of the function's MSI-X table. -/
  | msixTable (b : Nat)
  /-- Byte `b` of the function's pending-bit array. -/
  | msixPba (b : Nat)
  /-- The aperture: view 0 plain, 1 ADD, 2 SWAP, byte of the page (R405). -/
  | aperture (view b : Nat)
deriving DecidableEq, Repr

/-- What an owner inside the device reaches: its mailbox and the doorbell block of it (R325; DEDUCED, log entry 20). -/
def insideAt (owner off : Nat) : HostAt :=
  if off < 0x1000 then .slotRam off
  else if 0x6000 ≤ off ∧ off < 0x6100 then .reg (0x10000000 + 0x100 * owner + (off - 0x6000))
  else .nowhere

/-- The physical function's BAR0 of 16 MiB (R304). -/
def pfAt (off : Nat) : HostAt :=
  if 0x1000000 ≤ off then .nowhere
  else if off < 0x10000 then .reg off
  else if off < 0x11000 then .slotRam (off - 0x10000)
  else if 0x16000 ≤ off ∧ off < 0x16100 then .reg (0x10000200 + (off - 0x16000))
  else if off < 0x1F000 then .nowhere
  else if off < 0x20000 then .reg off
  else if off < 0x40000 then (if 0x20200 ≤ off ∧ off < 0x20300 then .reg off else .nowhere)
  else if off < 0x48000 then .reg off
  else if off < 0x50000 then .msixTable (off - 0x48000)
  else if off < 0x50100 then .msixPba (off - 0x50000)
  else if off < 0x60000 then .nowhere
  else if off < 0x80000 then (if off < 0x60200 then .reg off else .nowhere)
  else if 0x2A0000 ≤ off ∧ off < 0x2B8000 then .aperture ((off - 0x2A0000) / 0x8000) (off % 0x8000)
  else .reg off

/-- A virtual function's window (R305). -/
def vfAt (owner off : Nat) : HostAt :=
  if off < 0x1000 then .slotRam off
  else if off < 0x1100 then .reg (0x20000 + 0x100 * owner + (off - 0x1000))
  else if 0x2000 ≤ off ∧ off < 0x2200 then .reg (0x60000 + 0x200 * (owner - 2) + (off - 0x2000))
  else if 0x3000 ≤ off ∧ off < 0x3400 then
    (if off % 0x80 < 0x14 then .reg (0x200100 + (off - 0x3000)) else .nowhere)
  else if 0x4000 ≤ off ∧ off < 0x4180 then .reg (0x200C00 + (off - 0x4000))
  else if 0x4180 ≤ off ∧ off < 0x41E0 then .reg (0x200D80 + (off - 0x4180))
  else if 0x4200 ≤ off ∧ off < 0x4260 then .reg (0x200E00 + (off - 0x4200))
  else if off = 0x5000 then .reg 0
  else if off = 0x5004 then .vfOwner
  else if 0x6000 ≤ off ∧ off < 0x6100 then .reg (0x10000000 + 0x100 * owner + (off - 0x6000))
  else if 0x8000 ≤ off ∧ off < 0x8400 then .msixTable (off - 0x8000)
  else if 0x8400 ≤ off ∧ off < 0x8408 then .msixPba (off - 0x8400)
  else .nowhere

/-- The power domain of a register, none for GLB (R483). -/
def regDomain (off : Nat) : Option Nat :=
  if 0x10000000 ≤ off then some 46
  else match off / 0x40000 with
    | 0 => if off < 0x10000 then none else some 46
    | 1 => some 46
    | 2 => some 25
    | 4 => some 25
    | 5 =>
      if off < 0x158000 then
        (if 0x154000 ≤ off ∧ 0x200 ≤ off % 0x1000 ∧ off % 0x1000 ≤ 0x400 then some 2 else some (31 + (off - 0x140000) / 0x4000))
      else some (26 + (off - 0x158000) / 0x100)
    | 6 =>
      if off < 0x1B0000 then some (37 + (off - 0x180000) / 0x8000)
      else if off < 0x1B8000 then some 43
      else if 0x1BA000 ≤ off ∧ off < 0x1BA200 then some 1
      else if 0x1BF000 ≤ off ∧ off < 0x1BF004 then some 5
      else some 37
    | 7 => some 44
    | 8 => some 49
    | 9 => if off = 0x240024 ∨ off = 0x240028 then some 0 else some 4
    | 10 => some 6
    | 11 => some 0
    | 12 => some 48
    | 13 => some 5
    | _ => none

/-- A register answers: its domain is on (FWD: either pipeline), and the device is not SCRAPPED (R367, R483). -/
def Hw.answers (h : Hw) (off : Nat) : Bool :=
  if off = 0 then true
  else if h.fld Reg.SEC_STATUS Fld.SEC_STATUS_LIFECYCLE = 5 then false
  else if off / 0x40000 = 3 then h.pg 23 || h.pg 24
  else match regDomain off with
    | none => true
    | some d => h.pg d

/-- What a host access of a function reaches; nothing while the block is off. -/
def Hw.hostAt (h : Hw) (fn off : Nat) : HostAt :=
  let owner := fnOwner fn
  let t := if fn = 0 then pfAt off
    else if !h.own.active.contains owner then .nowhere
    else if fnInside fn then insideAt owner off else vfAt owner off
  if fnInside fn then t else
  match t with
  | .reg r => if h.answers r then t else .nowhere
  | .nowhere => t
  | .aperture _ _ => if h.pg 6 && h.pg 46 then t else .nowhere
  | _ => if h.pg 46 && h.fld Reg.SEC_STATUS Fld.SEC_STATUS_LIFECYCLE != 5 then t else .nowhere

/-- The register a host access reaches, if it reaches one. -/
def Hw.hostReg (h : Hw) (fn off : Nat) : Option Nat :=
  match h.hostAt fn (off / 4 * 4) with
  | .reg r => some r
  | _ => none

/-- The bytes selected by the enables of a read, in place (R7). -/
def selectBytes (en v : Nat) : Nat :=
  (if en.testBit 0 then v % 256 else 0) + (if en.testBit 1 then v / 256 % 256 * 256 else 0) +
    (if en.testBit 2 then v / 65536 % 256 * 65536 else 0) + (if en.testBit 3 then v / 16777216 % 256 * 16777216 else 0)

/-- The words a host access touches, from the aligned word it begins in on (R7): `en` marks its bytes, bit 0 the first byte of that
word. An access that marks no byte reads its word (DESIGN CHOICE, log entry 33). -/
def touched (en : Nat) : List Nat :=
  if en = 0 then [0] else (List.range 3).filter (fun k => en / 16 ^ k % 16 != 0)

/-- Answer a host read. -/
def Hw.answer (h : Hw) (off en v : Nat) : Hw := h.emit (.regData off (selectBytes en v))

/-! ### MSI-X -/

/-- Vectors of a function's table. -/
def Hw.vectorCount (h : Hw) (owner : Nat) : Nat :=
  if owner = 2 then h.fld Reg.HDMA_MSIX_ALLOC Fld.HDMA_MSIX_ALLOC_PF_VECTORS
  else h.fld Reg.HDMA_MSIX_ALLOC Fld.HDMA_MSIX_ALLOC_VF_VECTORS

/-- Word `w` of an owner's MSI-X table; vector control words reset masked (PCIe; PRESUMED, log entry 5). -/
def Hw.msixWord (h : Hw) (owner w : Nat) : Nat := kvGetD h.hdma.msixTbl (owner * 8192 + w) (if w % 4 = 3 then 1 else 0)

/-- Update the host interface. -/
def Hw.onHdma (h : Hw) (f : Hdma → Hdma) : Hw := { h with hdma := f h.hdma }

/-- Send a vector's message, or set its pending bit while it is masked (R306, R307). -/
def Hw.sendMsix (h : Hw) (owner vec : Nat) : Hw :=
  if h.vectorCount owner ≤ vec then h.inc Reg.HDMA_BAD_VECTOR
  else if (h.msixWord owner (vec * 4 + 3)).testBit 0 then
    h.onHdma (fun d => { d with msixPba := kvPut d.msixPba (owner * 2048 + vec) true })
  else h.emit (.msix owner vec)

/-- Unmask a vector whose pending bit is set: the message goes (R306). -/
def Hw.unmask (h : Hw) (owner vec : Nat) : Hw :=
  let k := owner * 2048 + vec
  if kvGetD h.hdma.msixPba k false && !(h.msixWord owner (vec * 4 + 3)).testBit 0 then
    (h.onHdma (fun d => { d with msixPba := kvDel d.msixPba k })).emit (.msix owner vec)
  else h

/-- A host write of a word of an MSI-X table. -/
def Hw.msixWrite (h : Hw) (owner w v : Nat) : Hw :=
  if w / 4 < h.vectorCount owner then
    (h.onHdma (fun d => { d with msixTbl := kvPut d.msixTbl (owner * 8192 + w) v })).unmask owner (w / 4)
  else h

/-- A word of the pending-bit array. -/
def Hw.pbaWord (h : Hw) (owner w : Nat) : Nat :=
  maskOf ((List.range 32).filter (fun i => kvGetD h.hdma.msixPba (owner * 2048 + w * 32 + i) false))

/-- MSIX_UNMASK (R306): a function's vector control word is unmasked. -/
def execMsixUnmask (fn vec : Nat) (s : State) : Res :=
  onHw s (fun h => h.msixWrite (fnOwner fn) (vec * 4 + 3) (h.msixWord (fnOwner fn) (vec * 4 + 3) / 2 * 2))

end Sys2Proof.Machine
end

