-- ==== Sys2Proof/Machine/Evq.lean ====
section
/-!
DEFINITION. Spout and the event queues (R320 to R323, R465): records written into rings, overflow, messages, enables and
consumer writes.
-/
namespace Sys2Proof.Machine

/-- Update the event queues. -/
def Hw.onEvq (h : Hw) (f : Evq → Evq) : Hw := { h with evq := f h.evq }

/-- An event queue is enabled. -/
def Hw.evqEn (h : Hw) (o : Nat) : Bool := h.flag (Reg.EVQ_CTRL o) Fld.EVQ_CTRL_EN

/-- Records a queue's ring holds. -/
def Hw.evqSize (h : Hw) (o : Nat) : Nat := 2 ^ h.fld (Reg.EVQ_CTRL o) Fld.EVQ_CTRL_LOG2

/-- Records written and not yet consumed. -/
def Hw.evqUsed (h : Hw) (o : Nat) : Nat := (h.rn (Reg.EVQ_PROD o) + 2 ^ 32 - h.rn (Reg.EVQ_CONS o)) % 2 ^ 32

/-- Free slots of a queue. -/
def Hw.evqFree (h : Hw) (o : Nat) : Nat := h.evqSize o - h.evqUsed o

/-- Queues served inside the device (R323). -/
def evqInternal (o : Nat) : Bool := decide (o < 2) || decide (258 ≤ o)

/-- Send the message of a queue and disarm it. -/
def Hw.evqMessage (h : Hw) (o : Nat) : Hw :=
  let h := (h.setFld (Reg.EVQ_STATUS o) Fld.EVQ_STATUS_ARMED 0).onEvq (fun q =>
    { q with since := kvDel q.since o, sinceRec := kvDel q.sinceRec o })
  h.sendMsix o (h.fld (Reg.EVQ_CTRL o) Fld.EVQ_CTRL_VECTOR)

/-- The message rule of R323: armed, VEC_EN, MOD_COUNT records since the last message, or an overflow record. -/
def Hw.evqMaybeMessage (h : Hw) (o : Nat) (now : Bool) : Hw :=
  let armed := h.flag (Reg.EVQ_STATUS o) Fld.EVQ_STATUS_ARMED
  if evqInternal o || !h.flag (Reg.EVQ_CTRL o) Fld.EVQ_CTRL_VEC_EN || !armed then h
  else if now || decide (h.fld (Reg.EVQ_MOD o) Fld.EVQ_MOD_MOD_COUNT ≤ kvGetD h.evq.since o 0) then h.evqMessage o
  else h

/-- Write one record into the ring (R320, R321); a VIE_ALARM record written more than 10 µs after its verdict is late (R169). -/
def Hw.writeRecord (h : Hw) (r : EvRec) : Hw :=
  let h := if r.kind = 0x0901 ∧ r.at_ + 5000 < h.clk then h.inc Reg.VIE_LATE else h
  let o := r.owner
  let i := h.rn (Reg.EVQ_PROD o)
  let n := h.fld (Reg.EVQ_CTRL o) Fld.EVQ_CTRL_LOG2
  let phase := if (i / 2 ^ n) % 2 = 0 then 1 else 0
  let ws := [phase * 2 ^ 31 + r.kind / 256 % 64 * 2 ^ 25 + o % 512 * 2 ^ 16 + r.kind % 2 ^ 16, r.w1 % 2 ^ 32,
    h.rn (Reg.EVQ_SEQ o), r.w3 % 2 ^ 32, r.w4 % 2 ^ 32, r.w5 % 2 ^ 32, r.w6 % 2 ^ 32, r.w7 % 2 ^ 32]
  let first := (kvGet h.evq.sinceRec o).isNone
  let h := ((h.wn (Reg.EVQ_PROD o) (i + 1)).wn (Reg.EVQ_SEQ o) (h.rn (Reg.EVQ_SEQ o) + 1)).emit (.evRecord o i ws)
  h.onEvq (fun q => { q with
    times := kvMod q.times o [] (· ++ [h.clk])
    since := kvMod q.since o 0 (· + 1),
    sinceRec := if first then kvPut q.sinceRec o h.clk else q.sinceRec,
    lateTimer := insertNew q.lateTimer o,
    lateAt := if q.lateTimer.contains o then q.lateAt else kvPut q.lateAt o h.clk })

/-- Words 4 to 7 of an epoch record (R289) and its low nanoseconds. -/
def Hw.epochRec (h : Hw) (o b : Nat) : EvRec :=
  let ns := h.tbNs b
  let sec := ns / 1000000000
  let st := h.rn (Reg.TIME_TB_STATE b)
  ⟨o, 0x0A02, ns % 2 ^ 32, b,
    getF st Fld.TIME_TB_STATE_STEP_COUNT * 2 ^ 24 + getF st Fld.TIME_TB_STATE_STATE * 2 ^ 16 + sec / 2 ^ 32 % 2 ^ 16,
    sec % 2 ^ 32, ns % 1000000000, h.adj b / 2 ^ 8, h.clk⟩

/-- Stage an epoch record for a queue (R289). -/
def Hw.postEpoch (h : Hw) (o b : Nat) : Hw :=
  let r := h.epochRec o b
  h.post o 0x0A02 r.w3 r.w4 r.w5 r.w6 r.w7

/-- The queues with epoch records enabled on a base. -/
def Hw.epochQueues (h : Hw) (b : Nat) : List Nat :=
  (h.regs.filter (fun e => decide (0x20000 ≤ e.1) && decide (e.1 < 0x40000) && e.1 % 256 == 0 &&
    getF e.2.toNat Fld.EVQ_CTRL_EN == 1 && getF e.2.toNat Fld.EVQ_CTRL_EPOCH_EN == 1 &&
    getF e.2.toNat Fld.EVQ_CTRL_TB == b)).map (fun e => (e.1 - 0x20000) / 256)

/-- Once slots free after a loss: the EVQ_OVERFLOW record and an epoch record (R322, R290). -/
def Hw.overflowRecord (h : Hw) (o : Nat) : Hw :=
  let epoch := h.flag (Reg.EVQ_CTRL o) Fld.EVQ_CTRL_EPOCH_EN
  let b := h.fld (Reg.EVQ_CTRL o) Fld.EVQ_CTRL_TB
  if h.flag (Reg.EVQ_STATUS o) Fld.EVQ_STATUS_OVF_PENDING && decide ((if epoch then 2 else 1) ≤ h.evqFree o) then
    let n := kvGetD h.evq.lost o 0
    let h := (h.setFld (Reg.EVQ_STATUS o) Fld.EVQ_STATUS_OVF_PENDING 0).onEvq (fun q => { q with lost := kvDel q.lost o })
    let h := h.writeRecord ⟨o, 0x0001, h.tbNs b % 2 ^ 32, 14336 + o, n, 0, 0, 0, h.clk⟩
    let h := if epoch then h.writeRecord (h.epochRec o b) else h
    h.evqMaybeMessage o true
  else h

/-- The event queue of an owner takes records: that of an inactive owner accepts nothing (R31). -/
def Hw.takes (h : Hw) (o : Nat) : Bool := evqInternal o || h.own.active.contains o

/-- Spout takes one record: written, or lost when its queue is full, disabled or still owes its overflow record (R322), or its
owner is not active (R31). -/
def Hw.spoutTake (h : Hw) (r : EvRec) : Hw :=
  if !h.evqEn r.owner || !h.takes r.owner then h.loseRecord r.owner
  else
    let h := h.overflowRecord r.owner
    if h.flag (Reg.EVQ_STATUS r.owner) Fld.EVQ_STATUS_OVF_PENDING || h.evqFree r.owner = 0 then h.loseRecord r.owner
    else (h.writeRecord r).evqMaybeMessage r.owner false

/-- SPOUT_RECORD_WRITE (R321): the oldest staged record is written or lost. -/
def execSpoutRecordWrite (s : State) : Res :=
  onHw s (fun h => match h.evq.staging with
    | [] => h
    | r :: rs => (h.onEvq (fun q => { q with staging := rs })).spoutTake r)

/-- Setting EN from 0 to 1 (R321, R341, R454). -/
def Hw.evqEnable (h : Hw) (o : Nat) : Hw :=
  let h := ((h.wn (Reg.EVQ_PROD o) 0).wn (Reg.EVQ_CONS o) 0).wn (Reg.EVQ_SEQ o) 0
  let h := (h.setFld (Reg.EVQ_STATUS o) Fld.EVQ_STATUS_OVF_PENDING 0).setFld (Reg.EVQ_STATUS o) Fld.EVQ_STATUS_ARMED 1
  let h := h.onEvq (fun q => { q with
    lost := kvDel q.lost o, since := kvDel q.since o, sinceRec := kvDel q.sinceRec o, times := kvDel q.times o,
    lateTimer := without q.lateTimer o, lateDone := without q.lateDone o, lateAt := kvDel q.lateAt o })
  if o = 2 && !h.evq.firstEn then
    let h := h.onEvq (fun q => { q with firstEn := true })
    let h := h.post 2 0x0D01 0 (h.rn Reg.PWR_READY) (h.rn Reg.PWR_READY_PORTS)
    if h.flag Reg.MBX_STATUS Fld.MBX_STATUS_SAFE_SET then h.post 2 0x0202 0 (h.rn Reg.MBX_BOOT_REPORT) else h
  else h

/-- A host write of EVQ_CTRL: discarded whole with LOG2 outside 6 to 16 (R321). -/
def Hw.evqCtrlWrite (h : Hw) (o v : Nat) : Hw :=
  let lg := getF v Fld.EVQ_CTRL_LOG2
  if lg < 6 ∨ 16 < lg then h
  else
    let was := h.evqEn o
    let h := h.wn (Reg.EVQ_CTRL o) (v / 1024 * 1024)
    if !was && h.evqEn o then h.evqEnable o else h

/-- A host write of EVQ_CONS (R322, R323). -/
def Hw.evqConsWrite (h : Hw) (o v : Nat) : Hw :=
  let adv := (v + 2 ^ 32 - h.rn (Reg.EVQ_CONS o)) % 2 ^ 32
  if h.evqUsed o < adv then h.inc (Reg.EVQ_BAD_CONS o)
  else
    let h := (h.wn (Reg.EVQ_CONS o) v).setFld (Reg.EVQ_STATUS o) Fld.EVQ_STATUS_ARMED 1
    let h := h.onEvq (fun q => { q with
      times := kvMod q.times o [] (·.drop adv)
      lateTimer := without q.lateTimer o, lateDone := without q.lateDone o,
      lateAt := kvDel q.lateAt o })
    (h.overflowRecord o).evqMaybeMessage o false

/-- The owner whose register of an EVQ block an access reaches. -/
def evqOwnerOf (r : Nat) : Nat := (r - 0x20000) / 256

/-- EVQ_EN_SET (R321): a full host write that sets EN of EVQ_CTRL. -/
def execEvqEnSet (fn off en val : Nat) (s : State) : Res :=
  onHw s (fun h => match h.hostReg fn off with
    | some r => if en = 15 ∧ 0x20000 ≤ r ∧ r < 0x40000 ∧ r % 256 = 0 ∧ getF val Fld.EVQ_CTRL_EN = 1
        then h.evqCtrlWrite (evqOwnerOf r) val else h
    | none => h)

/-- EVQ_CONS_WRITE (R323). -/
def execEvqConsWrite (fn off en val : Nat) (s : State) : Res :=
  onHw s (fun h => match h.hostReg fn off with
    | some r => if en = 15 ∧ 0x20000 ≤ r ∧ r < 0x40000 ∧ r % 256 = 0x14 then h.evqConsWrite (evqOwnerOf r) val else h
    | none => h)

/-- MOD_US has passed since the first record a queue wrote after its last message (R323). -/
def Hw.modDue (h : Hw) (o : Nat) : Bool := match kvGet h.evq.sinceRec o with
  | some t => decide (t + h.fld (Reg.EVQ_MOD o) Fld.EVQ_MOD_MOD_US * 500 ≤ h.clk)
  | none => false

/-- EVQ_MOD_TIMER (R323): MOD_US after the first record since the last message, the message of an armed queue goes. -/
def execEvqModTimer (owner : Nat) (s : State) : Res :=
  onHw s (fun h => if h.modDue owner then h.evqMaybeMessage owner true else h)

/-- A queue's service bound has been reached by a gap that no record has reported (R465). -/
def Hw.serviceLate (h : Hw) (o : Nat) : Bool :=
  decide (2 ≤ o) && h.evq.lateTimer.contains o && !h.evq.lateDone.contains o && h.evqUsed o != 0 &&
  decide (kvGetD h.evq.lateAt o h.clk + h.fld (Reg.EVF_SVC_BOUND o) Fld.EVF_SVC_BOUND_BOUND_MS * 500000 ≤ h.clk)

/-- EVQ_SERVICE_LATE (R465): a queue of owners 2 to 511 left unconsumed for its bound posts one record per episode. -/
def execEvqServiceLate (owner : Nat) (s : State) : Res :=
  onHw s (fun h =>
    if !h.serviceLate owner then h
    else
      let bound := h.fld (Reg.EVF_SVC_BOUND owner) Fld.EVF_SVC_BOUND_BOUND_MS
      let since := (h.clk - kvGetD h.evq.lateAt owner h.clk) / 500000
      ((h.inc Reg.EVF_EVQ_LATE).onEvq (fun q => { q with lateDone := q.lateDone ++ [owner] })).post 1 0x0F02 owner bound since)

end Sys2Proof.Machine
end

