-- ==== Sys2Proof/Machine/MacOps.lean ====
section
/-!
DEFINITION. What a MAC does to frames: MACsec (R198 to R201), timestamps (R196), PTP correction (R284), tag changes,
the bytes a frame is sent with, octet counts (R202).
-/
namespace Sys2Proof.Machine

/-! ### MACsec -/

/-- The key of an SA: MAC, direction (0 transmit, 1 receive), channel, AN. -/
def saIdx (mac dir ch an : Nat) : Nat := mac * 128 + dir * 64 + ch * 4 + an

/-- The 12-byte GCM IV of a PN under an SA (IEEE 802.1AE; with XPN the salt masks SSCI and PN). -/
def macsecIv (xpn : Bool) (sa : Sa) (pn : Nat) : List Byte :=
  if xpn then toBe 12 (sa.salt ^^^ (sa.ssci * 2 ^ 64 + pn % 2 ^ 64)) else toBe 12 (sa.sci * 2 ^ 32 + pn % 2 ^ 32)

/-- The confidentiality offset in bytes. -/
def confOffset (code : Nat) : Nat := [0, 30, 50, 50].getD code 0

/-- Protect a frame without its FCS (R199): SecTAG with SCI, ciphertext, ICV. -/
def macsecSeal (cfg : Nat) (sa : Sa) (an pn : Nat) (b : List Byte) : List Byte :=
  let conf := getF cfg Fld.MAC_SEC_CFG_CONFIDENTIAL == 1
  let data := b.drop 12
  let off := if conf then confOffset (getF cfg Fld.MAC_SEC_CFG_CONF_OFFSET) else data.length
  let tag := toBe 2 0x88E5 ++ toBe 1 (0x20 + (if conf then 0x0C else 0) + an)
    ++ toBe 1 (if data.length < 48 then data.length else 0) ++ toBe 4 (pn % 2 ^ 32) ++ toBe 8 sa.sci
  let iv := macsecIv (getF cfg Fld.MAC_SEC_CFG_XPN == 1) sa pn
  let ct := gcmXor sa.key iv (data.drop off)
  let aad := b.take 12 ++ tag ++ data.take off
  aad ++ ct ++ toBe 16 (gcmTag sa.key iv aad ct).toNat

/-- The SecTAG of a protected frame: AN, encrypted, PN low 32 bits, SCI. -/
structure SecTag where
  an  : Nat
  enc : Bool
  pn  : Nat
  sci : Nat
  len : Nat
deriving DecidableEq, Repr

/-- Read a SecTAG; without an explicit SCI it is the source address with port 1. -/
def secTagOf (b : List Byte) : SecTag :=
  let tci := be (sub b 14 1)
  if tci.testBit 5 then ⟨tci % 4, tci.testBit 3, be (sub b 16 4), be (sub b 20 8), 16⟩
  else ⟨tci % 4, tci.testBit 3, be (sub b 16 4), be (sub b 6 6) * 2 ^ 16 + 1, 8⟩

/-- The full PN of a received frame: with XPN its high half follows the lowest acceptable PN. -/
def fullPn (xpn : Bool) (low pn : Nat) : Nat :=
  if !xpn then pn
  else
    let c := low / 2 ^ 32 * 2 ^ 32 + pn
    if c < low && decide (2 ^ 31 ≤ low - c) then c + 2 ^ 32 else c

/-- Open a protected frame given whole with its FCS: the plain frame without FCS, and whether the ICV is good. -/
def macsecOpen (cfg : Nat) (sa : Sa) (t : SecTag) (pn : Nat) (raw : List Byte) : List Byte × Bool :=
  let b := raw.take (raw.length - 4)
  let icv := b.drop (b.length - 16)
  let body := (b.take (b.length - 16)).drop (12 + t.len)
  let off := if t.enc then confOffset (getF cfg Fld.MAC_SEC_CFG_CONF_OFFSET) else body.length
  let iv := macsecIv (getF cfg Fld.MAC_SEC_CFG_XPN == 1) sa pn
  let ct := body.drop off
  let aad := b.take (12 + t.len) ++ body.take off
  (b.take 12 ++ body.take off ++ gcmXor sa.key iv ct,
   toBe 16 (gcmTag sa.key iv aad ct).toNat == icv)

/-- The plain head of a protected frame, for its lookup while it is still arriving. -/
def macsecHead (cfg : Nat) (sa : Sa) (t : SecTag) (pn : Nat) (raw : List Byte) : List Byte :=
  let body := raw.drop (12 + t.len)
  let off := if t.enc then confOffset (getF cfg Fld.MAC_SEC_CFG_CONF_OFFSET) else body.length
  raw.take 12 ++ body.take off ++ gcmXor sa.key (macsecIv (getF cfg Fld.MAC_SEC_CFG_XPN == 1) sa pn) (body.drop off)

/-- The bypass list of a MAC (R199); 0x0000 is an empty slot. -/
def Hw.bypass (h : Hw) (mac etype : Nat) : Bool :=
  etype != 0 && (List.range 4).any (fun i =>
    let w := h.rn (Reg.MAC_SEC_BYPASS mac i)
    getF w Fld.MAC_SEC_BYPASS_HI == etype || getF w Fld.MAC_SEC_BYPASS_LO == etype)

/-- What MACsec makes of a frame at its first bytes (R201). -/
inductive SecRx where
  /-- No SecY, or validation off: unchanged. -/
  | plain
  /-- Passed unprotected. -/
  | clear
  /-- Discarded before admission. -/
  | drop
  /-- Under validation: channel, AN, full PN, SA and settings as they stand now, and the tag. -/
  | under (sec : RxSec) (t : SecTag)

/-- The receive decision of R201, with its counter. -/
def Hw.macsecRx (h : Hw) (mac : Nat) (head : List Byte) : SecRx × Hw :=
  let cfg := h.rn (Reg.MAC_SEC_CFG mac)
  if !h.macsecOn mac || getF cfg Fld.MAC_SEC_CFG_VALIDATE == 0 then (.plain, h)
  else
    let et := (parseHdr head).etype
    let strict := getF cfg Fld.MAC_SEC_CFG_VALIDATE == 2
    if be (sub head 12 2) = 0x88E5 then
      let t := secTagOf head
      match (List.range 16).find? (fun ch => match kvGet h.mac.sa (saIdx mac 1 ch t.an) with
          | some sa => sa.sci == t.sci && sa.en
          | none => false) with
      | none => (.drop, h.inc (Reg.MAC_SEC_RX_NO_SA mac))
      | some ch =>
        match kvGet h.mac.sa (saIdx mac 1 ch t.an) with
        | none => (.drop, h.inc (Reg.MAC_SEC_RX_NO_SA mac))
        | some sa =>
          let pn := fullPn (getF cfg Fld.MAC_SEC_CFG_XPN == 1) sa.pn t.pn
          if getF cfg Fld.MAC_SEC_CFG_REPLAY_PROTECT == 1 && decide (pn < sa.pn) then
            (.drop, h.inc (Reg.MAC_SEC_RX_LATE mac))
          else (.under ⟨ch, t.an, pn, sa, cfg⟩ t, h)
    else if et = 0x8808 || h.bypass mac et then (.clear, h.inc (Reg.MAC_SEC_RX_BYPASS mac))
    else
      let h := h.inc (Reg.MAC_SEC_RX_UNTAGGED mac)
      if strict then (.drop, h) else (.clear, h)

/-- A validated frame moves the lowest acceptable PN of its SA up (R201). -/
def Hw.macsecGood (h : Hw) (mac ch an pn : Nat) : Hw :=
  let h := h.inc (Reg.MAC_SEC_RX_OK mac)
  let w := h.rn (Reg.MAC_SEC_REPLAY_WINDOW mac)
  h.onMac (fun m => match kvGet m.sa (saIdx mac 1 ch an) with
    | none => m
    | some sa => { m with sa := kvPut m.sa (saIdx mac 1 ch an) { sa with pn := max sa.pn (pn + 1 - w) } })

/-- The largest PN of the cipher suite in force. -/
def Hw.pnLimit (h : Hw) (mac : Nat) : Nat :=
  if h.flag (Reg.MAC_SEC_CFG mac) Fld.MAC_SEC_CFG_XPN then 2 ^ 64 - 1 else 2 ^ 32 - 1

/-- An SA of a MAC that may transmit another frame. -/
def Hw.txUsable (h : Hw) (mac an : Nat) : Bool :=
  match kvGet h.mac.sa (saIdx mac 0 0 an) with
  | some sa => sa.en && decide (sa.pn ≤ h.pnLimit mac)
  | none => false

/-- The AN a frame is sent under: TX_AN, or the next AN when TX_AN is at its limit (R200). -/
def Hw.txAnFor (h : Hw) (mac : Nat) : Option Nat :=
  let an := h.fld (Reg.MAC_SEC_CFG mac) Fld.MAC_SEC_CFG_TX_AN
  if h.txUsable mac an then some an
  else if h.txUsable mac ((an + 1) % 4) then some ((an + 1) % 4) else none

/-- Take the PN, SA and settings a frame is sent with; passing 0xC000_0000 is reported once per SA (R200). -/
def Hw.takePn (h : Hw) (mac an : Nat) : Option TxSec × Hw :=
  match kvGet h.mac.sa (saIdx mac 0 0 an) with
  | none => (none, h)
  | some sa =>
    let next := sa.pn + 1
    let cross := decide (0xC0000000 < next % 2 ^ 32) && !sa.thresh
    let h := (h.setFld (Reg.MAC_SEC_CFG mac) Fld.MAC_SEC_CFG_TX_AN an).onMac (fun m =>
      { m with sa := kvPut m.sa (saIdx mac 0 0 an) { sa with pn := next, thresh := sa.thresh || cross } })
    (some ⟨an, sa.pn, sa, h.rn (Reg.MAC_SEC_CFG mac)⟩, if cross then h.post 1 0x0604 mac an else h)

/-- A frame of the Basin is protected on a MAC: not MAC control, not in the bypass list (R199). -/
def Hw.protects (h : Hw) (mac : Nat) (b : List Byte) : Bool :=
  let et := (parseHdr b).etype
  h.macsecOn mac && et != 0x8808 && !h.bypass mac et

/-! ### Timestamps and octets -/

/-- A latency register in units of 2^-47 ns. -/
def latRaw (w : Nat) : Nat := bits w 31 16 * nsUnit + bits w 15 0 * 2 ^ 31

/-- Stamps of all bases moved, which leaves their marks as they are. -/
def stampsMoved (s : List Nat) (f : Nat → Nat) : List Nat := (s.take 16).map f ++ s.drop 16

/-- The receive stamps of a frame whose first bit crossed the PCS `ago` cycles before: each base as it stood then, less the
external latency (R196, R281). -/
def Hw.rxStamps (h : Hw) (mac ago : Nat) : List Nat :=
  let lat := if mac < 24 then latRaw (h.rn (Reg.MAC_RX_PHY_LAT mac)) else 0
  stampsMoved (h.stampsAgo ago) (· - lat)

/-- The transmit stamps of this cycle, with the external latency added (R196). -/
def Hw.txStamps (h : Hw) (mac : Nat) : List Nat :=
  let lat := if mac < 24 then latRaw (h.rn (Reg.MAC_TX_PHY_LAT mac)) else 0
  stampsMoved h.stamps (· + lat)

/-! ### What leaves -/

/-- Replace `n` bytes at `i`. -/
def patch (b : List Byte) (i : Nat) (new : List Byte) : List Byte := b.take i ++ new ++ b.drop (i + new.length)

/-- Ones'-complement sum of 16-bit words. -/
def onesAdd (a b : Nat) : Nat := if a + b ≥ 65536 then a + b - 65535 else a + b

/-- The 16-bit words of bytes. -/
def words16 : Nat → List Byte → List Nat
  | 0, _ => []
  | n + 1, l => if l.isEmpty then [] else be (l.take 2) :: words16 n (l.drop 2)

/-- A UDP checksum adjusted for replaced bytes (RFC 1624): ~(~HC + Σ ~m + Σ m'). -/
def adjustSum (hc : Nat) (old new : List Byte) : Nat :=
  let s := (words16 8 old).foldl (fun a w => onesAdd a (65535 - w)) (65535 - hc)
  65535 - (words16 8 new).foldl onesAdd s

/-- The residence and link delay added to a transit PTP event message (R284), in units of 2^-16 ns; none when the frame
is not one. -/
def Hw.ptpAdd (h : Hw) (f : Frame) (b : List Byte) (txs : List Nat) : Option (PtpMsg × Nat) :=
  match ptpOf b with
  | none => none
  | some m =>
    match h.ptpDomain m with
    | none => none
    | some d =>
      let mode := h.fld (Reg.TIME_DOM_CFG d) Fld.TIME_DOM_CFG_MODE
      let tb := h.fld (Reg.TIME_DOM_CFG d) Fld.TIME_DOM_CFG_TB
      if m.isEvent && (mode == 2 || mode == 3) then
        let res := (txs.getD (8 + tb) 0 - f.stamps.getD (8 + tb) 0) / 2 ^ 31
        let link := if mode = 3 && m.type = 0 && decide (f.ingress < 24)
          then h.rn (Reg.TIME_PORT_LINK_DELAY f.ingress) else 0
        some (m, res + link)
      else none

/-- A correctionField after an addition, and whether it saturated (R284). -/
def corrAfter (old add : Nat) : Nat × Bool :=
  let v := signed 64 old + add
  if v ≥ 2 ^ 63 then (2 ^ 63 - 1, true) else (twos 64 v, false)

/-- A frame with its PTP correction made; the UDP checksum is 0 over IPv4 and adjusted over IPv6. -/
def ptpFix (b : List Byte) (m : PtpMsg) (add : Nat) : List Byte :=
  let old := sub b (m.at_ + 8) 8
  let new := toBe 8 (corrAfter (be old) add).1
  let b' := patch b (m.at_ + 8) new
  match m.via with
  | 0 => b'
  | 1 => patch b' (m.at_ - 2) (toBe 2 0)
  | _ => patch b' (m.at_ - 2) (toBe 2 (adjustSum (be (sub b (m.at_ - 2) 2)) old new))

/-- A frame (without FCS) as an egress sends it: routed addresses, R-TAG added or removed, and the outer tag removed on a
port of the untagged mask or added on another, with its drop-eligible indicator (R80, R133, R137; PRESUMED, log entry 15); a frame that lost its tag is padded to 60 bytes. -/
def editFrame (f : Frame) (egress : Nat) (b : List Byte) : List Byte :=
  let d := parseHdr b
  let da := match f.edit.newDa with | some m => toBe 6 m | none => b.take 6
  let vid := f.edit.newVid.getD f.vid
  let body := toBe 2 d.etype ++ d.body
  let body := match f.edit.addRtag with
    | some s => toBe 2 0xF1C1 ++ toBe 2 0 ++ toBe 2 s ++ body
    | none => if f.edit.stripRtag && d.etype == 0xF1C1 then d.body.drop 4 else body
  let tag := if f.untag.testBit egress then []
    else toBe 2 0x8100 ++ toBe 2 (f.pcp * 2 ^ 13 + (if f.dei || deiOf b then 2 ^ 12 else 0) + vid)
  let out := da ++ sub b 6 6 ++ tag ++ body
  out ++ List.replicate (if d.tagged && tag.isEmpty then 60 - out.length else 0) 0

end Sys2Proof.Machine
end

