-- ==== Sys2Proof/Machine/Ingress.lean ====
section
/-!
DEFINITION. A frame's way into the Basin and through its lookup: admission (R48 to R59), classification of received frames
(R63, R185), the effect of the lookup's outcome (R85, R135, R137, R147, R165), the end of a frame that goes nowhere.
-/
namespace Sys2Proof.Machine

/-- What the head of a frame decides before its first cell is charged (R23, R48, R84). -/
structure Classed where
  cls   : Nat
  quota : Nat
  owner : Nat
  entry : Option EmEntry
  vid   : Nat
  pcp   : Nat

/-- Owner of the frames of a MAC with no stream entry: the port's default owner (R23). -/
def Hw.portOwner (h : Hw) (port : Nat) : Nat := if port < 24 then kvGetD h.fwd.defOwner port 1 else h.svcOwner port

/-- Classify a frame by its head. Given owner and class come from internal sources; a CAN origin selects quota 64 + n. The OWNER of
a stream entry serves frames of a MAC only (R23). -/
def Hw.classify (h : Hw) (port : Nat) (head : List Byte) (owner cls can : Option Nat) : Classed :=
  let d := parseHdr head
  let vid := h.vidOf port d
  let pcp := h.pcpOf port d
  let se := h.streamEntry (pipeB port) d vid
  let c := match cls with
    | some c => c
    | none => match se with
      | some e => e.cls.getD (h.mapClass port pcp)
      | none => h.mapClass port pcp
  let q := match can with
    | some n => 64 + n
    | none => match (match se with | some e => e.quota | none => none) with
      | some q => q
      | none => if h.modeM (pcOf port c) then h.fld (Reg.SWC_VOQ_CFG (pcOf port c)) Fld.SWC_VOQ_CFG_DEFAULT_QUOTA else 255
  let o := match owner with
    | some o => o
    | none => match (match se with | some e => if port < 24 then e.owner else none | none => none) with
      | some o => o
      | none => h.portOwner port
  ⟨c, q, o, se, vid, pcp⟩

/-- A frame refused at its first cell is counted in its account's counter and reported (R51, R58). -/
def Hw.refuseCell (h : Hw) (port : Nat) (k : Classed) : Hw :=
  if k.quota < 128 then (h.inc (Reg.SWC_MMQ_DROP k.quota)).postMod 0x0301 k.quota
  else (h.inc (Reg.SWC_HDRM_DROP port)).postMod 0x0302 port

/-- The account of a frame takes it: a quota has a whole frame free (R51); a held port-class of a MAC has headroom (R58). -/
def Hw.accountTakes (h : Hw) (port : Nat) (k : Classed) : Bool :=
  if k.quota < 128 then
    let r := h.rn (Reg.SWC_MMQ_CFG k.quota)
    decide (getF r Fld.SWC_MMQ_CFG_EN = 1 ∧
      getF r Fld.SWC_MMQ_CFG_MAX_FRAME_CELLS ≤ getF r Fld.SWC_MMQ_CFG_RESERVED - h.mmqUsed k.quota)
  else
    let pc := pcOf port k.cls
    match kvGet h.swc.holdAt pc with
    | none => true
    | some lvl => decide (24 ≤ port) || decide (h.pcUsed pc < lvl + h.fld (Reg.SWC_VOQ_HDRM pc) Fld.SWC_VOQ_HDRM_HEADROOM)

/-- The admission test at the first cell (R51, R58); a refused frame is counted and reported, also when the free list is empty
(DESIGN CHOICE, log entry 153). Before READY no port delivers a frame (R42). -/
def Hw.admitTest (h : Hw) (port : Nat) (k : Classed) : Bool × Hw :=
  if !h.flag Reg.SWC_STATUS Fld.SWC_STATUS_READY || !h.sec.admits then (false, h)
  else if h.accountTakes port k && decide (0 < h.freeCells) then (true, h)
  else (false, h.refuseCell port k)

/-- The cells a frame may draw and the tail cause of more, fixed at its first cell (R53, R55, R63). -/
def Hw.cellLimit (h : Hw) (quota : Nat) : Nat × Nat :=
  if quota < 128 then
    let m := min 36 (h.fld (Reg.SWC_MMQ_CFG quota) Fld.SWC_MMQ_CFG_MAX_FRAME_CELLS)
    (m, if m = 36 then 2 else 3)
  else (36, 2)

/-- A frame becomes bad, keeping its first cause, and is counted unless its discard is counted already (R61, R63). -/
def Hw.markBad (h : Hw) (id cause : Nat) : Hw :=
  match h.frame? id with
  | none => h
  | some f => if f.bad.isSome then h
    else
      let h := h.onFrame id (fun x => { x with bad := some cause, counted := true })
      if f.counted then h else h.inc (Reg.SWC_TAIL_CAUSE cause)

/-- Write the bytes of a frame that its cells can hold; a frame that outgrows its limit is bad, and so is one for which no cell is
free (R53, R63; DESIGN CHOICE, log entry 153). A frame whose cells are gone keeps none. -/
def Hw.growFrame (h : Hw) (id : Nat) (bytes : List Byte) : Hw :=
  match h.frame? id with
  | none => h
  | some f =>
    let held := bytes.take (f.limit.1 * 256)
    let h := if f.dead then h else h.drawCells id (cellsFor held.length - f.cells.length)
    match h.frame? id with
    | none => h
    | some g =>
      let fit := if f.dead then held else held.take (g.cells.length * 256)
      let h := (h.onFrame id (fun x => { x with len := fit.length })).writeFrame g fit
      if fit.length < held.length then h.markBad id 3
      else if held.length < bytes.length then h.markBad id f.limit.2 else h

/-- Put an admitted frame's first bytes into the Basin: its descriptor and its cells. ARRIVAL is the count of this cycle, in which
its first cell is admitted (R40). -/
def Hw.beginFrame (h : Hw) (port : Nat) (k : Classed) (bytes : List Byte) (stamps : List Nat) (tail : Bool)
    (kind : Nat) (dest : Option Nat) (tsReq : Option (Nat × Nat)) : Nat × Hw :=
  let id := h.swc.nextId
  let f : Frame := {
    id := id, cells := [], len := 0, owner := k.owner, keySel := kvGetD h.own.keySel k.owner 0, ingress := port,
    cls := k.cls, arrival := h.clk % 2 ^ 32, quota := k.quota, acct := pcOf port k.cls,
    bad := none, tail := tail, asked := false, looked := false, dead := false, stamps := stamps, copies := [],
    stream := none, vie := none, vid := k.vid, pcp := k.pcp, untag := 0, edit := noEdit, tsReq := tsReq, refund := [],
    sdu := none, acl := none, kind := kind, dest := dest, sentAt := [], dests := 0, cut := false, tie := false, dei := false,
    limit := h.cellLimit k.quota, counted := false, heldBy := [], told := none }
  (id, (h.onSwc (fun s => { s with nextId := id + 1, frames := s.frames ++ [f] })).growFrame id bytes)

/-- A cell is retired until device reset, and counted (R47). -/
def Hw.retireCell (h : Hw) (c : Nat) : Hw :=
  if h.swc.retired.contains c then h
  else (h.onSwc (fun s => { s with retired := s.retired ++ [c] })).wn Reg.SWC_CELLS_RETIRED (h.swc.retired.length + 1)

/-- A Basin ECC event while a frame's cells are read or written: 1 corrected, 2 uncorrectable (R47), 3 + i uncorrectable in the
generation count of the frame's cell i, which retires the cell; that error too is counted and makes the frame bad with cause 4
(DESIGN CHOICE, log entry 151). -/
def Hw.basinEcc (h : Hw) (id ecc : Nat) : Hw :=
  match ecc with
  | 0 => h
  | 1 => h.inc Reg.SWC_BASIN_CE
  | 2 => (h.inc Reg.SWC_BASIN_UE).markBad id 4
  | n + 3 =>
    let h := (h.inc Reg.SWC_BASIN_UE).markBad id 4
    match h.frame? id with
    | some f => match f.cells[n]? with
      | some c => h.retireCell c
      | none => h
    | none => h

/-- Update the receiver of a port. -/
def Hw.setRx (h : Hw) (port : Nat) (r : Rx) : Hw := h.onSwc (fun s => { s with rx := kvPut s.rx port r })

/-- The receiver of a port is idle again. -/
def Hw.clrRx (h : Hw) (port : Nat) : Hw := h.onSwc (fun s => { s with rx := kvDel s.rx port })

/-- An internal source has the credit for `n` cells of a port-class (R59); a class that global XOFF holds has none (R57). -/
def Hw.creditFor (h : Hw) (pc n : Nat) : Bool := (kvGet h.swc.holdAt pc).isNone && decide (n ≤ h.xoff pc - h.pcUsed pc)

/-- P26 and P30 start a frame that their commands give only with credit for the cells given (R59; DESIGN CHOICE, log entry 154). -/
def Hw.mustWait (h : Hw) (port : Nat) (k : Classed) (n : Nat) : Bool :=
  decide (24 ≤ port) && decide (128 ≤ k.quota) && !h.creditFor (pcOf port k.cls) n

/-- A MAC begins to receive a frame: MACsec decision (R201), admission, first cell; P26 and P30 begin one given by a command, or
wait for credit (R59). -/
def Hw.firstCell (h : Hw) (port : Nat) (head : List Byte) (age owner ecc : Nat) : Hw :=
  if (kvGet h.swc.rx port).isSome || head.isEmpty || (decide (port < 24) && !h.linkUp port)
      || (decide (24 ≤ port) && port != 26 && (port != 30 || h.sys.testgen.isEmpty)) then h
  else
    let stamps := h.rxStamps port age
    let d := h.macsecRx port head
    let h := d.2
    let off (sec : Option RxSec) (counted : Bool) (h : Hw) : Hw := h.setRx port ⟨head, none, sec, stamps, none, counted⟩
    let go (plain : List Byte) (sec : Option RxSec) (h : Hw) : Hw :=
      if (parseHdr plain).etype = 0x8808 && decide (port < 24) then off sec false h
      else
        let k := h.classify port plain (if port = 26 then some owner else none) none none
        if h.mustWait port k (cellsFor plain.length) then h.stall port
        else
          let t := h.admitTest port k
          if t.1 then
            let b := t.2.beginFrame port k plain stamps false 0 none none
            (b.2.setRx port ⟨head, some b.1, sec, stamps, none, false⟩).basinEcc b.1 ecc
          else off sec (h.flag Reg.SWC_STATUS Fld.SWC_STATUS_READY) t.2
    match d.1 with
    | .plain => go head none h
    | .clear => go head none h
    | .drop => off none true h
    | .under sec t => go (macsecHead sec.cfg sec.sa t sec.pn head) (some sec) h

/-! ### The tail -/

/-- The classification of a received frame (R185): row 1 to 7, with its counters; rows 2 to 5 are bad, with their cause. -/
def rxClass (protected_ : Bool) (raw : List Byte) (symErr : Bool) : Nat :=
  if raw.length < 64 then 1
  else if (if protected_ then 9248 else 9216) < raw.length then 2
  else if symErr then 3
  else if fcsStomp raw then 4
  else if !fcsGood raw then 5
  else if (parseHdr raw).etype = 0x8808 then 6
  else 7

/-- The tail cause of a classification row. -/
def causeOfClass (c : Nat) : Option Nat :=
  match c with | 2 => some 2 | 3 => some 1 | 4 => some 6 | 5 => some 0 | _ => none

/-- Count a received frame of a MAC in its classification counter and its octets (R185). -/
def Hw.countRx (h : Hw) (mac c : Nat) (raw : List Byte) : Hw :=
  let h := h.addRxOctets mac raw.length
  match c with
  | 1 => h.inc (Reg.MAC_RX_RUNT mac)
  | 2 => h.inc (Reg.MAC_RX_OVERSIZE mac)
  | 3 => h.inc (Reg.MAC_RX_SYMBOL_ERR mac)
  | 4 => h.inc (Reg.MAC_RX_STOMP mac)
  | 5 => h.inc (Reg.MAC_RX_FCS_ERR mac)
  | 6 => h.inc (Reg.MAC_RX_PAUSE mac)
  | _ =>
    let h := h.inc (Reg.MAC_RX_FRAMES_OK mac)
    let da := be (sub raw 0 6)
    if da = 0xFFFFFFFFFFFF then h.inc (Reg.MAC_RX_BCAST mac)
    else if isGroup da then h.inc (Reg.MAC_RX_MCAST mac) else h

/-- An egress discards a bad frame's copy unless it is already sending it (R65); P28 keeps its copy for the VIE. -/
def keepsBad (c : Copy) : Bool := c.st == CopyState.sending || c.egress == 28

/-- A frame that is bad at its tail: copies not begun are discarded. -/
def Hw.discardBad (h : Hw) (id : Nat) : Hw :=
  match h.frame? id with
  | none => h
  | some f => if f.bad.isNone then h
    else ((f.copies.filter (fun c => !keepsBad c)).map (·.egress)).foldl (fun a e =>
      (match a.frame? id with | some g => a.txStamp g e none | none => a).release id e) h

/-- Give back what a charge by MAXLEN or MAX_SDU took too much of (R121, R133); an emptied class keeps its deficit of 0. -/
def Hw.refundAll (h : Hw) (f : Frame) : Hw :=
  f.refund.foldl (fun a r =>
    if r.1 = 2 && a.classEmpty (r.2.1 / 8) (r.2.1 % 8) then a
    else if r.1 = 2 then a.onTss (fun t => { t with deficit := kvMod t.deficit r.2.1 0 (· + (r.2.2 - f.len)) })
    else a.weirGive r.2.1 (r.2.2 - f.len)) h

/-- A learn or refresh request of a good frame (R95, R96, R97); a frame to a reserved address is never learned from (R84). -/
def Hw.learnRequest (h : Hw) (f : Frame) (bytes : List Byte) : Hw :=
  let d := parseHdr bytes
  let port := f.ingress
  if f.bad.isSome || isGroup d.sa || isReserved d.da || !h.flag (Reg.FWD_PORT_CFG port) Fld.FWD_PORT_CFG_LEARN_EN then h
  else
    let key := keyOf d.sa f.vid
    let tb := h.fld Reg.FWD_LEARN_CFG Fld.FWD_LEARN_CFG_TB
    let time := if port < 24 then stampNs f.stamps tb else h.tbNs tb
    let mov := h.flag (Reg.FWD_PORT_CFG port) Fld.FWD_PORT_CFG_MOVABLE
    let dev := h.fld Reg.GLB_TOPOLOGY Fld.GLB_TOPOLOGY_DEV_INDEX
    let rq (learn : Bool) : LearnReq := ⟨learn, key, port, dev * 32 + port, time, mov, none⟩
    let push (r : LearnReq) (h : Hw) : Hw := { h with fwd := { h.fwd with learnQ := h.fwd.learnQ ++ [r] } }
    let learn (h : Hw) : Hw := if 1024 ≤ h.fwd.learnQ.length then h.inc Reg.FWD_LEARN_DROP else push (rq true) h
    match h.emFind (pipeB port) 0 key with
    | none => learn h
    | some e =>
      if e.2.group.isNone && e.2.port == port then
        if e.2.static || e.2.age == h.rn Reg.FWD_AGE_NOW then h
        else if 512 < h.fwd.learnQ.length then h.inc Reg.FWD_REFRESH_SKIP else push (rq false) h
      else learn h

/-- The descriptor of a frame whose tail is in and whose references are gone is forgotten. -/
def Hw.reap (h : Hw) (id : Nat) : Hw :=
  match h.frame? id with
  | none => h
  | some f => if f.tail && (f.dead || (f.looked && f.copies.isEmpty)) then
      (if f.dead && f.cells.isEmpty then h.onSwc (fun s => { s with frames := s.frames.filter (fun x => x.id != id) })
       else h.freeFrame f) else h

/-- The frame without a home: descriptor removed and cells freed, whatever its copies. -/
def Hw.dropFrame (h : Hw) (id : Nat) : Hw :=
  match h.frame? id with
  | none => h
  | some f => h.freeFrame { f with copies := [] }

/-- A frame still arriving passes the MAX_SDU of its stream filter (R135): counted, and the filter blocks if it says so. -/
def Hw.overSdu (h : Hw) (s : Nat) : Hw :=
  let h := (h.inc Reg.TSS_SLUICE_SDU_DROP).inc (Reg.TSS_SLUICE_DROP s)
  if h.flag (Reg.TSS_SLUICE_FILTER s) Fld.TSS_SLUICE_FILTER_OVERSIZE_BLOCK then
    h.setFld (Reg.TSS_SLUICE_FILTER s) Fld.TSS_SLUICE_FILTER_BLOCKED 1 else h

/-- A receive symbol error at byte `i` comes before the frame passes `n` bytes, or at the same byte (R63). -/
def symFirst (sym : Option Nat) (n : Nat) : Bool := match sym with | some i => decide (i ≤ n) | none => false

/-- A frame's lengths at its tail: its cells drawn, bytes written, LENGTH set; drawing stops at its limit, at its stream filter's
MAX_SDU or for want of a cell, and the frame is then bad; a symbol error met before that is its cause (R53, R63, R135). -/
def Hw.fillFrame (h : Hw) (id : Nat) (plain : List Byte) (sym : Option Nat) : Hw :=
  match h.frame? id with
  | none => h
  | some f =>
    let top := f.limit.1 * 256
    let lim := match f.sdu with | some n => min n top | none => top
    let h := if symFirst sym (min lim plain.length) then h.markBad id 1 else h
    match f.sdu with
    | some n =>
      if n < plain.length && n < top then
        let bad := match h.frame? id with | some g => g.bad.isSome | none => false
        let h := h.growFrame id (plain.take n)
        (if bad || f.dead then h else h.overSdu (f.stream.getD 0)).markBad id 3
      else h.growFrame id plain
    | none => h.growFrame id plain

/-- The tail of a frame reaches the Basin (R63): bad causes, the stream filter's MAX_SDU, refunds, learning, samples. A frame dropped
at its lookup before its tail still learns, is sampled and gets its refunds (R75, R95, R96, R133). -/
def Hw.endTail (h : Hw) (id : Nat) (plain : List Byte) (sym cause : Option Nat) (ecc : Nat) : Hw :=
  let h := h.fillFrame id plain sym
  let h := match sym with | some _ => h.markBad id 1 | none => h
  let h := match cause with | some c => h.markBad id c | none => h
  let h := (h.basinEcc id ecc).onFrame id (fun x => { x with tail := true })
  match h.frame? id with
  | none => h
  | some f =>
    let h := (h.refundAll f).onFrame id (fun x => { x with refund := [] })
    let h := if f.kind = 0 then h.learnRequest f plain else h
    let h := if f.looked then h.sampleFrame f plain else h
    (h.discardBad id).reap id

/-- What validation makes of a protected frame at its tail (R201): the plain frame, the cause it is bad for, and the counter and
lowest acceptable PN moved. The verdict needs no descriptor. -/
def Hw.macsecTail (h : Hw) (port : Nat) (sec : RxSec) (raw : List Byte) (cause : Option Nat) : (List Byte × Option Nat) × Hw :=
  let t := secTagOf raw
  let o := macsecOpen sec.cfg sec.sa t sec.pn raw
  let plain := o.1 ++ fcsOf o.1
  if cause.isSome then ((plain, cause), h)
  else if o.2 then ((plain, none), h.macsecGood port sec.ch sec.an sec.pn)
  else if t.enc || getF sec.cfg Fld.MAC_SEC_CFG_VALIDATE == 2 then ((plain, some 7), h.inc (Reg.MAC_SEC_RX_INVALID port))
  else ((plain, none), h.inc (Reg.MAC_SEC_RX_NOT_VALID port))

/-- The byte of the plain frame a byte of the line belongs to. -/
def plainPos (sec : Option RxSec) (raw : List Byte) (i : Nat) : Nat :=
  match sec with | some _ => i - (secTagOf raw).len | none => i

/-- The last byte of a frame in reception at a port (R63, R185). -/
def Hw.rxTail (h : Hw) (port : Nat) (rest : List Byte) (symErr : Option Nat) (ecc : Nat) : Hw :=
  match kvGet h.swc.rx port with
  | none => h
  | some r =>
    let raw := r.raw ++ rest
    let h := h.clrRx port
    let mac := decide (port < 24)
    let c := rxClass (mac && h.macsecOn port) raw symErr.isSome
    let h := if mac then h.countRx port c raw else h
    if c = 1 then
      match r.frame.bind h.frame? with
      | none => if r.counted || r.frame.isSome then h else h.inc Reg.SWC_RUNT
      | some f =>
        let h := if f.counted then h else h.inc Reg.SWC_RUNT
        (h.onFrame f.id (fun x => { x with tail := true })).dropFrame f.id
    else
      let v := match r.sec with
        | none => ((raw, causeOfClass c), h)
        | some sec => h.macsecTail port sec raw (causeOfClass c)
      match r.frame with
      | none => v.2
      | some id => v.2.endTail id v.1.1 (symErr.map (plainPos r.sec raw)) v.1.2 ecc

/-! ### Internal sources -/

/-- A whole frame (FCS included) enters the Basin from an internal source; CAN-origin frames may be dropped whole (R51). Its tail is
in, so it raises its learn request (R95, R96). -/
def Hw.enterFrame (h : Hw) (port : Nat) (f : SrcFrame) : Hw :=
  let k := h.classify port f.bytes (some f.owner) f.cls f.canSrc
  let t := h.admitTest port k
  if t.1 then
    let b := t.2.beginFrame port k f.bytes t.2.stamps true f.kind f.dest f.tsReq
    let h := b.2.onFrame b.1 (fun x => { x with told := f.told })
    match h.frame? b.1 with
    | some g => if f.kind = 0 then h.learnRequest g f.bytes else h
    | none => h
  else t.2

/-- An internal source has the credit for a frame (R59): CAN-origin frames are charged to their quota and need none. -/
def Hw.hasCredit (h : Hw) (port : Nat) (f : SrcFrame) : Bool :=
  let k := h.classify port f.bytes (some f.owner) f.cls f.canSrc
  decide (k.quota < 128) || h.creditFor (pcOf port k.cls) (cellsFor f.bytes.length)

/-- An internal source starts a frame, or lets it wait for credit behind what already waits (R59). -/
def Hw.sendInternal (h : Hw) (port : Nat) (f : SrcFrame) : Hw :=
  if (kvGetD h.swc.srcWait port []).isEmpty && h.hasCredit port f then h.enterFrame port f
  else (h.stall port).onSwc (fun s => { s with srcWait := kvMod s.srcWait port [] (· ++ [f]) })

/-! ### The outcome of a lookup -/

/-- Streams whose fallback delivers stream `f` too (R165). -/
def Hw.fallbacksTo (h : Hw) (f : Nat) : List Nat := (h.vie.s.filter (fun e => e.2.fbTo == some f)).map (·.1)

/-- A word of a stream as it will be once the changes that wait for its next frame open are in force (R162). -/
def Hw.vieWord (h : Hw) (s r : Nat) : Nat :=
  match kvGet h.vie.s s with
  | some v => (((v.pend.getD []).reverse.find? (fun w => w.1 == r)).map (·.2)).getD (h.rn r)
  | none => h.rn r

/-- FORMAT of a stream from its next frame open on. -/
def Hw.vieFormat (h : Hw) (s : Nat) : Nat := getF (h.vieWord s (Reg.VIE_S_CFG s)) Fld.VIE_S_CFG_FORMAT

/-- A sequence_num discontinuity before a packet (R150, R152). -/
def gapBefore (lastSeq : Option Nat) (p : Avtp) : Bool :=
  match lastSeq with | some q => p.seq != (q + 1) % 256 | none => false

/-- The open frame closes, incomplete, before this packet (R150): a new timestamp, or after a discontinuity line 1 (RVF) or a
new timestamp (CVF). -/
def closesBefore (fmt : Nat) (ts lastSeq : Option Nat) (disc : Bool) (p : Avtp) : Bool :=
  (p.tv && (match ts with | some t => t != p.ts | none => false)) ||
  ((gapBefore lastSeq p || disc) && (if fmt = 0 then p.line == 1 else p.tv && ts != some p.ts))

/-- How a packet is read (R149, R150): whether it closes the frame that is open under format `fmt`, then the format and the content it
is read with, none when its subtype is another one. With no frame open the format is `new`, that of the next frame; the first packet
of a new format ends a frame of the old one (DEDUCED, log entry 161). -/
def readPacket (fmt : Option Nat) (new : Nat) (ts lastSeq : Option Nat) (disc : Bool) (b : List Byte) : Bool × Option (Nat × Avtp) :=
  let next := (avtpOf new b).map (fun p => (new, p))
  match fmt with
  | none => (false, next)
  | some f => match avtpOf f b with
    | some p => if closesBefore f ts lastSeq disc p then (true, next) else (false, some (f, p))
    | none => if f = new then (false, none) else (next.isSome, next)

/-- The masks of a stream that its lookups keep; none in force at first. -/
def Hw.lookOf (h : Hw) (s : Nat) : VieLook := kvGetD h.vie.look s ⟨false, 0, none, none, false, false, []⟩

/-- The lookup of a packet follows its stream's frames, and switches the fallback masks at a frame open (R165). A stream no longer
watched keeps its masks until its next frame opens. -/
def Hw.vieMasks (h : Hw) (s : Nat) (watched : Bool) (bytes : List Byte) : Hw :=
  let set (k : VieLook) : Hw := { h with vie := { h.vie with look := kvPut h.vie.look s k } }
  if !watched && (kvGet h.vie.look s).isNone then h
  else
    let k := h.lookOf s
    let r := readPacket (if k.openF then some k.fmt else none) (h.vieFormat s) k.ts k.lastSeq k.disc bytes
    match r.2 with
    | none => if r.1 then set { k with openF := false } else h
    | some (fmt, p) =>
      let opens := !k.openF || r.1
      if opens && !watched then { h with vie := { h.vie with look := kvDel h.vie.look s } }
      else
        let fb := match kvGet h.vie.s s with | some v => v.fbTo.isSome | none => false
        let k := if opens then { k with fmt := fmt, ts := none, disc := false, withheld := fb, forDisp := h.fallbacksTo s }
          else { k with disc := k.disc || gapBefore k.lastSeq p }
        set { k with openF := !p.eof, lastSeq := some p.seq, ts := if k.ts.isNone && p.tv then some p.ts else k.ts }

/-- The destination mask of a packet of a stream: its display withheld or others' displays added (R165), and P28 while it is watched
(R147). -/
def Hw.vieDests (h : Hw) (s : Nat) (watched : Bool) (mask : Nat) : Nat :=
  let port (t : Nat) : Nat := h.fld (Reg.VIE_S_CFG t) Fld.VIE_S_CFG_AGE_PORT
  let k := h.lookOf s
  let m := if k.withheld && mask.testBit (port s) then mask - 2 ^ port s else mask
  k.forDisp.foldl (fun a t => a ||| 2 ^ port t) m ||| (if watched then 2 ^ 28 else 0)

/-- A class-7 frame bound for a preempting MAC gives it a notice, and what the MAC sends is preempted if it can be (R129). -/
def Hw.expressNotice (h : Hw) (f : Frame) (mask : Nat) : Hw :=
  if f.cls != 7 then h
  else (bitsOf 20 mask).foldl (fun a e =>
    if a.preemptOn e && a.gateOpen e 7 && a.shaperOk e 7 (a.maxLen e 7) then
      (a.onTss (fun t => { t with notice := kvMod t.notice e [] (· ++ [(f.id, a.clk + 500)]) })).suspend e
    else a) h

/-- The Sluice's and FRER's part of the lookup: dropped, or its class, edit, destinations and charges. -/
structure Passed where
  drop   : Bool
  cls    : Nat
  dests  : Nat
  edit   : Edit
  refund : List (Nat × Nat × Nat)
  dei    : Bool

/-- Per-stream filtering, policing, elimination and replication of a frame (R135, R137). A member frame without an R-TAG has no
sequence number: it passes and is not counted (DESIGN CHOICE, log entry 150). -/
def Hw.perStream (h : Hw) (f : Frame) (bytes : List Byte) (l : Looked) : Passed × Hw :=
  match l.stream with
  | none => (⟨false, l.cls, l.dests, l.edit, [], false⟩, h)
  | some s =>
    let r := h.sluice s l.cls (if f.tail then some f.len else none)
    let h := r.2
    if !r.1.pass then (⟨true, l.cls, l.dests, l.edit, [], false⟩, h)
    else
      match h.frerPair s with
      | none => (⟨false, r.1.cls, l.dests, l.edit, r.1.refund, r.1.dei⟩, h)
      | some n =>
        let x := h.frerOf n
        if h.flag (Reg.TSS_FRER_CFG n) Fld.TSS_FRER_CFG_ROLE then
          let a := h.fld (Reg.TSS_FRER_HANDLE0 n) Fld.TSS_FRER_HANDLE0_MEMBER_A
          let b := h.fld (Reg.TSS_FRER_HANDLE1 n) Fld.TSS_FRER_HANDLE1_MEMBER_B
          (⟨false, r.1.cls, h.streamDests a ||| h.streamDests b, { l.edit with addRtag := some x.genSeq }, r.1.refund, r.1.dei⟩,
           h.setFrer n { x with genSeq := (x.genSeq + 1) % 65536 })
        else
          let d := parseHdr bytes
          if d.etype = 0xF1C1 then
            let v := h.eliminate n s (be (sub d.body 2 2))
            (⟨!v.1, r.1.cls, l.dests, { l.edit with stripRtag := true }, r.1.refund, r.1.dei⟩, v.2)
          else (⟨false, r.1.cls, l.dests, l.edit, r.1.refund, r.1.dei⟩, h)

/-- A frame whose source names its egress is looked up in no table: kind 1000 + queue is bound for P24, 100 + port for a port. -/
def directed (f : Frame) : Looked :=
  ⟨false, if 1000 ≤ f.kind then 2 ^ 24 else 2 ^ (f.kind - 100), f.cls, none, none, none, noEdit, none, 0, false⟩

/-- The lookup of a frame is done (R85): its outcome is applied to its descriptor. -/
def Hw.lookupDone (h : Hw) (f : Frame) (ecc : List (Nat × Nat × Bool)) : Hw :=
  let h := h.tableEcc (pipeB f.ingress) ecc
  let bytes := h.readFrame f
  let direct := decide (100 ≤ f.kind)
  let t := if direct then (directed f, h) else h.tableLookup f.ingress bytes
  let l := t.1
  let p : Passed × Hw := if l.drop then (⟨true, l.cls, l.dests, l.edit, [], false⟩, t.2) else t.2.perStream f bytes l
  let h := p.2
  let named := if p.1.drop then none else match l.entry with | some e => e.vie | none => none
  let on (v : Nat) : Bool := h.flag (Reg.VIE_S_CFG v) Fld.VIE_S_CFG_EN
  let vie := named.filter on
  let h := match named with | some v => h.vieMasks v (on v) bytes | none => h
  let dests := match named with | some v => h.vieDests v (on v) p.1.dests | none => p.1.dests
  let sdu := match l.stream with
    | some s => if !f.tail && h.flag (Reg.TSS_SLUICE_FILTER s) Fld.TSS_SLUICE_FILTER_EN
        then some (h.fld (Reg.TSS_SLUICE_FILTER s) Fld.TSS_SLUICE_FILTER_MAX_SDU) else none
    | none => none
  let drop := p.1.drop || dests == 0
  let copies := if drop then [] else (bitsOf 32 dests).map (fun e => (⟨e, .waiting⟩ : Copy))
  let h := h.onFrame f.id (fun x => { x with
    looked := true, cls := p.1.cls, copies := copies, stream := l.stream, vie := vie, untag := l.untag, edit := p.1.edit,
    refund := p.1.refund, sdu := sdu, acl := l.acl, dest := if x.dest.isSome then x.dest else l.dest, tie := l.tie,
    dei := p.1.dei, dests := if drop then 0 else dests, counted := x.counted || drop })
  match h.frame? f.id with
  | none => h
  | some g =>
    let h := if f.tail then h.sampleFrame g bytes else h
    if drop then h.freeFrame { g with copies := [] }
    else (h.expressNotice g dests).discardBad f.id

end Sys2Proof.Machine
end

