-- ==== Sys2Proof/Machine/Switch.lean ====
section
/-!
DEFINITION. The switch core's commands (chapter The Basin and the switch core; R120 for transmission).
-/
namespace Sys2Proof.Machine

/-- FRAME_FIRST_CELL (R51): the first cell of a frame arriving at a MAC, or given by a control core at P26 or the test
generator at P30; `head` is its first 128 bytes or more, or the whole frame, `age` the cycles since its first bit. -/
def execFrameFirstCell (port : Nat) (head : List Byte) (age owner ecc : Nat) (s : State) : Res :=
  onHw s (fun h => if port < 32 then h.firstCell port head age owner ecc else h)

/-- The oldest frame of a port whose lookup has not started, or has started and not ended. -/
def Hw.unlooked (h : Hw) (port : Nat) (asked : Bool) : Option Frame :=
  h.swc.frames.find? (fun f => f.ingress == port && !f.looked && !f.dead && f.asked == asked)

/-- FRAME_LOOKUP_START (R62): at the 128th byte, or at the last byte of a shorter frame. -/
def execFrameLookupStart (port : Nat) (s : State) : Res :=
  onHw s (fun h => match h.unlooked port false with
    | some f => if decide (128 ≤ f.len) || f.tail then h.onFrame f.id (fun x => { x with asked := true }) else h
    | none => h)

/-- FRAME_LOOKUP_DONE (R85), with the table ECC errors met: table, index, uncorrectable. -/
def execFrameLookupDone (port : Nat) (ecc : List (Nat × Nat × Bool)) (s : State) : Res :=
  onHw s (fun h => match h.unlooked port true with
    | some f => h.lookupDone f ecc
    | none => h)

/-- FRAME_TAIL (R63): the rest of the frame in reception; `symErr` names the byte of a code or symbol error. -/
def execFrameTail (port : Nat) (rest : List Byte) (symErr : Option Nat) (ecc : Nat) (s : State) : Res :=
  onHw s (fun h => h.rxTail port rest symErr ecc)

/-- ARBITER_ITERATION (R69). -/
def execArbiterIteration (s : State) : Res :=
  onHw s (fun h => if h.flag Reg.SWC_STATUS Fld.SWC_STATUS_READY then h.arbitrate else h)

/-! ### Transmission -/

/-- An internal egress whose frames have a command of their own: P24, P25, P27, P28. -/
def ownRow (e : Nat) : Bool := e == 24 || e == 25 || e == 27 || e == 28

/-- The MAC may begin a frame: link up, out of low-power idle, not backing off, no pause ahead of it unless class 7, permitted by
gate, pause, notice and hold, its transmitter free or sending a preemptable frame that can be preempted now (R56, R122, R128,
R129, R192, R510); a bad frame is not begun (R65). -/
def Hw.mayStart (h : Hw) (e : Nat) (f : Frame) : Bool :=
  f.bad.isNone &&
  (if 24 ≤ e then !ownRow e && !(e == 26 && (parseHdr (h.readFrame f)).etype == 0x88B5)
  else h.linkUp e && !h.lpi e && !h.mac.backoff.contains e
    && ((kvGetD h.swc.pauseQ e []).isEmpty || f.cls == 7)
    && h.permitted e f
    && (match h.txTop e with
      | none => (kvGetD h.swc.tx e []).isEmpty
      | some (t, g) => !t.express && h.expressF e f && (t.susp || h.canCut e t g)))

/-- The egress class shaper's charge, with what a frame still arriving may get back (R133). -/
def Hw.chargeShaper (h : Hw) (e : Nat) (f : Frame) : Hw :=
  let len := h.chargeLen f e
  let h := if h.weirOn (e * 8 + f.cls) then h.weirTake (e * 8 + f.cls) len else h
  if f.tail || !h.weirOn (e * 8 + f.cls) then h
  else h.onFrame f.id (fun x => { x with refund := x.refund ++ [(1, e * 8 + f.cls, len)] })

/-- A saturated PTP correction is counted at the egress MAC (R284). -/
def Hw.countCfSat (h : Hw) (e : Nat) (f : Frame) (b : List Byte) (stamps : List Nat) : Hw :=
  match h.ptpAdd f b stamps with
  | some (m, add) => if decide (e < 24) && (corrAfter (be (sub b (m.at_ + 8) 8)) add).2 then h.inc (Reg.TIME_CF_SAT e) else h
  | none => h

/-- A frame was on the line of a MAC before and met a collision (R188). -/
def Hw.retrying (h : Hw) (e id : Nat) : Bool :=
  match kvGet h.mac.attempts e with | some a => a.1 == id | none => false

/-- The first byte of a notice leaves a MAC: late when that is more than 3 µs and its accepted bound, at most 150 µs, after the alarm it
tells of (R169). -/
def Hw.noticeOut (h : Hw) (f : Frame) (e : Nat) : Hw :=
  match f.told with
  | none => h
  | some t =>
    if 24 ≤ e then h
    else
      let b := match f.stream with
        | some s => if h.rn (Reg.TSS_STREAM_BOUND s) = 0 then 150000 else min 150000 (h.rn (Reg.TSS_STREAM_BOUND s))
        | none => 150000
      let h := h.onFrame f.id (fun x => { x with told := none })
      if t + 1500 + b / 2 < h.clk then h.inc Reg.VIE_LATE else h

/-- A frame starts on its egress (R120), preempting what its MAC is sending (R128); forwarding has begun before the tail of a frame
still arriving (CUT of R40). A retry after a collision is charged no second time (R188). -/
def Hw.txBegin (h : Hw) (e : Nat) (f : Frame) : Hw :=
  let stamps := h.txStamps e
  let go (sec : Option TxSec) (h : Hw) : Hw :=
    let h := h.suspend e
    let again := h.retrying e f.id
    let h := (if again then h else h.chargeShaper e f).setCopy f.id e .sending
    let h := h.onFrame f.id (fun x => { x with cut := x.cut || !x.tail })
    let h := h.onSwc (fun s => { s with tx := kvMod s.tx e [] (⟨f.id, stamps, h.expressF e f, sec, h.clk, 0, false⟩ :: ·) })
    let h := (h.dropNotice f.id (some e)).noticeOut f e
    if again then h else h.countCfSat e f (h.readFrame f) stamps
  if decide (e < 24) && h.protects e (h.readFrame f) then
    match h.txAnFor e with
    | none => (h.inc (Reg.MAC_SEC_TX_PN_EXHAUST e)).txStamp f e none |>.release f.id e
    | some an =>
      let t := h.takePn e an
      match t.1 with
      | none => (t.2.inc (Reg.MAC_SEC_TX_PN_EXHAUST e)).txStamp f e none |>.release f.id e
      | some sec => go (some sec) t.2
  else go none h

/-- A granted frame whose key is destroyed can be read by no egress: its copy is discarded (R22, R24). -/
def Hw.keyless (h : Hw) (f : Frame) : Bool := (h.basinKey? f.owner f.keySel).isNone

/-- The granted frame of an egress starts if the MAC may begin it; pauses that wait go first (R56, R129). One that may no longer begin
waits again. -/
def Hw.txStart (h : Hw) (e : Nat) : Hw :=
  match h.grantedAt e with
  | none => if decide (e < 24) && !h.txBusy e then (h.sendPauses e).resume e else h
  | some f =>
    if h.keyless f then ((h.txStamp f e none).release f.id e).reap f.id
    else
      let h := if decide (e < 24) && f.cls != 7 && !h.txBusy e then h.sendPauses e else h
      if h.mayStart e f then h.txBegin e f else h.withdraw e

/-- EGRESS_TX_START (R120). E20 to E23 under PLCA start only at their opportunities (R187). -/
def execEgressTxStart (e : Nat) (s : State) : Res :=
  onHw s (fun h =>
    if 32 ≤ e then h
    else if h.plca e then h
    else h.txStart e)

/-- The settings of its stream that a closed video frame is judged by (R162). -/
def Hw.asClosed (h : Hw) (w : VieFrame) : Hw := (w.cfg.getD []).foldl (fun a x => a.wn x.1 x.2) h

/-- The egress time of a watched frame on an egress reaches the VIE (R151): kept with the frame, and given to the video frame
it closed when the egress is the stream's display port. -/
def Hw.noteEgress (h : Hw) (id e : Nat) (stamps : List Nat) : Hw :=
  let h := h.onFrame id (fun f => if f.vie.isSome then { f with sentAt := f.sentAt ++ [(e, stamps)] } else f)
  let set (s : Nat) (w : VieFrame) : VieFrame :=
    let c := h.asClosed w
    if w.by_ == id && w.disp.isNone && c.fld (Reg.VIE_S_CFG s) Fld.VIE_S_CFG_AGE_PORT == e
    then { w with disp := some (stampNs stamps (c.fld (Reg.VIE_S_CFG s) Fld.VIE_S_CFG_TB)) } else w
  { h with vie := { h.vie with s := h.vie.s.map (fun v => (v.1, { v.2 with wait := v.2.wait.map (set v.1) })) } }

/-- The bytes an egress MAC puts on the line, before its FCS (R80, R137, R199, R284): a protected frame under the SA it began
with. -/
def Hw.wireBytes (h : Hw) (e : Nat) (f : Frame) (t : TxCur) : List Byte :=
  let all := h.readFrame f
  let early := match f.bad with | some c => [2, 3, 4, 5, 8].contains c | none => false
  let body := if early then all else all.take (all.length - 4)
  let b := match h.ptpAdd f body t.stamps with
    | some (m, add) => ptpFix body m add
    | none => body
  let b := editFrame f e b
  match t.sec with
  | none => b
  | some s => macsecSeal s.cfg s.sa s.an s.pn b

/-- An egress MAC sends the last byte of a frame: correct FCS, or the stomp pattern of a bad frame (R64, R185, R286). -/
def Hw.macEnd (h : Hw) (e : Nat) (f : Frame) (t : TxCur) : Hw :=
  let b := h.wireBytes e f t
  let good := f.bad.isNone
  let wire := b ++ (if good then fcsOf b else stompOf b)
  let h := (h.emit (.macTx e wire good)).addTxOctets e wire.length
  let h := if good then h.inc (Reg.MAC_TX_FRAMES_OK e) else h.inc (Reg.SWC_STOMP_TX e)
  let h := if good && t.sec.isSome then h.inc (Reg.MAC_SEC_TX_PROTECTED e) else h
  let h := (h.txStamp f e (some t.stamps)).onMac (fun m => { m with
    attempts := kvDel m.attempts e
    burst := match kvGet m.burst e with | some n => kvPut m.burst e (n.1, h.clk) | none => m.burst })
  h.noteEgress f.id e (h.txStamps e)

/-- A steering entry matches a frame (R190). -/
def Hw.steerMatch (h : Hw) (mac i : Nat) (f : Frame) (b : List Byte) : Bool :=
  let w := h.rn (Reg.MAC_STEER mac i)
  let d := parseHdr b
  getF w Fld.MAC_STEER_EN == 1
    && (getF w Fld.MAC_STEER_MATCH_TYPE == 0 || d.etype == h.rn (Reg.MAC_STEER_TYPE mac i) % 65536)
    && (getF w Fld.MAC_STEER_MATCH_VID == 0 || f.vid == getF w Fld.MAC_STEER_VID)
    && (getF w Fld.MAC_STEER_MATCH_PCP == 0 || f.pcp == getF w Fld.MAC_STEER_PCP)
    && (getF w Fld.MAC_STEER_MATCH_GROUP == 0 || isGroup d.da == (getF w Fld.MAC_STEER_GROUP == 1))

/-- The receive queue of a frame at P24 or P26: steering for frames of a MAC (R190), the queue its source names, else 0
(R512). -/
def Hw.rxQueueOf (h : Hw) (f : Frame) (b : List Byte) : Nat :=
  if f.ingress < 24 then
    match (List.range 32).find? (fun i => h.steerMatch f.ingress i f b) with
    | some i => h.fld (Reg.MAC_STEER f.ingress i) Fld.MAC_STEER_RXQ
    | none => h.fld (Reg.MAC_CFG f.ingress) Fld.MAC_CFG_DEFAULT_RXQ
  else if 1000 ≤ f.kind then f.kind % 8 else 0

/-- An internal egress consumes a frame: P26 to a queue of the control cores, P31 counts and discards (R25, R61). A bad frame is
discarded unread, counted under its own cause alone (R60, R61, R65). -/
def Hw.internalEnd (h : Hw) (e : Nat) (f : Frame) : Hw :=
  if f.bad.isSome then h
  else match e with
  | 26 => h.emit (.cpu (8200 + h.rxQueueOf f (h.readFrame f)) (h.readFrame f))
  | 29 => h.emit (.cpu 29 (h.readFrame f))
  | 30 => h.emit (.cpu 30 (h.readFrame f))
  | 31 => h.inc Reg.SWC_NULL_FRAMES
  | _ => h

/-- The frame on top of an egress leaves its transmitter; what it preempted goes on (R128). -/
def Hw.popTx (h : Hw) (e : Nat) : Hw :=
  let rest := (kvGetD h.swc.tx e []).drop 1
  (h.onSwc (fun s => { s with tx := if rest.isEmpty then kvDel s.tx e else kvPut s.tx e rest })).resume e

/-- The frame an egress is sending ends, once its tail is in the Basin (R41); one that a notice or hold keeps suspended does not end
(R123, R129). A UE found here makes the frame bad for its other copies too (R65). -/
def Hw.txEnd (h : Hw) (e ecc : Nat) : Hw :=
  match kvGetD h.swc.tx e [] with
  | [] => h
  | t :: _ =>
    match h.frame? t.frame with
    | none => h.popTx e
    | some f0 =>
      if !f0.tail || (t.susp && h.preemptHeld e) then h
      else
        let h := (h.basinEcc f0.id ecc).discardBad f0.id
        match h.frame? f0.id with
        | none => h.popTx e
        | some f =>
          let h := if e < 24 then h.macEnd e f t else h.internalEnd e f
          let h := h.popTx e
          let h := (h.release f.id e).reap f.id
          if e < 24 && !h.txBusy e then h.sendPauses e else h

/-- Bytes of a transmission that its MAC has put on the line so far. -/
def Hw.sentBytes (h : Hw) (e : Nat) (t : TxCur) (f : Frame) : Nat :=
  min (t.sent + (if t.susp then 0 else h.fragBytes e t)) (f.len + (if t.sec.isSome then 32 else 0))

/-- What an egress is sending of a frame ends here and now: a MAC ends it with the stomp pattern after the bytes held, an internal
egress discards it (R22, R60, R64). -/
def Hw.cutTx (h : Hw) (e : Nat) (id : Nat) : Hw :=
  match (kvGetD h.swc.tx e []).find? (fun t => t.frame == id), h.frame? id with
  | some t, some f =>
    let h := if e < 24 then h.macEnd e { f with bad := some (f.bad.getD 8) } t else h
    let l := (kvGetD h.swc.tx e []).filter (fun t => t.frame != id)
    let h := h.onSwc (fun s => { s with tx := if l.isEmpty then kvDel s.tx e else kvPut s.tx e l })
    (h.resume e).release id e
  | _, _ => h

/-- EGRESS_FRAME_END (R41). -/
def execEgressFrameEnd (e ecc : Nat) (s : State) : Res := onHw s (fun h => h.txEnd e ecc)

/-- The first whole good frame granted to an internal egress that satisfies `p`. -/
def Hw.copyAt (h : Hw) (e : Nat) (p : Frame → Bool) : Option Frame :=
  h.swc.frames.find? (fun f => f.tail && !f.dead && f.bad.isNone &&
    f.copies.any (fun c => c.egress == e && c.st == CopyState.granted) && p f)

/-- An internal egress has read a frame: its reference is released (R41). -/
def Hw.takeAt (h : Hw) (e : Nat) (f : Frame) : Hw := (h.release f.id e).reap f.id

/-- PAUSE_REPEAT (R56): half of the quanta time has passed while the port-class is held and USED is at or above XON. -/
def execPauseRepeat (pc : Nat) (s : State) : Res :=
  onHw s (fun h =>
    if (kvGet h.swc.holdAt pc).isSome && (decide (h.xon pc ≤ h.pcUsed pc) || h.globalXoff) then
      h.queuePause (pc / 8) (pc % 8) 0xFFFF
    else h)

/-- INTERNAL_SOURCE_START (R59): the frame at the head of an internal source starts if it has credit; otherwise it
waits on, which is counted. -/
def execInternalSourceStart (port : Nat) (s : State) : Res :=
  onHw s (fun h =>
    if port < 24 ∨ 30 < port then h
    else match kvGetD h.swc.srcWait port [] with
      | [] => h
      | f :: rest =>
        if h.hasCredit port f then
          (h.onSwc (fun s => { s with srcWait := if rest.isEmpty then kvDel s.srcWait port else kvPut s.srcWait port rest })).enterFrame port f
        else h.stall port)

/-- SOJOURN_AGEOUT (R60): a frame past SWC_MAX_SOJOURN is discarded; a copy being sent will end with the stomp pattern. A frame whose
discard is counted already is counted and reported no second time (R61). -/
def execSojournAgeout (frame : Nat) (s : State) : Res :=
  onHw s (fun h => match h.frame? frame with
    | none => h
    | some f =>
      let ms := h.waited f.arrival / 500000
      if f.dead || decide (h.waited f.arrival ≤ h.fld Reg.SWC_MAX_SOJOURN Fld.SWC_MAX_SOJOURN_LIMIT_MS * 500000) then h
      else
        let e := (f.copies.map (·.egress)).headD 31
        let h := if f.counted then h else (h.inc Reg.SWC_AGEOUT).post 1 0x0303 (f.ingress * 256 + e * 8 + f.cls) ms
        let h := h.onFrame f.id (fun x => { x with counted := true })
        let h := (f.copies.filter (fun c => c.st != CopyState.sending)).foldl (fun a c => a.txStamp f c.egress none) h
        if f.copies.any (fun c => c.st == CopyState.sending) then
          let h := h.onFrame f.id (fun x => { x with bad := some (x.bad.getD 8) })
          (f.copies.filter (fun c => c.st != CopyState.sending)).foldl (fun a c => a.release f.id c.egress) h
        else h.dropFrame f.id)

/-- MODERATED_RECORD_FLUSH (R54): the millisecond of a moderated record ends; what was summed is posted. -/
def execModeratedRecordFlush (kind w3 : Nat) (s : State) : Res :=
  onHw s (fun h => match h.evq.modr.find? (fun m => m.kind == kind && m.w3 == w3) with
    | none => h
    | some m =>
      let h := { h with evq := { h.evq with modr := h.evq.modr.filter (fun x => !(x.kind == kind && x.w3 == w3)) } }
      if m.count = 0 then h else h.post 1 kind w3 (modWords m.aux m.count).1 (modWords m.aux m.count).2)

/-- AUDIT_PASS_START (R72). -/
def execAuditPassStart (s : State) : Res :=
  onHw s (fun h =>
    if h.flag Reg.SWC_CFG Fld.SWC_CFG_AUDIT_EN && !h.flag Reg.SWC_STATUS Fld.SWC_STATUS_AUDIT_BUSY
        && h.flag Reg.SWC_STATUS Fld.SWC_STATUS_READY then
      (h.setFld Reg.SWC_STATUS Fld.SWC_STATUS_AUDIT_BUSY 1).onSwc (fun s => { s with touched := [] })
    else h)

/-- AUDIT_PASS_END (R72 to R74): `leaks` are cells the pass finds neither reachable nor free, `doubles` cells found on the
free list while in use (0) or listed twice (1), `late` cells that a late reference release names (2), which is ignored. -/
def execAuditPassEnd (leaks : List Nat) : List Nat × List Nat → State → Res
  | (doubles, late), s => onHw s (fun h =>
    if !h.flag Reg.SWC_STATUS Fld.SWC_STATUS_AUDIT_BUSY then h
    else
      let held := h.heldCells ++ h.sampleCells
      let lost := (h.swc.leaked ++ leaks.filter (fun c => decide (c < cellCount) && !held.contains c)).dedup
      let sus := lost.filter (fun c => !h.swc.touched.contains c)
      let back := sus.filter (fun c => h.swc.suspect.contains c)
      let h := back.foldl (fun a c => (a.inc Reg.SWC_LEAK_RECLAIM).post 1 0x0304 c) h
      let dbl := doubles.filter (fun c => decide (c < cellCount))
      let h := dbl.foldl (fun a c => (a.inc Reg.SWC_DOUBLE_FREE).post 1 0x0305 c (if held.contains c then 0 else 1)) h
      let h := (late.filter (fun c => decide (c < cellCount))).foldl (fun a c => (a.inc Reg.SWC_DOUBLE_FREE).post 1 0x0305 c 2) h
      let keep := lost.filter (fun c => !back.contains c)
      let h := h.onSwc (fun s => { s with
        leaked := (keep ++ dbl.filter (fun c => !held.contains c)).dedup,
        suspect := sus.filter (fun c => !back.contains c) })
      let h := (h.setFld Reg.SWC_STATUS Fld.SWC_STATUS_AUDIT_BUSY 0).setFld Reg.SWC_AUDIT_STATUS
        Fld.SWC_AUDIT_STATUS_SUSPECT sus.length
      h.setFld Reg.SWC_AUDIT_STATUS Fld.SWC_AUDIT_STATUS_PASSES (h.fld Reg.SWC_AUDIT_STATUS Fld.SWC_AUDIT_STATUS_PASSES + 1))

end Sys2Proof.Machine
end

