-- ==== Sys2Proof/Machine/HdmaOps.lean ====
section
/-!
DEFINITION. Operations of the host DMA engine (R308 to R319): rings, announcements, descriptors judged, frames written,
pending lists, read requests.
-/
namespace Sys2Proof.Machine

/-- A queue pair with nothing in it. -/
def Ring.init : Ring :=
  { fetched := [], reading := none, pend := [], head := [], timer := none, diverted := 0, txAnn := 0, rxAnn := 0,
    txSince := 0, rxSince := 0, txStop := false, rxStop := false }

/-- The queue pair with index `r` = (owner − 2) × 8 + q (R324). -/
def Hw.ringAt (h : Hw) (r : Nat) : Ring := kvGetD h.hdma.ring r Ring.init

/-- Update a queue pair. -/
def Hw.onRingAt (h : Hw) (r : Nat) (f : Ring → Ring) : Hw := h.onHdma (fun d => { d with ring := kvMod d.ring r Ring.init f })

/-- The owner of a queue pair. -/
def ringOwner (r : Nat) : Nat := r / 8 + 2

/-- Its queue number (R30). -/
def ringQueue (r : Nat) : Nat := 8208 + r

/-- The configuration of an owner's function; reads of 512 bytes and Bus Master Enable 0 until configured. -/
def Hw.pciFn (h : Hw) (o : Nat) : PciFn := kvGetD h.hdma.fn o ⟨false, false, 512⟩

/-- The function of a ring may issue reads and writes (R303). -/
def Hw.mayMaster (h : Hw) (r : Nat) : Bool := h.hdma.linkUp && (h.pciFn (ringOwner r)).busMaster

/-- A ring of the pair is enabled. -/
def Hw.txEn (h : Hw) (r : Nat) : Bool := h.flag (Reg.HDMA_Q_CTRL r) Fld.HDMA_Q_CTRL_TX_EN
def Hw.rxEn (h : Hw) (r : Nat) : Bool := h.flag (Reg.HDMA_Q_CTRL r) Fld.HDMA_Q_CTRL_RX_EN

/-- HEAD and TAIL of a ring. -/
def Hw.txHead (h : Hw) (r : Nat) : Nat := h.rn (Reg.HDMA_TXQ_HEAD r)
def Hw.txTail (h : Hw) (r : Nat) : Nat := h.rn (Reg.HDMA_TXQ_TAIL r)
def Hw.rxHead (h : Hw) (r : Nat) : Nat := h.rn (Reg.HDMA_RXQ_HEAD r)
def Hw.rxTail16 (h : Hw) (r : Nat) : Nat := h.rn (Reg.HDMA_RXQ_TAIL r)

/-- Descriptors from HEAD to TAIL, modulo 2^16 (R308). -/
def ringWork (head tail : Nat) : Nat := (tail + 65536 - head) % 65536

/-- Host address of the slot of an index. -/
def Hw.txSlot (h : Hw) (r i : Nat) : Nat :=
  h.rn (Reg.HDMA_TXQ_BASE_HI r) * 2 ^ 32 + h.rn (Reg.HDMA_TXQ_BASE_LO r)
    + 64 * (i % 2 ^ h.fld (Reg.HDMA_Q_CTRL r) Fld.HDMA_Q_CTRL_TX_LOG2)
def Hw.rxSlot (h : Hw) (r i : Nat) : Nat :=
  h.rn (Reg.HDMA_RXQ_BASE_HI r) * 2 ^ 32 + h.rn (Reg.HDMA_RXQ_BASE_LO r)
    + 64 * (i % 2 ^ h.fld (Reg.HDMA_Q_CTRL r) Fld.HDMA_Q_CTRL_RX_LOG2)

/-! ### Completion notification (R316) -/

/-- Announce what has completed on a ring since the last announcement. -/
def Hw.announce (h : Hw) (r : Nat) (tx : Bool) : Hw :=
  let g := h.ringAt r
  let n := if tx then g.txAnn else g.rxAnn
  if n = 0 then h
  else
    let h := h.onRingAt r (fun x => if tx then { x with txAnn := 0 } else { x with rxAnn := 0 })
    let c := h.rn (Reg.HDMA_Q_COAL r)
    if getF c Fld.HDMA_Q_COAL_VEC_MODE = 1 then h.sendMsix (ringOwner r) (getF c Fld.HDMA_Q_COAL_VECTOR)
    else h.post (ringOwner r) (if tx then 0x0101 else 0x0102) (ringQueue r) (if tx then h.txHead r else h.rxHead r) n

/-- Descriptors complete on a ring: the unannounced ones are counted, with the cycle of the first. -/
def Ring.complete (x : Ring) (tx : Bool) (n now : Nat) : Ring :=
  if n = 0 then x
  else if tx then { x with txAnn := x.txAnn + n, txSince := if x.txAnn = 0 then now else x.txSince }
  else { x with rxAnn := x.rxAnn + n, rxSince := if x.rxAnn = 0 then now else x.rxSince }

/-- Descriptors have completed: announced once COAL_N are unannounced. -/
def Hw.completed (h : Hw) (r : Nat) (tx : Bool) (n : Nat) : Hw :=
  let h := h.onRingAt r (fun x => x.complete tx n h.clk)
  let g := h.ringAt r
  let lim := max (h.fld (Reg.HDMA_Q_COAL r) Fld.HDMA_Q_COAL_COAL_N) 1
  if lim ≤ (if tx then g.txAnn else g.rxAnn) then h.announce r tx else h

/-- COAL_US have passed since the first unannounced completion (R316). -/
def Hw.coalDue (h : Hw) (r : Nat) (tx : Bool) : Bool :=
  let g := h.ringAt r
  decide ((if tx then g.txSince else g.rxSince) + h.fld (Reg.HDMA_Q_COAL r) Fld.HDMA_Q_COAL_COAL_US * 500 ≤ h.clk)

/-! ### Transmit (R310 to R313) -/

/-- Write back the next `n` transmit descriptors with a status: words 14 and 15, and HEAD moves past them. -/
def Hw.txBack (h : Hw) (r n status : Nat) : Hw :=
  let hd := h.txHead r
  let h := (List.range n).foldl (fun a i => a.emit (.hostWrite (ringOwner r) (h.txSlot r (hd + i) + 56) [status, 2 ^ 31])) h
  (h.wn (Reg.HDMA_TXQ_HEAD r) ((hd + n) % 65536)).completed r true n

/-- FIRST, LAST and LEN of a transmit descriptor. -/
def dFirst (d : List Nat) : Bool := bit (d.getD 2 0) 31
def dLast (d : List Nat) : Bool := bit (d.getD 2 0) 30
def dLen (d : List Nat) : Nat := d.getD 2 0 % 65536

/-- What a judgement of descriptors from a frame's start says (R311). -/
inductive Judged where
  | wait
  | bad (n status : Nat)
  | good (n len : Nat)

/-- Descriptors of a frame after its first: their number with LAST found, or cut short by a second FIRST or by 16. -/
def spanOf : Nat → List (List Nat) → Option (Nat × Bool)
  | 16, _ => some (16, false)
  | _, [] => none
  | n, d :: ds => if dFirst d then some (n, false) else if dLast d then some (n + 1, true) else spanOf (n + 1) ds

/-- Judge the descriptors where a frame should begin (R311). -/
def judgeTx : List (List Nat) → Judged
  | [] => .wait
  | d :: ds =>
    if !dFirst d then .bad 1 2
    else match (if dLast d then some (1, true) else spanOf 1 ds) with
      | none => .wait
      | some (n, false) => .bad n 2
      | some (n, true) =>
        let l := ((d :: ds).take n).map dLen
        if l.any (fun x => x == 0 || decide (9212 < x)) then .bad n 2
        else if 9212 < l.sum then .bad n 1
        else .good n l.sum

/-- Split a read at the maximum read request size and at 4 KiB boundaries (R319). -/
def splitRead (mrrs : Nat) : Nat → Nat → Nat → List (Nat × Nat)
  | 0, _, _ => []
  | n + 1, a, b =>
    if b = 0 then []
    else
      let c := min b (min (max mrrs 128) (4096 - a % 4096))
      (a, c) :: splitRead mrrs n (a + c) (b - c)

/-- Form read requests for some bytes of an owner's memory. -/
def Hw.formRead (h : Hw) (r kind addr bytes : Nat) : Hw :=
  let m := min (h.pciFn (ringOwner r)).mrrs 512
  h.onHdma (fun d => { d with waiting := d.waiting ++ (splitRead m 256 addr bytes).map (fun p => ⟨r, kind, p.1, p.2⟩) })

/-- Requests of a ring not yet complete. -/
def Hw.outstanding (h : Hw) (r kind : Nat) : List ReadReq :=
  (h.hdma.waiting ++ h.hdma.flight).filter (fun q => q.ring == r && q.kind == kind)

/-- All of them have been issued. -/
def Hw.allIssued (h : Hw) (r kind : Nat) : Bool := !h.hdma.waiting.any (fun q => q.ring == r && q.kind == kind)

/-- The completions of a ring's requests of a kind are in: tags and buffer space are free again. -/
def Hw.endReads (h : Hw) (r kind : Nat) : Hw :=
  h.onHdma (fun d => { d with
    waiting := d.waiting.filter (fun q => !(q.ring == r && q.kind == kind))
    flight := d.flight.filter (fun q => !(q.ring == r && q.kind == kind)) })

/-- Form the fetch of up to `n` descriptors from index `i`, up to 8 a request, not across the end of the ring. -/
def Hw.formFetch (h : Hw) (r : Nat) : Nat → Nat → Nat → Hw
  | 0, _, _ => h
  | fuel + 1, i, n =>
    if n = 0 then h
    else
      let size := 2 ^ h.fld (Reg.HDMA_Q_CTRL r) Fld.HDMA_Q_CTRL_TX_LOG2
      let c := min n (min 8 (size - i % size))
      (h.formRead r 0 (h.txSlot r i) (64 * c)).formFetch r fuel (i + c) (n - c)

/-- The ring may fetch: enabled, not stopped or stopping, its function a bus master, its owner active and not torn down. -/
def Hw.txServes (h : Hw) (r : Nat) : Bool :=
  h.txEn r && !h.flag (Reg.HDMA_Q_STATUS r) Fld.HDMA_Q_STATUS_TX_STOPPED && !(h.ringAt r).txStop && h.mayMaster r
    && h.own.active.contains (ringOwner r) && (kvGet h.own.tear (ringOwner r)).isNone

/-- The owner shaper lets a frame of this supplied length start (R133): counted length with FCS, at least 64. -/
def Hw.ownerShaper (h : Hw) (o len : Nat) : Bool :=
  !h.weirOn (256 + o) || decide (max (len + 4) 64 * tokenUnit ≤ h.tokens (256 + o))

/-- A visit would do something on the ring. -/
def Hw.txReady (h : Hw) (r : Nat) : Bool :=
  let g := h.ringAt r
  h.txServes r && g.reading.isNone && (h.outstanding r 0).isEmpty &&
    (match judgeTx g.fetched with
      | .wait => decide (g.fetched.length < min 16 (ringWork (h.txHead r) (h.txTail r)))
      | .bad _ _ => true
      | .good _ n => h.ownerShaper (ringOwner r) n)

/-- Whose turn it is in the round robin over owners, then over an owner's pairs (R312). -/
def Hw.txTurn (h : Hw) : Option Nat :=
  let rs := (h.hdma.ring.map (·.1)).filter h.txReady
  let os := (rs.map ringOwner).dedup
  match os.filter (fun o => decide (h.hdma.rrOwner < o)) ++ os.filter (fun o => decide (o ≤ h.hdma.rrOwner)) with
  | [] => none
  | o :: _ =>
    let qs := (rs.filter (fun r => ringOwner r == o)).map (· % 8)
    let p := kvGetD h.hdma.rrQueue o 7
    ((qs.filter (fun q => decide (p < q)) ++ qs.filter (fun q => decide (q ≤ p))).head?).map (fun q => (o - 2) * 8 + q)

/-- Judge the descriptors fetched, in ring order, until a frame is taken or more are needed (R311, R312). -/
def Hw.txJudge (h : Hw) (r : Nat) : Nat → Hw
  | 0 => h
  | fuel + 1 =>
    let g := h.ringAt r
    match judgeTx g.fetched with
    | .wait =>
      let n := min 16 (ringWork (h.txHead r) (h.txTail r))
      if g.fetched.length < n then h.formFetch r 16 (h.txHead r + g.fetched.length) (n - g.fetched.length) else h
    | .bad n st => ((h.onRingAt r (fun x => { x with fetched := x.fetched.drop n })).txBack r n st).txJudge r fuel
    | .good n len =>
      if h.ownerShaper (ringOwner r) len then
        let h := if h.weirOn (256 + ringOwner r) then h.weirTake (256 + ringOwner r) (max (len + 4) 64) else h
        let ds := g.fetched.take n
        let h := ds.foldl (fun a d => a.formRead r 1 (d.getD 1 0 * 2 ^ 32 + d.getD 0 0) (dLen d)) h
        let h := h.onRingAt r (fun x => { x with
          fetched := x.fetched.drop n, reading := some ⟨n, len, (ds.headD []).take 6, false⟩ })
        h.onHdma (fun d => { d with rrOwner := ringOwner r, rrQueue := kvPut d.rrQueue (ringOwner r) (r % 8) })
      else h

/-- The transmit ring stops after a failed read (R313): `n` descriptors complete with READ_ERR. -/
def Hw.txFail (h : Hw) (r n : Nat) : Hw :=
  let h := ((h.endReads r 0).endReads r 1).onRingAt r (fun x => { x with fetched := [], reading := none })
  let h := ((h.txBack r n 3).setFld (Reg.HDMA_Q_STATUS r) Fld.HDMA_Q_STATUS_TX_STOPPED 1).inc Reg.HDMA_RD_ERR
  h.post (ringOwner r) 0x0103 (ringQueue r) (h.txHead r) 3

/-- Every descriptor from HEAD to TAIL is written back FLUSHED (R309). -/
def Hw.txFlush (h : Hw) (r : Nat) : Hw :=
  let h := ((h.endReads r 0).endReads r 1).onRingAt r (fun x => { x with fetched := [], reading := none })
  h.txBack r (ringWork (h.txHead r) (h.txTail r)) 4

/-! ### Read requests in flight (R319) -/

/-- Tags the engine has. -/
def Hw.tagSupply (h : Hw) : Nat := [32, 256, 768].getD (h.fld Reg.HDMA_STATUS Fld.HDMA_STATUS_TAG_MODE) 32

/-- Completion buffer in use, in units of 128 bytes. -/
def Hw.cplUsed (h : Hw) : Nat := (h.hdma.flight.map (fun q => (q.bytes + 127) / 128)).sum

/-- HDMA_RD_INFLIGHT. -/
def Hw.rdInflight (h : Hw) : Nat := h.cplUsed * 2 ^ 16 + h.hdma.flight.length

/-- The request to issue next: the oldest one whose function is a bus master (R303). -/
def Hw.nextRead (h : Hw) : Option ReadReq := h.hdma.waiting.find? (fun q => h.mayMaster q.ring)

/-- A tag and completion-buffer space for a request are free. -/
def Hw.readFits (h : Hw) (q : ReadReq) : Bool :=
  decide (h.hdma.flight.length < h.tagSupply) && decide (h.cplUsed + (q.bytes + 127) / 128 ≤ 768)

/-- A request waits at a limit in this cycle: HDMA_RD_WAIT counts the 1 µs interval once. -/
def Hw.readWaits (h : Hw) : Hw :=
  if h.hdma.waitUs = h.usNow then h
  else (h.inc Reg.HDMA_RD_WAIT).onHdma (fun d => { d with waitUs := h.usNow })

/-! ### Receive (R314, R315) -/

/-- A BUF_LEN the device does not use. -/
def badBuf (n : Nat) : Bool := decide (n < 256) || decide (16384 < n) || n % 64 != 0

/-- The descriptors `n` bytes take: none for one that is not used, else the bytes in it; none when they do not suffice. -/
def choose : List Nat → Nat → Option (List (Option Nat))
  | _, 0 => some []
  | [], _ + 1 => none
  | b :: bs, n + 1 =>
    if badBuf b then (choose bs (n + 1)).map (fun l => none :: l)
    else (choose bs (n + 1 - b)).map (fun l => some (min b (n + 1)) :: l)

/-- The queues of an owner take something: it is active, and its state is not erased yet (R21, R31). -/
def Hw.queuesLive (h : Hw) (o : Nat) : Bool :=
  h.own.active.contains o && (match kvGet h.own.tear o with | some t => !t.erased | none => true)

/-- The receive ring can be written: its owner's queues are live, it is enabled (or being drained after a clear), not stopped, its
function a bus master. -/
def Hw.rxOpen (h : Hw) (r : Nat) : Bool :=
  h.queuesLive (ringOwner r) && (h.rxEn r || (h.ringAt r).rxStop) && !h.flag (Reg.HDMA_Q_STATUS r) Fld.HDMA_Q_STATUS_RX_STOPPED && h.mayMaster r

/-- Free receive descriptors by HEAD and TAIL. -/
def Hw.rxFree (h : Hw) (r : Nat) : Nat := if h.rxOpen r then ringWork (h.rxHead r) (h.rxTail16 r) else 0

/-- What goes to host memory of an item: bytes, and words 3 to 6 of its descriptors with word 3's length left to the writer. -/
structure RxData where
  bytes : List Byte
  w3    : Nat
  w4    : Nat
  w5    : Nat
  w6    : Nat

/-- The data of a pending item; none when its frame has left the Basin. -/
def Hw.rxData (h : Hw) (r : Nat) (p : RxPend) : Option RxData :=
  match p.frame with
  | none => some ⟨p.bytes, 0, 0, 0, 0⟩
  | some id => match h.frame? id with
    | none => none
    | some f =>
      let b := h.readFrame f
      let tb := h.fld (Reg.HDMA_Q_CTRL r) Fld.HDMA_Q_CTRL_RX_TB
      let ns := stampNs f.stamps tb
      some ⟨editFrame f 24 (b.take (b.length - 4)), f.cls * 2 ^ 21 + f.ingress * 2 ^ 16,
        (if stampUnset f.stamps tb then 0 else 2 ^ 31) + tb * 2 ^ 28 + (match f.stream with | some s => 2 ^ 12 + s | none => 0),
        ns / 1000000000 % 2 ^ 32, ns % 1000000000⟩

/-- Write one receive descriptor back (R314): words 2 to 15. -/
def Hw.rxBack (h : Hw) (r i w2 total status : Nat) (x : RxData) : Hw :=
  h.emit (.hostWrite (ringOwner r) (h.rxSlot r i + 8)
    ([w2, x.w3 + total % 65536, x.w4, x.w5, x.w6, status] ++ List.replicate 7 0 ++ [2 ^ 31]))

/-- Write planned descriptors: data before the write-back, each in ring order; `pos` bytes are already written. -/
def Hw.rxFill (h : Hw) (r kind status : Nat) (x : RxData) :
    Nat → Nat → List (Option Nat) → List (List Nat) → Hw
  | i, pos, p :: ps, d :: ds =>
    match p with
    | none => (h.rxBack r i (2 ^ 31 + 2 ^ 30) 0 2 ⟨[], 0, 0, 0, 0⟩).rxFill r kind status x (i + 1) pos ps ds
    | some n =>
      let h := h.emit (.hostData (ringOwner r) (d.getD 1 0 * 2 ^ 32 + d.getD 0 0) (wordsOf 4096 (sub x.bytes pos n))
        (h.pciFn (ringOwner r)).relaxed)
      let last := decide (x.bytes.length ≤ pos + n)
      let w2 := (if pos = 0 then 2 ^ 31 else 0) + (if last then 2 ^ 30 else 0) + kind * 2 ^ 26 + n
      (h.rxBack r i w2 (if last then x.bytes.length else 0) status x).rxFill r kind status x (i + 1) (pos + n) ps ds
  | _, _, _, _ => h

/-- Skip the descriptors at HEAD whose BUF_LEN is not used (R314). -/
def Hw.rxSkipBad (h : Hw) (r : Nat) : List (List Nat) → Hw × List (List Nat)
  | [] => (h, [])
  | d :: ds =>
    if badBuf (dLen d) then
      let h := h.rxBack r (h.rxHead r) (2 ^ 31 + 2 ^ 30) 0 2 ⟨[], 0, 0, 0, 0⟩
      ((h.wn (Reg.HDMA_RXQ_HEAD r) ((h.rxHead r + 1) % 65536)).completed r false 1).rxSkipBad r ds
    else (h, d :: ds)

/-- Write an item into a receive ring whose free descriptors from HEAD on are `descs`, if they hold it whole (R315); with the
descriptors left. -/
def Hw.rxWrite (h : Hw) (r kind status : Nat) (x : RxData) (descs : List (List Nat)) : Option (Hw × List (List Nat)) :=
  if !h.rxOpen r then none
  else
    let s := h.rxSkipBad r (descs.take (h.rxFree r))
    match choose (s.2.map dLen) x.bytes.length with
    | none => none
    | some plan =>
      let h := s.1
      let i := h.rxHead r
      let h := h.rxFill r kind status x i 0 plan s.2
      let h := h.wn (Reg.HDMA_RXQ_HEAD r) ((i + plan.length) % 65536)
      let h := if kind = 0 then h.inc (Reg.HDMA_RX_FRAMES r) else h
      some (h.completed r false plan.length, s.2.drop plan.length)

/-- A frame at P24 leaves the Basin. -/
def Hw.dropRef (h : Hw) (p : RxPend) : Hw :=
  match p.frame with
  | none => h
  | some id => match h.frame? id with | some f => h.takeAt 24 f | none => h

/-- Show PENDING, HOLDING of a pair, and stop the hold timer once nothing waits (R318). -/
def Hw.showRing (h : Hw) (r : Nat) : Hw :=
  let g := h.ringAt r
  let idle := g.pend.isEmpty && g.head.isEmpty
  let h := if idle then h.onRingAt r (fun x => { x with timer := none }) else h
  let h := h.setFld (Reg.HDMA_Q_STATUS r) Fld.HDMA_Q_STATUS_HOLDING (h.ringAt r).timer.isSome.toNat
  h.setFld (Reg.HDMA_Q_STATUS r) Fld.HDMA_Q_STATUS_PENDING (g.pend.filter (fun p => p.frame.isSome)).length

/-- A frame is discarded for a receive ring and counted (R309, R318). -/
def Hw.rxDiscard (h : Hw) (r : Nat) (p : RxPend) : Hw :=
  if p.frame.isSome then (h.dropRef p).inc (Reg.HDMA_RX_DIVERT r) else h

/-- Frames among pending items. -/
def framesIn (l : List RxPend) : List RxPend := l.filter (fun p => p.frame.isSome)

/-- Waiting heads enter the pending list as places free up; their VOQs move on (R317). -/
def Hw.refill (h : Hw) (r : Nat) : Nat → Hw
  | 0 => h
  | n + 1 =>
    let g := h.ringAt r
    match g.head with
    | [] => h
    | p :: ps =>
      if 64 ≤ (framesIn g.pend).length then h
      else
        let h := h.onRingAt r (fun x => { x with pend := x.pend ++ [p], head := ps })
        (match p.frame with | some id => h.setCopy id 24 .held | none => h).refill r n

/-- Write pending items in order while descriptors last. -/
def Hw.drainPend (h : Hw) (r : Nat) : Nat → List (List Nat) → Hw × List (List Nat)
  | 0, ds => (h, ds)
  | n + 1, ds =>
    match (h.ringAt r).pend with
    | [] => (h, ds)
    | p :: ps =>
      let next (h : Hw) : Hw := (h.onRingAt r (fun x => { x with pend := ps })).refill r 64
      match h.rxData r p with
      | none => (next h).drainPend r n ds
      | some x => match h.rxWrite r p.kind 0 x ds with
        | none => (h, ds)
        | some (h', ds') => (next (h'.dropRef p)).drainPend r n ds'

/-- Discard everything that waits for a receive ring. -/
def Hw.discardPend (h : Hw) (r : Nat) : Hw :=
  let g := h.ringAt r
  let h := (g.pend ++ g.head).foldl (fun a p => a.rxDiscard r p) h
  (h.onRingAt r (fun x => { x with pend := x.pend.filter (fun p => p.frame.isNone), head := [] })).showRing r

/-- Leave DIVERT with its record (R318). -/
def Hw.endDivert (h : Hw) (r : Nat) : Hw :=
  let n := (h.ringAt r).diverted
  let h := (h.setFld (Reg.HDMA_Q_STATUS r) Fld.HDMA_Q_STATUS_DIVERT 0).onRingAt r (fun x => { x with diverted := 0 })
  h.post (ringOwner r) 0x0106 (ringQueue r) n

/-- The hold timer of a ring has reached HOLD, in units of 100 µs (R318). -/
def Hw.holdDue (h : Hw) (r : Nat) : Bool :=
  (h.ringAt r).timer.any (fun t => decide (t + h.fld (Reg.HDMA_Q_CTRL r) Fld.HDMA_Q_CTRL_HOLD * 50000 ≤ h.clk))

/-- The hold timer of a ring expires, when it is due: the ring enters DIVERT, and what waits for it is discarded (R318). -/
def Hw.holdExpire (h : Hw) (r : Nat) : Hw :=
  if !h.holdDue r then h
  else
    let g := h.ringAt r
    let n := (framesIn (g.pend ++ g.head)).length
    let h := (h.discardPend r).onRingAt r (fun x => { x with timer := none, diverted := n })
    let h := (h.showRing r).setFld (Reg.HDMA_Q_STATUS r) Fld.HDMA_Q_STATUS_DIVERT 1
    h.post (ringOwner r) 0x0105 (ringQueue r) n

/-! ### Host writes of a queue pair (R308, R309) -/

/-- A write of HDMA_TXQ_TAIL. -/
def Hw.txTailWrite (h : Hw) (r v : Nat) : Hw :=
  let new := ringWork (h.txHead r) (v % 65536)
  let old := ringWork (h.txHead r) (h.txTail r)
  if 2 ^ h.fld (Reg.HDMA_Q_CTRL r) Fld.HDMA_Q_CTRL_TX_LOG2 < new ∨ new < old then h.inc Reg.HDMA_BAD_TAIL
  else h.wn (Reg.HDMA_TXQ_TAIL r) (v % 65536)

/-- A write of HDMA_RXQ_TAIL: a hold timer that expires in its cycle does so first; DIVERT ends when it leaves a free descriptor
(R318). -/
def Hw.rxTailWrite (h : Hw) (r v : Nat) : Hw :=
  let h := h.holdExpire r
  let new := ringWork (h.rxHead r) (v % 65536)
  let old := ringWork (h.rxHead r) (h.rxTail16 r)
  if 2 ^ h.fld (Reg.HDMA_Q_CTRL r) Fld.HDMA_Q_CTRL_RX_LOG2 < new ∨ new < old then h.inc Reg.HDMA_BAD_TAIL
  else
    let h := h.wn (Reg.HDMA_RXQ_TAIL r) (v % 65536)
    if h.flag (Reg.HDMA_Q_STATUS r) Fld.HDMA_Q_STATUS_DIVERT && decide (1 ≤ h.rxFree r) then h.endDivert r else h

/-- TX_EN rises (R308, R313). -/
def Hw.txStart0 (h : Hw) (r : Nat) : Hw :=
  let h := ((h.endReads r 0).endReads r 1).onRingAt r (fun x => { x with
    fetched := [], reading := none, txAnn := 0, txStop := false })
  let h := (h.wn (Reg.HDMA_TXQ_HEAD r) 0).wn (Reg.HDMA_TXQ_TAIL r) 0
  h.setFld (Reg.HDMA_Q_STATUS r) Fld.HDMA_Q_STATUS_TX_STOPPED 0

/-- RX_EN rises (R308, R313, R318). -/
def Hw.rxStart0 (h : Hw) (r : Nat) : Hw :=
  let h := (h.discardPend r).onRingAt r (fun x => { x with rxAnn := 0, rxStop := false })
  let h := (h.wn (Reg.HDMA_RXQ_HEAD r) 0).wn (Reg.HDMA_RXQ_TAIL r) 0
  let h := h.setFld (Reg.HDMA_Q_STATUS r) Fld.HDMA_Q_STATUS_RX_STOPPED 0
  if (h.ringAt r).diverted = 0 then h else h.endDivert r

/-- RX_EN falls: the hold timer and DIVERT end; what waits is written or discarded when the ring has stopped (R309). -/
def Hw.rxStop0 (h : Hw) (r : Nat) : Hw :=
  let h := h.onRingAt r (fun x => { x with rxStop := true, timer := none })
  (h.setFld (Reg.HDMA_Q_STATUS r) Fld.HDMA_Q_STATUS_DIVERT 0).setFld (Reg.HDMA_Q_STATUS r) Fld.HDMA_Q_STATUS_HOLDING 0

/-- A write of HDMA_Q_CTRL: discarded whole with a size outside 4 to 15; sizes of enabled rings keep (R308). -/
def Hw.qCtrlWrite (h : Hw) (r v : Nat) : Hw :=
  let tl := getF v Fld.HDMA_Q_CTRL_TX_LOG2
  let rl := getF v Fld.HDMA_Q_CTRL_RX_LOG2
  if tl < 4 ∨ rl < 4 then h
  else
    let c := Reg.HDMA_Q_CTRL r
    let t0 := h.txEn r
    let r0 := h.rxEn r
    let h := if t0 then h else h.setFld c Fld.HDMA_Q_CTRL_TX_LOG2 tl
    let h := if r0 then h else h.setFld c Fld.HDMA_Q_CTRL_RX_LOG2 rl
    let h := h.setFld c Fld.HDMA_Q_CTRL_RX_TB (getF v Fld.HDMA_Q_CTRL_RX_TB)
    let h := h.setFld c Fld.HDMA_Q_CTRL_TX_EN (getF v Fld.HDMA_Q_CTRL_TX_EN)
    let h := h.setFld c Fld.HDMA_Q_CTRL_RX_EN (getF v Fld.HDMA_Q_CTRL_RX_EN)
    let h := if !t0 && h.txEn r then h.txStart0 r
      else if t0 && !h.txEn r then h.onRingAt r (fun x => { x with txStop := true }) else h
    if !r0 && h.rxEn r then h.rxStart0 r else if r0 && !h.rxEn r then h.rxStop0 r else h

/-- A write of a base word, discarded while its ring is enabled. -/
def Hw.qBaseWrite (h : Hw) (r d v : Nat) : Hw :=
  let off := 0x60000 + 0x40 * r + d
  if (d < 0x10 ∧ h.txEn r) ∨ (0x10 ≤ d ∧ h.rxEn r) then h
  else h.wn off (if d = 4 ∨ d = 0x14 then v / 64 * 64 else v)

/-- A full host write of a register of a queue pair. -/
def Hw.qWrite (h : Hw) (off v : Nat) : Hw :=
  let r := (off - 0x60000) / 0x40
  match off % 0x40 with
  | 0x00 => h.qCtrlWrite r v
  | 0x04 => h.qBaseWrite r 0x04 v
  | 0x08 => h.qBaseWrite r 0x08 v
  | 0x0C => h.txTailWrite r v
  | 0x14 => h.qBaseWrite r 0x14 v
  | 0x18 => h.qBaseWrite r 0x18 v
  | 0x1C => h.rxTailWrite r v
  | 0x24 => h.wn off v
  | _ => h

/-! ### Frames at P24 (R317, R318, R512) -/

/-- The receiving owner of a frame at P24: the entry's owner, else its buffer owner; owner 2 for owners served inside the device
(DEDUCED, log entry 23). -/
def recvOwner (f : Frame) : Nat :=
  let o := f.dest.getD f.owner
  if 2 ≤ o ∧ o ≤ 257 then o else 2

/-- A frame reaches P24 for a ring of an active owner. -/
def Hw.p24Live (h : Hw) (r : Nat) (p : RxPend) (descs : List (List Nat)) : Hw :=
  let g := h.ringAt r
  if !h.rxEn r then h.rxDiscard r p
  else if h.flag (Reg.HDMA_Q_STATUS r) Fld.HDMA_Q_STATUS_DIVERT then
    (h.rxDiscard r p).onRingAt r (fun x => { x with diverted := x.diverted + 1 })
  else
    let wait (h : Hw) : Hw :=
      let h := h.onRingAt r (fun x => { x with timer := some (x.timer.getD h.clk) })
      let id := p.frame.getD 0
      let h := if (framesIn g.pend).length < 64
        then (h.onRingAt r (fun x => { x with pend := x.pend ++ [p] })).setCopy id 24 .held
        else (h.onRingAt r (fun x => { x with head := x.head ++ [p] })).setCopy id 24 .waiting
      h.showRing r
    if !g.pend.isEmpty || !g.head.isEmpty then wait h
    else match h.rxData r p with
      | none => h
      | some x => match h.rxWrite r 0 0 x descs with
        | some (h', _) => h'.dropRef p
        | none => wait h

/-- A frame reaches P24 for a ring: discarded, written, pending, or waiting at the head of its VOQ. -/
def Hw.p24 (h : Hw) (f : Frame) (descs : List (List Nat)) : Hw :=
  let o := recvOwner f
  let r := (o - 2) * 8 + h.rxQueueOf f (h.readFrame f)
  let p : RxPend := ⟨some f.id, 0, [], h.clk⟩
  match kvGet h.own.tear o with
  | some t =>
    if t.erased then
      { h.takeAt 24 f with own := { (h.takeAt 24 f).own with tear := kvPut (h.takeAt 24 f).own.tear o { t with frames := t.frames + 1 } } }
    else h.p24Live r p descs
  | none => if h.own.active.contains o then h.p24Live r p descs else h.rxDiscard r p

end Sys2Proof.Machine
end

