-- ==== Sys2Proof/Machine/Keys.lean ====
section
/-!
DEFINITION. Keys (R369 to R375): the derivation function, the hierarchy of an owner, blobs, creation and rotation.
-/
namespace Sys2Proof.Machine

/-- Four ASCII letters of a label. -/
def label (s : List Nat) : List Byte := s.map (BitVec.ofNat 8)

/-- One block of the derivation function (R369). -/
def kdfBlock (k : BitVec 256) (lab ctx : List Byte) (l i : Nat) : Nat :=
  (cmac256 k (toBe 1 i ++ lab ++ toBe 1 0 ++ (ctx ++ List.replicate 16 0).take 16 ++ toBe 2 l)).toNat

/-- kdf (R369): the leading `l` bits of the blocks, as a number. -/
def kdf (k : BitVec 256) (lab ctx : List Byte) (l : Nat) : Nat :=
  let n := (l + 127) / 128
  ((List.range n).foldl (fun a i => a * 2 ^ 128 + kdfBlock k lab ctx l (i + 1)) 0) / 2 ^ (128 * n - l)

/-- A 256-bit derived key. -/
def kdfKey (k : BitVec 256) (lab ctx : List Byte) : BitVec 256 := BitVec.ofNat 256 (kdf k lab ctx 256)

/-- The labels of R370. -/
def lbStor : List Byte := label [0x53, 0x54, 0x4F, 0x52]
def lbSess : List Byte := label [0x53, 0x45, 0x53, 0x53]
def lbDid  : List Byte := label [0x44, 0x49, 0x44, 0x5F]
def lbOwnr : List Byte := label [0x4F, 0x57, 0x4E, 0x52]
def lbBasn : List Byte := label [0x42, 0x41, 0x53, 0x4E]
def lbJobk : List Byte := label [0x4A, 0x4F, 0x42, 0x4B]
def lbEcdh : List Byte := label [0x45, 0x43, 0x44, 0x48]
def lbKtrn : List Byte := label [0x4B, 0x54, 0x52, 0x4E]
def lbLxts : List Byte := label [0x4C, 0x58, 0x54, 0x53]
def lbXprt : List Byte := label [0x58, 0x50, 0x52, 0x54]

/-- A P-384 scalar from 448 derived bits (R370). -/
def scalarOf (v : Nat) : BitVec 384 := BitVec.ofNat 384 (v % (p384Order - 1) + 1)

/-- Update Treust. -/
def Hw.onSec (h : Hw) (f : Sec → Sec) : Hw := { h with sec := f h.sec }

/-- Update the owners. -/
def Hw.onOwn (h : Hw) (f : Own → Own) : Hw := { h with own := f h.own }

/-- The device identity key's private scalar (R370). -/
def identityKey (fu : Fuse) : BitVec 384 := scalarOf (kdf fu.root lbDid [] 448)

/-- An owner's master key. -/
def Hw.master (h : Hw) (o : Nat) : Option (BitVec 256) := kvGet h.sec.mo o

/-- The Basin key of an owner for a rotation count (R370). -/
def basinKey (mo : BitVec 256) (rot : Nat) : BitVec 256 := kdfKey mo lbBasn (toBe 4 rot)

/-- The ECDH shared secret; with a public key that is no point of the curve, where no rule states it, a free value (DESIGN CHOICE, log
entry 2). -/
def ecdhShared (d : BitVec 384) (pub : List Byte) : BitVec 384 := (ecdhP384 d pub).getD (Config.ecdhOffCurve pub)

/-- The key-transport key of an owner, if it has a transport public key (R373). -/
def Hw.transportKey (h : Hw) (fu : Fuse) (o : Nat) : Option (BitVec 256) :=
  (kvGet h.sec.pubs o).map (fun pub =>
    let z := (ecdhShared (identityKey fu) pub).toNat
    let kz := (sha384 (toBe 48 z)).toNat / 2 ^ 128
    kdfKey (BitVec.ofNat 256 kz) lbKtrn (toBe 2 o))

/-- GCM with a 12-byte IV: the plain text of a key blob and whether its tag is good (R373). -/
def blobOpen (k : BitVec 256) (aad blob : List Byte) : List Byte × Bool :=
  let iv := blob.take 12
  let ct := (blob.drop 12).take (blob.length - 28)
  (gcmXor k iv ct, toBe 16 (gcmTag k iv aad ct).toNat == blob.drop (blob.length - 16))

/-- The firmware serves doorbells: the C-image is ready, or for owner 2 the recovery service runs (R341, R342). -/
def Hw.serves (h : Hw) (o : Nat) : Bool :=
  h.flag Reg.MBX_STATUS Fld.MBX_STATUS_READY || (o == 2 && h.flag Reg.MBX_STATUS Fld.MBX_STATUS_SAFE_SET)

/-- The registers that belong to one owner return to reset (R482): MBX per-owner, EVQ, HDMA queue pairs. -/
def Hw.clearOwnerRegs (h : Hw) (o : Nat) : Hw :=
  h.clrWhere (fun r =>
    (decide (0x10000000 + 0x100 * o ≤ r) && decide (r < 0x10000100 + 0x100 * o)) ||
    (decide (0x20000 + 0x100 * o ≤ r) && decide (r < 0x20100 + 0x100 * o)) ||
    (decide (2 ≤ o) && decide (o < 258) && decide (0x60000 + 0x200 * (o - 2) ≤ r) && decide (r < 0x60200 + 0x200 * (o - 2))))

/-- The volatile queues of an owner are empty: mailbox slots IDLE (R327), rings, event-queue counts. -/
def Hw.clearOwnerQueues (h : Hw) (o : Nat) : Hw :=
  let rings := h.hdma.ring.filter (fun r => !(decide (2 ≤ o) && r.1 / 8 == o - 2))
  let h := h.onHdma (fun d => { d with
    ring := rings
    waiting := d.waiting.filter (fun q => rings.any (fun r => r.1 == q.ring))
    flight := d.flight.filter (fun q => rings.any (fun r => r.1 == q.ring)) })
  { h with
    mbx := { h.mbx with
      slots := h.mbx.slots.filter (fun s => s.1 / 32 != o)
      ram := h.mbx.ram.filter (fun w => w.1 / 1024 != o) }
    evq := { h.evq with
      lost := kvDel h.evq.lost o, since := kvDel h.evq.since o, sinceRec := kvDel h.evq.sinceRec o, times := kvDel h.evq.times o
      lateTimer := without h.evq.lateTimer o, lateDone := without h.evq.lateDone o, lateAt := kvDel h.evq.lateAt o } }

/-- Derive an owner's master key from the session key and a fresh nonce, and its Basin key (R370). -/
def Hw.makeKeys (h : Hw) (o : Nat) : Hw :=
  match h.sec.dsess with
  | none => h
  | some ds =>
    let mo := kdfKey ds lbOwnr (toBe 2 o ++ toBe 14 h.draw)
    let h := h.drawn.onSec (fun s => { s with mo := kvPut s.mo o mo, rot := kvDel s.rot o })
    h.onOwn (fun w => { w with keys := kvPut (kvDel w.keys (o * 2 + 1)) (o * 2) (basinKey mo 0), keySel := kvDel w.keySel o })

/-- Treust holds no owner keys until reset: debug level 3 is open or about to be (R395). -/
def Hw.keysBarred (h : Hw) : Bool := h.sec.dbgWant || h.fld Reg.SEC_STATUS Fld.SEC_STATUS_DEBUG_LEVEL == 3

/-- Create an owner (R17, R21, R301): a new key, an empty policy, its registers at reset; it is active and its doorbells are
accepted once firmware serves them. At debug level 3 Treust holds no owner keys until reset (R395). The key comes from the TRNG: while it restarts the owner waits, once
it has failed none is created (R391). -/
def Hw.createOwner (h : Hw) (o : Nat) : Hw :=
  if h.own.active.contains o || h.keysBarred
      || h.flag Reg.SEC_STATUS Fld.SEC_STATUS_TRNG_FAIL then h
  else if h.sec.trngDown then h.onOwn (fun w => { w with await := insertNew w.await o })
  else
    let h := ((h.clearOwnerRegs o).clearOwnerQueues o).makeKeys o
    let h := h.onOwn (fun w => { w with active := insertNew w.active o })
    let h := h.setFld (Reg.EVQ_STATUS o) Fld.EVQ_STATUS_ACTIVE 1
    let h := if h.serves o then h.setFld (Reg.MBX_OWNER_STATUS o) Fld.MBX_OWNER_STATUS_READY 1 else h
    if h.flag Reg.MBX_STATUS Fld.MBX_STATUS_SAFE_SET then
      h.setFld (Reg.MBX_OWNER_STATUS o) Fld.MBX_OWNER_STATUS_SAFE_SET (if o = 2 then 1 else 0) else h

/-- KEY_SLOT_RETIRE (R361, R375): a slot that rotation left behind is destroyed once no descriptor refers to it. -/
def execKeySlotRetire (owner : Nat) (s : State) : Res :=
  onHw s (fun h => match kvGet h.own.retiring owner with
    | none => h
    | some slot =>
      if h.swc.frames.any (fun f => f.owner == owner && f.keySel == slot && !f.cells.isEmpty) then h
      else
        let h := h.onOwn (fun w => { w with keys := kvDel w.keys (owner * 2 + slot), retiring := kvDel w.retiring owner })
        let h := h.post 1 0x0B01 owner slot
        if owner = 1 then h else h.post owner 0x0B01 owner slot)

end Sys2Proof.Machine
end

