-- ==== Sys2Proof/Machine/MbxOps.lean ====
section
/-!
DEFINITION. Mailboxes (R325 to R337, R343 to R352): slots, completion, the frame every GCS command is judged in.
-/
namespace Sys2Proof.Machine

/-- Update the mailboxes. -/
def Hw.onMbx (h : Hw) (f : Mbx → Mbx) : Hw := { h with mbx := f h.mbx }

/-- Word `w` of slot `s` of an owner's mailbox RAM. -/
def Hw.slotWord (h : Hw) (o s w : Nat) : Nat := kvGetD h.mbx.ram (o * 1024 + s * 32 + w) 0

/-- Write words of the mailbox RAM from word `w` of slot `s`. -/
def Hw.putSlot (h : Hw) (o s w : Nat) (vs : List Nat) : Hw :=
  h.onMbx (fun m => { m with ram := (vs.mapIdx (fun i v => (i, v))).foldl (fun a p =>
    if p.2 % 2 ^ 32 = 0 then kvDel a (o * 1024 + s * 32 + w + p.1) else kvPut a (o * 1024 + s * 32 + w + p.1) (p.2 % 2 ^ 32)) m.ram })

/-- The commands of an owner in flight, by slot. -/
def Hw.inFlight (h : Hw) (o : Nat) : List (Nat × Slot) := h.mbx.slots.filter (fun s => s.1 / 32 == o)

/-- The registers that show commands in flight. -/
def Hw.showMbx (h : Hw) (o : Nat) : Hw :=
  let l := h.inFlight o
  let h := h.setFld (Reg.MBX_OWNER_STATUS o) Fld.MBX_OWNER_STATUS_IN_FLIGHT l.length
  let h := h.wn (Reg.MBX_INFLIGHT o) (maskOf (l.map (fun s => s.1 % 32)))
  h.setFld Reg.MBX_STATUS Fld.MBX_STATUS_FW_ACTIVE (h.mbx.slots.filter (fun s => s.2.st == 2)).length

/-- OPCODE of a slot copy. -/
def Slot.opcode (s : Slot) : Nat := s.copy.getD 0 0 % 65536

/-- TAG of a slot copy. -/
def Slot.tag (s : Slot) : Nat := s.copy.getD 1 0 % 65536

/-- LENGTH of a slot copy, in bytes. -/
def Slot.length (s : Slot) : Nat := bits (s.copy.getD 1 0) 22 16

/-- CHECK_ONLY of a slot copy. -/
def Slot.checkOnly (s : Slot) : Bool := bit (s.copy.getD 0 0) 16

/-- BARRIER, set or in force as for SYS_HELLO (R331, R337). -/
def Slot.barrier (s : Slot) : Bool := bit (s.copy.getD 0 0) 17 || s.opcode == 0x0101

/-- The request payload, zero beyond LENGTH. -/
def Slot.payload (s : Slot) : List Nat := (s.copy.drop 4).take (s.length / 4)

/-- A result of a lower layer after its upper layer cancelled it (R473). -/
def Hw.lateResult (h : Hw) (k : Nat) : Hw := (h.inc (Reg.EVF_LATE k)).postMod 0x0F03 k

/-- Completion (R332): response, DETAIL, RESP_LEN and CODE with STATE DONE in the slot, then MBX_DONE; one
after an abort is a late result (R473). -/
def Hw.complete (h : Hw) (k : Nat) (code detail : Nat) (resp : List Nat) : Hw :=
  match kvGet h.mbx.slots k with
  | none => h
  | some s =>
    let o := k / 32
    let n := k % 32
    let h := (h.putSlot o n 4 resp).putSlot o n 3 [detail]
    let h := h.putSlot o n 1 [resp.length * 4 * 2 ^ 24 + s.copy.getD 1 0 % 2 ^ 24]
    let h := (h.putSlot o n 2 [3 * 2 ^ 30 + code % 65536]).onMbx (fun m => { m with slots := kvDel m.slots k })
    let h := (h.showMbx o).post o 0x0201 (s.tag * 65536 + n) (s.opcode * 65536 + code % 65536) detail
    if s.aborted then h.lateResult 0 else h

/-- Set the record of a slot. -/
def Hw.setSlot (h : Hw) (k : Nat) (s : Slot) : Hw := h.onMbx (fun m => { m with slots := kvPut m.slots k s })

/-! ### The GCS frame (R346 to R352) -/

/-- Result codes (R328, R348). -/
def cOk : Nat := 0
def cAborted : Nat := 1
def cRestarted : Nat := 2
def cBadOpcode : Nat := 3
def cBadHeader : Nat := 4
def cDenied : Nat := 5
def cVersion : Nat := 6
def cSafeSet : Nat := 7
def cMbxEcc : Nat := 8
def cBadParam : Nat := 0x0100
def cNoObject : Nat := 0x0101
def cConflict : Nat := 0x0102
def cState : Nat := 0x0103
def cBound : Nat := 0x0104
def cDeadlock : Nat := 0x0105
def cQuota : Nat := 0x0106
def cRuleFull : Nat := 0x0107
def cTableFull : Nat := 0x0108
def cLoop : Nat := 0x0109
def cAuth : Nat := 0x010A
def cLifecycle : Nat := 0x010B
def cTimeResult : Nat := 0x010C
def cBufErr : Nat := 0x010D
def cBudget : Nat := 0x010E

/-- What firmware makes of a command: refused, with what even a refusal changes (counters, elements committed by R350);
carried out, with its response; or begun, to complete later. -/
inductive Gcs where
  | no (code detail : Nat) (resp : List Nat) (h : Hw)
  | ok (h : Hw) (resp : List Nat)
  | wait (h : Hw)

/-- A plain refusal. -/
def Hw.refuse (h : Hw) (code detail : Nat) : Gcs := .no code detail [] h

/-- The issuers of a command (R352). -/
def issuerOk (op o : Nat) : Bool :=
  if [0x0101, 0x0102, 0x0103, 0x010C, 0x0205, 0x0A03].contains op then true
  else if op / 256 = 1 then o == 1 || o == 2
  else if op / 256 = 2 then o == 1
  else if [0x0A02, 0x0A0A, 0x0A0C, 0x0C01, 0x0C03].contains op then o == 1 || o == 2
  else true

/-- An owner may configure a resource (R19, R354): it holds it, or nobody was granted it and it is owner 1. -/
def Hw.mayConf (h : Hw) (o type index : Nat) : Bool := h.holder type index == o

/-- An owner may read a resource: it may configure it, was granted it to read, or is owner 1 (R354). -/
def Hw.mayRead (h : Hw) (o type index : Nat) : Bool :=
  o == 1 || h.mayConf o type index || (kvGetD h.own.read (resWord type index) []).contains o

/-- No earlier command of the owner is still to take effect (R331; DEDUCED, log entry 21). -/
def Hw.oldestOf (h : Hw) (k : Nat) (s : Slot) : Bool :=
  h.mbx.slots.all (fun x => x.1 / 32 != k / 32 || x.1 == k || x.2.st != 2 || x.2.committed || decide (s.order < x.2.order))

/-- The first deadlock condition a change brings about, then the first bound it breaks (R144, R346, R349): code and DETAIL. `viol`
lists the deadlock conditions broken in a configuration. -/
def Hw.judgeNew (old new : Hw) (viol : Hw → List Nat) : Option (Nat × Nat) :=
  match (viol new).find? (fun d => !(viol old).contains d) with
  | some d => some (cDeadlock, d)
  | none => (Hw.boundBreaks old new).map (fun d => (cBound, d))

/-- Firmware carries out the ACTIVE command in a slot (R346, R347): issuer, the command's own checks, then deadlock and the latency
bounds of admitted streams (R144, R349). With CHECK_ONLY nothing changes (R331). -/
def Hw.gcsRun (h : Hw) (o slot op : Nat) (viol : Hw → List Nat) (f : Slot → Gcs) : Hw :=
  let k := o * 32 + slot
  match kvGet h.mbx.slots k with
  | none => h
  | some s =>
    if 32 ≤ slot || s.st != 2 || s.opcode != op || s.committed || !h.oldestOf k s then h
    else if !issuerOk op o then h.complete k cDenied (s.payload.getD 0 0) []
    else
      let keep (x : Hw) : Hw := if s.checkOnly then h else x
      match f s with
      | .no code detail resp x => (keep x).complete k code detail resp
      | .wait x => if s.checkOnly then h.complete k cOk 0 [] else x
      | .ok x resp =>
        match Hw.judgeNew h x viol with
        | some (c, d) => (keep (if c = cBound then h.inc Reg.TSS_BOUND_REFUSED else h)).complete k c d []
        | none => (keep (Hw.settleBounds h x)).complete k cOk 0 resp

/-- The command concerns neither the back-pressure graph nor the rules of R49. -/
def noDeadlock (_ : Hw) : List Nat := []

/-- A slot waits for an event that completes it. -/
def Hw.waiting? (h : Hw) (op : Nat) (p : Slot → Bool) : Option Nat :=
  (h.mbx.slots.find? (fun s => s.2.st == 2 && s.2.opcode == op && p s.2)).map (·.1)

end Sys2Proof.Machine
end

