-- ==== Sys2Proof/Machine/GcsOps.lean ====
section
/-!
DEFINITION. What the commands of the Gateway Command Set share (R343 to R353): words of a payload, checks in the order of R346,
register images, host buffers.
-/
namespace Sys2Proof.Machine

/-- Payload word `k`. -/
def Slot.w (s : Slot) (k : Nat) : Nat := s.payload.getD k 0

/-- Payload words `k` and `k + 1` as a 64-bit value, low word first (R343). -/
def Slot.w64 (s : Slot) (k : Nat) : Nat := s.w k + s.w (k + 1) * 2 ^ 32

/-- A check: it fails, with CODE and DETAIL. -/
abbrev Check := Bool × Nat × Nat

/-- The lowest bit set in a word. -/
def lowBit (v : Nat) : Nat := ((List.range 32).find? (fun i => v.testBit i)).getD 0

/-- Bits of payload words outside the masks are reserved (R343, R348): BAD_PARAM with the byte offset of the lowest. -/
def reservedIn (ws : List Nat) (masks : List Nat) : Check :=
  match ((masks.mapIdx (fun k m => (k, ws.getD k 0 &&& (0xFFFFFFFF - m)))).find? (fun e => e.2 != 0)) with
  | some e => (true, cBadParam, 4 * e.1 + lowBit e.2 / 8)
  | none => (false, 0, 0)

/-- Reserved bits of a payload. -/
def Slot.reserved (s : Slot) (masks : List Nat) : Check := reservedIn s.payload masks

/-- BAD_PARAM at a byte offset. -/
def badAt (c : Bool) (off : Nat) : Check := (c, cBadParam, off)

/-- BAD_PARAM for the first bad entry of a list, at its offset in the buffer. -/
def badEntry (ws : List Nat) (bad : Nat → Bool) : Check :=
  match (ws.mapIdx (fun i w => (i, w))).find? (fun e => bad e.2) with
  | some e => (true, cBadParam, 4 * e.1)
  | none => (false, 0, 0)

/-- NO_OBJECT naming a resource. -/
def noObj (c : Bool) (t i : Nat) : Check := (c, cNoObject, resWord t i)

/-- STATE naming a resource. -/
def badState (c : Bool) (t i : Nat) : Check := (c, cState, resWord t i)

/-- CONFLICT naming a resource. -/
def conflict (c : Bool) (t i : Nat) : Check := (c, cConflict, resWord t i)

/-- The resource is outside the issuer's policy (R19). -/
def Hw.deny (h : Hw) (o t i : Nat) : Check := (!h.mayConf o t i, cDenied, resWord t i)

/-- The resource may not be read by the issuer. -/
def Hw.denyRead (h : Hw) (o t i : Nat) : Check := (!h.mayRead o t i, cDenied, resWord t i)

/-- The first of several resources that is outside the policy. -/
def Hw.denyAny (h : Hw) (o : Nat) (l : List (Nat × Nat)) : Check :=
  match l.find? (fun r => !h.mayConf o r.1 r.2) with
  | some r => (true, cDenied, resWord r.1 r.2)
  | none => (false, 0, 0)

/-- What no resource word names is held by owner 1 (R19). -/
def only1 (o : Nat) : Check := (o != 1, cDenied, 0)

/-- The first check that fails refuses the command. -/
def Hw.vet (h : Hw) (cs : List Check) (r : Gcs) : Gcs :=
  match cs.find? (fun c => c.1) with
  | some c => h.refuse c.2.1 c.2.2
  | none => r

/-- Write the fields of a register image; a block that is off discards it (R483). -/
def Hw.cfg (h : Hw) (off mask v : Nat) : Hw := if h.answers off then h.image off mask v else h

/-- Write register images: offset, mask of the fields, payload word. -/
def Hw.images (h : Hw) (l : List (Nat × Nat × Nat)) : Hw := l.foldl (fun a x => a.cfg x.1 x.2.1 x.2.2) h

/-- The words of the host buffer the command named. -/
def Slot.bufWords (s : Slot) (n : Nat) : List Nat := wordsOf n (s.buf ++ List.replicate (4 * n - s.buf.length) 0)

/-- A response buffer is written into the memory of the issuing owner (R345); it cannot be while the function masters no bus. -/
def Hw.toBuffer (h : Hw) (o addr : Nat) (words : List Nat) : Option Hw :=
  if 2 ≤ o ∧ o ≤ 257 ∧ !(h.hdma.linkUp && (h.pciFn o).busMaster) then none
  else some (h.emit (.hostWrite o addr words))

/-- A response in a host buffer of `len` bytes: as many words as it holds; response word 0 gives the words there are. -/
def Hw.answerBuffer (h : Hw) (o addr len : Nat) (words : List Nat) : Gcs :=
  match h.toBuffer o addr (words.take (len / 4)) with
  | none => h.refuse cBufErr 0
  | some x => .ok x [words.length]

/-- An admitted stream enters or leaves at a MAC. -/
def Hw.carries (h : Hw) (p : Nat) : Bool := h.tss.admitted.any (fun a => a.2.ingress == p || a.2.egress.testBit p)

/-- A rule of the bridge that a record can hit (VALID), and one that only carries destinations (R249; marked by bit 29 of word 0). -/
def ruleHead (r : List Nat) : Bool := bit (r.getD 0 0) 31
def ruleChained (r : List Nat) : Bool := bit (r.getD 0 0) 29

/-- Rules that a record can hit. -/
def Hw.heads (h : Hw) : List (Nat × List Nat) := h.brg.rules.filter (fun r => ruleHead r.2)

/-- A rule limited by the policer of a stream handle (R254), by its index. -/
def Hw.ratedBy (h : Hw) (k : Nat) : Option Nat :=
  (h.heads.find? (fun r => bit (r.2.getD 2 0) 15 && r.2.getD 2 0 % 4096 == k)).map (·.1)

/-- The two words of a byte list as a key of type `t` (R86): KEY in three words. -/
def keyWords (a b c : Nat) : Nat := a + b * 2 ^ 32 + c % 16 * 2 ^ 64

/-- The issuer `o` is answered with words and nothing changes. -/
def Hw.tell (h : Hw) (ws : List Nat) : Gcs := .ok h ws

/-- What draws from the TRNG waits while it restarts, and is refused once it has failed (R391). -/
def Hw.withTrng (h : Hw) (r : Gcs) : Gcs :=
  if h.flag Reg.SEC_STATUS Fld.SEC_STATUS_TRNG_FAIL then h.refuse cState 0
  else if h.sec.trngDown then .wait h
  else r

end Sys2Proof.Machine
end

