-- ==== Sys2Proof/Machine/LearnOps.lean ====
section
/-!
DEFINITION. The learning arbiter's table operations (R81, R82, R87 to R94, R102, R105): positions, writes to both replicas,
insertion with relocation, stash and eviction, removal, recent-learn records, learning messages.
-/
namespace Sys2Proof.Machine

/-- Update the forwarding tables. -/
def Hw.onFwd (h : Hw) (f : Fwd → Fwd) : Hw := { h with fwd := f h.fwd }

/-- The ageing time-stamp now. -/
def Hw.ageNow (h : Hw) : Nat := h.fld Reg.FWD_AGE_NOW Fld.FWD_AGE_NOW_NOW

/-- Age of an entry in ageing units (R92, R99). -/
def Hw.ageOf (h : Hw) (e : EmEntry) : Nat := (h.ageNow + 65536 - e.age) % 65536

/-- Position of a way: half, bucket, way. -/
def wayPos (half bucket way : Nat) : Nat := half * 131072 + bucket * 4 + way

/-- Position of the first stash entry. -/
def stashBase : Nat := 0x100000

/-- The bucket of a key in a half (R87), numbered over both halves. -/
def Hw.bucketOf (h : Hw) (half type key : Nat) : Nat :=
  half * 32768 +
    (if half = 0 then crc32cFrom (h.rn Reg.FWD_HASH_SEED0) (hashInput type key)
      else crc32From (h.rn Reg.FWD_HASH_SEED1) (hashInput type key)) % 32768

/-- The free way of lowest index in a bucket. -/
def freeWay (m : Kv EmEntry) (b : Nat) : Option Nat :=
  ((List.range 4).map (fun w => b * 4 + w)).find? (fun p => (kvGet m p).isNone)

/-! ### Writes -/

/-- The arbiter's value of a position: tables 0 exact match, 1 LPM, 2 ACL, 3 VLAN, 4 multicast group, 5 next hop. -/
def Fwd.val (f : Fwd) (t i : Nat) : TblVal :=
  match t with
  | 0 => .em (kvGet f.em i)
  | 1 => .lpm (kvGet f.lpm i)
  | 2 => .acl (kvGet f.acl i)
  | 3 => .vlan (kvGet f.vlan i)
  | 4 => .group (kvGetD f.mcast i 0)
  | _ => .nhop (kvGet f.nhop i)

/-- Set or empty a position of a map. -/
def kvSet {β : Type} (m : Kv β) (i : Nat) : Option β → Kv β
  | some v => kvPut m i v
  | none => kvDel m i

/-- The shadow's value of a position. -/
def Shadow.val (s : Shadow) (t i : Nat) : TblVal :=
  match t with
  | 0 => .em (kvGet s.em i)
  | 1 => .lpm (kvGet s.lpm i)
  | 2 => .acl (kvGet s.acl i)
  | 3 => .vlan (kvGet s.vlan i)
  | 4 => .group (kvGetD s.mcast i 0)
  | _ => .nhop (kvGet s.nhop i)

/-- Firmware applies a change record to its shadow (R82). -/
def Shadow.put (s : Shadow) (i : Nat) : TblVal → Shadow
  | .em v => { s with em := kvSet s.em i v }
  | .lpm v => { s with lpm := kvSet s.lpm i v }
  | .acl v => { s with acl := kvSet s.acl i v }
  | .vlan v => { s with vlan := kvSet s.vlan i v }
  | .group m => { s with mcast := kvPut s.mcast i m }
  | .nhop v => { s with nhop := kvSet s.nhop i v }

/-- The shadow of the tables as they stand. -/
def Fwd.copy (f : Fwd) : Shadow := ⟨f.em, f.vlan, f.mcast, f.nhop, f.lpm, f.acl⟩

/-- The arbiter posts the record of one change (R82); one that finds the queue full is lost. -/
def Hw.changedOne (h : Hw) (c : Nat × Nat × TblVal) : Hw :=
  let seq := (h.rn Reg.FWD_CHANGE_SEQ + 1) % 2 ^ 32
  let h := h.wn Reg.FWD_CHANGE_SEQ seq
  if Config.changeQueueMore < h.fwd.changes.length then h.setFld Reg.FWD_STATUS Fld.FWD_STATUS_LOG_LOST 1
  else h.onFwd (fun f => { f with changes := f.changes ++ [⟨seq, c.1, c.2.1, c.2.2⟩] })

/-- The records of changes in order (R82). -/
def Hw.changed (h : Hw) (l : List (Nat × Nat × TblVal)) : Hw := l.foldl Hw.changedOne h

/-- Firmware applies the oldest change record and shows its number in FWD_SHADOW_SEQ (R82). -/
def Hw.applyChange (h : Hw) : Hw :=
  match h.fwd.changes with
  | [] => h
  | c :: cs => (h.onFwd (fun f => { f with changes := cs, shadow := f.shadow.put c.index c.val })).wn Reg.FWD_SHADOW_SEQ c.seq

/-- Make writes in order; with the table, what each position held before, latest write first. -/
def emWrites (m : Kv EmEntry) (ws : List (Nat × Option EmEntry)) : Kv EmEntry × List (Nat × Option EmEntry) :=
  ws.foldl (fun a w =>
    ((match w.2 with | some e => kvPut a.1 w.1 e | none => kvDel a.1 w.1), (w.1, kvGet a.1 w.1) :: a.2)) (m, [])

/-- The stash entries in order of age after writes. -/
def stashAfter (l : List Nat) (ws : List (Nat × Option EmEntry)) : List Nat :=
  ws.foldl (fun a w => if w.1 < stashBase then a else if w.2.isSome then insertNew a w.1 else without a w.1) l

/-- The arbiter writes positions of the exact-match table. A hardware learn in pipeline `via` shows in the other replica when
its learning message arrives (R27); every other change shows in both at once (R81). -/
def Hw.emWrite (h : Hw) (via : Option Bool) (ws : List (Nat × Option EmEntry)) : Hw :=
  if ws.isEmpty then h
  else
    let r := emWrites h.fwd.em ws
    (h.onFwd (fun f => { f with
      em := r.1, stashAge := stashAfter f.stashAge ws,
      badUe := f.badUe.filter (fun x => !(x.1 == 0 && ws.any (fun w => w.1 == x.2.1))),
      struck := f.struck.filter (fun x => !(x.1 == 0 && ws.any (fun w => w.1 == x.2.1))),
      lagA := if via = some true then f.lagA ++ [(h.clk, r.2)] else if via.isNone then [] else f.lagA,
      lagB := if via = some false then f.lagB ++ [(h.clk, r.2)] else if via.isNone then [] else f.lagB })).changed (ws.map (fun w => (0, w.1, .em w.2)))

/-- The arbiter's entry of a type and key with its position. -/
def Hw.emAt (h : Hw) (type key : Nat) : Option (Nat × EmEntry) :=
  h.fwd.em.find? (fun e => e.2.type == type && e.2.key == key)

/-- An entry learned on a port. -/
def learnedOn (p : Nat) (e : EmEntry) : Bool := !e.static && e.type == 0 && e.group.isNone && e.port == p

/-- Learned entries pointing at a port (FWD_PORT_LEARNED). -/
def Hw.portLearned (h : Hw) (p : Nat) : Nat := (h.fwd.em.filter (fun e => learnedOn p e.2)).length

/-! ### Learning messages (R105, R108) -/

/-- The device belongs to a cascade. -/
def Hw.inCascade (h : Hw) : Bool := h.fld Reg.GLB_TOPOLOGY Fld.GLB_TOPOLOGY_CASCADE_SIZE != 0

/-- This device's index. -/
def Hw.devIndex (h : Hw) : Nat := h.fld Reg.GLB_TOPOLOGY Fld.GLB_TOPOLOGY_DEV_INDEX

/-- Put a record into the batch for the cascade. -/
def Hw.tellCascade (h : Hw) (op : Nat) (movable : Bool) (key port ns : Nat) : Hw :=
  if h.inCascade then
    h.onFwd (fun f => { f with batch := f.batch ++
      [(h.clk, ⟨op, movable, key / 2 ^ 48 % 4096, key % 2 ^ 48, h.devIndex, port, ns / 1000000000 % 2 ^ 32, ns % 1000000000⟩)] })
  else h

/-- An AGE_OUT record of an entry removed by ageing, flush or eviction; its learn time is the recent-learn record's, and a
free value when that is gone (DESIGN CHOICE, log entry 17). -/
def Hw.tellAgeOut (h : Hw) (e : EmEntry) : Hw :=
  if e.type != 0 || !h.inCascade then h
  else match kvGet h.fwd.recent e.key with
    | some r => h.tellCascade 2 false e.key e.port r.time
    | none => (h.tellCascade 2 false e.key e.port h.draw).drawn

/-! ### Removal -/

/-- A stash entry that may move into a bucket. -/
def Hw.stashFor (h : Hw) (b : Nat) : Option (Nat × EmEntry) :=
  h.fwd.stashAge.findSome? (fun p => match kvGet h.fwd.em p with
    | some e => if h.bucketOf (b / 32768) e.type e.key = b then some (p, e) else none
    | none => none)

/-- Stash entries move into a freed bucket, oldest first (R91), while it has a free way. -/
def Hw.migrate (h : Hw) (via : Option Bool) (b : Nat) : Nat → Hw
  | 0 => h
  | n + 1 => match freeWay h.fwd.em b, h.stashFor b with
    | some w, some (p, e) => (h.emWrite via [(w, some e), (p, none)]).migrate via b n
    | _, _ => h

/-- Invalidate positions, then let the stash move into the freed buckets (R91). -/
def Hw.emRemove (h : Hw) (via : Option Bool) (ps : List Nat) : Hw :=
  let h := h.emWrite via (ps.map (fun p => (p, none)))
  (ps.filter (fun p => decide (p < stashBase))).foldl (fun a p => a.migrate via (p / 4) 4) h

/-- Remove every entry that satisfies `p`; `tell` sends AGE_OUT records for them. -/
def Hw.emRemoveAll (h : Hw) (tell : Bool) (p : EmEntry → Bool) : Nat × Hw :=
  let gone := h.fwd.em.filter (fun e => p e.2)
  let h := if tell then gone.foldl (fun a e => a.tellAgeOut e.2) h else h
  (gone.length, h.emRemove none (gone.map (·.1)))

/-! ### Insertion (R89 to R93) -/

/-- An eligible occupant of a bucket on a path: valid, not static, not chosen before; a 2-bit draw names the way to begin
with. -/
def eligibleWay (m : Kv EmEntry) (b draw : Nat) (chosen : List Nat) : Option (Nat × EmEntry) :=
  ((List.range 4).map (fun i => b * 4 + (draw + i) % 4)).findSome? (fun p =>
    match kvGet m p with
    | some e => if e.static || chosen.contains p then none else some (p, e)
    | none => none)

/-- The path search (R89 step 2): positions chosen in order and the free way found; with it the draws made. -/
def Hw.pathSearch (h : Hw) (b : Nat) (chosen : List Nat) : Nat → Option (List Nat × Nat) × Hw
  | 0 => (none, h)
  | n + 1 =>
    match eligibleWay h.fwd.em b (h.draw % 4) chosen with
    | none => (none, h.drawn)
    | some (p, e) =>
      let alt := h.bucketOf (if b < 32768 then 1 else 0) e.type e.key
      match freeWay h.fwd.em alt with
      | some w => (some (chosen ++ [p], w), h.drawn)
      | none => h.drawn.pathSearch alt (chosen ++ [p]) n

/-- The moves of a path in reverse order: each occupant is written to its new position first (R90), and at last the new
entry to the position the first move freed. -/
def pathWrites (m : Kv EmEntry) (path : List Nat) (dest : Nat) (new : EmEntry) : List (Nat × Option EmEntry) :=
  match path.reverse with
  | [] => [(dest, some new)]
  | rev =>
    (rev.zip (dest :: rev)).flatMap (fun x => [(x.2, kvGet m x.1), (x.1, none)]) ++ [(rev.getLast?.getD dest, some new)]

/-- Where an insert places a key, and the victim it evicts. -/
structure Placement where
  writes : List (Nat × Option EmEntry)
  victim : Option (Nat × EmEntry)

/-- The victim of policy 0: the greatest age; the earliest candidate among equal ages (R92). -/
def Hw.oldestEntry (h : Hw) (l : List (Nat × EmEntry)) : Option (Nat × EmEntry) :=
  l.foldl (fun w e => match w with
    | none => some e
    | some v => if h.ageOf v.2 < h.ageOf e.2 then some e else some v) none

/-- The steps of R89; none when every candidate is static (R93). -/
def Hw.place (h : Hw) (new : EmEntry) : Option Placement × Hw :=
  let b0 := h.bucketOf 0 new.type new.key
  let b1 := h.bucketOf 1 new.type new.key
  match freeWay h.fwd.em b0, freeWay h.fwd.em b1 with
  | some p, _ => (some ⟨[(p, some new)], none⟩, h)
  | none, some p => (some ⟨[(p, some new)], none⟩, h)
  | none, none =>
    let s := h.pathSearch b0 [] 8
    match s.1 with
    | some (path, w) => (some ⟨pathWrites h.fwd.em path w new, none⟩, s.2)
    | none =>
      let h := s.2
      match ((List.range 64).map (stashBase + ·)).find? (fun p => (kvGet h.fwd.em p).isNone) with
      | some p => (some ⟨[(p, some new)], none⟩, h)
      | none =>
        let cand := ((List.range 4).map (b0 * 4 + ·) ++ (List.range 4).map (b1 * 4 + ·)).filterMap (fun p =>
          match kvGet h.fwd.em p with | some e => if e.static then none else some (p, e) | none => none)
        if h.flag Reg.FWD_CFG Fld.FWD_CFG_EVICT_POLICY then
          let v := if cand.isEmpty then none else cand[h.draw % cand.length]?
          (v.map (fun v => ⟨[(v.1, none), (v.1, some new)], some v⟩), h.drawn)
        else
          let v := h.oldestEntry cand
          (v.map (fun v => ⟨[(v.1, none), (v.1, some new)], some v⟩), h)

/-- Words 4 and 5 of a record that names a MAC and VID (R92). -/
def macVidWords (key : Nat) : Nat × Nat :=
  (key % 2 ^ 48 / 2 ^ 16, key % 2 ^ 16 * 2 ^ 16 + key / 2 ^ 48 % 4096)

/-- A victim is removed: counted, reported (R92), and told to the cascade. -/
def Hw.evicted (h : Hw) (v : Nat × EmEntry) (port : Nat) : Hw :=
  let w := macVidWords v.2.key
  let dst := match v.2.group with | some g => 0x8000 + g | none => v.2.port
  let h := (h.inc Reg.FWD_EVICT).post 1 0x0401 dst w.1 w.2 (h.ageOf v.2 * 2 ^ 16 + port)
    (v.1 % 4 * 2 ^ 16 + v.1 / 4)
  h.tellAgeOut v.2

/-- Insert a new entry; false when it cannot be placed (R89, R93). -/
def Hw.insertEntry (h : Hw) (via : Option Bool) (new : EmEntry) : Bool × Hw :=
  let p := h.place new
  match p.1 with
  | none => (false, p.2)
  | some x =>
    let h := match x.victim with | some v => p.2.evicted v new.port | none => p.2
    (true, h.emWrite via x.writes)

/-! ### Recent-learn records (R102) -/

/-- Move-hold window in ns. -/
def Hw.moveHold (h : Hw) : Nat := h.fld Reg.FWD_LEARN_CFG Fld.FWD_LEARN_CFG_MOVE_HOLD_MS * 1000000

/-- The record with the earliest timestamp. -/
def earliest (m : Kv Recent) : Option Nat :=
  (m.foldl (fun (w : Option (Nat × Recent)) e => match w with
    | none => some e
    | some v => if e.2.time < v.2.time then some e else some v) none).map (·.1)

/-- Create the record of a learn that places a key; a full table loses its earliest record. -/
def Hw.recordLearn (h : Hw) (key : Nat) (r : Recent) : Hw :=
  let full := (kvGet h.fwd.recent key).isNone && decide (4096 ≤ h.fwd.recent.length)
  let h := if full then
      match earliest h.fwd.recent with
      | some k => (h.onFwd (fun f => { f with recent := kvDel f.recent k })).inc Reg.FWD_RECENT_OVF
      | none => h
    else h
  h.onFwd (fun f => { f with recent := kvPut f.recent key r })

/-- A learn places a key on one of this device's own ports: told to the cascade (R105), or remembered as learned from a
member (R109). -/
def Hw.notePlaced (h : Hw) (r : LearnReq) : Hw :=
  match r.remote with
  | some k => h.onFwd (fun f => { f with origin := kvPut f.origin r.key k })
  | none =>
    let h := h.onFwd (fun f => { f with origin := kvDel f.origin r.key })
    if h.isCascade r.port then h
    else (h.tellCascade 1 r.movable r.key r.port r.time).onFwd (fun f => { f with sentAge := kvPut f.sentAge r.key h.ageNow })

/-- A new record from a learn request. -/
def recentOf (r : LearnReq) (moved said : Bool) : Recent := ⟨r.gport, r.port, r.time, r.movable, moved, said⟩

/-- The pipeline whose replica shows a hardware learn at once. -/
def viaOf (r : LearnReq) : Option Bool := if r.remote.isSome then none else some (pipeB r.port)

/-- The entry at a position points to the learn's port from now on. -/
def Hw.moveEntry (h : Hw) (pos : Nat) (e : EmEntry) (r : LearnReq) : Hw :=
  let h := h.emWrite (viaOf r) [(pos, some { e with port := r.port, group := none, age := h.ageNow })]
  h.inc Reg.FWD_MOVE_APPLIED

/-- The later of two learns: by timestamp, then by global port number (R103). -/
def laterThan (t g t' g' : Nat) : Bool := decide (t' < t) || (t == t' && decide (g' < g))

/-- A learn of a key whose entry points to another port (R103). -/
def Hw.stationMove (h : Hw) (pos : Nat) (e : EmEntry) (r : LearnReq) : Hw :=
  let win := h.moveHold
  match kvGet h.fwd.recent r.key with
  | none => ((h.moveEntry pos e r).recordLearn r.key (recentOf r false false)).notePlaced r
  | some x =>
    if r.time + win ≤ x.time then h.inc Reg.FWD_LEARN_STALE
    else if x.time + win ≤ r.time then ((h.moveEntry pos e r).recordLearn r.key (recentOf r false false)).notePlaced r
    else if x.moved then h.inc Reg.FWD_MOVE_HELD
    else
      let later := laterThan r.time r.gport x.time x.gport
      let wins := if later then r.movable else !x.movable
      let h := h.inc Reg.FWD_MOVE_SUSPECT
      let w := macVidWords r.key
      let dt := min (if r.time < x.time then x.time - r.time else r.time - x.time) 0xFFFFFFFF
      let h := if x.said then h
        else h.post 1 0x0403 (if wins then r.port else x.port) w.1 w.2 (if wins then x.port else r.port) dt
      if wins then ((h.moveEntry pos e r).recordLearn r.key (recentOf r true true)).notePlaced r
      else h.onFwd (fun f => { f with recent := kvPut f.recent r.key { x with said := true } })

/-- An entry of an own port is refreshed: AGE takes FWD_AGE_NOW (R95); told to the cascade once per ageing unit (R105). -/
def Hw.refreshEntry (h : Hw) (pos : Nat) (e : EmEntry) (r : LearnReq) : Hw :=
  if e.age == h.ageNow then h
  else
    let h := h.emWrite (viaOf r) [(pos, some { e with age := h.ageNow })]
    if r.remote.isSome || h.isCascade r.port || kvGet h.fwd.sentAge r.key == some h.ageNow then h
    else (h.tellCascade 1 r.movable r.key r.port r.time).onFwd (fun f => { f with sentAge := kvPut f.sentAge r.key h.ageNow })

/-- Serve a refresh (R95). -/
def Hw.acceptRefresh (h : Hw) (r : LearnReq) : Hw :=
  match h.emAt 0 r.key with
  | some (pos, e) => if e.static || e.group.isSome || e.port != r.port then h else h.refreshEntry pos e r
  | none => h

/-- A learn of a key, accepted by the arbiter (R95, R96, R103, R107). -/
def Hw.acceptLearn (h : Hw) (r : LearnReq) : Hw :=
  match h.emAt 0 r.key with
  | none =>
    let limit := h.fld (Reg.FWD_PORT_CFG r.port) Fld.FWD_PORT_CFG_LEARN_LIMIT
    if limit != 0 && decide (limit ≤ h.portLearned r.port) then h.inc Reg.FWD_LEARN_LIMITED
    else
      let i := h.insertEntry (viaOf r) ⟨false, 0, r.key, h.ageNow, r.port, none, 0, none, none, none, none⟩
      if i.1 then ((i.2.inc Reg.FWD_LEARN_APPLIED).recordLearn r.key (recentOf r false false)).notePlaced r
      else
        let w := macVidWords r.key
        (i.2.inc Reg.FWD_INSERT_FAIL).post 1 0x0402 r.port w.1 w.2
  | some (pos, e) =>
    let here := e.group.isNone && e.port == r.port
    if e.static then (if here then h else h.inc Reg.FWD_STATIC_CONFLICT)
    else if here then h.refreshEntry pos e r
    else if r.remote.isNone && h.isCascade r.port then h
    else h.stationMove pos e r

/-- Entries of a key set are forgotten as learned from a member. -/
def Hw.withdrawOrigin (h : Hw) (k : Nat) : Hw :=
  let keys := (h.fwd.origin.filter (fun o => o.2 == k)).map (·.1)
  let h := (h.emRemoveAll false (fun e => !e.static && e.type == 0 && keys.contains e.key)).2
  h.onFwd (fun f => { f with origin := f.origin.filter (fun o => o.2 != k) })

end Sys2Proof.Machine
end

