-- ==== Sys2Proof/Machine/Learn.lean ====
section
/-!
DEFINITION. The rows of the learning arbiter, the cascade's learning messages and the scrubber (R27, R89 to R109, R114 to
R116).
-/
namespace Sys2Proof.Machine

/-- The forwarding tables are ready. -/
def Hw.fwdReady (h : Hw) : Bool := h.flag Reg.FWD_STATUS Fld.FWD_STATUS_READY

/-- The first request of a kind, and the queue without it (R97). -/
def takeReq (learn : Bool) : List LearnReq → Option LearnReq × List LearnReq
  | [] => (none, [])
  | r :: rs => if r.learn == learn then (some r, rs) else let t := takeReq learn rs; (t.1, r :: t.2)

/-- LEARN_ACCEPT (R89): the oldest learn of the queue. One from P24 to P30 carries the time of acceptance (R96). -/
def execLearnAccept (s : State) : Res :=
  onHw s (fun h =>
    let t := takeReq true h.fwd.learnQ
    match t.1 with
    | none => h
    | some r =>
      let r := if 24 ≤ r.port then { r with time := h.tbNs (h.fld Reg.FWD_LEARN_CFG Fld.FWD_LEARN_CFG_TB) } else r
      (h.onFwd (fun f => { f with learnQ := t.2 })).acceptLearn r)

/-- REFRESH_ACCEPT (R95): learns are served first (R97). -/
def execRefreshAccept (s : State) : Res :=
  onHw s (fun h =>
    if (takeReq true h.fwd.learnQ).1.isSome then h
    else
      let t := takeReq false h.fwd.learnQ
      match t.1 with
      | none => h
      | some r => (h.onFwd (fun f => { f with learnQ := t.2 })).acceptRefresh r)

/-- An entry is due for removal by age (R99). -/
def Hw.ageDue (h : Hw) (e : EmEntry) : Bool :=
  !e.static && e.type == 0 && decide (h.fld Reg.FWD_AGE_CFG Fld.FWD_AGE_CFG_LIMIT ≤ h.ageOf e)

/-- Refreshes that wait for entries due now are served first, and the entries stay (R99). -/
def Hw.refreshDue (h : Hw) : Hw :=
  (h.fwd.learnQ.filter (fun r => !r.learn)).foldl (fun a r =>
    match a.emAt 0 r.key with
    | some (_, e) => if a.ageDue e then
        (a.onFwd (fun f => { f with learnQ := f.learnQ.filter (fun x => x != r) })).acceptRefresh r else a
    | none => a) h

/-- AGE_TICK (R98, R99): FWD_AGE_NOW advances each ageing unit; the sweep, once the tables are ready, removes what has reached LIMIT
(log entry 92). -/
def execAgeTick (s : State) : Res :=
  onHw s (fun h =>
    let h := h.setFld Reg.FWD_AGE_NOW Fld.FWD_AGE_NOW_NOW (h.ageNow + 1)
    if !h.fwdReady then h
    else
      let r := h.refreshDue.emRemoveAll true h.ageDue
      r.2.add Reg.FWD_AGED_OUT r.1)

/-- LEARN_MESSAGE_RECEIVE (R27): the oldest learning message reaches a replica. -/
def execLearnMessageReceive (pipeB : Bool) (s : State) : Res :=
  onHw s (fun h => h.onFwd (fun f => if pipeB then { f with lagB := f.lagB.tail } else { f with lagA := f.lagA.tail }))

/-- MOVE_WINDOW_CLOSE (R102, R105): the record ends; after a suspected move an entry on any own port is confirmed to the cascade. -/
def execMoveWindowClose (key : Nat) (s : State) : Res :=
  onHw s (fun h => match kvGet h.fwd.recent key with
    | none => h
    | some x =>
      let h := h.onFwd (fun f => { f with recent := kvDel f.recent key })
      match h.emAt 0 key with
      | none => h
      | some (_, e) =>
        if x.said && e.group.isNone && !h.isCascade e.port then
          (h.tellCascade 3 x.movable key e.port x.time).onFwd (fun f => { f with
            confirm := kvPut f.confirm key (x.time, h.devIndex * 32 + e.port) })
        else h)

/-! ### The cascade -/

/-- A record of a learning message as it stands in a frame (R108). -/
def lmBytes (r : LmRec) : List Byte :=
  toBe 1 (r.op * 16 + r.movable.toNat) ++ toBe 1 0 ++ toBe 2 r.vid ++ toBe 6 r.mac ++ toBe 1 (r.dev * 64 + r.port) ++
    toBe 1 0 ++ toBe 4 r.sec ++ toBe 4 r.ns ++ toBe 4 0

/-- A record read from a frame. -/
def lmRead (b : List Byte) : LmRec :=
  let w := be (sub b 0 1)
  let p := be (sub b 10 1)
  ⟨w / 16, w % 2 == 1, be (sub b 2 2) % 4096, be (sub b 4 6), p / 64, p % 32, be (sub b 12 4), be (sub b 16 4)⟩

/-- Fill a frame to 60 bytes and append its FCS. -/
def padFcs (b : List Byte) : List Byte :=
  let p := b ++ List.replicate (60 - b.length) 0
  p ++ fcsOf p

/-- The MAC address of a member as recorded at cascade formation; an address never recorded is a free value. -/
def Hw.memberMac (h : Hw) (k : Nat) : Nat := match kvGet h.sys.peers k with | some (m :: _) => m | _ => h.draw % 2 ^ 48

/-- Members a learning message goes to: reachable, and not this device. -/
def Hw.cascadeMembers (h : Hw) : List Nat :=
  (List.range 4).filter (fun k => k != h.devIndex && h.flag (Reg.FWD_CASCADE_PATH k) Fld.FWD_CASCADE_PATH_VALID)

/-- The link toward a member. -/
def Hw.pathTo (h : Hw) (k : Nat) : Nat := h.fld (Reg.FWD_CASCADE_PATH k) Fld.FWD_CASCADE_PATH_PORT

/-- CASCADE_LEARN_SEND (R108): up to 60 records leave for every member in a frame of Ethertype 0x88B5. -/
def execCascadeLearnSend (s : State) : Res :=
  onHw s (fun h =>
    if h.fwd.batch.isEmpty then h
    else
      let recs := (h.fwd.batch.take 60).map (·.2)
      let body := toBe 1 1 ++ toBe 1 recs.length ++ toBe 1 h.devIndex ++ toBe 1 0 ++ toBe 4 h.fwd.txSeq ++ recs.flatMap lmBytes
      let h := h.onFwd (fun f => { f with batch := f.batch.drop 60, txSeq := (f.txSeq + 1) % 2 ^ 32 })
      h.cascadeMembers.foldl (fun a k =>
        let fr := padFcs (toBe 6 (a.memberMac k) ++ toBe 6 (a.memberMac a.devIndex) ++ toBe 2 0x88B5 ++ body)
        a.drawn.sendInternal 26 ⟨1, fr, none, none, 100 + a.pathTo k, none, none, none, none, a.clk⟩) h)

/-- Learn time of a record in ns: its low 32 bits of seconds beside the high bits of the present time. -/
def Hw.lmTime (h : Hw) (r : LmRec) : Nat :=
  let now := h.tbNs (h.fld Reg.FWD_LEARN_CFG Fld.FWD_LEARN_CFG_TB) / 1000000000
  (now / 2 ^ 32 * 2 ^ 32 + r.sec) * 1000000000 + r.ns

/-- A CONFIRM record (R106): of two that disagree the later learn is kept, then the lower global port. -/
def Hw.applyConfirm (h : Hw) (k : Nat) (r : LmRec) : Hw :=
  let key := keyOf r.mac r.vid
  let t := h.lmTime r
  let g := r.dev * 32 + r.port
  let stale := match kvGet h.fwd.confirm key with
    | some c => decide (t < c.1) || (t == c.1 && decide (c.2 < g))
    | none => false
  if stale then h
  else
    let h := h.onFwd (fun f => { f with confirm := kvPut f.confirm key (t, g) })
    match h.emAt 0 key with
    | some (pos, e) =>
      if e.static then h
      else if e.group.isNone && e.port == h.pathTo k then h
      else (h.emWrite none [(pos, some { e with port := h.pathTo k, group := none, age := h.ageNow })]).onFwd (fun f =>
        { f with origin := kvPut f.origin key k })
    | none => h.acceptLearn ⟨true, key, h.pathTo k, g, t, r.movable, some k⟩

/-- Apply one record of member `k` (R106). -/
def Hw.applyLm (h : Hw) (k : Nat) (r : LmRec) : Hw :=
  let key := keyOf r.mac r.vid
  match r.op with
  | 1 => h.acceptLearn ⟨true, key, h.pathTo k, r.dev * 32 + r.port, h.lmTime r, r.movable, some k⟩
  | 2 => match h.emAt 0 key with
    | some (pos, e) => if !e.static && e.group.isNone && e.port == h.pathTo k then h.emRemove none [pos] else h
    | none => h
  | 3 => h.applyConfirm k r
  | _ => h

/-- A gap in an origin's sequence numbers (R109). -/
def Hw.seqGap (h : Hw) (k expected got : Nat) : Hw :=
  ((h.withdrawOrigin k).post 1 0x0404 k expected got).emit (.cpu 14874 (toBe 1 k))

/-- A learning-message frame that came in at a port (R106, R108, R109): from a member that is authenticated and reached through that
port; any other is discarded and counted (R33). -/
def Hw.learnFrame (h : Hw) (port : Nat) (b : List Byte) : Hw :=
  let p := (parseHdr b).body
  let n := be (sub p 1 1)
  let k := be (sub p 2 1)
  let seq := be (sub p 4 4)
  if 3 < k || k = h.devIndex || h.rn (Reg.FWD_CASCADE_PATH k) != 2 ^ 31 + port ||
      !(h.fld Reg.GLB_TOPOLOGY Fld.GLB_TOPOLOGY_MEMBERS_SEEN).testBit k then h.inc Reg.SWC_CASCADE_REJECT
  else if be (sub p 0 1) != 1 || n = 0 || 60 < n then h
  else
    let want := kvGet h.fwd.rxSeq k
    let h := match want with | some e => if e = seq then h else h.seqGap k e seq | none => h
    let h := h.onFwd (fun f => { f with rxSeq := kvPut f.rxSeq k ((seq + 1) % 2 ^ 32) })
    (List.range n).foldl (fun a i => a.applyLm k (lmRead (sub p (8 + 24 * i) 24))) h

/-- CASCADE_LEARN_RECEIVE (R106): the oldest 0x88B5 frame at P26. -/
def execCascadeLearnReceive (s : State) : Res :=
  onHw s (fun h => match h.copyAt 26 (fun f => (parseHdr (h.readFrame f)).etype == 0x88B5) with
    | none => h
    | some f => (h.takeAt 26 f).learnFrame f.ingress (h.readFrame f))

/-- CASCADE_WITHDRAW (R34): the entries learnt through a cascade link that is down are withdrawn; bounds are computed again
(R145). The event posted is the link's own MAC_LINK record. -/
def execCascadeWithdraw (port : Nat) (s : State) : Res :=
  onHw s (fun h =>
    if h.isCascade port && !h.linkUp port then
      let r := h.emRemoveAll false (learnedOn port)
      let h' := r.2.onFwd (fun f => { f with origin := f.origin.filter (fun o => (h.emAt 0 o.1).all (fun e => e.2.port != port)) })
      Hw.rebound h h'
    else h)

/-- PORT_FLUSH_ON_DOWN (R101). -/
def execPortFlushOnDown (port : Nat) (s : State) : Res :=
  onHw s (fun h =>
    if decide (port < 24) && h.flag (Reg.FWD_PORT_CFG port) Fld.FWD_PORT_CFG_FLUSH_ON_DOWN && !h.linkUp port
        && !h.isCascade port then (h.emRemoveAll true (learnedOn port)).2
    else h)

/-! ### The scrubber -/

/-- A shadow line fails authentication (R115, R382); which region and line is a free value. -/
def Hw.shadowAuthFail (h : Hw) : Hw :=
  let h := (h.inc Reg.FWD_SHADOW_AUTH).inc Reg.SEC_LPDDR_AUTH_FAIL
  (h.post 1 0x0B03 h.draw).drawn

/-- The arbiter writes a value into a position of both replicas (R81, R116): the change is recorded, and no error is left there. -/
def Hw.writeTable (h : Hw) (t i : Nat) (v : TblVal) : Hw :=
  match v with
  | .em e => h.emWrite none [(i, e)]
  | _ =>
    let h := h.onFwd (fun f => { f with
      badUe := f.badUe.filter (fun x => !(x.1 == t && x.2.1 == i)), struck := f.struck.filter (fun x => !(x.1 == t && x.2.1 == i)) })
    let h := match v with
      | .lpm e => h.onFwd (fun f => { f with lpm := kvSet f.lpm i e })
      | .acl e => h.onFwd (fun f => { f with acl := kvSet f.acl i e })
      | .vlan e => h.onFwd (fun f => { f with vlan := kvSet f.vlan i e })
      | .group m => h.onFwd (fun f => { f with mcast := kvPut f.mcast i m })
      | .nhop e => h.onFwd (fun f => { f with nhop := kvSet f.nhop i e })
      | .em _ => h
    h.changed [(t, i, v)]

/-- The tables have lost no change record, so the shadow may repair them (R116). -/
def Hw.logLost (h : Hw) : Bool := h.flag Reg.FWD_STATUS Fld.FWD_STATUS_LOG_LOST

/-- TABLE_UE_REPAIR (R114): the oldest uncorrectable entry is written again from the shadow, once the shadow holds every change made
to it (DEDUCED, log entry 155). -/
def execTableUeRepair (authFail : Bool) (s : State) : Res :=
  onHw s (fun h => match h.fwd.badUe.getLast? with
    | none => h
    | some x =>
      if h.logLost || h.fwd.changes.any (fun c => c.table == x.1 && c.index == x.2.1) then h
      else if authFail then h.shadowAuthFail
      else (h.writeTable x.1 x.2.1 (h.fwd.shadow.val x.1 x.2.1)).inc (Reg.FWD_SCRUB_REPAIR x.1))

/-- A value with its AGE left out, which the scrubber does not compare (R115). -/
def TblVal.ageless : TblVal → TblVal
  | .em (some e) => .em (some { e with age := 0 })
  | v => v

/-- A replica's value of a position: the exact-match replica may still lack learning messages (R27). -/
def Hw.replicaVal (h : Hw) (b : Bool) (t i : Nat) : TblVal :=
  if t = 0 then .em (kvGet (h.replica b) i) else h.fwd.val t i

/-- A position of a replica differs from the shadow, or holds a wrong value that no ECC showed (R115). -/
def Hw.differs (h : Hw) (b : Bool) (t i : Nat) : Bool :=
  h.fwd.struck.contains (t, i, b) || (h.replicaVal b t i).ageless != (h.fwd.shadow.val t i).ageless

/-- Positions the tables or the shadow list. -/
def Hw.listed (h : Hw) (t : Nat) : List Nat :=
  (match t with
    | 0 => (h.fwd.em.map (·.1)) ++ h.fwd.shadow.em.map (·.1) ++ (h.fwd.lagA ++ h.fwd.lagB).flatMap (fun m => m.2.map (·.1))
    | 1 => (h.fwd.lpm.map (·.1)) ++ h.fwd.shadow.lpm.map (·.1)
    | 2 => (h.fwd.acl.map (·.1)) ++ h.fwd.shadow.acl.map (·.1)
    | 3 => (h.fwd.vlan.map (·.1)) ++ h.fwd.shadow.vlan.map (·.1)
    | 4 => (h.fwd.mcast.map (·.1)) ++ h.fwd.shadow.mcast.map (·.1)
    | _ => (h.fwd.nhop.map (·.1)) ++ h.fwd.shadow.nhop.map (·.1)) ++
  (h.fwd.struck.filter (fun x => x.1 == t)).map (·.2.1)

/-- Every position of both replicas of the six tables that differs from the shadow (R115). -/
def Hw.mismatches (h : Hw) : List (Nat × Nat × Bool) :=
  (List.range 6).flatMap (fun t => (h.listed t).dedup.flatMap (fun i =>
    ([false, true].filter (fun b => h.differs b t i)).map (fun b => (t, i, b))))

/-- An uncorrectable entry is repaired ahead of all other scrubber work (R114). -/
def Hw.repairFirst (h : Hw) : Bool := !h.fwd.badUe.isEmpty && !h.logLost

/-- The pass ends once nothing waits for the shadow. -/
def Hw.scrubEnd (h : Hw) : Hw :=
  if h.fwd.recheck.isEmpty then
    (h.setFld Reg.FWD_STATUS Fld.FWD_STATUS_SCRUB_BUSY 0).wn Reg.FWD_SCRUB_PASSES (h.rn Reg.FWD_SCRUB_PASSES + 1)
  else h.setFld Reg.FWD_STATUS Fld.FWD_STATUS_SCRUB_BUSY 1

/-- SCRUB_PASS (R115): every entry of both replicas is compared with the shadow; `wrong` are positions where a replica has come to
hold a wrong value (table, index, pipeline B), `auth` shadow lines that fail. What differs is compared again later (R116). -/
def execScrubPass (wrong : List (Nat × Nat × Bool)) (auth : List Nat) (s : State) : Res :=
  onHw s (fun h =>
    if h.flag Reg.FWD_CFG Fld.FWD_CFG_SCRUB_EN && h.fwdReady && h.fwd.recheck.isEmpty && !h.repairFirst then
      let h := auth.foldl (fun a _ => a.shadowAuthFail) h
      let h := h.onFwd (fun f => { f with struck := f.struck ++ wrong.filter (fun x => !f.struck.contains x) })
      let seq := h.rn Reg.FWD_CHANGE_SEQ
      (h.onFwd (fun f => { f with recheck := h.mismatches.map (fun m => ⟨m.1, m.2.1, m.2.2, seq⟩) })).scrubEnd
    else h)

/-- Take a recheck out of the list. -/
def Hw.dropRecheck (h : Hw) (t i : Nat) (b : Bool) : Hw :=
  h.onFwd (fun f => { f with recheck := f.recheck.filter (fun x => !(x.table == t && x.index == i && x.pipeB == b)) })

/-- The shadow holds every change up to a number (R116). -/
def Hw.shadowReached (h : Hw) (seq : Nat) : Bool := decide ((h.rn Reg.FWD_SHADOW_SEQ + 2 ^ 32 - seq) % 2 ^ 32 < 2 ^ 31)

/-- SCRUB_RECHECK (R116): once the shadow has reached the recorded number the entry is compared again; a second mismatch is repaired
with the shadow's value. With `still` off a wrong value that a replica held reads right now. -/
def execScrubRecheck (table index : Nat) (pipeB still authFail : Bool) (s : State) : Res :=
  onHw s (fun h => match h.fwd.recheck.find? (fun x => x.table == table && x.index == index && x.pipeB == pipeB) with
    | none => h
    | some x =>
      if !h.shadowReached x.seq || h.repairFirst then h
      else
        let h := h.dropRecheck table index pipeB
        let h := if still then h else h.onFwd (fun f => { f with struck := f.struck.filter (fun y => y != (table, index, pipeB)) })
        let h :=
          if authFail then h.shadowAuthFail
          else if !h.differs pipeB table index then h
          else
            let h := h.post 1 0x0406 table index pipeB.toNat
            if h.logLost then h
            else (h.writeTable table index (h.fwd.shadow.val table index)).inc (Reg.FWD_SCRUB_REPAIR table)
        h.scrubEnd)

/-- SCRUB_DEFER (R116): the shadow did not catch up within 10 ms. -/
def execScrubDefer (table index : Nat) (pipeB : Bool) (s : State) : Res :=
  onHw s (fun h =>
    if h.fwd.recheck.any (fun x => x.table == table && x.index == index && x.pipeB == pipeB) then
      ((h.dropRecheck table index pipeB).inc Reg.FWD_SCRUB_DEFER).scrubEnd
    else h)

/-- SHADOW_REBUILD (R37, R116): firmware, while it runs, rebuilds the shadow from the table and clears LOG_LOST. -/
def execShadowRebuild (s : State) : Res :=
  onHw s (fun h =>
    if h.logLost && h.fwRuns then
      ((h.onFwd (fun f => { f with shadow := f.copy, changes := [] })).wn Reg.FWD_SHADOW_SEQ (h.rn Reg.FWD_CHANGE_SEQ)).setFld
        Reg.FWD_STATUS Fld.FWD_STATUS_LOG_LOST 0
    else h)

end Sys2Proof.Machine
end

