-- ==== Sys2Proof/Machine/Mac.lean ====
section
/-!
DEFINITION. The commands of the MACs and SerDes quads (chapter Ethernet ports): link state, 10BASE-T1S, Energy-efficient
Ethernet.
-/
namespace Sys2Proof.Machine

/-! ### Link state (R184) -/

/-- A frame in reception ends at a line loss with cause 5: it is counted there, whether or not it had been admitted, its octets are
counted, and nothing else of R185. -/
def Hw.cutRx (h : Hw) (mac : Nat) (rest : List Byte) : Hw :=
  match kvGet h.swc.rx mac with
  | none => h
  | some r =>
    let raw := r.raw ++ rest
    let h := (h.clrRx mac).addRxOctets mac raw.length
    match r.frame with
    | none => if r.counted then h else h.inc (Reg.SWC_TAIL_CAUSE 5)
    | some id =>
      let plain := match r.sec with
        | none => raw
        | some x => macsecHead x.cfg x.sa (secTagOf raw) x.pn raw
      h.endTail id plain none (some 5) 0

/-- The lane of a MAC shows signal detect; its equalizer has then converged, and has not without signal (R182). -/
def Hw.laneSignal (h : Hw) (mac : Nat) (on : Bool) : Hw :=
  if mac < 20 then
    (h.setFld (Reg.SQ_STATUS (mac / 4)) ⟨4 + mac % 4, 4 + mac % 4⟩ on.toNat).setFld (Reg.SQ_LANE_EQ (mac / 4) (mac % 4))
      Fld.SQ_LANE_EQ_ADAPT_DONE on.toNat
  else h

/-- The line of a MAC is lost: block lock, synchronisation or the PHY's link. -/
def Hw.lineLoss (h : Hw) (mac : Nat) (rest : List Byte) : Hw :=
  ((h.onMac (fun m => { m with lineGood := without m.lineGood mac })).laneSignal mac false).cutRx mac rest

/-- LINE_LOSS (R184): `rest` are the bytes received since the first cell of the frame in reception. A MAC in loopback sees its own
transmitter. -/
def execLineLoss (mac : Nat) (rest : List Byte) (s : State) : Res :=
  onHw s (fun h => if mac < 24 ∧ (kvGet h.mac.loopback mac).isNone then h.lineLoss mac rest else h)

/-- LINE_RESTORED (R184). -/
def execLineRestored (mac : Nat) (s : State) : Res :=
  onHw s (fun h => if mac < 24 then (h.onMac (fun m => { m with lineGood := insertNew m.lineGood mac })).laneSignal mac true else h)

/-- The octets of what a MAC has begun and will not end are counted like every byte sent (R185). -/
def Hw.countCut (h : Hw) (mac : Nat) : Hw :=
  (kvGetD h.swc.tx mac []).foldl (fun a t => match a.frame? t.frame with
    | some f => a.addTxOctets mac (a.sentBytes mac t f)
    | none => a) h

/-- Every copy granted to a MAC or being sent by it is abandoned (R67). -/
def Hw.abandonAll (h : Hw) (mac : Nat) : Hw :=
  let fs := h.swc.frames.filter (fun f => f.copies.any (fun c => c.egress == mac && c.st != CopyState.waiting))
  let h := (h.countCut mac).onSwc (fun s => { s with tx := kvDel s.tx mac })
  fs.foldl (fun a f => (a.abandon f mac).reap f.id) h

/-- The members reached through a cascade port. -/
def Hw.membersVia (h : Hw) (port : Nat) : List Nat :=
  if h.isCascade port then (List.range 4).filter (fun k => k != h.devIndex && h.pathTo k == port) else []

/-- Set or clear the MEMBERS_SEEN bits of members reached through a port. -/
def Hw.seeMembers (h : Hw) (port : Nat) (up : Bool) : Hw :=
  (h.membersVia port).foldl (fun a k =>
    if up && !a.sys.authed.testBit k then a
    else a.setFld Reg.GLB_TOPOLOGY ⟨12 + k, 12 + k⟩ (if up then 1 else 0)) h

/-- Record of a link transition (R184). -/
def Hw.linkRecord (h : Hw) (mac : Nat) : Hw :=
  h.post 1 0x0601 mac ((if h.linkUp mac then 1 else 0) + h.fld (Reg.MAC_STATUS mac) Fld.MAC_STATUS_RATE * 4)

/-- A MAC declares link-down: what it was sending or was granted is abandoned (R67), pauses waiting and received end (R56,
R510), preemption, PLCA and low-power idle end, and the bounds are computed again (R145). -/
def Hw.linkDown (h : Hw) (mac : Nat) : Hw :=
  if !h.linkUp mac then h
  else
    let old := h
    let h := h.abandonAll mac
    let h := (h.setFld (Reg.MAC_STATUS mac) Fld.MAC_STATUS_LINK_UP 0).setFld (Reg.MAC_STATUS mac) Fld.MAC_STATUS_RATE 0
    let h := (h.inc (Reg.MAC_LINK_DOWN mac)).linkRecord mac
    let h := h.fire [112 + mac]
    let h := h.onSwc (fun s => { s with pauseQ := kvDel s.pauseQ mac })
    let h := h.onTss (fun t => { t with
      pauseRx := t.pauseRx.filter (fun p => p.1 / 8 != mac), notice := kvDel t.notice mac })
    let h := h.onMac (fun m => { m with
      lpiExit := without m.lpiExit mac, backoff := without m.backoff mac, attempts := kvDel m.attempts mac,
      burst := kvDel m.burst mac })
    let h := (h.setFld (Reg.MAC_STATUS mac) Fld.MAC_STATUS_TX_LPI 0).setFld (Reg.MAC_STATUS mac) Fld.MAC_STATUS_RX_LPI 0
    let h := h.setFld (Reg.MAC_STATUS mac) Fld.MAC_STATUS_MACSEC_ACTIVE 0
    let h := if mac < 20 then h.setFld (Reg.TSS_PORT_CFG mac) Fld.TSS_PORT_CFG_PREEMPT_ACTIVE 0
      else h.setFld (Reg.MAC_PLCA_STATUS mac) Fld.MAC_PLCA_STATUS_ACTIVE 0
    Hw.rebound old (h.seeMembers mac false)

/-- LINK_DOWN (R184): the line stayed lost for LINK_DOWN_US. -/
def execLinkDown (mac : Nat) (s : State) : Res :=
  onHw s (fun h => if decide (mac < 24) && !h.mac.lineGood.contains mac then h.linkDown mac else h)

/-- MODE of a MAC. -/
def Hw.macMode (h : Hw) (mac : Nat) : Nat := h.fld (Reg.MAC_CFG mac) Fld.MAC_CFG_MODE

/-- The port rates of a mode, coded as MAC_STATUS.RATE (R178). -/
def modeRates (mode : Nat) : List Nat :=
  match mode with
  | 1 => [7] | 2 => [6] | 3 => [6, 5, 4, 3, 2] | 4 => [4] | 5 => [3, 2, 1] | 6 => [1] | _ => []

/-- The PLL that serves a MAC is locked (R181, R183). -/
def Hw.pllLocked (h : Hw) (mac : Nat) : Bool :=
  if 20 ≤ mac then true
  else if h.macMode mac ≤ 3 then h.flag (Reg.SQ_STATUS (mac / 4)) Fld.SQ_STATUS_PLLA_LOCK
  else h.flag (Reg.SQ_STATUS (mac / 4)) Fld.SQ_STATUS_PLLB_LOCK

/-- A lane of Q0 runs only with PLL A at the rate its mode takes (R181). -/
def Hw.pllFits (h : Hw) (mac mode : Nat) : Bool :=
  decide (4 ≤ mac) || h.fld (Reg.SQ_CFG 0) Fld.SQ_CFG_PLLA_RATE == (if mode = 1 then 1 else 0)

/-- The rate a link comes up at: negotiated in modes 3 and 5 with AN_EN, else MAC_CFG.RATE (R178). -/
def Hw.rateUp (h : Hw) (mac negotiated : Nat) : Nat :=
  if h.flag (Reg.MAC_CFG mac) Fld.MAC_CFG_AN_EN && (h.macMode mac == 3 || h.macMode mac == 5) then negotiated
  else h.fld (Reg.MAC_CFG mac) Fld.MAC_CFG_RATE

/-- A MAC declares link-up: held classes pause again (R56), preemption begins at once without verification (R127). -/
def Hw.linkUpAt (h : Hw) (mac rate : Nat) : Hw :=
  let old := h
  let h := (h.setFld (Reg.MAC_STATUS mac) Fld.MAC_STATUS_LINK_UP 1).setFld (Reg.MAC_STATUS mac) Fld.MAC_STATUS_RATE rate
  let h := h.linkRecord mac
  let c := h.rn (Reg.TSS_PORT_CFG mac)
  let h := if decide (mac < 20) && getF c Fld.TSS_PORT_CFG_PREEMPT_EN == 1 && getF c Fld.TSS_PORT_CFG_VERIFY_EN == 0
    then h.setFld (Reg.TSS_PORT_CFG mac) Fld.TSS_PORT_CFG_PREEMPT_ACTIVE 1 else h
  let h := if decide (20 ≤ mac) && h.flag (Reg.MAC_PLCA_CFG mac) Fld.MAC_PLCA_CFG_EN
      && h.fld (Reg.MAC_PLCA_CFG mac) Fld.MAC_PLCA_CFG_ID == 0
    then h.setFld (Reg.MAC_PLCA_STATUS mac) Fld.MAC_PLCA_STATUS_ACTIVE 1 else h
  let h := if h.macsecOn mac then h.setFld (Reg.MAC_STATUS mac) Fld.MAC_STATUS_MACSEC_ACTIVE 1 else h
  let h := ((List.range 8).filter (fun c => (kvGet h.swc.holdAt (mac * 8 + c)).isSome)).foldl (fun a c =>
    a.queuePause mac c 0xFFFF) h
  Hw.rebound old (h.seeMembers mac true)

/-- LINK_UP (R184): the line has been good for LINK_UP_MS; `rate` is what in-band negotiation gave. -/
def execLinkUp (mac rate : Nat) (s : State) : Res :=
  onHw s (fun h =>
    let r := h.rateUp mac rate
    if decide (mac < 24) && !h.linkUp mac && h.mac.lineGood.contains mac && h.pllLocked mac && h.pllFits mac (h.macMode mac)
        && h.flag (Reg.MAC_STATUS mac) Fld.MAC_STATUS_READY && h.flag (Reg.MAC_CFG mac) Fld.MAC_CFG_EN
        && (modeRates (h.macMode mac)).contains r then h.linkUpAt mac r
    else h)

/-- The MACs of a quad whose lane runs from a PLL: 0 PLL A, 1 PLL B (R181). -/
def Hw.pllLanes (h : Hw) (quad pll : Nat) : List Nat :=
  ((List.range 4).map (quad * 4 + ·)).filter (fun m =>
    h.flag (Reg.MAC_CFG m) Fld.MAC_CFG_EN &&
    (if pll = 0 then decide (1 ≤ h.macMode m) && decide (h.macMode m ≤ 3) else h.macMode m == 4 || h.macMode m == 5))

/-- SQ_PLL_UNLOCK (R183): counted and reported; every lane the PLL serves goes to link-down at once. -/
def execSqPllUnlock (quad pll : Nat) (s : State) : Res :=
  onHw s (fun h =>
    let f := if pll = 0 then Fld.SQ_STATUS_PLLA_LOCK else Fld.SQ_STATUS_PLLB_LOCK
    if 5 ≤ quad ∨ 2 ≤ pll ∨ h.flag (Reg.SQ_STATUS quad) f = false then h
    else
      let lanes := h.pllLanes quad pll
      let h := ((h.setFld (Reg.SQ_STATUS quad) f 0).inc (Reg.SQ_PLL_UNLOCK quad)).post 1 0x0602 quad pll
      let h := lanes.foldl (fun a m => (a.lineLoss m []).linkDown m) h
      if lanes.isEmpty then h else h.clrReady (Reg.SQ_STATUS quad) Fld.SQ_STATUS_READY (56 + quad))

/-! ### 10BASE-T1S (R186 to R188) -/

/-- A frame of some class waits at the egress and only the gate list keeps it back. -/
def Hw.gateBlocked (h : Hw) (e : Nat) : Bool :=
  (List.range 8).any (fun c => match h.oldest e c with
    | some f => !h.fits e c (h.chargeLen f e)
    | none => false)

/-- A further frame may go in the opportunity under way: fewer than BURST_COUNT have gone after the first, and the last one ended no more
than BURST_TIMER bit times ago (R186). -/
def Hw.burstLeft (h : Hw) (mac : Nat) : Bool :=
  let c := h.rn (Reg.MAC_PLCA_CFG mac)
  match kvGet h.mac.burst mac with
  | some b => decide (b.1 ≤ getF c Fld.MAC_PLCA_CFG_BURST_COUNT) && decide (h.clk ≤ b.2 + h.fld (Reg.MAC_PLCA_LIMIT mac) Fld.MAC_PLCA_LIMIT_BURST_TIMER * 50)
  | none => false

/-- An opportunity begins, or goes on with `more`: a new one of the coordinator begins a cycle, with its beacon (R186). -/
def Hw.opportunity (h : Hw) (mac : Nat) (more : Bool) : Hw :=
  if more then h
  else
    let h := if h.fld (Reg.MAC_PLCA_CFG mac) Fld.MAC_PLCA_CFG_ID = 0 then h.emit (.plcaBeacon mac) else h
    h.onMac (fun m => { m with burst := kvPut m.burst mac (0, h.clk) })

/-- The frame of an opportunity starts, and counts toward its burst. -/
def Hw.burstStart (h : Hw) (mac : Nat) : Hw :=
  let x := h.txStart mac
  if x.txBusy mac then x.onMac (fun m => { m with burst := kvMod m.burst mac (0, h.clk) (fun b => (b.1 + 1, b.2)) }) else x

/-- PLCA_OPPORTUNITY (R186, R187): at a transmit opportunity the port selects and starts a frame, or yields when its gate keeps the
frame back; `more` asks for a further frame in the opportunity under way. -/
def execPlcaOpportunity : Nat × Bool → State → Res
  | (mac, more), s => onHw s (fun h =>
    if !h.plca mac || h.txBusy mac || (more && !h.burstLeft mac) then h
    else
      let h := h.opportunity mac more
      match h.grantedAt mac with
      | some f => if h.fits mac f.cls (h.chargeLen f mac) then h.burstStart mac else h.inc (Reg.MAC_PLCA_YIELD mac)
      | none =>
        match h.select mac with
        | some x =>
          if h.slotsUsed x.2.1.ingress < 2 then (h.grant ⟨mac, x.1, x.2.1, x.2.2⟩).burstStart mac else h
        | none => if h.gateBlocked mac then h.inc (Reg.MAC_PLCA_YIELD mac) else h.txStart mac)

/-- A MAC of a mixing segment with PLCA configured and its link up. -/
def Hw.plcaPort (h : Hw) (mac : Nat) : Bool :=
  decide (20 ≤ mac) && decide (mac < 24) && h.linkUp mac && h.flag (Reg.MAC_PLCA_CFG mac) Fld.MAC_PLCA_CFG_EN

/-- PLCA_BEACON_LOSS (R187): no beacon for 4 × NODE_COUNT × TO_TIMER bit times. -/
def execPlcaBeaconLoss (mac : Nat) (s : State) : Res :=
  onHw s (fun h =>
    if h.plcaPort mac && h.fld (Reg.MAC_PLCA_CFG mac) Fld.MAC_PLCA_CFG_ID != 0
        && h.flag (Reg.MAC_PLCA_STATUS mac) Fld.MAC_PLCA_STATUS_ACTIVE then
      Hw.rebound h ((h.setFld (Reg.MAC_PLCA_STATUS mac) Fld.MAC_PLCA_STATUS_ACTIVE 0).post 1 0x0603 mac)
    else h)

/-- PLCA_BEACON_HEARD (R187). -/
def execPlcaBeaconHeard (mac : Nat) (s : State) : Res :=
  onHw s (fun h =>
    if h.plcaPort mac && !h.flag (Reg.MAC_PLCA_STATUS mac) Fld.MAC_PLCA_STATUS_ACTIVE then
      Hw.rebound h (h.setFld (Reg.MAC_PLCA_STATUS mac) Fld.MAC_PLCA_STATUS_ACTIVE 1)
    else h)

/-- T1S_COLLISION (R188): the frame is tried again after a backoff, or abandoned after 16 attempts; what it sent counts as octets. -/
def execT1sCollision (mac : Nat) (s : State) : Res :=
  onHw s (fun h =>
    if mac < 20 ∨ 24 ≤ mac then h
    else match kvGetD h.swc.tx mac [] with
      | [] => h
      | t :: _ =>
        let n := (if h.retrying mac t.frame then (kvGetD h.mac.attempts mac (0, 0)).2 else 0) + 1
        let h := (((h.inc (Reg.MAC_COLLISIONS mac)).countCut mac)).onSwc (fun s => { s with tx := kvDel s.tx mac })
        match h.frame? t.frame with
        | none => h
        | some f =>
          if 16 ≤ n then
            let h := h.onMac (fun m => { m with attempts := kvDel m.attempts mac, backoff := without m.backoff mac })
            ((h.inc (Reg.MAC_TX_EXCESS_COLL mac)).abandon f mac).reap f.id
          else
            (h.setCopy f.id mac .granted).onMac (fun m => { m with
              attempts := kvPut m.attempts mac (f.id, n), backoff := insertNew m.backoff mac }))

/-- T1S_BACKOFF_EXPIRE (R188): the retry starts; under PLCA it waits for the port's next opportunity. -/
def execT1sBackoffExpire (mac : Nat) (s : State) : Res :=
  onHw s (fun h =>
    if h.mac.backoff.contains mac then
      let h := h.onMac (fun m => { m with backoff := without m.backoff mac })
      if h.plca mac then h else h.txStart mac
    else h)

/-! ### Energy-efficient Ethernet (R192) -/

/-- A copy of some frame is at the egress. -/
def Hw.hasCopies (h : Hw) (e : Nat) : Bool := h.swc.frames.any (fun f => f.copies.any (fun c => c.egress == e))

/-- EEE_LPI_ENTER (R192): every class of the port has been empty for IDLE_US. -/
def execEeeLpiEnter (mac : Nat) (s : State) : Res :=
  onHw s (fun h =>
    if decide (mac < 20) && h.linkUp mac && h.flag (Reg.MAC_EEE_CFG mac) Fld.MAC_EEE_CFG_EN && !h.lpi mac
        && !h.hasCopies mac && (kvGetD h.swc.pauseQ mac []).isEmpty then
      (h.setFld (Reg.MAC_STATUS mac) Fld.MAC_STATUS_TX_LPI 1).inc (Reg.MAC_TX_LPI_ENTRIES mac)
    else h)

/-- A reason to leave low-power idle: a class eligible, a frame granted, a pause queued, an express notice. -/
def Hw.wakeReason (h : Hw) (mac : Nat) : Bool :=
  (List.range 8).any (fun c => (h.eligible mac c).isSome) || (h.grantedAt mac).isSome
    || !(kvGetD h.swc.pauseQ mac []).isEmpty || !(kvGetD h.tss.notice mac []).isEmpty

/-- EEE_LPI_EXIT (R192). -/
def execEeeLpiExit (mac : Nat) (s : State) : Res :=
  onHw s (fun h =>
    if decide (mac < 20) && h.flag (Reg.MAC_STATUS mac) Fld.MAC_STATUS_TX_LPI && h.wakeReason mac then
      (h.setFld (Reg.MAC_STATUS mac) Fld.MAC_STATUS_TX_LPI 0).onMac (fun m => { m with lpiExit := insertNew m.lpiExit mac })
    else h)

/-- A frame that the wake of a MAC has delayed: it may be sent, and nothing else has kept it back. -/
def Hw.wakeDelayed (h : Hw) (mac : Nat) (f : Frame) : Bool :=
  h.requestable f mac && h.permitted mac f && h.cbsOk mac f.cls && h.shaperOk mac f.cls (h.chargeLen f mac) &&
    f.copies.any (fun c => c.egress == mac && (c.st == CopyState.waiting || c.st == CopyState.granted))

/-- EEE_WAKE_DONE (R192): TW_US after the exit began; the frames it delayed are counted, and pauses go. -/
def execEeeWakeDone (mac : Nat) (s : State) : Res :=
  onHw s (fun h =>
    if h.mac.lpiExit.contains mac then
      let n := (h.swc.frames.filter (h.wakeDelayed mac)).length
      let h := (h.onMac (fun m => { m with lpiExit := without m.lpiExit mac })).add (Reg.MAC_LPI_WAKE_DELAYED mac) n
      (h.sendPauses mac).txStart mac
    else h)

/-- PARTNER_LPI_CHANGE (R192). -/
def execPartnerLpiChange (mac : Nat) (on : Bool) (s : State) : Res :=
  onHw s (fun h =>
    if decide (mac < 20) && h.linkUp mac && h.flag (Reg.MAC_STATUS mac) Fld.MAC_STATUS_RX_LPI != on then
      let h := h.setFld (Reg.MAC_STATUS mac) Fld.MAC_STATUS_RX_LPI (if on then 1 else 0)
      if on then h.inc (Reg.MAC_RX_LPI_ENTRIES mac) else h
    else h)

end Sys2Proof.Machine
end

