-- ==== Sys2Proof/Machine/Verify.lean ====
section
/-!
DEFINITION. The verification of images and proofs (R364, R365, R377, R378).
-/
namespace Sys2Proof.Machine

/-- SHA-384 as a number. -/
def hash48 (l : List Byte) : Nat := (sha384 l).toNat

/-- Images boot in this lifecycle state (R364). -/
def Fuse.boots (fu : Fuse) : Bool := decide (1 ≤ fu.life) && decide (fu.life ≤ 4)

/-- The OEM key must countersign in this lifecycle state (R364). -/
def Fuse.needsOem (fu : Fuse) : Bool := fu.life == 2 || fu.life == 3

/-- A copy is verified as an image of a type: 1 S-image, 2 C-image, 3 Early Set (R377). -/
def Fuse.verified (fu : Fuse) (type : Nat) (c : ImageCopy) : Bool :=
  let d := sha384 (c.block ++ c.bytes)
  let oemKnown := hash48 c.oemKey == fu.oemImg
  fu.boots && c.magic == 0x5A545355 && c.type == type && c.length == c.bytes.length && c.block.length == 64 &&
  hash48 c.vendorKey == fu.vendor && ecdsaP384 c.vendorKey d c.vendorSig &&
  (if fu.needsOem then oemKnown && ecdsaP384 c.oemKey d c.oemSig else c.oemKey.isEmpty || oemKnown) &&
  decide (fu.svn.getD (type - 1) 0 ≤ c.svn)

/-- A proof by a key whose hash is fused: an ECDSA P-384 signature over SHA-384 of a message (R365, R395). -/
def provedBy (keyHash : Nat) (key sig msg : List Byte) : Bool :=
  hash48 key == keyHash && ecdsaP384 key (sha384 msg) sig

end Sys2Proof.Machine
end

