-- ==== Sys2Proof/Machine/GcsSys.lean ====
section
/-!
DEFINITION. The SYS commands (R353): handshake, versions, flash, reset, Early Set, event routes, cascade. And the cascade control
messages a member receives (R109, R462).
-/
namespace Sys2Proof.Machine

/-! ### Versions -/

/-- SYS_HELLO (R337). -/
def Hw.gcsHello (h : Hw) (o : Nat) (s : Slot) : Gcs :=
  let major := bits (s.w 0) 31 16
  let minor := min (bits (s.w 0) 15 0) 2
  if major = 3 then
    let r := Reg.MBX_OWNER_STATUS o
    .ok ((h.setFld r Fld.MBX_OWNER_STATUS_NEGOTIATED 1).setFld r Fld.MBX_OWNER_STATUS_GCS_MINOR minor) [3 * 2 ^ 16 + minor]
  else .no cVersion 0 [0x00030002] h

/-- SYS_HELLO (R337). -/
def execSysHello (owner slot : Nat) (s : State) : Res :=
  onHw s (fun h => h.gcsRun owner slot 0x0101 noDeadlock (h.gcsHello owner))

/-- SYS_INFO (R353). -/
def execSysInfo (owner slot : Nat) (s : State) : Res :=
  onHw s (fun h => h.gcsRun owner slot 0x0102 noDeadlock (fun _ =>
    h.tell [0x00030002, h.rn Reg.MBX_C_VERSION, h.rn Reg.MBX_S_VERSION, h.rn Reg.MBX_EPOCHS, h.rn Reg.GLB_ID,
      h.own.active.length, 512]))

/-- An image descriptor (R338) in six words (DESIGN CHOICE, log entry 22). -/
def descriptorWords : Option ImageCopy → List Nat
  | none => [0, 0, 0, 0, 0, 0]
  | some c =>
    let st := bytesOf' c.steppings
    let pe (i : Nat) : Nat := c.peers.getD i 0 % 65536
    [c.version % 2 ^ 32, 2 ^ 31 + c.peers.length % 16 * 2 ^ 20 + c.steppings.length % 16 * 2 ^ 16 + c.epoch % 65536,
     st 0, st 4, pe 0 + pe 1 * 65536, pe 2 + pe 3 * 65536]
where
  /-- Four byte values from index `i` as a word. -/
  bytesOf' (l : List Nat) (i : Nat) : Nat :=
    l.getD i 0 % 256 + l.getD (i + 1) 0 % 256 * 256 + l.getD (i + 2) 0 % 256 * 65536 + l.getD (i + 3) 0 % 256 * 2 ^ 24

/-- SYS_BOOT_REPORT (R339, R353). -/
def execSysBootReport (owner slot : Nat) (s : State) : Res :=
  onHw s (fun h => h.gcsRun owner slot 0x0103 noDeadlock (fun _ =>
    h.tell (h.rn Reg.MBX_BOOT_REPORT :: (List.range 4).flatMap (fun i => descriptorWords (h.sys.copies.getD i none)))))

/-! ### Partial commands (R350) -/

/-- Commit elements one by one until one fails: how many were committed, why the next was not. -/
def runElements {α : Type} (viol : Hw → List Nat) (step : Hw → Nat → α → Option (Nat × Nat) × Hw) :
    List α → Nat → Hw → Nat × Option (Nat × Nat) × Hw
  | [], n, h => (n, none, h)
  | x :: xs, n, h =>
    match step h n x with
    | (some r, h') => (n, some r, h')
    | (none, h') =>
      match Hw.judgeNew h h' viol with
      | some r => (n, some r, h)
      | none => runElements viol step xs (n + 1) (Hw.settleBounds h h')

/-- The answer of a partial command: response word 0 gives the elements committed. -/
def partialAnswer (r : Nat × Option (Nat × Nat) × Hw) : Gcs :=
  match r.2.1 with
  | some (c, d) => .no c d [r.1] r.2.2
  | none => .ok r.2.2 [r.1]

/-- A refusal of a partial command before its first element answers that none was committed. -/
def noElements : Gcs → Gcs
  | .no c d [] h => .no c d [0] h
  | g => g

/-- Size of the flash (R430). -/
def flashBytes : Nat := 2 ^ 28

/-- SYS_FLASH_ERASE (R350, R430): 4 KiB sectors, each by its address. -/
def execSysFlashErase (owner slot : Nat) (s : State) : Res :=
  onHw s (fun h => h.gcsRun owner slot 0x0104 noDeadlock (fun q =>
    let n := q.w 0
    noElements (h.vet [badAt (n = 0 || q.payload.length != n + 1) 0]
      (partialAnswer (runElements noDeadlock (fun a i x =>
        if x % 4096 ≠ 0 ∨ flashBytes ≤ x then (some (cBadParam, 4 * (i + 1)), a)
        else (none, a.emit (.flash x (List.replicate 4096 255)))) (q.payload.drop 1) 0 h)))))

/-- SYS_FLASH_WRITE (R350, R430): 256-byte pages from the host buffer, from an address on. -/
def execSysFlashWrite (owner slot : Nat) (s : State) : Res :=
  onHw s (fun h => h.gcsRun owner slot 0x0105 noDeadlock (fun q =>
    let at_ := q.w 0
    let len := q.w 3
    noElements (h.vet [badAt (at_ % 256 != 0 || decide (flashBytes ≤ at_)) 0, badAt (len = 0 || len % 256 != 0) 12]
      (partialAnswer (runElements noDeadlock (fun a _ p =>
        if flashBytes ≤ at_ + 256 * p then (some (cBadParam, 12), a)
        else (none, a.emit (.flash (at_ + 256 * p) (sub q.buf (256 * p) 256)))) (List.range (len / 256)) 0 h)))))

/-! ### Reset, Early Set, event routes -/

/-- SYS_RESET (R353): the device resets 1 ms after the completion is posted. -/
def execSysReset (owner slot : Nat) (s : State) : Res :=
  onHw s (fun h => h.gcsRun owner slot 0x0106 noDeadlock (fun _ => .ok { h with sys := { h.sys with resetReq := some h.clk } } []))

/-- SYS_EARLY_READ (R353): the copy of the Early Set in force into a host buffer. -/
def execSysEarlyRead (owner slot : Nat) (s : State) : Res :=
  onHw s (fun h => h.gcsRun owner slot 0x0107 noDeadlock (fun q =>
    match h.sys.early with
    | none => h.refuse cNoObject 0
    | some e => h.answerBuffer owner (q.w64 1) (q.w 3) (wordsOf ((e.copy.bytes.length + 3) / 4) (e.copy.bytes ++ [0, 0, 0]))))

/-- SYS_EARLY_WRITE (R353): `copy` is what the host buffer holds; an Early Set that does not verify is not staged. Where the directory
puts it is a free value. -/
def execSysEarlyWrite (owner slot : Nat) (copy : ImageCopy) (s : State) : Res :=
  onHw s (fun h => h.gcsRun owner slot 0x0108 noDeadlock (fun _ =>
    if s.fuse.verified 3 copy then .ok (h.drawn.emit (.flash (h.draw % flashBytes) (copy.block ++ copy.bytes))) []
    else h.refuse cAuth 0))

/-- SYS_EVF_ROUTE (R468): word 0 the task, words 1 to 8 its source mask, word 9 its EVF_TASK_CFG image. -/
def execSysEvfRoute (owner slot : Nat) (s : State) : Res :=
  onHw s (fun h => h.gcsRun owner slot 0x0109 noDeadlock (fun q =>
    let t := q.w 0
    let mask := (List.range 8).map (fun i => q.w (1 + i))
    let others := decide (t < 4) && (decide (65536 ≤ mask.getD 0 0) || (mask.drop 1).any (fun x => x != 0))
    let cfgMask := 2 ^ Fld.EVF_TASK_CFG_RECORD.lo ||| (511 * 2 ^ Fld.EVF_TASK_CFG_OWNER.lo)
    h.vet [badAt (decide (104 ≤ t)) 0, badAt others 4, q.reserved ([127] ++ List.replicate 8 0xFFFFFFFF ++ [cfgMask])]
      (.ok (let x := h.images ((mask.mapIdx (fun i v => (i, v))).map (fun p => (Reg.EVF_ROUTE t p.1, 0xFFFFFFFF, p.2)))
            if q.payload.length = 10 then x.cfg (Reg.EVF_TASK_CFG t) cfgMask (q.w 9) else x) [])))

/-! ### The cascade -/

/-- A port becomes or ceases to be a cascade link, in its configuration and in GLB_TOPOLOGY. -/
def Hw.setCascade (h : Hw) (p : Nat) (on : Bool) : Hw :=
  (h.setFld (Reg.FWD_PORT_CFG p) Fld.FWD_PORT_CFG_CASCADE on.toNat).setFld Reg.GLB_TOPOLOGY ⟨8 + p, 8 + p⟩ on.toNat

/-- SYS_CASCADE_FORM (R32, R33, R108, R462): word 0 device index, size and ports as in GLB_TOPOLOGY; words 1 + 2k and 2 + 2k the MAC
of member k; word 9 + i the member (1:0) and port (12:8) at the far end of link i, bit 31 valid. `auth` is the outcome of the members'
authentication. -/
def execSysCascadeForm (owner slot : Nat) (auth : Bool) (s : State) : Res :=
  onHw s (fun h => h.gcsRun owner slot 0x010A Hw.deadlocks (fun q =>
    let w := q.w 0
    let idx := bits w 1 0
    let size := bits w 5 4
    let links := (List.range 4).filter (fun p => bit w (8 + p))
    let members := (List.range 4).filter (fun k => decide (k ≤ size) && k != idx)
    h.vet ([h.denyAny owner (links.map (fun p => (1, p))),
        q.reserved ([0xF33] ++ (List.replicate 4 [0xFFFFFFFF, 0xFFFF]).flatten ++ List.replicate 4 0x80001F03),
        badAt (decide (size < idx)) 0] ++
        links.map (fun p => badAt (!h.macsecOn p) 1) ++
        links.map (fun p => badState (h.fld (Reg.MAC_CFG p) Fld.MAC_CFG_MODE != 1) 1 p) ++ [(!auth, cAuth, 0)])
      (.ok (
        let x := ((h.setFld Reg.GLB_TOPOLOGY Fld.GLB_TOPOLOGY_DEV_INDEX idx).setFld Reg.GLB_TOPOLOGY Fld.GLB_TOPOLOGY_CASCADE_SIZE size)
        let x := (List.range 4).foldl (fun a p => a.setCascade p (links.contains p)) x
        let macs := (idx :: members).map (fun k => (k, [q.w64 (1 + 2 * k)]))
        let ends := links.filterMap (fun p =>
          if bit (q.w (9 + p)) 31 then some (16 + p, [bits (q.w (9 + p)) 1 0, bits (q.w (9 + p)) 12 8]) else none)
        let x := { x with sys := { x.sys with
          peers := (macs ++ ends).foldl (fun (m : Kv (List Nat)) (e : Nat × List Nat) => kvPut m e.1 e.2) [], authed := maskOf members, edges := [] } }
        let x := x.setFld Reg.GLB_TOPOLOGY Fld.GLB_TOPOLOGY_MEMBERS_SEEN 0
        let x := links.foldl (fun a p => if a.linkUp p then a.seeMembers p true else a) x
        members.foldl (fun a k => a.emit (.cpu 14874 (toBe 1 k))) x) [])))

/-- SYS_CASCADE_RESYNC (R109): a member is asked to send its LEARN state again. -/
def execSysCascadeResync (owner slot : Nat) (s : State) : Res :=
  onHw s (fun h => h.gcsRun owner slot 0x010B noDeadlock (fun q =>
    let k := q.w 0
    h.vet [q.reserved [3], (!h.sys.authed.testBit k, cNoObject, 0)] (.ok (h.emit (.cpu 14874 (toBe 1 k))) [])))

/-- SYS_CASCADE_STATUS (R353): members and links, paths, learning sequence numbers sent and awaited. -/
def execSysCascadeStatus (owner slot : Nat) (s : State) : Res :=
  onHw s (fun h => h.gcsRun owner slot 0x010C noDeadlock (fun _ =>
    h.tell ([h.rn Reg.GLB_TOPOLOGY] ++ (List.range 4).map (fun k => h.rn (Reg.FWD_CASCADE_PATH k)) ++ [h.fwd.txSeq] ++
      (List.range 4).map (fun k => kvGetD h.fwd.rxSeq k 0))))

/-- Send this device's LEARN state again: every learned station on its own ports (R109). -/
def Hw.resendLearn (h : Hw) : Hw :=
  (h.fwd.em.filter (fun e => !e.2.static && e.2.type == 0 && e.2.group.isNone && !h.isCascade e.2.port)).foldl (fun a x =>
    match kvGet a.fwd.recent x.2.key with
    | some r => a.tellCascade 1 r.movable x.2.key x.2.port r.time
    | none => (a.tellCascade 1 false x.2.key x.2.port a.draw).drawn) h

/-- CASCADE_CONTROL_RECEIVE (R109, R462): from a member over a cascade link; kind 0 asks for the LEARN state again, 1 brings the
member's back-pressure edges, 2 says that the member was authenticated, 3 that it was reset. The control firmware reads it (R36). -/
def execCascadeControlReceive (port member kind : Nat) (edges : List (Nat × Nat)) (s : State) : Res :=
  onHw s (fun h =>
    if !h.fwRuns ∨ 4 ≤ member ∨ member = h.devIndex ∨ !h.isCascade port ∨ !h.linkUp port ∨ !h.inCascade then h
    else
      let put (e : Kv (List (Nat × Nat))) (a : Nat) : Hw := { h with sys := { h.sys with edges := e, authed := a } }
      if kind = 2 then (put h.sys.edges (h.sys.authed ||| 2 ^ member)).seeMembers port true
      else if !h.sys.authed.testBit member then h
      else match kind with
        | 0 => h.resendLearn
        | 1 => put (kvPut h.sys.edges member (edges.filter (fun (e : Nat × Nat) => decide (e.1 < 2048) && decide (e.2 < 2048)))) h.sys.authed
        | 3 => put (kvDel h.sys.edges member) h.sys.authed
        | _ => h)

end Sys2Proof.Machine
end

