-- ==== Sys2Proof/Machine/GcsFwd.lean ====
section
/-!
DEFINITION. The FWD commands (R78, R80 to R93, R100, R106, R110 to R113, R353, R356).
-/
namespace Sys2Proof.Machine

/-! ### Exact-match entries -/

/-- The entry seven payload words spell (R356), stamped with an age. -/
def emOfPayload (age : Nat) (ws : List Nat) : EmEntry :=
  let w (k : Nat) : Nat := ws.getD k 0
  let opt (v : Bool) (n : Nat) : Option Nat := if v then some n else none
  ⟨true, bits (w 0) 3 0, keyWords (w 1) (w 2) (w 3), age, bits (w 4) 4 0, opt (bit (w 4) 8) (bits (w 4) 27 16), bits (w 5) 11 0,
    opt (bit (w 5) 22) (bits (w 5) 21 16), opt (bit (w 6) 7) (bits (w 6) 6 0), opt (bit (w 6) 11) (bits (w 6) 10 8),
    opt (bit (w 6) 25) (bits (w 6) 24 16)⟩

/-- The words of an entry in the same layout, without flags. -/
def emToPayload (e : EmEntry) : List Nat :=
  let opt (n : Option Nat) (valid : Nat) : Nat := match n with | some v => valid + v | none => 0
  [e.type, e.key % 2 ^ 32, e.key / 2 ^ 32 % 2 ^ 32, e.key / 2 ^ 64,
   (match e.group with | some g => g * 65536 + 256 | none => 0) + e.port, opt e.vie 64 * 65536 + e.stream,
   opt e.owner 512 * 65536 + opt e.cls 8 * 256 + opt e.quota 128]

/-- The masks of the payload words of FWD_EM_ADD. -/
def emMasks : List Nat := [0x10F, 0xFFFFFFFF, 0xFFFFFFFF, 15, 0x0FFF011F, 0x007F0FFF, 0x03FF0FFF]

/-- What an entry stands for, as a resource word: its stream handle, or its port. -/
def emRes (e : EmEntry) : Nat := if e.type = 0 then resWord 1 e.port else resWord 2 e.stream

/-- The ports of a mask as resources. -/
def portsOf (m : Nat) : List (Nat × Nat) := (bitsOf 32 m).map (fun p => (1, p))

/-- The resources an entry's destination names: its port, or the ports of its group (log entry 156). -/
def Hw.emDest (h : Hw) (e : EmEntry) : List (Nat × Nat) :=
  match e.group with
  | some g => portsOf (h.groupMask g)
  | none => if e.type = 0 then [(1, e.port)] else []

/-- The resources a command on an entry names: its stream handle, or its destination. An entry that names none is owner 1's
(R19). -/
def Hw.emNamed (h : Hw) (e : EmEntry) : List (Nat × Nat) := if e.type = 0 then h.emDest e else [(2, e.stream)]

/-- The check that an entry is within the issuer's policy, with further resources. -/
def Hw.denyEntry (h : Hw) (o : Nat) (e : EmEntry) (more : List (Nat × Nat)) : Check :=
  if (h.emNamed e).isEmpty then only1 o else h.denyAny o (h.emNamed e ++ more)

/-- The check that an entry may be read: one of its resources may, or the issuer is owner 1 where it names none (R19). -/
def Hw.denyLook (h : Hw) (o : Nat) (e : EmEntry) : Check :=
  (o != 1 && !(h.emNamed e).any (fun r => h.mayRead o r.1 r.2), cDenied, emRes e)

/-- The checks of FWD_EM_ADD (R86, R356) on seven words. -/
def Hw.emChecks (h : Hw) (o : Nat) (ws : List Nat) : List Check :=
  let e := emOfPayload 0 ws
  let named := (if e.type = 0 then [] else h.emDest e) ++ (e.vie.map (fun v => (3, v))).toList ++ (e.quota.map (fun v => (20, v))).toList
  let old := h.emAt e.type e.key
  let rated := if e.type = 0 then none else h.ratedBy e.stream
  [h.denyEntry o e named, (match e.owner with | some x => denyOwner o x | none => (false, 0, 0)), reservedIn ws emMasks,
   badAt (decide (3 < e.type)) 0, badAt (e.key / (if e.type = 3 then 2 ^ 64 else 2 ^ 60) != 0) 11,
   (match e.owner with | some x => (!h.alive x, cNoObject, x) | none => (false, 0, 0)),
   (match old with | some x => (x.2.static && !bit (ws.getD 0 0) 8, cConflict, emRes x.2) | none => (false, 0, 0)),
   conflict rated.isSome 16 (rated.getD 0 / 256)]
where
  /-- Only owner 1 names another buffer owner (R356). -/
  denyOwner (o x : Nat) : Check := (o != 1 && x != o, cDenied, 0)

/-- A position as response word 0 of FWD_EM_ADD gives it. -/
def posWord (p : Nat) : Nat :=
  if stashBase ≤ p then 2 ^ 31 + (p - stashBase) else p / 131072 * 2 ^ 30 + p % 4 * 2 ^ 28 + p % 131072 / 4

/-- The position a word of that form names. -/
def posOfWord (w : Nat) : Nat := if bit w 31 then stashBase + bits w 14 0 else wayPos (bits w 30 30) (bits w 14 0) (bits w 29 28)

/-- Firmware writes an entry: in place where its key is held, else inserted as R89 says. Whether a victim was evicted; none when every
candidate is static (R93). -/
def Hw.emPut (h : Hw) (e : EmEntry) : Option Bool × Hw :=
  match h.emAt e.type e.key with
  | some x => (some false, h.emWrite none [(x.1, some e)])
  | none =>
    let n := h.rn Reg.FWD_EVICT
    let r := h.insertEntry none e
    if r.1 then (some (r.2.rn Reg.FWD_EVICT != n), r.2) else (none, r.2)

/-- An insertion found no room (R93). -/
def Hw.insertFailed (h : Hw) (e : EmEntry) : Hw :=
  let w := macVidWords e.key
  (h.inc Reg.FWD_INSERT_FAIL).post 1 0x0402 e.port w.1 w.2

/-- One element: an entry checked, judged and written. A table without room refuses it after the bounds (R346). -/
def Hw.emAdd (h : Hw) (o : Nat) (ws : List Nat) : Gcs :=
  let e := emOfPayload h.ageNow ws
  h.vet (h.emChecks o ws) (
    match h.emPut e with
    | (some evicted, x) => .ok x [((x.emAt e.type e.key).map (fun p => posWord p.1)).getD 0, evicted.toNat]
    | (none, x) =>
      match Hw.judgeNew h (h.onFwd (fun f => { f with em := f.em ++ [(2 * stashBase, e)] })) Hw.deadlocks with
      | some (c, d) => h.refuse c d
      | none => .no cTableFull 0 [] (x.insertFailed e))

/-- FWD_EM_ADD (R93, R356). -/
def execFwdEmAdd (owner slot : Nat) (s : State) : Res :=
  onHw s (fun h => h.gcsRun owner slot 0x0401 Hw.deadlocks (fun q => h.emAdd owner q.payload))

/-- FWD_EM_DEL: an entry by TYPE and KEY. -/
def execFwdEmDel (owner slot : Nat) (s : State) : Res :=
  onHw s (fun h => h.gcsRun owner slot 0x0402 noDeadlock (fun q =>
    let t := q.w 0 % 16
    match h.emAt t (keyWords (q.w 1) (q.w 2) (q.w 3)) with
    | none => h.vet [q.reserved [15, 0xFFFFFFFF, 0xFFFFFFFF, 15], badAt (decide (3 < t)) 0] (h.refuse cNoObject 0)
    | some x =>
      h.vet [h.denyEntry owner x.2 [],
          q.reserved [15, 0xFFFFFFFF, 0xFFFFFFFF, 15]] (.ok (h.emRemove none [x.1]) [])))

/-- FWD_EM_ADD_BULK (R350): word 0 the number of entries, words 1 to 3 the host buffer, seven words for each entry. -/
def execFwdEmAddBulk (owner slot : Nat) (s : State) : Res :=
  onHw s (fun h => h.gcsRun owner slot 0x0403 Hw.deadlocks (fun q =>
    let n := q.w 0
    let ws := q.bufWords (7 * n)
    noElements (h.vet [q.reserved [0x7FF], badAt (n = 0 || decide (1024 < n)) 0, badAt (q.w 3 != 28 * n) 12]
      (partialAnswer (runElements Hw.deadlocks (fun a i (_ : Nat) =>
        match a.emAdd owner ((ws.drop (7 * i)).take 7) with
        | .ok x _ => (none, x)
        | .wait x => (none, x)
        | .no c d _ x => (some (c, if c = cBadParam then 28 * i + d else d), x)) (List.range n) 0 h)))))

/-- FWD_EM_READ: word 0 bit 31 by the position in word 1, else TYPE with KEY in words 1 to 3. The answer is the position, the words of
the entry (bit 8 of the first STATIC) and AGE. -/
def execFwdEmRead (owner slot : Nat) (s : State) : Res :=
  onHw s (fun h => h.gcsRun owner slot 0x0404 noDeadlock (fun q =>
    let x := if bit (q.w 0) 31 then (kvGet h.fwd.em (posOfWord (q.w 1))).map (fun e => (posOfWord (q.w 1), e))
      else h.emAt (q.w 0 % 16) (keyWords (q.w 1) (q.w 2) (q.w 3))
    match x with
    | none => h.vet [q.reserved [0x8000000F]] (h.refuse cNoObject 0)
    | some (p, e) =>
      h.vet [h.denyLook owner e, q.reserved [0x8000000F]]
        (h.tell (posWord p :: ((emToPayload e).set 0 (e.static.toNat * 256 + e.type) ++ [e.age])))))

/-- FWD_FLUSH: word 0 bit 31 by port 4:0, bit 30 by VID 27:16. The answer is the number of entries removed. -/
def execFwdFlush (owner slot : Nat) (s : State) : Res :=
  onHw s (fun h => h.gcsRun owner slot 0x0405 noDeadlock (fun q =>
    let w := q.w 0
    let byP := bit w 31
    let byV := bit w 30
    let r := h.emRemoveAll true (fun e => !e.static && e.type == 0 && (!byP || (e.group.isNone && e.port == bits w 4 0)) &&
      (!byV || e.key / 2 ^ 48 % 4096 == bits w 27 16))
    h.vet [if byP then h.deny owner 1 (bits w 4 0) else only1 owner, q.reserved [0xCFFF001F], badAt (!byP && !byV) 3]
      (.ok r.2 [r.1])))

/-! ### LPM (R110, R111) -/

/-- Value and mask of a route: family (1 IPv4, 2 IPv6), VRF, length, the 128-bit address field. -/
def lpmOf (fam vrf len addr : Nat) : Nat × Nat :=
  (fam * 2 ^ 158 + vrf * 2 ^ 146 + addr, 2 ^ 160 - 2 ^ (128 - len))

/-- The payload of a route: word 0 family 17:16 and VRF 11:0, word 1 next hop 27:16 and length 7:0, words 2 to 5 the address field of
R110, low word first. -/
def Slot.route (q : Slot) : Nat × Nat × Nat :=
  let v := lpmOf (bits (q.w 0) 17 16) (bits (q.w 0) 11 0) (bits (q.w 1) 7 0) (q.w64 2 + q.w64 4 * 2 ^ 64)
  (v.1, v.2, bits (q.w 1) 7 0)

/-- The checks of a route. -/
def Slot.routeChecks (q : Slot) : List Check :=
  let fam := bits (q.w 0) 17 16
  let len := bits (q.w 1) 7 0
  let addr := q.w64 2 + q.w64 4 * 2 ^ 64
  [q.reserved [0x00030FFF, 0x0FFF00FF], badAt (fam != 1 && fam != 2) 2, badAt (decide ((if fam = 1 then 32 else 128) < len)) 4,
   badAt (addr % 2 ^ (128 - len) != 0) 8]

/-- Move one entry of each route length toward a free index: the entries to move, in order, from the group nearest to it. The free
index at the end is where the new route goes (R111). -/
def lpmShift : List (List (Nat × LpmEntry)) → Nat → List (Nat × Option LpmEntry) → Nat × List (Nat × Option LpmEntry)
  | [], f, ws => (f, ws)
  | g :: gs, f, ws => match g with
    | [] => lpmShift gs f ws
    | e :: _ => lpmShift gs e.1 (ws ++ [(f, some e.2), (e.1, none)])

/-- The writes that insert a route; none when the table is full. The free index nearest below the shorter routes is taken, else the
nearest above the longer ones (DESIGN CHOICE, log entry 28). -/
def lpmInsert (m : Kv LpmEntry) (new : LpmEntry) : Option (List (Nat × Option LpmEntry)) :=
  let longer := m.filter (fun (e : Nat × LpmEntry) => decide (new.plen ≤ e.2.plen))
  let shorter := m.filter (fun (e : Nat × LpmEntry) => decide (e.2.plen < new.plen))
  let first := match longer.getLast? with | some e => e.1 + 1 | none => 0
  let free (i : Nat) : Bool := (kvGet m i).isNone
  let lens (l : Kv LpmEntry) : List Nat := (l.map (fun (e : Nat × LpmEntry) => e.2.plen)).dedup
  match (List.range (16384 - first)).find? (fun i => free (first + i)) with
  | some i =>
    let f := first + i
    let below := shorter.filter (fun (e : Nat × LpmEntry) => decide (e.1 < f))
    let groups := (lens below).reverse.map (fun n => below.filter (fun (e : Nat × LpmEntry) => e.2.plen == n))
    let r := lpmShift groups f []
    some (r.2 ++ [(r.1, some new)])
  | none =>
    match (List.range first).reverse.find? free with
    | none => none
    | some f =>
      let above := longer.filter (fun (e : Nat × LpmEntry) => decide (f < e.1))
      let groups := (lens above).map (fun n => (above.filter (fun (e : Nat × LpmEntry) => e.2.plen == n)).reverse)
      let r := lpmShift groups f []
      some (r.2 ++ [(r.1, some new)])

/-- The arbiter makes writes of a table other than the exact-match one: each is a change of its own, and repairs the entry it writes
(R82, R114). -/
def Hw.tableWrites (h : Hw) (t : Nat) (ws : List (Nat × TblVal)) (f : Fwd → Fwd) : Hw :=
  (h.onFwd (fun x => { (f x) with
    badUe := x.badUe.filter (fun b => !(b.1 == t && ws.any (fun w => w.1 == b.2.1))),
    struck := x.struck.filter (fun b => !(b.1 == t && ws.any (fun w => w.1 == b.2.1))) })).changed (ws.map (fun w => (t, w.1, w.2)))

/-- Writes of the LPM table, in order. -/
def Hw.lpmWrite (h : Hw) (ws : List (Nat × Option LpmEntry)) : Hw :=
  let put (m : Kv LpmEntry) (w : Nat × Option LpmEntry) : Kv LpmEntry := match w.2 with
    | some e => kvPut m w.1 e
    | none => kvDel m w.1
  h.tableWrites 1 (ws.map (fun w => (w.1, .lpm w.2))) (fun f => { f with lpm := ws.foldl put f.lpm })

/-- The LPM entry of a route. -/
def Hw.lpmAt (h : Hw) (value mask : Nat) : Option (Nat × LpmEntry) := h.fwd.lpm.find? (fun e => e.2.value == value && e.2.mask == mask)

/-- FWD_LPM_ADD (R111): a route already in the table is a CONFLICT, a next hop never written NO_OBJECT. -/
def execFwdLpmAdd (owner slot : Nat) (s : State) : Res :=
  onHw s (fun h => h.gcsRun owner slot 0x0406 Hw.deadlocks (fun q =>
    let p := q.route
    let nh := bits (q.w 1) 27 16
    let new : LpmEntry := ⟨p.1, p.2.1, p.2.2, nh⟩
    h.vet ([only1 owner] ++ q.routeChecks ++ [((kvGet h.fwd.nhop nh).isNone, cNoObject, 0), ((h.lpmAt p.1 p.2.1).isSome, cConflict, 0)])
      (match lpmInsert h.fwd.lpm new with
       | some ws => .ok (h.lpmWrite ws) []
       | none => match Hw.judgeNew h (h.onFwd (fun f => { f with lpm := f.lpm ++ [(16384, new)] })) Hw.deadlocks with
         | some (c, d) => h.refuse c d
         | none => h.refuse cTableFull 1)))

/-- FWD_LPM_DEL: the route of words 0 to 5. -/
def execFwdLpmDel (owner slot : Nat) (s : State) : Res :=
  onHw s (fun h => h.gcsRun owner slot 0x0407 noDeadlock (fun q =>
    h.vet (only1 owner :: q.routeChecks) (match h.lpmAt q.route.1 q.route.2.1 with
      | some e => .ok (h.lpmWrite [(e.1, none)]) []
      | none => h.refuse cNoObject 0)))

/-! ### ACL (R112, R113) -/

/-- Ten payload words as a 320-bit value, low word first. -/
def Slot.w320 (q : Slot) (k : Nat) : Nat := ((List.range 10).map (fun i => q.w (k + i) * 2 ^ (32 * i))).sum

/-- FWD_ACL_WRITE: word 0 the index; word 1 action 31:30 (0 permit, 1 deny, 2 port, 3 group), port or group 27:16, priority 11:0;
word 2 bit 31 with stream handle 27:16, bit 3 with class 2:0; words 3 to 12 the value, 13 to 22 the mask. -/
def execFwdAclWrite (owner slot : Nat) (s : State) : Res :=
  onHw s (fun h => h.gcsRun owner slot 0x0408 Hw.deadlocks (fun q =>
    let i := q.w 0
    let w := q.w 1
    let t := bits w 27 16
    let act : AclAct := match bits w 31 30 with
      | 0 => .permit
      | 1 => .deny
      | 2 => .toPort (t % 32)
      | _ => .toGroup t
    let e : AclEntry := ⟨q.w320 3, q.w320 13, bits w 11 0, act, if bit (q.w 2) 3 then some (bits (q.w 2) 2 0) else none,
      if bit (q.w 2) 31 then some (bits (q.w 2) 27 16) else none⟩
    h.vet [only1 owner, q.reserved [0x1FFF, 0xCFFF0FFF, 0x8FFF000F], badAt (bits w 31 30 = 2 && decide (32 ≤ t)) 6]
      (.ok (h.tableWrites 2 [(i, .acl (some e))] (fun f => { f with acl := kvPut f.acl i e })) [])))

/-- FWD_ACL_DEL: word 0 the index. -/
def execFwdAclDel (owner slot : Nat) (s : State) : Res :=
  onHw s (fun h => h.gcsRun owner slot 0x0409 noDeadlock (fun q =>
    let i := q.w 0
    h.vet [only1 owner, q.reserved [0x1FFF], ((kvGet h.fwd.acl i).isNone, cNoObject, 0)]
      (.ok (h.tableWrites 2 [(i, .acl none)] (fun f => { f with acl := kvDel f.acl i })) [])))

/-! ### Indexed tables -/

/-- FWD_VLAN_SET: word 0 the VID, words 1 and 2 the member and untagged masks, word 3 router flag 31, VRF 27:16, router MAC index 11:0.
Every port of the new and of the old member mask is named. -/
def execFwdVlanSet (owner slot : Nat) (s : State) : Res :=
  onHw s (fun h => h.gcsRun owner slot 0x040A Hw.deadlocks (fun q =>
    let v := q.w 0
    let was := match kvGet h.fwd.vlan v with | some e => e.member | none => 0
    let e : VlanEntry := ⟨q.w 1, q.w 2, bit (q.w 3) 31, bits (q.w 3) 11 0, bits (q.w 3) 27 16⟩
    h.vet [h.denyAny owner (portsOf (q.w 1 ||| was)), q.reserved [4095, 0xFFFFFFFF, 0xFFFFFFFF, 0x8FFF0FFF]]
      (.ok (h.tableWrites 3 [(v, .vlan (some e))] (fun f => { f with vlan := kvPut f.vlan v e })) [])))

/-- FWD_MCAST_SET: word 0 the group, word 1 the port mask. -/
def execFwdMcastSet (owner slot : Nat) (s : State) : Res :=
  onHw s (fun h => h.gcsRun owner slot 0x040B Hw.deadlocks (fun q =>
    let g := q.w 0
    h.vet [h.denyAny owner (portsOf (q.w 1 ||| h.groupMask g)), q.reserved [4095]]
      (.ok (h.tableWrites 4 [(g, .group (q.w 1))] (fun f => { f with mcast := kvPut f.mcast g (q.w 1) })) [])))

/-- FWD_NHOP_SET: word 0 the number, word 1 VID 27:16 and port 4:0, words 2 and 3 the MAC. -/
def execFwdNhopSet (owner slot : Nat) (s : State) : Res :=
  onHw s (fun h => h.gcsRun owner slot 0x040C Hw.deadlocks (fun q =>
    let i := q.w 0
    let e : Nhop := ⟨q.w 1 % 32, q.w64 2, bits (q.w 1) 27 16⟩
    h.vet [h.denyAny owner ((1, q.w 1 % 32) :: (match kvGet h.fwd.nhop i with | some n => [(1, n.port)] | none => [])),
        q.reserved [4095, 0x0FFF001F, 0xFFFFFFFF, 0xFFFF]]
      (.ok (h.tableWrites 5 [(i, .nhop (some e))] (fun f => { f with nhop := kvPut f.nhop i e })) [])))

/-! ### Settings -/

/-- FWD_AGE_SET (R99, R100): word 1 the image of FWD_AGE_CFG; it applies from the next tick. -/
def execFwdAgeSet (owner slot : Nat) (s : State) : Res :=
  onHw s (fun h => h.gcsRun owner slot 0x040D noDeadlock (fun q =>
    h.vet [only1 owner, q.reserved [0, 0x7FFF000F], badAt (getF (q.w 1) Fld.FWD_AGE_CFG_LIMIT = 0) 6]
      (.ok (h.cfg Reg.FWD_AGE_CFG 0x7FFF000F (q.w 1)) [])))

/-- FWD_LEARN_SET (R32, R95 to R103): a cascade link runs at 25 Gb/s under MACsec; word 0 the port, word 1 the image of FWD_PORT_CFG, word 2 that of FWD_LEARN_CFG, which is owner 1's. -/
def execFwdLearnSet (owner slot : Nat) (s : State) : Res :=
  onHw s (fun h => h.gcsRun owner slot 0x040E Hw.deadlocks (fun q =>
    let p := q.w 0 % 32
    let cas := getF (q.w 1) Fld.FWD_PORT_CFG_CASCADE == 1
    let all := q.payload.length = 3
    let hold := getF (q.w 2) Fld.FWD_LEARN_CFG_MOVE_HOLD_MS
    h.vet [h.deny owner 1 p, (all && q.w 2 != h.rn Reg.FWD_LEARN_CFG && owner != 1, cDenied, 0),
        q.reserved [31, 0xFFFFC00F, 0x03FF0007], badAt (cas && (decide (4 ≤ p) || !h.macsecOn p)) 4,
        badState (cas && h.fld (Reg.MAC_CFG p) Fld.MAC_CFG_MODE != 1) 1 p,
        badAt (all && (hold = 0 || decide (1000 < hold))) 10]
      (.ok (
        let x := h.cfg (Reg.FWD_PORT_CFG p) 0xFFFFC00F (q.w 1)
        let x := if p < 4 then x.setCascade p cas else x
        if all then x.cfg Reg.FWD_LEARN_CFG 0x03FF0007 (q.w 2) else x) [])))

/-- FWD_CFG_SET: word 1 the image of FWD_CFG. -/
def execFwdCfgSet (owner slot : Nat) (s : State) : Res :=
  onHw s (fun h => h.gcsRun owner slot 0x040F noDeadlock (fun q =>
    h.vet [only1 owner, q.reserved [0, 15]] (.ok (h.cfg Reg.FWD_CFG 15 (q.w 1)) [])))

/-- The buffer owners of the frames that enter at a port (R23). -/
def Hw.ownersAt (h : Hw) (p : Nat) : List Nat :=
  if p < 24 then h.portOwner p :: (h.fwd.em.filterMap (fun e => if e.2.type = 0 then none else e.2.owner))
  else match p with
    | 24 => h.own.active.filter (fun o => decide (2 ≤ o ∧ o < 258))
    | 25 => 1 :: (h.brg.rules.filterMap (fun r => if bit (r.2.getD 2 0) 31 then some (bits (r.2.getD 2 0) 24 16) else none))
    | 26 => [0, 1]
    | 27 => h.own.active
    | 31 => []
    | p => [h.svcOwner p]

/-- A sampler's point carries frames of an owner the grantee's policy does not cover (R78): a grantee other than owner 1 covers its
own. At an egress port the frames may come from any port. -/
def Hw.uncovered (h : Hw) (o type i : Nat) : Bool :=
  o != 1 && (match type with
    | 0 => (h.ownersAt i).any (· != o)
    | _ => ((List.range 32).flatMap h.ownersAt).any (· != o))

/-- FWD_SAMPLER_SET (R75 to R78): word 0 the sampler, words 1 and 2 the images of SWC_SMP_CFG and SWC_SMP_POINT. A grantee samples
ports of its policy that carry no other owner's frames; a point at an ACL rule, which any owner's frames can win, is owner 1's. -/
def execFwdSamplerSet (owner slot : Nat) (s : State) : Res :=
  onHw s (fun h => h.gcsRun owner slot 0x0410 noDeadlock (fun q =>
    let k := q.w 0 % 64
    let t := getF (q.w 2) Fld.SWC_SMP_POINT_TYPE
    let i := getF (q.w 2) Fld.SWC_SMP_POINT_INDEX
    h.vet [h.deny owner 9 k, if t = 2 then only1 owner else h.denyRead owner 1 i,
        (h.uncovered (h.holder 9 k) t i, cDenied, resWord 9 k), q.reserved [63, 0x3FFFF, 0x1FFF0003],
        badAt (t = 3) 8, badAt (t != 2 && decide (32 ≤ i)) 10]
      (.ok ((h.images [(Reg.SWC_SMP_CFG k, 0x3FFFF, q.w 1), (Reg.SWC_SMP_POINT k, 0x1FFF0003, q.w 2)]).onSwc (fun x => { x with
        smpCount := kvDel x.smpCount k })) [])))

/-- FWD_CASCADE_PATH (R106): word 0 the member, word 1 the image of FWD_CASCADE_PATH. -/
def execFwdCascadePath (owner slot : Nat) (s : State) : Res :=
  onHw s (fun h => h.gcsRun owner slot 0x0411 Hw.deadlocks (fun q =>
    let p := q.w 1 % 32
    h.vet [only1 owner, q.reserved [3, 0x8000001F], badAt (decide (4 ≤ p)) 4, noObj (bit (q.w 1) 31 && !h.isCascade p) 1 p]
      (.ok (h.cfg (Reg.FWD_CASCADE_PATH (q.w 0 % 4)) 0x8000001F (q.w 1)) [])))

end Sys2Proof.Machine
end

