-- ==== Sys2Proof/Machine/GcsTable.lean ====
section
/-!
DEFINITION. The opcodes of GCS 3.2 (R353): least and greatest number of payload words, the minor version that brought the command,
and the payload word with the length of a host buffer that firmware reads (R345). Payloads the spec does not lay out word by word are
those of log entry 22 (DESIGN CHOICE).
-/
namespace Sys2Proof.Machine

/-- What firmware knows of an opcode. -/
structure OpInfo where
  op    : Nat
  lo    : Nat
  hi    : Nat
  minor : Nat
  buf   : Option Nat
deriving DecidableEq, Repr

/-- The SYS commands. -/
def opsSys : List OpInfo :=
  [⟨0x0101, 1, 1, 0, none⟩, ⟨0x0102, 0, 0, 0, none⟩, ⟨0x0103, 0, 0, 0, none⟩, ⟨0x0104, 2, 28, 0, none⟩,
   ⟨0x0105, 4, 4, 0, some 3⟩, ⟨0x0106, 0, 0, 0, none⟩, ⟨0x0107, 4, 4, 0, none⟩, ⟨0x0108, 4, 4, 0, some 3⟩,
   ⟨0x0109, 9, 10, 0, none⟩, ⟨0x010A, 13, 13, 0, none⟩, ⟨0x010B, 1, 1, 0, none⟩, ⟨0x010C, 0, 0, 0, none⟩]

/-- The OWN commands. -/
def opsOwn : List OpInfo :=
  [⟨0x0201, 1, 1, 0, none⟩, ⟨0x0202, 1, 1, 0, none⟩, ⟨0x0203, 3, 28, 0, none⟩, ⟨0x0204, 3, 28, 0, none⟩,
   ⟨0x0205, 4, 4, 0, none⟩, ⟨0x0206, 2, 10, 0, none⟩, ⟨0x0207, 0, 1, 0, none⟩]

/-- The PORT commands. -/
def opsPort : List OpInfo :=
  [⟨0x0301, 6, 6, 0, none⟩, ⟨0x0302, 1, 1, 0, none⟩, ⟨0x0303, 2, 2, 0, none⟩, ⟨0x0304, 2, 2, 0, none⟩, ⟨0x0305, 3, 3, 0, none⟩,
   ⟨0x0306, 2, 2, 0, none⟩, ⟨0x0307, 3, 3, 0, none⟩, ⟨0x0308, 2, 5, 0, some 4⟩, ⟨0x0309, 2, 7, 0, none⟩,
   ⟨0x030A, 1, 1, 0, none⟩]

/-- The FWD commands. -/
def opsFwd : List OpInfo :=
  [⟨0x0401, 7, 7, 0, none⟩, ⟨0x0402, 4, 4, 0, none⟩, ⟨0x0403, 4, 4, 2, some 3⟩, ⟨0x0404, 2, 4, 0, none⟩,
   ⟨0x0405, 1, 1, 0, none⟩, ⟨0x0406, 6, 6, 0, none⟩, ⟨0x0407, 6, 6, 0, none⟩, ⟨0x0408, 23, 23, 0, none⟩,
   ⟨0x0409, 1, 1, 0, none⟩, ⟨0x040A, 4, 4, 0, none⟩, ⟨0x040B, 2, 2, 0, none⟩, ⟨0x040C, 4, 4, 0, none⟩, ⟨0x040D, 2, 2, 0, none⟩,
   ⟨0x040E, 2, 3, 0, none⟩, ⟨0x040F, 2, 2, 0, none⟩, ⟨0x0410, 3, 3, 0, none⟩, ⟨0x0411, 2, 2, 0, none⟩]

/-- The QOS commands. -/
def opsQos : List OpInfo :=
  [⟨0x0501, 11, 11, 0, none⟩, ⟨0x0502, 7, 11, 0, some 10⟩, ⟨0x0503, 3, 3, 0, none⟩, ⟨0x0504, 2, 2, 0, none⟩,
   ⟨0x0505, 3, 3, 0, none⟩, ⟨0x0506, 2, 2, 0, none⟩, ⟨0x0507, 6, 9, 0, some 8⟩, ⟨0x0508, 1, 1, 0, none⟩,
   ⟨0x0509, 4, 4, 0, none⟩, ⟨0x050A, 4, 4, 0, none⟩, ⟨0x050B, 1, 1, 0, none⟩, ⟨0x050C, 1, 1, 0, none⟩, ⟨0x050D, 4, 4, 0, none⟩,
   ⟨0x050E, 2, 2, 0, none⟩, ⟨0x050F, 3, 4, 0, none⟩, ⟨0x0510, 2, 6, 1, some 5⟩]

/-- The VID commands. -/
def opsVid : List OpInfo :=
  [⟨0x0601, 9, 9, 0, none⟩, ⟨0x0602, 2, 2, 0, none⟩, ⟨0x0603, 1, 1, 0, none⟩, ⟨0x0604, 4, 4, 0, none⟩, ⟨0x0605, 5, 5, 0, none⟩,
   ⟨0x0606, 3, 4, 0, none⟩, ⟨0x0607, 3, 3, 0, none⟩, ⟨0x0608, 1, 1, 0, none⟩, ⟨0x0609, 5, 5, 0, none⟩, ⟨0x060A, 1, 1, 0, none⟩,
   ⟨0x060B, 2, 2, 0, none⟩, ⟨0x060C, 4, 4, 2, none⟩, ⟨0x060D, 1, 1, 0, none⟩]

/-- The FBUS commands. -/
def opsFbus : List OpInfo :=
  [⟨0x0701, 5, 5, 0, none⟩, ⟨0x0702, 2, 2, 0, none⟩, ⟨0x0703, 4, 4, 0, some 3⟩, ⟨0x0704, 3, 3, 0, none⟩,
   ⟨0x0705, 1, 1, 0, none⟩, ⟨0x0706, 2, 8, 0, some 7⟩, ⟨0x0707, 4, 20, 0, none⟩, ⟨0x0708, 4, 28, 0, some 3⟩,
   ⟨0x0709, 4, 4, 0, none⟩, ⟨0x070A, 4, 4, 0, some 3⟩, ⟨0x070B, 2, 2, 0, none⟩, ⟨0x070C, 1, 1, 0, none⟩,
   ⟨0x070D, 8, 8, 0, none⟩, ⟨0x070E, 2, 2, 0, none⟩]

/-- The GWY commands. -/
def opsGwy : List OpInfo :=
  [⟨0x0801, 9, 9, 0, none⟩, ⟨0x0802, 1, 3, 0, none⟩, ⟨0x0803, 1, 1, 0, none⟩, ⟨0x0804, 4, 4, 2, some 3⟩,
   ⟨0x0805, 6, 6, 0, none⟩, ⟨0x0806, 2, 28, 0, none⟩, ⟨0x0807, 3, 27, 0, none⟩, ⟨0x0808, 1, 6, 0, none⟩,
   ⟨0x0809, 9, 9, 0, none⟩, ⟨0x080A, 4, 4, 0, none⟩, ⟨0x080B, 2, 2, 0, none⟩, ⟨0x080C, 3, 3, 0, none⟩, ⟨0x080D, 1, 1, 0, none⟩,
   ⟨0x080E, 1, 1, 0, none⟩]

/-- The TIME commands. -/
def opsTime : List OpInfo :=
  [⟨0x0901, 6, 6, 0, none⟩, ⟨0x0902, 1, 1, 0, none⟩, ⟨0x0903, 4, 4, 0, none⟩, ⟨0x0904, 3, 3, 0, none⟩, ⟨0x0905, 2, 2, 0, none⟩,
   ⟨0x0906, 6, 6, 0, none⟩, ⟨0x0907, 2, 2, 0, none⟩, ⟨0x0908, 1, 1, 0, none⟩]

/-- The SEC commands. -/
def opsSec : List OpInfo :=
  [⟨0x0A01, 0, 0, 0, none⟩, ⟨0x0A02, 4, 4, 0, some 3⟩, ⟨0x0A03, 1, 1, 1, none⟩, ⟨0x0A04, 24, 24, 0, none⟩,
   ⟨0x0A05, 2, 2, 0, none⟩, ⟨0x0A06, 1, 1, 0, none⟩, ⟨0x0A07, 16, 16, 0, none⟩, ⟨0x0A08, 25, 25, 0, none⟩,
   ⟨0x0A09, 1, 1, 0, none⟩, ⟨0x0A0A, 1, 4, 0, some 3⟩, ⟨0x0A0B, 0, 0, 0, none⟩, ⟨0x0A0C, 1, 2, 0, none⟩]

/-- The MEM commands. -/
def opsMem : List OpInfo :=
  [⟨0x0B01, 2, 2, 0, none⟩, ⟨0x0B02, 2, 2, 0, none⟩, ⟨0x0B03, 3, 3, 0, none⟩, ⟨0x0B04, 0, 0, 0, none⟩, ⟨0x0B05, 0, 0, 0, none⟩,
   ⟨0x0B06, 3, 3, 0, none⟩]

/-- The PWR commands. -/
def opsPwr : List OpInfo :=
  [⟨0x0C01, 5, 5, 0, none⟩, ⟨0x0C02, 0, 0, 0, none⟩, ⟨0x0C03, 4, 4, 0, none⟩, ⟨0x0C04, 4, 4, 0, none⟩, ⟨0x0C05, 3, 4, 0, none⟩,
   ⟨0x0C06, 0, 0, 0, none⟩, ⟨0x0C07, 0, 0, 0, none⟩]

/-- The DIAG commands. -/
def opsDiag : List OpInfo :=
  [⟨0x0D01, 1, 1, 0, none⟩, ⟨0x0D02, 1, 1, 0, none⟩, ⟨0x0D03, 2, 2, 0, none⟩, ⟨0x0D04, 1, 28, 0, none⟩,
   ⟨0x0D05, 2, 5, 0, none⟩, ⟨0x0D06, 2, 28, 0, some 4⟩, ⟨0x0D07, 4, 28, 0, none⟩, ⟨0x0D08, 2, 2, 0, none⟩,
   ⟨0x0D09, 1, 1, 0, none⟩, ⟨0x0D0A, 3, 3, 0, none⟩]

/-- The row of an opcode: its high byte is the family. -/
def gcsInfo (op : Nat) : Option OpInfo :=
  ((match op / 256 with
    | 1 => opsSys
    | 2 => opsOwn
    | 3 => opsPort
    | 4 => opsFwd
    | 5 => opsQos
    | 6 => opsVid
    | 7 => opsFbus
    | 8 => opsGwy
    | 9 => opsTime
    | 10 => opsSec
    | 11 => opsMem
    | 12 => opsPwr
    | 13 => opsDiag
    | _ => []).find? (fun i => i.op == op))

/-- A command that names a buffer only when a bit of its payload says so. -/
def bufFlag (op : Nat) (p : List Nat) : Bool :=
  match op with
  | 0x0502 => bit (p.getD 0 0) 16
  | 0x0706 => bit (p.getD 1 0) 31
  | 0x0708 => bit (p.getD 0 0) 31
  | 0x0A0A => bit (p.getD 0 0) 8
  | 0x0D06 => bits (p.getD 1 0) 29 27 == 1 && decide (104 ≤ bits (p.getD 1 0) 7 0)
  | _ => true

/-- The command names a host buffer that firmware reads as it takes the command. -/
def gcsNeeds (op : Nat) (p : List Nat) : Bool :=
  match gcsInfo op with
  | some i => (match i.buf with
    | some w => p.getD w 0 != 0 && bufFlag op p
    | none => false)
  | none => false

/-- Commands whose effect is partial by design (R350). -/
def gcsPartial (op : Nat) : Bool := [0x0104, 0x0105, 0x0403, 0x0804].contains op

end Sys2Proof.Machine
end

