-- ==== Sys2Proof/Machine/SbbOps.lean ====
section
/-!
DEFINITION. Transactions of the sideband bridge (R418 to R426): pieces, start, completion, locks, cancels, responses; lines it
drives (R427 to R429).
-/
namespace Sys2Proof.Machine

/-- Update the sideband bridge. -/
def Hw.onSbb (h : Hw) (f : Sbb → Sbb) : Hw := { h with sbb := f h.sbb }

/-- Update a transaction. -/
def Hw.onTx (h : Hw) (slot : Nat) (f : SbbTx → SbbTx) : Hw :=
  h.onSbb (fun b => { b with tx := b.tx.map (fun (t : Nat × SbbTx) => if t.1 == slot then (t.1, f t.2) else t) })

/-- Fields of a request. -/
def SbbTx.op (t : SbbTx) : Nat := getF t.ctrl Fld.SBB_REQ_CTRL_OP
def SbbTx.chan (t : SbbTx) : Nat := getF t.ctrl Fld.SBB_REQ_CTRL_CHANNEL
def SbbTx.len (t : SbbTx) : Nat := getF t.ctrl Fld.SBB_REQ_CTRL_LEN + 1
def SbbTx.locks (t : SbbTx) : Bool := getF t.ctrl Fld.SBB_REQ_CTRL_LOCK == 1
def SbbTx.reg (t : SbbTx) : Nat := getF t.addr Fld.SBB_REQ_ADDR_REG

/-- The bus a channel serves (R416). -/
def isMdio (c : Nat) : Bool := decide (c < 4)
def isI2c (c : Nat) : Bool := decide (4 ≤ c) && decide (c < 8)
def isSpi (c : Nat) : Bool := decide (8 ≤ c) && decide (c < 12)

/-- A channel's settings. -/
def Hw.chanFld (h : Hw) (c : Nat) (f : Field) : Nat := h.fld (Reg.SBB_CHAN_CFG c) f

/-- Retries of a request on I2C (R419, R424). -/
def Hw.sbbRetries (h : Hw) (t : SbbTx) : Nat :=
  let n := getF t.ctrl Fld.SBB_REQ_CTRL_RETRY_N
  if n = 15 then h.chanFld t.chan Fld.SBB_CHAN_CFG_RETRY_N else n

/-- The channel is marked FAULT. -/
def Hw.chanFault (h : Hw) (c : Nat) : Bool := (h.fld Reg.SBB_STATUS Fld.SBB_STATUS_CHAN_FAULT).testBit c

/-- Cut `n` bytes from data byte `i`, at address `a`, at multiples of `page` (R422). -/
def cutAt (page : Nat) : Nat → Nat → Nat → Nat → List (Nat × Nat × Nat)
  | 0, _, _, _ => []
  | fuel + 1, a, i, n =>
    if n = 0 then []
    else
      let m := min n (page - a % page)
      (a, i, m) :: cutAt page fuel (a + m) (i + m) (n - m)

/-- The pieces of a transfer (R422): register or offset, first data byte, bytes. -/
def Hw.sbbPieces (h : Hw) (t : SbbTx) : List (Nat × Nat × Nat) :=
  let c := t.chan
  if isMdio c then
    if t.op = 2 then [(t.reg, 0, 2)] else (List.range (t.len / 2)).map (fun i => (t.reg + i, 2 * i, 2))
  else if isI2c c then
    let p := h.chanFld c Fld.SBB_CHAN_CFG_PAGE
    if p = 0 ∨ 6 < p then [(t.reg, 0, t.len)] else cutAt (2 ^ (p + 2)) 256 t.reg 0 t.len
  else if h.chanFld c Fld.SBB_CHAN_CFG_FLASH_PAGES = 1 ∧ t.op = 1 ∧ 3 ≤ t.len then
    let a := be (t.data.take 3)
    match cutAt 256 256 a 3 (t.len - 3) with
    | [] => [(a, 0, 3)]
    | (_, _, m) :: ps => (a, 0, m + 3) :: ps
  else [(t.reg, 0, t.len)]

/-- A piece goes onto the far bus. -/
def Hw.sbbPiece (h : Hw) (t : SbbTx) : Hw :=
  match t.left with
  | [] => h
  | (a, i, m) :: _ =>
    let body := if t.op = 1 then sub t.data i m else []
    let addr := if isSpi t.chan && decide (3 ≤ i) then toBe 3 a else []
    h.emit (.farBus t.chan t.op t.addr a (addr ++ body))

/-! ### Responses (R420) -/

/-- The 64-bit response of a completed transaction; `expired` reports LOCK_TIMEOUT (R423). -/
def SbbTx.response (t : SbbTx) (expired : Bool) : Nat :=
  let code := if expired then 5 else t.code
  2 ^ 63 + (if code = 0 then 0 else 2 ^ 61) + code * 2 ^ 57 + t.tries % 16 * 2 ^ 48 + t.done % 512 * 2 ^ 32
    + (if t.len ≤ 4 && t.op != 1 then le (t.got.take 4) else 0)

/-- The response with VALID frees the slot, and the DIAG command it served completes (DESIGN CHOICE, log entry 26): words 0 and 1 are the response,
then data longer than four bytes, which beyond 104 bytes goes to the host buffer of payload words 2 and 3; a command of several
requests answers two words for each and completes with the last. -/
def Hw.sbbRespond (h : Hw) (slot : Nat) (t : SbbTx) : Hw :=
  let r := t.response (h.sbb.expired.contains slot)
  let h := h.onSbb (fun b => { b with tx := kvDel b.tx slot, expired := without b.expired slot })
  let h := h.emit (.sbbResp slot r)
  match t.serves with
  | none => h
  | some k => match kvGet h.mbx.slots k with
    | none => h
    | some s =>
      let data := if 4 < t.len && t.op == 0 then wordsOf ((t.got.length + 3) / 4) t.got else []
      let long := decide (104 < t.len) && t.op == 0
      let h := if long then h.emit (.hostWrite (k / 32) (s.payload.getD 2 0 + s.payload.getD 3 0 * 2 ^ 32) data) else h
      let resp := (s.resp ++ [r % 2 ^ 32, r / 2 ^ 32] ++ (if long then [] else data)).take 28
      match kvGetD h.sbb.seqs k [] with
      | [] => (h.onSbb (fun b => { b with seqs := kvDel b.seqs k })).complete k cOk 0 resp
      | _ => h.setSlot k { s with resp := resp }

/-! ### Start and completion -/

/-- The waiting transaction a channel serves next, in order of GO writes; a locked channel serves its slot alone (R419, R423). -/
def Hw.sbbNext (h : Hw) (c : Nat) : Option (Nat × SbbTx) :=
  if h.sbb.tx.any (fun t => t.2.chan == c && decide (1 ≤ t.2.phase) && decide (t.2.phase ≤ 3)) then none
  else if h.chanFld c Fld.SBB_CHAN_CFG_EN = 0 then none
  else
    let l := h.sbb.tx.filter (fun t => t.2.chan == c && t.2.phase == 0 &&
      (match kvGet h.sbb.lock c with | some o => o.1 == t.1 | none => true))
    l.foldl (fun (w : Option (Nat × SbbTx)) x => match w with
      | none => some x
      | some y => if x.2.order < y.2.order then some x else some y) none

/-- A mailbox command's effect is committed: it can no longer be aborted (R335, R426). -/
def Hw.commitSlot (h : Hw) (k : Option Nat) : Hw :=
  match k with
  | none => h
  | some k => match kvGet h.mbx.slots k with
    | some s => h.setSlot k { s with committed := true }
    | none => h

/-- Start what a channel may serve. -/
def Hw.sbbStart (h : Hw) (c : Nat) : Hw :=
  match h.sbbNext c with
  | none => h
  | some (slot, t) =>
    let h := h.onTx slot (fun x => { x with phase := 1, tries := 1 })
    let h := if t.op = 0 then h else h.commitSlot t.serves
    h.sbbPiece t

/-- A transaction completes with a code (R420, R423): counted, its lock kept or ended, a held response read answered. -/
def Hw.sbbFinish (h : Hw) (slot code : Nat) : Hw :=
  match kvGet h.sbb.tx slot with
  | none => h
  | some t =>
    let c := t.chan
    let h := if c < 12 then h.inc (Reg.SBB_CHAN_XFERS c) else h
    let h := if c < 12 ∧ code ≠ 0 then h.inc (Reg.SBB_CHAN_ERR c) else h
    let was := (kvGet h.sbb.lock c).map (·.1) == some slot
    let keep := t.locks && code != 6 && code != 8 && decide (1 ≤ t.phase)
    let h := if keep then h.onSbb (fun b => { b with lock := kvPut b.lock c (slot, h.clk) })
      else if was && (decide (1 ≤ t.phase) || code == 6) then h.onSbb (fun b => { b with lock := kvDel b.lock c })
      else h
    let h := if (!keep && decide (1 ≤ t.phase)) || (was && code == 6) then h.emit (.farBusEnd c) else h
    let done : SbbTx := { t with phase := 4, code := code, hold := none, got := if code = 6 then [] else t.got }
    let h := h.onTx slot (fun _ => done)
    if t.hold.isSome then h.sbbRespond slot done else h

/-- A GO write (R418, R419). -/
def Hw.sbbGo (h : Hw) (slot addr word ctrl : Nat) (data : List Byte) (serves : Option Nat) : Hw :=
  if (kvGet h.sbb.tx slot).isSome then h.inc Reg.SBB_GO_BUSY
  else
    let h := (h.wn (Reg.SBB_REQ_ADDR slot) addr).wn (Reg.SBB_REQ_DATA slot) word
    let t : SbbTx := ⟨addr, word, ctrl, data, [], 0, 0, [], 0, 0, none, none, h.sbb.order, serves, h.clk⟩
    let t := { t with left := h.sbbPieces t }
    let h := h.onSbb (fun b => { b with tx := kvPut b.tx slot t, order := b.order + 1 })
    if 2 < t.op ∨ 12 ≤ t.chan ∨ (t.op = 2 ∧ 4 ≤ t.chan) ∨ t.left.isEmpty then h.sbbFinish slot 8
    else if h.chanFault t.chan then h.sbbFinish slot 7
    else h.sbbStart t.chan

/-- A cancel (R426): on the bus it takes effect at the next safe point; elsewhere at once. -/
def Hw.sbbCancel (h : Hw) (slot : Nat) : Hw :=
  match kvGet h.sbb.tx slot with
  | none =>
    let cs := (h.sbb.lock.filter (fun l => l.2.1 == slot)).map (·.1)
    cs.foldl (fun a c => ((a.onSbb (fun b => { b with lock := kvDel b.lock c })).emit (.farBusEnd c)).sbbStart c) h
  | some t =>
    if t.phase = 4 then h
    else if t.phase = 1 then h.onTx slot (fun x => { x with cancel := some h.clk })
    else (h.sbbFinish slot 6).sbbStart t.chan

/-- The transactions that serve an aborted command are cancelled, and serve nothing (R426). -/
def Hw.sbbAbandon (h : Hw) (k : Nat) : Hw :=
  let slots := (h.sbb.tx.filter (fun t => t.2.serves == some k)).map (·.1)
  let h := h.onSbb (fun b => { b with seqs := kvDel b.seqs k })
  slots.foldl (fun a s => (a.onTx s (fun x => { x with serves := none })).sbbCancel s) h

/-- The next piece, or the end of the transfer. -/
def Hw.sbbAdvance (h : Hw) (slot : Nat) : Hw :=
  match kvGet h.sbb.tx slot with
  | none => h
  | some t =>
    match t.left.drop 1 with
    | [] => ((h.onTx slot (fun x => { x with left := [] })).sbbFinish slot 0).sbbStart t.chan
    | ps =>
      let t' := { t with left := ps, phase := 1, tries := 1 }
      (h.onTx slot (fun _ => t')).sbbPiece t'

/-- A channel whose SDA stays low (R424): FAULT, every request on it completes with BUS_FAULT. -/
def Hw.chanFaults (h : Hw) (c : Nat) : Hw :=
  let f := h.fld Reg.SBB_STATUS Fld.SBB_STATUS_CHAN_FAULT
  let h := (h.setFld Reg.SBB_STATUS Fld.SBB_STATUS_CHAN_FAULT (f ||| 2 ^ c)).post 1 0x0E01 c
  let slots := (h.sbb.tx.filter (fun t => t.2.chan == c && t.2.phase != 4)).map (·.1)
  slots.foldl (fun a s => a.sbbFinish s 7) h

/-! ### The retry budget (R425) -/

/-- Far-bus bit times of a piece with `n` data bytes. -/
def Hw.pieceBits (h : Hw) (t : SbbTx) (n : Nat) : Nat :=
  let c := t.chan
  if isMdio c then
    (if h.chanFld c Fld.SBB_CHAN_CFG_PRE_SUP = 1 then 32 else 64) * (if getF t.ctrl Fld.SBB_REQ_CTRL_C45 = 1 then 2 else 1)
      * (if t.op = 2 then 2 else 1)
  else if isI2c c then
    let alen := getF t.ctrl Fld.SBB_REQ_CTRL_ALEN
    2 + 9 * (1 + alen + (if t.op = 0 ∧ alen ≠ 0 then 1 else 0) + n)
  else 8 * (1 + n)

/-- The retry budget of a request in ns. -/
def Hw.sbbBudget (h : Hw) (t : SbbTx) : Nat :=
  let ps := h.sbbPieces t
  let piece := (ps.map (fun p => h.pieceBits t p.2.2 * h.chanFld t.chan Fld.SBB_CHAN_CFG_DIV * 4)).foldl max 0
  let tm := h.rn (Reg.SBB_CHAN_TIMING t.chan)
  let gap := getF tm Fld.SBB_CHAN_TIMING_RETRY_GAP_US * 1000
  let wr := if isI2c t.chan && t.op == 1 then ps.length * getF tm Fld.SBB_CHAN_TIMING_WR_CYCLE_MS * 1000000 else 0
  (h.sbbRetries t + 1) * (piece + gap) + wr

/-- The budgets of the largest requests DIAG commands can make of a channel under its settings, with the channel's own RETRY_N (R425): 256
bytes at an unaligned offset of two bytes, Clause 45 frames. -/
def Hw.worstBudgets (h : Hw) (c : Nat) : List Nat :=
  let req (op : Nat) : SbbTx :=
    let ctrl := putF (putF (putF (putF (putF 255 Fld.SBB_REQ_CTRL_OP op) Fld.SBB_REQ_CTRL_CHANNEL c) Fld.SBB_REQ_CTRL_C45 1)
      Fld.SBB_REQ_CTRL_ALEN 2) Fld.SBB_REQ_CTRL_RETRY_N 15
    ⟨2 ^ 16, 0, ctrl, List.replicate 256 0, [], 0, 0, [], 0, 0, none, none, 0, none, 0⟩
  (if isMdio c then [0, 1, 2] else [0, 1]).map (fun op => h.sbbBudget (req op))

/-! ### Lines -/

/-- The level a GPIO line shows on its pin: none when it is an input, or open drain and high. -/
def Hw.gpioPin (h : Hw) (n : Nat) : Option Bool :=
  let c := h.rn (Reg.SBB_GPIO_CFG n)
  let v := getF c Fld.SBB_GPIO_CFG_LEVEL == 1
  match getF c Fld.SBB_GPIO_CFG_DIR with
  | 1 => some v
  | 2 => if v then none else some false
  | _ => none

/-- Drive a GPIO line (R428): levels that disagree within one CK_PER cycle give SAFE. A toggle inverts the level the line had
before the cycle. -/
def Hw.gpioDrive (h : Hw) (n : Nat) (level : Option Bool) : Hw :=
  let cyc := h.clk / 2
  let now := h.flag (Reg.SBB_GPIO_CFG n) Fld.SBB_GPIO_CFG_LEVEL
  let same : Option (Bool × Option Bool) := match kvGet h.sbb.drove n with
    | some (c, b, v) => if c = cyc then some (b, v) else none
    | none => none
  let before := match same with | some x => x.1 | none => now
  let want := level.getD (!before)
  let put (h : Hw) (v : Bool) (r : Option Bool) : Hw :=
    let h := h.setFld (Reg.SBB_GPIO_CFG n) Fld.SBB_GPIO_CFG_LEVEL (if v then 1 else 0)
    (h.onSbb (fun b => { b with drove := kvPut b.drove n (cyc, before, r) })).emit (.pin (.gpio n) (h.gpioPin n))
  match same with
  | none => put h want (some want)
  | some (_, none) => h
  | some (_, some v) =>
    if v == want then h
    else put (h.inc Reg.SBB_GPIO_CONFLICT) (h.flag (Reg.SBB_GPIO_CFG n) Fld.SBB_GPIO_CFG_SAFE) none

/-- Turn a rail's enable output on or off; its power-good is waited for from then on. -/
def Hw.railEnable (h : Hw) (r : Nat) (on : Bool) : Hw :=
  let h := if on then h.onSbb (fun b => { b with railAt := kvPut b.railAt r h.clk }) else h
  (h.setFld (Reg.SBB_RAIL_CFG r) Fld.SBB_RAIL_CFG_ON (if on then 1 else 0)).emit (.pin (.railEn r) (some on))

/-- The power manager turns a rail on: a new attempt, its fault cleared. -/
def Hw.railOn (h : Hw) (r : Nat) : Hw :=
  let h := h.setFld (Reg.SBB_RAIL_CFG r) Fld.SBB_RAIL_CFG_FAULT 0
  let f := h.fld Reg.SBB_STATUS Fld.SBB_STATUS_RAIL_FAULT
  let h := h.setFld Reg.SBB_STATUS Fld.SBB_STATUS_RAIL_FAULT (f &&& (0xFFF - 2 ^ r))
  (h.onSbb (fun b => { b with railTry := kvDel b.railTry r })).railEnable r true

/-- The power manager turns a rail off; an off rail reports no power-good. -/
def Hw.railOff (h : Hw) (r : Nat) : Hw :=
  let h := h.setFld (Reg.SBB_RAIL_CFG r) Fld.SBB_RAIL_CFG_PG 0
  (h.onSbb (fun b => { b with railTry := kvDel b.railTry r })).railEnable r false

/-- The first power-good or fault of a rail in this transition ends its part of its stage (R444). -/
def Hw.railDone (h : Hw) (r : Nat) : Hw :=
  if h.pwr.busy && (kvGet h.pwr.railDone r).isNone then { h with pwr := { h.pwr with railDone := kvPut h.pwr.railDone r h.clk } } else h

/-- A rail that faulted in this transition (R440). -/
def Hw.railMark (h : Hw) (r : Nat) : Hw :=
  if h.pwr.busy then { h with pwr := { h.pwr with railFaults := h.pwr.railFaults ||| 2 ^ r } } else h

/-- FAULT of a rail is latched. -/
def Hw.railLatch (h : Hw) (r : Nat) : Hw :=
  let f := h.fld Reg.SBB_STATUS Fld.SBB_STATUS_RAIL_FAULT
  (h.setFld (Reg.SBB_RAIL_CFG r) Fld.SBB_RAIL_CFG_FAULT 1).setFld Reg.SBB_STATUS Fld.SBB_STATUS_RAIL_FAULT (f ||| 2 ^ r)

/-- A rail fault (R429); `lost` when power-good fell, else a timeout. -/
def Hw.railFault (h : Hw) (r : Nat) (lost : Bool) : Hw :=
  let n := (kvGetD h.sbb.railTry r (0, 0)).1
  let h := (h.railDone r).railMark r
  let h := ((h.railEnable r false).setFld (Reg.SBB_RAIL_CFG r) Fld.SBB_RAIL_CFG_PG 0).inc (Reg.SBB_RAIL_FAULTS r)
  let h := (h.post 1 0x0E02 r (if lost then 1 else 0)).onSbb (fun b => { b with railTry := kvPut b.railTry r (n + 1, h.clk) })
  let h := if h.fld (Reg.SBB_RAIL_CFG r) Fld.SBB_RAIL_CFG_RETRIES ≤ n then h.railLatch r else h
  h.fire [96 + r]

end Sys2Proof.Machine
end

