-- ==== Sys2Proof/Machine/Mbx.lean ====
section
/-!
DEFINITION. The rows of the mailboxes (R329 to R337): doorbells, aborts, slot writes, commands taken, firmware restart.
-/
namespace Sys2Proof.Machine

/-- Ring slot `n` of an owner (R329): the result, and the state after it. -/
def Hw.ringSlot (h : Hw) (o n : Nat) : Nat × Hw :=
  if !h.flag (Reg.MBX_OWNER_STATUS o) Fld.MBX_OWNER_STATUS_READY then (3, h)
  else if 32 ≤ (h.inFlight o).length then (1, h.inc (Reg.MBX_RING_REFUSED o))
  else if (kvGet h.mbx.slots (o * 32 + n)).isSome then (2, h.inc (Reg.MBX_RING_REFUSED o))
  else
    let copy := (List.range 32).map (h.slotWord o n)
    let h := h.onMbx (fun m => { m with
      slots := kvPut m.slots (o * 32 + n) ⟨1, copy, m.order, [], false, [], false⟩, order := m.order + 1 })
    (0, (h.putSlot o n 2 [2 ^ 30]).showMbx o)

/-- MBX_RING_READ (R329): a read of the doorbell of a slot. -/
def execMbxRingRead (fn off en : Nat) (s : State) : Res :=
  onHw s (fun h => match h.hostReg fn off with
    | some r =>
      if 0x10000000 ≤ r ∧ r % 256 < 0x80 then
        let o := (r - 0x10000000) / 256
        let x := h.ringSlot o (r % 256 / 4)
        x.2.answer off en ((x.2.inFlight o).length * 256 + x.1)
      else h
    | none => h)

/-- What else an abort of a waiting command undoes: a staged time operation, a far-bus transaction (R426). -/
def Hw.abandonWork (h : Hw) (k : Nat) : Hw :=
  (({ h with tim := { h.tim with fwOp := h.tim.fwOp.filter (fun t => t.2.slot != some k) } }).sbbAbandon k)

/-- The response of a command that had not committed: the elements committed, of a partial one (R350). Firmware carries a partial command
out in one step here, so that is none. -/
def Slot.partResp (s : Slot) : List Nat := if gcsPartial s.opcode then [0] else []

/-- Cancel the command in slot `n` of an owner (R335); one past its commit completes with its own code. -/
def Hw.abortSlot (h : Hw) (o n : Nat) : Hw :=
  match kvGet h.mbx.slots (o * 32 + n) with
  | none => h
  | some s =>
    if s.committed then h.setSlot (o * 32 + n) { s with aborted := true }
    else (h.abandonWork (o * 32 + n)).complete (o * 32 + n) cAborted 0 s.partResp

/-- MBX_ABORT_WRITE (R335). -/
def execMbxAbortWrite (fn off en val : Nat) (s : State) : Res :=
  onHw s (fun h => match h.hostReg fn off with
    | some r => if en = 15 ∧ 0x10000000 ≤ r ∧ r % 256 = 0x80 then h.abortSlot ((r - 0x10000000) / 256) (val % 32) else h
    | none => h)

/-- A host write of a word of slot RAM (R333, R334); `dev` is what the device writes into the same word in the same cycle. -/
def Hw.slotRamWrite (h : Hw) (o w val : Nat) (dev : Option Nat) : Hw :=
  match dev with
  | none => h.putSlot o 0 w [val]
  | some d =>
    let h := h.putSlot o 0 w [d]
    if d = val then h
    else
      let h := (h.setFld (Reg.MBX_COLLIDE o) Fld.MBX_COLLIDE_COLLIDE 1).setFld (Reg.MBX_COLLIDE o) Fld.MBX_COLLIDE_LAST_WORD w
      h.inc (Reg.MBX_COLLIDE_COUNT o)

/-- MBX_SLOT_WRITE (R334). -/
def execMbxSlotWrite (fn off en val : Nat) (dev : Option Nat) (s : State) : Res :=
  onHw s (fun h => match h.hostAt fn (off / 4 * 4) with
    | .slotRam b => if en = 15 then h.slotRamWrite (fnOwner fn) (b / 4) val dev else h
    | _ => h)

/-- The oldest POSTED command of an owner, unless BARRIER holds it back (R330, R331). -/
def Hw.takeable (h : Hw) (o : Nat) : Option (Nat × Slot) :=
  let posted := (h.inFlight o).filter (fun s => s.2.st == 1)
  let first := posted.foldl (fun (w : Option (Nat × Slot)) x => match w with
    | none => some x
    | some y => if x.2.order < y.2.order then some x else some y) none
  match first with
  | none => none
  | some x => if x.2.barrier && (h.inFlight o).any (fun y => decide (y.2.order < x.2.order)) then none else some x

/-- The owners with a POSTED command, in the order of the round robin after the last one served. -/
def Hw.takeOrder (h : Hw) : List Nat :=
  let os := ((h.mbx.slots.filter (fun s => s.2.st == 1)).map (fun s => s.1 / 32)).dedup
  os.filter (fun o => decide (h.mbx.turn < o)) ++ os.filter (fun o => decide (o ≤ h.mbx.turn))

/-- The next command firmware takes. -/
def Hw.nextCommand (h : Hw) : Option (Nat × Slot) :=
  h.takeOrder.foldl (fun w o => match w with
    | some x => some x
    | none => if h.flag Reg.MBX_STATUS Fld.MBX_STATUS_SAFE_SET && o != 2 then none else h.takeable o) none

/-- The commands the recovery service accepts (R341). -/
def safeServed (op : Nat) : Bool := [0x0101, 0x0103, 0x0104, 0x0105, 0x0106].contains op

/-- The checks that do not depend on the command's own rules, in the order of R346: the code of the first that fails. -/
def Hw.headerCheck (h : Hw) (o : Nat) (s : Slot) (ecc : Bool) : Option Nat :=
  let w0 := s.copy.getD 0 0
  let w1 := s.copy.getD 1 0
  let st := h.rn (Reg.MBX_OWNER_STATUS o)
  let info := gcsInfo s.opcode
  let badLen := match info with
    | some i => s.length % 4 != 0 || decide (s.length / 4 < i.lo) || decide (i.hi < s.length / 4)
    | none => false
  if ecc then some cMbxEcc
  else if bits w0 31 18 != 0 || bit w1 31 || bit w1 23 || decide (112 < s.length) || badLen then some cBadHeader
  else if h.flag Reg.MBX_STATUS Fld.MBX_STATUS_SAFE_SET && !safeServed s.opcode then some cSafeSet
  else if getF st Fld.MBX_OWNER_STATUS_NEGOTIATED = 0 ∧ s.opcode ≠ 0x0101 then some cVersion
  else match info with
    | none => some cBadOpcode
    | some i => if getF st Fld.MBX_OWNER_STATUS_GCS_MINOR < i.minor then some cBadOpcode else none

/-- Firmware takes a command: ACTIVE, or DONE at once when a general check fails or its host buffer cannot be read (R345). -/
def Hw.takeCommand (h : Hw) (buf : Option (List Byte)) (ecc : Bool) : Hw :=
  let limit := if h.flag Reg.MBX_STATUS Fld.MBX_STATUS_SAFE_SET then 1 else 64
  if limit ≤ (h.mbx.slots.filter (fun s => s.2.st == 2)).length then h
  else match h.nextCommand with
    | none => h
    | some (k, s) =>
      let h := h.onMbx (fun m => { m with turn := k / 32 })
      match h.headerCheck (k / 32) s ecc with
      | some c => h.complete k c 0 []
      | none =>
        match gcsNeeds s.opcode s.payload, buf with
        | true, none => h.complete k cBufErr 0 []
        | _, _ => ((h.setSlot k { s with st := 2, buf := buf.getD [] }).putSlot (k / 32) (k % 32) 2 [2 * 2 ^ 30]).showMbx (k / 32)

/-- FW_TAKE_COMMAND (R330): `buf` is the host buffer the command names, none when its read fails; `ecc` an uncorrectable error in
the slot copy. -/
def execFwTakeCommand (buf : Option (List Byte)) (ecc : Bool) (s : State) : Res :=
  onHw s (fun h =>
    if h.flag Reg.MBX_STATUS Fld.MBX_STATUS_READY || h.flag Reg.MBX_STATUS Fld.MBX_STATUS_SAFE_SET
    then h.takeCommand buf ecc else h)

/-- Firmware restarts (R336): a committed command completes with its own code once its effect is reached; every other command
completes with RESTARTED, a partial one with the elements committed (R350). -/
def Hw.fwRestart (h : Hw) : Hw :=
  h.mbx.slots.foldl (fun a x =>
    if x.2.committed then a
    else (a.abandonWork x.1).complete x.1 cRestarted 0 x.2.partResp) h

/-- FW_RESTART (R336). -/
def execFwRestart (s : State) : Res :=
  onHw s (fun h => if h.flag Reg.MBX_STATUS Fld.MBX_STATUS_READY then h.fwRestart else h)

end Sys2Proof.Machine
end

