-- ==== Sys2Proof/Machine/Memory.lean ====
section
/-!
DEFINITION. Memory as a list of cells in one canonical form: addresses strictly rising, no cell equal to what an unlisted address
reads as, which is 0 (DESIGN CHOICE, log entry 24).
-/
namespace Sys2Proof.Machine

/-- The canonical form. -/
def memWf : List Host.Cell → Bool
  | [] => true
  | [c] => c.2 != 0
  | c :: d :: m => c.2 != 0 && decide (c.1 < d.1) && memWf (d :: m)

/-- Read one byte. -/
def readByte : List Host.Cell → Nat → Byte
  | [], _ => 0
  | c :: m, a => if c.1 = a then c.2 else readByte m a

/-- Write one byte; writing 0 removes the cell. -/
def writeByte : List Host.Cell → Nat → Byte → List Host.Cell
  | [], a, v => if v = 0 then [] else [(a, v)]
  | c :: m, a, v =>
    if a < c.1 then (if v = 0 then c :: m else (a, v) :: c :: m)
    else if a = c.1 then (if v = 0 then m else (a, v) :: m)
    else c :: writeByte m a v

/-- Read `n` bytes, low byte first, as a number. -/
def readMem (m : List Host.Cell) (a : Nat) : Nat → Nat
  | 0 => 0
  | n + 1 => (readByte m a).toNat + 256 * readMem m (a + 1) n

/-- Write the low `n` bytes of a number, low byte first. -/
def writeMem (m : List Host.Cell) (a : Nat) : Nat → Nat → List Host.Cell
  | 0, _ => m
  | n + 1, v => writeMem (writeByte m a (BitVec.ofNat 8 v)) (a + 1) n (v / 256)

/-- Clear `n` bytes from an address. -/
def clearMem (m : List Host.Cell) (a n : Nat) : List Host.Cell :=
  m.filter (fun c => decide (c.1 < a) || decide (a + n ≤ c.1))

end Sys2Proof.Machine
end

