-- ==== Sys2Proof/Machine/MemOps.lean ====
section
/-!
DEFINITION. The general banks (R397 to R408): ownership, accesses, hand-over; the March engine's hold on them (R409 to R412).
-/
namespace Sys2Proof.Machine

/-- Update the memories. -/
def Hw.onMem (h : Hw) (f : MemSt → MemSt) : Hw := { h with mem := f h.mem }

/-- Bytes of a bank. -/
def bankBytes : Nat := 0x40000

/-- A field of a bank's MEM_BANK_OWNER. -/
def Hw.bankFld (h : Hw) (b : Nat) (f : Field) : Nat := h.fld (Reg.MEM_BANK_OWNER b) f
def Hw.setBank (h : Hw) (b : Nat) (f : Field) (v : Nat) : Hw := h.setFld (Reg.MEM_BANK_OWNER b) f v

/-- The banks the March engine has in test. -/
def Hw.marching (h : Hw) : List Nat := match h.mem.march with | some m => m.banks.take 4 | none => []

/-- The March engine holds the words of an access: the chunk in test, or a whole bank under a destructive test (R412). -/
def Hw.marchHolds (h : Hw) (b off : Nat) : Bool :=
  match h.mem.march with
  | some m => (m.banks.take 4).contains (32 + b) && (!m.preserve || off / 512 == m.chunk)
  | none => false

/-- A refused access (R400): a read returns 0, MEM_BANK_DENIED counts it, the first of a millisecond is reported. -/
def Hw.bankRefuse (h : Hw) (b : Nat) (q : BankReq) : Hw :=
  let h := if q.op = 1 then h else h.emit (.bank q.master (b * bankBytes + q.off) 0)
  let h := h.inc Reg.MEM_BANK_DENIED
  if (match h.mem.denied with | some t => decide (h.clk < t + 500000) | none => false) then h
  else (h.onMem (fun m => { m with denied := some h.clk })).post 1 0x0C02 (32 + b) q.master q.owner

/-- An uncorrectable word: counted, reported, and the access ends with an error (R399); to the control pair it is a firmware fault, after
which the firmware restarts (R37). -/
def Hw.bankUe (h : Hw) (b : Nat) (q : BankReq) : Hw :=
  let h := if q.master ≤ 1 ∧ h.fwRuns then h.fwRestart else h
  ((h.inc Reg.MEM_ECC_UE).post 1 0x0C01 (32 + b) (q.off / 8)).emit (.busError q.master (b * bankBytes + q.off))

/-- The access of the bank itself (R399, R404, R405): atomics on aligned words of 32 or 64 bits only. -/
def Hw.bankDo (h : Hw) (b : Nat) (q : BankReq) : Hw :=
  let a := b * bankBytes + q.off
  let w := a / 8
  let old := readMem h.mem.ram a q.width
  let ret (h : Hw) : Hw := h.emit (.bank q.master a (if q.en = 15 then old else selectBytes q.en old))
  let put (h : Hw) (v : Nat) : Hw := h.onMem (fun m => { m with ram := writeMem m.ram a q.width v })
  if 2 ≤ q.op ∧ (q.off % q.width ≠ 0 ∨ q.width < 4) then (h.emit (.bank q.master a 0)).inc Reg.MEM_BANK_DENIED
  else if q.op = 1 ∧ q.width = 8 ∧ q.off % 8 = 0 then
    put (h.onMem (fun m => { m with bad := without m.bad w })) q.value
  else
    let h := if q.ecc = 1 then h.inc Reg.MEM_ECC_CE
      else if q.ecc = 2 then h.onMem (fun m => { m with bad := insertNew m.bad w }) else h
    if h.mem.bad.contains w then h.bankUe b q
    else match q.op with
      | 0 => ret h
      | 1 => put h q.value
      | 2 => put (ret h) (old + q.value)
      | _ => put (ret h) q.value

/-- The access takes its slot of the bank (R404); the cycles it waited for it are counted (R406). -/
def Hw.bankServe (h : Hw) (b : Nat) (q : BankReq) : Hw :=
  let h := (h.add (Reg.MEM_CONFLICT q.master) (h.clk - q.at_)).onMem (fun m => { m with last := kvPut m.last b (h.clk, q.master) })
  h.bankDo b q

/-- A bank has served an access in this cycle. -/
def Hw.bankTaken (h : Hw) (b : Nat) : Bool := (kvGet h.mem.last b).map (·.1) == some h.clk

/-- An access cannot be served yet: its words are in test, or it is the new owner's and a CLEAR runs (R402, R412). -/
def Hw.bankHeld (h : Hw) (b : Nat) (q : BankReq) : Bool :=
  h.marchHolds b q.off || (h.bankFld b Fld.MEM_BANK_OWNER_CLEARING == 1 && h.bankFld b Fld.MEM_BANK_OWNER_OWNER == q.owner)

/-- A bank's wake from retention starts (R408). -/
def Hw.wakeBank (h : Hw) (b : Nat) : Hw :=
  (h.setBank b Fld.MEM_BANK_OWNER_WAKING 1).onMem (fun m => { m with wakeAt := kvPut m.wakeAt b h.clk })

/-- A March test begins. -/
def Hw.marchStart (h : Hw) (banks : List Nat) (keep : Bool) (slot : Option Nat) (delay : Nat) : Hw :=
  (h.onMem (fun m => { m with march := some ⟨banks, keep, 0, slot, h.clk + delay⟩ })).setFld Reg.MEM_STATUS Fld.MEM_STATUS_MARCH_BUSY 1

/-- Banks that were powered off are tested before their next use (R410, R441), once the engine is free. -/
def Hw.testBanks (h : Hw) (ks : List Nat) : Hw :=
  if ks.isEmpty || h.mem.march.isSome then h
  else (h.onMem (fun m => { m with off := m.off.filter (fun k => !ks.contains k) })).marchStart ks false none 0

/-- An access of a bank is served, waits or is refused (R400, R402, R404, R408, R412). -/
def Hw.bankAccess (h : Hw) (b : Nat) (q : BankReq) : Hw :=
  let wait (h : Hw) : Hw := h.onMem (fun m => { m with wait := kvMod m.wait b [] (· ++ [q]) })
  if h.bankFld b Fld.MEM_BANK_OWNER_OWNER ≠ q.owner then h.bankRefuse b q
  else if h.mem.off.contains (32 + b) then (wait h).testBanks [32 + b]
  else if h.bankFld b Fld.MEM_BANK_OWNER_RETAINED = 1 then
    if h.bankFld b Fld.MEM_BANK_OWNER_WAKING = 1 then wait h
    else if h.bankFld b Fld.MEM_BANK_OWNER_AUTO_WAKE = 1 then wait ((h.wakeBank b).inc Reg.MEM_WAKE_WAITS)
    else h.bankRefuse b q
  else if h.bankHeld b q || h.bankTaken b ||
      (kvGetD h.mem.wait b []).any (fun x => x.off / 8 == q.off / 8 || !h.bankHeld b x) then wait h
  else h.bankServe b q

/-- The waiting access a bank serves next, with its place in the queue: rotating order of masters, beginning after the one served last;
accesses of one word in their order of arrival (R404). -/
def Hw.bankPick (h : Hw) (b : Nat) : Option (BankReq × Nat) :=
  let l := kvGetD h.mem.wait b []
  let last := match kvGet h.mem.last b with | some x => x.2 | none => 7
  let free (i : Nat) (q : BankReq) : Bool := !h.bankHeld b q && (l.take i).all (fun x => x.off / 8 != q.off / 8)
  let turn (q : BankReq) : Nat := (q.master + 7 - last) % 8
  (l.zipIdx.filter (fun x => free x.2 x.1)).foldl (fun (w : Option (BankReq × Nat)) x => match w with
    | none => some x
    | some y => if turn x.1 < turn y.1 then some x else some y) none

/-- A bank serves one waiting access in a cycle. -/
def Hw.bankTurn (h : Hw) (b : Nat) : Hw :=
  if h.bankFld b Fld.MEM_BANK_OWNER_RETAINED = 1 || h.mem.off.contains (32 + b) || h.bankTaken b then h
  else match h.bankPick b with
    | none => h
    | some (q, i) =>
      let l := (kvGetD h.mem.wait b []).eraseIdx i
      (h.onMem (fun m => { m with wait := if l.isEmpty then kvDel m.wait b else kvPut m.wait b l })).bankServe b q

/-- A bank opens after a wake or a CLEAR: what waited for that competes for it from now on. -/
def Hw.bankResume (h : Hw) (b : Nat) : Hw :=
  (h.onMem (fun m => { m with wait := m.wait.map (fun (w : Nat × List BankReq) =>
    if w.1 == b then (w.1, w.2.map (fun q => { q with at_ := h.clk })) else w) })).bankTurn b

/-! ### Hand-over (R401, R402) -/

/-- The hand-over record: to owner 1 and to both owners. -/
def Hw.handover (h : Hw) (b old new : Nat) (pass : Bool) : Hw :=
  ([1, old, new].dedup).foldl (fun a o => a.post o 0x0C03 (32 + b) old new (if pass then 1 else 0)) h

/-- The mailbox slot that waits for a bank's hand-over completes. -/
def Hw.grantDone (h : Hw) (b : Nat) : Hw :=
  match kvGet h.mem.grants b with
  | none => h
  | some k => (h.onMem (fun m => { m with grants := kvDel m.grants b })).complete k cOk 0 []

/-- Firmware writes MEM_BANK_OWNER: PASS opens the bank at once, CLEAR, which wakes it from retention, once it is zero; held while a CLEAR runs. `slot` is the mailbox
slot of a MEM_BANK_GRANT. -/
def Hw.ownerWrite (h : Hw) (b new : Nat) (pass : Bool) (slot : Option Nat) : Hw :=
  if h.bankFld b Fld.MEM_BANK_OWNER_CLEARING = 1 then
    h.onMem (fun m => { m with pend := kvMod m.pend b [] (· ++ [(new, pass, slot)]) })
  else
    let old := h.bankFld b Fld.MEM_BANK_OWNER_OWNER
    let h := (h.setBank b Fld.MEM_BANK_OWNER_OWNER new).onMem (fun m => { m with grants := match slot with
      | some k => kvPut m.grants b k
      | none => m.grants })
    if pass then ((if h.mem.off.contains (32 + b) then h.testBanks [32 + b] else h).handover b old new true).grantDone b
    else
      let asleep := h.bankFld b Fld.MEM_BANK_OWNER_RETAINED == 1
      let h := if asleep && h.bankFld b Fld.MEM_BANK_OWNER_WAKING == 0 then h.wakeBank b else h
      let from_ := if asleep then kvGetD h.mem.wakeAt b h.clk + 20000 else h.clk
      (h.setBank b Fld.MEM_BANK_OWNER_CLEARING 1).onMem (fun m => { m with
        old := kvPut m.old b (old, from_), off := without m.off (32 + b) })

/-- A CLEAR ends: the bank is zero, opens to its owner, and a held owner write takes effect. A bank in retention was woken. -/
def Hw.clearEnd (h : Hw) (b : Nat) : Hw :=
  let old := (kvGetD h.mem.old b (1, 0)).1
  let h := h.onMem (fun m => { m with
    ram := clearMem m.ram (b * bankBytes) bankBytes
    bad := m.bad.filter (fun w => w * 8 / bankBytes != b)
    old := kvDel m.old b })
  let h := ((h.setBank b Fld.MEM_BANK_OWNER_CLEARING 0).setBank b Fld.MEM_BANK_OWNER_RETAINED 0).setBank b Fld.MEM_BANK_OWNER_WAKING 0
  let h := (h.handover b old (h.bankFld b Fld.MEM_BANK_OWNER_OWNER) false).grantDone b
  match kvGetD h.mem.pend b [] with
  | [] => h.bankResume b
  | (o, p, k) :: ps =>
    let o := if h.own.active.contains o && (kvGet h.own.tear o).isNone then o else 1
    ((h.onMem (fun m => { m with pend := kvPut m.pend b ps })).ownerWrite b o p k).bankResume b

/-- A bank enters retention once no access of it waits (R408), and the command that asked for it completes. -/
def Hw.tryRetain (h : Hw) (b : Nat) (slot : Option Nat) : Hw :=
  if (kvGetD h.mem.wait b []).isEmpty && h.bankFld b Fld.MEM_BANK_OWNER_CLEARING == 0 && !h.marching.contains (32 + b)
      && !h.mem.off.contains (32 + b) then
    let h := (h.onMem (fun m => { m with retReq := kvDel m.retReq b })).setBank b Fld.MEM_BANK_OWNER_RETAINED 1
    match slot with
    | some k => h.complete k cOk 0 []
    | none => h
  else h

/-- One cycle of the general banks: each serves one access that waits for it, and an idle one enters retention. -/
def Hw.tickBanks (h : Hw) : Hw :=
  let h := h.mem.retReq.foldl (fun a r => a.tryRetain r.1 r.2) h
  (h.mem.wait.map (·.1)).foldl Hw.bankTurn h

end Sys2Proof.Machine
end

