-- ==== Sys2Proof/Machine/Tick.lean ====
section
/-!
DEFINITION. One 2 ns cycle of CK_TSU and CK_FAB with no command (DESIGN CHOICE, log entry 4): every running time base counts (R274),
the class 5 and 6 credits move (R130), MACs preempt (R128), the microseconds that sources and reads wait are counted (R59, R319), the
general banks serve what waits (R404), and the control firmware applies a change record (R82) and takes what its queues hold (R76,
R77; log entry 158).
-/
namespace Sys2Proof.Machine

/-- A base counts one cycle: 2 ns at its rate, 2^48 + ADJ units of 2^-47 ns (R274, R275). -/
def Hw.tickBase (h : Hw) (b : Nat) : Hw :=
  let d := ((2 ^ 48 : Int) + adjInt (h.adj b)).toNat
  { h with tim := { h.tim with base := kvMod h.tim.base b 0 (fun x => (x + d) % tbSpan), run := kvMod h.tim.run b 0 (· + d) } }

/-- A frame of class `c` is on the line of a MAC: the transmission on top, unless it is suspended. -/
def Hw.sendingClass (h : Hw) (e c : Nat) : Bool :=
  match h.txTop e with
  | some (t, f) => !t.susp && f.cls == c
  | none => false

/-- A class of a MAC has a frame that waits, granted ones that have not begun among them (R130). -/
def Hw.classWaits (h : Hw) (e c : Nat) : Bool :=
  h.swc.frames.any (fun f => f.cls == c && !f.dead &&
    f.copies.any (fun x => x.egress == e && (x.st == CopyState.waiting || x.st == CopyState.granted)))

/-- The head frame of a class is held only because it does not fit the open time left (R122, R130). -/
def Hw.heldByFit (h : Hw) (e c : Nat) : Bool :=
  match h.oldest e c with
  | some f => !h.fits e c (h.chargeLen f e) && h.shaperOk e c (h.chargeLen f e) && !h.paused e c
  | none => false

/-- The credit of a shaped class moves for one cycle (R130): falls at port rate less IDLE_SLOPE while it sends, is frozen while its
gate is closed, rises at IDLE_SLOPE up to HI_CREDIT while the class waits, unless only R122 holds it, and while it is below 0;
what is positive is dropped when nothing waits. Units: 1/500,000 bit, one kb/s for one 2 ns cycle. -/
def Hw.tickCredit (h : Hw) (i : Nat) : Hw :=
  let e := i / 2
  let c := 5 + i % 2
  if !h.flag (Reg.TSS_CBS_IDLE i) Fld.TSS_CBS_IDLE_EN then h
  else
    let slope : Int := h.fld (Reg.TSS_CBS_IDLE i) Fld.TSS_CBS_IDLE_IDLE_SLOPE
    let hi : Int := h.rn (Reg.TSS_CBS_HICREDIT i) * 500000
    let v := kvGetD h.tss.credit i 0
    let v' : Int :=
      if h.sendingClass e c then v + slope - h.portRate e
      else if !h.gateOpen e c then v
      else if v < 0 then min (v + slope) (if h.classWaits e c then hi else 0)
      else if !h.classWaits e c then 0
      else if h.heldByFit e c then v
      else min (v + slope) hi
    h.onTss (fun t => { t with credit := kvPut t.credit i v' })

/-- Preemption in one cycle (R128, R129): a MAC with a notice or a hold suspends the preemptable frame under way at the first point it
can be cut, and a suspended one goes on once nothing holds it and no express frame is above it. -/
def Hw.tickPreempt (h : Hw) (e : Nat) : Hw := if h.preemptHeld e then h.suspend e else h.resume e

/-- The control firmware takes the oldest sample of its queue (R76; log entry 158). -/
def Hw.tickSample (h : Hw) : Hw :=
  match h.swc.samples.find? (fun s => s.queue == 14876) with
  | some s => (match h.sampleBytes s with
    | some b => h.emit (.cpu 14876 b)
    | none => h).dropSample s.cell
  | none => h

/-- The control firmware takes the oldest loss record (R77; log entry 158). -/
def Hw.tickLoss (h : Hw) : Hw :=
  match h.swc.lossQ with
  | l :: ls => (h.onSwc (fun s => { s with lossQ := ls })).emit (.cpu 14878 (lossRecord l.2))
  | [] => h

/-- A source of an internal port lacks credit for the frame it would start (R59). -/
def Hw.srcStalled (h : Hw) (port : Nat) : Bool :=
  ((kvGetD h.swc.srcWait port []).head?.any (fun f => !h.hasCredit port f)) ||
    (port == 24 && h.hdma.ring.any (fun r => r.2.reading.any (·.stalled)))

/-- What waits in one cycle is counted. -/
def Hw.tickWaits (h : Hw) : Hw :=
  let h := ((List.range 7).map (24 + ·)).foldl (fun a p => if a.srcStalled p then a.stall p else a) h
  if h.nextRead.any (fun q => !h.readFits q) then h.readWaits else h

/-- One cycle without a command. -/
def Hw.tick (h : Hw) : Hw :=
  let h := { h with clk := h.clk + 1 }
  let h := if h.flag Reg.TIME_STATUS Fld.TIME_STATUS_READY then (List.range 8).foldl Hw.tickBase h else h
  let h := if h.flag Reg.TSS_STATUS Fld.TSS_STATUS_READY then
      (List.range 20).foldl Hw.tickPreempt ((List.range 48).foldl Hw.tickCredit h) else h
  let h := h.tickWaits.tickBanks
  if h.fwRuns then h.applyChange.tickSample.tickLoss else h

end Sys2Proof.Machine
end

