-- ==== Sys2Proof/Machine/CanOps.lean ====
section
/-!
DEFINITION. Operations of the CAN controllers (R204 to R227): message records, timestamps, priority, frame times, filters,
receive queues, error counting, requests, the schedule matrix.
-/
namespace Sys2Proof.Machine

/-- A controller with nothing queued. -/
def CanC.init : CanC := ⟨[], [], false, false, [], [], [], none, false, false, [], [], [], [], none, [], false, none⟩

/-- A CAN controller. -/
def Hw.can (h : Hw) (c : Nat) : CanC := kvGetD h.fbus.can c CanC.init

/-- Update a CAN controller. -/
def Hw.onCan (h : Hw) (c : Nat) (f : CanC → CanC) : Hw :=
  { h with fbus := { h.fbus with can := kvMod h.fbus.can c CanC.init f } }

/-- A field of CAN_CFG. -/
def Hw.canCfg (h : Hw) (c : Nat) (f : Field) : Nat := h.fld (Reg.CAN_CFG c) f

/-- Error state of a controller: 0 active, 1 passive, 2 bus-off. -/
def Hw.canErr (h : Hw) (c : Nat) : Nat := h.fld (Reg.CAN_STATUS c) Fld.CAN_STATUS_ERR_STATE

/-- A controller takes part in the bus: enabled, integrated (R206) and not bus-off (R215). -/
def Hw.canOn (h : Hw) (c : Nat) : Bool :=
  decide (c < 48) && h.flag (Reg.CAN_CFG c) Fld.CAN_CFG_EN && h.flag (Reg.CAN_STATUS c) Fld.CAN_STATUS_SYNC && h.canErr c != 2

/-- Mode in force: 0 NORMAL, 1 LISTEN_ONLY, 2 LOOPBACK. -/
def Hw.canMode (h : Hw) (c : Nat) : Nat := h.fld (Reg.CAN_STATUS c) Fld.CAN_STATUS_MODE_NOW

/-! ### Message records (R208) -/

/-- Word 0 with TS_VALID, TS_SOFT and base replaced; TS_VALID as the base stood `ago` cycles before. -/
def Hw.stampWord (h : Hw) (w0 b ago : Nat) (soft : Bool) : Nat :=
  w0 / 2 ^ 17 * 2 ^ 17 + (if h.unsetAgo b ago then 0 else 2 ^ 16) + (if soft then 2 ^ 15 else 0) + b * 2 ^ 12 + w0 % 2 ^ 12

/-- Zero bytes up to the next multiple of four. -/
def pad4 (l : List Byte) : List Byte := l ++ List.replicate ((4 - l.length % 4) % 4) 0

/-- Words of data bytes, the last filled with zeros. -/
def dataWords (l : List Byte) : List Nat := wordsOf (l.length / 4 + 1) (pad4 l)

/-- A whole record with its timestamp words: the base as it stood `ago` cycles before, at the sample point of its start of frame
(R220). -/
def Hw.record (h : Hw) (b ago : Nat) (soft : Bool) (w0 w1 w2 : Nat) (data : List Byte) : List Nat :=
  let ns := stampNs (h.stampsAgo ago) b
  [h.stampWord w0 b ago soft, w1, w2, ns / 1000000000 % 2 ^ 32, ns % 1000000000] ++ dataWords data

/-- Word 0 of a record of a controller: KIND, controller, flags of `w0`, length. -/
def recWord0 (kind ctl w0 len : Nat) : Nat := kind * 2 ^ 28 + ctl * 2 ^ 22 + bits w0 21 17 * 2 ^ 17 + len

/-- KIND of a record. -/
def recKind (ws : List Nat) : Nat := bits (ws.getD 0 0) 31 28

/-- Data length of a record. -/
def recLen (ws : List Nat) : Nat := ws.getD 0 0 % 2 ^ 12

/-- Data bytes of a record with (5 header words) or without (3) timestamp words. -/
def recData (hdr : Nat) (ws : List Nat) : List Byte := (bytesOf (ws.drop hdr)).take (recLen ws)

/-- Bytes a record occupies. -/
def recSize (ws : List Nat) : Nat := ws.length * 4

/-- A flag of word 0. -/
def recBit (ws : List Nat) (i : Nat) : Bool := (ws.getD 0 0).testBit i

/-- The identifier as filters and rules compare it: word 1 bits 28:0, an XL priority identifier in bits 28:18. -/
def recIdent (ws : List Nat) : Nat :=
  if recKind ws = 2 then ws.getD 1 0 % 2 ^ 11 * 2 ^ 18 else ws.getD 1 0 % 2 ^ 29

/-- The arbitration field as a number, lower wins (ISO 11898-1): base identifier, RTR or SRR, IDE, extension, RTR. -/
def arbKey (ws : List Nat) : Nat :=
  let id := recIdent ws
  let rtr := if recBit ws 20 then 1 else 0
  if recBit ws 21 && recKind ws != 2 then id / 2 ^ 18 * 2 ^ 21 + 2 ^ 20 + 2 ^ 19 + id % 2 ^ 18 * 2 + rtr
  else id / 2 ^ 18 * 2 ^ 21 + rtr * 2 ^ 20

/-! ### Frame times (R209, R225) -/

/-- CK_CAN cycles of a nominal bit. -/
def nomBit (w : Nat) : Nat := (bits w 31 23 + 1) * (3 + bits w 22 15 + bits w 14 8)

/-- CK_CAN cycles of a data bit. -/
def datBit (w : Nat) : Nat := (bits w 28 24 + 1) * (3 + bits w 21 16 + bits w 12 8)

/-- Worst-case bits of a frame in the nominal and the data phase, stuff bits and intermission included (ISO 11898-1). -/
def worstBits (ws : List Nat) : Nat × Nat :=
  let n := recLen ws
  let ext := recBit ws 21
  match recKind ws with
  | 0 =>
    let s := (if ext then 54 else 34) + (if recBit ws 20 then 0 else 8 * n)
    (s + (s - 1) / 4 + 13, 0)
  | 1 =>
    let a := if ext then 36 else 17
    let d := 5 + 8 * n
    let crc := if n ≤ 16 then 27 else 32
    if recBit ws 19 then (a + (a - 1) / 4 + 13, d + d / 4 + crc) else (a + d + (a + d - 1) / 4 + crc + 13, 0)
  | _ => (18 + 4 + 13, 115 + 8 * n + (115 + 8 * n) / 10)

/-- Worst-case frame time on a controller's bus in ns. -/
def Hw.frameTime (h : Hw) (c : Nat) (ws : List Nat) : Nat :=
  let b := worstBits ws
  (b.1 * nomBit (h.rn (Reg.CAN_NBT c)) + b.2 * datBit (h.rn (Reg.CAN_DBT c))) * 25 / 2

/-! ### Receiving (R216 to R219) -/

/-- The action of the filter table for a frame, with the matching pair: 0 none, 1 RXQ0, 2 RXQ1, 3 reject. -/
def Hw.filterOf (h : Hw) (c fmt ident : Nat) (ide : Bool) : Nat × Nat :=
  match (List.range 64).find? (fun i =>
      let v := h.rn (Reg.CAN_FILT_VAL c i)
      let m := h.rn (Reg.CAN_FILT_MASK c i)
      getF v Fld.CAN_FILT_VAL_ACTION != 0 && (ident &&& m % 2 ^ 29) == (v % 2 ^ 29 &&& m % 2 ^ 29)
        && (v.testBit 29 == ide) && m.testBit (31 - fmt)) with
  | some i => (h.fld (Reg.CAN_FILT_VAL c i) Fld.CAN_FILT_VAL_ACTION, i)
  | none => ([3, 1, 2, 3].getD (h.canCfg c Fld.CAN_CFG_NOMATCH) 3, 0)

/-- Bytes of receive storage of a queue (R218). -/
def Hw.rxStorage (h : Hw) (c q : Nat) : Nat :=
  let k := h.fld (Reg.CAN_RXQ_CFG c) Fld.CAN_RXQ_CFG_RXQ0_KIB
  if q = 0 then k * 1024 else (16 - k) * 1024

/-- Entries of a receive queue. -/
def CanC.rx (x : CanC) (q : Nat) : List (Nat × List Nat) := if q = 0 then x.rx0 else x.rx1

/-- The head of a receive queue is locked (R219). -/
def CanC.lock (x : CanC) (q : Nat) : Bool := if q = 0 then x.lock0 else x.lock1

/-- Replace the entries of a receive queue. -/
def CanC.setRx (x : CanC) (q : Nat) (l : List (Nat × List Nat)) : CanC :=
  if q = 0 then { x with rx0 := l } else { x with rx1 := l }

/-- Lock or unlock the head of a receive queue. -/
def CanC.setLock (x : CanC) (q : Nat) (b : Bool) : CanC := if q = 0 then { x with lock0 := b } else { x with lock1 := b }

/-- Bytes a queue's entries occupy. -/
def rxBytes (l : List (Nat × List Nat)) : Nat := (l.map (fun e => recSize e.2)).sum

/-- Discard the oldest entries behind a kept head until the rest takes at most `room` bytes; the entries kept and how many were
discarded. -/
def shedOld : (keep room : Nat) → List (Nat × List Nat) → List (Nat × List Nat) × Nat
  | _, _, [] => ([], 0)
  | 0, room, e :: es => if rxBytes (e :: es) ≤ room then (e :: es, 0) else ((shedOld 0 room es).1, (shedOld 0 room es).2 + 1)
  | k + 1, room, e :: es => let r := shedOld k (room - recSize e.2) es; (e :: r.1, r.2)

/-- Queue number of a CAN controller queue (R30). -/
def canQueue (c q : Nat) : Nat := 12288 + c * 32 + q

/-- Frames lost on a receive queue are counted and reported (R218). -/
def Hw.rxLost (h : Hw) (c q n : Nat) : Hw :=
  (List.range n).foldl (fun a _ => (a.inc (Reg.CAN_RXQ_OVF c q)).postMod 0x0701 (canQueue c q)) h

/-- A completed frame enters a receive queue, or is lost (R218). -/
def Hw.rxPut (h : Hw) (c q : Nat) (ws : List Nat) : Hw :=
  let x := h.can c
  let l := x.rx q
  let cap := h.rxStorage c q
  let over_ := h.flag (Reg.CAN_RXQ_CFG c) (if q = 0 then Fld.CAN_RXQ_CFG_OVERWRITE0 else Fld.CAN_RXQ_CFG_OVERWRITE1)
  if rxBytes l + recSize ws ≤ cap then
    (h.onCan c (fun x => x.setRx q (l ++ [(h.clk, ws)]))).inc (Reg.CAN_RX_OK c)
  else if !over_ then h.rxLost c q 1
  else
    let r := shedOld (if x.lock q then 1 else 0) (cap - recSize ws) l
    if rxBytes r.1 + recSize ws ≤ cap then
      ((h.onCan c (fun x => x.setRx q (r.1 ++ [(h.clk, ws)]))).rxLost c q r.2).inc (Reg.CAN_RX_OK c)
    else h.rxLost c q 1

/-- A frame received without error is filtered and queued (R216); its record has the queue and filter index in word 2 for the
kinds that hold them there, and 0 in the bits of word 1 that R208 does not name. -/
def Hw.canAccept (h : Hw) (c fmt w0 w1 w2 : Nat) (data : List Byte) (age : Nat) : Hw :=
  let ident := if fmt = 2 then w1 % 2 ^ 11 * 2 ^ 18 else w1 % 2 ^ 29
  let f := h.filterOf c fmt ident (fmt != 2 && w0.testBit 21)
  if f.1 = 3 then h.inc (Reg.CAN_RX_REJECT c)
  else
    let q := f.1 - 1
    let word2 := if fmt = 2 then w2 else q * 2 ^ 8 + f.2
    h.rxPut c q (h.record (h.canCfg c Fld.CAN_CFG_TB) age false (recWord0 fmt c w0 data.length)
      (if fmt = 2 then bits w1 31 16 * 2 ^ 16 + w1 % 2 ^ 11 else w1 % 2 ^ 29) word2 data)

/-- The consumer takes the head of a receive queue. -/
def Hw.rxPop (h : Hw) (c q : Nat) : Option (List Nat) × Hw :=
  match (h.can c).rx q with
  | [] => (none, h)
  | e :: es => (some e.2, h.onCan c (fun x => (x.setRx q es).setLock q false))

/-! ### Errors (R214, R215) -/

/-- The slot frame on the bus, if any, leaves it without being sent; one whose window has ended is missed. -/
def Hw.schedMiss (h : Hw) (c slot : Nat) : Hw :=
  let cyc := match (h.can c).cycle with | some x => x.1 | none => 0
  (h.inc (Reg.CAN_SCHED_MISS c)).postMod 0x0704 c (some (cyc * 2 ^ 16 + slot))

/-- The frame on the bus is not sent: it is offered again at the next bus idle (R222). A slot frame whose window ended while it was on
the bus is missed. -/
def Hw.canUnsent (h : Hw) (c : Nat) : Hw :=
  match (h.can c).sending with
  | none => h
  | some r =>
    let h := (h.onCan c (fun x => { x with sending := none })).setFld (Reg.CAN_STATUS c) Fld.CAN_STATUS_TX_BUSY 0
    match r.slot with
    | some s => if (h.can c).live.any (fun l => l.slot == some s) then h else h.schedMiss c s
    | none => h

/-- Show error counters and the state they give (ISO 11898-1). -/
def Hw.setErr (h : Hw) (c tec rec_ : Nat) : Hw :=
  let st := if 256 ≤ tec then 2 else if 128 ≤ tec ∨ 128 ≤ rec_ then 1 else 0
  (h.wn (Reg.CAN_ERR c) (st * 2 ^ 30 + min rec_ 255 * 2 ^ 16 + min tec 511)).setFld (Reg.CAN_STATUS c)
    Fld.CAN_STATUS_ERR_STATE st

/-- Delay compensation measured on an FD or XL frame the controller transmits on its bus (R211). -/
def Hw.measureTdc (h : Hw) (c kind tdcv : Nat) : Hw :=
  let t := h.rn (Reg.CAN_TDC c)
  if getF t Fld.CAN_TDC_EN = 1 ∧ kind ≠ 0 ∧ h.canMode c ≠ 2 then
    let h := h.setFld (Reg.CAN_TDC c) Fld.CAN_TDC_TDCV (min tdcv 255)
    if 255 < tdcv + getF t Fld.CAN_TDC_TDCO then h.inc (Reg.CAN_TDC_SAT c) else h
  else h

/-- The secondary sample point of a frame's data phase: TDCV + TDCO, held at 255 (R211). -/
def Hw.sampleAt (h : Hw) (c kind : Nat) : Option Nat :=
  let t := h.rn (Reg.CAN_TDC c)
  if getF t Fld.CAN_TDC_EN = 1 ∧ kind ≠ 0 then some (min 255 (getF t Fld.CAN_TDC_TDCV + getF t Fld.CAN_TDC_TDCO)) else none

/-- The PWM phases and offset of a frame sent in the transceiver's fast mode (R212). -/
def Hw.fastMode (h : Hw) (c kind : Nat) : Option (Nat × Nat × Nat) :=
  let w := h.rn (Reg.CAN_XL_PWM c)
  if kind = 2 ∧ h.canCfg c Fld.CAN_CFG_XL_TMS = 1 then some (bits w 7 0, bits w 15 8, bits w 23 16) else none

/-- A transmitter's error leaves TEC where ISO 11898-1 has its exceptions: a passive transmitter's acknowledgement error with no dominant
bit in its error flag, and a recessive stuff bit read dominant in arbitration. -/
def tecStays (type was : Nat) (severe : Bool) : Bool := !severe && (decide (type = 4) && was == 1 || decide (type = 2))

/-- The frame on the bus of a transmitting controller meets an error: its delay measurement stands where its edge had passed (R211), and
its error flag is on the bus. -/
def Hw.txBroken (h : Hw) (c : Nat) (tdcv : Option Nat) : Hw :=
  match (h.can c).sending, tdcv with
  | some r, some v => ((h.measureTdc c (recKind r.msg) v).canUnsent c).onCan c (fun x => { x with erring := true })
  | _, _ => (h.canUnsent c).onCan c (fun x => { x with erring := true })

/-- An error on a controller (R214): counted by type, the counters move, a record when enabled, bus-off (R215). -/
def Hw.canError (h : Hw) (c type : Nat) (tx severe : Bool) (age : Nat) (tdcv : Option Nat) : Hw :=
  let h := h.inc (Reg.CAN_ERR_TYPE c (type - 1))
  let e := h.rn (Reg.CAN_ERR c)
  let tec := getF e Fld.CAN_ERR_TEC
  let rc := getF e Fld.CAN_ERR_REC
  let was := h.canErr c
  let h :=
    if tx then h.setErr c (if tecStays type was severe then tec else tec + 8) rc
    else h.setErr c tec (rc + if severe then 8 else 1)
  let e := h.rn (Reg.CAN_ERR c)
  let h := if h.flag (Reg.CAN_CFG c) Fld.CAN_CFG_ERR_REC_EN then
      (if Config.queueMore (canQueue c 4) < (h.can c).errq.length then h.inc (Reg.CAN_ERR_REC_LOST c)
       else
        let r := h.record (h.canCfg c Fld.CAN_CFG_TB) age false (recWord0 4 c 0 0) type
          (getF e Fld.CAN_ERR_TEC * 2 ^ 16 + getF e Fld.CAN_ERR_REC * 2 ^ 8) []
        h.onCan c (fun x => { x with errq := x.errq ++ [(h.clk, r)] }))
    else h
  let h := if tx then h.txBroken c tdcv else h
  if h.canErr c = 2 then
    ((h.inc (Reg.CAN_BUS_OFF c)).post 1 0x0702 c (getF e Fld.CAN_ERR_TEC * 2 ^ 16 + getF e Fld.CAN_ERR_REC * 2 ^ 8)).fire [136 + c]
  else h

/-! ### Requests (R221) -/

/-- The event transmit queue of a controller. -/
def Hw.txqLen (h : Hw) (c : Nat) : Nat := (h.can c).txq.length

/-- The controller takes part in frames of a kind (R207): FD and XL when enabled. -/
def Hw.canFormat (h : Hw) (c kind : Nat) : Bool :=
  match kind with
  | 0 => true
  | 1 => h.flag (Reg.CAN_CFG c) Fld.CAN_CFG_FD_EN
  | _ => h.flag (Reg.CAN_CFG c) Fld.CAN_CFG_XL_EN

/-- A request enters the event transmit queue, or is refused when 32 are there, or when its format is not enabled (log entry 162). -/
def Hw.canRequest (h : Hw) (c : Nat) (msg : List Nat) : Bool × Hw :=
  if !h.canFormat c (recKind msg) then (false, h)
  else if 32 ≤ h.txqLen c then (false, h.inc (Reg.CAN_TXQ_FULL c))
  else (true, h.onCan c (fun x => { x with txq := x.txq ++ [⟨msg, h.clk, none, 0, false⟩] }))

/-- One request goes before another: a higher priority, then the earlier arrival. -/
def CanReq.before (a b : CanReq) : Bool :=
  decide (arbKey a.msg < arbKey b.msg) || (arbKey a.msg == arbKey b.msg && decide (a.at_ < b.at_))

/-- The request of highest priority, earlier ones first, then those first in the list. -/
def bestReq : List CanReq → Option CanReq
  | [] => none
  | r :: rs => match bestReq rs with
    | some b => if b.before r then some b else some r
    | none => some r

/-- Remove the first occurrence of a request. -/
def dropReq (r : CanReq) : List CanReq → List CanReq
  | [] => []
  | x :: xs => if x = r then xs else x :: dropReq r xs

/-! ### The schedule matrix (R223 to R227) -/

/-- A cell of the matrix: the buffer it names. -/
def Hw.cellOf (h : Hw) (c cyc slot : Nat) : Option Nat :=
  let b := h.rn (Reg.CAN_SCHED_CELL c ((cyc * 64 + slot) / 4)) / 256 ^ (slot % 4) % 256
  if b.testBit 7 then some (b % 64) else none

/-- Basic cycles of the matrix. -/
def Hw.ncyc (h : Hw) (c : Nat) : Nat := 2 ^ h.fld (Reg.CAN_SCHED_CFG c) Fld.CAN_SCHED_CFG_NCYC

/-- CYCLE_NS. -/
def Hw.cycNs (h : Hw) (c : Nat) : Nat := h.rn (Reg.CAN_SCHED_CYCLE_NS c)

/-- Nanoseconds of the schedule's time base. -/
def Hw.schedNow (h : Hw) (c : Nat) : Nat := h.tbNs (h.fld (Reg.CAN_SCHED_CFG c) Fld.CAN_SCHED_CFG_TB)

/-- BASE in ns: the low 32 bits of seconds are completed from the time base. -/
def Hw.schedBase (h : Hw) (c : Nat) : Nat :=
  (h.schedNow c / 1000000000 / 2 ^ 32 * 2 ^ 32 + h.rn (Reg.CAN_SCHED_BASE_S c)) * 1000000000 + h.rn (Reg.CAN_SCHED_BASE_NS c)

/-- Nanoseconds of the schedule's time base with its steps left out, by which a basic cycle in force keeps its slots (R227). -/
def Hw.schedRun (h : Hw) (c : Nat) : Nat := h.runRaw (h.fld (Reg.CAN_SCHED_CFG c) Fld.CAN_SCHED_CFG_TB) / nsUnit

/-- The first matrix start that is not in the past (R223, R227). -/
def Hw.matrixStart (h : Hw) (c : Nat) : Nat :=
  let span := h.ncyc c * h.cycNs c
  let late := h.schedNow c - h.schedBase c
  h.schedBase c + (if span = 0 then 0 else (late + span - 1) / span * span)

/-- An instant of the schedule's time base, in ns of `schedRun`. -/
def Hw.schedAt (h : Hw) (c t : Nat) : Nat := h.schedRun c + t - h.schedNow c

/-- The frame a message buffer sends at a slot start: one written in this cycle sends its previous copy (R226). -/
def Hw.bufferNow (h : Hw) (c b : Nat) : Option (List Nat) :=
  match kvGet (h.can c).prev b with
  | some p => if p.1 = h.clk then p.2 else kvGet (h.can c).buf b
  | none => kvGet (h.can c).buf b

/-- A message buffer takes a frame; its previous copy is kept for a slot that starts in this cycle (R226). -/
def Hw.bufferWrite (h : Hw) (c b : Nat) (msg : List Nat) : Hw :=
  let p := (h.clk, h.bufferNow c b)
  h.onCan c (fun x => { x with buf := kvPut x.buf b msg, prev := kvPut x.prev b p })

/-- An EXCL slot of a basic cycle that names a buffer. -/
def Hw.exclSlot (h : Hw) (c cyc s : Nat) : Bool :=
  let w := h.rn (Reg.CAN_SCHED_SLOT c s)
  w.testBit 31 && w.testBit 30 && (h.cellOf c cyc s).isSome

/-- A controller's schedule with the writes that wait for a basic cycle. -/
def Hw.schedNext (h : Hw) (c : Nat) : Hw := (h.can c).sched.foldl (fun a w => a.wn w.1 w.2) h

/-- The basic cycle that comes next and its start: matrix cycle 0 where a start is awaited, else the one after the cycle in force. -/
def Hw.nextCycle (h : Hw) (c : Nat) : Option (Nat × Nat) :=
  match (h.can c).startAt with
  | some t => some (0, h.schedAt c t)
  | none => (h.can c).cycle.map (fun x => ((x.1 + 1) % h.ncyc c, x.2 + h.cycNs c))

/-- The guard of an EXCL slot of a basic cycle runs: GUARD_US before its START (R224). -/
def Hw.guardRuns (h : Hw) (c : Nat) (cyc : Nat × Nat) : Bool :=
  (List.range 64).any (fun s =>
    let t := cyc.2 + h.rn (Reg.CAN_SCHED_SLOT c s) % 2 ^ 30
    h.exclSlot c cyc.1 s && decide (h.schedRun c < t)
      && decide (t ≤ h.schedRun c + h.fld (Reg.CAN_SCHED_CFG c) Fld.CAN_SCHED_CFG_GUARD_US * 1000))

/-- The event queue may start no frame: an EXCL slot's guard runs, or its frame is not yet sent or abandoned (R224). -/
def Hw.exclBlocks (h : Hw) (c : Nat) : Bool :=
  (h.can c).cycle.any (h.guardRuns c) || (h.nextCycle c).any ((h.schedNext c).guardRuns c)
    || (h.can c).live.any (fun r => match r.slot with | some s => (h.rn (Reg.CAN_SCHED_SLOT c s)).testBit 30 | none => false)

/-- The slot frames that may be offered now: an EXCL frame at its first offer, and while its frame time fits its window; an arbitrating
one within its window (R224). -/
def Hw.slotOffers (h : Hw) (c : Nat) : List CanReq :=
  (h.can c).live.filter (fun r => h.canFormat c (recKind r.msg) && match r.slot with
    | none => false
    | some s => !(h.rn (Reg.CAN_SCHED_SLOT c s)).testBit 30 || !r.tried || decide (h.schedRun c + h.frameTime c r.msg ≤ r.until_))

/-- The request a controller offers at bus idle. -/
def Hw.canOffer (h : Hw) (c : Nat) : Option CanReq :=
  let sl := h.slotOffers c
  let excl := sl.filter (fun r => match r.slot with | some s => (h.rn (Reg.CAN_SCHED_SLOT c s)).testBit 30 | none => false)
  if h.exclBlocks c then bestReq excl else bestReq (sl ++ (h.can c).txq.filter (fun r => h.canFormat c (recKind r.msg)))

/-- Requests older than TX_MAX_AGE_MS when they would be offered are discarded (R222). -/
def Hw.offerFresh (h : Hw) (c : Nat) : Nat → Option CanReq × Hw
  | 0 => (none, h)
  | n + 1 =>
    match h.canOffer c with
    | none => (none, h)
    | some r =>
      let lim := h.fld (Reg.CAN_TXQ_CFG c) Fld.CAN_TXQ_CFG_TX_MAX_AGE_MS
      if r.slot.isNone && decide (0 < lim) && decide (lim * 500000 < h.clk - r.at_) then
        ((h.inc (Reg.CAN_TX_AGED c)).onCan c (fun x => { x with txq := dropReq r x.txq })).offerFresh c n
      else (some r, h)

end Sys2Proof.Machine
end

