-- ==== Sys2Proof/Machine/Lin.lean ====
section
/-!
DEFINITION. The LIN controllers (R230 to R236): schedule tables, headers, responses, errors and status.
-/
namespace Sys2Proof.Machine

/-- A LIN controller with nothing queued. -/
def LinC.init : LinC := ⟨[], [], [], none, none, none, none, false, 0, none⟩

/-- A LIN controller. -/
def Hw.lin (h : Hw) (l : Nat) : LinC := kvGetD h.fbus.lin l LinC.init

/-- Update a LIN controller. -/
def Hw.onLin (h : Hw) (l : Nat) (f : LinC → LinC) : Hw :=
  { h with fbus := { h.fbus with lin := kvMod h.fbus.lin l LinC.init f } }

/-- A LIN controller is enabled and its block ready. -/
def Hw.linOn (h : Hw) (l : Nat) : Bool :=
  decide (l < 16) && h.flag (Reg.LIN_CFG l) Fld.LIN_CFG_EN && h.flag Reg.FBUS_STATUS Fld.FBUS_STATUS_LIN_READY

/-- The controller is a responder. -/
def Hw.linResponder (h : Hw) (l : Nat) : Bool := h.flag (Reg.LIN_CFG l) Fld.LIN_CFG_ROLE

/-- Queue number of a LIN controller queue (R30). -/
def linQueue (l q : Nat) : Nat := 13824 + l * 16 + q

/-- The protected identifier of an identifier: two parity bits above it (ISO 17987). -/
def linPid (id : Nat) : Nat :=
  let b (i : Nat) : Nat := id / 2 ^ i % 2
  id % 64 + (b 0 + b 1 + b 2 + b 4) % 2 * 64 + (1 + b 1 + b 3 + b 4 + b 5) % 2 * 128

/-- The checksum is the enhanced one: never for 0x3C and 0x3D (R231). -/
def Hw.linEnhanced (h : Hw) (l id : Nat) : Bool :=
  h.flag (Reg.LIN_FRAME l id) Fld.LIN_FRAME_ENHANCED && id != 0x3C && id != 0x3D

/-- The LIN checksum: inverted sum with carry over the data, and over the protected identifier when enhanced. -/
def linSum (enhanced : Bool) (pid : Nat) (data : List Byte) : Nat :=
  255 - (data.foldl (fun a b => if 256 ≤ a + b.toNat then a + b.toNat - 255 else a + b.toNat) (if enhanced then pid else 0)) % 256

/-- Length of the response of an identifier. -/
def Hw.linLen (h : Hw) (l id : Nat) : Nat :=
  if id = 0x3C ∨ id = 0x3D then 8 else h.fld (Reg.LIN_FRAME l id) Fld.LIN_FRAME_LENGTH

/-- A KIND 6 record of an error or status goes to queue 2 (R234, R235), stamped in software (R236); firmware takes it. -/
def Hw.linRecord (h : Hw) (l type : Nat) : Hw :=
  let r := h.record (h.fld (Reg.LIN_CFG l) Fld.LIN_CFG_TB) 0 true (recWord0 6 l 0 0) type 0 []
  h.emit (.cpu (linQueue l 2) (bytesOf r))

/-- Counter of an error type: bit, parity, framing, checksum, no response, partial, collision. -/
def linCounter (type : Nat) : Nat := [0, 0, 3, 2, 1, 4, 5, 6].getD type 0

/-- An error is counted and recorded (R234). -/
def Hw.linError (h : Hw) (l type : Nat) : Hw := (h.inc (Reg.LIN_ERR l (linCounter type))).linRecord l type

/-- The schedule entry in force. -/
def Hw.linEntry (h : Hw) (l : Nat) : Nat :=
  let s := h.rn (Reg.LIN_STATUS l)
  h.rn (Reg.LIN_SCHED l (getF s Fld.LIN_STATUS_TABLE) (getF s Fld.LIN_STATUS_ENTRY))

/-- Identifiers of a sporadic set, highest rank first. -/
def Hw.sporadicIds (h : Hw) (l set : Nat) : List Nat :=
  (List.range 4).filterMap (fun i =>
    let b := h.rn (Reg.LIN_SPORADIC l set) / 256 ^ i % 256
    if b.testBit 7 then some (b % 64) else none)

/-- An identifier is event-triggered or sporadic: an entry of type 1 or a sporadic set names it. -/
def Hw.linMarked (h : Hw) (l id : Nat) : Bool :=
  (List.range 256).any (fun i =>
    let w := h.rn (Reg.LIN_SCHED l (i / 64) (i % 64))
    w.testBit 31 && getF w Fld.LIN_SCHED_TYPE == 1 && getF w Fld.LIN_SCHED_ID == id) ||
  (List.range 16).any (fun k => (h.sporadicIds l k).contains id)

/-- Data of a publish buffer, filled with zeros to the frame's length. -/
def Hw.pubData (h : Hw) (l id : Nat) : List Byte :=
  let d := (kvGetD (h.lin l).pub id ([], false)).1
  let n := h.linLen l id
  d.take n ++ List.replicate (n - d.length) 0

/-- A publish buffer is marked updated. -/
def Hw.pubUpdated (h : Hw) (l id : Nat) : Bool := (kvGetD (h.lin l).pub id ([], false)).2

/-- Send a response. -/
def Hw.linSend (h : Hw) (l id : Nat) (data : List Byte) : Hw :=
  let sum := linSum (h.linEnhanced l id) (linPid id) data
  (h.emit (.linTx l (data ++ [BitVec.ofNat 8 sum]))).onLin l (fun x => { x with sent := some id, await := none })

/-- A header has passed on the bus (R233): publish, subscribe or ignore. A go-to-sleep command is always looked at (R235). -/
def Hw.linHeader (h : Hw) (l id : Nat) : Hw :=
  let h := (h.setFld (Reg.LIN_STATUS l) Fld.LIN_STATUS_BUS_ACTIVE 1).onLin l (fun x => { x with sent := none, await := none })
  match h.fld (Reg.LIN_FRAME l id) Fld.LIN_FRAME_ACTION with
  | 1 => h.onLin l (fun x => { x with await := some id })
  | 2 => if h.linMarked l id && !h.pubUpdated l id then h else h.linSend l id (h.pubData l id)
  | _ => if id = 0x3C ∧ h.linResponder l then h.onLin l (fun x => { x with await := some id }) else h

/-- The commander sends a header. -/
def Hw.linCommand (h : Hw) (l id : Nat) : Hw := (h.emit (.linTx l [BitVec.ofNat 8 (linPid id)])).linHeader l id

/-- The commander starts the entry in force (R232). A diagnostic request entry without a request sends nothing. -/
def Hw.linStart (h : Hw) (l : Nat) : Hw :=
  let e := h.linEntry l
  let id := getF e Fld.LIN_SCHED_ID
  match getF e Fld.LIN_SCHED_TYPE with
  | 0 => h.linCommand l id
  | 1 => h.linCommand l id
  | 2 => match (h.sporadicIds l (id % 16)).find? (h.pubUpdated l) with
    | some i => h.linCommand l i
    | none => h
  | 3 => match (h.lin l).diag with
    | d :: ds =>
      let h := (h.emit (.linTx l [BitVec.ofNat 8 (linPid 0x3C)])).onLin l (fun x => { x with diag := ds })
      (h.setFld (Reg.LIN_STATUS l) Fld.LIN_STATUS_BUS_ACTIVE 1).linSend l 0x3C d.2
    | [] => h
  | 4 => h.linCommand l 0x3D
  | _ => h

/-- An entry of a table is valid. -/
def Hw.linValid (h : Hw) (l t e : Nat) : Bool := decide (e < 64) && (h.rn (Reg.LIN_SCHED l t e)).testBit 31

/-- The entry after one of a table; the table repeats from its first entry. -/
def Hw.linAfter (h : Hw) (l t e : Nat) : Nat := if h.linValid l t (e + 1) then e + 1 else 0

/-- Table, entry and resume place when the DELAY of the entry in force ends (R232). -/
def Hw.linNext (h : Hw) (l : Nat) : Nat × Nat × Option (Nat × Nat) :=
  let x := h.lin l
  let st := h.rn (Reg.LIN_STATUS l)
  let t := getF st Fld.LIN_STATUS_TABLE
  let e := getF st Fld.LIN_STATUS_ENTRY
  let want := h.fld (Reg.LIN_SCHED_CTRL l) Fld.LIN_SCHED_CTRL_TABLE
  let base := match x.coll with | some r => r.1 | none => t
  if !x.running || want != base then (want, 0, none)
  else match x.collNext, x.coll with
    | some c, _ => if h.linValid l c 0 then (c, 0, some (t, e)) else (t, h.linAfter l t e, none)
    | none, some (rt, re) => if h.linValid l t (e + 1) then (t, e + 1, some (rt, re)) else (rt, h.linAfter l rt re, none)
    | none, none => (t, h.linAfter l t e, none)

/-- The DELAY of the entry in force has ended: units of 100 µs. -/
def Hw.linDue (h : Hw) (l : Nat) : Bool :=
  !(h.lin l).running || decide ((h.lin l).since + getF (h.linEntry l) Fld.LIN_SCHED_DELAY * 50000 ≤ h.clk)

/-- LIN_SCHED_ENTRY (R232): the DELAY of the entry in force ends and the next entry starts. -/
def execLinSchedEntry (l : Nat) (s : State) : Res :=
  onHw s (fun h =>
    if !h.linOn l || h.linResponder l || !h.flag (Reg.LIN_SCHED_CTRL l) Fld.LIN_SCHED_CTRL_RUN || !h.linDue l then h
    else
      let n := h.linNext l
      let h := (h.setFld (Reg.LIN_STATUS l) Fld.LIN_STATUS_TABLE n.1).setFld (Reg.LIN_STATUS l) Fld.LIN_STATUS_ENTRY n.2.1
      let h := h.onLin l (fun x => { x with
        coll := n.2.2, collNext := none, running := true, since := h.clk, await := none, sent := none })
      if h.linValid l n.1 n.2.1 then h.linStart l else h)

/-- LIN_HEADER_RECEIVE (R233): `syncOk` the measured rate is within ±15 %, `stopOk` the stop bits are recessive. -/
def execLinHeaderReceive (l pid : Nat) (syncOk stopOk : Bool) (s : State) : Res :=
  onHw s (fun h =>
    if !h.linOn l || !h.linResponder l then h
    else if !syncOk || !stopOk then h.linError l 3
    else if linPid (pid % 64) != pid then h.linError l 4
    else h.linHeader l (pid % 64))

/-- The commander is in an event-triggered entry. -/
def Hw.eventEntry (h : Hw) (l : Nat) : Bool :=
  !h.linResponder l && (h.lin l).running && getF (h.linEntry l) Fld.LIN_SCHED_TYPE == 1

/-- An error in a response; in an event-triggered entry it is a collision too, and the collision table runs next (R232, R234). -/
def Hw.linBad (h : Hw) (l type : Nat) : Hw :=
  let h := h.linError l type
  if h.eventEntry l && decide (type ≤ 3) then
    let c := getF (h.linEntry l) Fld.LIN_SCHED_COLL_TABLE
    (h.linError l 7).onLin l (fun x => { x with collNext := some c })
  else h

/-- A received response without error: its record goes to queue 0; a go-to-sleep command is reported (R235). -/
def Hw.linGood (h : Hw) (l id csum : Nat) (data : List Byte) : Hw :=
  let sub_ := h.fld (Reg.LIN_FRAME l id) Fld.LIN_FRAME_ACTION == 1
  let enh := h.linEnhanced l id
  let h := if sub_ then
      let w1 := csum * 2 ^ 16 + (if enh then 2 ^ 8 else 0) + linPid id
      let r := h.record (h.fld (Reg.LIN_CFG l) Fld.LIN_CFG_TB) 0 true (recWord0 3 l 0 data.length) w1 0 data
      (h.inc (Reg.LIN_FRAMES_OK l)).onLin l (fun x =>
        if Config.queueMore (linQueue l 0) < x.rxq.length then x else { x with rxq := x.rxq ++ [(h.clk, r)] })
    else h
  if decide (id = 0x3C) && h.linResponder l && data.head? == some 0 then h.linRecord l 8 else h

/-- LIN_RESPONSE_RECEIVE (R234): the response awaited, or this controller's own response read back. -/
def execLinResponseReceive (l : Nat) (data : List Byte) (csum : Nat) (framing bitErr : Bool) (s : State) : Res :=
  onHw s (fun h =>
    if !h.linOn l then h
    else match (h.lin l).sent, (h.lin l).await with
      | some id, _ =>
        let h := h.onLin l (fun x => { x with sent := none })
        if bitErr then h.linBad l 1
        else
          (h.inc (Reg.LIN_FRAMES_OK l)).onLin l (fun x => { x with
            pub := match kvGet x.pub id with | some p => kvPut x.pub id (p.1, false) | none => x.pub })
      | none, some id =>
        let h := h.onLin l (fun x => { x with await := none })
        if framing then h.linBad l 3
        else if linSum (h.linEnhanced l id) (linPid id) data != csum then h.linBad l 2
        else h.linGood l id csum data
      | none, none => h)

/-- LIN_RESPONSE_TIMEOUT (R234): `got` bytes of a subscribed response arrived within the frame time. -/
def execLinResponseTimeout (l got : Nat) (s : State) : Res :=
  onHw s (fun h =>
    match (h.lin l).await with
    | none => h
    | some id =>
      let sub_ := h.fld (Reg.LIN_FRAME l id) Fld.LIN_FRAME_ACTION == 1
      let h := h.onLin l (fun x => { x with await := none })
      if !sub_ then h else if got = 0 then h.linBad l 5 else h.linBad l 6)

/-- LIN_BUS_IDLE (R235): no activity for IDLE_S seconds. -/
def execLinBusIdle (l : Nat) (s : State) : Res :=
  onHw s (fun h => if h.linOn l then (h.setFld (Reg.LIN_STATUS l) Fld.LIN_STATUS_BUS_ACTIVE 0).linRecord l 9 else h)

/-- LIN_WAKE_SIGNAL_END (R235): WAKE_US after the command the bus is released. -/
def execLinWakeSignalEnd (l : Nat) (s : State) : Res :=
  onHw s (fun h => if (h.lin l).waking.any (fun t => decide (t ≤ h.clk)) then
    (h.onLin l (fun x => { x with waking := none })).emit (.pin (.linTx l) (some true)) else h)

end Sys2Proof.Machine
end

