-- ==== Sys2Proof/Machine/BridgeOps.lean ====
section
/-!
DEFINITION. Operations of the fieldbus bridge (chapter Routing between buses): rules, copies to CAN, LIN, Rill FIFOs, ACF tunnels,
signals, J1939 claims and transport, authentication.
-/
namespace Sys2Proof.Machine

/-- Update the bridge. -/
def Hw.onBrg (h : Hw) (f : Brg → Brg) : Hw := { h with brg := f h.brg }

/-- The source's J1939 functions are on (R258). -/
def Hw.j1939 (h : Hw) (src : Nat) : Bool := h.flag (Reg.BRG_SRC_CFG src) Fld.BRG_SRC_CFG_J1939

/-! ### Rules (R248, R249) -/

/-- The identifier a record is looked up by: the frame identifier 0–63 for LIN. -/
def brgIdent (ws : List Nat) : Nat := if recKind ws = 3 then ws.getD 1 0 % 64 else recIdent ws

/-- IDE of a record. -/
def brgIde (ws : List Nat) : Bool := recBit ws 21 && recKind ws != 2 && recKind ws != 3

/-- A rule holds the key (source, mask set, IDE, masked identifier). -/
def ruleHolds (r : List Nat) (src set : Nat) (ide : Bool) (key : Nat) : Bool :=
  let w0 := r.getD 0 0
  let w1 := r.getD 1 0
  w0.testBit 31 && w0.testBit 30 == ide && w0 % 2 ^ 29 == key && bits w1 31 25 == src && bits w1 24 23 == set

/-- The first rule that holds the key. -/
def Hw.ruleAt (h : Hw) (src set : Nat) (ide : Bool) (key : Nat) : Option (Nat × List Nat) :=
  h.brg.rules.find? (fun r => ruleHolds r.2 src set ide key)

/-- The rule of a record: mask sets in order, the first hit decides. -/
def Hw.ruleFor (h : Hw) (src : Nat) (ws : List Nat) : Option (Nat × List Nat) :=
  (List.range 4).findSome? (fun m =>
    let r := h.rn (Reg.BRG_SRC_MASK src m)
    if r.testBit 31 then h.ruleAt src m (brgIde ws) (brgIdent ws &&& r % 2 ^ 29) else none)

/-- The destination words of a rule and its chain, at most `fuel` rules. -/
def Hw.destsOf (h : Hw) : Nat → List Nat → List Nat
  | 0, _ => []
  | n + 1, r =>
    (r.drop 3).take 4 ++
      (if (r.getD 7 0).testBit 31 then (match kvGet h.brg.rules (r.getD 7 0 % 65536) with
        | some x => h.destsOf n x
        | none => []) else [])

/-! ### Authentication (R266 to R269) -/

/-- Bytes the MAC runs over (R267). -/
def macInput (ide : Bool) (ident : Nat) (auth : List Byte) (fv : Nat) : List Byte :=
  toBe 4 ((if ide then 2 ^ 31 else 0) + ident % 2 ^ 29) ++ auth ++ toBe 8 fv

/-- The leading bytes of the MAC of a secured message. -/
def authMac (a : Auth) (k : BitVec 256) (ide : Bool) (ident : Nat) (data : List Byte) (fv : Nat) : List Byte :=
  (toBe 16 (cmac256 k (macInput ide ident data fv)).toNat).take a.mac

/-- The freshness candidate of a received value (R268). -/
def freshOf (a : Auth) (got : Nat) : Nat :=
  if a.fv = 0 then a.l + 1
  else
    let m := 2 ^ (8 * a.fv)
    let c := a.l / m * m + got % m
    if c ≤ a.l then c + m else c

/-- A good check; with STRIP the copies carry the authentic data only. -/
def Hw.authOk (h : Hw) (i : Nat) (a : Auth) (c : Nat) : Hw :=
  (h.inc Reg.BRG_AUTH_OK).onBrg (fun b => { b with auth := kvPut b.auth i { a with l := c, fails := 0 } })

/-- A failed check: counted, reported, and after RESYNC_N in a row the entry waits for firmware (R268). -/
def Hw.authFail (h : Hw) (i : Nat) (a : Auth) (ident : Nat) : Hw :=
  let n := a.fails + 1
  let dead := decide (a.resync ≤ n) && !a.wait
  let h := (h.inc Reg.BRG_AUTH_FAIL).postMod 0x0805 i (some ident)
  let h := h.onBrg (fun b => { b with auth := kvPut b.auth i { a with fails := n, wait := a.wait || dead } })
  if dead then h.post 1 0x0806 i (a.l % 2 ^ 32) else h

/-- Verify a record under an entry: passed with authentic data only when STRIP asks so, or failed (none). -/
def Hw.authVerify (h : Hw) (i : Nat) (ide : Bool) (ident : Nat) (data : List Byte) : Option (List Byte) × Hw :=
  match kvGet h.brg.auth i with
  | none => (none, h.authFail i ⟨none, 0, 0, 0, 0, true, 255, 0, false, 0, 0⟩ ident)
  | some a =>
    match a.key with
    | none => (none, h.authFail i a ident)
    | some k =>
      let body := data.take a.len
      let c := freshOf a (be (sub data a.len a.fv))
      let mac := sub data (a.len + a.fv) a.mac
      if !a.wait && decide (a.len + a.fv + a.mac ≤ data.length) && mac == authMac a k ide ident body c then
        (some body, h.authOk i a c)
      else (none, h.authFail i a ident)

/-- The next valid data length of a frame format: classical any, FD the lengths of ISO 11898-1. -/
def fitLen (n : Nat) : Nat :=
  if n ≤ 8 then n else ([12, 16, 20, 24, 32, 48, 64].find? (fun k => decide (n ≤ k))).getD n

/-- Treust appends a record to the secure store (R383). -/
def Hw.writeStore (h : Hw) : Hw :=
  let n := h.sec.storeSeq + 1
  ((h.wn Reg.SEC_AO_STORE_SEQ n).emit (.store n h.sec.fresh)).onSec (fun x => { x with storeSeq := n })

/-- Sign a record (R269): F advances, and the secured payload; Treust stores F when it crosses a multiple of 2^16. -/
def Hw.authSign (h : Hw) (i : Nat) (ide : Bool) (ident : Nat) (data : List Byte) : Option (List Byte) × Hw :=
  match kvGet h.brg.auth i with
  | none => (none, h)
  | some a =>
    match a.key with
    | none => (none, h)
    | some k =>
      let f := (a.f + 1) % 2 ^ 64
      let body := data.take a.len ++ List.replicate (a.len - data.length) 0
      let out := body ++ (toBe 8 f).drop (8 - a.fv) ++ authMac a k ide ident body f
      let h := (h.inc Reg.BRG_SIGNED).onBrg (fun b => { b with auth := kvPut b.auth i { a with f := f } })
      let h := if f % 65536 = 0 then (h.onSec (fun x => { x with fresh := kvPut x.fresh i f })).writeStore else h
      (some (out ++ List.replicate (fitLen out.length - out.length) 0), h)

/-! ### Copies -/

/-- The KIND and flags (BRS) of a copy in a FORMAT; none when it is dropped (R252). A LIN record is treated as classical. -/
def convert (fmt kind n : Nat) (brs : Bool) : Option (Nat × Bool) :=
  match fmt, kind with
  | 0, 1 => some (1, brs)
  | 0, k => some (if k = 3 then 0 else k, false)
  | 1, 0 => some (0, false)
  | 1, 3 => some (0, false)
  | 1, 1 => if n ≤ 8 then some (0, false) else none
  | 2, 2 => none
  | 2, _ => some (1, false)
  | 3, 2 => none
  | 3, _ => some (1, true)
  | _, _ => none

/-- A pending request that a new one may displace: the lowest priority, not on the bus, strictly lower than `key`. -/
def Hw.displaced (h : Hw) (c key : Nat) : Option CanReq :=
  let x := h.can c
  let free := match x.sending with | some r => if r.slot.isNone then dropReq r x.txq else x.txq | none => x.txq
  match free.foldl (fun w r => match w with
      | none => some r
      | some b => if arbKey b.msg ≤ arbKey r.msg then some r else some b) (none : Option CanReq) with
  | some r => if key < arbKey r.msg then some r else none
  | none => none

/-- Offer a request to a CAN event transmit queue under TXFULL (R253); a format the controller has not enabled is dropped (R252). -/
def Hw.canSubmit (h : Hw) (c : Nat) (replace : Bool) (msg : List Nat) : Hw :=
  let r := h.canRequest c msg
  if r.1 then r.2
  else if !h.canFormat c (recKind msg) then r.2.inc Reg.BRG_FMT_DROP
  else if !replace then r.2.inc Reg.BRG_TXQ_DROP
  else match r.2.displaced c (arbKey msg) with
    | none => r.2.inc Reg.BRG_TXQ_DROP
    | some v =>
      (r.2.inc Reg.BRG_TXQ_REPLACED).onCan c (fun x => { x with txq := dropReq v x.txq ++ [⟨msg, r.2.clk, none, 0, false⟩] })

/-- A copy for a CAN destination (R250, R252, R253): `signed` replaces the data of a signing rule. -/
def Hw.canCopy (h : Hw) (dest : Nat) (ws : List Nat) (data : List Byte) (signed : Option (List Byte)) : Hw :=
  let c := bits dest 27 22
  let data := signed.getD data
  match convert (bits dest 21 20) (recKind ws) data.length (recBit ws 19) with
  | none => h.inc Reg.BRG_FMT_DROP
  | some (kind, brs) =>
    let w0 := ws.getD 0 0
    let rw := if dest.testBit 18 then some (kvGetD h.brg.rewr (dest % 4096) 0) else none
    let ide := match rw with | some x => x.testBit 30 | none => brgIde ws
    let lin := recKind ws == 3
    let w1 := match rw with
      | some x => if kind = 2 then ws.getD 1 0 / 2 ^ 11 * 2 ^ 11 + x % 2 ^ 29 / 2 ^ 18 else x % 2 ^ 29
      | none => if lin then ws.getD 1 0 % 64 * 2 ^ 18 else ws.getD 1 0
    let head := kind * 2 ^ 28 + c * 2 ^ 22 + (if ide && kind != 2 then 2 ^ 21 else 0)
      + (if lin then 0 else bits w0 20 20 * 2 ^ 20) + (if brs then 2 ^ 19 else 0) + (if kind = 2 then bits w0 17 17 * 2 ^ 17 else 0)
      + data.length
    h.canSubmit c (dest.testBit 19) ([head, w1, if kind = 2 then ws.getD 2 0 else 0] ++ dataWords data)

/-- A copy for a LIN publish buffer; identifier 0x3C is a diagnostic request (R232, R233). -/
def Hw.linCopy (h : Hw) (l id : Nat) (data : List Byte) : Hw :=
  if 16 ≤ l then h
  else if id = 0x3C then h.onLin l (fun x => { x with diag := x.diag ++ [(h.clk, data.take 8 ++ List.replicate (8 - data.length) 0)] })
  else h.onLin l (fun x => { x with pub := kvPut x.pub id (data.take 8, true) })

/-- 512-bit words of a packet of `n` items. -/
def rillWords (n : Nat) : Nat := (n + 15) / 16

/-- Words a FIFO holds (R240). -/
def Rill.used (r : Rill) : Nat := (r.pkts.map (fun p => rillWords p.length)).sum - r.read

/-- A Rill FIFO. -/
def Hw.rill (h : Hw) (f : Nat) : Rill := kvGetD h.fbus.rill f ⟨[], 0, false, 0⟩

/-- Update a Rill FIFO. -/
def Hw.onRill (h : Hw) (f : Nat) (g : Rill → Rill) : Hw :=
  { h with fbus := { h.fbus with rill := kvMod h.fbus.rill f ⟨[], 0, false, 0⟩ g } }

/-- Write a record into a Rill FIFO as a packet, or drop it whole (R237), as while the FIFO is reset (R242). -/
def Hw.rillWrite (h : Hw) (f : Nat) (ws : List Nat) : Hw :=
  if h.flag (Reg.FBUS_RILL_CFG f) Fld.FBUS_RILL_CFG_EN && decide ((h.rill f).until_ ≤ h.clk) && decide ((h.rill f).used + rillWords ws.length ≤ 64) then
    h.onRill f (fun r => { r with pkts := r.pkts ++ [ws] })
  else (h.inc (Reg.FBUS_RILL_DROP f)).postMod 0x0705 f

/-- Hand a record to firmware on a bridge queue (R271). -/
def Hw.toFirmware (h : Hw) (q : Nat) (ws : List Nat) : Hw := h.emit (.cpu (14080 + q) (bytesOf ws))

/-! ### ACF tunnels (R262 to R264) -/

/-- The ACF_CAN message of a record (IEEE 1722-2016): 16-byte header, data, padding to a quadlet. -/
def acfMsg (busId : Nat) (ws : List Nat) (data : List Byte) : List Byte :=
  let pad := (4 - data.length % 4) % 4
  let quads := 4 + (data.length + pad) / 4
  let fl (i : Nat) : Nat := if recBit ws i then 1 else 0
  let ide := brgIde ws
  let id := if ide then recIdent ws else recIdent ws / 2 ^ 18
  toBe 2 (1 * 2 ^ 9 + quads) ++
    toBe 1 (pad * 64 + 32 + (if recKind ws = 0 then fl 20 else 0) * 16 + (if ide then 8 else 0) + fl 19 * 4
      + (if recKind ws = 1 then 2 else 0) + fl 18) ++
    toBe 1 busId ++ toBe 8 (ws.getD 3 0 * 1000000000 + ws.getD 4 0) ++ toBe 4 id ++ data ++ List.replicate pad 0

/-- Largest ACF data of a tunnel. -/
def Hw.acfMax (h : Hw) (t : Nat) : Nat := h.fld (Reg.BRG_TUNNEL_CFG t) Fld.BRG_TUNNEL_CFG_MAX_BYTES

/-- The frame of a batch: NTSCF or TSCF (IEEE 1722-2016); the source address is a free value. -/
def Hw.acfFrame (h : Hw) (t : Nat) (b : Batch) : List Byte :=
  let c := h.rn (Reg.BRG_TUNNEL_CFG t)
  let seq := (h.fld (Reg.BRG_TUNNEL_TMO t) Fld.BRG_TUNNEL_TMO_SEQ + 1) % 256
  let sid := h.rn (Reg.BRG_TUNNEL_SID_HI t) * 2 ^ 32 + h.rn (Reg.BRG_TUNNEL_SID_LO t)
  let da := h.rn (Reg.BRG_TUNNEL_DA_HI t) % 2 ^ 16 * 2 ^ 32 + h.rn (Reg.BRG_TUNNEL_DA_LO t)
  let n := b.data.length
  let head := if getF c Fld.BRG_TUNNEL_CFG_TSCF = 1 then
      toBe 1 0x05 ++ toBe 1 0x81 ++ toBe 1 seq ++ toBe 1 0 ++ toBe 8 sid
        ++ toBe 4 ((b.stamp + h.rn (Reg.BRG_TUNNEL_MTT t)) % 2 ^ 32) ++ toBe 4 0 ++ toBe 2 n ++ toBe 2 0
    else toBe 1 0x82 ++ toBe 2 (2 ^ 15 + n) ++ toBe 1 seq ++ toBe 8 sid
  padFcs (toBe 6 da ++ toBe 6 (h.draw % 2 ^ 48) ++ toBe 2 0x8100
    ++ toBe 2 (getF c Fld.BRG_TUNNEL_CFG_PCP * 2 ^ 13 + getF c Fld.BRG_TUNNEL_CFG_VID) ++ toBe 2 0x22F0 ++ head ++ b.data)

/-- Send the batch of a tunnel as one frame from P25. -/
def Hw.acfSend (h : Hw) (t : Nat) : Hw :=
  match kvGet h.brg.batch t with
  | none => h
  | some b =>
    let fr := h.acfFrame t b
    let cls := h.fld (Reg.BRG_TUNNEL_CFG t) Fld.BRG_TUNNEL_CFG_CLASS
    let h := h.drawn.setFld (Reg.BRG_TUNNEL_TMO t) Fld.BRG_TUNNEL_TMO_SEQ (h.fld (Reg.BRG_TUNNEL_TMO t) Fld.BRG_TUNNEL_TMO_SEQ + 1)
    let h := (h.inc Reg.BRG_ACF_FRAMES_TX).add Reg.BRG_ACF_MSGS_TX b.count
    let h := h.onBrg (fun x => { x with batch := kvDel x.batch t })
    h.sendInternal 25 ⟨b.owner, fr, none, b.ctl, 0, none, some cls, none, none, b.at_⟩

/-- TIMEOUT_US after its first message a tunnel's batch is due (R263). -/
def Hw.acfDue (h : Hw) (t : Nat) : Bool :=
  (kvGet h.brg.batch t).any (fun b => decide (b.at_ + h.fld (Reg.BRG_TUNNEL_TMO t) Fld.BRG_TUNNEL_TMO_TIMEOUT_US * 500 ≤ h.clk))

/-- A copy for a tunnel (R262, R263): a batch that it would overfill, or whose timeout fires in this cycle, is sent before it. -/
def Hw.acfCopy (h : Hw) (dest owner : Nat) (ws : List Nat) (data : List Byte) : Hw :=
  let t := dest % 32
  if !h.flag (Reg.BRG_TUNNEL_CFG t) Fld.BRG_TUNNEL_CFG_EN then h
  else if 2 ≤ recKind ws then h.inc Reg.BRG_ACF_UNSUP
  else
    let m := acfMsg (bits dest 27 23) ws data
    let h := match kvGet h.brg.batch t with
      | some b => if h.acfMax t < b.data.length + m.length || h.acfDue t then h.acfSend t else h
      | none => h
    let ctl := bits (ws.getD 0 0) 27 22
    let b : Batch := match kvGet h.brg.batch t with
      | some b => { b with data := b.data ++ m, count := b.count + 1 }
      | none => ⟨m, 1, owner, if ctl < 48 then some ctl else none, ws.getD 3 0 * 1000000000 + ws.getD 4 0, h.clk⟩
    let h := h.onBrg (fun x => { x with batch := kvPut x.batch t b })
    if dest.testBit 22 then h.acfSend t else h

/-! ### J1939 claims (R258, R259) -/

/-- PGN of a 29-bit identifier, destination address removed for PDU1 formats. -/
def pgnOf (ident : Nat) : Nat :=
  let p := ident / 2 ^ 8 % 2 ^ 18
  if p / 2 ^ 8 % 2 ^ 8 < 240 then p / 2 ^ 8 * 2 ^ 8 else p

/-- Addresses a NAME holds on a source. -/
def Hw.heldBy (h : Hw) (src name : Nat) : List Nat :=
  (List.range 254).filter (fun a => match kvGet h.brg.claims (src * 256 + a) with | some c => c.1 == name | none => false)

/-- Post a claim record: address, address freed or 0xFF, NAME low word first. -/
def Hw.claimRecord (h : Hw) (src addr freed name : Nat) : Hw :=
  h.post 1 0x0801 src (freed * 256 + addr) (name % 2 ^ 32) (name / 2 ^ 32)

/-- Post and count a conflict. -/
def Hw.conflictRecord (h : Hw) (src addr name holder : Nat) (won : Bool) : Hw :=
  (h.inc Reg.BRG_J1939_CONFLICT).post 1 0x0802 src (addr + if won then 256 else 0) (name % 2 ^ 32) (name / 2 ^ 32) (holder % 2 ^ 32)

/-- Give an address to a NAME, freeing the one it held before. -/
def Hw.giveAddr (h : Hw) (src addr name time : Nat) (say : Bool) : Hw :=
  let old := (h.heldBy src name).filter (· != addr)
  let h := h.onBrg (fun b => { b with
    claims := kvPut (old.foldl (fun m a => kvDel m (src * 256 + a)) b.claims) (src * 256 + addr) (name, time) })
  match old with
  | a :: _ => h.claimRecord src addr a name
  | [] => if say then h.claimRecord src addr 0xFF name else h

/-- An address of the device that another NAME takes from it is no longer its own. -/
def Hw.loseSelf (h : Hw) (src addr name : Nat) : Hw :=
  match kvGet h.brg.selfClaims (src * 256 + addr) with
  | some m => if name < m then h.onBrg (fun b => { b with selfClaims := kvDel b.selfClaims (src * 256 + addr) }) else h
  | none => h

/-- An Address Claimed or Cannot Claim frame (R258). -/
def Hw.addrClaim (h : Hw) (src addr name time : Nat) : Hw :=
  if addr = 254 then
    let old := h.heldBy src name
    let h := h.onBrg (fun b => { b with claims := old.foldl (fun m a => kvDel m (src * 256 + a)) b.claims })
    h.claimRecord src 254 (old.headD 0xFF) name
  else if 254 < addr then h
  else match kvGet h.brg.claims (src * 256 + addr) with
    | none => h.giveAddr src addr name time true
    | some (m, _) =>
      if m = name then h.onBrg (fun b => { b with claims := kvPut b.claims (src * 256 + addr) (name, time) })
      else if name < m then (h.giveAddr src addr name time false).conflictRecord src addr name m true
      else h.conflictRecord src addr name m false

/-- A J1939 record of a source: extended identifier. -/
def isJ1939 (ws : List Nat) : Bool := brgIde ws && (recKind ws == 0 || recKind ws == 1)

/-- What the claim table learns of a record. -/
def Hw.claimSees (h : Hw) (src : Nat) (ws : List Nat) : Hw :=
  let id := recIdent ws
  if h.j1939 src && isJ1939 ws && pgnOf id == 0xEE00 && recLen ws == 8 then
    (h.loseSelf src (id % 256) (le (recData 5 ws))).addrClaim src (id % 256) (le (recData 5 ws)) (ws.getD 3 0 * 1000000000 + ws.getD 4 0)
  else h

/-- ENFORCE keeps a record from its destinations (R259). -/
def Hw.unclaimed (h : Hw) (src : Nat) (ws : List Nat) : Bool :=
  let id := recIdent ws
  let req := pgnOf id == 0xEA00 && le ((recData 5 ws).take 3) == 0xEE00
  h.flag (Reg.BRG_SRC_CFG src) Fld.BRG_SRC_CFG_ENFORCE && isJ1939 ws && pgnOf id != 0xEE00 && !req
    && (kvGet h.brg.claims (src * 256 + id % 256)).isNone

/-! ### J1939 transport (R260, R261) -/

/-- A session of a key. -/
def TpSess.is (t : TpSess) (src sa da : Nat) : Bool := t.src == src && t.sa == sa && t.da == da

/-- The open session of a key. -/
def Hw.sess? (h : Hw) (src sa da : Nat) : Option TpSess := h.brg.sess.find? (fun t => t.is src sa da)

/-- Close a session. -/
def Hw.sessClose (h : Hw) (t : TpSess) : Hw :=
  h.onBrg (fun b => { b with sess := b.sess.filter (fun x => !x.is t.src t.sa t.da) })

/-- Replace a session. -/
def Hw.sessPut (h : Hw) (t : TpSess) : Hw :=
  h.onBrg (fun b => { b with sess := b.sess.map (fun x => if x.is t.src t.sa t.da then t else x) })

/-- Abort a session: 0 sequence, 1 abort, 2 new session, 3 timeout. -/
def Hw.sessAbort (h : Hw) (t : TpSess) (why : Nat) : Hw :=
  ((h.inc Reg.BRG_TP_ABORT).post 1 0x0803 t.src (t.sa * 256 + t.da) (min t.data.length t.size) why).sessClose t

/-- The record of a completed message (R208, R261). -/
def tpRecord (t : TpSess) : List Nat :=
  let ctl := if t.src < 48 then t.src else 0x3F
  let ps := if t.pgn / 2 ^ 8 % 2 ^ 8 < 240 then t.pgn / 2 ^ 8 * 2 ^ 8 + t.da else t.pgn
  [7 * 2 ^ 28 + ctl * 2 ^ 22 + 2 ^ 21 + bits t.w0 16 12 * 2 ^ 12 + t.size, t.prio * 2 ^ 26 + ps % 2 ^ 18 * 2 ^ 8 + t.sa,
    t.src * 2 ^ 25 + (if t.bam then 2 ^ 16 else 0) + t.need * 2 ^ 8 + t.da, t.t3, t.t4] ++ dataWords (t.data.take t.size)

/-- A message is complete: delivered to firmware or a Rill FIFO. -/
def Hw.tpDone (h : Hw) (t : TpSess) : Hw :=
  let h := (h.inc Reg.BRG_TP_DONE).sessClose t
  if t.dest.testBit 6 then h.toFirmware 65 (tpRecord t) else h.rillWrite (t.dest % 64) (tpRecord t)

/-- A TP.CM frame with control byte 32 or 16 opens a session (R260). -/
def Hw.tpOpen (h : Hw) (src dest : Nat) (ws : List Nat) (d : List Byte) (bam : Bool) : Hw :=
  let id := recIdent ws
  let sa := id % 256
  let da := if bam then 255 else id / 2 ^ 8 % 256
  let size := le (sub d 1 2)
  let need := le (sub d 3 1)
  if decide (1785 < size) || need != (size + 6) / 7 then h.inc Reg.BRG_TP_OVERSIZE
  else if !bam && (kvGet h.brg.selfClaims (src * 256 + da)).isSome then h
  else
    let h := match h.sess? src sa da with | some t => h.sessAbort t 2 | none => h
    if 256 ≤ h.brg.sess.length then h.inc Reg.BRG_TP_NO_SESSION
    else h.onBrg (fun b => { b with sess := b.sess ++
      [⟨src, sa, da, bam, size, 1, need, [], [], id / 2 ^ 26 % 8, le (sub d 5 3), ws.getD 0 0, ws.getD 3 0, ws.getD 4 0, dest, h.clk⟩] })

/-- A TP.DT frame (R261). -/
def Hw.tpData (h : Hw) (t : TpSess) (d : List Byte) : Hw :=
  let seq := le (sub d 0 1)
  let body := sub d 1 7 ++ List.replicate (7 - (d.length - 1)) 0
  if seq = t.next then
    let t' := { t with data := t.data ++ body, next := t.next + 1, last := h.clk }
    if seq = t.need then (h.sessPut t').tpDone t' else h.sessPut t'
  else if decide (seq < t.next) && t.cts.contains seq then
    h.sessPut { t with
      data := patch t.data ((seq - 1) * 7) body, cts := without t.cts seq, last := h.clk }
  else h.sessAbort t 0

/-- No TP.DT has come for a session in time: 750 ms for a BAM, 1,250 ms for a connection (R261). -/
def Hw.sessLate (h : Hw) (t : TpSess) : Bool := decide (t.last + (if t.bam then 375000000 else 625000000) ≤ h.clk)

/-- A record reaches a type-6 destination. CTS and abort may come from either end of a connection. -/
def Hw.tpSees (h : Hw) (src dest : Nat) (ws : List Nat) (d : List Byte) : Hw :=
  let id := recIdent ws
  let sa := id % 256
  let da := id / 2 ^ 8 % 256
  if !h.j1939 src || !isJ1939 ws then h
  else if pgnOf id = 0xEC00 then
    match le (sub d 0 1) with
    | 32 => h.tpOpen src dest ws d true
    | 16 => h.tpOpen src dest ws d false
    | 17 => match h.sess? src da sa with
      | some t => h.sessPut { t with cts := (List.range (le (sub d 1 1))).map (· + le (sub d 2 1)) }
      | none => h
    | 255 => match h.sess? src sa da with
      | some t => h.sessAbort t 1
      | none => match h.sess? src da sa with
        | some t => h.sessAbort t 1
        | none => h
    | _ => h
  else if pgnOf id = 0xEB00 then
    match h.sess? src sa da with
    | some t => h.tpData t d
    | none => h
  else h

/-! ### Signals (R255 to R257) -/

/-- The bit positions of a signal, most significant first; big-endian runs down a byte and on to the top of the next. -/
def sigBits (start len : Nat) (bigEnd : Bool) : List Nat :=
  if bigEnd then (List.range len).map (fun i =>
    let k := 7 - start % 8 + i
    (start / 8 + k / 8) * 8 + (7 - k % 8))
  else (List.range len).map (fun i => start + len - 1 - i)

/-- A bit of a byte string. -/
def bitAt (l : List Byte) (p : Nat) : Bool := (l.getD (p / 8) 0).getLsbD (p % 8)

/-- Set a bit of a byte string. -/
def setBitAt (l : List Byte) (p : Nat) (v : Bool) : List Byte :=
  l.modify (p / 8) (fun b => if v then b ||| BitVec.ofNat 8 (2 ^ (p % 8)) else b &&& ~~~(BitVec.ofNat 8 (2 ^ (p % 8))))

/-- Copy a mapping's bits from a payload into its buffer. -/
def mapBits (m : SigMap) (src dst : List Byte) : List Byte :=
  ((sigBits m.src m.len m.srcBe).zip (sigBits m.dst m.len m.dstBe)).foldl (fun a p => setBitAt a p.2 (bitAt src p.1)) dst

/-- The mapping's source bits lie within the payload. -/
def mapFits (m : SigMap) (src : List Byte) : Bool := (sigBits m.src m.len m.srcBe).all (fun p => decide (p < src.length * 8))

/-- Issue the frame of an assembly buffer (R256). -/
def Hw.sigIssue (h : Hw) (i : Nat) : Hw :=
  match kvGet h.brg.bufs i with
  | none => h
  | some b =>
    let h := h.onBrg (fun x => { x with bufs := kvPut x.bufs i { b with last := h.clk } })
    let c := bits b.dest 27 22
    let msg := [bits b.w0 31 28 * 2 ^ 28 + c * 2 ^ 22 + bits b.w0 21 17 * 2 ^ 17 + b.data.length, b.ident, 0] ++ dataWords b.data
    match bits b.dest 31 28 with
    | 1 => h.canSubmit c (b.dest.testBit 19) msg
    | 2 => h.linCopy (bits b.dest 27 24) (b.dest % 64) b.data
    | _ => h.bufferWrite c (b.dest % 64) msg

/-- The mappings `first … first + n - 1` applied to a payload: each writes its buffer, or counts as short. -/
def Hw.sigApply (h : Hw) (src : List Byte) (n first : Nat) : Hw :=
  (List.range n).foldl (fun a k =>
    match kvGet a.brg.maps (first + k) with
    | none => a
    | some m =>
      if !mapFits m src then a.inc Reg.BRG_SIG_SHORT
      else a.onBrg (fun b => { b with
        maps := kvPut b.maps (first + k) { m with wrote := a.clk, out := false },
        bufs := match kvGet b.bufs m.buf with
          | some x => kvPut b.bufs m.buf { x with data := mapBits m src x.data }
          | none => b.bufs })) h

/-- Buffers the mappings of a record write. -/
def Hw.sigTouched (h : Hw) (src : List Byte) (l : List (Nat × Nat)) : List Nat :=
  (l.flatMap (fun p => (List.range p.1).filterMap (fun k => match kvGet h.brg.maps (p.2 + k) with
    | some m => if mapFits m src then some m.buf else none
    | none => none))).dedup

/-- A buffer issues after a record that wrote to it (R256). -/
def sigDue (b : AsmBuf) (changed : Bool) (now : Nat) : Bool :=
  match b.send with
  | 0 => true
  | 1 => changed
  | 3 => changed && decide (b.last + b.gap * 500000 ≤ now)
  | _ => false

end Sys2Proof.Machine
end

