-- ==== Sys2Proof/Machine/Bridge.lean ====
section
/-!
DEFINITION. The commands of the fieldbus bridge and of the Rill window (R241 to R265).
-/
namespace Sys2Proof.Machine

/-! ### The dispatcher (R246) -/

/-- The bridge reads receive queue `q` of a CAN controller (R219). -/
def Hw.bridgeReads (h : Hw) (c q : Nat) : Bool :=
  !h.flag (Reg.CAN_CFG c) (if q = 0 then Fld.CAN_CFG_RXQ0_DIRECT else Fld.CAN_CFG_RXQ1_DIRECT)

/-- The head of a source in a class: 0 high, 1 low (R245). -/
def Hw.brgHead (h : Hw) (hiClass : Bool) (s : Nat) : Option (Nat × List Nat) :=
  if !h.flag (Reg.BRG_SRC_CFG s) Fld.BRG_SRC_CFG_EN then none
  else if s < 48 then
    let q := if hiClass then 0 else 1
    if h.bridgeReads s q then ((h.can s).rx q).head? else none
  else if hiClass then none
  else if s < 64 then (h.lin (s - 48)).rxq.head?
  else (kvGetD h.brg.acf s []).head?

/-- Take the head of a source. -/
def Hw.brgTake (h : Hw) (hiClass : Bool) (s : Nat) : Hw :=
  if s < 48 then (h.rxPop s (if hiClass then 0 else 1)).2
  else if s < 64 then h.onLin (s - 48) (fun x => { x with rxq := x.rxq.drop 1 })
  else h.onBrg (fun b => { b with acf := kvPut b.acf s ((kvGetD b.acf s []).drop 1) })

/-- The next source of a class: the first with a head from the place the round robin looks at first. -/
def Hw.brgNext (h : Hw) (hiClass : Bool) : Option Nat :=
  let n := if hiClass then 48 else 96
  let p := if hiClass then h.brg.hi else h.brg.lo
  ((List.range n).map (fun i => (p + i) % n)).find? (fun s => (h.brgHead hiClass s).isSome)

/-! ### One slot -/

/-- Every copy of a record, in destination order (R251). -/
def Hw.copies (h : Hw) (src owner : Nat) (ws : List Nat) (data : List Byte) (signed : Option (List Byte)) (l : List Nat) : Hw :=
  l.foldl (fun a d =>
    match bits d 31 28 with
    | 1 => a.canCopy d ws data signed
    | 2 => a.linCopy (bits d 27 24) (d % 64) data
    | 3 => a.rillWrite (d % 64) ws
    | 4 => a.acfCopy d owner ws data
    | 6 => a.tpSees src d ws data
    | 7 => a.toFirmware 64 ws
    | _ => a) h

/-- The (count, first mapping) pairs of a record's signal destinations. -/
def signalDests (l : List Nat) : List (Nat × Nat) :=
  (l.filter (fun d => bits d 31 28 == 5)).map (fun d => (bits d 20 13, d % 2 ^ 13))

/-- A record with other data: length and data words replaced. -/
def withData (ws : List Nat) (data : List Byte) : List Nat :=
  (ws.getD 0 0 / 2 ^ 12 * 2 ^ 12 + data.length) :: (ws.drop 1).take 4 ++ dataWords data

/-- A record marked as failed under monitoring: word 2 bit 31 (R268). -/
def markFailed (ws : List Nat) : List Nat := ws.set 2 (ws.getD 2 0 ||| 2 ^ 31)

/-- The rate check of a rule (R254): the policer is charged the record's bytes. -/
def Hw.ruleRate (h : Hw) (r ws : List Nat) : Bool × Hw :=
  let w2 := r.getD 2 0
  let b := 768 + w2 % 4096
  if w2.testBit 15 && h.weirOn b then
    if recSize ws * tokenUnit ≤ h.tokens b then (true, h.weirTake b (recSize ws))
    else (false, (h.inc (Reg.TSS_WEIR_RED b)).inc Reg.BRG_RATE_DROP)
  else (true, h)

/-- The copies of a record under its rule, with its signature. -/
def Hw.routeRecord (h : Hw) (src : Nat) (r ws : List Nat) : Hw :=
  let w1 := r.getD 1 0
  let w2 := r.getD 2 0
  let data := recData 5 ws
  let owner := if w2.testBit 31 then bits w2 24 16 else h.svcOwner 25
  let dests := h.destsOf 4 r
  let sg := if w1.testBit 20 && h.flag Reg.BRG_CFG Fld.BRG_CFG_AUTH_EN
    then h.authSign (bits (r.getD 7 0) 27 16) (brgIde ws) (brgIdent ws) data else (none, h)
  let h := sg.2.copies src owner ws data sg.1 dests
  let sd := signalDests dests
  if sd.isEmpty then h else h.onBrg (fun b => { b with sig := b.sig ++ [(h.clk, ws, sd)] })

/-- A record under its rule: ENFORCE, authentication, rate, copies. -/
def Hw.ruleApply (h : Hw) (src : Nat) (r ws : List Nat) : Hw :=
  let w1 := r.getD 1 0
  if h.unclaimed src ws then h.inc Reg.BRG_J1939_UNCLAIMED
  else
    let go (ws : List Nat) (h : Hw) : Hw :=
      let x := h.ruleRate r ws
      if x.1 then x.2.routeRecord src r ws else x.2
    if w1.testBit 22 && h.flag Reg.BRG_CFG Fld.BRG_CFG_AUTH_EN then
      let i := w1 % 4096
      let v := h.authVerify i (brgIde ws) (brgIdent ws) (recData 5 ws)
      match v.1 with
      | some body => go (if w1.testBit 21 then withData ws body else ws) v.2
      | none => if (match kvGet h.brg.auth i with | some a => a.strict | none => true) then v.2 else go (markFailed ws) v.2
    else go ws h

/-- Dispatch one record of a source (R246, R248, R251). -/
def Hw.dispatch (h : Hw) (src : Nat) (ws : List Nat) : Hw :=
  let h := (h.inc Reg.BRG_DISPATCHED).claimSees src ws
  match h.ruleFor src ws with
  | some r => h.ruleApply src r.2 ws
  | none =>
    let h := h.inc Reg.BRG_NO_RULE
    if h.flag (Reg.BRG_SRC_CFG src) Fld.BRG_SRC_CFG_DEFAULT then h.toFirmware 64 ws else h

/-- BRIDGE_DISPATCH_SLOT (R246): the next high-class head, else the next low-class one. -/
def execBridgeDispatchSlot (s : State) : Res :=
  onHw s (fun h =>
    if !h.flag Reg.BRG_STATUS Fld.BRG_STATUS_READY || !h.flag Reg.BRG_CFG Fld.BRG_CFG_EN then h
    else match h.brgNext true with
      | some c => match h.brgHead true c with
        | none => h
        | some e =>
          let wait := (h.clk - e.1) * 2
          let h := if h.rn Reg.BRG_HIGH_WAIT_MAX < wait then h.wn Reg.BRG_HIGH_WAIT_MAX (min wait 0xFFFFFFFF) else h
          ((h.brgTake true c).onBrg (fun b => { b with hi := (c + 1) % 48 })).dispatch c e.2
      | none => match h.brgNext false with
        | none => h
        | some c => match h.brgHead false c with
          | none => h
          | some e => ((h.brgTake false c).onBrg (fun b => { b with lo := (c + 1) % 96 })).dispatch c e.2)

/-- J1939_TP_TIMEOUT (R261). -/
def execJ1939TpTimeout (src sa da : Nat) (s : State) : Res :=
  onHw s (fun h => match h.sess? src sa da with
    | some t => if h.sessLate t then h.sessAbort t 3 else h
    | none => h)

/-- SIGNAL_MAPPING_APPLY (R256): all mappings of the oldest record first, then what they cause to be issued. -/
def execSignalMappingApply (s : State) : Res :=
  onHw s (fun h => match h.brg.sig with
    | [] => h
    | (_, ws, l) :: rest =>
      let src := recData 5 ws
      let h := h.onBrg (fun b => { b with sig := rest })
      let hit := h.sigTouched src l
      let before := h.brg.bufs
      let h := l.foldl (fun a p => a.sigApply src p.1 p.2) h
      hit.foldl (fun a i => match kvGet a.brg.bufs i with
        | none => a
        | some b =>
          let changed := match kvGet before i with | some o => o.data != b.data | none => true
          if sigDue b changed a.clk then a.sigIssue i else a) h)

/-- SIGNAL_PERIODIC_ISSUE (R256): PERIOD_MS after the one before. -/
def execSignalPeriodicIssue (buf : Nat) (s : State) : Res :=
  onHw s (fun h => match kvGet h.brg.bufs buf with
    | some b =>
      if (b.send = 2 ∨ b.send = 3) ∧ b.due ≤ h.clk then
        (h.onBrg (fun x => { x with bufs := kvPut x.bufs buf { b with due := b.due + b.period * 500000 } })).sigIssue buf
      else h
    | none => h)

/-- A mapping has a timeout, no record has written it for that time, and it has not timed out since (R257). -/
def Hw.mapLate (h : Hw) (m : SigMap) : Bool :=
  let ms := h.fld (Reg.BRG_SIG_TMO m.tmo) Fld.BRG_SIG_TMO_TMO_MS
  decide (m.tmo < 16) && ms != 0 && !m.out && decide (m.wrote + ms * 500000 ≤ h.clk)

/-- SIGNAL_TIMEOUT (R257): the destination bits of a mapping not written in time read "not available". -/
def execSignalTimeout (map : Nat) (s : State) : Res :=
  onHw s (fun h => match kvGet h.brg.maps map with
    | none => h
    | some m =>
      if !h.mapLate m then h
      else
        let h := h.onBrg (fun b => { b with
          maps := kvPut b.maps map { m with out := true },
          bufs := match kvGet b.bufs m.buf with
            | some x => kvPut b.bufs m.buf { x with
                data := (sigBits m.dst m.len m.dstBe).foldl (fun a p => setBitAt a p true) x.data }
            | none => b.bufs })
        (h.inc Reg.BRG_SIG_TIMEOUT).postMod 0x0804 map)

/-- ACF_BATCH_TIMEOUT (R263). -/
def execAcfBatchTimeout (t : Nat) (s : State) : Res := onHw s (fun h => if h.acfDue t then h.acfSend t else h)

/-! ### Inbound tunnels (R265) -/

/-- An enabled inbound tunnel that matches a stream_id. -/
def Hw.rxTunnel (h : Hw) (sid : Nat) : Option Nat :=
  (List.range 32).find? (fun r => h.flag (Reg.BRG_RXTUN_CFG r) Fld.BRG_RXTUN_CFG_EN &&
    h.rn (Reg.BRG_RXTUN_SID_HI r) * 2 ^ 32 + h.rn (Reg.BRG_RXTUN_SID_LO r) == sid)

/-- One ACF_CAN or ACF_CAN_BRIEF message as a record of its source; its timestamp is the frame's, on TB0. -/
def acfRecord (f : Frame) (m : List Byte) (brief : Bool) : Nat × List Nat :=
  let b2 := be (sub m 2 1)
  let at_ := if brief then 4 else 12
  let id := be (sub m at_ 4) % 2 ^ 29
  let data := (m.drop (at_ + 4)).take (m.length - at_ - 4 - b2 / 64)
  let eff := b2.testBit 3
  let ns := stampNs f.stamps 0
  let w0 := (if b2.testBit 1 then 2 ^ 28 else 0) + 0x3F * 2 ^ 22 + (if eff then 2 ^ 21 else 0) + (b2 / 16 % 2) * 2 ^ 20
    + (b2 / 4 % 2) * 2 ^ 19 + (b2 % 2) * 2 ^ 18 + data.length
  (64 + be (sub m 3 1) % 32,
   [w0 + (if stampUnset f.stamps 0 then 0 else 2 ^ 16), if eff then id else id % 2 ^ 11 * 2 ^ 18, 0, ns / 1000000000 % 2 ^ 32, ns % 1000000000] ++ dataWords data)

/-- The messages of an ACF payload in order; the last flag says whether one ran past the end. -/
def acfSplit : Nat → List Byte → List (List Byte) × Bool
  | 0, _ => ([], false)
  | n + 1, l =>
    if l.isEmpty then ([], false)
    else
      let len := be (l.take 2) % 2 ^ 9 * 4
      if len = 0 ∨ l.length < len then ([], true)
      else let r := acfSplit n (l.drop len); (l.take len :: r.1, r.2)

/-- The messages of an inbound frame become records. -/
def Hw.acfTake (h : Hw) (f : Frame) (payload : List Byte) : Hw :=
  let p := acfSplit 512 payload
  let h := p.1.foldl (fun a m =>
    let ty := be (m.take 2) / 2 ^ 9
    if ty = 1 ∨ ty = 2 then
      let r := acfRecord f m (ty == 2)
      a.onBrg (fun b => { b with acf := kvMod b.acf r.1 [] (· ++ [(a.clk, r.2)]) })
    else a) h
  if p.2 then h.inc Reg.BRG_ACF_RX_MALFORMED else h

/-- ACF_INBOUND_FRAME (R265): the next frame at P25. -/
def execAcfInboundFrame (s : State) : Res :=
  onHw s (fun h => match h.copyAt 25 (fun _ => true) with
    | none => h
    | some f =>
      let d := parseHdr (h.readFrame f)
      let sub_ := be (sub d.body 0 1)
      let ntscf := sub_ == 0x82
      let tun := if d.etype == 0x22F0 && (ntscf || sub_ == 5) then h.rxTunnel (be (sub d.body 4 8)) else none
      let h := match tun with
        | none => h.inc Reg.BRG_ACF_RX_MALFORMED
        | some r =>
          let seq := if ntscf then be (sub d.body 3 1) else be (sub d.body 2 1)
          let n := if ntscf then be (sub d.body 1 2) % 2 ^ 11 else be (sub d.body 20 2)
          let body := d.body.drop (if ntscf then 12 else 24)
          let last := h.fld (Reg.BRG_RXTUN_CFG r) Fld.BRG_RXTUN_CFG_LAST_SEQ
          let h := if seq = (last + 1) % 256 then h else h.inc Reg.BRG_ACF_RX_SEQ_GAP
          let h := h.setFld (Reg.BRG_RXTUN_CFG r) Fld.BRG_RXTUN_CFG_LAST_SEQ seq
          let held := body.take (body.length - 4)
          if held.length < n then (h.acfTake f held).inc Reg.BRG_ACF_RX_MALFORMED else h.acfTake f (held.take n)
      h.takeAt 25 f)

/-! ### The Rill window (R241) -/

/-- The head word of a FIFO: its items, END, VALID_BYTES. -/
def Rill.headWord (r : Rill) : Option (List Nat × Bool × Nat) :=
  match r.pkts with
  | [] => none
  | p :: _ =>
    let items := (p.drop (16 * r.read)).take 16
    some (items, decide (p.length ≤ 16 * r.read + 16), items.length * 4)

/-- The head word leaves; the word with END ends its packet. -/
def Rill.pop (r : Rill) : Rill :=
  match r.headWord with
  | none => r
  | some (_, true, _) => { r with pkts := r.pkts.drop 1, read := 0 }
  | some (_, false, _) => { r with read := r.read + 1 }

/-- What a dword of the window reads: items of the head word, idle where there is none. -/
def Hw.rillItem (h : Hw) (f i : Nat) : Nat :=
  if h.flag (Reg.FBUS_RILL_CFG f) Fld.FBUS_RILL_CFG_DIRECT then
    match (h.rill f).headWord with
    | some (l, _, _) => l.getD i 0x1D1E1D1E
    | none => 0x1D1E1D1E
  else 0x1D1E1D1E

/-- FBUS_RILL_TAG. -/
def Hw.rillTag (h : Hw) (f : Nat) : Nat :=
  match (h.rill f).headWord with
  | some (_, e, n) => (if e then 2 ^ 31 else 0) + n
  | none => 0

/-- The word at the head is popped by a read at +0x3C of a direct window; a packet that ends is delivered. -/
def Hw.rillPop (h : Hw) (f : Nat) : Hw :=
  if h.flag (Reg.FBUS_RILL_CFG f) Fld.FBUS_RILL_CFG_DIRECT then
    match (h.rill f).headWord with
    | none => h
    | some (_, e, _) =>
      let h := h.onRill f Rill.pop
      if e then h.inc (Reg.FBUS_RILL_PKTS f) else h
  else h

/-- RILL_WIN_POP (R241): a host read of the last dword of a Rill window. -/
def execRillWinPop (fn off en : Nat) (s : State) : Res :=
  onHw s (fun h => match h.hostReg fn off with
    | some r =>
      if 0x1B9000 ≤ r ∧ r < 0x1BA000 ∧ r % 64 = 0x3C then
        let f := (r - 0x1B9000) / 64
        (h.answer off en (h.rillItem f 15)).rillPop f
      else h
    | none => h)

end Sys2Proof.Machine
end

