-- ==== Sys2Proof/Machine/Owner.lean ====
section
/-!
DEFINITION. Owners: grants (R19, R354) and teardown (R20 to R22, R374, R403).
-/
namespace Sys2Proof.Machine

/-- Grant a resource. Configure: time base to owner 2 (R278), a transmit timestamp queue (R285), a service's port (R23) follow it. -/
def Hw.grantRes (h : Hw) (o : Nat) (conf : Bool) (word : Nat) : Hw :=
  let t := word / 2 ^ 24
  let i := word % 2 ^ 24
  if !conf then
    if h.holder t i = o then h
    else h.onOwn (fun w => { w with read := kvMod w.read word [] (fun l => insertNew l o) })
  else
    let h := h.onOwn (fun w => { w with
      conf := if o = 1 then kvDel w.conf word else kvPut w.conf word o
      read := kvMod w.read word [] (fun l => without l o) })
    match t with
    | 6 => if o = 2 then h.setFld (Reg.TIME_TB_CTRL i) Fld.TIME_TB_CTRL_HOST_WR 1 else h
    | 13 => { h with tim := { h.tim with txtsOwner := kvPut h.tim.txtsOwner i o } }
    | 1 => if 28 ≤ i ∧ i ≤ 30 then { h with fwd := { h.fwd with svcOwner := kvPut h.fwd.svcOwner i o } } else h
    | _ => h

/-- The owner holds a resource in some way. -/
def Hw.holds (h : Hw) (o word : Nat) : Bool :=
  kvGet h.own.conf word == some o || (kvGetD h.own.read word []).contains o

/-- A resource returns to owner 1. -/
def Hw.revokeRes (h : Hw) (o word : Nat) : Hw :=
  let t := word / 2 ^ 24
  let i := word % 2 ^ 24
  let was := kvGet h.own.conf word == some o
  let h := h.onOwn (fun w => { w with
    conf := if was then kvDel w.conf word else w.conf
    read := kvMod w.read word [] (fun l => without l o) })
  if !was then h
  else match t with
    | 6 => if o = 2 then h.setFld (Reg.TIME_TB_CTRL i) Fld.TIME_TB_CTRL_HOST_WR 0 else h
    | 13 => { h with tim := { h.tim with txtsOwner := kvPut h.tim.txtsOwner i 1 } }
    | 1 => { h with fwd := { h.fwd with svcOwner := kvDel h.fwd.svcOwner i } }
    | _ => h

/-- Everything the owner was granted. -/
def Hw.grantsOf (h : Hw) (o : Nat) : List Nat :=
  (h.own.conf.filter (fun e => e.2 == o)).map (·.1) ++ (h.own.read.filter (fun e => e.2.contains o)).map (·.1)

/-- Point at owner 1 every field that names the owner as a buffer owner (R21 step 1): port defaults, service assignments, OWNER of
stream entries and of routing rules; with them what the bridge and the services hold and have not yet had admitted. -/
def Hw.repoint (h : Hw) (o : Nat) : Hw :=
  let em (e : EmEntry) : EmEntry := if e.type != 0 && e.owner == some o then { e with owner := some 1 } else e
  let rule (r : List Nat) : List Nat :=
    let w := r.getD 2 0
    if w.testBit 31 && bits w 24 16 == o then r.set 2 (w - o * 2 ^ 16 + 2 ^ 16) else r
  let lag (l : Nat × List (Nat × Option EmEntry)) : Nat × List (Nat × Option EmEntry) := (l.1, l.2.map (fun e => (e.1, e.2.map em)))
  let src (f : SrcFrame) : SrcFrame := if f.owner == o then { f with owner := 1 } else f
  let batch (b : Batch) : Batch := if b.owner == o then { b with owner := 1 } else b
  let h := h.onSwc (fun s => { s with srcWait := s.srcWait.map (fun w => if w.1 = 24 ∨ w.1 = 27 then w else (w.1, w.2.map src)) })
  { h with
    fwd := { h.fwd with
      defOwner := h.fwd.defOwner.filter (fun e => e.2 != o)
      svcOwner := h.fwd.svcOwner.filter (fun e => e.2 != o)
      em := h.fwd.em.map (fun e => (e.1, em e.2))
      lagA := h.fwd.lagA.map lag
      lagB := h.fwd.lagB.map lag }
    brg := { h.brg with
      rules := h.brg.rules.map (fun r => (r.1, rule r.2))
      batch := h.brg.batch.map (fun b => (b.1, batch b.2)) } }

/-- Firmware that keeps the life cycle of owners runs: the C-image, or the recovery service (R36, R37, R341). -/
def Hw.fwLife (h : Hw) : Bool := h.fwRuns || h.flag Reg.MBX_STATUS Fld.MBX_STATUS_SAFE_SET

/-- Steps 1 and 2 of a teardown (R21): admission stops, commands in flight complete with ABORTED. -/
def Hw.tearNow (h : Hw) (o : Nat) (again : Bool) : Hw :=
  match kvGet h.own.tear o with
  | some t => h.onOwn (fun w => { w with tear := kvPut w.tear o { t with again := t.again || again } })
  | none =>
    if !h.own.active.contains o then h
    else
      let h := (h.setFld (Reg.MBX_OWNER_STATUS o) Fld.MBX_OWNER_STATUS_READY 0).repoint o
      let l := (h.inFlight o).filter (fun s => !s.2.committed)
      let h := h.onOwn (fun w => { w with tear := kvPut w.tear o ⟨0, l.length, false, again⟩ })
      l.foldl (fun a s => a.abortSlot o (s.1 % 32)) h

/-- Teardown begins; one that is due while no firmware runs to do it begins once it runs again (R37). -/
def Hw.tearStart (h : Hw) (o : Nat) (again : Bool) : Hw :=
  if h.fwLife then h.tearNow o again
  else if h.own.active.contains o then h.onOwn (fun w => { w with due := kvMod w.due o false (· || again) })
  else h

/-- The teardowns that waited for firmware begin (R37). -/
def Hw.tearDue (h : Hw) : Hw :=
  h.own.due.foldl (fun a d => a.tearNow d.1 d.2) (h.onOwn (fun w => { w with due := [] }))

/-- The rings of an owner. -/
def ringsOf (o : Nat) : List Nat := if 2 ≤ o ∧ o ≤ 257 then (List.range 8).map (fun q => (o - 2) * 8 + q) else []

/-- The Rill FIFOs bound to an owner's queues. -/
def Hw.rillsOf (h : Hw) (o : Nat) : List Nat :=
  (h.fbus.rill.map (·.1)).filter (fun f =>
    h.fld (Reg.FBUS_RILL_CFG f) Fld.FBUS_RILL_CFG_QUEUE / 8 == 1024 + o)

/-- A frame is discarded whatever its copies: what is being sent of it ends here, while its key can still be used (R22). -/
def Hw.cutFrame (h : Hw) (id : Nat) : Hw :=
  match h.frame? id with
  | none => h
  | some f =>
    let sends (c : Copy) : Bool := c.st == CopyState.sending
    let h := (f.copies.filter (fun c => !sends c)).foldl (fun a c => a.txStamp f c.egress none) h
    ((f.copies.filter sends).foldl (fun a c => a.cutTx c.egress id) h).dropFrame id

/-- Frames of the owner in the Basin, and samples encrypted under its key, are discarded (R22). -/
def Hw.dropOwned (h : Hw) (o : Nat) : Hw :=
  let h := (h.swc.frames.filter (fun f => f.owner == o && !f.dead)).foldl (fun a f => a.cutFrame f.id) h
  (h.swc.samples.filter (fun x => x.owner == o)).foldl (fun a x => a.dropSample x.cell) h

/-- The verdict records of a stream are gone. -/
def dropRecs (x : VieS) : VieS := { x with recs := [] }

/-- Step 3 ends: what remains is discarded and counted (R21): frames for its rings and under its key, packets, jobs, the records of its
streams, its samples, frames of the host engine and of the lookaside engine that still wait for credit; staged records are lost. -/
def Hw.drainOwner (h : Hw) (o : Nat) (t : Tear) : Hw :=
  let rs := ringsOf o
  let pend := rs.flatMap (fun r => (h.ringAt r).pend ++ (h.ringAt r).head)
  let n := (pend.filterMap (·.frame) ++ (h.swc.frames.filter (fun f => f.owner == o && !f.dead)).map (·.id)).dedup.length
  let m := ((h.rillsOf o).map (fun f => (kvGetD h.fbus.rill f ⟨[], 0, false, 0⟩).pkts.length)).sum
  let jobs := (h.sec.jobs.filter (fun j => j.2.owner == o)).length
  let vies := (h.vie.s.filter (fun v => h.holder 3 v.1 == o)).map (·.1)
  let v := (vies.map (fun s => match kvGet h.vie.s s with | some x => x.recs.length | none => 0)).sum
  let smp := h.swc.samples.filter (fun x => x.queue == 14877 && h.holder 9 x.sampler == o)
  let mine (w : Nat × List SrcFrame) : List SrcFrame := w.2.filter (fun f => f.owner == o)
  let src := (h.swc.srcWait.map (fun w => (mine w).length)).sum
  let h := rs.foldl (fun a r => if a.txEn r then a.txFlush r else a) h
  let h := pend.foldl (fun b p => b.dropRef p) h
  let h := h.onHdma (fun d => { d with ring := d.ring.filter (fun r => !rs.contains r.1) })
  let h := (h.rillsOf o).foldl (fun a f => { a with fbus := { a.fbus with rill := kvDel a.fbus.rill f } }) h
  let h := smp.foldl (fun a x => a.dropSample x.cell) h
  let h := h.onSwc (fun s => { s with
    srcWait := (s.srcWait.map (fun w => (w.1, w.2.filter (fun f => f.owner != o)))).filter (fun w => !w.2.isEmpty) })
  let h := { h with
    sec := { h.sec with jobs := h.sec.jobs.filter (fun j => j.2.owner != o) }
    vie := { h.vie with s := h.vie.s.map (fun (x : Nat × VieS) => if vies.contains x.1 then (x.1, dropRecs x.2) else x) } }
  let lost := h.evq.staging.filter (fun (r : EvRec) => r.owner == o)
  let h := h.onEvq (fun q => { q with staging := q.staging.filter (fun r => r.owner != o) })
  let h := lost.foldl (fun a _ => a.loseRecord o) h
  let h := (h.dropOwned o).add Reg.SEC_JOBS_DONE jobs
  h.onOwn (fun w => { w with tear := kvPut w.tear o { t with frames := t.frames + n + m + jobs + v + smp.length + src } })

/-- Step 4: Treust destroys the owner's keys and every copy of them, SAs and authentication entries it installed are disabled
(R374), its banks return to owner 1 in CLEAR mode (R403), its resources to owner 1. -/
def Hw.eraseOwner (h : Hw) (o : Nat) (t : Tear) : Hw :=
  let mo := kvGet h.sec.mo o
  let h := h.onSec (fun s => { s with mo := kvDel s.mo o, rot := kvDel s.rot o, pubs := if 258 ≤ o then kvDel s.pubs o else s.pubs })
  let h := h.onOwn (fun w => { w with
    keys := kvDel (kvDel w.keys (o * 2)) (o * 2 + 1), keySel := kvDel w.keySel o, retiring := kvDel w.retiring o
    session := kvDel w.session o, tear := kvPut w.tear o { t with erased := true } })
  let h := { h with
    mac := { h.mac with sa := h.mac.sa.map (fun (e : Nat × Sa) => if e.2.by_ == o then (e.1, { e.2 with en := false, key := 0, salt := 0 }) else e) }
    brg := { h.brg with auth := h.brg.auth.map (fun (e : Nat × Auth) => if e.2.by_ == o then (e.1, { e.2 with key := none }) else e) }
    vie := { h.vie with ring := h.vie.ring.map (fun (r : Nat × RsvRing) => if mo.isSome && r.2.sealKey == mo then (r.1, { r.2 with sealKey := none }) else r) }
    tim := { h.tim with domOwner := h.tim.domOwner.filter (fun e => e.2 != o) } }
  let h := (h.grantsOf o).foldl (fun a w => a.revokeRes o w) h
  let h := ((List.range 16).filter (fun b => h.bankFld b Fld.MEM_BANK_OWNER_OWNER == o)).foldl (fun a b => a.ownerWrite b 1 false none) h
  (h.inc Reg.SEC_KEYS_DESTROYED).post 1 0x0B02 o

/-- Debug level `n` is open (R395). -/
def Hw.debugOpen (h : Hw) (n : Nat) : Hw :=
  ((h.setFld Reg.SEC_STATUS Fld.SEC_STATUS_DEBUG_LEVEL n).post 1 0x0B05 0 n).post 2 0x0B05 0 n

/-- A debug level 3 that was proved opens once no owner but 0 holds a key. -/
def Hw.debugSettle (h : Hw) : Hw :=
  if h.sec.dbgWant && h.sec.mo.all (fun e => e.1 == 0) then
    (h.onSec (fun s => { s with dbgWant := false })).debugOpen 3 else h

/-- The commands that wait for the end of a teardown. -/
def Hw.tearWaits (h : Hw) (o : Nat) : List Nat :=
  (h.mbx.slots.filter (fun x => x.2.st == 2 && x.2.opcode == 0x0202 && x.2.committed && x.2.payload.getD 0 0 % 512 == o)).map (·.1)

/-- TEARDOWN_DRAIN_END (R21): the drain ends, what is left is discarded, the key is destroyed; every OWN_TEARDOWN of the owner completes
with the frames discarded and the commands aborted (R354). -/
def execTeardownDrainEnd (owner : Nat) (s : State) : Res :=
  onHw s (fun h => match kvGet h.own.tear owner with
    | none => h
    | some t =>
      if t.erased || !h.fwLife then h
      else
        let h := h.drainOwner owner t
        let t := kvGetD h.own.tear owner t
        let h := (h.eraseOwner owner t).debugSettle
        (h.tearWaits owner).foldl (fun a k => a.complete k cOk 0 [t.frames, t.cmds]) h)

/-- The PCIe function of an owner is enabled (R20, R301): that of owner 2 once the host interface is ready, a virtual one once the
C-image is. -/
def Hw.functionOn (h : Hw) (o : Nat) : Bool :=
  h.hdma.linkUp && (if o = 2 then h.flag Reg.HDMA_STATUS Fld.HDMA_STATUS_READY
    else decide (3 ≤ o) && decide (o ≤ h.hdma.numVfs + 2) && h.fwRuns)

/-- No CLEAR of a bank that the owner held is still running or held back (R403). -/
def Hw.clearsDone (h : Hw) (o : Nat) : Bool :=
  (List.range 16).all (fun b => (h.bankFld b Fld.MEM_BANK_OWNER_CLEARING == 0 || (kvGetD h.mem.old b (1, 0)).1 != o) &&
    (kvGetD h.mem.pend b []).isEmpty)

/-- OWNER_NUMBER_FREE (R403): the number becomes free; a function's owner is created again when the
function is enabled (R20, R302). -/
def execOwnerNumberFree (owner : Nat) (s : State) : Res :=
  onHw s (fun h => match kvGet h.own.tear owner with
    | none => h
    | some t =>
      if !t.erased || !h.clearsDone owner || !h.fwLife then h
      else
        let h := h.onOwn (fun w => { w with tear := kvDel w.tear owner, active := without w.active owner })
        let h := (h.clearOwnerRegs owner).clearOwnerQueues owner
        if t.again && h.functionOn owner then h.createOwner owner else h)

end Sys2Proof.Machine
end

