-- ==== Sys2Proof/Machine/VieOps.lean ====
section
/-!
DEFINITION. The Video Integrity Engine and the Reservoir (R147 to R174): frame assembly, checks, alarms, actions, rings.
-/
namespace Sys2Proof.Machine

/-- Update the VIE. -/
def Hw.onVie (h : Hw) (f : Vie → Vie) : Hw := { h with vie := f h.vie }

/-- Set a stream's state. -/
def Hw.setVie (h : Hw) (s : Nat) (v : VieS) : Hw := h.onVie (fun x => { x with s := kvPut x.s s v })

/-- A stream as it is when enabled: no history. -/
def VieS.init : VieS := {
  openF := false, bytes := [], broken := false, ts := none, lastSeq := none, seqGap := false, disc := false, hist := none,
  lastTs := 0, prevTs := none, missed := 0, armed := none, wait := [], alarm := 0, fc := List.replicate 7 0,
  good := List.replicate 7 0, passes := List.replicate 7 0, staticRun := 0, staticSaid := false, pend := none, seqNo := 0,
  avtp := none, okTs := 0, okCnt := 0, fbReq := none, fbTo := none, forcing := false,
  recs := [], entering := 0, tFail := 0, closedNo := 0, fresh := false }

/-- A field of VIE_S_CFG. -/
def Hw.vcfg (h : Hw) (s : Nat) (f : Field) : Nat := h.fld (Reg.VIE_S_CFG s) f

/-- CHECK_EN of a stream. -/
def Hw.checkEn (h : Hw) (s : Nat) : Nat := h.vcfg s Fld.VIE_S_CFG_CHECK_EN

/-- THRESH of a check. -/
def Hw.thresh (h : Hw) (s k : Nat) : Nat := bits (h.rn (Reg.VIE_S_THRESH s)) (4 * k + 3) (4 * k)

/-- The alarm channel of a check (R163). -/
def Hw.channel (h : Hw) (s k : Nat) : Nat := bits (h.rn (Reg.VIE_S_ACT s)) (4 * k + 3) (4 * k)

/-- Time of a stream's base in ns. -/
def Hw.vieNow (h : Hw) (s : Nat) : Nat := h.tbNs (h.vcfg s Fld.VIE_S_CFG_TB)

/-! ### The state registers -/

/-- Channels on which a stream is in alarm. -/
def Hw.alarmChannels (h : Hw) : List Nat :=
  ((h.vie.s.flatMap (fun v => (bitsOf 7 v.2.alarm).map (fun k => h.channel v.1 k)))).dedup

/-- VIE_S_STATE of a stream, the alarm masks and CH_ACTIVE follow the streams' states. -/
def Hw.showVie (h : Hw) (s : Nat) : Hw :=
  let r := Reg.VIE_S_STATE s
  let h := match kvGet h.vie.s s with
    | none => h.wn r 0
    | some v =>
      let mx := ((bitsOf 7 (h.checkEn s)).map (fun k => v.fc.getD k 0)).foldl max 0
      let asFb := h.vie.s.any (fun x => x.2.fbTo == some s)
      h.wn r (asFb.toNat * 2 ^ 17 + v.fbTo.isSome.toNat * 2 ^ 16 + v.openF.toNat * 2 ^ 15 + v.alarm * 2 ^ 8 + mx)
  let m := maskOf ((h.vie.s.filter (fun v => v.2.alarm != 0)).map (·.1))
  let h := (h.wn Reg.VIE_ALARM_LO m).wn Reg.VIE_ALARM_HI (m / 2 ^ 32)
  h.setFld Reg.VIE_STATUS Fld.VIE_STATUS_CH_ACTIVE (maskOf h.alarmChannels)

/-! ### Notices (R167, R168) -/

/-- The stream_id of a watched stream: that of its packets, or of the type-3 entry that names it; otherwise none stated. -/
def Hw.streamId (h : Hw) (s : Nat) : Nat :=
  match (kvGetD h.vie.s s VieS.init).avtp with
  | some i => i
  | none => match h.fwd.em.find? (fun e => e.2.type == 3 && e.2.vie == some s) with
    | some e => e.2.key
    | none => h.draw % 2 ^ 64

/-- The notice frame of a stream; its source address is a free value. -/
def Hw.noticeFrame (h : Hw) (s state : Nat) (v : VieS) : List Byte :=
  let n := h.rn (Reg.VIE_S_NOTICE s)
  let da := getF n Fld.VIE_S_NOTICE_NOTICE_DA_HI * 2 ^ 32 + h.rn (Reg.VIE_S_NOTICE_DA s)
  let fbId := match v.fbTo with | some f => h.streamId f | none => 0
  padFcs60 (toBe 6 da ++ toBe 6 (h.draw / 2 ^ 64 % 2 ^ 48) ++ toBe 2 0x8100 ++
    toBe 2 (7 * 2 ^ 13 + getF n Fld.VIE_S_NOTICE_NOTICE_VID) ++ toBe 2 0x22F0 ++
    toBe 1 (h.fld Reg.VIE_NOTICE_CFG Fld.VIE_NOTICE_CFG_SUBTYPE) ++ toBe 1 0x80 ++ toBe 2 32 ++ toBe 8 (h.streamId s) ++
    toBe 1 1 ++ toBe 1 state ++ toBe 2 v.seqNo ++ toBe 1 v.alarm ++ toBe 1 v.fbTo.isSome.toNat ++ toBe 2 0 ++ toBe 8 fbId ++
    toBe 4 v.okTs ++ toBe 4 v.okCnt ++ toBe 4 (h.vieNow s) ++ toBe 4 0)
where
  /-- Fill to 60 bytes and append the FCS. -/
  padFcs60 (b : List Byte) : List Byte :=
    let p := b ++ List.replicate (60 - b.length) 0
    p ++ fcsOf p

/-- Send a notice of a stream, if notices are enabled; `told` is the verdict time of the alarm it reports. -/
def Hw.notice (h : Hw) (s state : Nat) (told : Option Nat) : Hw :=
  if h.flag (Reg.VIE_S_NOTICE s) Fld.VIE_S_NOTICE_EN && h.fld Reg.VIE_NOTICE_CFG Fld.VIE_NOTICE_CFG_SUBTYPE != 0 then
    let v := kvGetD h.vie.s s VieS.init
    let b := h.noticeFrame s state v
    (h.drawn.setVie s { v with seqNo := (v.seqNo + 1) % 65536 }).sendInternal 28
      ⟨h.svcOwner 28, b, none, none, 0, none, none, some s, told, h.clk⟩
  else h

/-- Send a notice that shows the stream's present state: FRESH or STALE. -/
def Hw.noticeNow (h : Hw) (s : Nat) (told : Option Nat := none) : Hw :=
  match kvGet h.vie.s s with
  | some v => h.notice s (if v.alarm = 0 then 0 else 1) told
  | none => h

/-! ### Fallback (R165) -/

/-- The stream a requested fallback may deliver now: watched and not in alarm, so not in fallback itself. -/
def Hw.fallbackNow (h : Hw) (v : VieS) : Option Nat :=
  match v.fbReq with
  | some f => match kvGet h.vie.s f with
    | some x => if x.alarm = 0 then some f else none
    | none => none
  | none => none

/-- Bring the fallbacks in line with the alarms; every change is shown and told by a notice. -/
def Hw.refreshFallbacks (h : Hw) : Hw :=
  let changed := (h.vie.s.filter (fun v => v.2.fbTo != h.fallbackNow v.2)).map (·.1)
  let h' := h.onVie (fun x => { x with s := x.s.map (fun v => (v.1, { v.2 with fbTo := h.fallbackNow v.2 })) })
  let h' := (h'.vie.s.map (·.1)).foldl Hw.showVie h'
  changed.foldl (fun a s => a.noticeNow s) h'

/-! ### Redundancy forcing (R166) -/

/-- Whether another stream that names the pair is in alarm, and the value it would force. -/
def Hw.otherForce (h : Hw) (s pair : Nat) : Option Nat :=
  (h.vie.s.find? (fun v => v.1 != s && v.2.alarm != 0 && h.flag (Reg.VIE_S_FALLBACK v.1) Fld.VIE_S_FALLBACK_FRER_EN
    && h.fld (Reg.VIE_S_FALLBACK v.1) Fld.VIE_S_FALLBACK_FRER_PAIR == pair)).map
    (fun v => h.fld (Reg.VIE_S_FALLBACK v.1) Fld.VIE_S_FALLBACK_FRER_FORCE)

/-- Write FORCE of a pair (R138). -/
def Hw.setForce (h : Hw) (pair v : Nat) : Hw := h.setFld (Reg.TSS_FRER_CFG pair) Fld.TSS_FRER_CFG_FORCE v

/-- The VIE_FRER task on one stream. -/
def Hw.forceFrer (h : Hw) (s : Nat) : Hw :=
  let r := Reg.VIE_S_FALLBACK s
  if h.flag r Fld.VIE_S_FALLBACK_FRER_EN then
    let pair := h.fld r Fld.VIE_S_FALLBACK_FRER_PAIR
    let f := if (h.otherForce s pair).isSome then 0 else h.fld r Fld.VIE_S_FALLBACK_FRER_FORCE
    let h := h.setForce pair f
    h.setVie s { kvGetD h.vie.s s VieS.init with forcing := true }
  else h

/-- FORCE of a stream's pair as it is without the stream: 0, or the other member's value while that is in alarm (R166). -/
def Hw.unforce (h : Hw) (s : Nat) : Hw :=
  if h.flag (Reg.VIE_S_FALLBACK s) Fld.VIE_S_FALLBACK_FRER_EN then
    let pair := h.fld (Reg.VIE_S_FALLBACK s) Fld.VIE_S_FALLBACK_FRER_PAIR
    (h.setForce pair ((h.otherForce s pair).getD 0)).setVie s { kvGetD h.vie.s s VieS.init with forcing := false }
  else h

/-! ### Enabling and disabling (R162) -/

/-- A stream is enabled: every enabled check with a threshold starts in alarm, and no enter action is fired. -/
def Hw.vieEnable (h : Hw) (s : Nat) : Hw :=
  let ks := (bitsOf 7 (h.checkEn s)).filter (fun k => h.thresh s k != 0)
  let old := kvGetD h.vie.s s VieS.init
  let v : VieS := { VieS.init with
    alarm := maskOf ks, fc := (List.range 7).map (fun k => if ks.contains k then h.thresh s k else 0), seqNo := old.seqNo }
  let h := (h.setVie s v).onVie (fun x => { x with look := x.look.map (fun k => if k.1 = s then (k.1, { k.2 with openF := false }) else k) })
  ((h.refreshFallbacks).showVie s).noticeNow s

/-- A stream is disabled: its fallback, and forcing that it took part in, are undone, one UNWATCHED notice, alarm states dropped without a leave record. -/
def Hw.vieDisable (h : Hw) (s : Nat) : Hw :=
  match kvGet h.vie.s s with
  | none => h
  | some v =>
    let h := if v.forcing || v.alarm != 0 then h.unforce s else h
    let h := h.setVie s { kvGetD h.vie.s s v with alarm := 0, fbReq := none, fbTo := none }
    let h := h.notice s 2 none
    let h := h.onVie (fun x => { x with s := kvDel x.s s })
    (h.refreshFallbacks).showVie s

/-! ### Alarms (R160, R161, R163) -/

/-- A channel's cause latches a stream: the streams of one cycle stand in it together (R163). -/
def Hw.latchCause (h : Hw) (s c : Nat) : Hw :=
  let old := h.rn (Reg.VIE_CH_CAUSE_HI c) * 2 ^ 32 + h.rn (Reg.VIE_CH_CAUSE_LO c)
  let m := (if kvGet h.vie.fired c = some h.clk then old else 0) ||| 2 ^ s
  ((h.wn (Reg.VIE_CH_CAUSE_LO c) m).wn (Reg.VIE_CH_CAUSE_HI c) (m / 2 ^ 32)).onVie (fun x => { x with fired := kvPut x.fired c h.clk })

/-- Checks enter alarm: CH_CAUSE latches the stream, every channel's VIE_ENTER fires in one cycle, and a notice tells of it (R168). -/
def Hw.enterAlarm (h : Hw) (s mask : Nat) : Hw :=
  let cs := ((bitsOf 7 mask).map (fun k => h.channel s k)).dedup
  let h := cs.foldl (fun a c => a.latchCause s c) h
  (h.fire cs).refreshFallbacks.noticeNow s (some h.clk)

/-- Checks leave alarm: channels without a stream in alarm fire VIE_IDLE; a stream that leaves alarm altogether has its
fallback and forcing undone, a FRESH notice sent, and a VIE_CLEAR record posted (R164). `was` are the channels active before. -/
def Hw.leaveAlarm (h : Hw) (s : Nat) (was : List Nat) : Hw :=
  let now := h.alarmChannels
  let h := h.fire ((was.filter (fun c => !now.contains c)).map (16 + ·))
  let v := kvGetD h.vie.s s VieS.init
  if v.alarm = 0 then
    let h := h.setVie s { v with fbReq := none, fbTo := none }
    let h := if h.flag (Reg.VIE_S_FALLBACK s) Fld.VIE_S_FALLBACK_FRER_RESTORE then h.unforce s else h
    let h := (h.refreshFallbacks).showVie s
    (h.noticeNow s).postG 3 s 0x0902 s
  else (h.refreshFallbacks).noticeNow s

/-- One check's counts after a frame: failure count, run of passes, DECAY count, whether it enters or leaves. -/
structure Score where
  fc    : Nat
  good  : Nat
  pass  : Nat
  enter : Bool
  leave : Bool

/-- Score a check that was evaluated (R160, R161), by the settings of `h`. -/
def Hw.scoreCheck (h : Hw) (s k : Nat) (v : VieS) (fail : Bool) : Score :=
  let t := h.thresh s k
  let inAlarm := v.alarm.testBit k
  let hyst := h.rn (Reg.VIE_S_HYST s)
  if fail then
    let n := min 15 (v.fc.getD k 0 + 1)
    ⟨n, 0, 0, t != 0 && decide (t ≤ n) && !inAlarm, false⟩
  else
    let d := getF hyst Fld.VIE_S_HYST_DECAY
    let p := v.passes.getD k 0 + 1
    let fc := if d = 0 then 0 else if d ≤ p then v.fc.getD k 0 - 1 else v.fc.getD k 0
    let g := v.good.getD k 0 + 1
    if inAlarm && decide (getF hyst Fld.VIE_S_HYST_CLEAR_N ≤ g) then ⟨0, 0, 0, false, true⟩
    else ⟨fc, g, if d ≤ p then 0 else p, false, false⟩

/-- A verdict is counted: `ev` are the checks evaluated, `fails` those that failed, `tFail` its failure instant, `c` a state with the
settings it is judged by (R162). -/
def Hw.score (h : Hw) (c : Hw) (s : Nat) (v : VieS) (ev fails : Nat) (complete : Bool) (tFail : Nat) : Hw :=
  let en := c.checkEn s &&& ev
  let v := if complete then v else { v with good := List.replicate 7 0 }
  let sc := (List.range 7).map (fun k =>
    if en.testBit k then c.scoreCheck s k v (fails.testBit k)
    else ⟨v.fc.getD k 0, v.good.getD k 0, v.passes.getD k 0, false, false⟩)
  let ent := maskOf ((List.range 7).filter (fun k => (sc[k]?.map Score.enter).getD false))
  let lea := maskOf ((List.range 7).filter (fun k => (sc[k]?.map Score.leave).getD false))
  let was := h.alarmChannels
  let h := (bitsOf 7 (en &&& fails)).foldl (fun a k => a.inc (Reg.VIE_S_FAIL s k)) h
  let v := { v with
    fc := sc.map Score.fc, good := sc.map Score.good, passes := sc.map Score.pass,
    alarm := (v.alarm ||| ent) &&& (127 - lea),
    entering := if ent = 0 then v.entering else ent, tFail := if ent = 0 then v.tFail else tFail }
  let h := (h.setVie s v).showVie s
  let h := if lea = 0 then h else h.leaveAlarm s was
  if ent = 0 then h else h.enterAlarm s ent

/-! ### Frames (R150 to R156) -/

/-- Bits `o` to `o + n − 1` of a byte string, most significant first. -/
def bitField (b : List Byte) (o n : Nat) : Nat :=
  let x := sub b (o / 8) ((o % 8 + n + 7) / 8)
  be x / 2 ^ (8 * x.length - o % 8 - n) % 2 ^ n

/-- The lattice samples of a frame, 16 bits each (R156). -/
def Hw.lattice (h : Hw) (s : Nat) (b : List Byte) : List Byte :=
  let org := h.rn (Reg.VIE_S_LAT_ORG s)
  let stp := h.rn (Reg.VIE_S_LAT_STEP s)
  let cnt := h.rn (Reg.VIE_S_LAT_COUNT s)
  let px := h.rn (Reg.VIE_S_PIXEL s)
  let nx := getF cnt Fld.VIE_S_LAT_COUNT_NX
  let x (i : Nat) : Nat := getF org Fld.VIE_S_LAT_ORG_X0 + i * getF stp Fld.VIE_S_LAT_STEP_DX
  let y (j : Nat) : Nat := getF org Fld.VIE_S_LAT_ORG_Y0 + j * getF stp Fld.VIE_S_LAT_STEP_DY
  let bitsN := getF px Fld.VIE_S_PIXEL_PIX_BITS
  let nb := (bitsN + 7) / 8
  if h.vcfg s Fld.VIE_S_CFG_FORMAT = 1 then
    (List.range nx).flatMap (fun i => if x i + 2 ≤ b.length then sub b (x i) 2 else [])
  else
    (List.range (getF cnt Fld.VIE_S_LAT_COUNT_NY)).flatMap (fun j =>
      let base := y j * getF px Fld.VIE_S_PIXEL_LINE_BYTES
      (List.range nx).flatMap (fun i =>
        toBe 2 (if getF px Fld.VIE_S_PIXEL_PACK = 1 then bitField b (base * 8 + x i * bitsN) bitsN
          else be (sub b (base + x i * nb) nb) % 2 ^ bitsN)))

/-- Width of the camera counter in bits. -/
def Hw.cntWidth (h : Hw) (s : Nat) : Nat := 8 * (h.fld (Reg.VIE_S_COUNTER s) Fld.VIE_S_COUNTER_WIDTH + 1)

/-- The camera counter of a frame (R154); where the payload has no such bytes it is a free value. -/
def Hw.counterOf (h : Hw) (s : Nat) (b : List Byte) : Nat :=
  let o := h.fld (Reg.VIE_S_COUNTER s) Fld.VIE_S_COUNTER_COUNTER_OFFSET
  let n := h.cntWidth s / 8
  if o + n ≤ b.length then be (sub b o n) else h.draw % 2 ^ h.cntWidth s

/-- FRAME_BYTES of a stream. -/
def Hw.frameBytes (h : Hw) (s : Nat) : Nat := h.fld (Reg.VIE_S_FRAME s) Fld.VIE_S_FRAME_FRAME_BYTES

/-! ### The Reservoir (R171 to R173) -/

/-- The ring that records a stream, if it is recording now. -/
def Hw.ringOf (h : Hw) (s : Nat) : Option Nat :=
  (List.range 16).find? (fun r =>
    h.flag (Reg.RSV_RING_CFG r) Fld.RSV_RING_CFG_EN && h.fld (Reg.RSV_RING_CFG r) Fld.RSV_RING_CFG_STREAM == s &&
    (h.fld (Reg.RSV_RING_STATE r) Fld.RSV_RING_STATE_STATE == 1 || h.fld (Reg.RSV_RING_STATE r) Fld.RSV_RING_STATE_STATE == 2))

/-- A ring with nothing recorded. -/
def RsvRing.empty : RsvRing :=
  { frames := [], closed := [], cur := [], times := [], wptr := 0, behind := false, postEnd := 0, trig := [], trigAt := none,
    sealKey := none }

/-- Update a ring. -/
def Hw.onRing (h : Hw) (r : Nat) (f : RsvRing → RsvRing) : Hw :=
  h.onVie (fun x => { x with ring := kvMod x.ring r RsvRing.empty f })

/-- Bytes of a recorded frame. -/
def recBytes (f : List (List Byte)) : Nat := (f.map List.length).sum

/-- The stored form of a packet (R172): 16-byte header, bytes from destination address to FCS, zeros to a multiple of 16. -/
def Hw.storedPacket (h : Hw) (s : Nat) (f : Frame) (b : List Byte) : List Byte :=
  let ns := stampNs f.stamps (h.vcfg s Fld.VIE_S_CFG_TB)
  let flags := match f.bad with | some c => 2 ^ 31 + c % 8 | none => 0
  toLe 4 (ns / 1000000000) ++ toLe 4 (ns % 1000000000) ++ toLe 4 b.length ++ toLe 4 flags ++ b ++
    List.replicate ((16 - b.length % 16) % 16) 0

/-- The memory the rings lie in is on and ready. -/
def Hw.lpddrReady (h : Hw) : Bool := h.pg 47 && h.flag Reg.PWR_READY ⟨11, 11⟩

/-- What a ring stages of frames that are not in it yet is dropped. -/
def RsvRing.unstage (x : RsvRing) : RsvRing := { x with closed := [], cur := [], times := [] }

/-- A packet of a recorded stream reaches its ring; what was recorded under another key of the Reservoir's buffer owner than the present
one is lost (R23, R171). `behind` when the write path cannot take it. -/
def Hw.recordPacket (h : Hw) (s : Nat) (f : Frame) (b : List Byte) (behind : Bool) : Hw :=
  match h.ringOf s with
  | none => h
  | some r =>
    if !h.lpddrReady then h
    else
      let k := kvGet h.sec.mo (h.svcOwner 28)
      h.onRing r (fun x =>
        let x := if x.sealKey = k then x else { x.unstage with frames := [], wptr := 0, sealKey := k }
        { x with cur := x.cur ++ [h.storedPacket s f b], times := x.times ++ [h.clk], behind := x.behind || behind })

/-- Base and size of a ring in bytes. -/
def Hw.ringBase (h : Hw) (r : Nat) : Nat := h.fld (Reg.RSV_RING_BASE r) Fld.RSV_RING_BASE_BASE_MIB * 2 ^ 20
def Hw.ringSize (h : Hw) (r : Nat) : Nat := h.fld (Reg.RSV_RING_SIZE r) Fld.RSV_RING_SIZE_SIZE_MIB * 2 ^ 20

/-- Bytes filled up with zeros to whole lines of 64. -/
def toLines (l : List Byte) : List Byte := l ++ List.replicate ((64 - l.length % 64) % 64) 0

/-- Lines of LPDDR5 through AES-XTS-256 (R380) under the two data keys of an owner (R370): the tweak of a line is its physical address
divided by 64. The lines run from `addr` on, around a ring of `size` bytes from `base`. -/
def lineCrypt (enc : Bool) (mo : BitVec 256) (base size addr : Nat) (l : List Byte) : List Byte :=
  let k := kdf mo lbLxts [] 512
  (List.range (l.length / 64)).flatMap (fun i =>
    xts256 enc (BitVec.ofNat 256 (k / 2 ^ 256)) (BitVec.ofNat 256 k) ((base + (addr - base + 64 * i) % max size 1) / 64) (sub l (64 * i) 64))

/-- A video frame closes: the packets recorded wait for the frame record of frame `no`; one that cannot be written is left out whole
(R172). -/
def Hw.recordClose (h : Hw) (s no : Nat) : Hw :=
  match h.ringOf s with
  | none => h
  | some r =>
    let x := kvGetD h.vie.ring r RsvRing.empty
    let lost := x.behind || decide (h.ringSize r < recBytes x.cur + 64)
    if lost && !x.cur.isEmpty then
      (h.inc (Reg.RSV_DROP r)).onRing r (fun x => { x with cur := [], times := x.times.take (x.times.length - x.cur.length), behind := false })
    else h.onRing r (fun x => { x with closed := x.closed ++ [(no, x.cur)], cur := [], behind := false })

/-- Drop the oldest whole frames until the rest fits. -/
def fitFrames (size : Nat) : List RsvFrame → List RsvFrame
  | [] => []
  | f :: fs => if size < ((f :: fs).map (fun x => x.data.length)).sum then fitFrames size fs else f :: fs

/-- The 64-byte frame record (R172): timestamp, counter, signature, payload CRC, age, verdict bits, then zeros (DESIGN CHOICE, log entry 19). -/
def frameRecord (w : VieFrame) (age verdict : Nat) : List Byte :=
  toLe 4 (w.ts.getD 0) ++ toLe 4 w.counter ++ toLe 8 w.sig ++ toLe 4 w.crc ++ toLe 4 age ++ toLe 4 verdict ++
    List.replicate 36 0

/-- A whole frame with its record is written into a ring behind the last one, over the oldest frames (R172), each frame from the start of
a line on (DESIGN CHOICE, log entry 19). -/
def Hw.writeRing (h : Hw) (r no : Nat) (l : List (List Byte)) : Hw :=
  let x := kvGetD h.vie.ring r RsvRing.empty
  match x.sealKey with
  | none => h
  | some mo =>
    let base := h.ringBase r
    let addr := base + x.wptr
    let data := lineCrypt true mo base (h.ringSize r) addr (toLines l.flatten)
    let w : RsvFrame := ⟨no, addr, l.map List.length, data⟩
    let h := h.onRing r (fun x => { x with
      frames := fitFrames (h.ringSize r) (x.frames ++ [w]), wptr := (x.wptr + data.length) % max (h.ringSize r) 1 })
    h.wn (Reg.RSV_RING_FILL r) (((kvGetD h.vie.ring r RsvRing.empty).frames.map (fun f => f.sizes.sum)).sum / 4096)

/-- A verdict completes the frame record of the frame it judged; the frame enters the ring that records its stream. -/
def Hw.recordVerdict (h : Hw) (s no : Nat) (rec_ : List Byte) : Hw :=
  match (List.range 16).find? (fun r => h.fld (Reg.RSV_RING_CFG r) Fld.RSV_RING_CFG_STREAM == s &&
      h.flag (Reg.RSV_RING_CFG r) Fld.RSV_RING_CFG_EN) with
  | none => h
  | some r =>
    match (kvGetD h.vie.ring r RsvRing.empty).closed.find? (fun c => c.1 == no) with
    | none => h
    | some c =>
      let h := h.onRing r (fun x => { x with closed := x.closed.filter (fun y => y.1 != no), times := x.times.drop c.2.length })
      if c.2.isEmpty then h else h.writeRing r no (c.2 ++ [rec_])

/-! ### Opening and closing -/

/-- The words a closed frame is judged by, kept when later ones come into force (R162). -/
def VieFrame.keepCfg (w : VieFrame) (old : List (Nat × Nat)) : VieFrame :=
  let l := w.cfg.getD []
  { w with cfg := some (l ++ old.filter (fun o => !l.any (fun x => x.1 == o.1))) }

/-- The frame open applies a waiting configuration; the histories begin anew with it, and frames closed before are judged by the
settings and histories they closed under (R162). -/
def Hw.vieOpen (h : Hw) (v : VieS) (gap : Bool) : Hw × VieS :=
  let v := { v with openF := true, bytes := [], broken := false, ts := none, seqGap := gap, disc := false }
  match v.pend with
  | none => (h, v)
  | some ws =>
    let old := ws.map (fun w => (w.1, h.rn w.1))
    (ws.foldl (fun a w => a.wn w.1 w.2) h, { v with pend := none, fresh := true, wait := v.wait.map (fun w => w.keepCfg old) })

/-- A frame closes: what its verdict needs is kept; the watchdog is armed (R153). -/
def Hw.vieClose (h : Hw) (s : Nat) (v : VieS) (f : Frame) (eof : Bool) : Hw × VieS :=
  let n := h.frameBytes s
  let fmt := h.vcfg s Fld.VIE_S_CFG_FORMAT
  let size := if fmt = 0 then v.bytes.length == n else decide (v.bytes.length ≤ n)
  let ok := eof && !v.seqGap && !v.broken && size
  let port := h.vcfg s Fld.VIE_S_CFG_AGE_PORT
  let body := v.bytes.take (v.bytes.length - 4)
  let crc := crc32 body
  let now := h.vieNow s
  let w : VieFrame := {
    complete := ok, ts := v.ts, counter := if ok then h.counterOf s v.bytes else 0,
    sig := if ok then crc64 (h.lattice s v.bytes) else 0, crc := if ok then crc else 0,
    crcOk := be (v.bytes.drop (v.bytes.length - 4)) == crc, close := now, by_ := f.id,
    disp := (f.sentAt.find? (fun e => e.1 == port)).map (fun e => stampNs e.2 (h.vcfg s Fld.VIE_S_CFG_TB)),
    no := v.closedNo, cfg := none, fresh := v.fresh }
  let h := if ok then (h.inc (Reg.VIE_S_FRAMES s)).drawn else h
  (h.recordClose s v.closedNo,
    { v with openF := false, bytes := [], wait := v.wait ++ [w], armed := some (now, 0), closedNo := v.closedNo + 1, fresh := false })

/-- The payload of a packet is placed in the open frame (R511); its last packet closes it (R150). -/
def Hw.viePlace (h : Hw) (s : Nat) (v : VieS) (f : Frame) (p : Avtp) : Hw × VieS :=
  let lb := h.fld (Reg.VIE_S_PIXEL s) Fld.VIE_S_PIXEL_LINE_BYTES
  let bad := h.vcfg s Fld.VIE_S_CFG_FORMAT = 0 && (p.line == 0 || decide (v.bytes.length < (p.line - 1) * lb))
  let all := v.bytes ++ p.payload
  let n := h.frameBytes s
  let v := { v with
    broken := v.broken || bad || decide (n < all.length), bytes := if n < all.length then v.bytes else all,
    ts := if v.ts.isNone && p.tv then some p.ts else v.ts }
  if p.eof then h.vieClose s v f true else (h, v)

/-- A good packet of a watched stream (R149, R150): it may close the open frame, and is recorded; one of another subtype than its
frame's format is counted as lost. -/
def Hw.viePacket (h : Hw) (s : Nat) (v : VieS) (f : Frame) (b : List Byte) (behind : Bool) : Hw × VieS :=
  let read := readPacket (if v.openF then some (h.vcfg s Fld.VIE_S_CFG_FORMAT) else none) (h.vieFormat s) v.ts v.lastSeq v.disc b
  let r := if read.1 then h.vieClose s v f false else (h, v)
  let h := r.1.recordPacket s f b behind
  match read.2 with
  | none => (h.inc (Reg.VIE_S_FORMAT_ERR s), r.2)
  | some (_, p) =>
    let gap := gapBefore v.lastSeq p
    let x := { r.2 with lastSeq := some p.seq, avtp := some p.sid }
    let r := if x.openF then (h, { x with seqGap := x.seqGap || gap, disc := x.disc || gap }) else h.vieOpen x (gap && !read.1)
    r.1.viePlace s r.2 f p

/-! ### The verdict (R152 to R159) -/

/-- The counter class of a complete frame (R154): 0 ADV, 1 STALL, 2 JUMP. -/
def Hw.counterClass (h : Hw) (s : Nat) (v : VieS) (cnt : Nat) : Nat :=
  match v.hist with
  | none => 0
  | some (prev, _, _) =>
    let m := 2 ^ h.cntWidth s
    let step := h.fld (Reg.VIE_S_COUNTER s) Fld.VIE_S_COUNTER_STEP
    if cnt = (prev + step) % m then 0
    else if cnt = prev then 1
    else if (List.range v.missed).any (fun i => cnt == (prev + (i + 2) * step) % m) then 0 else 2

/-- Nanoseconds of a base nearest to an instant given by its low 32 bits. -/
def nearest32 (now t : Nat) : Int := now + signed 32 ((t + 2 ^ 32 - now % 2 ^ 32) % 2 ^ 32)

/-- The rising edges of a sync group's pulse: one of them, and the period, as in force for the pulse output; as set for a group whose
pulse does not run (R170). -/
def Hw.syncEdges (h : Hw) (g s : Nat) : Int × Nat :=
  let c := h.rn (Reg.VIE_SYNC_CFG g)
  let p := getF c Fld.VIE_SYNC_CFG_PULSE
  if getF c Fld.VIE_SYNC_CFG_EN = 1 then
    let sec := h.tbNs (getF c Fld.VIE_SYNC_CFG_TB) / 1000000000 / 2 ^ 32 * 2 ^ 32 + h.rn (Reg.TIME_PULSE_START_S p)
    ((sec * 1000000000 + h.rn (Reg.TIME_PULSE_START_NS p) : Nat), h.rn (Reg.TIME_PULSE_PERIOD p))
  else ((h.rn (Reg.VIE_SYNC_PHASE g) : Nat), h.rn (Reg.VIE_S_NOMINAL s))

/-- `d` is within `tol` of a whole multiple of a period. -/
def nearMultiple (d per tol : Nat) : Bool := per != 0 && (decide (d % per ≤ tol) || decide (per - d % per ≤ tol))

/-- The interval check (R152, R170), by the settings of `h`. -/
def Hw.intervalOk (h : Hw) (s : Nat) (ts prev : Option Nat) : Bool :=
  match ts with
  | none => false
  | some t =>
    let g := h.vcfg s Fld.VIE_S_CFG_SYNC
    if h.vcfg s Fld.VIE_S_CFG_SYNC_EN = 1 then
      let e := h.syncEdges g s
      let now := h.tbNs (h.fld (Reg.VIE_SYNC_CFG g) Fld.VIE_SYNC_CFG_TB)
      let x := nearest32 now ((t + 2 ^ 32 - h.rn (Reg.VIE_S_TS_OFFSET s)) % 2 ^ 32) - e.1
      nearMultiple (x % (max e.2 1 : Nat)).toNat e.2 (h.fld (Reg.VIE_SYNC_CFG g) Fld.VIE_SYNC_CFG_SYNC_TOL_NS)
    else match prev with
      | none => true
      | some q => nearMultiple ((t + 2 ^ 32 - q) % 2 ^ 32) (h.rn (Reg.VIE_S_NOMINAL s))
          (h.fld (Reg.VIE_S_TIMING s) Fld.VIE_S_TIMING_INTERVAL_TOL * 1000)

/-- The age check of a complete frame (R159): evaluated, failed, age. -/
def Hw.ageCheck (h : Hw) (s : Nat) (w : VieFrame) : Bool × Bool × Option Nat :=
  let st := h.fld (Reg.TIME_TB_STATE (h.vcfg s Fld.VIE_S_CFG_TB)) Fld.TIME_TB_STATE_STATE
  if st < 2 then (false, false, none)
  else match w.ts, w.disp with
    | some t, some d =>
      let age := ((d : Int) - t + signed 32 (h.rn (Reg.VIE_S_TS_OFFSET s))) % (2 ^ 32 : Int)
      let a := age.toNat
      (true, decide (2 ^ 31 ≤ a) || decide (h.rn (Reg.VIE_S_AGE_MAX s) < a), some a)
    | _, _ => (true, true, none)

/-- A verdict record goes to queue 0 of the stream when VERDICT_EN is 1; a full queue loses it (R175). -/
def Hw.verdictRecord (h c : Hw) (s : Nat) (v : VieS) (rec_ : List Byte) : Hw × VieS :=
  if c.vcfg s Fld.VIE_S_CFG_VERDICT_EN = 0 then (h, v)
  else if Config.queueMore (15360 + s * 16) < v.recs.length then (h.inc (Reg.VIE_S_VERDICT_LOST s), v)
  else (h, { v with recs := v.recs ++ [(h.clk, rec_)] })

/-- The verdict on an incomplete frame: it fails INCOMPLETE and changes no history (R152). -/
def Hw.judgeShort (h c : Hw) (s : Nat) (v : VieS) (w : VieFrame) (tFail : Nat) : Hw :=
  let rec_ := frameRecord w 0 (2 &&& c.checkEn s)
  let r := h.verdictRecord c s { v with missed := v.missed + 1 } rec_
  (r.1.recordVerdict s w.no rec_).score c s r.2 2 2 false tFail

/-- The verdict on a complete frame (R152 to R160). -/
def Hw.judgeWhole (h c : Hw) (s : Nat) (v : VieS) (w : VieFrame) (prev : Option Nat) (tFail : Nat) : Hw :=
  let ageOn := (c.checkEn s).testBit 5
  let kl := c.counterClass s v w.counter
  let same := match v.hist with | some (_, g, _) => g == w.sig | none => false
  let rep := match v.hist with | some (_, _, r) => r == w.crc | none => false
  let cntBad := kl == 2 || (kl == 1 && !same)
  let frozen := kl == 1 && same
  let static := kl == 0 && same
  let crcOn := c.vcfg s Fld.VIE_S_CFG_CRC_MODE == 2
  let age := if ageOn then c.ageCheck s w else (false, false, none)
  let ev := c.checkEn s &&& maskOf ([0, 1, 2, 3, 4] ++ (if age.1 then [5] else []) ++ (if crcOn then [6] else []))
  let fails := ev &&& maskOf ((if c.intervalOk s w.ts prev then [] else [2]) ++ (if cntBad then [3] else []) ++
    (if frozen then [4] else []) ++ (if age.2.1 then [5] else []) ++ (if w.crcOk then [] else [6]))
  let h := if ageOn && !age.1 then h.inc (Reg.VIE_S_AGE_SKIP s) else h
  let h := match age.2.2 with | some a => h.wn (Reg.VIE_S_LAST_AGE s) a | none => h
  let h := if rep then h.inc (Reg.VIE_S_REPEAT s) else h
  let run := if static then v.staticRun + 1 else 0
  let lim := c.fld (Reg.VIE_S_HYST s) Fld.VIE_S_HYST_STATIC_MAX
  let say := static && lim != 0 && decide (lim ≤ run) && !v.staticSaid
  let h := if static then h.inc (Reg.VIE_S_STATIC s) else h
  let h := if say then h.postG 3 s 0x0903 s run else h
  let h := (h.wn (Reg.VIE_S_LAST_COUNTER s) w.counter).wn (Reg.VIE_S_LAST_SIG_LO s) w.sig
  let h := (h.wn (Reg.VIE_S_LAST_SIG_HI s) (w.sig / 2 ^ 32)).wn (Reg.VIE_S_LAST_CRC s) w.crc
  let v := { v with
    hist := some (w.counter, w.sig, w.crc), lastTs := w.ts.getD 0, missed := 0, staticRun := run,
    staticSaid := (v.staticSaid || say) && same,
    okTs := if fails = 0 then w.ts.getD 0 else v.okTs, okCnt := if fails = 0 then w.counter else v.okCnt }
  let rec_ := frameRecord w (age.2.2.getD 0) fails
  let r := h.verdictRecord c s v rec_
  (r.1.recordVerdict s w.no rec_).score c s r.2 ev fails true tFail

/-- The verdict on a closed frame, by the settings and histories it closed under (R152 to R160, R162). -/
def Hw.judge (h : Hw) (s : Nat) (v : VieS) (w : VieFrame) : Hw :=
  let c := h.asClosed w
  let tFail := if (c.checkEn s).testBit 5 then w.disp.getD w.close else w.close
  let v := if w.fresh then { v with hist := none, staticRun := 0, staticSaid := false } else v
  let x := { v with prevTs := if w.ts.isSome then w.ts else v.prevTs }
  if w.complete then h.judgeWhole c s x w v.prevTs tFail else h.judgeShort c s x w tFail

end Sys2Proof.Machine
end

