-- ==== Sys2Proof/Machine/Hdma.lean ====
section
/-!
DEFINITION. The rows of the PCIe function and the host DMA engine (R300 to R319), Rill delivery (R240, R242).
-/
namespace Sys2Proof.Machine

/-! ### The PCIe function -/

/-- PERST_DEASSERT (R457). -/
def execPerstDeassert (s : State) : Res := onHw s (fun h => h.onHdma (fun d => { d with perst := false }))

/-- PCIE_LINK_UP (R301, R457): the link trains once PERST# is released and PD_PCIE is powered. -/
def execPcieLinkUp (s : State) : Res :=
  onHw s (fun h => if h.pg 46 && !h.hdma.perst then h.onHdma (fun d => { d with linkUp := true }) else h)

/-- HDMA_READY (R301): owner 2 becomes active. -/
def execHdmaReady (s : State) : Res :=
  onHw s (fun h =>
    if h.pg 46 && h.hdma.linkUp && (kvGet h.own.tear 2).isNone then
      (h.createOwner 2).setReady Reg.HDMA_STATUS Fld.HDMA_STATUS_READY 10
    else h)

/-- Owners of virtual functions that are active. -/
def Hw.vfOwners (h : Hw) : List Nat := h.own.active.filter (fun o => decide (3 ≤ o) && decide (o ≤ 257))

/-- Only the first `n` virtual functions stay enabled: the owners of the others are torn down (R20). An owner is created again, once its
number is free, where its function is enabled then. -/
def Hw.keepVfs (h : Hw) (n : Nat) : Hw :=
  let os := h.vfOwners.filter (fun o => decide (n + 2 < o))
  let h := h.onHdma (fun d => { d with numVfs := n, fn := d.fn.filter (fun e => decide (e.1 ≤ n + 2)) })
  os.foldl (fun a o => a.tearStart o true) h

/-- The whole host interface is torn down, and SR-IOV disabled (R302). -/
def Hw.hostDown (h : Hw) : Hw := ((h.keepVfs 0).onHdma (fun d => { d with fn := [] })).tearStart 2 true

/-- The link is lost: HDMA_STATUS.READY falls with it. -/
def Hw.pcieLost (h : Hw) : Hw :=
  let h := h.hostDown.onHdma (fun d => { d with linkUp := false, waiting := [], flight := [] })
  h.clrReady Reg.HDMA_STATUS Fld.HDMA_STATUS_READY 10

/-- PCIE_LINK_DOWN (R302). -/
def execPcieLinkDown (s : State) : Res := onHw s (fun h => if h.hdma.linkUp then h.pcieLost else h)

/-- PCIE_HOT_RESET (R302). -/
def execPcieHotReset (s : State) : Res := onHw s (fun h => if h.hdma.linkUp then h.pcieLost else h)

/-- TotalVFs (R306). -/
def Hw.totalVfs (h : Hw) : Nat :=
  let m := h.rn Reg.HDMA_MSIX_ALLOC
  min ((2048 - getF m Fld.HDMA_MSIX_ALLOC_PF_VECTORS) / max (getF m Fld.HDMA_MSIX_ALLOC_VF_VECTORS) 1) (if h.hdma.ari then 255 else 7)

/-- Create the owner of an enabled function, or let its teardown end first (R21, R301). -/
def Hw.enableOwner (h : Hw) (o : Nat) : Hw :=
  match kvGet h.own.tear o with
  | some t => h.onOwn (fun w => { w with tear := kvPut w.tear o { t with again := true } })
  | none => h.createOwner o

/-- The owners of the enabled virtual functions are created once the C-image is ready (R301). -/
def Hw.createVfs (h : Hw) : Hw :=
  if h.flag Reg.MBX_STATUS Fld.MBX_STATUS_READY then
    (List.range h.hdma.numVfs).foldl (fun a i => a.enableOwner (3 + i)) h
  else h

/-- VF_ENABLE (R301): VF Enable is set with NumVFs `n`; functions beyond it are no longer enabled (R20). -/
def execVfEnable (n : Nat) (s : State) : Res :=
  onHw s (fun h => if h.hdma.linkUp && decide (n ≤ h.totalVfs) then (h.keepVfs n).createVfs else h)

/-- VF_DISABLE (R20). -/
def execVfDisable (s : State) : Res := onHw s (fun h => h.keepVfs 0)

/-- FLR_VF (R302). A function-level reset clears Bus Master Enable. -/
def execFlrVf (vf : Nat) (s : State) : Res :=
  onHw s (fun h =>
    if 1 ≤ vf ∧ vf ≤ h.hdma.numVfs then (h.onHdma (fun d => { d with fn := kvDel d.fn (vf + 2) })).tearStart (vf + 2) true else h)

/-- FLR_PF (R302). -/
def execFlrPf (s : State) : Res := onHw s (fun h => if h.hdma.linkUp then h.hostDown else h)

/-- BUS_MASTER_CHANGE (R303): a configuration write leaves a function with this Bus Master Enable, maximum read request size,
Enable Relaxed Ordering, and for the physical function the tag mode of R319 and ARI Capable Hierarchy (PRESUMED, log entry 25). -/
def execBusMasterChange (fn mrrs tags : Nat) (on relaxed ari : Bool) (s : State) : Res :=
  onHw s (fun h =>
    if fn < 256 ∧ h.hdma.linkUp then
      let h := h.onHdma (fun d => { d with fn := kvPut d.fn (fnOwner fn) ⟨on, relaxed, mrrs⟩ })
      if fn = 0 then (h.onHdma (fun d => { d with ari := ari })).setFld Reg.HDMA_STATUS Fld.HDMA_STATUS_TAG_MODE (min tags 2) else h
    else h)

/-! ### Host writes of rings -/

/-- A full host write that reaches displacement `d` of a queue pair. -/
def Hw.onQueuePair (h : Hw) (fn off en : Nat) (d : Nat → Bool) (f : Nat → Nat → Hw) : Hw :=
  match h.hostReg fn off with
  | some r => if en = 15 ∧ 0x60000 ≤ r ∧ r < 0x80000 ∧ d (r % 0x40) then f r ((r - 0x60000) / 0x40) else h
  | none => h

/-- TXQ_TAIL_WRITE (R308). -/
def execTxqTailWrite (fn off en val : Nat) (s : State) : Res :=
  onHw s (fun h => h.onQueuePair fn off en (· == 0x0C) (fun _ r => h.txTailWrite r val))

/-- RXQ_TAIL_WRITE (R308, R318). -/
def execRxqTailWrite (fn off en val : Nat) (s : State) : Res :=
  onHw s (fun h => h.onQueuePair fn off en (· == 0x1C) (fun _ r => h.rxTailWrite r val))

/-- TX_EN_SET (R308). -/
def execTxEnSet (fn off en val : Nat) (s : State) : Res :=
  onHw s (fun h => h.onQueuePair fn off en (· == 0) (fun _ r => if val.testBit 31 then h.qCtrlWrite r val else h))

/-- TX_EN_CLEAR (R309). -/
def execTxEnClear (fn off en val : Nat) (s : State) : Res :=
  onHw s (fun h => h.onQueuePair fn off en (· == 0) (fun _ r => if val.testBit 31 then h else h.qCtrlWrite r val))

/-- RX_EN_SET (R308, R318). -/
def execRxEnSet (fn off en val : Nat) (s : State) : Res :=
  onHw s (fun h => h.onQueuePair fn off en (· == 0) (fun _ r => if val.testBit 30 then h.qCtrlWrite r val else h))

/-- RX_EN_CLEAR (R309). -/
def execRxEnClear (fn off en val : Nat) (s : State) : Res :=
  onHw s (fun h => h.onQueuePair fn off en (· == 0) (fun _ r => if val.testBit 30 then h else h.qCtrlWrite r val))

/-- The transmit ring has stopped: what remains is flushed (R309), once its function may write (R303). -/
def Hw.txStopDone (h : Hw) (r : Nat) : Hw :=
  if (h.ringAt r).txStop && (h.ringAt r).reading.isNone && h.mayMaster r then
    ((h.txFlush r).onRingAt r (fun x => { x with txStop := false })).post (ringOwner r) 0x0104 (ringQueue r)
  else h

/-- The receive ring has stopped: what waits is written into free descriptors or discarded (R309). -/
def Hw.rxStopDone (h : Hw) (r : Nat) (descs : List (List Nat)) : Hw :=
  if (h.ringAt r).rxStop then
    let g := h.ringAt r
    let h := (h.drainPend r (g.pend.length + g.head.length) descs).1
    ((h.discardPend r).onRingAt r (fun x => { x with rxStop := false })).post (ringOwner r) 0x0104 (ringQueue r) 1
  else h

/-- RING_STOP_DONE (R309): `descs` are the receive ring's free descriptors. -/
def execRingStopDone (ring : Nat) (descs : List (List Nat)) (s : State) : Res :=
  onHw s (fun h => (h.txStopDone ring).rxStopDone ring descs)

/-! ### Transmit -/

/-- TX_DESCRIPTOR_FETCH (R311, R312): on its turn a ring's descriptors are judged or fetched; `descs` are descriptors whose fetch
has completed. -/
def execTxDescriptorFetch (ring : Nat) (descs : List (List Nat)) (s : State) : Res :=
  onHw s (fun h =>
    let want := ((h.outstanding ring 0).map (·.bytes)).sum / 64
    if want ≠ 0 then
      if h.txServes ring && h.allIssued ring 0 && descs.length == want then
        ((h.endReads ring 0).onRingAt ring (fun x => { x with fetched := x.fetched ++ descs })).txJudge ring 32
      else h
    else if h.txTurn = some ring then h.txJudge ring 32 else h)

/-- The frame of host data as it enters the Basin: padded to 60 bytes, FCS appended (R311). -/
def hostFrame (data : List Byte) : List Byte :=
  let b := data ++ List.replicate (60 - data.length) 0
  b ++ fcsOf b

/-- TX_DATA_READ_DONE (R312): the frame enters at P24 once it has credit (R59), and its descriptors complete. -/
def execTxDataReadDone (ring : Nat) (data : List Byte) (s : State) : Res :=
  onHw s (fun h => match (h.ringAt ring).reading with
    | none => h
    | some fr =>
      if data.length ≠ fr.len ∨ !h.allIssued ring 1 ∨ !h.mayMaster ring then h
      else
        let o := ringOwner ring
        let w3 := fr.words.getD 3 0
        let ts := if bit w3 31 then some (w3 % 65536, bits w3 26 24) else none
        let f : SrcFrame := ⟨o, hostFrame data, ts, none, 0, none, none, none, none, h.clk⟩
        if !h.hasCredit 24 f || !h.flag Reg.SWC_STATUS Fld.SWC_STATUS_READY || !h.sec.admits || decide (h.freeCells < cellsFor f.bytes.length)
        then (h.stall 24).onRingAt ring (fun x => { x with reading := some { fr with stalled := true } })
        else
          let h := (h.endReads ring 1).onRingAt ring (fun x => { x with reading := none })
          ((h.enterFrame 24 f).inc (Reg.HDMA_TX_FRAMES ring)).txBack ring fr.count 0)

/-- HOST_READ_ERROR (R313): a read of the receive ring's descriptors (`rx`), of transmit data, or of transmit descriptors ends in
error or timeout. -/
def execHostReadError (ring : Nat) (rx : Bool) (s : State) : Res :=
  onHw s (fun h =>
    if rx then
      if h.rxEn ring then
        ((h.setFld (Reg.HDMA_Q_STATUS ring) Fld.HDMA_Q_STATUS_RX_STOPPED 1).inc Reg.HDMA_RD_ERR).post (ringOwner ring) 0x0104
          (ringQueue ring) 1
      else h
    else match (h.ringAt ring).reading with
      | some fr => h.txFail ring fr.count
      | none =>
        let n := ((h.outstanding ring 0).map (·.bytes)).sum / 64
        if n = 0 then h else h.txFail ring ((h.ringAt ring).fetched.length + n))

/-- READ_REQUEST_ISSUE (R319): the oldest request is issued, or waits at a limit. -/
def execReadRequestIssue (s : State) : Res :=
  onHw s (fun h => match h.nextRead with
    | none => h
    | some q =>
      if h.readFits q then
        (h.onHdma (fun d => { d with waiting := d.waiting.erase q, flight := d.flight ++ [q] })).emit
          (.hostRead (ringOwner q.ring) q.addr q.bytes)
      else h.readWaits)

/-! ### Receive -/

/-- P24_FRAME_ARRIVE (R317, R318): the frame granted to P24 reaches it; `descs` are the free descriptors of its ring from HEAD. -/
def execP24FrameArrive (descs : List (List Nat)) (s : State) : Res :=
  onHw s (fun h => match h.copyAt 24 (fun _ => true) with
    | none => h
    | some f => h.p24 f descs)

/-- The next item other than a frame that waits for queue 0 of an owner: a mirror sample (KIND 2), a verdict record (KIND 4). -/
def Hw.sideItem (h : Hw) (o : Nat) : Option (Nat × List Byte × (Hw → Hw)) :=
  match h.swc.samples.find? (fun x => x.queue == 14877 && h.holder 9 x.sampler == o && (h.sampleBytes x).isSome) with
  | some x => some (2, (h.sampleBytes x).getD [], fun a => a.dropSample x.cell)
  | none =>
    match h.vie.s.find? (fun v => h.holder 3 v.1 == o && !v.2.recs.isEmpty) with
    | some v => some (4, (v.2.recs.headD (0, [])).2, fun a => a.setVie v.1 { v.2 with recs := v.2.recs.drop 1 })
    | none => none

/-- RX_FRAME_WRITE (R315): what waits for a receive ring is written in order while descriptors last; then one side item. -/
def execRxFrameWrite (ring : Nat) (descs : List (List Nat)) (s : State) : Res :=
  onHw s (fun h =>
    let g := h.ringAt ring
    let w := h.drainPend ring (g.pend.length + g.head.length) descs
    let h := w.1.showRing ring
    if !(h.ringAt ring).pend.isEmpty || ring % 8 != 0 then h
    else match h.sideItem (ringOwner ring) with
      | none => h
      | some (k, b, done) => match h.rxWrite ring k 0 ⟨b, 0, 0, 0, 0⟩ w.2 with
        | some (h', _) => done h'
        | none => h)

/-- HOLD_TIMER_EXPIRE (R318): the ring enters DIVERT. -/
def execHoldTimerExpire (ring : Nat) (s : State) : Res := onHw s (fun h => h.holdExpire ring)

/-- COALESCE_TIMER (R316). -/
def execCoalesceTimer (ring : Nat) (tx : Bool) (s : State) : Res := onHw s (fun h => if h.coalDue ring tx then h.announce ring tx else h)

/-! ### Rill FIFOs (R240, R242) -/

/-- The queue pair a FIFO is bound to. -/
def Hw.rillRing (h : Hw) (f : Nat) : Option Nat :=
  let q := h.fld (Reg.FBUS_RILL_CFG f) Fld.FBUS_RILL_CFG_QUEUE
  if 8208 ≤ q ∧ q < 8208 + 2048 then some (q - 8208) else none

/-- RILL_DMA_MOVE (R240): the engine begins to move the first packet of a FIFO, then ends the move with its completion once the
ring holds enough free descriptors. -/
def execRillDmaMove (f : Nat) (descs : List (List Nat)) (s : State) : Res :=
  onHw s (fun h =>
    let x := h.rill f
    if h.flag (Reg.FBUS_RILL_CFG f) Fld.FBUS_RILL_CFG_DIRECT then h
    else match x.pkts, h.rillRing f with
      | p :: ps, some r =>
        if !x.moving then h.onRill f (fun y => { y with moving := true })
        else match h.rxWrite r 1 0 ⟨bytesOf p, 0, 0, 0, 0⟩ descs with
          | some (h', _) => (h'.onRill f (fun y => { y with pkts := ps, read := 0, moving := false })).inc (Reg.FBUS_RILL_PKTS f)
          | none => h
      | _, _ => h)

/-- RILL_POINTER_MISMATCH (R242): the FIFO is reset; a packet being moved completes with RILL_ABORT. -/
def execRillPointerMismatch (f : Nat) (descs : List (List Nat)) (s : State) : Res :=
  onHw s (fun h =>
    let x := h.rill f
    let n := x.pkts.length
    let h := match x.moving, h.rillRing f with
      | true, some r => (match h.rxWrite r 1 1 ⟨bytesOf (x.pkts.headD []), 0, 0, 0, 0⟩ descs with
        | some (h', _) => h'
        | none => h)
      | _, _ => h
    let h := (h.onRill f (fun _ => ⟨[], 0, false, h.clk + 8⟩)).add (Reg.FBUS_RILL_RESET_LOST f) n
    (h.inc (Reg.FBUS_RILL_RESET f)).post 1 0x0706 f n)

end Sys2Proof.Machine
end

