-- ==== Sys2Proof/Machine/Mem.lean ====
section
/-!
DEFINITION. The rows of the on-chip memories (R399 to R413).
-/
namespace Sys2Proof.Machine

/-- BANK_CLEAR_DONE (R401): the 32,768 cycles of a CLEAR have passed. -/
def execBankClearDone (bank : Nat) (s : State) : Res :=
  onHw s (fun h =>
    if bank < 16 ∧ h.bankFld bank Fld.MEM_BANK_OWNER_CLEARING = 1 ∧ (kvGetD h.mem.old bank (1, 0)).2 + 32768 ≤ h.clk
    then h.clearEnd bank else h)

/-- The owner a master presents (R398): fixed for all but the control pair's data side, Spout, and VIE and Reservoir. -/
def presented (master owner : Nat) : Nat := match master with | 0 => 1 | 2 => 0 | 3 => 2 | 6 => 1 | _ => owner

/-- BANK_ACCESS (R404): an access of a master other than the host; `ecc` 1 a corrected error, 2 an uncorrectable one. -/
def execBankAccess (bank master owner op width off value ecc : Nat) (s : State) : Res :=
  onHw s (fun h =>
    if bank < 16 ∧ master < 7 ∧ (width = 1 ∨ width = 2 ∨ width = 4 ∨ width = 8) ∧ off + width ≤ bankBytes ∧ op < 4 ∧ h.pg 6 then
      h.bankAccess bank ⟨master, presented master owner, op, width, off, value, 15, h.clk, ecc⟩
    else h)

/-- A host access through the aperture (R405). -/
def Hw.apertureAccess (h : Hw) (view b op en val : Nat) : Hw :=
  let sel := h.rn Reg.MEM_APERTURE_SEL
  let off := getF sel Fld.MEM_APERTURE_SEL_PAGE * 0x8000 + b / 4 * 4
  if view ≠ 0 ∧ op = 1 then h
  else
    let o := if op = 1 then 1 else if view = 0 then 0 else view + 1
    let v := if view = 0 then val else h.rn Reg.MEM_ATOM_OPERAND
    h.bankAccess (getF sel Fld.MEM_APERTURE_SEL_BANK) ⟨3, 2, o, 4, off, v, en, h.clk, 0⟩

/-- APERTURE_ADD_READ (R405). -/
def execApertureAddRead (fn off en : Nat) (s : State) : Res :=
  onHw s (fun h => match h.hostAt fn off with
    | .aperture 1 b => h.apertureAccess 1 b 0 en 0
    | _ => h)

/-- APERTURE_SWAP_READ (R405). -/
def execApertureSwapRead (fn off en : Nat) (s : State) : Res :=
  onHw s (fun h => match h.hostAt fn off with
    | .aperture 2 b => h.apertureAccess 2 b 0 en 0
    | _ => h)

/-- BANK_WAKE_DONE (R407, R408): 40 µs after its wake began a bank is awake. -/
def execBankWakeDone (bank : Nat) (s : State) : Res :=
  onHw s (fun h =>
    if bank < 16 ∧ h.bankFld bank Fld.MEM_BANK_OWNER_WAKING = 1 ∧ kvGetD h.mem.wakeAt bank 0 + 20000 ≤ h.clk then
      ((h.setBank bank Fld.MEM_BANK_OWNER_WAKING 0).setBank bank Fld.MEM_BANK_OWNER_RETAINED 0).bankResume bank
    else h)

/-- Every general bank that the March engine let go of serves what waited. -/
def Hw.marchResume (h : Hw) (bs : List Nat) : Hw :=
  (bs.filter (fun b => decide (32 ≤ b))).foldl (fun a b => a.bankTurn (b - 32)) h

/-- MARCH_CHUNK_DONE (R412): the chunk in test is restored and unlocked, its 768 slots done; what waited is served, the next chunk
is locked. After chunk 511 the next banks follow. -/
def execMarchChunkDone (s : State) : Res :=
  onHw s (fun h => match h.mem.march with
    | some m =>
      if m.preserve && decide (m.chunk < 512) && decide (m.from_ + 768 ≤ h.clk) then
        let next (c : Nat) (l : List Nat) : March := { m with chunk := c, banks := l, from_ := h.clk }
        let h1 := h.onMem (fun x => { x with march := some (next 512 m.banks) })
        let h1 := h1.marchResume (m.banks.take 4)
        let after := if m.chunk + 1 < 512 then next (m.chunk + 1) m.banks
          else if m.banks.length ≤ 4 then next 512 m.banks else next 0 (m.banks.drop 4)
        h1.onMem (fun x => { x with march := some after })
      else h
    | none => h)

/-- The result words of a test (R413): the first failure and the number of failing words. -/
def marchResult (preserve : Bool) (fails : List (Nat × Nat × Nat × Nat × Nat)) : Nat × Nat :=
  let p := if preserve then 2 ^ 29 else 0
  let place (b : Nat) : Nat := (if 32 ≤ b then 2 ^ 28 else 0) + b % 32 * 2 ^ 23
  match fails with
  | [] => (2 ^ 31 + p, 0)
  | (b, w, e, x, i) :: _ =>
    (2 ^ 31 + 2 ^ 30 + p + place b + w % 2 ^ 15, e % 8 * 2 ^ 29 + x % 2 * 2 ^ 28 + min (fails.map (fun f => (f.1, f.2.1))).dedup.length 4095 * 2 ^ 16 + i % 128)

/-- A failing bank: FAILED, reported (R413); a firmware SRAM bank is retired (R410). -/
def Hw.marchFail (h : Hw) (b : Nat) : Hw :=
  let w := h.rn Reg.MEM_MARCH_RESULT
  let d := h.rn Reg.MEM_MARCH_DETAIL
  if 32 ≤ b then
    let o := h.bankFld (b - 32) Fld.MEM_BANK_OWNER_OWNER
    let h := (h.setBank (b - 32) Fld.MEM_BANK_OWNER_FAILED 1).wn Reg.MEM_STATUS (h.rn Reg.MEM_STATUS ||| 2 ^ (16 + (b - 32)))
    let h := h.post 1 0x0C05 b w d
    if o = 1 then h else h.post o 0x0C05 b w d
  else (h.wn Reg.MEM_FW_FAILED (h.rn Reg.MEM_FW_FAILED ||| 2 ^ b)).post 1 0x0C05 b w d

/-- MARCH_TEST_DONE (R409, R413): a test ends, its cycles done; `fails` lists bank, word, element, expected value and bit of each failure in order. A
destructive test leaves its banks zero. The test at power-good makes the memories ready (R410). -/
def execMarchTestDone (fails : List (Nat × Nat × Nat × Nat × Nat)) (s : State) : Res :=
  onHw s (fun h => match h.mem.march with
    | none => h
    | some m =>
      if (if m.preserve then decide (m.chunk < 512) else decide (h.clk < m.from_ + (m.banks.length + 3) / 4 * 327680)) then h
      else
        let h := if m.preserve then h
          else m.banks.foldl (fun a b => if 32 ≤ b then a.onMem (fun x => { x with
            ram := clearMem x.ram ((b - 32) * bankBytes) bankBytes
            bad := x.bad.filter (fun w => w * 8 / bankBytes != b - 32) }) else a) h
        let r := marchResult m.preserve fails
        let h := ((h.wn Reg.MEM_MARCH_RESULT r.1).wn Reg.MEM_MARCH_DETAIL r.2).setFld Reg.MEM_STATUS Fld.MEM_STATUS_MARCH_BUSY 0
        let h := h.onMem (fun x => { x with march := none })
        let h := (h.post 1 0x0C04 0 r.1 r.2)
        let h := ((fails.map (·.1)).dedup).foldl Hw.marchFail h
        let h := h.marchResume m.banks
        let h := h.setReady Reg.MEM_STATUS Fld.MEM_STATUS_READY 1
        let h := match m.slot with
          | some k => h.complete k cOk 0 [r.1, r.2]
          | none => h
        h.testBanks (h.mem.off.filter (fun k => h.fld Reg.PWR_STATUS Fld.PWR_STATUS_STATE == 4 ||
          (decide (32 ≤ k) && !(kvGetD h.mem.wait (k - 32) []).isEmpty))))

end Sys2Proof.Machine
end

