-- ==== Sys2Proof/Machine/Time.lean ====
section
/-!
DEFINITION. The time unit (chapter Time bases, timestamps and timed pulses): staged operations and their commits, reads with side
effects, epochs, pulses, captures, the supervisor; and the event fabric's own tasks (R467, R470).
-/
namespace Sys2Proof.Machine

/-- Update the time unit. -/
def Hw.onTime (h : Hw) (f : TimeSt → TimeSt) : Hw := { h with tim := f h.tim }

/-- STATE of a base (R276): 0 UNSET, 1 ACQUIRE, 2 LOCKED, 3 HOLDOVER, 4 SLEW. -/
def Hw.tbState (h : Hw) (b : Nat) : Nat := h.fld (Reg.TIME_TB_STATE b) Fld.TIME_TB_STATE_STATE

/-- Enter a state; the mirrors in TIME_STATUS follow. -/
def Hw.setTbState (h : Hw) (b st : Nat) : Hw :=
  let h := h.setFld (Reg.TIME_TB_STATE b) Fld.TIME_TB_STATE_STATE st
  let h := h.setFld Reg.TIME_STATUS ⟨8 + b, 8 + b⟩ (if 2 ≤ st then 1 else 0)
  h.setFld Reg.TIME_STATUS ⟨16 + b, 16 + b⟩ (if 3 ≤ st then 1 else 0)

/-- A base is about to change: what it is now is kept for stamps of earlier instants (R220, R281). -/
def Hw.notePast (h : Hw) (b : Nat) : Hw :=
  let p : TbPast := ⟨h.clk, h.tbRaw b, h.runRaw b, h.adj b, h.tbState b == 0⟩
  h.onTime (fun t => { t with past := kvMod t.past b [] (· ++ [p]) })

/-- Put a rate in force, as a 40-bit two's-complement ADJ (R275). -/
def Hw.setAdj (h : Hw) (b a : Nat) : Hw :=
  let h := h.notePast b
  (h.wn (Reg.TIME_TB_ADJ_LO b) (a % 2 ^ 32)).wn (Reg.TIME_TB_ADJ_HI b) (a / 2 ^ 32 % 256)

/-- Largest magnitude of ADJ: 1,000 ppm. -/
def adjLimit : Nat := 281474976710

/-! ### Commands and commits (R277 to R279) -/

/-- A host write of TIME_TB_CMD: discarded while BUSY, or with OP 0, 6 or 7. -/
def Hw.timeCmd (h : Hw) (b op : Nat) (neg : Bool) : Hw :=
  if h.flag (Reg.TIME_TB_CMD_STATUS b) Fld.TIME_TB_CMD_STATUS_BUSY || op == 0 || decide (5 < op) then h
  else
    let o : TbOp := ⟨op, neg,
      h.rn (Reg.TIME_TB_WR_SEC_HI b) % 2 ^ 16 * 2 ^ 32 + h.rn (Reg.TIME_TB_WR_SEC_LO b), h.rn (Reg.TIME_TB_WR_NS b) % 2 ^ 30,
      h.rn (Reg.TIME_TB_WR_ADJ_HI b) % 256 * 2 ^ 32 + h.rn (Reg.TIME_TB_WR_ADJ_LO b),
      h.flag (Reg.TIME_TB_CTRL b) Fld.TIME_TB_CTRL_HOST_WR, none⟩
    (h.setFld (Reg.TIME_TB_CMD_STATUS b) Fld.TIME_TB_CMD_STATUS_BUSY 1).onTime (fun t => { t with hostOp := kvPut t.hostOp b o })

/-- A command of the host set by a function: its write of TIME_TB_CMD must reach the register. -/
def Hw.timeHost (h : Hw) (fn b op : Nat) (neg : Bool) : Hw :=
  if b < 8 then (match h.hostReg fn (Reg.TIME_TB_CMD b) with
    | some r => if r = Reg.TIME_TB_CMD b then h.timeCmd b op neg else h
    | none => h) else h

/-- TIME_TB_SET (R277). -/
def execTimeTbSet (fn b : Nat) (neg : Bool) (s : State) : Res := onHw s (fun h => h.timeHost fn b 1 neg)

/-- TIME_TB_STEP (R277). -/
def execTimeTbStep (fn b : Nat) (neg : Bool) (s : State) : Res := onHw s (fun h => h.timeHost fn b 2 neg)

/-- TIME_TB_ADJ (R277). -/
def execTimeTbAdj (fn b : Nat) (neg : Bool) (s : State) : Res := onHw s (fun h => h.timeHost fn b 3 neg)

/-- TIME_TB_LOCK (R277). -/
def execTimeTbLock (fn b : Nat) (neg : Bool) (s : State) : Res := onHw s (fun h => h.timeHost fn b 4 neg)

/-- TIME_TB_UNLOCK (R277). -/
def execTimeTbUnlock (fn b : Nat) (neg : Bool) (s : State) : Res := onHw s (fun h => h.timeHost fn b 5 neg)

/-- The staged offset in units of 2^-47 ns. -/
def TbOp.raw (o : TbOp) : Nat := (o.sec * 1000000000 + o.ns) * nsUnit

/-- RESULT of an operation (R277): NO_ACCESS, then the state checks of R276, then RANGE. -/
def Hw.tbResult (h : Hw) (b : Nat) (o : TbOp) : Nat :=
  let st := h.tbState b
  if !o.access then 5
  else if (o.op = 1 ∨ o.op = 2) ∧ 2 ≤ st then 1
  else if o.op = 3 ∧ 3 ≤ st then 3
  else if o.op = 4 ∧ st ≠ 1 then 4
  else if (o.op = 1 ∨ o.op = 2) ∧ 1000000000 ≤ o.ns then 2
  else if o.op = 2 ∧ o.neg = true ∧ h.tbRaw b < o.raw then 2
  else if o.op = 3 ∧ adjLimit < (adjInt o.adj).natAbs then 2
  else 0

/-- Level of a pulse output's ball (R291). -/
def Hw.pulsePin (h : Hw) (p : Nat) (on : Bool) : Hw :=
  h.emit (.pin (.pulse p) (some (on != h.flag (Reg.TIME_PULSE_CFG p) Fld.TIME_PULSE_CFG_POL)))

/-- State of a pulse output. -/
def Hw.pulse (h : Hw) (p : Nat) : Pulse := kvGetD h.tim.pulse p ⟨false, false, none, 0, 0⟩

/-- Replace the state of a pulse output. -/
def Hw.setPulse (h : Hw) (p : Nat) (x : Pulse) : Hw := h.onTime (fun t => { t with pulse := kvPut t.pulse p x })

/-- Time base of a pulse output. -/
def Hw.pulseTb (h : Hw) (p : Nat) : Nat := h.fld (Reg.TIME_PULSE_CFG p) Fld.TIME_PULSE_CFG_TB

/-- Start of a pulse output in ns; the high bits of its seconds are the base's. -/
def Hw.pulseStart (h : Hw) (p : Nat) : Nat :=
  (h.tbNs (h.pulseTb p) / 1000000000 / 2 ^ 32 * 2 ^ 32 + h.rn (Reg.TIME_PULSE_START_S p)) * 1000000000
    + h.rn (Reg.TIME_PULSE_START_NS p)

/-- PERIOD_NS of a pulse output; 0 for a one-shot. -/
def Hw.pulsePeriod (h : Hw) (p : Nat) : Nat :=
  if h.flag (Reg.TIME_PULSE_CFG p) Fld.TIME_PULSE_CFG_PERIODIC then h.rn (Reg.TIME_PULSE_PERIOD p) else 0

/-- The first instant start + n × period that is not before `t`; the start of a one-shot. -/
def edgeFrom (start period t : Nat) : Nat :=
  if t ≤ start ∨ period = 0 then start else start + (t - start + period - 1) / period * period

/-- The first assertion of a pulse output that is not before `t`, by the settings in force. -/
def Hw.pulseFrom (h : Hw) (p t : Nat) : Nat := edgeFrom (h.pulseStart p) (h.pulsePeriod p) t

/-- A pulse output asserts for WIDTH_NS and fires PULSE[p]. -/
def Hw.pulseAssert (h : Hw) (p : Nat) : Hw :=
  let x := h.pulse p
  let tb := h.pulseTb p
  let h := h.setPulse p { x with
    asserted := true, fired := true, due := h.pulseFrom p (h.tbNs tb + 1),
    off := h.runRaw tb / nsUnit + h.rn (Reg.TIME_PULSE_WIDTH p) }
  (h.pulsePin p true).fire [32 + p]

/-- A one-shot passed without firing (R292). -/
def Hw.pulseLate (h : Hw) (p : Nat) : Hw :=
  ((h.inc (Reg.TIME_PULSE_LATE p)).post 1 0x0A04 p).setPulse p { h.pulse p with fired := true }

/-- Start + n × PERIOD falls in (a, b]. -/
def dueIn (start period a b : Nat) : Bool :=
  if period = 0 then decide (a < start) && decide (start ≤ b)
  else decide (start ≤ b) && decide (a < start + (b - start) / period * period)

/-- A step of a base passes over instants of its pulse outputs (R292): a periodic output asserts once for those it passed, unless a pulse
is in progress, and computes its next edge on the stepped base; a one-shot passed is late. -/
def Hw.pulseStep (h : Hw) (b before after : Nat) (p : Nat) : Hw :=
  if !h.flag (Reg.TIME_PULSE_CFG p) Fld.TIME_PULSE_CFG_EN || h.pulseTb p != b then h
  else
    let x := h.pulse p
    let y := h.setPulse p { x with due := h.pulseFrom p (after + 1) }
    if x.asserted then y
    else if h.flag (Reg.TIME_PULSE_CFG p) Fld.TIME_PULSE_CFG_PERIODIC then
      if decide (x.due ≤ before) || dueIn (h.pulseStart p) (h.pulsePeriod p) before after then h.pulseAssert p else y
    else if !x.fired && dueIn (h.pulseStart p) 0 before after then y.pulseLate p
    else y

/-- A CAN matrix whose time base stepped: it awaits the first matrix start computed on the stepped time (R227). -/
def Hw.stepMatrix (h : Hw) (c : Nat) : Hw :=
  h.onCan c (fun x => { x with stepped := x.cycle.isSome, startAt := some (h.matrixStart c) })

/-- What runs on a stepped base restarts: gate lists and Sluice gates (R126, R136), CAN matrices (R227). -/
def Hw.stepConsumers (h : Hw) (b : Nat) : Hw :=
  let macs := (List.range 24).filter (fun m => h.flag (Reg.TSS_GCL_CTRL m) Fld.TSS_GCL_CTRL_EN
    && h.fld (Reg.TSS_GCL_CTRL m) Fld.TSS_GCL_CTRL_TB == b)
  let gates := (List.range 256).filter (fun g => h.flag (Reg.TSS_SLUICE_GATE_CTRL g) Fld.TSS_SLUICE_GATE_CTRL_EN
    && h.fld (Reg.TSS_SLUICE_GATE_CTRL g) Fld.TSS_SLUICE_GATE_CTRL_TB == b)
  let h := { h with tss := { h.tss with restart := (macs ++ gates.map (256 + ·)).foldl insertNew h.tss.restart } }
  ((List.range 48).filter (fun c => h.flag (Reg.CAN_SCHED_CFG c) Fld.CAN_SCHED_CFG_EN
    && h.fld (Reg.CAN_SCHED_CFG c) Fld.CAN_SCHED_CFG_TB == b)).foldl Hw.stepMatrix h

/-- A committed SET or STEP (R279, R289): counted, epoch records, TIME_STEP, and the consumers react. -/
def Hw.stepBase (h : Hw) (b raw : Nat) : Hw :=
  let before := h.tbNs b
  let h := (h.notePast b).onTime (fun t => { t with
    base := kvPut t.base b (raw % tbSpan), epochAt := kvPut t.epochAt b (raw % tbSpan / nsUnit / 1000000000) })
  let h := if h.tbState b = 0 then h.setTbState b 1 else h
  let h := h.setFld (Reg.TIME_TB_STATE b) Fld.TIME_TB_STATE_STEP_COUNT (h.fld (Reg.TIME_TB_STATE b) Fld.TIME_TB_STATE_STEP_COUNT + 1)
  let h := (h.epochQueues b).foldl (fun a o => a.postEpoch o b) h
  let off := twos 64 ((h.tbNs b : Int) - before)
  let h := h.postG 6 b 0x0A01 b (h.fld (Reg.TIME_TB_STATE b) Fld.TIME_TB_STATE_STEP_COUNT) (off % 2 ^ 32) (off / 2 ^ 32)
  (List.range 8).foldl (fun a p => a.pulseStep b before (a.tbNs b) p) (h.stepConsumers b)

/-- Carry out an operation that is not refused. -/
def Hw.tbCarry (h : Hw) (b : Nat) (o : TbOp) : Hw :=
  match o.op with
  | 1 => h.stepBase b o.raw
  | 2 => h.stepBase b (if o.neg then h.tbRaw b - o.raw else h.tbRaw b + o.raw)
  | 3 => h.setAdj b o.adj
  | 4 => h.setTbState b 2
  | _ => if 2 ≤ h.tbState b then
      (h.setTbState b 1).onTime (fun t => { t with blocked := without t.blocked b, corr := kvDel t.corr b, onAlt := without t.onAlt b })
    else h

/-- An operation is committed or refused; refused steps are counted. -/
def Hw.tbDo (h : Hw) (b : Nat) (o : TbOp) : Nat × Hw :=
  let r := h.tbResult b o
  if r = 0 then (0, h.tbCarry b o)
  else (r, if o.op = 1 ∨ o.op = 2 then h.inc (Reg.TIME_TB_STEP_REFUSED b) else h)

/-- The commit of a base: firmware's operation first, the host's in the next cycle (R278). The mailbox slot that waits for a
firmware operation and its RESULT come back. -/
def Hw.tbCommit (h : Hw) (b : Nat) : Option (Nat × Nat) × Hw :=
  match kvGet h.tim.fwOp b with
  | some o =>
    let r := (h.onTime (fun t => { t with fwOp := kvDel t.fwOp b })).tbDo b o
    (o.slot.map (fun s => (s, r.1)), r.2)
  | none =>
    match kvGet h.tim.hostOp b with
    | none => (none, h)
    | some o =>
      let r := (h.onTime (fun t => { t with hostOp := kvDel t.hostOp b })).tbDo b o
      (none, r.2.wn (Reg.TIME_TB_CMD_STATUS b) r.1)

/-! ### Reads with side effects -/

/-- TIME_TB_NS read by a function: the seconds and fraction go to its shadow (R280). -/
def Hw.readTbNs (h : Hw) (fn b : Nat) : Nat × Hw :=
  let ns := h.tbNs b
  (ns % 1000000000, h.onTime (fun t => { t with
    shadow := kvPut t.shadow (fn * 8 + b) (ns / 1000000000, h.tbRaw b % nsUnit / 2 ^ 15) }))

/-- TIME_TB_NS_READ (R280): a host read of TIME_TB_NS. -/
def execTimeTbNsRead (fn off en : Nat) (s : State) : Res :=
  onHw s (fun h => match h.hostReg fn off with
    | some r =>
      if 0x200100 ≤ r ∧ r < 0x200500 ∧ r % 0x80 = 0 then
        let x := h.readTbNs fn ((r - 0x200100) / 0x80)
        x.2.answer off en x.1
      else h
    | none => h)

/-- A function reaches a MAC's transmit timestamp queue: the physical function in BAR0, a virtual function that holds it (R287,
R305). -/
def Hw.txtsSees (h : Hw) (fn mac : Nat) : Bool := fn == 0 || kvGetD h.tim.txtsOwner mac 2 == fnOwner fn

/-- The head entry of a MAC's transmit timestamp queue as a function sees it. -/
def Hw.txtsHead (h : Hw) (fn mac : Nat) : Option TxTs :=
  if h.txtsSees fn mac then (kvGetD h.tim.txts mac []).head? else none

/-- TIME_TXTS_W0 to W3. -/
def Hw.txtsWord (h : Hw) (fn mac w : Nat) : Nat :=
  match h.txtsHead fn mac with
  | none => 0
  | some e => match w with
    | 0 => 2 ^ 31 + (if e.aborted then 2 ^ 30 else 0) + e.tb * 2 ^ 24 + e.tsId
    | 1 => e.sec % 2 ^ 32
    | 2 => e.ns
    | _ => e.sec / 2 ^ 32 % 2 ^ 16

/-- A read of W3 pops the head entry. -/
def Hw.txtsPop (h : Hw) (fn mac : Nat) : Hw :=
  if (h.txtsHead fn mac).isSome then h.onTime (fun t => { t with txts := kvMod t.txts mac [] (·.drop 1) }) else h

/-- TXTS_W3_READ (R287). -/
def execTxtsW3Read (fn off en : Nat) (s : State) : Res :=
  onHw s (fun h => match h.hostReg fn off with
    | some r =>
      if 0x200C00 ≤ r ∧ r < 0x200D80 ∧ r % 16 = 12 then
        let mac := (r - 0x200C00) / 16
        (h.answer off en (h.txtsWord fn mac 3)).txtsPop fn mac
      else h
    | none => h)

/-- The capture FIFO of an input. -/
def Hw.capFifo (h : Hw) (c : Nat) : List (Nat × Nat) := kvGetD h.tim.cap c []

/-- A read of TIME_CAP_NS pops the head after returning it (R293). -/
def Hw.capPop (h : Hw) (c : Nat) : Hw := h.onTime (fun t => { t with cap := kvMod t.cap c [] (·.drop 1) })

/-- CAP_NS_READ (R293). -/
def execCapNsRead (fn off en : Nat) (s : State) : Res :=
  onHw s (fun h => match h.hostReg fn off with
    | some r =>
      if 0x200A00 ≤ r ∧ r < 0x200B00 ∧ r % 0x20 = 8 then
        let c := (r - 0x200A00) / 0x20
        (h.answer off en ((h.capFifo c).headD (0, 0)).2).capPop c
      else h
    | none => h)

/-! ### Epochs, pulses, captures -/

/-- A base has reached a second that its epoch records have not. -/
def Hw.secondDue (h : Hw) (b : Nat) : Bool := h.tbNs b / 1000000000 != kvGetD h.tim.epochAt b 0

/-- EPOCH_SECOND (R289): a whole second of the base has passed. -/
def execEpochSecond (b : Nat) (s : State) : Res :=
  onHw s (fun h =>
    if decide (8 ≤ b) || !h.secondDue b then h
    else (h.epochQueues b).foldl (fun a o => a.postEpoch o b)
      (h.onTime (fun t => { t with epochAt := kvPut t.epochAt b (h.tbNs b / 1000000000) })))

/-- Settings written for a pulse output come into force at a period boundary (R291). -/
def Hw.pulseApply (h : Hw) (p : Nat) : Hw :=
  match (h.pulse p).next with
  | some [c, s, n, per, w] =>
    let h := ((h.wn (Reg.TIME_PULSE_CFG p) c).wn (Reg.TIME_PULSE_START_S p) s).wn (Reg.TIME_PULSE_START_NS p) n
    ((h.wn (Reg.TIME_PULSE_PERIOD p) per).wn (Reg.TIME_PULSE_WIDTH p) w).setPulse p { h.pulse p with next := none }
  | _ => h

/-- A one-shot whose start lies in the past when it is armed does not fire (R292). -/
def Hw.pulseArmed (h : Hw) (p : Nat) : Hw :=
  if h.flag (Reg.TIME_PULSE_CFG p) Fld.TIME_PULSE_CFG_EN && !h.flag (Reg.TIME_PULSE_CFG p) Fld.TIME_PULSE_CFG_PERIODIC
      && !(h.pulse p).fired && decide (h.pulseStart p < h.tbNs (h.pulseTb p)) then h.pulseLate p
  else h

/-- Settings put in force for an output that has no pulse in progress and no period boundary to wait for. -/
def Hw.pulseNow (h : Hw) (p : Nat) : Hw :=
  let y := h.pulseApply p
  ((y.setPulse p { y.pulse p with fired := false, due := y.pulseFrom p (y.tbNs (y.pulseTb p)) }).pulsePin p false).pulseArmed p

/-- Settings for a pulse output (R291): at once while it is off or waits as a one-shot, at the end of a one-shot in progress, else at
the next period boundary. -/
def Hw.pulseSet (h : Hw) (p : Nat) (ws : List Nat) : Hw :=
  let x := h.setPulse p { h.pulse p with next := some ws }
  let c := h.rn (Reg.TIME_PULSE_CFG p)
  if getF c Fld.TIME_PULSE_CFG_EN = 0 ∨ (getF c Fld.TIME_PULSE_CFG_PERIODIC = 0 ∧ (h.pulse p).asserted = false) then x.pulseNow p else x

/-- A period boundary of an output comes: settings that wait are in force from it on (R291). -/
def Hw.pulseBoundary (h : Hw) (p : Nat) : Hw :=
  match (h.pulse p).next with
  | none => h
  | some _ =>
    let t := (h.pulse p).due
    let y := h.pulseApply p
    ((y.setPulse p { y.pulse p with fired := false, due := y.pulseFrom p t }).pulsePin p false).pulseArmed p

/-- PULSE_EDGE (R291): a pulse in progress ends after WIDTH_NS; else the output asserts at its next instant, once for a one-shot. -/
def execPulseEdge (p : Nat) (s : State) : Res :=
  onHw s (fun h =>
    let x := h.pulse p
    if 8 ≤ p ∨ h.flag (Reg.TIME_PULSE_CFG p) Fld.TIME_PULSE_CFG_EN = false then h
    else if x.asserted then
      if h.runRaw (h.pulseTb p) / nsUnit < x.off then h
      else
        let h := (h.setPulse p { x with asserted := false }).pulsePin p false
        if !h.flag (Reg.TIME_PULSE_CFG p) Fld.TIME_PULSE_CFG_PERIODIC && x.next.isSome then h.pulseNow p else h
    else if h.tbNs (h.pulseTb p) < x.due then h
    else
      let h := h.pulseBoundary p
      if !h.flag (Reg.TIME_PULSE_CFG p) Fld.TIME_PULSE_CFG_EN || decide (h.tbNs (h.pulseTb p) < (h.pulse p).due) then h
      else if h.flag (Reg.TIME_PULSE_CFG p) Fld.TIME_PULSE_CFG_PERIODIC || !(h.pulse p).fired then h.pulseAssert p
      else h)

/-- A stamp enters a capture FIFO (R293); a discarded stamp is not offered to the fabric. -/
def Hw.capture (h : Hw) (c ago : Nat) : Hw :=
  let cfg := h.rn (Reg.TIME_CAP_CFG c)
  let ns := stampNs (h.stampsAgo ago) (getF cfg Fld.TIME_CAP_CFG_TB)
  if 16 ≤ (h.capFifo c).length then (h.setFld (Reg.TIME_CAP_STATUS c) Fld.TIME_CAP_STATUS_OVF 1).inc (Reg.TIME_CAP_LOST c)
  else
    let h := h.onTime (fun t => { t with cap := kvMod t.cap c [] (· ++ [(ns / 1000000000, ns % 1000000000)]) })
    let sec := ns / 1000000000
    let h := if getF cfg Fld.TIME_CAP_CFG_NOTIFY = 1 then
        h.post 1 0x0A05 c (sec / 2 ^ 32 % 2 ^ 16) (sec % 2 ^ 32) (ns % 1000000000) else h
    h.fire [40 + c]

/-- CAPTURE_EDGE (R293): a level stable for 8 ns; that delay is taken off the stamp, and edges within 16 ns give one stamp. -/
def execCaptureEdge (c : Nat) (rising : Bool) (s : State) : Res :=
  onHw s (fun h =>
    let cfg := h.rn (Reg.TIME_CAP_CFG c)
    let edge := getF cfg Fld.TIME_CAP_CFG_EDGE
    if 8 ≤ c ∨ getF cfg Fld.TIME_CAP_CFG_EN = 0 ∨ edge.testBit (if rising then 0 else 1) = false then h
    else
      let close := match kvGet h.tim.capLast c with | some t => decide (h.clk < t + 8) | none => false
      let h := h.onTime (fun t => { t with capLast := kvPut t.capLast c h.clk })
      if close then h else h.capture c 4)

/-- PULSE_FIRE_TASK (R467): an enabled one-shot asserts now, as if its start time had arrived. -/
def execPulseFireTask (p : Nat) (s : State) : Res :=
  onHw s (fun h => if p < 8 then h.serveTask (24 + p) (fun h _ =>
    let c := h.rn (Reg.TIME_PULSE_CFG p)
    if getF c Fld.TIME_PULSE_CFG_EN = 1 ∧ getF c Fld.TIME_PULSE_CFG_PERIODIC = 0 ∧ (h.pulse p).fired = false then h.pulseAssert p
    else h) else h)

/-- CAPTURE_SOFT_TASK (R467): a stamp of the task cycle, as a qualified edge would enter it. -/
def execCaptureSoftTask (c : Nat) (s : State) : Res :=
  onHw s (fun h => if c < 8 then h.serveTask (32 + c) (fun h _ =>
    if h.flag (Reg.TIME_CAP_CFG c) Fld.TIME_CAP_CFG_EN then h.capture c 0 else h) else h)

/-- RECORD_TASK (R470): its records are its whole effect. -/
def execRecordTask (k : Nat) (s : State) : Res :=
  onHw s (fun h => if k < 64 then h.serveTask (40 + k) (fun h _ => h) else h)

/-! ### The supervisor (R294 to R296) -/

/-- Samples of a base, latest first. -/
def Hw.samples (h : Hw) (b : Nat) : List Int := kvGetD h.tim.corr b []

/-- Enter HOLDOVER at a rate (R295). -/
def Hw.holdover (h : Hw) (b cause : Nat) (rate : Int) : Hw :=
  let a := twos 40 rate
  let h := (h.setTbState b 3).setFld (Reg.TIME_TB_STATE b) Fld.TIME_TB_STATE_CAUSE cause
  let h := if cause ≤ 2 then h.setFld (Reg.TIME_TB_STATE b) Fld.TIME_TB_STATE_SUSPECT 1 else h
  let h := (h.wn (Reg.TIME_TB_HOLD_ADJ_LO b) (a % 2 ^ 32)).wn (Reg.TIME_TB_HOLD_ADJ_HI b) (a / 2 ^ 32)
  ((h.setAdj b a).postG 6 b 0x0A06 b cause).fire [184 + b]

/-- A holdover rate the spec does not state: a free value within the limit of R275. -/
def Hw.freeRate (h : Hw) : Int := (h.draw % (2 * adjLimit + 1) : Nat) - (adjLimit : Int)

/-- The tests of R294 on samples, latest first: 1 window, 2 slope, 0 passed. -/
def suspectCause (l : List Int) : Nat :=
  match l with
  | [] => 0
  | c :: _ =>
    if 100 * 2 ^ 48 < c.natAbs * 1000000 then 1
    else match l[64]? with
      | some o => if 32 * 2 ^ 48 < (c - o).natAbs * 1000000 then 2 else 0
      | none => 0

/-- A second has passed since the last sample of a base, if it has one. -/
def Hw.sampleDue (h : Hw) (b : Nat) : Bool := (kvGet h.tim.supAt b).all (fun t => decide (t + 500000000 ≤ h.clk))

/-- SUPERVISOR_SAMPLE (R294): once a second, while the control firmware runs (R297), c(t) is recorded: the rate the servo commands, the
ADJ in force. -/
def execSupervisorSample (b : Nat) (s : State) : Res :=
  onHw s (fun h =>
    if 8 ≤ b ∨ h.tbState b ≠ 2 ∨ h.fwRuns = false ∨ h.sampleDue b = false then h
    else
      let l := (adjInt (h.adj b) :: h.samples b).take 65
      let h := h.onTime (fun t => { t with corr := kvPut t.corr b l, supAt := kvPut t.supAt b h.clk })
      match suspectCause l, l[64]? with
      | 0, _ => h
      | c, some o => h.holdover b c o
      | c, none => h.drawn.holdover b c h.freeRate)

/-- SOURCE_LOSS_HOLDOVER (R294): three synchronisation intervals missed; the rate is the latest sample. -/
def execSourceLossHoldover (b : Nat) (s : State) : Res :=
  onHw s (fun h =>
    if decide (8 ≤ b) || !h.fwRuns then h
    else if h.tbState b = 2 then
      match h.samples b with
      | c :: _ => h.holdover b 3 c
      | [] => h.drawn.holdover b 3 h.freeRate
    else if h.tbState b = 4 then
      h.holdover b 3 (adjInt (h.rn (Reg.TIME_TB_HOLD_ADJ_HI b) % 256 * 2 ^ 32 + h.rn (Reg.TIME_TB_HOLD_ADJ_LO b)))
    else h)

/-- A quotient rounded to the nearest integer. -/
def roundDiv (x : Int) (d : Nat) : Int := (2 * x + d) / (2 * d)

/-- The rate in SLEW (R296), in units of ADJ: r_h + f_s − clamp(offset / 100 ms, ±SLEW_PPM). -/
def slewRate (hold fs offset : Int) (ppm : Nat) : Int :=
  let lim := roundDiv (ppm * 2 ^ 48) 1000000
  let c := roundDiv (offset * 2 ^ 48) 100000000
  hold + fs - max (-lim) (min c lim)

/-- A measurement in SLEW: since when the offset has stayed within 100 ns, and the slew rate in force. -/
def Hw.slew (h : Hw) (b : Nat) (offset fs : Int) : Hw :=
  let near := if offset.natAbs ≤ 100 then some ((kvGet h.tim.nearAt b).getD h.clk) else none
  let h := h.onTime (fun t => { t with nearAt := match near with | some c => kvPut t.nearAt b c | none => kvDel t.nearAt b })
  let hold := adjInt (h.rn (Reg.TIME_TB_HOLD_ADJ_HI b) % 256 * 2 ^ 32 + h.rn (Reg.TIME_TB_HOLD_ADJ_LO b))
  let r := slewRate hold fs offset (h.fld (Reg.TIME_TB_CTRL b) Fld.TIME_TB_CTRL_SLEW_PPM)
  h.setAdj b (twos 40 (max (-(adjLimit : Int)) (min r adjLimit)))

/-- SLEW_UPDATE (R296): a measurement of the selected source. In HOLDOVER the supervisor selects the primary source if healthy,
else the configured alternate, and enters SLEW unless the offset (ns) exceeds SLEW_LIMIT_NS; `fs` is in units of ADJ. -/
def execSlewUpdate (b : Nat) (primary alternate : Bool) (offset fs : Int) (s : State) : Res :=
  onHw s (fun h =>
    if decide (8 ≤ b) || !h.fwRuns then h
    else if h.tbState b = 4 then h.slew b offset fs
    else if h.tbState b ≠ 3 ∨ h.tim.blocked.contains b = true then h
    else if primary || (alternate && (kvGet h.tim.alt b).isSome) then
      if h.rn (Reg.TIME_TB_SLEW_LIMIT b) < offset.natAbs then
        (h.onTime (fun t => { t with blocked := insertNew t.blocked b })).postG 6 b 0x0A08 b (satInt32 offset)
      else
        let h := h.onTime (fun t => { t with
          onAlt := if primary then without t.onAlt b else insertNew t.onAlt b, nearAt := kvDel t.nearAt b })
        (h.setTbState b 4).slew b offset fs
    else h)

/-- TIME_RELOCK (R296): the offset has stayed within 100 ns for 16 s. -/
def execTimeRelock (b : Nat) (s : State) : Res :=
  onHw s (fun h =>
    if decide (b < 8) && h.tbState b == 4 && h.fwRuns && (kvGet h.tim.nearAt b).any (fun t => decide (t + 8000000000 ≤ h.clk)) then
      let h := (h.setTbState b 2).setFld (Reg.TIME_TB_STATE b) Fld.TIME_TB_STATE_SUSPECT 0
      (h.onTime (fun t => { t with corr := kvDel t.corr b, nearAt := kvDel t.nearAt b })).postG 6 b 0x0A07 b
        (if h.tim.onAlt.contains b then 1 else 0)
    else h)

end Sys2Proof.Machine
end

