-- ==== Sys2Proof/Machine/PwrOps.lean ====
section
/-!
DEFINITION. The power manager (R432 to R444, R449 to R454): domains and what they require, regulators, rails, device reset, start-up,
transitions, wakes.
-/
namespace Sys2Proof.Machine

/-- The fewest cycles that pass in a number of milliseconds (R445): the divided clocks run exactly, the RC oscillator, which stands in
until the root PLL is locked, within 1 %. -/
def Hw.msLeast (h : Hw) (n : Nat) : Nat := n * (if h.flag Reg.PWR_CLK_STATUS Fld.PWR_CLK_STATUS_PLL_LOCK then 500000 else 495000)

/-- Update the power manager. -/
def Hw.onPwr (h : Hw) (f : PwrSt → PwrSt) : Hw := { h with pwr := f h.pwr }

/-! ### Domains (R436 to R440) -/

/-- A bit of a pair of LO and HI registers. -/
def Hw.pairBit (h : Hw) (lo hi d : Nat) : Bool := if d < 32 then (h.rn lo).testBit d else (h.rn hi).testBit (d - 32)

/-- Set or clear a bit of a pair of LO and HI registers. -/
def Hw.setPair (h : Hw) (lo hi d v : Nat) : Hw := if d < 32 then h.setFld lo ⟨d, d⟩ v else h.setFld hi ⟨d - 32, d - 32⟩ v

/-- A domain's switch is closed. -/
def Hw.domOn (h : Hw) (d : Nat) : Bool := d == 0 || h.pairBit Reg.PWR_DOMAIN_ON_LO Reg.PWR_DOMAIN_ON_HI d

/-- What a domain requires (R438). -/
def requires (d : Nat) : List Nat :=
  if d = 0 then []
  else if d ≤ 4 then [0]
  else if d ≤ 6 then [4]
  else if d ≤ 22 then [25]
  else if d ≤ 24 then [25]
  else if d = 25 then [5, 49]
  else if d ≤ 30 then [25]
  else if d ≤ 33 then [26 + (d - 31), 23]
  else if d ≤ 35 then [26 + (d - 31), 24]
  else if d = 36 then [24]
  else if d = 37 then [5, 49]
  else if d ≤ 43 then [37]
  else if d = 44 ∨ d = 46 then [23]
  else if d = 45 then [24]
  else [5]

/-- The switched domains in a mask. -/
def maskDomains (m : Nat) : List Nat := (bitsOf 50 m).filter (fun d => d != 0)

/-- A mask keeps R437 and R438: bits 0, 4, 5, 6, every requirement, PD_FABRIC with a Basin group. -/
def maskGood (m : Nat) : Bool :=
  bit m 0 && bit m 4 && bit m 5 && bit m 6 && (maskDomains m).all (fun d => decide (d ≤ 3) || (requires d).all (bit m)) &&
    (!bit m 25 || (List.range 16).any (fun g => bit m (7 + g)))

/-- The PD_WAKE domains with an armed source (R432): CAN detectors, Ethernet, LIN. -/
def Hw.armedWake (h : Hw) : List Nat :=
  let a := h.rn Reg.PWR_WAKE_ARM
  (if a % 2 ^ 16 ≠ 0 then [1] else []) ++
  (if (bit a 31 ∧ h.rn Reg.PWR_WAKE_ARM_ETH ≠ 0) ∨ bits a 19 16 ≠ 0 then [2] else []) ++
  (if bit a 30 ∧ h.rn Reg.PWR_WAKE_ARM_LIN ≠ 0 then [3] else [])

/-- The switched domains of a power state (R432). -/
def Hw.domainsOf (h : Hw) (goal mask group : Nat) : List Nat :=
  match goal with
  | 0 => []
  | 1 => h.armedWake
  | 2 => (h.armedWake ++ [4, 5, 6, 37] ++ (if 1 ≤ group ∧ group ≤ 5 then [37 + group] else []) ++ [49])
  | 3 => h.armedWake ++ (maskDomains mask).filter (fun d => decide (3 < d))
  | _ => (List.range 49).map (· + 1)

/-- The READY bits of the functions in a domain: register, field, bit of the mirrors (R454). -/
def readyOf (d : Nat) : List (Nat × Field × Nat) :=
  if d = 4 then [(Reg.SEC_STATUS, Fld.SEC_STATUS_READY, 12)]
  else if d = 5 then [(Reg.MBX_STATUS, Fld.MBX_STATUS_READY, 13)]
  else if d = 6 then [(Reg.MEM_STATUS, Fld.MEM_STATUS_READY, 1)]
  else if d = 23 ∨ d = 24 then [(Reg.FWD_STATUS, Fld.FWD_STATUS_READY, 3)]
  else if d = 25 then [(Reg.SWC_STATUS, Fld.SWC_STATUS_READY, 2), (Reg.TSS_STATUS, Fld.TSS_STATUS_READY, 4)]
  else if 26 ≤ d ∧ d ≤ 30 then [(Reg.SQ_STATUS (d - 26), Fld.SQ_STATUS_READY, 56 + (d - 26))]
  else if 31 ≤ d ∧ d ≤ 36 then
    (List.range 4).map (fun i => (Reg.MAC_STATUS ((d - 31) * 4 + i), Fld.MAC_STATUS_READY, 32 + (d - 31) * 4 + i))
  else if d = 37 then [(Reg.BRG_STATUS, Fld.BRG_STATUS_READY, 8), (Reg.FBUS_STATUS, ⟨0, 0⟩, 16)]
  else if 38 ≤ d ∧ d ≤ 42 then [(Reg.FBUS_STATUS, ⟨d - 37, d - 37⟩, 16 + (d - 37))]
  else if d = 43 then [(Reg.FBUS_STATUS, Fld.FBUS_STATUS_LIN_READY, 9)]
  else if d = 44 then [(Reg.VIE_STATUS, Fld.VIE_STATUS_READY, 5)]
  else if d = 46 then [(Reg.HDMA_STATUS, Fld.HDMA_STATUS_READY, 10)]
  else if d = 48 then [(Reg.SBB_STATUS, Fld.SBB_STATUS_READY, 7)]
  else if d = 49 then [(Reg.TIME_STATUS, Fld.TIME_STATUS_READY, 6)]
  else []

/-- LPDDR5 readiness, which only the mirror shows. -/
def Hw.setLpddr (h : Hw) (v : Nat) : Hw :=
  if h.fld Reg.PWR_READY ⟨11, 11⟩ = v then h
  else
    let h := h.mirror 11 v
    (if v = 1 then h.fire [203] else h).readyRecord

/-- The transmit freshness values of the bridge go back to Treust (R269). -/
def Hw.keepFresh (h : Hw) : Hw :=
  h.onSec (fun x => { x with fresh := h.brg.auth.foldl (fun (m : Kv Nat) (e : Nat × Auth) => kvPut m e.1 e.2.f) x.fresh })

/-- The state a domain loses when it goes off, beside its registers. Generation counts and retired cells outlast every event but a
device reset (R45, R47). -/
def Hw.dropDomain (h : Hw) (d : Nat) : Hw :=
  if 7 ≤ d ∧ d ≤ 22 then
    h.onSwc (fun s => { s with cells := s.cells.map (fun c => if cellGroup c.1 == d - 7 then (c.1, ⟨c.2.gen, []⟩) else c) })
  else if 31 ≤ d ∧ d ≤ 36 then
    let own (k : Nat) : Bool := k / 4 == d - 31
    { h with mac := { h.mac with
        sa := h.mac.sa.filter (fun e => !own (e.1 / 128)), rxOct := h.mac.rxOct.filter (fun e => !own e.1)
        txOct := h.mac.txOct.filter (fun e => !own e.1), lineGood := h.mac.lineGood.filter (fun m => !own m)
        txsci := h.mac.txsci.filter (fun e => !own e.1), loopback := h.mac.loopback.filter (fun e => !own e.1)
        attempts := h.mac.attempts.filter (fun e => !own e.1), burst := h.mac.burst.filter (fun e => !own e.1)
        backoff := h.mac.backoff.filter (fun m => !own m), lpiExit := h.mac.lpiExit.filter (fun m => !own m) } }
  else if 37 ≤ d ∧ d ≤ 42 then
    let h := if d = 37 then h.keepFresh else h
    let f := { h.fbus with can := h.fbus.can.filter (fun (c : Nat × CanC) => c.1 / 8 != d - 37) }
    if d = 37 then { h with fbus := { f with rill := [] }, brg := Brg.reset } else { h with fbus := f }
  else match d with
    | 2 => { h with mac := { h.mac with wakePol := [] } }
    | 4 => { h with sec := Sec.reset }
    | 5 => { h with mbx := { h.mbx with slots := [] }, tasks := [] }
    | 6 => { h with mem := { MemSt.reset with ram := h.mem.ram.filter (fun c => h.mem.kept.contains (32 + c.1 / bankBytes)), kept := h.mem.kept } }
    | 23 => if h.pg 24 then h else { h with fwd := Fwd.reset }
    | 24 => if h.pg 23 then h else { h with fwd := Fwd.reset }
    | 25 =>
      { h with
        swc := { Swc.reset with cells := emptyCells h.swc.cells, retired := h.swc.retired, nextId := h.swc.nextId }
        tss := Tss.reset }
    | 43 => { h with fbus := { h.fbus with lin := [] } }
    | 44 => { h with vie := Vie.reset }
    | 45 => { h with sec := { h.sec with jobs := [], waiting := [] } }
    | 46 =>
      let fn (o : Nat) : Bool := decide (2 ≤ o) && decide (o ≤ 257)
      { h with
        hdma := { h.hdma with msixTbl := [], msixPba := [] }
        evq := { h.evq with staging := h.evq.staging.filter (fun r => !fn r.owner), firstEn := false }
        mbx := { h.mbx with ram := h.mbx.ram.filter (fun e => !fn (e.1 / 1024)), slots := h.mbx.slots.filter (fun e => !fn (e.1 / 32)) } }
    | 48 => { h with sbb := Sbb.reset }
    | 49 => { h with tim := TimeSt.reset }
    | _ => h

/-- Registers of a domain (R482, R483). -/
def inDomain (d r : Nat) : Bool :=
  if d = 0 then false
  else if r / 0x40000 = 3 then false
  else regDomain r == some d

/-- A bank keeps its contents through STANDBY (R441). -/
def Hw.retainedBanks (h : Hw) : List Nat :=
  bitsOf 32 (h.rn Reg.MEM_FW_RETAIN) ++
    ((List.range 16).filter (fun b => h.fld (Reg.MEM_BANK_OWNER b) Fld.MEM_BANK_OWNER_RETAINED == 1)).map (32 + ·)

/-- A domain goes off (R439, R451, R482): its links fall, its READY bits clear, its pads float, its registers and state return to
reset. -/
def Hw.domainOff (h : Hw) (d : Nat) : Hw :=
  let h := if 31 ≤ d ∧ d ≤ 36 then (List.range 4).foldl (fun a i => (a.cutRx ((d - 31) * 4 + i) []).linkDown ((d - 31) * 4 + i)) h
    else if d = 46 ∧ h.hdma.linkUp then h.pcieLost else h
  let h := (readyOf d).foldl (fun a r => a.clrReady r.1 r.2.1 r.2.2) h
  let h := if d = 47 then h.setLpddr 0 else h
  let h := if d = 6 then h.onMem (fun m => { m with kept := h.retainedBanks }) else h
  let h := (h.setPair Reg.PWR_DOMAIN_ON_LO Reg.PWR_DOMAIN_ON_HI d 0).setPair Reg.PWR_DOMAIN_PG_LO Reg.PWR_DOMAIN_PG_HI d 0
  let h := (h.dropDomain d).clrWhere (inDomain d)
  let h := if (d = 23 ∨ d = 24) ∧ !h.pg 23 ∧ !h.pg 24 then h.clrWhere (fun r => r / 0x40000 == 3 && decide (r < 0x10000000) && r != Reg.FWD_HASH_SEED0 && r != Reg.FWD_HASH_SEED1) else h
  h.emit (.padsOff d)

/-! ### Reset (R449, R450, R482) -/

/-- The registers a device reset keeps. -/
def keptReg (r : Nat) : Bool :=
  (decide (0x2C0030 ≤ r) && decide (r ≤ 0x2C005C)) || (decide (0x2C0100 ≤ r) && decide (r < 0x2C0118)) ||
  r == Reg.PWR_THERM_SHUTDOWNS || (decide (0x2C0420 ≤ r) && decide (r < 0x2C0438)) ||
  r == Reg.SEC_TAMPER_LOG || r == Reg.SEC_AO_STORE_SEQ

/-- Everything but PD_AO returns to reset; `banks` keep their contents. -/
def Hw.wipe (h : Hw) (banks : List Nat) : Hw :=
  let offs := (List.range 50).filter (fun d => d != 0 && h.domOn d)
  let h' : Hw := { Hw.reset with
    regs := h.regs.filter (fun e => keptReg e.1), clk := h.clk, free := h.free, out := h.out
    pwr := { h.pwr with toOn := [], toOff := [], ramping := [], req := none, slot := none, rails := 0, stage := 0, faults := [], railFaults := 0, ppm := [], drift := 0, hold := 0, holdWord := 0, waking := false }
    hdma := { Hdma.reset with perst := h.hdma.perst }
    mem := { MemSt.reset with ram := h.mem.ram.filter (fun c => banks.contains (32 + c.1 / bankBytes)), kept := banks } }
  let h' := h'.armedWake.foldl (fun a d =>
    if offs.contains d then (a.setPair Reg.PWR_DOMAIN_ON_LO Reg.PWR_DOMAIN_ON_HI d 1).setPair Reg.PWR_DOMAIN_PG_LO Reg.PWR_DOMAIN_PG_HI d 1
    else a) h'
  (offs.filter (fun d => !h'.domOn d)).foldl (fun a d => a.emit (.padsOff d)) h'

/-- A device reset of a cause (R449): recorded and counted since POR. -/
def Hw.deviceReset (h : Hw) (cause : Nat) : Hw :=
  let h := h.wipe (if cause = 3 then h.mem.kept else [])
  let n := h.fld Reg.PWR_RESET_CAUSE Fld.PWR_RESET_CAUSE_COUNT
  (h.setFld Reg.PWR_RESET_CAUSE Fld.PWR_RESET_CAUSE_LAST cause).setFld Reg.PWR_RESET_CAUSE Fld.PWR_RESET_CAUSE_COUNT
    (if cause = 0 then 0 else n + 1)

/-! ### Regulators (R442, R443) -/

/-- A regulator is enabled. -/
def Hw.regOn (h : Hw) (n : Nat) : Bool := h.flag (Reg.PWR_REG_CFG n) Fld.PWR_REG_CFG_ON

/-- A regulator reports power-good. -/
def Hw.regPg (h : Hw) (n : Nat) : Bool := h.flag (Reg.PWR_REG_CFG n) Fld.PWR_REG_CFG_PG

/-- Drive a regulator's enable; an off regulator reports no power-good. -/
def Hw.setReg (h : Hw) (n : Nat) (on : Bool) : Hw :=
  let h := h.onPwr (fun p => if on then { p with regAt := h.clk } else { p with offAt := h.clk })
  let h := (h.setFld (Reg.PWR_REG_CFG n) Fld.PWR_REG_CFG_ON (if on then 1 else 0)).emit (.pin (.regEn n) (some on))
  if on then h else h.setFld (Reg.PWR_REG_CFG n) Fld.PWR_REG_CFG_PG 0

/-- PWR_STATUS.REG_FAULT shows whether a regulator fault is latched. -/
def Hw.showRegFault (h : Hw) : Hw :=
  h.setFld Reg.PWR_STATUS Fld.PWR_STATUS_REG_FAULT
    (if (List.range 6).any (fun n => h.flag (Reg.PWR_REG_CFG n) Fld.PWR_REG_CFG_FAULT) then 1 else 0)

/-- Latch a regulator's FAULT. -/
def Hw.latchReg (h : Hw) (n : Nat) : Hw := (h.setFld (Reg.PWR_REG_CFG n) Fld.PWR_REG_CFG_FAULT 1).showRegFault

/-- Regulators a start-up into a state turns on. -/
def regCount (goal : Nat) : Nat := if goal = 4 then 6 else 4

/-- Power-good (R453): the device reset of the start-up's cause, domains of its target are to come on, the boot ROM may start. -/
def Hw.powerGood (h : Hw) : Hw :=
  let h := h.deviceReset h.pwr.cause
  let h := if h.pwr.cause = 3 then h.inc Reg.PWR_WAKES else h
  let goal := h.pwr.goal
  let group := h.fld Reg.PWR_WAKE_CFG Fld.PWR_WAKE_CFG_LISTEN_GROUP
  let h := (h.setFld Reg.PWR_STATUS Fld.PWR_STATUS_PG 1).setFld Reg.PWR_CLK_STATUS Fld.PWR_CLK_STATUS_PLL_LOCK 1
  let h := h.setFld Reg.PWR_STATUS Fld.PWR_STATUS_TARGET goal
  let h := h.showRegFault
  h.onPwr (fun p => { p with
    busy := true, startUp := true, boot := true, regUp := none, regDown := none, latched := [],
    toOn := (h.domainsOf goal 0 group).filter (fun d => !h.domOn d) })

/-- Start-up of a cause into a state begins (R433, R449): the first regulator that is not good comes next, or power-good is at
once. -/
def Hw.startDevice (h : Hw) (cause goal : Nat) : Hw :=
  let off := h.fld Reg.PWR_STATUS Fld.PWR_STATUS_STATE == 0 && cause == 7
  let h := h.onPwr (fun p => { p with
    busy := true, startUp := true, goal := goal, cause := cause, fromOff := off || cause == 0, boot := false, req := none, slot := none,
    toOn := [], toOff := [], ramping := [], roundAt := none, regDown := none, retry := false, rails := 0, stage := 0, faults := [], railFaults := 0,
    thermOff := false, waking := false })
  let h := (h.setFld Reg.PWR_STATUS Fld.PWR_STATUS_TRANSITION 1).setFld Reg.PWR_STATUS Fld.PWR_STATUS_TARGET goal
  match (List.range (regCount goal)).find? (fun n => !h.regPg n) with
  | none => h.powerGood
  | some n => h.onPwr (fun p => { p with regUp := some n })

/-! ### Transitions (R433 to R439) -/

/-- A rail may be on in a state: its flag, and its domain on (R444). -/
def Hw.railWanted (h : Hw) (goal r : Nat) : Bool :=
  let q := h.rn (Reg.PWR_RAIL_SEQ r)
  let d := getF q Fld.PWR_RAIL_SEQ_DOMAIN
  let f := match goal with | 2 => Fld.PWR_RAIL_SEQ_LISTEN | 3 => Fld.PWR_RAIL_SEQ_PARTIAL | _ => Fld.PWR_RAIL_SEQ_ACTIVE
  decide (2 ≤ goal) && getF q f == 1 && (d == 0x3F || h.pg d) && h.pg 48

/-- The stage of a rail. -/
def Hw.railStage (h : Hw) (r : Nat) : Nat := h.fld (Reg.PWR_RAIL_SEQ r) Fld.PWR_RAIL_SEQ_STAGE

/-- A rail's enable is asserted. -/
def Hw.railIsOn (h : Hw) (r : Nat) : Bool := h.flag (Reg.SBB_RAIL_CFG r) Fld.SBB_RAIL_CFG_ON

/-- A rail's delay since the previous stage has passed (R444): `last` is the cycle in which that stage ended. -/
def Hw.railDue (h : Hw) (last r : Nat) (f : Field) : Bool := decide (last + h.msLeast (h.fld (Reg.PWR_RAIL_SEQ r) f) ≤ h.clk)

/-- Rails sequenced on in this transition. -/
def Hw.railsUp (h : Hw) : List Nat :=
  (List.range 12).filter (fun r => h.flag (Reg.PWR_RAIL_SEQ r) Fld.PWR_RAIL_SEQ_AUTO && h.railWanted h.pwr.goal r)

/-- Rails that go off in this transition: sequenced ones not on in the goal, and those whose domain goes off. -/
def Hw.railsDown (h : Hw) : List Nat :=
  (List.range 12).filter (fun r => h.railIsOn r &&
    (let d := h.fld (Reg.PWR_RAIL_SEQ r) Fld.PWR_RAIL_SEQ_DOMAIN
     h.pwr.toOff.contains d || h.pwr.toOff.contains 48 ||
      (h.flag (Reg.PWR_RAIL_SEQ r) Fld.PWR_RAIL_SEQ_AUTO && !h.railWanted h.pwr.goal r)))

/-- A rail has reported power-good or has faulted. -/
def Hw.railSettled (h : Hw) (r : Nat) : Bool :=
  h.flag (Reg.SBB_RAIL_CFG r) Fld.SBB_RAIL_CFG_PG || (kvGet h.sbb.railTry r).isSome

/-- Every rail of an earlier stage has settled. -/
def Hw.railsSettled (h : Hw) : Bool := h.railsUp.all (fun r => decide (h.pwr.stage ≤ h.railStage r) || h.railSettled r)

/-- The cycle in which the last rail of the earlier stages settled, or the rails began. -/
def Hw.railsSince (h : Hw) : Nat :=
  ((h.railsUp.filter (fun r => decide (h.railStage r < h.pwr.stage))).map (kvGetD h.pwr.railDone · 0)).foldl max h.pwr.railAt

/-- Stages with rails still to be turned on. -/
def Hw.stagesLeft (h : Hw) : List Nat := (h.railsUp.map h.railStage).filter (fun k => decide (h.pwr.stage ≤ k))

/-- In LISTEN and PARTIAL firmware powers off the banks that are neither in use nor in retention (R441): firmware SRAM without the C-image
or the journal, general banks of owner 1 that hold nothing and for which nothing waits. In ACTIVE they are tested. -/
def Hw.idleBanks (h : Hw) (goal : Nat) : Hw :=
  let idle (k : Nat) : Bool :=
    if k < 32 then !h.mem.used.testBit k && !(h.rn Reg.MEM_FW_RETAIN).testBit k
    else
      let b := k - 32
      h.bankFld b Fld.MEM_BANK_OWNER_OWNER == 1 && h.bankFld b Fld.MEM_BANK_OWNER_RETAINED == 0 &&
        h.bankFld b Fld.MEM_BANK_OWNER_CLEARING == 0 && (kvGetD h.mem.wait b []).isEmpty && !h.marching.contains k &&
        !(h.mem.ram.any (fun c => c.1 / bankBytes == b))
  if goal = 2 ∨ goal = 3 then h.onMem (fun m => { m with off := (List.range 48).filter idle })
  else if goal = 4 then h.testBanks h.mem.off
  else h

/-- A transition reaches its state: the waiting command completes, with the faults of R440 if there were any. -/
def Hw.reached (h : Hw) : Hw :=
  let p := h.pwr
  let h := (h.setFld Reg.PWR_STATUS Fld.PWR_STATUS_STATE p.goal).setFld Reg.PWR_STATUS Fld.PWR_STATUS_TRANSITION 0
  let h := if p.goal ≤ 1 then (h.setFld Reg.PWR_STATUS Fld.PWR_STATUS_PG 0).clr Reg.PWR_CLK_STATUS else h
  let h := h.onPwr (fun x => { x with standbyAt := if p.goal = 1 then h.clk else x.standbyAt, busy := false, startUp := false, rails := 0, stage := 0, faults := [], railFaults := 0, slot := none, waking := false })
  let h := h.idleBanks p.goal
  let m := maskOf p.faults
  match p.slot with
  | none => h
  | some k => h.complete k cOk 0 (if m = 0 ∧ p.railFaults = 0 then [] else [m % 2 ^ 32, m / 2 ^ 32, p.railFaults])

/-- What follows when the domains of a transition are done: regulators no longer needed go off, rails come on, the state is
reached. -/
def Hw.settle (h : Hw) : Hw :=
  let p := h.pwr
  if !p.busy || p.rails == 2 || !p.toOn.isEmpty || !p.toOff.isEmpty || !p.ramping.isEmpty || p.regUp.isSome || p.regDown.isSome then h
  else if p.goal ≤ 1 then
    if (List.range 6).any h.regOn then h.onPwr (fun x => { x with regDown := some 0 }) else h.reached
  else if !h.domOn 47 && (h.regOn 4 || h.regOn 5) then h.onPwr (fun x => { x with regDown := some 4 })
  else if p.boot || (p.startUp && !h.flag Reg.PWR_STATUS Fld.PWR_STATUS_PG) then h
  else
    let h := if p.rails = 0 then h.onPwr (fun x => { x with rails := 1, stage := 0, railAt := h.clk, railDone := [] }) else h
    let h := if h.pwr.rails = 1 ∧ h.stagesLeft.isEmpty ∧ h.railsSettled then h.onPwr (fun x => { x with rails := 3 }) else h
    let booted := h.flag Reg.MBX_STATUS Fld.MBX_STATUS_READY || h.flag Reg.MBX_STATUS Fld.MBX_STATUS_SAFE_SET
    if h.pwr.rails = 3 ∧ (!p.startUp || booted) then h.reached else h

/-- A request begins its transition (R433, R434). -/
def Hw.beginTransition (h : Hw) (q : PwrReq) : Hw :=
  let target := h.domainsOf q.goal q.mask q.group
  let on := (List.range 50).filter (fun d => d != 0 && h.domOn d)
  let h := (h.setFld Reg.PWR_STATUS Fld.PWR_STATUS_TRANSITION 1).setFld Reg.PWR_STATUS Fld.PWR_STATUS_TARGET q.goal
  let h := if q.goal ≤ 2 then
      let h := (h.own.active.filter (fun o => decide (2 ≤ o))).foldl (fun a o => a.tearStart o false) h
      let h := h.tss.admitted.foldl (fun a x => a.clr (Reg.TSS_STREAM_BOUND x.1)) h
      let h := h.onTss (fun t => { t with admitted := [] })
      h.keepFresh.writeStore
    else h
  let h := h.onPwr (fun p => { p with
    req := none, busy := true, startUp := false, goal := q.goal, slot := q.slot, faults := [], railFaults := 0, stage := 7,
    toOn := target.filter (fun d => !on.contains d), toOff := on.filter (fun d => !target.contains d) })
  let h := h.onPwr (fun p => { p with rails := if h.railsDown.isEmpty then 0 else 2, railAt := h.clk, roundAt := none })
  h.settle

/-- A Basin group's cells are all free (R43). -/
def Hw.groupIdle (h : Hw) (g : Nat) : Bool := h.heldCells.all (fun c => cellGroup c != g)

/-- Domains free to go off, highest first, as units: PD_FABRIC goes with its last Basin group (R439). -/
def Hw.offUnits (h : Hw) : List (List Nat) :=
  let on := (List.range 50).filter (fun d => d != 0 && h.domOn d)
  let basins := on.filter (fun d => decide (7 ≤ d) && decide (d ≤ 22))
  let free (d : Nat) : Bool := on.all (fun x => x == d || !(requires x).contains d)
  let fabricFree := h.pwr.toOff.contains 25 && on.all (fun x => basins.contains x || !(requires x).contains 25)
  (h.pwr.toOff.reverse).filterMap (fun d =>
    if d = 25 then none
    else if 7 ≤ d ∧ d ≤ 22 then
      (if !h.groupIdle (d - 7) then none
       else if basins.length = 1 then (if fabricFree then some [25, d] else none)
       else some [d])
    else if free d then some [d] else none)

/-- Domains eligible to come on, lowest first, as units: PD_FABRIC comes with the lowest Basin group of the request (R439). -/
def Hw.onUnits (h : Hw) : List (List Nat) :=
  let want := h.pwr.toOn.filter (fun d => !h.pwr.ramping.contains d)
  let fabricOn := h.domOn 25
  let first := want.find? (fun d => decide (7 ≤ d) && decide (d ≤ 22))
  want.filterMap (fun d =>
    if d = 25 then none
    else if !fabricOn && some d == first && want.contains 25 then
      (if (requires 25).all h.pg then some [d, 25] else none)
    else if d = 47 ∧ !(h.regPg 4 && h.regPg 5) then none
    else if (requires d).all h.pg then some [d] else none)

/-- Take units while they fit into four domains. -/
def takeUnits : Nat → List (List Nat) → List Nat
  | _, [] => []
  | n, u :: us => if u.length ≤ n then u ++ takeUnits (n - u.length) us else []

/-- Remove from a request what can no longer come on because a domain faulted (R440). -/
def dropDependents : Nat → List Nat → List Nat → List Nat
  | 0, _, l => l
  | n + 1, bad, l =>
    let more := l.filter (fun d => (requires d).any bad.contains)
    if more.isEmpty then l else dropDependents n (bad ++ more) (l.filter (fun d => !more.contains d))

/-! ### Wakes (R195, R228, R235, R433, R435) -/

/-- A wake source is armed: `src` numbers bits of PWR_WAKE_CAUSE as n, E(n) as 32 + n, L(n) as 64 + n. -/
def Hw.wakeArmed (h : Hw) (src : Nat) : Bool :=
  let a := h.rn Reg.PWR_WAKE_ARM
  if src = 28 then true
  else if src < 32 then bit a src
  else if src < 64 then bit a 31 && (h.rn Reg.PWR_WAKE_ARM_ETH).testBit (src - 32)
  else bit a 30 && (h.rn Reg.PWR_WAKE_ARM_LIN).testBit (src - 64)

/-- The cause of a wake is recorded; the first since the causes were read is kept. -/
def Hw.recordWake (h : Hw) (src : Nat) : Hw :=
  let h := if src < 32 then h.wn Reg.PWR_WAKE_CAUSE (h.rn Reg.PWR_WAKE_CAUSE ||| 2 ^ src)
    else if src < 64 then
      (h.wn Reg.PWR_WAKE_CAUSE (h.rn Reg.PWR_WAKE_CAUSE ||| 2 ^ 31)).wn Reg.PWR_WAKE_CAUSE_ETH (h.rn Reg.PWR_WAKE_CAUSE_ETH ||| 2 ^ (src - 32))
    else
      (h.wn Reg.PWR_WAKE_CAUSE (h.rn Reg.PWR_WAKE_CAUSE ||| 2 ^ 30)).wn Reg.PWR_WAKE_CAUSE_LIN (h.rn Reg.PWR_WAKE_CAUSE_LIN ||| 2 ^ (src - 64))
  if h.flag Reg.PWR_WAKE_FIRST Fld.PWR_WAKE_FIRST_VALID then h
  else h.wn Reg.PWR_WAKE_FIRST (2 ^ 31 + src)

/-- A detection of an armed source: recorded, and latched as a wake unless a wake is already under way (R435). -/
def Hw.wakeDetect (h : Hw) (src : Nat) : Hw :=
  let st := h.fld Reg.PWR_STATUS Fld.PWR_STATUS_STATE
  if !h.pwr.powered || !h.wakeArmed src || (st == 0 && !h.pwr.busy) then h
  else
    let h := h.recordWake src
    if h.pwr.busy && (h.pwr.startUp || h.pwr.waking) then h else h.onPwr (fun p => { p with latched := insertNew p.latched src })

/-- The domains of a wake source with what they require (R435, R438). -/
def wakeDomains (src : Nat) : List Nat :=
  let mac (m : Nat) : List Nat :=
    let g := m / 4
    [4, 5, 6, 7, 49, 25] ++ (if g ≤ 2 then [23] else [24]) ++ (if g ≤ 4 then [26 + g] else []) ++ [31 + g]
  if src < 16 then [4, 5, 6, 49, 37]
  else if src < 20 then mac (20 + (src - 16))
  else if 32 ≤ src ∧ src < 64 then mac (src - 32)
  else if 64 ≤ src then [4, 5, 6, 49, 37, 43]
  else []

end Sys2Proof.Machine
end

