-- ==== Sys2Proof/Machine/GcsPort.lean ====
section
/-!
DEFINITION. The PORT commands (R178 to R203, R353, R355).
-/
namespace Sys2Proof.Machine

/-- The modes of a MAC (R178). -/
def macModes (m : Nat) : List Nat := if m < 4 then [1, 2, 3] else if m < 12 then [2, 3] else if m < 20 then [4, 5] else [6]

/-- A buffer owner or receiving owner named in a payload that the issuer's policy does not cover: only owner 1 names others (R356). -/
def denyOwner (o x : Nat) : Check := (o != 1 && x != o, cDenied, 0)

/-- Cells that a configuration lacks (R50, R348). -/
def Hw.quotaCheck (x : Hw) : Check := (x.cellsLacking x.groupsOn != 0, cQuota, x.cellsLacking x.groupsOn)

/-- A MAC's link is taken down by a change of its settings (R355). -/
def Hw.takeDown (h : Hw) (m : Nat) : Hw := (h.lineLoss m []).linkDown m

/-- A mode other MACs of Q0 have that does not go with mode `md` (R181). -/
def Hw.q0Clash (h : Hw) (m md : Nat) : Option Nat :=
  if 4 ≤ m ∨ md = 0 then none
  else (List.range 4).find? (fun x => x != m && h.macMode x != 0 && (h.macMode x == 1) != (md == 1))

/-- PORT_SET (R355): a lane of Q0 needs the rate of PLL A that its mode takes (R181), a cascade link runs at 25 Gb/s (R32), and
E20 to E23 have no PHY latency to set (R196). -/
def Hw.gcsPortSet (h : Hw) (o : Nat) (q : Slot) : Gcs :=
  let m := q.w 0
  let c := q.w 1
  let old := h.rn (Reg.MAC_CFG m)
  let mode := getF c Fld.MAC_CFG_MODE
  let en := getF c Fld.MAC_CFG_EN == 1
  let rate := getF c Fld.MAC_CFG_RATE
  let an := getF c Fld.MAC_CFG_AN_EN == 1 && (mode == 3 || mode == 5)
  let vid := bits (q.w 5) 27 16
  let own := bits (q.w 5) 8 0
  let us := bits (q.w 2) 25 16
  let clash := h.q0Clash m mode
  let link : Nat := 0x4FC  -- MODE, RATE, AN_EN and the inversion bits
  let relink := old &&& (link ||| 0x300) != c &&& (link ||| 0x300) || (getF old Fld.MAC_CFG_EN == 1 && !en)
  let x := h.images ([(Reg.MAC_CFG m, 0x7FFD, c), (Reg.MAC_LINK_CFG m, 0x3FF00FF, q.w 2)] ++
    (if m < 20 then [(Reg.MAC_RX_PHY_LAT m, 0xFFFFFFFF, q.w 3), (Reg.MAC_TX_PHY_LAT m, 0xFFFFFFFF, q.w 4)] else []))
  let x := { x with fwd := { x.fwd with defVid := kvPut x.fwd.defVid m vid, defOwner := kvPut x.fwd.defOwner m own } }
  -- the bounds at the rate the port would run at
  let y := if an || !h.linkUp m then h else h.setFld (Reg.MAC_STATUS m) Fld.MAC_STATUS_RATE rate
  let bound := Hw.boundBreaks h y
  match bound, (h.vet [h.deny o 1 m, denyOwner o own, q.reserved [31, 0x7FFD, 0x3FF00FF, 0xFFFFFFFF, 0xFFFFFFFF, 0x0FFF01FF],
      badAt (decide (24 ≤ m)) 0, badAt (if mode = 0 then en || decide (20 ≤ m) else !(macModes m).contains mode) 4,
      badAt (mode != 0 && !an && !(modeRates mode).contains rate) 5, badAt (us = 0 || decide (1000 < us)) 10,
      (!h.alive own, cNoObject, own), badState (!en && h.carries m) 1 m,
      badState (h.isCascade m && mode != 1) 1 m, conflict (mode != 0 && !h.pllFits m mode) 1 m,
      conflict clash.isSome 1 (clash.getD 0), x.quotaCheck]
      (.ok (if relink then x.takeDown m else x) [])) with
  | some d, .ok _ _ => .no cBound d [] (h.inc Reg.TSS_BOUND_REFUSED)
  | _, g => g

/-- PORT_SET (R355). -/
def execPortSet (owner slot : Nat) (s : State) : Res :=
  onHw s (fun h => h.gcsRun owner slot 0x0301 noDeadlock (h.gcsPortSet owner))

/-- PORT_GET (R353). -/
def execPortGet (owner slot : Nat) (s : State) : Res :=
  onHw s (fun h => h.gcsRun owner slot 0x0302 noDeadlock (fun q =>
    let m := q.w 0
    h.vet [h.denyRead owner 1 m, q.reserved [31], badAt (decide (24 ≤ m)) 0]
      (h.tell [h.rn (Reg.MAC_CFG m), h.rn (Reg.MAC_LINK_CFG m), h.rn (Reg.MAC_RX_PHY_LAT m), h.rn (Reg.MAC_TX_PHY_LAT m),
        kvGetD h.fwd.defVid m 1 * 65536 + kvGetD h.fwd.defOwner m 1, h.rn (Reg.MAC_STATUS m)])))

/-- PORT_QUAD_SET (R181): every lane on PLL A goes down. -/
def execPortQuadSet (owner slot : Nat) (s : State) : Res :=
  onHw s (fun h => h.gcsRun owner slot 0x0303 noDeadlock (fun q =>
    let k := q.w 0
    let v := q.w 1 % 2
    let macs := (List.range 4).map (fun l => 4 * k + l)
    let lanes := macs.filter (fun m => h.macMode m == 1 || h.macMode m == 2 || h.macMode m == 3)
    let clash := if k = 0 then lanes.find? (fun m => (h.macMode m == 1) != (v == 1)) else none
    h.vet ([h.denyAny owner (macs.map (fun m => (1, m))), q.reserved [7, 1], badAt (decide (5 ≤ k)) 0, badAt (k != 0 && v == 1) 4] ++
        macs.map (fun m => badState (h.carries m) 1 m) ++ [conflict clash.isSome 1 (clash.getD 0)])
      (.ok (if h.fld (Reg.SQ_CFG k) Fld.SQ_CFG_PLLA_RATE = v then h
        else lanes.foldl Hw.takeDown (h.cfg (Reg.SQ_CFG k) 1 v)) [])))

/-- PORT_EQ_SET (R182): word 0 the MAC of the lane, word 1 the taps as in SQ_LANE_EQ. -/
def execPortEqSet (owner slot : Nat) (s : State) : Res :=
  onHw s (fun h => h.gcsRun owner slot 0x0304 noDeadlock (fun q =>
    let m := q.w 0
    h.vet [h.deny owner 1 m, q.reserved [31, 0x1FFF1F], badAt (decide (20 ≤ m)) 0]
      (.ok (h.cfg (Reg.SQ_LANE_EQ (m / 4) (m % 4)) 0x1FFF1F (q.w 1)) [])))

/-- PORT_STEER_SET (R190, R191): word 0 the entry (12:8) and the MAC, then the two words of the entry. -/
def execPortSteerSet (owner slot : Nat) (s : State) : Res :=
  onHw s (fun h => h.gcsRun owner slot 0x0305 noDeadlock (fun q =>
    let m := q.w 0 % 32
    let i := bits (q.w 0) 12 8
    h.vet [h.deny owner 1 m, q.reserved [0x1F1F, 0xFFF00FFF, 0xFFFF], badAt (decide (24 ≤ m)) 0]
      (.ok (h.images [(Reg.MAC_STEER m i, 0xFFF00FFF, q.w 1), (Reg.MAC_STEER_TYPE m i, 0xFFFF, q.w 2)]) [])))

/-- The rate a port runs at, or is set to run at while its link is down. -/
def Hw.rateOf (h : Hw) (m : Nat) : Nat :=
  if h.linkUp m then h.portRate m else rateKbps (h.fld (Reg.MAC_CFG m) Fld.MAC_CFG_RATE)

/-- A mode B port-class of a MAC has too little HEADROOM for the bytes that arrive in TW_US + 1 µs (R193). -/
def Hw.eeeShort (h : Hw) (m tw : Nat) : Bool :=
  let bytes := (h.rateOf m * (tw + 1) + 7999) / 8000
  (List.range 8).any (fun k => !h.modeM (pcOf m k) &&
    decide (h.fld (Reg.SWC_VOQ_HDRM (pcOf m k)) Fld.SWC_VOQ_HDRM_HEADROOM * 256 < bytes))

/-- PORT_EEE_SET (R192, R193). -/
def execPortEeeSet (owner slot : Nat) (s : State) : Res :=
  onHw s (fun h => h.gcsRun owner slot 0x0306 noDeadlock (fun q =>
    let m := q.w 0
    let c := q.w 1
    let tw := getF c Fld.MAC_EEE_CFG_TW_US
    h.vet [h.deny owner 1 m, q.reserved [31, 0x83FF03FF], badAt (decide (20 ≤ m)) 0, badAt (tw = 0) 4,
        badAt (getF c Fld.MAC_EEE_CFG_IDLE_US = 0) 6, badAt (getF c Fld.MAC_EEE_CFG_EN == 1 && h.eeeShort m tw) 4]
      (.ok (h.cfg (Reg.MAC_EEE_CFG m) 0x83FF03FF c) [])))

/-- PORT_PLCA_SET (R186, R189): the coordinator of an up link is active at once. -/
def execPortPlcaSet (owner slot : Nat) (s : State) : Res :=
  onHw s (fun h => h.gcsRun owner slot 0x0307 noDeadlock (fun q =>
    let m := q.w 0
    let c := q.w 1
    let n := getF c Fld.MAC_PLCA_CFG_NODE_COUNT
    h.vet [h.deny owner 1 m, q.reserved [31, 0x870FFFFF, 0x3FFF00FF], badAt (decide (m < 20) || decide (24 ≤ m)) 0,
        badAt (n = 0 || decide (8 < n)) 6]
      (.ok (
        let x := h.images [(Reg.MAC_PLCA_CFG m, 0x870FFFFF, c), (Reg.MAC_PLCA_LIMIT m, 0x3FFF00FF, q.w 2)]
        if getF c Fld.MAC_PLCA_CFG_EN = 0 then x.setFld (Reg.MAC_PLCA_STATUS m) Fld.MAC_PLCA_STATUS_ACTIVE 0
        else if getF c Fld.MAC_PLCA_CFG_ID = 0 ∧ h.linkUp m then x.setFld (Reg.MAC_PLCA_STATUS m) Fld.MAC_PLCA_STATUS_ACTIVE 1
        else x) [])))

/-- PORT_WAKE_SET (R194): word 0 the MAC; on E0 to E19 word 1 is MAC_CFG's WAKE_POL, on E20 to E23 MAC_WAKE_PAT_EN, and a host
buffer of 512 bytes (words 2 to 4) holds the four patterns with their masks. -/
def execPortWakeSet (owner slot : Nat) (s : State) : Res :=
  onHw s (fun h => h.gcsRun owner slot 0x0308 noDeadlock (fun q =>
    let m := q.w 0
    let pat := q.w 4 = 512
    h.vet [h.deny owner 1 m, q.reserved [31, if m < 20 then 0x800 else 15], badAt (decide (24 ≤ m)) 0,
        badAt (q.w 4 != 0 && (!pat || decide (m < 20))) 16]
      (.ok (
        if m < 20 then (h.cfg (Reg.MAC_CFG m) 0x800 (q.w 1)).onMac (fun a => { a with
          wakePol := if bit (q.w 1) 11 then insertNew a.wakePol m else without a.wakePol m })
        else
          let x := h.cfg (Reg.MAC_WAKE_PAT_EN m) 15 (q.w 1)
          if pat then x.images (((q.bufWords 128).mapIdx (fun i v => (i, v))).map (fun p => (Reg.MAC_WAKE_PAT m p.1, 0xFFFFFFFF, p.2)))
          else x) [])))

/-- PORT_MACSEC_SET (R198, R199, R201): SecY settings, replay window, bypass list. A cascade link keeps MACsec (R108). -/
def execPortMacsecSet (owner slot : Nat) (s : State) : Res :=
  onHw s (fun h => h.gcsRun owner slot 0x0309 noDeadlock (fun q =>
    let m := q.w 0
    let c := q.w 1
    let en := getF c Fld.MAC_SEC_CFG_EN
    h.vet [h.deny owner 1 m, q.reserved [31, 0xFF000003], badAt (decide (20 ≤ m)) 0,
        badAt (getF c Fld.MAC_SEC_CFG_VALIDATE = 3) 7, badAt (getF c Fld.MAC_SEC_CFG_CONF_OFFSET = 3) 7,
        badAt (h.isCascade m && en == 0) 7]
      (.ok (
        let x := h.images ([(Reg.MAC_SEC_CFG m, 0xFF000003, c), (Reg.MAC_SEC_REPLAY_WINDOW m, 0xFFFFFFFF, q.w 2)] ++
          (List.range 4).map (fun i => (Reg.MAC_SEC_BYPASS m i, 0xFFFFFFFF, q.w (3 + i))))
        x.setFld (Reg.MAC_STATUS m) Fld.MAC_STATUS_MACSEC_ACTIVE (if x.macsecOn m && h.linkUp m then 1 else 0)) [])))

/-- PORT_SLEEP (R194): word 0 the group 0 to 5; its PD_MAC and quad domains go off. -/
def execPortSleep (owner slot : Nat) (s : State) : Res :=
  onHw s (fun h => h.gcsRun owner slot 0x030A noDeadlock (fun q =>
    let g := q.w 0
    let macs := (List.range 4).map (fun i => 4 * g + i)
    let ds := (31 + g) :: (if g < 5 then [26 + g] else [])
    h.vet ([h.denyAny owner (macs.map (fun m => (1, m))), badAt (decide (6 ≤ g)) 0] ++ macs.map (fun m => badState (h.carries m) 1 m))
      (.ok (ds.foldl (fun a d => if a.domOn d then a.domainOff d else a) (h.onPwr (fun p => { p with
        toOn := p.toOn.filter (fun d => !ds.contains d), ramping := p.ramping.filter (fun d => !ds.contains d) }))) [])))

end Sys2Proof.Machine
end

