-- ==== Sys2Proof/Machine/GcsFbus.lean ====
section
/-!
DEFINITION. The FBUS commands (R204 to R243, R353). Payload words are those of log entry 22 (DESIGN CHOICE): word 0 the controller, then register
images.
-/
namespace Sys2Proof.Machine

/-! ### What routes and schedules allow (R225) -/

/-- Kinds of record a source dispatches: 0 classical, 1 FD, 2 XL, 3 LIN. -/
def Hw.kindsOf (h : Hw) (src : Nat) : List Nat :=
  if src < 48 then 0 :: ((if h.canCfg src Fld.CAN_CFG_FD_EN = 1 then [1] else []) ++ (if h.canCfg src Fld.CAN_CFG_XL_EN = 1 then [2] else []))
  else if src < 64 then [3] else [0, 1]

/-- IDE of the copies a rule makes for a CAN destination. -/
def Hw.copyIde (h : Hw) (r : List Nat) (dest : Nat) : Bool :=
  if bit dest 18 then bit (kvGetD h.brg.rewr (dest % 4096) 0) 30 else bit (r.getD 0 0) 30

/-- Word 0 of the longest copies a rule makes for a CAN destination, one for each kind of record (R252). -/
def Hw.longest (h : Hw) (r : List Nat) (dest : Nat) : List Nat :=
  let signs := bit (r.getD 1 0) 20
  (h.kindsOf (bits (r.getD 1 0) 31 25)).filterMap (fun k =>
    let fmt := bits dest 21 20
    let n := if k = 2 then 2048 else if k = 1 && fmt != 1 || signs && decide (2 ≤ fmt) then 64 else 8
    (convert fmt k n false).map (fun x =>
      x.1 * 2 ^ 28 + (if h.copyIde r dest then 2 ^ 21 else 0) + (if fmt = 3 then 2 ^ 19 else 0) + n))

/-- Word 0 of the longest frames that routes and signal buffers can place in a controller's event queue. -/
def Hw.routeHeads (h : Hw) (c : Nat) : List Nat :=
  h.heads.flatMap (fun r => ((h.destsOf 4 r.2).filter (fun d => bits d 31 28 == 1 && bits d 27 22 == c)).flatMap (h.longest r.2)) ++
  (h.brg.bufs.filter (fun b => bits b.2.dest 31 28 == 1 && bits b.2.dest 27 22 == c)).map (fun b =>
    bits b.2.w0 31 28 * 2 ^ 28 + bits b.2.w0 21 19 * 2 ^ 19 + b.2.len)

/-- GUARD_US is shorter than the frame time of a frame that routes allow into the event queue (R225). -/
def Hw.guardShort (h : Hw) (c : Nat) : Bool :=
  h.flag (Reg.CAN_SCHED_CFG c) Fld.CAN_SCHED_CFG_EN &&
    (h.routeHeads c).any (fun w => decide (h.fld (Reg.CAN_SCHED_CFG c) Fld.CAN_SCHED_CFG_GUARD_US * 1000 < h.frameTime c [w, 0, 0]))

/-- Start and end of the EXCL windows of a matrix cycle with the guard before each, in ns after GUARD before the first (R224, R225). -/
def Hw.exclSpans (h : Hw) (c : Nat) : List (Nat × Nat) :=
  let g := h.fld (Reg.CAN_SCHED_CFG c) Fld.CAN_SCHED_CFG_GUARD_US * 1000
  (List.range (h.ncyc c)).flatMap (fun k => ((List.range 64).filter (h.exclSlot c k)).map (fun s =>
    let t := k * h.cycNs c + h.rn (Reg.CAN_SCHED_SLOT c s) % 2 ^ 30
    (t, t + g + h.rn (Reg.CAN_SCHED_WIN c s) % 2 ^ 30)))

/-- EXCL windows of a controller overlap, guards included; the matrix repeats. -/
def Hw.exclOverlap (h : Hw) (c : Nat) : Bool :=
  let l := (h.exclSpans c).mergeSort (fun a b => decide (a.1 ≤ b.1))
  let l := l ++ (l.head?.map (fun x => (x.1 + h.ncyc c * h.cycNs c, x.2 + h.ncyc c * h.cycNs c))).toList
  (l.zip (l.drop 1)).any (fun p => decide (p.2.1 < p.1.2))

/-- The first slot whose WINDOW is shorter than the frame time of a buffer its cells name. -/
def Hw.narrowSlot (h : Hw) (c : Nat) : Option Nat :=
  (List.range 64).find? (fun s => (h.rn (Reg.CAN_SCHED_SLOT c s)).testBit 31 && (List.range (h.ncyc c)).any (fun k =>
    match (h.cellOf c k s).bind (kvGet (h.can c).buf) with
    | some msg => decide (h.rn (Reg.CAN_SCHED_WIN c s) % 2 ^ 30 < h.frameTime c msg)
    | none => false))

/-- A controller's schedule breaks R225. -/
def Hw.schedBad (h : Hw) (c : Nat) : Bool :=
  let x := h.schedNext c
  x.flag (Reg.CAN_SCHED_CFG c) Fld.CAN_SCHED_CFG_EN && (x.exclOverlap c || (x.narrowSlot c).isSome || x.guardShort c)

/-! ### CAN controllers -/

/-- Bit timing that R210 refuses, by the offset of the field in a payload whose words 2 and 3 are the two images. -/
def timingChecks (nbt dbt : Nat) (fd xl : Bool) : List Check :=
  [badAt (decide (bits nbt 14 8 < bits nbt 6 0)) 8, badAt (decide (bits nbt 22 15 + bits nbt 14 8 + 3 < 8)) 9,
   badAt (decide (nomBit nbt < 80)) 10, badAt (decide (bits dbt 12 8 < bits dbt 4 0)) 12,
   badAt (decide (datBit dbt < 4) || (fd && !xl && decide (datBit dbt < 10))) 15, badAt (decide (nomBit nbt < datBit dbt)) 15]

/-- A controller is enabled or disabled: it integrates anew (R206); a frame it was sending is not sent. -/
def Hw.canToggle (h : Hw) (c : Nat) : Hw :=
  ((h.canUnsent c).setFld (Reg.CAN_STATUS c) Fld.CAN_STATUS_SYNC 0).setFld (Reg.CAN_STATUS c) Fld.CAN_STATUS_PEX_ACTIVE 0

/-- FBUS_CAN_SET (R209 to R213): word 1 the image of CAN_CFG, words 2 to 4 those of CAN_NBT, CAN_DBT and CAN_XL_PWM. A change of
mode takes effect at bus idle. -/
def execFbusCanSet (owner slot : Nat) (s : State) : Res :=
  onHw s (fun h => h.gcsRun owner slot 0x0701 Hw.deadlocks (fun q =>
    let c := q.w 0
    let cfg := q.w 1
    let en := getF cfg Fld.CAN_CFG_EN == 1
    let was := h.flag (Reg.CAN_CFG c) Fld.CAN_CFG_EN
    let tms := getF cfg Fld.CAN_CFG_XL_TMS == 1
    let moved := h.rn (Reg.CAN_NBT c) != q.w 2 || h.rn (Reg.CAN_DBT c) != q.w 3
    let x := h.images [(Reg.CAN_CFG c, 0xFFFF8000, cfg), (Reg.CAN_NBT c, 0xFFFFFF7F, q.w 2), (Reg.CAN_DBT c, 0x1F3F1F1F, q.w 3),
      (Reg.CAN_XL_PWM c, 0xFFFFFF, q.w 4)]
    h.vet ([h.deny owner 4 c, q.reserved [0x3F, 0xFFFF8000, 0xFFFFFF7F, 0x1F3F1F1F, 0xFFFFFF], badAt (decide (48 ≤ c)) 0,
        badAt (getF cfg Fld.CAN_CFG_NOMATCH = 3) 6, badAt (getF cfg Fld.CAN_CFG_MODE = 3) 7] ++
        timingChecks (q.w 2) (q.w 3) (getF cfg Fld.CAN_CFG_FD_EN == 1) (getF cfg Fld.CAN_CFG_XL_EN == 1) ++
        [badAt (h.flag (Reg.CAN_TDC c) Fld.CAN_TDC_EN && decide (datBit (q.w 3) < 8) && !tms) 15] ++
        (List.range 3).map (fun i => badAt (tms && bits (q.w 4) (8 * i + 7) (8 * i) = 0) (16 + i)) ++
        [badAt (en && x.schedBad c && !(was && h.schedBad c)) 8, badState (was && moved) 4 c])
      (.ok (if en != was then x.canToggle c else x) [])))

/-- FBUS_CAN_TDC_SET (R211): word 1 EN and TDCO of CAN_TDC. -/
def execFbusCanTdcSet (owner slot : Nat) (s : State) : Res :=
  onHw s (fun h => h.gcsRun owner slot 0x0702 noDeadlock (fun q =>
    let c := q.w 0
    h.vet [h.deny owner 4 c, q.reserved [0x3F, 0x800000FF], badAt (decide (48 ≤ c)) 0,
        badAt (bit (q.w 1) 31 && decide (datBit (h.rn (Reg.CAN_DBT c)) < 8) && !h.flag (Reg.CAN_CFG c) Fld.CAN_CFG_XL_TMS) 7]
      (.ok (h.cfg (Reg.CAN_TDC c) 0x800000FF (q.w 1)) [])))

/-- FBUS_FILTER_WRITE (R216, R217): word 0 holds the number of pairs (22:16) and the first (13:8); the host buffer of words 1 to 3
holds value and mask of each. They take effect at bus idle. -/
def execFbusFilterWrite (owner slot : Nat) (s : State) : Res :=
  onHw s (fun h => h.gcsRun owner slot 0x0703 noDeadlock (fun q =>
    let c := q.w 0 % 64
    let first := bits (q.w 0) 13 8
    let n := bits (q.w 0) 22 16
    let ws := q.bufWords (2 * n)
    h.vet [h.deny owner 4 c, q.reserved [0x7F3F3F], badAt (decide (48 ≤ c)) 0, badAt (n = 0 || decide (64 < first + n)) 2,
        badAt (q.w 3 != 8 * n) 12]
      (.ok (h.onCan c (fun x => { x with filt := x.filt ++ (List.range n).flatMap (fun i =>
        [(Reg.CAN_FILT_VAL c (first + i), ws.getD (2 * i) 0), (Reg.CAN_FILT_MASK c (first + i), ws.getD (2 * i + 1) 0)]) })) [])))

/-- FBUS_RXQ_SET (R218, R222): words 1 and 2 the images of CAN_RXQ_CFG and CAN_TXQ_CFG. -/
def execFbusRxqSet (owner slot : Nat) (s : State) : Res :=
  onHw s (fun h => h.gcsRun owner slot 0x0704 noDeadlock (fun q =>
    let c := q.w 0
    h.vet [h.deny owner 4 c, q.reserved [0x3F, 0xC000000F, 0xFFFF], badAt (decide (48 ≤ c)) 0, badAt (q.w 1 % 16 = 0) 4]
      (.ok (h.images [(Reg.CAN_RXQ_CFG c, 0xC000000F, q.w 1), (Reg.CAN_TXQ_CFG c, 0xFFFF, q.w 2)]) [])))

/-- FBUS_CAN_RECOVER (R215): a controller in bus-off may rejoin. -/
def execFbusCanRecover (owner slot : Nat) (s : State) : Res :=
  onHw s (fun h => h.gcsRun owner slot 0x0705 noDeadlock (fun q =>
    let c := q.w 0
    h.vet [h.deny owner 4 c, q.reserved [0x3F], badAt (decide (48 ≤ c)) 0, badState (h.canErr c != 2) 4 c]
      (.ok (h.onCan c (fun x => { x with recover := true })) [])))

/-- The register writes of a schedule buffer: 64 slots with their windows, then the cells. -/
def schedWrites (c : Nat) (ws : List Nat) : List (Nat × Nat) :=
  (List.range 64).flatMap (fun i => [(Reg.CAN_SCHED_SLOT c i, ws.getD (2 * i) 0), (Reg.CAN_SCHED_WIN c i, ws.getD (2 * i + 1) 0)]) ++
    (List.range 256).map (fun k => (Reg.CAN_SCHED_CELL c k, ws.getD (128 + k) 0))

/-- FBUS_SCHED_LOAD (R223 to R225): words 1 to 4 the images of CAN_SCHED_CFG, CYCLE_NS and the base time; the host buffer of words 5
to 7 holds 64 pairs of slot and window words, then 256 words of cells (1,536 bytes). With EN = 0 the schedule stops and no buffer is
named. Slots and cells of a running schedule change at the next basic cycle; another cycle, base or time base starts it anew. -/
def execFbusSchedLoad (owner slot : Nat) (s : State) : Res :=
  onHw s (fun h => h.gcsRun owner slot 0x0706 noDeadlock (fun q =>
    let c := q.w 0
    let en := bit (q.w 1) 31
    let ws := q.bufWords 384
    let writes := schedWrites c ws
    let x := h.images [(Reg.CAN_SCHED_CFG c, 0xF7001FFF, q.w 1), (Reg.CAN_SCHED_CYCLE_NS c, 0xFFFFFFFF, q.w 2),
      (Reg.CAN_SCHED_BASE_S c, 0xFFFFFFFF, q.w 3), (Reg.CAN_SCHED_BASE_NS c, 0xFFFFFFFF, q.w 4)]
    let same := h.flag (Reg.CAN_SCHED_CFG c) Fld.CAN_SCHED_CFG_EN && bits (q.w 1) 30 24 == bits (h.rn (Reg.CAN_SCHED_CFG c)) 30 24 &&
      h.cycNs c == q.w 2 && h.rn (Reg.CAN_SCHED_BASE_S c) == q.w 3 && h.rn (Reg.CAN_SCHED_BASE_NS c) == q.w 4
    let y := (x.onCan c (fun k => { k with sched := [] })).images (writes.map (fun w => (w.1, 0xFFFFFFFF, w.2)))
    let common := [h.deny owner 4 c, q.reserved [0x3F, 0xF7001FFF], badAt (decide (48 ≤ c)) 0]
    if !en then h.vet common
      (.ok ((h.cfg (Reg.CAN_SCHED_CFG c) 0xF7001FFF (q.w 1)).onCan c (fun k => { k with cycle := none, live := [], stepped := false, startAt := none })) [])
    else h.vet (common ++ [badAt (decide (4 < bits (q.w 1) 26 24)) 7, badAt (decide (q.w 2 < 100000) || decide (1000000000 < q.w 2)) 8,
        badAt (decide (1000000000 ≤ q.w 4)) 16, badAt (q.w 7 != 1536) 28,
        reservedIn ws ((List.range 64).flatMap (fun _ => [0xFFFFFFFF, 0x3FFFFFFF]) ++ List.replicate 256 0xBFBFBFBF)] ++
        (List.range 64).map (fun i => badAt (bit (ws.getD (2 * i) 0) 31 && decide (q.w 2 ≤ ws.getD (2 * i) 0 % 2 ^ 30)) (8 * i)) ++
        [badAt (y.narrowSlot c).isSome (8 * (y.narrowSlot c).getD 0 + 4), badAt (y.exclOverlap c) 0, badAt (y.guardShort c) 4])
      (.ok (if same then x.onCan c (fun k => { k with sched := writes })
        else y.onCan c (fun k => { k with cycle := none, live := [], stepped := false, startAt := some (y.matrixStart c) })) [])))

/-- A message record with its controller number replaced. -/
def messageFor (c : Nat) (ws : List Nat) : List Nat :=
  (ws.getD 0 0 / 2 ^ 28 * 2 ^ 28 + c * 2 ^ 22 + ws.getD 0 0 % 2 ^ 22) :: ws.drop 1

/-- What makes a request no frame of a controller: its kind, a format not enabled, its length, words that do not match it. -/
def Hw.badMessage (h : Hw) (c : Nat) (ws : List Nat) (maxXl : Nat) : Bool :=
  let n := recLen ws
  let k := recKind ws
  (if k = 0 then decide (8 < n) else if k = 1 then h.canCfg c Fld.CAN_CFG_FD_EN == 0 || decide (64 < n) || fitLen n != n
    else if k = 2 then h.canCfg c Fld.CAN_CFG_XL_EN == 0 || n == 0 || decide (maxXl < n) else true) || ws.length != 3 + (n + 3) / 4

/-- FBUS_MSGBUF_WRITE (R223, R226): word 0 holds the buffer (13:8); a message record without timestamp words follows, of up to 64
data bytes. -/
def execFbusMsgbufWrite (owner slot : Nat) (s : State) : Res :=
  onHw s (fun h => h.gcsRun owner slot 0x0707 noDeadlock (fun q =>
    let c := q.w 0 % 64
    let b := bits (q.w 0) 13 8
    let msg := messageFor c (q.payload.drop 1)
    let x := h.bufferWrite c b msg
    h.vet [h.deny owner 4 c, q.reserved [0x3F3F, 0xFFFE0FFF], badAt (decide (48 ≤ c)) 0, badAt (h.badMessage c msg 64) 4,
        badAt (x.schedBad c && !h.schedBad c) 4]
      (.ok x [])))

/-- FBUS_TX (R221): a message record without timestamp words follows word 0, or, with bit 31 of word 0, stands in the host buffer of
words 1 to 3. A full queue refuses it. -/
def execFbusTx (owner slot : Nat) (s : State) : Res :=
  onHw s (fun h => h.gcsRun owner slot 0x0708 noDeadlock (fun q =>
    let c := q.w 0 % 64
    let far := bit (q.w 0) 31
    let msg := messageFor c (if far then q.bufWords (q.w 3 / 4) else q.payload.drop 1)
    let r := h.canRequest c msg
    h.vet [h.deny owner 4 c, q.reserved [0x8000003F], badAt (decide (48 ≤ c)) 0, badAt (h.badMessage c msg 2048) (if far then 0 else 4)]
      (if r.1 then .ok r.2 [] else .no cState (resWord 4 c) [] r.2)))

/-! ### LIN controllers -/

/-- DELAY of a schedule entry is at least 1.4 × (34 + 10 × (N + 1)) bit times (R232); `len` gives the length of an identifier, `sets`
the identifiers of a sporadic set, and `rate` is the LIN_RATE word. -/
def delayFits (len : Nat → Nat) (sets : Nat → List Nat) (rate e : Nat) : Bool :=
  let id := bits e 21 16
  let n := match bits e 30 28 with
    | 0 => len id
    | 1 => len id
    | 2 => ((sets (id % 16)).map len).foldl max 0
    | _ => 8
  !bit e 31 || decide (14 * (44 + 10 * n) * rate ≤ bits e 15 0 * 20000)

/-- Every entry of a controller's tables has a long enough DELAY. -/
def Hw.delaysFit (h : Hw) (l : Nat) : Bool :=
  (List.range 256).all (fun i =>
    delayFits (h.linLen l) (h.sporadicIds l) (h.rn (Reg.LIN_RATE l) % 65536) (h.rn (Reg.LIN_SCHED l (i / 64) (i % 64))))

/-- FBUS_LIN_SET (R230, R231, R235): words 1 to 3 the images of LIN_CFG, LIN_RATE and LIN_TIMING. A controller disabled or given the
other role stops its schedule. -/
def execFbusLinSet (owner slot : Nat) (s : State) : Res :=
  onHw s (fun h => h.gcsRun owner slot 0x0709 noDeadlock (fun q =>
    let l := q.w 0
    let t := q.w 3
    let x := h.images [(Reg.LIN_CFG l, 0xF8000000, q.w 1), (Reg.LIN_RATE l, 0xFFFF, q.w 2), (Reg.LIN_TIMING l, 0xFFFFFF1F, t)]
    let stop := !bit (q.w 1) 31 || bit (q.w 1) 30 != h.linResponder l
    h.vet [h.deny owner 5 l, q.reserved [15, 0xF8000000, 0xFFFF, 0xFFFFFF1F], badAt (decide (q.w 2 < 1000) || decide (20000 < q.w 2)) 8,
        badAt (!x.delaysFit l && h.delaysFit l) 8, badAt (decide (t % 32 < 13) || decide (26 < t % 32)) 12,
        badAt (bits t 11 8 = 0 || decide (4 < bits t 11 8) || decide (6 < bits t 15 12)) 13,
        badAt (decide (bits t 31 16 < 250) || decide (5000 < bits t 31 16)) 14]
      (.ok (if stop then (x.setFld (Reg.LIN_STATUS l) Fld.LIN_STATUS_BUS_ACTIVE 0).onLin l (fun k => { k with
        await := none, sent := none, coll := none, collNext := none, running := false }) else x) [])))

/-- FBUS_LIN_TABLE_LOAD (R232, R233): word 0 holds the table (10:8): 0 to 3 a schedule table, 4 the frame table, 5 the sporadic sets;
the host buffer of words 1 to 3 holds its 64 words, or 16 for the sporadic sets. -/
def execFbusLinTableLoad (owner slot : Nat) (s : State) : Res :=
  onHw s (fun h => h.gcsRun owner slot 0x070A noDeadlock (fun q =>
    let l := q.w 0 % 16
    let k := bits (q.w 0) 10 8
    let n := if k = 5 then 16 else 64
    let ws := q.bufWords n
    let x := h.images ((List.range n).map (fun i =>
      (if k < 4 then Reg.LIN_SCHED l k i else if k = 4 then Reg.LIN_FRAME l i else Reg.LIN_SPORADIC l i, 0xFFFFFFFF, ws.getD i 0)))
    h.vet [h.deny owner 5 l, q.reserved [0x70F], badAt (decide (5 < k)) 1, badAt (q.w 3 != 4 * n) 12,
        reservedIn ws (List.replicate n (if k < 4 then 0xFC3FFFFF else if k = 4 then 0x7F else 0xBFBFBFBF)),
        badEntry ws (fun e => if k < 4 then decide (4 < bits e 30 28) else k == 4 &&
          (e % 4 == 3 || (e % 4 != 0 && (bits e 5 2 == 0 || decide (8 < bits e 5 2))))),
        badEntry ws (fun e => decide (k < 4) && !delayFits (h.linLen l) (h.sporadicIds l) (h.rn (Reg.LIN_RATE l) % 65536) e),
        badAt (decide (4 ≤ k) && !x.delaysFit l && h.delaysFit l) 0]
      (.ok x [])))

/-- FBUS_LIN_SCHED_SELECT (R232): word 1 the image of LIN_SCHED_CTRL. -/
def execFbusLinSchedSelect (owner slot : Nat) (s : State) : Res :=
  onHw s (fun h => h.gcsRun owner slot 0x070B noDeadlock (fun q =>
    let l := q.w 0
    h.vet [h.deny owner 5 l, q.reserved [15, 0x80000003]]
      (.ok (
        let x := h.cfg (Reg.LIN_SCHED_CTRL l) 0x80000003 (q.w 1)
        if bit (q.w 1) 31 then x else x.onLin l (fun k => { k with running := false, coll := none, collNext := none })) [])))

/-- FBUS_LIN_WAKE (R235): a dominant level for WAKE_US. -/
def execFbusLinWake (owner slot : Nat) (s : State) : Res :=
  onHw s (fun h => h.gcsRun owner slot 0x070C noDeadlock (fun q =>
    let l := q.w 0
    h.vet [h.deny owner 5 l, q.reserved [15], noObj (!h.linOn l) 5 l]
      (.ok ((h.onLin l (fun k => { k with waking := some (h.clk + h.fld (Reg.LIN_TIMING l) Fld.LIN_TIMING_WAKE_US * 500) })).emit (.pin (.linTx l) (some false))) [])))

/-! ### Wake detectors, Rill FIFOs -/

/-- FBUS_WAKE_DET_SET (R228, R229): words 1 to 7 the images of CANW_CFG, CANW_ID, its mask, the data words and their masks. -/
def execFbusWakeDetSet (owner slot : Nat) (s : State) : Res :=
  onHw s (fun h => h.gcsRun owner slot 0x070D noDeadlock (fun q =>
    let w := q.w 0
    h.vet [h.deny owner 4 w, q.reserved [7, 0xFE00000F, 0x1FFFFFFF, 0x1FFFFFFF]]
      (.ok (h.images [(Reg.CANW_CFG w, 0xFE00000F, q.w 1), (Reg.CANW_ID w, 0x1FFFFFFF, q.w 2), (Reg.CANW_ID_MASK w, 0x1FFFFFFF, q.w 3),
        (Reg.CANW_DATA_LO w, 0xFFFFFFFF, q.w 4), (Reg.CANW_DATA_HI w, 0xFFFFFFFF, q.w 5), (Reg.CANW_DMASK_LO w, 0xFFFFFFFF, q.w 6),
        (Reg.CANW_DMASK_HI w, 0xFFFFFFFF, q.w 7)]) [])))

/-- FBUS_RILL_SET (R237): word 1 the image of FBUS_RILL_CFG. The queue is one of the issuer, or of any owner when owner 1 binds it. -/
def execFbusRillSet (owner slot : Nat) (s : State) : Res :=
  onHw s (fun h => h.gcsRun owner slot 0x070E noDeadlock (fun q =>
    let f := q.w 0
    let dst := q.w 1 % 2 ^ 14
    let en := bit (q.w 1) 31 && !bit (q.w 1) 30
    h.vet [h.deny owner 10 f, (en && owner != 1 && (dst - 8192) / 8 != owner, cDenied, resWord 10 f), q.reserved [63, 0xC0003FFF],
        badAt (en && (decide (dst < 8208) || decide (8208 + 2048 ≤ dst))) 4,
        (en && !h.own.active.contains ((dst - 8192) / 8), cNoObject, resWord 10 f)]
      (.ok (h.cfg (Reg.FBUS_RILL_CFG f) 0xC0003FFF (q.w 1)) [])))

end Sys2Proof.Machine
end

