-- ==== Sys2Proof/Machine/GcsGwy.lean ====
section
/-!
DEFINITION. The GWY commands (R244 to R269, R353, R359). Payload words that R359 does not lay out are those of log entry 22 (DESIGN CHOICE).
-/
namespace Sys2Proof.Machine

/-! ### Sets of identifiers: a value under a mask -/

/-- Two sets share an identifier. -/
def meets (a b : Nat × Nat) : Bool := a.1 &&& b.2 &&& a.2 == b.1 &&& a.2 &&& b.2

/-- What two sets that meet share. -/
def both (a b : Nat × Nat) : Nat × Nat := (a.1 ||| b.1, a.2 ||| b.2)

/-- An identifier belongs to a set. -/
def inSet (k : Nat) (a : Nat × Nat) : Bool := k &&& a.2 == a.1

/-- What is left of a set without another, as sets that do not meet. -/
def cutOut (a b : Nat × Nat) : List (Nat × Nat) :=
  if !meets a b then [a]
  else ((List.range 29).foldl (fun (w : (Nat × Nat) × List (Nat × Nat)) i =>
    if bit b.2 i && !bit w.1.2 i then
      let m := w.1.2 + 2 ^ i
      if bit b.1 i then ((w.1.1 + 2 ^ i, m), w.2 ++ [(w.1.1, m)]) else ((w.1.1, m), w.2 ++ [(w.1.1 + 2 ^ i, m)])
    else w) (a, [])).2

/-! ### Routes that return to their source (R251) -/

/-- Source, mask set and IDE of a rule. -/
def ruleSrc (r : List Nat) : Nat := bits (r.getD 1 0) 31 25
def ruleSet (r : List Nat) : Nat := bits (r.getD 1 0) 24 23
def ruleIde (r : List Nat) : Bool := bit (r.getD 0 0) 30

/-- The key of a rule that a record can hit; none for one that only carries destinations. -/
def ruleKey (r : List Nat) : Option (Nat × Nat × Bool × Nat) :=
  if ruleChained r then none else some (ruleSrc r, ruleSet r, ruleIde r, r.getD 0 0 % 2 ^ 29)

/-- The identifiers that hold a rule's key under its mask set, while the set is used. -/
def Hw.ruleIds (h : Hw) (r : List Nat) : List (Nat × Nat) :=
  let m := h.rn (Reg.BRG_SRC_MASK (ruleSrc r) (ruleSet r))
  let k := r.getD 0 0 % 2 ^ 29
  if bit m 31 && k &&& m % 2 ^ 29 == k then [(k, m % 2 ^ 29)] else []

/-- The identifiers a rule decides: those no mask set before its own finds a rule for (R248). -/
def Hw.ruleDecides (h : Hw) (r : List Nat) : List (Nat × Nat) :=
  ((h.heads.filter (fun x => ruleSrc x.2 == ruleSrc r && ruleIde x.2 == ruleIde r && decide (ruleSet x.2 < ruleSet r))).flatMap
    (fun x => h.ruleIds x.2)).foldl (fun l c => l.flatMap (fun a => cutOut a c)) (h.ruleIds r)

/-- A frame on its way: controller it was sent on, IDE, its identifier now (none: unchanged), the identifiers it may have begun with. -/
abbrev OnWay := Nat × Bool × Option Nat × (Nat × Nat)

/-- Where a rule sends a frame that arrives on its source. -/
def Hw.routeStep (h : Hw) (r : List Nat) (f : OnWay) : List OnWay :=
  let from_ := match f.2.2.1 with
    | some k => if (h.ruleDecides r).any (inSet k) then [f.2.2.2] else []
    | none => ((h.ruleDecides r).filter (meets f.2.2.2)).map (both f.2.2.2)
  if ruleSrc r != f.1 || ruleIde r != f.2.1 then []
  else from_.flatMap (fun o => ((h.destsOf 4 r).filter (fun d => bits d 31 28 == 1)).map (fun d =>
    if bit d 18 then
      let w := kvGetD h.brg.rewr (d % 4096) 0
      (bits d 27 22, bit w 30, some (w % 2 ^ 29), o)
    else (bits d 27 22, f.2.1, f.2.2.1, o)))

/-- Everything reached from frames on their way in at most so many rules. -/
def Hw.routeFrom (h : Hw) : Nat → List OnWay → List OnWay
  | 0, l => l
  | n + 1, l =>
    let l' := (l ++ l.flatMap (fun f => h.heads.flatMap (fun r => h.routeStep r.2 f))).dedup
    if l'.length = l.length then l else h.routeFrom n l'

/-- A rule begins a path that brings a frame back to its source controller with its original identifier. -/
def Hw.loops (h : Hw) (r : List Nat) : Bool :=
  decide (ruleSrc r < 48) && (h.routeFrom h.heads.length (h.routeStep r (ruleSrc r, ruleIde r, none, (0, 0)))).any (fun f =>
    f.1 == ruleSrc r && f.2.1 == ruleIde r && (match f.2.2.1 with | some k => inSet k f.2.2.2 | none => true))

/-! ### What firmware refuses in a rule set -/

/-- Rules of a chain, at most `fuel`. -/
def Hw.chainLen (h : Hw) : Nat → List Nat → Nat
  | 0, _ => 0
  | n + 1, r => if bit (r.getD 7 0) 31 then (match kvGet h.brg.rules (r.getD 7 0 % 65536) with
      | some x => 1 + h.chainLen n x
      | none => 1) else 1

/-- Buffer owner of a rule's Ethernet copies. -/
def Hw.ruleOwner (h : Hw) (r : List Nat) : Nat := if bit (r.getD 2 0) 31 then bits (r.getD 2 0) 24 16 else h.svcOwner 25

/-- CAN destinations of a rule and its chain. -/
def Hw.canDests (h : Hw) (r : List Nat) : List Nat := (h.destsOf 4 r).filter (fun d => bits d 31 28 == 1)

/-- A destination lacks FD_EN or XL_EN for a format a rule sends (R252). -/
def Hw.formatBad (h : Hw) (r : List Nat) : Bool :=
  (h.canDests r).any (fun d => (h.kindsOf (ruleSrc r)).any (fun k => match convert (bits d 21 20) k 8 false with
    | some (1, _) => h.canCfg (bits d 27 22) Fld.CAN_CFG_FD_EN == 0
    | some (2, _) => h.canCfg (bits d 27 22) Fld.CAN_CFG_XL_EN == 0
    | _ => false))

/-- Bytes of the secured payload of an authentication entry. -/
def Hw.securedLen (h : Hw) (i : Nat) : Nat := match kvGet h.brg.auth i with
  | some a => a.len + a.fv + a.mac
  | none => 0

/-- A rule uses an authentication entry on a route that carries XL frames or cannot hold the secured payload (R266). -/
def Hw.authBad (h : Hw) (r : List Nat) : Bool :=
  let kinds := h.kindsOf (ruleSrc r)
  let room := if kinds.contains 1 then 64 else 8
  let w1 := r.getD 1 0
  (bit w1 22 && (kinds.contains 2 || decide (room < h.securedLen (w1 % 4096)))) ||
  (bit w1 20 && (h.canDests r).any (fun d =>
    let fmt := bits d 21 20
    (fmt == 0 && kinds.contains 2) ||
      decide ((if fmt = 1 then 8 else if fmt = 0 then room else 64) < h.securedLen (bits (r.getD 7 0) 27 16))))

/-- Indices of the rules that records can hit and that have a fault. -/
def Hw.headsWith (h : Hw) (bad : Hw → List Nat → Bool) : List Nat := (h.heads.filter (fun r => bad h r.2)).map (·.1)

/-- Tunnels whose rules name different owners (R264). -/
def Hw.tunnelsMixed (h : Hw) : List Nat :=
  (List.range 32).filter (fun t =>
    decide (1 < (((h.heads.filter (fun r => (h.destsOf 4 r.2).any (fun d => bits d 31 28 == 4 && d % 32 == t))).map
      (fun r => h.ruleOwner r.2)).dedup.length)))

/-- Controllers whose schedule has too short a guard (R225). -/
def Hw.guardsShort (h : Hw) : List Nat := (List.range 48).filter h.guardShort

/-- The first fault a change brings about. -/
def firstNew (f : Hw → List Nat) (h x : Hw) : Option Nat := (f x).find? (fun d => !(f h).contains d)

/-- LOOP: the first rule of a path that brings a frame back (R251). -/
def loopCheck (h x : Hw) : Check :=
  match firstNew (fun a => a.headsWith Hw.loops) h x with
  | some i => (true, cLoop, i)
  | none => (false, 0, 0)

/-! ### Rules -/

/-- Resource words of what a rule names: its source, its destinations, its policer, its authentication entries. -/
def ruleNames (r : List Nat) : List (Nat × Nat) :=
  let src := ruleSrc r
  let w1 := r.getD 1 0
  (if ruleChained r then [] else
    [if src < 48 then (4, src) else if src < 64 then (5, src - 48) else (0, 0)] ++
    (if bit w1 22 then [(17, w1 % 4096)] else []) ++ (if bit w1 20 then [(17, bits (r.getD 7 0) 27 16)] else []) ++
    (if bit (r.getD 2 0) 15 then [(2, r.getD 2 0 % 4096)] else [])) ++
  ((r.drop 3).take 4).filterMap (fun d => match bits d 31 28 with
    | 1 => some (4, bits d 27 22)
    | 2 => some (5, bits d 27 24)
    | 3 => some (10, d % 64)
    | 4 => some (12, d % 32)
    | 6 => if bit d 6 then none else some (10, d % 64)
    | _ => none)

/-- The bits of a destination word in use, by its type (R250). -/
def destMask (d : Nat) : Nat :=
  [0xF0000000, 0xFFFC0FFF, 0xFF00003F, 0xF000003F, 0xFFC0001F, 0xF01FFFFF, 0xF000007F, 0xF0000000].getD (bits d 31 28) 0xFFFFFFFF

/-- Faults of a rule by itself, at their offsets in a payload whose word 1 is the rule's word 0. -/
def ruleChecks (r : List Nat) : List Check :=
  let d (i : Nat) : Nat := r.getD (3 + i) 0
  (if ruleChained r then [] else [badAt (decide (95 < ruleSrc r)) 11]) ++
  (List.range 4).flatMap (fun i => [badAt (decide (8 ≤ bits (d i) 31 28)) (19 + 4 * i),
    badAt (bits (d i) 31 28 = 1 && decide (48 ≤ bits (d i) 27 22)) (18 + 4 * i),
    badAt (bits (d i) 31 28 = 5 && bits (d i) 20 13 = 0) (17 + 4 * i)])

/-- The rule of nine payload words as it is kept: one that only carries destinations has its other words cleared. -/
def ruleOf (ws : List Nat) : List Nat :=
  if bit (ws.getD 0 0) 16 then [2 ^ 29, 0, 0] ++ (ws.drop 4).take 5 else (ws.drop 1).take 8

/-- The lowest free index in the blocks an owner holds. -/
def Hw.freeRule (h : Hw) (o : Nat) : Option Nat :=
  (((List.range 256).map (· * 256) ++ h.brg.rules.map (fun (r : Nat × List Nat) => r.1 + 1)).filter (fun i =>
    decide (i < 65535) && (kvGet h.brg.rules i).isNone && h.mayConf o 16 (i / 256))).foldl (fun b i => match b with
      | none => some i
      | some k => some (min k i)) none

/-- One rule placed or updated (R248 to R254, R264, R266, R359). -/
def Hw.ruleAdd (h : Hw) (o : Nat) (ws : List Nat) : Gcs :=
  let r := ruleOf ws
  let chained := bit (ws.getD 0 0) 16
  let i := ws.getD 0 0 % 65536
  let upd := i != 65535
  let old := kvGet h.brg.rules i
  let keep := upd && (match old with | some p => ruleKey p == ruleKey r | none => false)
  let place := if keep then some i else h.freeRule o
  let x := h.onBrg (fun b => { b with rules := kvPut (if upd then kvDel b.rules i else b.rules) (place.getD 65536) r })
  let w2 := r.getD 2 0
  let handle := w2 % 4096
  let rated := ruleHead r && bit w2 15
  let dup := h.brg.rules.find? (fun e => !(upd && e.1 == i) && ruleHead e.2 && ruleHead r && ruleKey e.2 == ruleKey r)
  let mixed := firstNew Hw.tunnelsMixed h x
  let next := r.getD 7 0 % 65536
  let used := x.fwd.em.any (fun e => e.2.isStream && e.2.stream == handle) ||
    h.flag (Reg.TSS_SLUICE_FILTER handle) Fld.TSS_SLUICE_FILTER_EN
  h.vet ([if upd then h.deny o 16 (i / 256) else ((List.range 256).all (fun b => !h.mayConf o 16 b), cDenied, resWord 16 0),
      h.denyAny o (ruleNames r), (if bit w2 31 then denyOwner o (bits w2 24 16) else (false, 0, 0)),
      reservedIn ws ([0x1FFFF] ++ (if chained then [0xFFFFFFFF, 0xFFFFFFFF, 0xFFFFFFFF] else [0xDFFFFFFF, 0xFFF00FFF, 0x81FF8FFF]) ++
        ((ws.drop 4).take 4).map destMask ++ [0x8FFFFFFF])] ++ ruleChecks r ++
      [badAt (firstNew (fun a => a.headsWith (fun b e => decide (4 < b.chainLen 5 e))) h x).isSome 35,
       badAt (firstNew (fun a => a.headsWith Hw.formatBad) h x).isSome 18,
       badAt (firstNew (fun a => a.headsWith Hw.authBad) h x).isSome 8,
       badAt (rated && h.fld (Reg.TSS_WEIR_RATE (768 + handle)) Fld.TSS_WEIR_RATE_ACTION = 1) 13,
       badAt (firstNew Hw.guardsShort h x).isSome 16,
       noObj (upd && old.isNone) 16 (i / 256), noObj (bit (r.getD 7 0) 31 && (kvGet x.brg.rules next).isNone) 16 (next / 256),
       (bit w2 31 && !h.alive (bits w2 24 16), cNoObject, bits w2 24 16),
       (match dup with | some e => (true, cConflict, resWord 16 (e.1 / 256)) | none => (false, 0, 0)),
       conflict (rated && used) 2 handle, conflict mixed.isSome 12 (mixed.getD 0), loopCheck h x])
    (match place with
      | some p => .ok x [p]
      | none => h.refuse cRuleFull h.brg.rules.length)

/-- GWY_RULE_WRITE (R359). -/
def execGwyRuleWrite (owner slot : Nat) (s : State) : Res :=
  onHw s (fun h => h.gcsRun owner slot 0x0801 Hw.deadlocks (fun q => h.ruleAdd owner q.payload))

/-- GWY_RULE_READ: word 0 an index, or with bit 16 the key, as words 0 and 1 of the rule, in words 1 and 2. The answer is the index and
the eight words. -/
def execGwyRuleRead (owner slot : Nat) (s : State) : Res :=
  onHw s (fun h => h.gcsRun owner slot 0x0802 noDeadlock (fun q =>
    let i := q.w 0 % 65536
    let x := if bit (q.w 0) 16 then h.ruleAt (bits (q.w 2) 31 25) (bits (q.w 2) 24 23) (bit (q.w 1) 30) (q.w 1 % 2 ^ 29)
      else (kvGet h.brg.rules i).map (fun r => (i, r))
    let masks := [0x1FFFF, 0x5FFFFFFF, 0xFF800000]
    match x with
    | none => h.vet [if bit (q.w 0) 16 then (false, 0, 0) else h.denyRead owner 16 (i / 256), q.reserved masks]
        (h.refuse cNoObject (resWord 16 (if bit (q.w 0) 16 then 0 else i / 256)))
    | some (k, r) => h.vet [h.denyRead owner 16 (k / 256), q.reserved masks]
        (h.tell (k :: (if ruleChained r then 0 else r.getD 0 0) :: r.drop 1))))

/-- GWY_RULE_DEL: a rule by index. -/
def execGwyRuleDel (owner slot : Nat) (s : State) : Res :=
  onHw s (fun h => h.gcsRun owner slot 0x0803 noDeadlock (fun q =>
    let i := q.w 0
    let x := h.onBrg (fun b => { b with rules := kvDel b.rules i })
    h.vet [h.deny owner 16 (i / 256), q.reserved [0xFFFF], noObj (kvGet h.brg.rules i).isNone 16 (i / 256), loopCheck h x] (.ok x [])))

/-- GWY_RULE_BULK (R350): word 0 the number of rules, words 1 to 3 the host buffer, nine words for each rule. -/
def execGwyRuleBulk (owner slot : Nat) (s : State) : Res :=
  onHw s (fun h => h.gcsRun owner slot 0x0804 Hw.deadlocks (fun q =>
    let n := q.w 0
    let ws := q.bufWords (9 * n)
    noElements (h.vet [q.reserved [0x3FF], badAt (n = 0 || decide (512 < n)) 0, badAt (q.w 3 != 36 * n) 12]
      (partialAnswer (runElements Hw.deadlocks (fun a i (_ : Nat) =>
        match a.ruleAdd owner ((ws.drop (9 * i)).take 9) with
        | .ok x _ => (none, x)
        | .wait x => (none, x)
        | .no c d _ x => (some (c, if c = cBadParam then 36 * i + d else d), x)) (List.range n) 0 h)))))

/-! ### Sources, rewrites -/

/-- The resource of a source; sources from Ethernet are owner 1's. -/
def srcRes (s : Nat) : Nat × Nat := if s < 48 then (4, s) else if s < 64 then (5, s - 48) else (0, 0)

/-- GWY_SRC_SET (R248, R258, R259): word 1 the image of BRG_SRC_CFG, words 2 to 5 those of its mask sets. A source whose J1939 functions
go off keeps no claims. -/
def execGwySrcSet (owner slot : Nat) (s : State) : Res :=
  onHw s (fun h => h.gcsRun owner slot 0x0805 noDeadlock (fun q =>
    let k := q.w 0
    let x := h.images ((Reg.BRG_SRC_CFG k, 0xF0000000, q.w 1) ::
      (List.range 4).map (fun m => (Reg.BRG_SRC_MASK k m, 0x9FFFFFFF, q.w (2 + m))))
    let x := if bit (q.w 1) 29 then x
      else x.onBrg (fun b => { b with claims := b.claims.filter (fun (e : Nat × Nat × Nat) => e.1 / 256 != k) })
    h.vet [h.denyAny owner [srcRes k], q.reserved [127, 0xF0000000, 0x9FFFFFFF, 0x9FFFFFFF, 0x9FFFFFFF, 0x9FFFFFFF],
        badAt (decide (96 ≤ k)) 0, loopCheck h x]
      (.ok x [])))

/-- GWY_REWRITE_SET (R250): word 0 the first entry; the words that follow are entries, IDE in bit 30 and the identifier in 28:0. -/
def execGwyRewriteSet (owner slot : Nat) (s : State) : Res :=
  onHw s (fun h => h.gcsRun owner slot 0x0806 noDeadlock (fun q =>
    let ws := q.payload.drop 1
    let x := h.onBrg (fun b => { b with rewr := (ws.mapIdx (fun i w => (q.w 0 + i, w))).foldl (fun m e => kvPut m e.1 e.2) b.rewr })
    h.vet [only1 owner, q.reserved (0xFFF :: ws.map (fun _ => 0x5FFFFFFF)), badAt (decide (4096 < q.w 0 + ws.length)) 0,
        badAt (firstNew Hw.guardsShort h x).isSome 4, loopCheck h x]
      (.ok x [])))

/-! ### Signals -/

/-- A mapping of two payload words: the first holds VALID 31, source big-endian 30, destination big-endian 29, timeout enable 28,
timeout 27:24, buffer 8:0; the second LEN 31:25, source start 24:16, destination start 8:0. -/
def mapOf (a b now : Nat) : SigMap :=
  ⟨bits b 24 16, bits b 31 25, bit a 30, a % 512, b % 512, bit a 29, if bit a 28 then bits a 27 24 else 16, now, false⟩

/-- The destination bits of a mapping in its buffer. -/
def SigMap.dstBits (m : SigMap) : List Nat := sigBits m.dst m.len m.dstBe

/-- Two mappings write one bit. -/
def clash (a b : SigMap) : Bool := a.buf == b.buf && a.dstBits.any (fun p => b.dstBits.contains p)

/-- GWY_SIG_MAP_SET (R255, R257): word 0 the first mapping, then two words for each; one without VALID is removed. -/
def execGwySigMapSet (owner slot : Nat) (s : State) : Res :=
  onHw s (fun h => h.gcsRun owner slot 0x0807 noDeadlock (fun q =>
    let n := (q.payload.length - 1) / 2
    let ks := List.range n
    let a (i : Nat) : Nat := q.w (1 + 2 * i)
    let m (i : Nat) : SigMap := mapOf (a i) (q.w (2 + 2 * i)) h.clk
    let maps := ks.foldl (fun l i => if bit (a i) 31 then kvPut l (q.w 0 + i) (m i) else kvDel l (q.w 0 + i)) h.brg.maps
    let len (i : Nat) : Nat := match kvGet h.brg.bufs (m i).buf with | some b => b.len | none => 0
    h.vet ([only1 owner, q.reserved (0x1FFF :: ks.flatMap (fun _ => [0xFF0001FF, 0xFFFF01FF])),
        badAt (decide (8192 < q.w 0 + n)) 0, badAt (q.payload.length != 1 + 2 * n) 0] ++
        ks.map (fun i => badAt (bit (a i) 31 && ((m i).len = 0 || decide (64 < (m i).len))) (8 * i + 11)) ++
        ks.map (fun i => badAt (bit (a i) 31 && (m i).dstBits.any (fun p => decide (8 * len i ≤ p))) (8 * i + 8)) ++
        ks.map (fun i => (bit (a i) 31 && maps.any (fun e => e.1 != q.w 0 + i && clash e.2 (m i)), cConflict, 0)))
      (.ok (h.onBrg (fun b => { b with maps := maps })) [])))

/-- GWY_SIG_BUF_SET (R256): word 0 VALID (31) and the buffer; words 1 and 2 as words 0 and 1 of a message record; word 3 a destination as
in R250: 1 a CAN queue, 2 a LIN publish buffer, 3 a message buffer (5:0) of the controller in 27:22; word 4 SEND (17:16) and PERIOD_MS;
word 5 MIN_GAP_MS. -/
def execGwySigBufSet (owner slot : Nat) (s : State) : Res :=
  onHw s (fun h => h.gcsRun owner slot 0x0808 noDeadlock (fun q =>
    let i := q.w 0 % 512
    let valid := bit (q.w 0) 31
    let n := recLen [q.w 1]
    let d := q.w 3
    let t := bits d 31 28
    let send := bits (q.w 4) 17 16
    let data := match kvGet h.brg.bufs i with
      | some b => b.data.take n ++ List.replicate (n - b.data.length) 0
      | none => List.replicate n 0
    let new : AsmBuf := ⟨n, q.w 1, q.w 2, d, send, q.w 4 % 65536, q.w 5, data, h.clk, h.clk + q.w 4 % 65536 * 500000⟩
    let x := h.onBrg (fun b => { b with bufs := if valid then kvPut b.bufs i new else kvDel b.bufs i })
    let fixed := h.brg.maps.any (fun e => e.2.buf == i && e.2.dstBits.any (fun p => decide (8 * n ≤ p)))
    h.vet [only1 owner, q.reserved [0x800001FF, 0xF03E0FFF, 0xFFFFFFFF,
          [0, 0xFFF80000, 0xFF00003F, 0xFFC0003F].getD t 0, 0x3FFFF, 0xFFFF],
        badAt (valid && (n = 0 || decide (64 < n) || fixed || decide (2 < recKind [q.w 1]) || (recKind [q.w 1] = 0 && decide (8 < n)))) 4,
        badAt (valid && (t = 0 || decide (3 < t))) 15, badAt (valid && t != 2 && decide (48 ≤ bits d 27 22)) 14,
        badAt (valid && t = 2 && decide (8 < n)) 4, badAt (valid && decide (2 ≤ send) && q.w 4 % 65536 = 0) 16,
        badAt (firstNew Hw.guardsShort h x).isSome 4]
      (.ok x [])))

/-! ### Tunnels -/

/-- GWY_TUNNEL_SET (R262, R263): words 1 to 8 the images of the tunnel's registers; the last sequence number stays. -/
def execGwyTunnelSet (owner slot : Nat) (s : State) : Res :=
  onHw s (fun h => h.gcsRun owner slot 0x0809 Hw.deadlocks (fun q =>
    let t := q.w 0
    let c := q.w 1
    let en := getF c Fld.BRG_TUNNEL_CFG_EN == 1
    let max_ := getF c Fld.BRG_TUNNEL_CFG_MAX_BYTES
    h.vet [h.deny owner 12 t, q.reserved [31, 0xFFFFF7FF, 0xFFFFFFFF, 0xFFFFFFFF, 0xFFFF, 0xFFFFFFFF, 0xFFFF, 0xFFFFFFFF, 7],
        badAt (decide (max_ < 64) || decide ((if getF c Fld.BRG_TUNNEL_CFG_TSCF = 1 then 1476 else 1488) < max_)) 4,
        badAt (en && q.w 6 = 0) 24]
      (.ok (h.images [(Reg.BRG_TUNNEL_CFG t, 0xFFFFF7FF, c), (Reg.BRG_TUNNEL_SID_HI t, 0xFFFFFFFF, q.w 2),
        (Reg.BRG_TUNNEL_SID_LO t, 0xFFFFFFFF, q.w 3), (Reg.BRG_TUNNEL_DA_HI t, 0xFFFF, q.w 4), (Reg.BRG_TUNNEL_DA_LO t, 0xFFFFFFFF, q.w 5),
        (Reg.BRG_TUNNEL_TMO t, 0xFFFF, q.w 6), (Reg.BRG_TUNNEL_MTT t, 0xFFFFFFFF, q.w 7), (Reg.BRG_TUNNEL_TB t, 7, q.w 8)]) [])))

/-- GWY_RXTUNNEL_SET (R265): word 1 EN in bit 31, words 2 and 3 the stream_id, high word first. -/
def execGwyRxtunnelSet (owner slot : Nat) (s : State) : Res :=
  onHw s (fun h => h.gcsRun owner slot 0x080A noDeadlock (fun q =>
    let t := q.w 0
    h.vet [h.deny owner 12 (256 + t), q.reserved [31, 0x80000000]]
      (.ok (h.images [(Reg.BRG_RXTUN_CFG t, 0x80000000, q.w 1), (Reg.BRG_RXTUN_SID_HI t, 0xFFFFFFFF, q.w 2),
        (Reg.BRG_RXTUN_SID_LO t, 0xFFFFFFFF, q.w 3)]) [])))

/-! ### Authentication, J1939, enables -/

/-- GWY_AUTH_SET (R266, R268): word 1 RESYNC_N (31:24), strict (20), MAC_BYTES (16:12), FV_BYTES (11:8), AUTH_LEN (5:0). Key, L and F stay. -/
def execGwyAuthSet (owner slot : Nat) (s : State) : Res :=
  onHw s (fun h => h.gcsRun owner slot 0x080B noDeadlock (fun q =>
    let i := q.w 0
    let w := q.w 1
    let a : Auth := kvGetD h.brg.auth i ⟨none, 1, 0, 0, 0, true, 0, 0, false, 0, kvGetD h.sec.fresh i 0⟩
    let x := h.onBrg (fun b => { b with auth := kvPut b.auth i { a with
      len := bits w 5 0, fv := bits w 11 8, mac := bits w 16 12, strict := bit w 20, resync := bits w 31 24 } })
    h.vet [h.deny owner 17 i, q.reserved [4095, 0xFF11FF3F], badAt (decide (60 < bits w 5 0)) 4, badAt (decide (8 < bits w 11 8)) 5,
        badAt (decide (bits w 16 12 < 3) || decide (16 < bits w 16 12)) 5, badAt (bits w 31 24 = 0) 7,
        badAt (firstNew (fun b => b.headsWith Hw.authBad) h x).isSome 4]
      (.ok x [])))

/-- GWY_AUTH_FRESH_SET (R268): words 1 and 2 the receive freshness L; an entry that waited is in use again. -/
def execGwyAuthFreshSet (owner slot : Nat) (s : State) : Res :=
  onHw s (fun h => h.gcsRun owner slot 0x080C noDeadlock (fun q =>
    let i := q.w 0
    h.vet [h.deny owner 17 i, q.reserved [4095], noObj (kvGet h.brg.auth i).isNone 17 i]
      (.ok (h.onBrg (fun b => { b with auth := match kvGet b.auth i with
        | some a => kvPut b.auth i { a with l := q.w64 1, fails := 0, wait := false }
        | none => b.auth })) [])))

/-- GWY_J1939_READ (R258): word 0 the source (6:0) and the first address (15:8). The answer is the number of addresses held from there
on, then five words for each of the first five: address, NAME low word first, seconds and nanoseconds of the claim. -/
def execGwyJ1939Read (owner slot : Nat) (s : State) : Res :=
  onHw s (fun h => h.gcsRun owner slot 0x080D noDeadlock (fun q =>
    let k := q.w 0 % 128
    let l := h.brg.claims.filter (fun e => e.1 / 256 == k && decide (bits (q.w 0) 15 8 ≤ e.1 % 256))
    h.vet [(!h.mayRead owner (srcRes k).1 (srcRes k).2, cDenied, resWord (srcRes k).1 (srcRes k).2), q.reserved [0xFF7F],
        badAt (decide (96 ≤ k)) 0]
      (h.tell (l.length :: (l.take 5).flatMap (fun e => [e.1 % 256, e.2.1 % 2 ^ 32, e.2.1 / 2 ^ 32, e.2.2 / 1000000000 % 2 ^ 32,
        e.2.2 % 1000000000])))))

/-- GWY_ENABLE: word 0 the image of BRG_CFG. -/
def execGwyEnable (owner slot : Nat) (s : State) : Res :=
  onHw s (fun h => h.gcsRun owner slot 0x080E noDeadlock (fun q =>
    h.vet [only1 owner, q.reserved [3]] (.ok (h.cfg Reg.BRG_CFG 3 (q.w 0)) [])))

end Sys2Proof.Machine
end

