-- ==== Sys2Proof/Machine/Vie.lean ====
section
/-!
DEFINITION. The rows of the Video Integrity Engine and the Reservoir (R150 to R173).
-/
namespace Sys2Proof.Machine

/-- The first frame whose tail is in and that P28 still refers to. -/
def Hw.vieHead (h : Hw) : Option Frame :=
  h.swc.frames.find? (fun f => f.tail && f.looked && f.copies.any (fun c => c.egress == 28))

/-- P28 reads a packet of a watched stream (R65, R150): one with a bad tail is recorded and checked no further. -/
def Hw.observe (h : Hw) (v : Nat) (f : Frame) (behind : Bool) : Hw :=
  if h.vcfg v Fld.VIE_S_CFG_EN = 0 || !h.flag Reg.VIE_STATUS Fld.VIE_STATUS_READY then h
  else
    let b := h.readFrame f
    let h := if (kvGet h.vie.s v).isNone then h.vieEnable v else h
    if f.bad.isSome then h.recordPacket v f b behind
    else
      let r := h.viePacket v (kvGetD h.vie.s v VieS.init) f b behind
      (r.1.setVie v r.2).showVie v

/-- VIE_PACKET_OBSERVE (R47, R65, R150): the oldest packet at P28 is read, with the Basin errors met, and its reference released;
`behind` when the Reservoir's write path cannot take it. -/
def execViePacketObserve : Bool × Nat → State → Res
  | (behind, ecc), s => onHw s (fun h => match h.vieHead with
    | none => h
    | some f0 =>
      let h := (h.basinEcc f0.id ecc).discardBad f0.id
      match h.frame? f0.id with
      | none => h
      | some f =>
        let h := match f.vie with
          | some v => if h.keyless f then h else h.observe v f behind
          | none => h
        h.takeAt 28 f)

/-- The display copy of a closed frame is still on its way. -/
def Hw.awaitsDisplay (x : Hw) (s : Nat) (w : VieFrame) : Bool :=
  let h := x.asClosed w
  (h.checkEn s).testBit 5 && w.disp.isNone &&
    (match h.frame? w.by_ with
      | some f => f.copies.any (fun c => c.egress == h.vcfg s Fld.VIE_S_CFG_AGE_PORT)
      | none => false)

/-- VIE_VERDICT (R160): the oldest closed frame of a stream is judged, once its display time is known or will never be. -/
def execVieVerdict (stream : Nat) (s : State) : Res :=
  onHw s (fun h => match kvGet h.vie.s stream with
    | none => h
    | some v => match v.wait with
      | [] => h
      | w :: ws => if h.awaitsDisplay stream w then h else h.judge stream { v with wait := ws } w)

/-- VIE_MISSING_EXPIRE (R153): the watchdog expires, counts a missing frame and re-arms. -/
def execVieMissingExpire (stream : Nat) (s : State) : Res :=
  onHw s (fun h => match kvGet h.vie.s stream with
    | none => h
    | some v => match v.armed with
      | none => h
      | some (c, n) =>
        h.score h stream { v with missed := v.missed + 1, armed := some (c, n + 1) } 1 1 false
          (c + (n + 1) * h.rn (Reg.VIE_S_NOMINAL stream)))

/-- Streams named by the causes of a task run that are watched. -/
def Hw.causeStreams (h : Hw) (r : TaskRun) : List Nat :=
  (bitsOf 64 r.streams).filter (fun s => (kvGet h.vie.s s).isSome)

/-- VIE_NOTICE_TASK (R164, R169). -/
def execVieNoticeTask (s : State) : Res :=
  onHw s (fun h => h.serveTask 0 (fun h r => (h.causeStreams r).foldl (fun a x => a.noticeNow x (some r.at_)) h))

/-- VIE_FALLBACK_TASK (R164, R165). -/
def execVieFallbackTask (s : State) : Res :=
  onHw s (fun h => h.serveTask 1 (fun h r =>
    ((h.causeStreams r).foldl (fun a x =>
      let v := kvGetD a.vie.s x VieS.init
      let f := a.fld (Reg.VIE_S_FALLBACK x) Fld.VIE_S_FALLBACK_FB_STREAM
      if a.flag (Reg.VIE_S_FALLBACK x) Fld.VIE_S_FALLBACK_FB_EN && v.alarm != 0 && f != x
      then (a.setVie x { v with fbReq := some f }).lateBy r 500 else a) h).refreshFallbacks))

/-- VIE_FRER_TASK (R164, R166). -/
def execVieFrerTask (s : State) : Res :=
  onHw s (fun h => h.serveTask 2 (fun h r => (h.causeStreams r).foldl (fun a x =>
    if a.flag (Reg.VIE_S_FALLBACK x) Fld.VIE_S_FALLBACK_FRER_EN then (a.forceFrer x).lateBy r 500 else a) h))

/-- Records staged past the first `n` are timed from an earlier cycle. -/
def Hw.backdate (h : Hw) (n at_ : Nat) : Hw :=
  { h with evq := { h.evq with staging := h.evq.staging.take n ++ (h.evq.staging.drop n).map (fun r => { r with at_ := at_ }) } }

/-- VIE_HOST_TASK (R164): a VIE_ALARM record for each stream, timed from the alarm it tells of (R169). -/
def execVieHostTask (s : State) : Res :=
  onHw s (fun h => h.serveTask 3 (fun h r => (h.causeStreams r).foldl (fun a x =>
    let v := kvGetD a.vie.s x VieS.init
    (a.postG 3 x 0x0901 x (v.entering + v.alarm * 2 ^ 8) (a.rn (Reg.VIE_S_LAST_COUNTER x)) v.lastTs (v.tFail % 2 ^ 32)).backdate
      a.evq.staging.length r.at_) h))

/-- VIE_HEARTBEAT (R168): HEARTBEAT_MS have passed since the last notice of an enabled stream. -/
def execVieHeartbeat (stream : Nat) (s : State) : Res :=
  onHw s (fun h =>
    if h.fld Reg.VIE_NOTICE_CFG Fld.VIE_NOTICE_CFG_HEARTBEAT_MS = 0 then h else h.noticeNow stream)

/-- A trigger is logged in a ring, of which it keeps the first eight (R173). -/
def Hw.logTrigger (h : Hw) (r at_ cause : Nat) : Hw :=
  let x := kvGetD h.vie.ring r RsvRing.empty
  let trig := if x.trig.length < 8 then x.trig ++ [(at_, cause)] else x.trig
  (h.onRing r (fun x => { x with trig := trig, trigAt := some at_ })).setFld (Reg.RSV_RING_STATE r) Fld.RSV_RING_STATE_LOGGED trig.length

/-- A trigger reaches a ring (R173): those of one cycle act as one, each of them logged. -/
def Hw.triggerRing (h : Hw) (r at_ cause : Nat) : Hw :=
  let st := h.fld (Reg.RSV_RING_STATE r) Fld.RSV_RING_STATE_STATE
  let cfg := h.rn (Reg.RSV_RING_CFG r)
  let again := (kvGetD h.vie.ring r RsvRing.empty).trigAt == some at_
  let ends (h : Hw) : Hw := h.onRing r (fun x => { x with postEnd := h.clk + getF cfg Fld.RSV_RING_CFG_POST_MS * 500000 })
  match st with
  | 1 => (ends (h.setFld (Reg.RSV_RING_STATE r) Fld.RSV_RING_STATE_STATE 2)).logTrigger r at_ cause
  | 2 => (if getF cfg Fld.RSV_RING_CFG_EXTEND = 1 && !again then ends h else h).logTrigger r at_ cause
  | _ =>
    let h := if again then h else h.inc (Reg.RSV_TRIG_IGNORED r)
    h.onRing r (fun x => { x with trigAt := some at_ })

/-- RSV_TRIGGER_TASK (R173): trigger task 0 to 3 acts on the rings of its mask. -/
def execRsvTriggerTask (k : Nat) (s : State) : Res :=
  onHw s (fun h =>
    if 4 ≤ k then h
    else h.serveTask (4 + k) (fun h r => (bitsOf 16 (h.rn (Reg.RSV_TRIG_MASK k))).foldl (fun a x =>
      (a.triggerRing x r.at_ (maskOf r.cause)).lateBy r 1000) h))

/-- RSV_POST_EXPIRE (R173): POST_MS have passed; the ring freezes, without the frame that is still open. -/
def execRsvPostExpire (ring : Nat) (s : State) : Res :=
  onHw s (fun h =>
    if h.fld (Reg.RSV_RING_STATE ring) Fld.RSV_RING_STATE_STATE = 2 ∧ (kvGetD h.vie.ring ring RsvRing.empty).postEnd ≤ h.clk then
      let h := h.onRing ring (fun x => { x with cur := [], times := x.times.take (x.times.length - x.cur.length) })
      let n := (kvGetD h.vie.ring ring RsvRing.empty).trig.length
      (h.setFld (Reg.RSV_RING_STATE ring) Fld.RSV_RING_STATE_STATE 3).postG 11 ring 0x0904 ring n
    else h)

end Sys2Proof.Machine
end

