-- ==== Sys2Proof/Machine/GcsVid.lean ====
section
/-!
DEFINITION. The VID commands (R147 to R175, R353): streams, lattices, actions, notices, sync groups, Reservoir rings.
-/
namespace Sys2Proof.Machine

/-! ### Stream settings -/

/-- The lattice a configuration describes has a point in the counter bytes, beyond the frame, or too many points (R156). -/
def Hw.latticeBad (x : Hw) (s : Nat) : Bool :=
  let org := x.rn (Reg.VIE_S_LAT_ORG s)
  let stp := x.rn (Reg.VIE_S_LAT_STEP s)
  let cnt := x.rn (Reg.VIE_S_LAT_COUNT s)
  let px := x.rn (Reg.VIE_S_PIXEL s)
  let nx := getF cnt Fld.VIE_S_LAT_COUNT_NX
  let ny := getF cnt Fld.VIE_S_LAT_COUNT_NY
  let cvf := x.vcfg s Fld.VIE_S_CFG_FORMAT == 1
  let lo := x.fld (Reg.VIE_S_COUNTER s) Fld.VIE_S_COUNTER_COUNTER_OFFSET
  let hi := lo + x.cntWidth s / 8 - 1
  let bitsN := getF px Fld.VIE_S_PIXEL_PIX_BITS
  let nb := (bitsN + 7) / 8
  let x0 (i : Nat) : Nat := getF org Fld.VIE_S_LAT_ORG_X0 + i * getF stp Fld.VIE_S_LAT_STEP_DX
  let row (j : Nat) : Nat := (getF org Fld.VIE_S_LAT_ORG_Y0 + j * getF stp Fld.VIE_S_LAT_STEP_DY) * getF px Fld.VIE_S_PIXEL_LINE_BYTES
  let packed := getF px Fld.VIE_S_PIXEL_PACK == 1
  let first (j i : Nat) : Nat := if cvf then x0 i else row j + (if packed then x0 i * bitsN / 8 else x0 i * nb)
  let last (j i : Nat) : Nat := if cvf then x0 i + 1
    else row j + (if packed then (x0 i * bitsN + bitsN - 1) / 8 else x0 i * nb + nb - 1)
  let bad (j i : Nat) : Bool := (decide (first j i ≤ hi) && decide (lo ≤ last j i)) || (!cvf && decide (x.frameBytes s ≤ last j i))
  decide (4096 < nx * ny) || (cvf && decide (0 < nx) && ny != 1) ||
  (List.range ny).any (fun j => (List.range nx).any (bad j))

/-- PERIOD_NS of a pulse output once what waits for its next boundary is in force. -/
def Hw.pulsePer (h : Hw) (p : Nat) : Nat := match (h.pulse p).next with
  | some ws => ws.getD 3 0
  | none => h.rn (Reg.TIME_PULSE_PERIOD p)

/-- A stream of an enabled sync group does not go with the group's pulse (R170). -/
def Hw.syncBad (x : Hw) (s : Nat) : Bool :=
  let g := x.vcfg s Fld.VIE_S_CFG_SYNC
  let c := x.rn (Reg.VIE_SYNC_CFG g)
  x.vcfg s Fld.VIE_S_CFG_SYNC_EN == 1 && getF c Fld.VIE_SYNC_CFG_EN == 1 &&
    (x.vcfg s Fld.VIE_S_CFG_TB != getF c Fld.VIE_SYNC_CFG_TB ||
      x.rn (Reg.VIE_S_NOMINAL s) != x.pulsePer (getF c Fld.VIE_SYNC_CFG_PULSE))

/-- The settings a stream will have once every waiting change is in force. -/
def Hw.settled (h : Hw) (s : Nat) : Hw := match kvGet h.vie.s s with
  | some v => (v.pend.getD []).foldl (fun a w => a.wn w.1 w.2) h
  | none => h

/-- Write settings of a stream: at once, or at the next frame open of a watched stream (R162). Words are merged into what will be
in force. -/
def Hw.setStream (h : Hw) (s : Nat) (l : List (Nat × Nat × Nat)) : Hw :=
  let x := h.settled s
  let ws := l.map (fun e => (e.1, (x.image e.1 e.2.1 e.2.2).rn e.1))
  match kvGet h.vie.s s with
  | some v => if h.answers (Reg.VIE_S_CFG s) then h.setVie s { v with pend := some (v.pend.getD [] ++ ws) } else h
  | none => h.images l

/-- Settings of a stream are judged as if in force, bounds included, then written. -/
def Hw.streamChange (h : Hw) (s : Nat) (l : List (Nat × Nat × Nat)) (checks : Hw → List Check) : Gcs :=
  let x := l.foldl (fun a e => a.image e.1 e.2.1 e.2.2) (h.settled s)
  h.vet (checks x) (match Hw.judgeNew h x noDeadlock with
    | some (c, d) => .no c d [] (h.inc Reg.TSS_BOUND_REFUSED)
    | none => .ok (h.setStream s l) [])

/-- VID_STREAM_SET (R149 to R156, R170): word 0 the stream, words 1 to 8 the images of VIE_S_CFG (without EN and CHECK_EN), _NOMINAL,
_TIMING, _FRAME, _PIXEL, _COUNTER, _AGE_MAX and _TS_OFFSET. -/
def execVidStreamSet (owner slot : Nat) (s : State) : Res :=
  onHw s (fun h => h.gcsRun owner slot 0x0601 noDeadlock (fun q =>
    let v := q.w 0
    let c := q.w 1
    let crc := getF c Fld.VIE_S_CFG_CRC_MODE
    let pix := getF (q.w 5) Fld.VIE_S_PIXEL_PIX_BITS
    h.streamChange v [(Reg.VIE_S_CFG v, 0x7FFF8000, c), (Reg.VIE_S_NOMINAL v, 0xFFFFFFFF, q.w 2), (Reg.VIE_S_TIMING v, 0xFFFFFFFF, q.w 3),
        (Reg.VIE_S_FRAME v, 0xFFFFFF00, q.w 4), (Reg.VIE_S_PIXEL v, 0xFFFF011F, q.w 5), (Reg.VIE_S_COUNTER v, 0xFF030FFF, q.w 6),
        (Reg.VIE_S_AGE_MAX v, 0xFFFFFFFF, q.w 7), (Reg.VIE_S_TS_OFFSET v, 0xFFFFFFFF, q.w 8)] (fun x =>
      [h.denyAny owner ((3, v) :: (if getF c Fld.VIE_S_CFG_SYNC_EN = 1 then [(14, getF c Fld.VIE_S_CFG_SYNC)] else [])),
        q.reserved [63, 0xFFFFFF00, 0xFFFFFFFF, 0xFFFFFFFF, 0xFFFFFF00, 0xFFFF011F, 0xFF030FFF],
        badAt (crc = 1 || crc = 3 || decide (23 < getF c Fld.VIE_S_CFG_AGE_PORT)) 6, badAt (x.syncBad v) 8,
        badAt (decide (q.w 2 < getF (q.w 3) Fld.VIE_S_TIMING_SLACK_US * 1000)) 14,
        badAt (getF c Fld.VIE_S_CFG_FORMAT = 0 && (decide (pix < 8) || decide (16 < pix))) 20, badAt (x.latticeBad v) 24])))

/-- VID_STREAM_ENABLE (R157, R162): word 1 CHECK_EN in bits 14:8. -/
def execVidStreamEnable (owner slot : Nat) (s : State) : Res :=
  onHw s (fun h => h.gcsRun owner slot 0x0602 noDeadlock (fun q =>
    let v := q.w 0
    let c := bits (q.w 1) 14 8
    h.vet [h.deny owner 3 v, q.reserved [63, 0x7F00], badAt (c.testBit 4 && !c.testBit 3) 5,
        badState (h.vcfg v Fld.VIE_S_CFG_EN = 1) 3 v]
      (.ok (
        let x := h.cfg (Reg.VIE_S_CFG v) 0x80007F00 (2 ^ 31 + q.w 1)
        if x.answers (Reg.VIE_S_CFG v) then x.vieEnable v else x) [])))

/-- VID_STREAM_DISABLE (R162). -/
def execVidStreamDisable (owner slot : Nat) (s : State) : Res :=
  onHw s (fun h => h.gcsRun owner slot 0x0603 noDeadlock (fun q =>
    let v := q.w 0
    h.vet [h.deny owner 3 v, q.reserved [63]]
      (.ok (if h.vcfg v Fld.VIE_S_CFG_EN = 1 then
          let x := (((kvGet h.vie.s v).bind (·.pend)).getD []).foldl (fun (a : Hw) w => a.wn w.1 w.2) h
          (x.vieDisable v).setFld (Reg.VIE_S_CFG v) Fld.VIE_S_CFG_EN 0
        else h) [])))

/-- VID_LATTICE_SET (R156): words 1 to 3 the images of VIE_S_LAT_ORG, _STEP and _COUNT. -/
def execVidLatticeSet (owner slot : Nat) (s : State) : Res :=
  onHw s (fun h => h.gcsRun owner slot 0x0604 noDeadlock (fun q =>
    let v := q.w 0
    h.streamChange v [(Reg.VIE_S_LAT_ORG v, 0xFFFFFFFF, q.w 1), (Reg.VIE_S_LAT_STEP v, 0xFFFFFFFF, q.w 2),
        (Reg.VIE_S_LAT_COUNT v, 0x1FFF1FFF, q.w 3)] (fun x =>
      [h.deny owner 3 v, q.reserved [63, 0xFFFFFFFF, 0xFFFFFFFF, 0x1FFF1FFF], badAt (x.latticeBad v) 12])))

/-- VID_ACTION_SET (R160 to R166): words 1 to 4 the images of VIE_S_THRESH, _ACT, _HYST and _FALLBACK. -/
def execVidActionSet (owner slot : Nat) (s : State) : Res :=
  onHw s (fun h => h.gcsRun owner slot 0x0605 noDeadlock (fun q =>
    let v := q.w 0
    let f := q.w 4
    let fb := getF f Fld.VIE_S_FALLBACK_FB_STREAM
    let fbEn := getF f Fld.VIE_S_FALLBACK_FB_EN == 1
    let frEn := getF f Fld.VIE_S_FALLBACK_FRER_EN == 1
    h.streamChange v [(Reg.VIE_S_THRESH v, 0x0FFFFFFF, q.w 1), (Reg.VIE_S_ACT v, 0x0FFFFFFF, q.w 2), (Reg.VIE_S_HYST v, 0xFFFFFF0F, q.w 3),
        (Reg.VIE_S_FALLBACK v, 0xBFF0003F, f)] (fun _ =>
      [h.denyAny owner ((3, v) :: (if fbEn then [(3, fb)] else []) ++ (if frEn then [(19, getF f Fld.VIE_S_FALLBACK_FRER_PAIR)] else [])),
        q.reserved [63, 0x0FFFFFFF, 0x0FFFFFFF, 0xFFFFFF0F, 0xBFF0003F], badAt (getF (q.w 3) Fld.VIE_S_HYST_CLEAR_N = 0) 13,
        badAt (frEn && getF f Fld.VIE_S_FALLBACK_FRER_FORCE = 3) 18, badAt (fbEn && fb = v) 19])))

/-! ### Notices (R167, R168) -/

/-- The ports a notice goes to: its forwarding entry's, else its VLAN's. -/
def Hw.noticePorts (h : Hw) (key : Nat) : Nat := match h.emAt 0 key with
  | some e => match e.2.group with
    | some g => h.groupMask g
    | none => 2 ^ e.2.port
  | none => match kvGet h.fwd.vlan (key / 2 ^ 48 % 4096) with
    | some v => v.member &&& (0xFFFFFFFF - 2 ^ 28)
    | none => 0

/-- The lowest stream handle nothing names (DESIGN CHOICE, log entry 29). -/
def Hw.freeHandle (h : Hw) : Nat :=
  ((List.range 4096).find? (fun s => !h.fwd.em.any (fun e => e.2.isStream && e.2.stream == s) && (kvGet h.tss.admitted s).isNone)).getD 4095

/-- The stream entry of a notice destination, class 7, with a declared bound of 150 µs, whatever was declared for it before; none when the table has no room. -/
def Hw.noticeEntry (h : Hw) (key : Nat) : Option Hw :=
  let e : EmEntry := match h.emAt 1 key with
    | some x => { x.2 with cls := some 7 }
    | none => ⟨true, 1, key, h.ageNow, 0, none, h.freeHandle, none, none, some 7, none⟩
  match h.emPut e with
  | (none, _) => none
  | (some _, x) =>
    let a : Admitted := ⟨150000, 28, 7, 66, h.noticePorts key, none⟩
    some ((x.onTss (fun t => { t with admitted := kvPut t.admitted e.stream a })).wn (Reg.TSS_STREAM_DECLARED e.stream) 150000)

/-- VID_NOTICE_SET: words 1 and 2 the images of VIE_S_NOTICE and VIE_S_NOTICE_DA, word 3 that of VIE_NOTICE_CFG, which is owner 1's. -/
def execVidNoticeSet (owner slot : Nat) (s : State) : Res :=
  onHw s (fun h => h.gcsRun owner slot 0x0606 noDeadlock (fun q =>
    let v := q.w 0
    let n := q.w 1
    let all := q.payload.length = 4
    let cfg := if all then q.w 3 else h.rn Reg.VIE_NOTICE_CFG
    let key := getF n Fld.VIE_S_NOTICE_NOTICE_VID * 2 ^ 48 + getF n Fld.VIE_S_NOTICE_NOTICE_DA_HI * 2 ^ 32 + q.w 2
    let x := h.setStream v [(Reg.VIE_S_NOTICE v, 0x8FFFFFFF, n), (Reg.VIE_S_NOTICE_DA v, 0xFFFFFFFF, q.w 2)]
    let x := if all then x.images [(Reg.VIE_NOTICE_CFG, 0x03FF00FF, cfg)] else x
    h.vet [h.deny owner 3 v, (cfg != h.rn Reg.VIE_NOTICE_CFG && owner != 1, cDenied, 0), q.reserved [63, 0x8FFFFFFF, 0xFFFFFFFF, 0x03FF00FF],
        badAt (decide (1000 < getF cfg Fld.VIE_NOTICE_CFG_HEARTBEAT_MS)) 14,
        badAt (bit n 31 && getF cfg Fld.VIE_NOTICE_CFG_SUBTYPE = 0) 12]
      (if bit n 31 then (match x.noticeEntry key with
          | some y => .ok y []
          | none => h.refuse cTableFull 0)
        else .ok x [])))

/-! ### Sync groups (R170) -/

/-- VID_SYNC_SET: word 0 the group, word 1 the image of VIE_SYNC_CFG, word 2 PHASE_NS. The pulse is as wide as its register says; a
width that does not go with the period is a free value. -/
def execVidSyncSet (owner slot : Nat) (s : State) : Res :=
  onHw s (fun h => h.gcsRun owner slot 0x0607 noDeadlock (fun q =>
    let g := q.w 0
    let c := q.w 1
    let en := getF c Fld.VIE_SYNC_CFG_EN == 1
    let p := getF c Fld.VIE_SYNC_CFG_PULSE
    let tb := getF c Fld.VIE_SYNC_CFG_TB
    let old := h.rn (Reg.VIE_SYNC_CFG g)
    let oldP := getF old Fld.VIE_SYNC_CFG_PULSE
    let ms := (List.range 64).filter (fun v => (h.settled v).vcfg v Fld.VIE_S_CFG_SYNC_EN == 1 && (h.settled v).vcfg v Fld.VIE_S_CFG_SYNC == g)
    let per := match ms with
      | v :: _ => (h.settled v).rn (Reg.VIE_S_NOMINAL v)
      | [] => h.rn (Reg.TIME_PULSE_PERIOD p)
    let other := (List.range 8).find? (fun k => k != g && h.flag (Reg.VIE_SYNC_CFG k) Fld.VIE_SYNC_CFG_EN &&
      h.fld (Reg.VIE_SYNC_CFG k) Fld.VIE_SYNC_CFG_PULSE == p)
    let w := h.rn (Reg.TIME_PULSE_WIDTH p)
    let wOk := 8 ≤ w && w + 8 ≤ per
    let width := if wOk then w else 8 + h.draw % (per - 15)
    h.vet [h.deny owner 14 g, q.reserved [7, 0xFE0FFFFF], badAt (en && ms.any (fun v => (h.settled v).vcfg v Fld.VIE_S_CFG_TB != tb)) 7,
        badAt (en && (ms.any (fun v => (h.settled v).rn (Reg.VIE_S_NOMINAL v) != per) || decide (per < 1000) || decide (4000000000 < per))) 4,
        conflict (en && other.isSome) 14 (other.getD 0)]
      (.ok (
        let x := h.images [(Reg.VIE_SYNC_CFG g, 0xFE0FFFFF, c), (Reg.VIE_SYNC_PHASE g, 0xFFFFFFFF, q.w 2)]
        let off (a : Hw) (n : Nat) : Hw := a.pulseSet n [0, a.rn (Reg.TIME_PULSE_START_S n), a.rn (Reg.TIME_PULSE_START_NS n),
          a.rn (Reg.TIME_PULSE_PERIOD n), a.rn (Reg.TIME_PULSE_WIDTH n)]
        let x := if getF old Fld.VIE_SYNC_CFG_EN = 1 && (!en || oldP != p) then off x oldP else x
        if en then
          let pol := if h.flag (Reg.TIME_PULSE_CFG p) Fld.TIME_PULSE_CFG_POL then 2 ^ 29 else 0
          (if wOk then x else x.drawn).pulseSet p [2 ^ 31 + 2 ^ 30 + pol + 2 ^ 28 + tb * 2 ^ 25, q.w 2 / 1000000000, q.w 2 % 1000000000, per, width]
        else x) [])))

/-- VID_STATE_READ: VIE_S_STATE, counter, signature, CRC and age of the last complete frame. -/
def execVidStateRead (owner slot : Nat) (s : State) : Res :=
  onHw s (fun h => h.gcsRun owner slot 0x0608 noDeadlock (fun q =>
    let v := q.w 0
    h.vet [h.denyRead owner 3 v, q.reserved [63]]
      (h.tell [h.rn (Reg.VIE_S_STATE v), h.rn (Reg.VIE_S_LAST_COUNTER v), h.rn (Reg.VIE_S_LAST_SIG_LO v), h.rn (Reg.VIE_S_LAST_SIG_HI v),
        h.rn (Reg.VIE_S_LAST_CRC v), h.rn (Reg.VIE_S_LAST_AGE v)])))

/-! ### The Reservoir (R171 to R174) -/

/-- Two ranges overlap. -/
def overlaps (a n b m : Nat) : Bool := decide (a < b + m) && decide (b < a + n)

/-- VID_RING_SET: word 1 the image of RSV_RING_CFG, words 2 and 3 BASE_MIB and SIZE_MIB, word 4 the trigger tasks that act on the ring. -/
def execVidRingSet (owner slot : Nat) (s : State) : Res :=
  onHw s (fun h => h.gcsRun owner slot 0x0609 noDeadlock (fun q =>
    let r := q.w 0
    let c := q.w 1
    let en := getF c Fld.RSV_RING_CFG_EN == 1
    let was := h.flag (Reg.RSV_RING_CFG r) Fld.RSV_RING_CFG_EN
    let v := getF c Fld.RSV_RING_CFG_STREAM
    let b := q.w 2
    let n := q.w 3
    let on (k : Nat) : Bool := k != r && h.flag (Reg.RSV_RING_CFG k) Fld.RSV_RING_CFG_EN
    let moved := h.fld (Reg.RSV_RING_CFG r) Fld.RSV_RING_CFG_STREAM != v || h.rn (Reg.RSV_RING_BASE r) != b || h.rn (Reg.RSV_RING_SIZE r) != n
    let other := (List.range 16).find? (fun k => on k && (h.fld (Reg.RSV_RING_CFG k) Fld.RSV_RING_CFG_STREAM == v ||
      overlaps b n (h.rn (Reg.RSV_RING_BASE k)) (h.rn (Reg.RSV_RING_SIZE k))))
    let region (i : Nat) : Bool := h.flag (Reg.MEM_LPDDR_REGION i) Fld.MEM_LPDDR_REGION_EN
    let base (i : Nat) : Nat := h.fld (Reg.MEM_LPDDR_REGION i) Fld.MEM_LPDDR_REGION_BASE_MIB
    let size (i : Nat) : Nat := h.rn (Reg.MEM_LPDDR_SIZE i)
    let isRsv (i : Nat) : Bool := h.fld (Reg.MEM_LPDDR_REGION i) Fld.MEM_LPDDR_REGION_TYPE == 3
    let foreign := (List.range 32).any (fun i => region i && !isRsv i && overlaps b n (base i) (size i))
    let inside := (List.range 32).any (fun i => region i && isRsv i && decide (base i ≤ b) && decide (b + n ≤ base i + size i))
    h.vet [h.deny owner 11 r, h.denyRead owner 3 v, q.reserved [15, 0xFF00FFFF, 0x1FFF, 0x1FFF, 15],
        badAt (decide (60000 < getF c Fld.RSV_RING_CFG_POST_MS)) 4, badAt (en && n = 0) 12,
        noObj (en && !inside && !foreign) 11 r, badState (en && was && moved) 11 r, (en && foreign, cConflict, 0),
        conflict (en && other.isSome) 11 (other.getD 0)]
      (.ok (
        let x := h.images ([(Reg.RSV_RING_CFG r, 0xFF00FFFF, c), (Reg.RSV_RING_BASE r, 0x1FFF, b), (Reg.RSV_RING_SIZE r, 0x1FFF, n)] ++
          (List.range 4).map (fun k => (Reg.RSV_TRIG_MASK k, 2 ^ r, if bit (q.w 4) k then 2 ^ r else 0)))
        if en && was then x
        else (((x.onVie (fun w => { w with ring := kvDel w.ring r })).wn (Reg.RSV_RING_FILL r) 0).wn (Reg.RSV_RING_STATE r) en.toNat)) [])))

/-- VID_RING_RELEASE: a FROZEN ring records again (R173). -/
def execVidRingRelease (owner slot : Nat) (s : State) : Res :=
  onHw s (fun h => h.gcsRun owner slot 0x060A noDeadlock (fun q =>
    let r := q.w 0
    h.vet [h.deny owner 11 r, q.reserved [15], badState (h.fld (Reg.RSV_RING_STATE r) Fld.RSV_RING_STATE_STATE != 3) 11 r]
      (.ok ((h.onRing r (fun x => { x with trig := [], trigAt := none, postEnd := 0 })).wn (Reg.RSV_RING_STATE r) 1) [])))

/-- Bytes cut into pieces of given lengths. -/
def cutBy : List Nat → List Byte → List (List Byte)
  | [], _ => []
  | n :: ns, l => l.take n :: cutBy ns (l.drop n)

/-- The packets and frame records of a ring, decrypted, while the key they are sealed under exists and the memory is ready (R174). -/
def Hw.ringData (h : Hw) (r : Nat) : Option (List (List Byte)) :=
  match kvGet h.vie.ring r with
  | none => none
  | some x =>
    match x.sealKey with
    | none => none
    | some mo =>
      if some mo == kvGet h.sec.mo (h.svcOwner 28) && h.lpddrReady then
        some (x.frames.flatMap (fun f => cutBy f.sizes (lineCrypt false mo (h.ringBase r) (h.ringSize r) f.addr f.data)))
      else none

/-- VID_RING_READ: word 1 the host DMA queue, one of the issuer's own; every stored packet and frame record becomes one item of KIND 5.
The answer is their number. -/
def execVidRingRead (owner slot : Nat) (s : State) : Res :=
  onHw s (fun h => h.gcsRun owner slot 0x060B noDeadlock (fun q =>
    let r := q.w 0
    let dst := q.w 1
    let own := 8208 ≤ dst && dst < 10256 && (dst - 8192) / 8 == owner
    h.vet [h.denyRead owner 11 r, (!own, cDenied, resWord 11 r), q.reserved [15, 0x3FFF], noObj (kvGet h.vie.ring r).isNone 11 r]
      (match h.ringData r with
        | none => h.refuse cState (resWord 11 r)
        | some l => .ok ((h.onRingAt (dst - 8208) (fun x => { x with pend := x.pend ++ l.map (fun b => ⟨none, 5, b, h.clk⟩) })).showRing (dst - 8208))
            [l.length])))

/-- VID_RING_EXPORT (R370, R373): words 1 to 3 a host buffer. It receives a 12-byte IV, the recording encrypted with GCM-AES-256 under
the export key, and the tag over it and payload word 0 (DESIGN CHOICE, log entry 30). The answer is the number of words there are. -/
def execVidRingExport (owner slot : Nat) (s : State) : Res :=
  onHw s (fun h => h.gcsRun owner slot 0x060C noDeadlock (fun q =>
    let r := q.w 0
    h.vet [h.denyRead owner 11 r, q.reserved [15], noObj (kvGet h.vie.ring r).isNone 11 r]
      (match h.transportKey s.fuse owner, h.ringData r with
        | none, _ => h.refuse cNoObject (resWord 11 r)
        | _, none => h.refuse cState (resWord 11 r)
        | some kt, some l =>
          let k := kdfKey kt lbXprt (toBe 1 r)
          let iv := toBe 12 h.draw
          let ct := gcmXor k iv l.flatten
          let out := iv ++ ct ++ toBe 16 (gcmTag k iv (toLe 4 r) ct).toNat
          h.drawn.answerBuffer owner (q.w64 1) (q.w 3) (wordsOf ((out.length + 3) / 4) out))))

/-- VID_TRIGGER: word 0 the Reservoir trigger task; every ring it acts on is named. -/
def execVidTrigger (owner slot : Nat) (s : State) : Res :=
  onHw s (fun h => h.gcsRun owner slot 0x060D noDeadlock (fun q =>
    let k := q.w 0
    h.vet [h.denyAny owner ((bitsOf 16 (h.rn (Reg.RSV_TRIG_MASK k))).map (fun r => (11, r))), badAt (decide (4 ≤ k)) 0]
      (.ok (h.runTask (4 + k) []) [])))

end Sys2Proof.Machine
end

