-- ==== Sys2Proof/Machine/BootOps.lean ====
section
/-!
DEFINITION. What start-up and the tamper response share: keys of a boot, the Early Set, the Safe Set, image pairs (R338 to R341, R376
to R379, R456).
-/
namespace Sys2Proof.Machine

/-- Draw the boot nonce and derive DSESS, the masters and Basin keys of the active owners, and the hash seeds of the tables (R44, R87,
R370). -/
def Hw.bootKeys (h : Hw) (fu : Fuse) : Hw :=
  let nonce := h.draw
  let h := h.drawn.onSec (fun s => { s with nonce := nonce, dsess := some (kdfKey fu.root lbSess (toBe 16 nonce)) })
  let h := ([0, 1] ++ h.own.active.filter (fun o => decide (2 ≤ o))).foldl (fun a o => Hw.makeKeys a o) h
  let h := (h.wn Reg.FWD_HASH_SEED0 (h.draw % 2 ^ 32)).wn Reg.FWD_HASH_SEED1 (h.draw / 2 ^ 32 % 2 ^ 32)
  let pub := (pubP384 (identityKey fu)).toNat
  (List.range 24).foldl (fun a i => a.wn (Reg.SEC_DEVID_PUB i) (pub / 2 ^ (32 * (23 - i)) % 2 ^ 32)) h.drawn

/-- Bytes of firmware SRAM in good banks that retention does not hold (R410, R441). -/
def Hw.goodBanks (h : Hw) : List Nat :=
  (List.range 32).filter (fun b => !(h.rn Reg.MEM_FW_FAILED).testBit b && !h.mem.kept.contains b)

/-- A copy can be placed in firmware SRAM (R410). -/
def Hw.placeable (h : Hw) (c : ImageCopy) : Bool := decide (c.bytes.length ≤ h.goodBanks.length * bankBytes)

/-- A write of a register by firmware or the boot ROM: its configuration fields take the value, but for those that R13 has sealed;
the others keep theirs (R8, R10, R481). -/
def Hw.fwWrite (h : Hw) (r v : Nat) : Hw :=
  match findReg r with
  | none => h
  | some d => h.image r (if h.sys.isSealed then d.cfg &&& (0xFFFFFFFF ^^^ d.rwl) else d.cfg) v

/-- Write a setting of the Early Set; parts for domains that are off are skipped (R456). A GPIO line that it makes an output is
driven. -/
def Hw.earlyReg (h : Hw) (r v : Nat) : Hw :=
  if !h.answers r then h
  else
    let h := h.fwWrite r v
    match (List.range 48).find? (fun n => Reg.SBB_GPIO_CFG n == r) with
    | some n => if 1 ≤ v / 2 ^ 30 then h.emit (.pin (.gpio n) (h.gpioPin n)) else h
    | none => h

/-- Write an exact-match entry of the Early Set; one that finds no room is counted and reported (R93). -/
def Hw.earlyEntry (h : Hw) (ws : List Nat) : Hw :=
  let e := emOfPayload h.ageNow ws
  match h.emPut e with
  | (some _, x) => x
  | (none, x) => x.insertFailed e

/-- Apply a verified Early Set: registers, exact-match entries, static routes, transport public keys, the VIE streams it enables; then
the function EARLY is ready (R176, R373, R454, R456). -/
def Hw.applyEarly (h : Hw) (e : EarlySet) : Hw :=
  let h := e.regs.foldl (fun a p => a.earlyReg p.1 p.2) h
  let h := if h.fwdReady then e.em.foldl Hw.earlyEntry h else h
  let h := if h.pg 37 then
      (e.rules.mapIdx (fun i r => (i, r))).foldl (fun (a : Hw) p => a.onBrg (fun b => { b with rules := kvPut b.rules p.1 p.2 })) h
    else h
  let h := if h.pg 44 then
      ((List.range 64).filter (fun s => h.flag (Reg.VIE_S_CFG s) Fld.VIE_S_CFG_EN)).foldl Hw.vieEnable h
    else h
  let h := h.onSec (fun s => { s with pubs := e.pubs.foldl (fun (m : Kv (List Byte)) p =>
    if 2 ≤ p.1 ∧ p.1 ≤ 257 then kvPut m p.1 (p.2.take 96) else m) s.pubs })
  { h with sys := { h.sys with early := some e } }

/-- EARLY reports ready; only the mirrors show it. -/
def Hw.earlyReady (h : Hw) : Hw := if h.fld Reg.PWR_READY ⟨0, 0⟩ = 1 then h else ((h.mirror 0 1).fire [192]).readyRecord

/-- The Safe Set is entered (R340, R341): the recovery service serves owner 2, neither image runs. -/
def Hw.safeSet (h : Hw) (cause : Nat) : Hw :=
  let h := h.clrReady Reg.MBX_STATUS Fld.MBX_STATUS_READY 13
  let h := h.setFld Reg.MBX_STATUS Fld.MBX_STATUS_SAFE_SET 1
  let b := Reg.MBX_BOOT_REPORT
  let h := ((h.setFld b Fld.MBX_BOOT_REPORT_SAFE_SET 1).setFld b Fld.MBX_BOOT_REPORT_SAFE_CAUSE cause).setFld b Fld.MBX_BOOT_REPORT_PAIR 7
  let h := ((h.wn Reg.MBX_C_VERSION 0).wn Reg.MBX_S_VERSION 0).wn Reg.MBX_EPOCHS 0
  let h := { h with sys := { h.sys with imgC := none, imgS := none } }.tearDue
  let h := if h.own.active.contains 2 ∧ (kvGet h.own.tear 2).isNone then
      (h.setFld (Reg.MBX_OWNER_STATUS 2) Fld.MBX_OWNER_STATUS_READY 1).setFld (Reg.MBX_OWNER_STATUS 2) Fld.MBX_OWNER_STATUS_SAFE_SET 1
    else h
  h.settle

/-! ### Image pairs (R338, R339) -/

/-- A copy that is present, can be placed and is verified. -/
def Hw.copyOk (h : Hw) (fu : Fuse) (type : Nat) (c : Option ImageCopy) : Option ImageCopy :=
  match c with
  | some x => if fu.verified type x && (type != 2 || h.placeable x) then some x else none
  | none => none

/-- The cause of a pair: 0 when it passes (R339). -/
def pairCause (stepping : Nat) (c s : Option ImageCopy) : Nat :=
  match c, s with
  | none, _ => 1
  | _, none => 2
  | some c, some s =>
    if !c.steppings.contains stepping then 3
    else if !s.steppings.contains stepping then 4
    else if !c.peers.contains s.epoch then 5
    else if !s.peers.contains c.epoch then 6
    else 0

/-- Try the pairs in order: the pair that boots (7 none) and the four causes, 0xF for a pair not tried. -/
def pairTrial (stepping : Nat) (c0 c1 s0 s1 : Option ImageCopy) : Nat × Nat :=
  let f (k : Nat) : Nat := pairCause stepping (if k < 2 then c0 else c1) (if k % 2 = 0 then s0 else s1)
  match (List.range 4).find? (fun k => f k == 0) with
  | some k => (k, ((List.range 4).map (fun j => (if j ≤ k then f j else 15) * 16 ^ j)).sum)
  | none => (7, ((List.range 4).map (fun j => f j * 16 ^ j)).sum)

/-- Step 5 of R376: a pair is started, or the Safe Set entered. Where the C-image and the journal lie is a free value among the good
banks. -/
def Hw.bootPair (h : Hw) (fu : Fuse) (copies : List (Option ImageCopy)) : Hw :=
  let c (i : Nat) : Option ImageCopy := h.copyOk fu 2 (copies.getD i none)
  let s (i : Nat) : Option ImageCopy := h.copyOk fu 1 (copies.getD (2 + i) none)
  let t := pairTrial (h.rn Reg.GLB_ID % 256) (c 0) (c 1) (s 0) (s 1)
  let b := Reg.MBX_BOOT_REPORT
  let h := (h.setFld b Fld.MBX_BOOT_REPORT_PAIR t.1).setFld b Fld.MBX_BOOT_REPORT_CAUSES t.2
  if t.1 = 7 then h.safeSet 1
  else
    let used := maskOf (h.goodBanks.filter (fun i => h.draw.testBit i))
    (h.drawn.onMem (fun m => { m with used := used })).settle |> fun x =>
      { x with sys := { x.sys with imgC := c (t.1 / 2), imgS := s (t.1 % 2), pair := t.1 } }

/-! ### Tamper (R392, R393) -/

/-- The tamper sources that are enabled: all from PROVISIONED on, else by SEC_TAMPER_CFG (R392). -/
def Hw.tamperOn (h : Hw) (fu : Fuse) (src : Nat) : Nat :=
  if fu.life = 2 ∨ fu.life = 3 ∨ fu.life = 5 then src % 32 else (src &&& h.rn Reg.SEC_TAMPER_CFG) % 32

/-- Sources are recorded in SEC_TAMPER_LOG. -/
def Hw.tamperLog (h : Hw) (src : Nat) : Hw := h.wn Reg.SEC_TAMPER_LOG (h.rn Reg.SEC_TAMPER_LOG ||| src)

/-- A response begins (R393 at t0): the latch closes, admission into the Basin stops, the response is counted and reported. -/
def Hw.tamperBegin (h : Hw) (src : Nat) : Hw :=
  let h := h.tamperLog src
  let h := h.wn Reg.SEC_TAMPER_LOG (h.rn Reg.SEC_TAMPER_LOG % 2 ^ 16 + (h.rn Reg.SEC_TAMPER_LOG / 2 ^ 16 + 1) % 2 ^ 16 * 2 ^ 16)
  let h := (h.setFld Reg.SEC_STATUS Fld.SEC_STATUS_TAMPERED 1).onSec (fun s => { s with latch := true, admits := false, tamper := 1, tamperAt := h.clk })
  h.post 1 0x0B06 0 (h.rn Reg.SEC_TAMPER_LOG)

end Sys2Proof.Machine
end

