-- ==== Sys2Proof/Machine/GcsOwn.lean ====
section
/-!
DEFINITION. The OWN commands (R353, R354): network owners, teardown, grants, limits.
-/
namespace Sys2Proof.Machine

/-- How many resources of each type there are (R344). -/
def typeCount : List Nat := [0, 32, 4096, 64, 48, 16, 8, 4864, 16, 64, 64, 16, 0, 24, 8, 4, 256, 4096, 256, 64, 128]

/-- A resource word names something there is (R344); a tunnel's index has bit 8 for inbound. -/
def resNamed (w : Nat) : Bool :=
  let t := w / 2 ^ 24
  let i := w % 2 ^ 24
  if t = 12 then decide (i < 32) || (decide (256 ≤ i) && decide (i < 288)) else decide (i < typeCount.getD t 0)

/-- OWN_CREATE (R353): word 0 a network owner, 258 to 511. -/
def execOwnCreate (owner slot : Nat) (s : State) : Res :=
  onHw s (fun h => h.gcsRun owner slot 0x0201 noDeadlock (fun q =>
    let o := q.w 0
    h.vet [badAt (decide (o < 258) || decide (511 < o)) 0, (h.own.active.contains o || h.keysBarred, cState, o)]
      (h.withTrng (.ok (h.createOwner o) []))))

/-- OWN_TEARDOWN (R354): it completes after step 4 of R21. -/
def execOwnTeardown (owner slot : Nat) (s : State) : Res :=
  onHw s (fun h => h.gcsRun owner slot 0x0202 noDeadlock (fun q =>
    let o := q.w 0
    let erased := match kvGet h.own.tear o with | some t => t.erased | none => false
    h.vet [badAt (decide (o < 3) || decide (511 < o)) 0, (!h.own.active.contains o, cNoObject, o), (erased, cState, o)]
      (.wait ((h.setSlot (owner * 32 + slot) { q with committed := true }).tearStart o (decide (o ≤ 257))))))

/-- The owner of an OWN_GRANT or OWN_REVOKE. -/
def Slot.grantee (s : Slot) : Nat := s.w 0 % 512

/-- The resource words of an OWN_GRANT or OWN_REVOKE. -/
def Slot.resources (s : Slot) : List Nat := (s.payload.drop 2).take (s.w 1 % 32)

/-- The checks OWN_GRANT and OWN_REVOKE share. -/
def Hw.grantChecks (h : Hw) (q : Slot) : List Check :=
  let n := q.w 1
  [q.reserved [0x301FF, 31], badAt (n = 0 || decide (26 < n) || q.payload.length != n + 2) 4] ++
  q.resources.mapIdx (fun i w => badAt (!resNamed w) (8 + 4 * i)) ++
  [badAt (q.grantee = 0) 0, (!h.own.active.contains q.grantee, cNoObject, q.grantee)]

/-- OWN_GRANT (R354): all of its resources or none; an owner whose teardown has begun takes none (R21). -/
def execOwnGrant (owner slot : Nat) (s : State) : Res :=
  onHw s (fun h => h.gcsRun owner slot 0x0203 noDeadlock (fun q =>
    let access := bits (q.w 0) 17 16
    let o := q.grantee
    let held (w : Nat) : Bool := match kvGet h.own.conf w with | some x => x != 1 && x != o | none => false
    h.vet (badAt (access != 1 && access != 3) 2 :: h.grantChecks q ++ (!h.alive o, cState, o) ::
        q.resources.map (fun w => (access == 3 && held w, cConflict, w)))
      (.ok (q.resources.foldl (fun a w => a.grantRes o (access == 3) w) h) [])))

/-- OWN_REVOKE (R354): DETAIL of NO_OBJECT names the first resource that the owner does not hold. -/
def execOwnRevoke (owner slot : Nat) (s : State) : Res :=
  onHw s (fun h => h.gcsRun owner slot 0x0204 noDeadlock (fun q =>
    h.vet (h.grantChecks q ++ q.resources.map (fun w => (!h.holds q.grantee w, cNoObject, w)))
      (.ok (q.resources.foldl (fun a w => a.revokeRes q.grantee w) h) [])))

/-- An owner's policy as pairs of resource word and ACCESS. -/
def Hw.policyWords (h : Hw) (o : Nat) : List Nat :=
  (h.own.conf.filter (fun e => e.2 == o)).flatMap (fun e => [e.1, 3]) ++
  (h.own.read.filter (fun e => e.2.contains o)).flatMap (fun e => [e.1, 1])

/-- OWN_POLICY_READ (R352, R353): word 0 the owner, words 1 to 3 the host buffer. -/
def execOwnPolicyRead (owner slot : Nat) (s : State) : Res :=
  onHw s (fun h => h.gcsRun owner slot 0x0205 noDeadlock (fun q =>
    let o := q.w 0
    h.vet [(owner != 1 && o != owner, cDenied, o), badAt (decide (511 < o)) 0, (!h.own.active.contains o, cNoObject, o)]
      (h.answerBuffer owner (q.w64 1) (q.w 3) (h.policyWords o))))

/-- OWN_SET_LIMITS (R318, R461, R465): word 0 the owner, word 1 BOUND_MS, words 2 to 9 HOLD of its queue pairs. -/
def execOwnSetLimits (owner slot : Nat) (s : State) : Res :=
  onHw s (fun h => h.gcsRun owner slot 0x0206 noDeadlock (fun q =>
    let o := q.w 0
    let pairs := if 2 ≤ o ∧ o ≤ 257 then List.range 8 else []
    h.vet ([badAt (decide (511 < o)) 0, badAt (q.w 1 = 0 || decide (10000 < q.w 1)) 4] ++
        pairs.map (fun i => badAt (q.w (2 + i) = 0 || decide (100 < q.w (2 + i))) (8 + 4 * i)) ++
        [(!h.own.active.contains o, cNoObject, o)])
      (.ok (pairs.foldl (fun a i => a.setFld (Reg.HDMA_Q_CTRL ((o - 2) * 8 + i)) Fld.HDMA_Q_CTRL_HOLD (q.w (2 + i)))
        (h.wn (Reg.EVF_SVC_BOUND o) (q.w 1))) [])))

/-- The kind of an owner (R17): 0 Treust, 1 control firmware, 2 physical function, 3 virtual function, 4 network owner. -/
def ownerKind (o : Nat) : Nat := if o ≤ 2 then o else if o ≤ 257 then 3 else 4

/-- OWN_LIST (R353): how many owners are active, then up to 27 of them from the number in word 0 on, with their kinds. -/
def execOwnList (owner slot : Nat) (s : State) : Res :=
  onHw s (fun h => h.gcsRun owner slot 0x0207 noDeadlock (fun q =>
    let l := (List.range 512).filter h.own.active.contains
    h.tell (l.length :: ((l.filter (fun o => decide (q.w 0 ≤ o))).take 27).map (fun o => ownerKind o * 65536 + o))))

end Sys2Proof.Machine
end

