-- ==== Sys2Proof/Machine/GcsSec.lean ====
section
/-!
DEFINITION. The SEC commands (R361, R364 to R375, R391, R395) and the JTAG debug mailbox. Payload words that R361 does not lay out are
those of log entry 22 (DESIGN CHOICE).
-/
namespace Sys2Proof.Machine

/-- The command of a slot that a run from `h` to `x` carried out; none when it was refused, checked only, or is not complete. -/
def Hw.carriedOut (h x : Hw) (o slot op : Nat) (f : Slot → Gcs) : Option Slot :=
  match kvGet h.mbx.slots (o * 32 + slot), kvGet x.mbx.slots (o * 32 + slot) with
  | some q, none =>
    if !issuerOk op o || q.checkOnly then none
    else match f q with
      | .ok y _ => if (Hw.judgeNew h y noDeadlock).isSome then none else some q
      | _ => none
  | _, _ => none

/-- A command and what follows it once it is carried out. -/
def Hw.gcsThen (h : Hw) (o slot op : Nat) (f : Slot → Gcs) (next : Slot → Hw → Hw) : Hw :=
  let x := h.gcsRun o slot op noDeadlock f
  match h.carriedOut x o slot op f with
  | some q => next q x
  | none => x

/-- A fresh 32-byte challenge. -/
def Hw.challenge (h : Hw) : Nat × Hw := (h.draw * 2 ^ 128 + h.drawn.draw, h.drawn.drawn)

/-- A byte string as payload words, byte 0 in bits 7:0 of the first. -/
def bytesAsWords (l : List Byte) : List Nat := wordsOf ((l.length + 3) / 4) l

/-! ### Lifecycle (R364 to R366) -/

/-- SEC_LIFECYCLE_READ: the state code and a new challenge in eight words. -/
def execSecLifecycleRead (owner slot : Nat) (s : State) : Res :=
  onHw s (fun h => h.gcsRun owner slot 0x0A01 noDeadlock (fun _ =>
    let c := h.challenge
    h.withTrng (.ok (c.2.onSec (fun x => { x with chal := some c.1 })) (s.fuse.life :: bytesAsWords (toBe 32 c.1)))))

/-- A transition of R365 that a command may ask for. -/
def advances (life target : Nat) : Bool :=
  (life == 1 && target == 2) || (life == 2 && target == 3) || (life == 3 && target == 4) ||
    (decide (1 ≤ life) && decide (life ≤ 4) && target == 5)

/-- The fuses after an advance whose buffer (96-byte key, 96-byte signature, for PROVISIONED the hashes of the OEM image and debug keys)
proves it; none when the proof is bad. -/
def Fuse.advance (fu : Fuse) (target : Nat) (chal : Option Nat) (buf : List Byte) : Option Fuse :=
  let img := be (sub buf 192 48)
  let hash := if target = 2 then img else if target = 5 && (fu.life == 1 || fu.life == 4) then fu.vendor else fu.oemImg
  match chal with
  | none => none
  | some c =>
    if !provedBy hash (sub buf 0 96) (sub buf 96 96) (toBe 8 fu.devId ++ toBe 1 target ++ toBe 32 c) then none
    else if target = 2 then some { fu with life := 2, oemImg := img, oemDbg := be (sub buf 240 48) }
    else if target = 5 then some { fu with life := 5, root := BitVec.allOnes 256 }
    else some { fu with life := target }

/-- SEC_LIFECYCLE_ADVANCE judged: a challenge serves once. -/
def Hw.gcsAdvance (h : Hw) (fu : Fuse) (q : Slot) : Gcs :=
  let t := q.w 0
  let spent := h.onSec (fun x => { x with chal := none })
  h.vet [q.reserved [7], badAt (q.w 3 != (if t = 2 then 288 else 192)) 12, (!advances fu.life t, cLifecycle, fu.life)]
    (match fu.advance t h.sec.chal q.buf with
      | none => .no cAuth 0 [] spent
      | some fu' => .ok { (spent.setFld Reg.SEC_STATUS Fld.SEC_STATUS_LIFECYCLE fu'.life) with
          sys := { h.sys with resetReq := if 4 ≤ t then some h.clk else h.sys.resetReq } } [])

/-- SEC_LIFECYCLE_ADVANCE (R365): word 0 the target state, words 1 to 3 the host buffer of `Fuse.advance`. RETURNED tears every owner
but 0 down, and it and SCRAPPED reset the device. -/
def execSecLifecycleAdvance (owner slot : Nat) (s : State) : Res :=
  onBoth s (fun fu h =>
    let f := h.gcsAdvance fu
    let x := h.gcsRun owner slot 0x0A02 noDeadlock f
    match h.carriedOut x owner slot 0x0A02 f with
    | some q => ((fu.advance (q.w 0) h.sec.chal q.buf).getD fu,
        if q.w 0 = 4 then (x.own.active.filter (· != 0)).foldl (fun a o => a.tearStart o false) x else x)
    | none => (fu, x))

/-! ### Keys of owners and lines -/

/-- SEC_KEY_ROTATE (R361, R375): word 0 the owner. New frames use the other Basin slot from here on. -/
def execSecKeyRotate (owner slot : Nat) (s : State) : Res :=
  onHw s (fun h => h.gcsRun owner slot 0x0A03 noDeadlock (fun q =>
    let o := q.w 0
    let sel := kvGetD h.own.keySel o 0
    let n := kvGetD h.sec.rot o 0 + 1
    h.vet [(owner != 1 && o != owner, cDenied, o), q.reserved [0x1FF],
        (!h.own.active.contains o || (kvGet h.own.tear o).isSome || o == 0, cNoObject, o),
        ((kvGet h.own.retiring o).isSome || (h.master o).isNone, cState, o)]
      (match h.master o with
        | none => h.refuse cState o
        | some mo => .ok ((h.onSec (fun x => { x with rot := kvPut x.rot o n })).onOwn (fun w => { w with
            keys := kvPut w.keys (o * 2 + (1 - sel)) (basinKey mo n), keySel := kvPut w.keySel o (1 - sel),
            retiring := kvPut w.retiring o sel })) [])))

/-- The checks that every command with a key blob shares (R373, R396): Treust is ready, the owner has a transport key. -/
def Hw.blobChecks (h : Hw) (fu : Fuse) (o t i : Nat) : List Check :=
  [((h.transportKey fu o).isNone, cNoObject, o), badState (!h.flag Reg.SEC_STATUS Fld.SEC_STATUS_READY || h.sec.latch) t i]

/-- The plain text of the blob in the payload words from `n` on; the words before it are additional data. -/
def Hw.blobText (h : Hw) (fu : Fuse) (o n len : Nat) (q : Slot) : Option (List Byte) :=
  match h.transportKey fu o with
  | none => none
  | some kt =>
    let r := blobOpen kt (bytesOf (q.payload.take n)) ((bytesOf (q.payload.drop n)).take len)
    if r.2 then some r.1 else none

/-- The SA that word 0 of a MACsec command names. -/
def saOfWord (w : Nat) : Nat := saIdx (w % 32) (bits w 8 8) (if bit w 8 then bits w 15 12 else 0) (bits w 11 10)

/-- A transmit SA that frames are sent under: it is enabled and its AN is TX_AN, or a frame under way began with it. -/
def Hw.saInForce (h : Hw) (w : Nat) : Bool :=
  !bit w 8 &&
    ((h.fld (Reg.MAC_SEC_CFG (w % 32)) Fld.MAC_SEC_CFG_TX_AN == bits w 11 10 &&
        (match kvGet h.mac.sa (saOfWord w) with | some sa => sa.en | none => false)) ||
      (kvGetD h.swc.tx (w % 32) []).any (fun t => t.sec.any (fun x => x.an == bits w 11 10)))

/-- SEC_MACSEC_SA_INSTALL (R361): an SA of a key blob; it is not enabled yet. -/
def execSecMacsecSaInstall (owner slot : Nat) (s : State) : Res :=
  onHw s (fun h => h.gcsRun owner slot 0x0A04 noDeadlock (fun q =>
    let w := q.w 0
    let m := w % 32
    h.vet ([h.deny owner 1 m, q.reserved [0xFD1F], badAt (decide (20 ≤ m)) 0] ++ h.blobChecks s.fuse owner 1 m ++
        [badState (h.saInForce w) 1 m])
      (match h.blobText s.fuse owner 6 72 q with
        | none => h.refuse cAuth 0
        | some t =>
          let sa : Sa := ⟨BitVec.ofNat 256 (be (t.take 32)), be (sub t 32 12), q.w 5, q.w64 1, q.w64 3, false, false, owner⟩
          .ok (h.onMac (fun x => { x with sa := kvPut x.sa (saOfWord w) sa })) [])))

/-- SEC_MACSEC_SA_ENABLE: word 0 as for an installation, word 1 bit 0 enables. -/
def execSecMacsecSaEnable (owner slot : Nat) (s : State) : Res :=
  onHw s (fun h => h.gcsRun owner slot 0x0A05 noDeadlock (fun q =>
    let w := q.w 0
    let m := w % 32
    h.vet [h.deny owner 1 m, q.reserved [0xFD1F, 1], badAt (decide (20 ≤ m)) 0, noObj (kvGet h.mac.sa (saOfWord w)).isNone 1 m]
      (.ok (h.onMac (fun x => { x with sa := match kvGet x.sa (saOfWord w) with
        | some sa => kvPut x.sa (saOfWord w) { sa with en := bit (q.w 1) 0 }
        | none => x.sa })) [])))

/-- SEC_MACSEC_SA_DELETE (R371): the SA's key is destroyed. -/
def execSecMacsecSaDelete (owner slot : Nat) (s : State) : Res :=
  onHw s (fun h => h.gcsRun owner slot 0x0A06 noDeadlock (fun q =>
    let w := q.w 0
    let m := w % 32
    h.vet [h.deny owner 1 m, q.reserved [0xFD1F], badAt (decide (20 ≤ m)) 0, noObj (kvGet h.mac.sa (saOfWord w)).isNone 1 m]
      (.ok (h.onMac (fun x => { x with sa := kvDel x.sa (saOfWord w) })) [])))

/-- SEC_CMAC_KEY_INSTALL (R266, R373): word 0 the authentication entry, then a 60-byte blob with its key. -/
def execSecCmacKeyInstall (owner slot : Nat) (s : State) : Res :=
  onHw s (fun h => h.gcsRun owner slot 0x0A07 noDeadlock (fun q =>
    let i := q.w 0
    h.vet ([h.deny owner 17 i, q.reserved [4095]] ++ h.blobChecks s.fuse owner 17 i)
      (match h.blobText s.fuse owner 1 60 q with
        | none => h.refuse cAuth 0
        | some t =>
          let a : Auth := kvGetD h.brg.auth i ⟨none, owner, 0, 0, 3, true, 255, 0, false, 0, kvGetD h.sec.fresh i 0⟩
          .ok { h with brg := { h.brg with
            auth := kvPut h.brg.auth i { a with key := some (BitVec.ofNat 256 (be t)), by_ := owner } } } [])))

/-! ### Sessions (R17, R373, R391) -/

/-- SEC_SESSION_OPEN: word 0 a network owner that is not active, words 1 to 24 its ephemeral transport public key. -/
def execSecSessionOpen (owner slot : Nat) (s : State) : Res :=
  onHw s (fun h => h.gcsRun owner slot 0x0A08 noDeadlock (fun q =>
    let o := q.w 0
    h.vet [q.reserved [0x1FF], badAt (decide (o < 258)) 0,
        (h.own.active.contains o || !h.flag Reg.SEC_STATUS Fld.SEC_STATUS_READY || h.sec.latch || h.keysBarred, cState, o)]
      (h.withTrng (
        let x := h.createOwner o
        .ok ((x.onSec (fun k => { k with pubs := kvPut k.pubs o ((bytesOf (q.payload.drop 1)).take 96) })).onOwn (fun w => { w with
          session := kvPut w.session o owner })) [o]))))

/-- SEC_SESSION_CLOSE: word 0 the owner of the session, by who opened it or owner 1. -/
def execSecSessionClose (owner slot : Nat) (s : State) : Res :=
  onHw s (fun h => h.gcsRun owner slot 0x0A09 noDeadlock (fun q =>
    let o := q.w 0
    let by_ := kvGet h.own.session o
    h.vet [(owner != 1 && by_.isSome && by_ != some owner, cDenied, o), q.reserved [0x1FF], (by_.isNone, cNoObject, o)]
      (.ok (h.tearStart o false) [])))

/-! ### Debug (R364, R395) -/

/-- The highest debug level of a lifecycle state. -/
def debugMax (life : Nat) : Nat := [3, 3, 2, 2, 3, 1].getD life 1

/-- A proof for a debug level: none is needed in BLANK, the vendor's key in MANUFACTURED and RETURNED, else the OEM debug key. -/
def Fuse.debugProof (fu : Fuse) (level : Nat) (chal : Option Nat) (key sig : List Byte) : Bool :=
  fu.life == 0 || (match chal with
    | some c => provedBy (if fu.life = 1 ∨ fu.life = 4 then fu.vendor else fu.oemDbg) key sig
        (toBe 8 fu.devId ++ toBe 1 level ++ toBe 32 c)
    | none => false)

/-- A level that was proved opens: level 3 once every owner but 0 is torn down. -/
def Hw.debugGrant (h : Hw) (level : Nat) : Hw :=
  let h := h.onSec (fun x => { x with dbgChal := none })
  if level = 3 then
    ((h.own.active.filter (· != 0)).foldl (fun a o => a.tearStart o false) (h.onSec (fun x => { x with dbgWant := true }))).debugSettle
  else h.debugOpen level

/-- SEC_DEBUG_UNLOCK: word 0 bit 8 phase 2, bits 1:0 the level. Phase 1 answers a challenge in eight words; phase 2 names a host buffer
in words 1 to 3 with a 96-byte key and a 96-byte signature. -/
def execSecDebugUnlock (owner slot : Nat) (s : State) : Res :=
  onHw s (fun h => h.gcsThen owner slot 0x0A0A (fun q =>
    let level := q.w 0 % 4
    let two := bit (q.w 0) 8
    let c := h.challenge
    h.vet [q.reserved [0x103], badAt (decide (level < 2)) 0, badAt (two && q.w 3 != 192) 12,
        (decide (debugMax s.fuse.life < level), cLifecycle, s.fuse.life)]
      (if !two then h.withTrng (.ok (c.2.onSec (fun x => { x with dbgChal := some c.1 })) (bytesAsWords (toBe 32 c.1)))
       else if s.fuse.debugProof level h.sec.dbgChal (sub q.buf 0 96) (sub q.buf 96 96) then .ok h []
       else h.refuse cAuth 0))
    (fun q x => if bit (q.w 0) 8 then x.debugGrant (q.w 0 % 4) else x))

/-- JTAG_DEBUG_UNLOCK: a phase through the JTAG debug mailbox: with no signature the challenge of phase 1, else phase 2. -/
def execJtagDebugUnlock (level : Nat) (key sig : List Byte) (s : State) : Res :=
  onHw s (fun h =>
    let c := h.challenge
    if !h.domOn 4 || decide (level < 2) || decide (debugMax s.fuse.life < level) then h
    else if sig.isEmpty then
      if h.sec.trngDown || h.flag Reg.SEC_STATUS Fld.SEC_STATUS_TRNG_FAIL then h
      else (c.2.onSec (fun x => { x with dbgChal := some c.1 })).emit (.jtag (toBe 32 c.1))
    else if s.fuse.debugProof level h.sec.dbgChal key sig then h.debugGrant level
    else h)

/-! ### Tamper settings (R392) -/

/-- SEC_TAMPER_STATUS: SEC_TAMPER_CFG, SEC_TAMPER_LOG, SEC_STATUS. -/
def execSecTamperStatus (owner slot : Nat) (s : State) : Res :=
  onHw s (fun h => h.gcsRun owner slot 0x0A0B noDeadlock (fun _ =>
    h.tell [h.rn Reg.SEC_TAMPER_CFG, h.rn Reg.SEC_TAMPER_LOG, h.rn Reg.SEC_STATUS]))

/-- SEC_TAMPER_SET: word 0 the image of SEC_TAMPER_CFG, word 1 bit 0 clears SEC_TAMPER_LOG. -/
def execSecTamperSet (owner slot : Nat) (s : State) : Res :=
  onHw s (fun h => h.gcsRun owner slot 0x0A0C noDeadlock (fun q =>
    h.vet [q.reserved [0x31F, 1]]
      (.ok (
        let x := h.cfg Reg.SEC_TAMPER_CFG 0x31F (q.w 0)
        if bit (q.w 1) 0 then x.clr Reg.SEC_TAMPER_LOG else x) [])))

end Sys2Proof.Machine
end

