-- ==== Sys2Proof/Machine/Boot.lean ====
section
/-!
DEFINITION. Start-up, loss of power, the TRNG and the tamper response (R364 to R395, R449 to R456).
-/
namespace Sys2Proof.Machine

/-- Steps 2 to 5 of R376. -/
def Hw.bootSteps (h : Hw) (fu : Fuse) (tamper : Nat) (early : Option EarlySet) : Hw × Bool :=
  let h := h.bootKeys fu
  let h := match early with
    | some e => if fu.verified 3 e.copy && h.placeable e.copy then (h.applyEarly e).earlyReady
        else h.setFld Reg.SEC_STATUS Fld.SEC_STATUS_EARLY_BAD 1
    | none => h.setFld Reg.SEC_STATUS Fld.SEC_STATUS_EARLY_BAD 1
  let src := h.tamperOn fu (tamper % 4)
  if src ≠ 0 then (h.tamperBegin src, true) else (h, false)

/-- BOOT_ROM_START (R376): the boot ROM runs from power-good, once the domains it needs are on and the March test of firmware SRAM has
ended. `tamper` are the tamper inputs that are active, `early` and `copies` what the flash holds (C preferred, C fallback, S preferred,
S fallback). It waits while the TRNG restarts. -/
def execBootRomStart (tamper : Nat) (early : Option EarlySet) (copies : List (Option ImageCopy)) (s : State) : Res :=
  onHw s (fun h =>
    let fu := s.fuse
    if !h.pwr.boot || !h.pg 4 then h
    else
      let start (h : Hw) : Hw :=
        let h := ((h.onPwr (fun p => { p with boot := false })).emit (.pin .xspiRst (some false))).emit (.pin .xspiRst (some true))
        ((h.setFld Reg.SEC_STATUS Fld.SEC_STATUS_LIFECYCLE fu.life).wn Reg.SEC_DEVICE_ID_LO (fu.devId % 2 ^ 32)).wn Reg.SEC_DEVICE_ID_HI
          (fu.devId / 2 ^ 32 % 2 ^ 32)
      if !fu.boots then (h.onPwr (fun p => { p with boot := false })).setFld Reg.SEC_STATUS Fld.SEC_STATUS_LIFECYCLE fu.life
      else if !h.pg 5 || !h.pg 6 || !h.flag Reg.MEM_STATUS Fld.MEM_STATUS_READY then h
      else if h.flag Reg.SEC_STATUS Fld.SEC_STATUS_TRNG_FAIL then (start h).safeSet 3
      else if h.sec.trngDown then h
      else
        let h := start h
        let h := { h with sys := { h.sys with copies := copies.take 4 } }
        let r := h.bootSteps fu tamper early
        if r.2 then r.1 else r.1.bootPair fu copies)

/-! ### The images report ready -/

/-- The transmit freshness values that Treust resumes with (R269, R383): 2^16 above those stored, 2^32 when the store is not anchored,
free values when the record is refused as a rollback. -/
def Hw.resumeStore (h : Hw) (store : Option (Nat × Nat × List (Nat × Nat))) : Hw :=
  let ao := h.rn Reg.SEC_AO_STORE_SEQ
  let bare := decide (ao = 0)
  let up := if bare then 2 ^ 32 else 2 ^ 16
  let all (f : Nat → Nat) : Kv Nat := (List.range 4096).map (fun i => (i, f i))
  match store with
  | none => h.onSec (fun s => { s with fresh := all (fun _ => up), storeSeq := ao })
  | some (seq, _, vals) =>
    if !bare ∧ seq % 2 ^ 32 < ao then
      let base := h.free
      let x := h.onSec (fun s => { s with
        fresh := all (fun i => (Config.freeValue (base + i)).toNat % 2 ^ 64), storeSeq := ao })
      { x with free := base + 4096 }
    else h.onSec (fun s => { s with fresh := all (fun i => (kvGetD vals i 0 + up) % 2 ^ 64), storeSeq := seq })

/-- S_IMAGE_READY (R383, R396): the S-image reports ready; `store` is the record of the secure store with the highest sequence number
(number, boot count, freshness values). The lookaside engine accepts jobs from here on. -/
def execSImageReady (store : Option (Nat × Nat × List (Nat × Nat))) (s : State) : Res :=
  onHw s (fun h => match h.sys.imgS with
    | none => h
    | some i =>
      if !h.pg 4 || h.sec.latch || h.flag Reg.SEC_STATUS Fld.SEC_STATUS_READY then h
      else
        let h := (h.wn Reg.MBX_S_VERSION i.version).wn Reg.MBX_EPOCHS (h.rn Reg.MBX_EPOCHS / 2 ^ 16 * 2 ^ 16 + i.epoch % 2 ^ 16)
        let h := if h.rn Reg.SEC_AO_STORE_SEQ = 0 then
            (h.setFld Reg.SEC_STATUS Fld.SEC_STATUS_STORE_UNANCHORED 1).post 1 0x0B04 0 else h
        let h := (h.resumeStore store).writeStore
        (h.setFld Reg.SEC_JOB_CFG Fld.SEC_JOB_CFG_EN 1).setReady Reg.SEC_STATUS Fld.SEC_STATUS_READY 12)

/-- The SVN minima after a boot of pair 0 (R378): that of each type is raised to the SVN of the booted copy that asks for it. -/
def Fuse.raiseSvn (fu : Fuse) (l : List (Nat × Option ImageCopy)) : Fuse :=
  { fu with svn := l.foldl (fun m p => match p.2 with
      | some c => if c.raise then m.set (p.1 - 1) (max (m.getD (p.1 - 1) 0) (min c.svn 64)) else m
      | none => m) fu.svn }

/-- C_IMAGE_READY (R13, R37, R301, R342, R378, R455): what waited for the control firmware goes on, the bounds are recomputed. -/
def execCImageReady (s : State) : Res :=
  onBoth s (fun fu h => match h.sys.imgC with
    | none => (fu, h)
    | some c =>
      if !h.pg 5 || h.flag Reg.MBX_STATUS Fld.MBX_STATUS_READY || h.flag Reg.MBX_STATUS Fld.MBX_STATUS_SAFE_SET || h.sec.latch then (fu, h)
      else
        let fu := if h.sys.pair = 0 then
            fu.raiseSvn [(1, h.sys.imgS), (2, h.sys.imgC), (3, h.sys.early.map (·.copy))] else fu
        let h := (h.wn Reg.MBX_C_VERSION c.version).wn Reg.MBX_EPOCHS (c.epoch % 2 ^ 16 * 2 ^ 16 + h.rn Reg.MBX_EPOCHS % 2 ^ 16)
        let h := { h with sys := { h.sys with isSealed := true } }
        let h := h.setReady Reg.MBX_STATUS Fld.MBX_STATUS_READY 13
        let live := h.own.active.filter (fun o => (kvGet h.own.tear o).isNone)
        let h := live.foldl (fun a o => a.setFld (Reg.MBX_OWNER_STATUS o) Fld.MBX_OWNER_STATUS_READY 1) h
        let h := h.tearDue.createVfs.settle
        (fu, Hw.rebound h h))

/-! ### The TRNG (R391) -/

/-- TRNG_HEALTH_FAIL: the pool is discarded and the TRNG restarts; three failures in a second latch TRNG_FAIL until reset. -/
def execTrngHealthFail (s : State) : Res :=
  onHw s (fun h =>
    if !h.pg 4 then h
    else
      let l := h.sec.trngAt.filter (fun t => decide (h.clk < t + 500000000)) ++ [h.clk]
      let h := (h.inc Reg.SEC_TRNG_HEALTH).onSec (fun x => { x with trngDown := true, trngAt := l })
      if 3 ≤ l.length then h.setFld Reg.SEC_STATUS Fld.SEC_STATUS_TRNG_FAIL 1 else h)

/-- TRNG_RESTART_DONE: its start-up tests pass; owners whose creation waited, and whose function is still enabled, are created. -/
def execTrngRestartDone (s : State) : Res :=
  onHw s (fun h =>
    let os := h.own.await.filter h.functionOn
    let h := (h.onSec (fun x => { x with trngDown := false })).onOwn (fun w => { w with await := [] })
    os.foldl Hw.createOwner h)

/-! ### The tamper response (R393, R394) -/

/-- A write of flash by the recovery service that a detection ends (R394). -/
def Hw.stopFlash (h : Hw) : Hw :=
  (h.mbx.slots.filter (fun x => x.1 / 32 == 2 && x.2.st == 2 && x.2.opcode == 0x0105)).foldl (fun a x => a.complete x.1 cAborted 0 [0]) h

/-- TAMPER_DETECT (R392 to R394): sources by bit as in SEC_TAMPER_LOG. In the Safe Set a detection is logged and changes nothing else,
but for a flash write in progress; within 5 µs further sources join the response that runs. -/
def execTamperDetect (sources : Nat) (s : State) : Res :=
  onHw s (fun h =>
    let src := h.tamperOn s.fuse sources
    if src = 0 ∨ h.pg 4 = false ∨ s.fuse.boots = false then h
    else
      let h := h.add Reg.SEC_GLITCH_EVENTS ((bitsOf 5 src).filter (fun i => decide (2 ≤ i))).length
      if h.flag Reg.MBX_STATUS Fld.MBX_STATUS_SAFE_SET then (h.tamperLog src).stopFlash
      else if h.sec.tamper = 0 then h.tamperBegin src
      else if h.clk ≤ h.sec.tamperAt + 2500 then h.tamperLog src
      else h)

/-- TAMPER_KEY_ZEROISE: the key registers of the inline engines are zero, every frame in the Basin is discarded without egress, every
job ends ABORTED without output. -/
def execTamperKeyZeroise (s : State) : Res :=
  onHw s (fun h =>
    if h.sec.tamper ≠ 1 then h
    else
      let h := h.swc.frames.foldl (fun a f => a.cutFrame f.id) h
      let h := { h with
        mac := { h.mac with sa := h.mac.sa.map (fun (e : Nat × Sa) => (e.1, { e.2 with key := 0, salt := 0, en := false })) }
        brg := { h.brg with auth := h.brg.auth.map (fun (e : Nat × Auth) => (e.1, { e.2 with key := none })) }
        vie := { h.vie with ring := h.vie.ring.map (fun (r : Nat × RsvRing) => (r.1, { r.2 with sealKey := none })) } }
      let h := h.onOwn (fun w => { w with keys := [], keySel := [], retiring := [] })
      let h := h.add Reg.SEC_JOBS_DONE h.sec.jobs.length
      h.onSec (fun x => { x with tamper := 2, jobs := [], waiting := [] }))

/-- TAMPER_CISTERN_WIPE: all owner keys and the cache of the secure store are gone. -/
def execTamperCisternWipe (s : State) : Res :=
  onHw s (fun h =>
    if h.sec.tamper ≠ 2 then h
    else h.onSec (fun x => { x with
      tamper := 3, nonce := 0, dsess := none, mo := [], rot := [], pubs := [], fresh := [], chal := none, dbgChal := none }))

/-- TAMPER_SAFE_RESUME: the free list is rebuilt, owner 1 has a Basin key from the TRNG, and the forwarding of the Early Set alone
resumes; SAFE_CAUSE is 2. -/
def execTamperSafeResume (s : State) : Res :=
  onHw s (fun h =>
    if h.sec.tamper ≠ 3 then h
    else
      let key := BitVec.ofNat 256 (h.draw * 2 ^ 128 + h.drawn.draw)
      let h := h.drawn.drawn.onOwn (fun w => { w with keys := [(2, key)] })
      let h := { h with
        swc := { h.swc with frames := [], samples := [], lossQ := [], cells := emptyCells h.swc.cells, leaked := [], suspect := [], touched := [], rx := [], tx := [] }
        fwd := { h.fwd with em := [], stashAge := [], lagA := [], lagB := [], lpm := [], acl := [], changes := [], shadow := Shadow.reset, struck := [] }
        brg := { h.brg with rules := [] }
        vie := { h.vie with s := [] } }
      let h := match h.sys.early with
        | some e => (h.applyEarly e).onSec (fun x => { x with pubs := [] })
        | none => h
      (h.onSec (fun x => { x with tamper := 4, admits := true })).safeSet 2)

/-- TAMPER_CONTROL_RESTART: the S-image is halted, the control pair runs the recovery service, owners 2 to 511 are torn down; owner 2
is created again for the service. -/
def execTamperControlRestart (s : State) : Res :=
  onHw s (fun h =>
    if h.sec.tamper ≠ 4 then h
    else
      let h := h.clrReady Reg.SEC_STATUS Fld.SEC_STATUS_READY 12
      let h := h.fwRestart
      let h := (h.own.active.filter (fun o => decide (2 ≤ o))).foldl (fun a o => a.tearStart o (o == 2)) h
      h.onSec (fun x => { x with tamper := 5 }))

/-! ### Loss of power -/

/-- POWER_LOSS (R366, R494): VDD_AO falls, everything but the fuses is lost. A lifecycle advance in progress has programmed its copies
or not. -/
def execPowerLoss (programmed : Bool) (s : State) : Res :=
  onBoth s (fun fu h =>
    let ws := (h.mbx.slots.filter (fun x => x.2.st == 2 && x.2.opcode == 0x0A02 && !x.2.checkOnly && !x.2.committed)).map (·.2)
    let fu' := match programmed, ws with
      | true, q :: _ => (match h.gcsAdvance fu q with
        | .ok _ _ => (fu.advance (q.w 0) h.sec.chal q.buf).getD fu
        | _ => fu)
      | _, _ => fu
    let z : Hw := { Hw.reset with clk := h.clk, free := h.free, out := h.out }
    (fu', z.onPwr (fun p => { p with powered := false, busy := false, startUp := false, goal := 0, regUp := none })))

end Sys2Proof.Machine
end

