-- ==== Sys2Proof/Machine/Can.lean ====
section
/-!
DEFINITION. The commands of the CAN controllers (chapter CAN and LIN controllers).
-/
namespace Sys2Proof.Machine

/-- CAN_INTEGRATE (R206): 11 recessive bits seen by an enabled controller of a ready group; it starts in the mode set. -/
def execCanIntegrate (ctl : Nat) (s : State) : Res :=
  onHw s (fun h =>
    if decide (ctl < 48) && h.flag (Reg.CAN_CFG ctl) Fld.CAN_CFG_EN && h.flag Reg.FBUS_STATUS ⟨ctl / 8, ctl / 8⟩
        && !h.flag (Reg.CAN_STATUS ctl) Fld.CAN_STATUS_SYNC then
      let h := (h.setFld (Reg.CAN_STATUS ctl) Fld.CAN_STATUS_SYNC 1).setFld (Reg.CAN_STATUS ctl) Fld.CAN_STATUS_PEX_ACTIVE 0
      h.setFld (Reg.CAN_STATUS ctl) Fld.CAN_STATUS_MODE_NOW (h.canCfg ctl Fld.CAN_CFG_MODE)
    else h)

/-- A frame of a format the controller does not take part in (R207). -/
def Hw.offFormat (h : Hw) (c age : Nat) : Hw :=
  if h.flag (Reg.CAN_CFG c) Fld.CAN_CFG_PEX then
    ((h.inc (Reg.CAN_PEX c)).setFld (Reg.CAN_STATUS c) Fld.CAN_STATUS_PEX_ACTIVE 1).setFld (Reg.CAN_STATUS c)
      Fld.CAN_STATUS_SYNC 0
  else h.canError c 3 false false age none

/-- REC after a good reception (ISO 11898-1): one less; from above 127 to a value of 119 to 127 the standard leaves open. -/
def Hw.goodRx (h : Hw) (c : Nat) : Hw :=
  let e := h.rn (Reg.CAN_ERR c)
  let rc := getF e Fld.CAN_ERR_REC
  if 127 < rc then (h.setErr c (getF e Fld.CAN_ERR_TEC) (119 + h.draw % 9)).drawn
  else h.setErr c (getF e Fld.CAN_ERR_TEC) (rc - 1)

/-- CAN_FRAME_RECEIVE (R216): format 0 classical, 1 FD, 2 XL; `w0` the flags of word 0, `w1` and `w2` of the record; `age` the
cycles since the sample point of its start of frame. -/
def execCanFrameReceive (ctl fmt w0 w1 w2 : Nat) (data : List Byte) (age : Nat) (s : State) : Res :=
  onHw s (fun h =>
    let h := if ctl < 48 then h.onCan ctl (fun x => { x with erring := false }) else h
    if !h.canOn ctl || h.canMode ctl == 2 then h
    else if (fmt = 1 ∧ h.canCfg ctl Fld.CAN_CFG_FD_EN = 0) ∨ (fmt = 2 ∧ h.canCfg ctl Fld.CAN_CFG_XL_EN = 0) then
      h.offFormat ctl age
    else (h.goodRx ctl).canAccept ctl fmt w0 w1 w2 data age)

/-- The consumer reads the head of a receive queue for the first time, which locks it. -/
def Hw.rxLook (h : Hw) (c q : Nat) : Hw :=
  match (h.can c).rx q with
  | [] => h
  | e :: _ => (h.emit (.cpu (canQueue c q) (bytesOf e.2))).onCan c (fun x => x.setLock q true)

/-- CAN_RXQ_POP (R219): the control firmware, as consumer of a direct queue, reads the head with `read`, which locks it; else it takes
the head and pops it, and with `next` reads the new head, which locks it. Queues 3 and 4 are the firmware's too. -/
def execCanRxqPop (ctl q : Nat) : Bool × Bool → State → Res
  | (read, next), s => onHw s (fun h =>
    let f := if q = 0 then Fld.CAN_CFG_RXQ0_DIRECT else Fld.CAN_CFG_RXQ1_DIRECT
    if 48 ≤ ctl then h
    else if q = 3 then
      match (h.can ctl).conf with
      | [] => h
      | r :: rs => (h.emit (.cpu (canQueue ctl 3) (bytesOf r.2))).onCan ctl (fun x => { x with conf := rs })
    else if q = 4 then
      match (h.can ctl).errq with
      | [] => h
      | r :: rs => (h.emit (.cpu (canQueue ctl 4) (bytesOf r.2))).onCan ctl (fun x => { x with errq := rs })
    else if 2 ≤ q ∨ h.flag (Reg.CAN_CFG ctl) f = false then h
    else if read then h.rxLook ctl q
    else match h.rxPop ctl q with
      | (none, h) => h
      | (some ws, h) => (h.emit (.cpu (canQueue ctl q) (bytesOf ws))).onCan ctl (fun x =>
          x.setLock q (next && !(x.rx q).isEmpty)))

/-- CAN_ERROR (R214): types 1 to 5; `tx` when this controller was transmitting a frame or its error flag, `severe` as ISO 11898-1 weighs
it; `tdcv` the loop delay of a frame whose edge had passed. -/
def execCanError (ctl type : Nat) (tx severe : Bool) : Nat × Option Nat → State → Res
  | (age, tdcv), s => onHw s (fun h =>
    if h.canOn ctl && decide (1 ≤ type) && decide (type ≤ 5) && (!tx || (h.can ctl).sending.isSome || (h.can ctl).erring) then
      h.canError ctl type tx severe age tdcv
    else h)

/-- CAN_BUS_RECOVER (R215): 128 occurrences of 11 recessive bits, with AUTO_RECOVER or after a command. -/
def execCanBusRecover (ctl : Nat) (s : State) : Res :=
  onHw s (fun h =>
    if decide (ctl < 48) && h.canErr ctl == 2 && (h.flag (Reg.CAN_CFG ctl) Fld.CAN_CFG_AUTO_RECOVER || (h.can ctl).recover) then
      ((h.setErr ctl 0 0).onCan ctl (fun x => { x with recover := false })).post 1 0x0703 ctl
    else h)

/-- CAN_TX_REQUEST (R221): a message record without timestamp words from the bridge or firmware. -/
def execCanTxRequest (ctl : Nat) (rec : List Nat) (s : State) : Res :=
  onHw s (fun h => if decide (ctl < 48) && h.pg (37 + ctl / 8) && decide (recKind rec < 3) then (h.canRequest ctl rec).2 else h)

/-- CAN_BUS_IDLE_OFFER (R221, R222, R224): nothing is offered in LISTEN_ONLY mode (R213). -/
def execCanBusIdleOffer (ctl : Nat) (s : State) : Res :=
  onHw s (fun h =>
    if !h.canOn ctl || h.canMode ctl == 1 || (h.can ctl).sending.isSome then h
    else match (h.onCan ctl (fun x => { x with erring := false })).offerFresh ctl 33 with
      | (none, h) => h
      | (some r, h) =>
        (h.onCan ctl (fun x => { x with
          sending := some r,
          live := x.live.map (fun l => if r.slot.isSome && l.slot == r.slot then { l with tried := true } else l) })).setFld
          (Reg.CAN_STATUS ctl) Fld.CAN_STATUS_TX_BUSY 1)

/-- CAN_TX_ARB_LOST (R222). -/
def execCanTxArbLost (ctl : Nat) (s : State) : Res :=
  onHw s (fun h => if decide (ctl < 48) && (h.can ctl).sending.isSome then (h.inc (Reg.CAN_TX_ARB_LOST ctl)).canUnsent ctl else h)

/-- The device's own claims after it sent an Address Claimed or Cannot Claim frame: its NAME holds that address alone. -/
def claimOwn (l : Kv Nat) (c addr name : Nat) : Kv Nat :=
  let l := l.filter (fun (x : Nat × Nat) => !(x.1 / 256 == c && x.2 == name))
  if addr < 254 then kvPut l (c * 256 + addr) name else l

/-- An Address Claimed frame this device sends claims its source address for the device (R260). -/
def Hw.selfClaim (h : Hw) (c : Nat) (msg : List Nat) : Hw :=
  let id := recIdent msg
  if recBit msg 21 && recKind msg != 2 && id / 2 ^ 16 % 2 ^ 10 == 0xEE && recLen msg == 8 then
    { h with brg := { h.brg with selfClaims := claimOwn h.brg.selfClaims c (id % 256) (le (recData 3 msg)) } }
  else h

/-- CAN_TX_COMPLETE (R222): confirmed when enabled, received internally in LOOPBACK (R213, R245). -/
def execCanTxComplete (ctl age tdcv : Nat) (s : State) : Res :=
  onHw s (fun h =>
    match (h.can ctl).sending with
    | none => h
    | some r =>
      let h := h.onCan ctl (fun x => { x with
        sending := none,
        txq := if r.slot.isNone then dropReq r x.txq else x.txq,
        live := x.live.filter (fun l => r.slot.isNone || l.slot != r.slot) })
      let h := (h.setFld (Reg.CAN_STATUS ctl) Fld.CAN_STATUS_TX_BUSY 0).inc (Reg.CAN_TX_OK ctl)
      let h := h.measureTdc ctl (recKind r.msg) tdcv
      let e := h.rn (Reg.CAN_ERR ctl)
      let h := h.setErr ctl (getF e Fld.CAN_ERR_TEC - 1) (getF e Fld.CAN_ERR_REC)
      let w0 := r.msg.getD 0 0
      let data := recData 3 r.msg
      let h := if h.flag (Reg.CAN_CFG ctl) Fld.CAN_CFG_TXCONF_EN && !decide (Config.queueMore (canQueue ctl 3) < (h.can ctl).conf.length) then
          h.onCan ctl (fun x => { x with conf := x.conf ++
            [(h.clk, h.record (h.canCfg ctl Fld.CAN_CFG_TB) age false (recWord0 5 ctl w0 data.length) (recIdent r.msg) 0 data)] })
        else h
      if h.canMode ctl = 2 then h.canAccept ctl (recKind r.msg) w0 (r.msg.getD 1 0) (r.msg.getD 2 0) data age
      else (h.selfClaim ctl r.msg).emit (.canTx ctl (r.msg.take 3) data (h.fastMode ctl (recKind r.msg))
        (h.sampleAt ctl (recKind r.msg))))

/-- CAN_MODE_APPLY (R213): at bus idle the mode set takes effect. -/
def execCanModeApply (ctl : Nat) (s : State) : Res :=
  onHw s (fun h => if decide (ctl < 48) && h.flag (Reg.CAN_CFG ctl) Fld.CAN_CFG_EN && (h.can ctl).sending.isNone then
    h.setFld (Reg.CAN_STATUS ctl) Fld.CAN_STATUS_MODE_NOW (h.canCfg ctl Fld.CAN_CFG_MODE) else h)

/-- CAN_FILTER_APPLY (R217): filter writes take effect at bus idle. -/
def execCanFilterApply (ctl : Nat) (s : State) : Res :=
  onHw s (fun h =>
    if 48 ≤ ctl ∨ (h.can ctl).sending.isSome then h
    else ((h.can ctl).filt.foldl (fun a w => a.wn w.1 w.2) h).onCan ctl (fun x => { x with filt := [] }))

/-! ### The schedule matrix -/

/-- The schedule of a controller is enabled. -/
def Hw.schedOn (h : Hw) (c : Nat) : Bool := decide (c < 48) && h.flag (Reg.CAN_SCHED_CFG c) Fld.CAN_SCHED_CFG_EN

/-- A basic cycle comes into force with the pending slots and cells (R223); the instants of `start` are those of `schedRun`. -/
def Hw.beginCycle (h : Hw) (c cyc start : Nat) : Hw :=
  ((h.schedNext c).onCan c (fun x => { x with sched := [], cycle := some (cyc, start), startAt := none, stepped := false })).setFld
    (Reg.CAN_SCHED_NOW c) Fld.CAN_SCHED_NOW_CYCLE cyc

/-- CAN_SCHED_CYCLE_START (R223): matrix cycle 0 begins at the matrix start awaited; then cycle follows cycle, each once the one before
is over. On a stepped base the current cycle stands until the restart (R227). -/
def execCanSchedCycleStart (ctl : Nat) (s : State) : Res :=
  onHw s (fun h =>
    if !h.schedOn ctl || (h.can ctl).stepped then h
    else match h.nextCycle ctl with
      | none => h
      | some x => if x.2 ≤ h.schedRun ctl then h.beginCycle ctl x.1 x.2 else h)

/-- A slot's frame is offered until `until_` (R224); one that stands for the slot from an earlier cycle leaves. -/
def Hw.slotJoin (h : Hw) (c slot until_ : Nat) (msg : List Nat) : Hw :=
  h.onCan c (fun x => { x with live := x.live.filter (fun l => l.slot != some slot) ++ [⟨msg, h.clk, some slot, until_, false⟩] })

/-- CAN_SCHED_SLOT_START (R224): at START of the cycle in force a cell that names a buffer offers its frame; skipped in LISTEN_ONLY
(R213). -/
def execCanSchedSlotStart (ctl slot : Nat) (s : State) : Res :=
  onHw s (fun h =>
    let w := h.rn (Reg.CAN_SCHED_SLOT ctl slot)
    if !h.schedOn ctl || !w.testBit 31 || decide (64 ≤ slot) then h
    else match (h.can ctl).cycle with
      | none => h
      | some (k, st) =>
        let t := st + w % 2 ^ 30
        if h.schedRun ctl < t then h
        else
          let h := h.setFld (Reg.CAN_SCHED_NOW ctl) Fld.CAN_SCHED_NOW_SLOT slot
          match (h.cellOf ctl k slot).bind (h.bufferNow ctl) with
          | none => h
          | some msg =>
            if h.canMode ctl = 1 then h.inc (Reg.CAN_SCHED_SKIP ctl)
            else h.slotJoin ctl slot (t + h.rn (Reg.CAN_SCHED_WIN ctl slot) % 2 ^ 30) msg)

/-- CAN_SCHED_WINDOW_END (R224): at the end of its window a slot frame not sent is abandoned and counted. One on the bus at that instant
is counted when it leaves the bus unsent. -/
def execCanSchedWindowEnd (ctl slot : Nat) (s : State) : Res :=
  onHw s (fun h =>
    if decide (ctl < 48) && (h.can ctl).live.any (fun l => l.slot == some slot && decide (l.until_ ≤ h.schedRun ctl)) then
      let h := h.onCan ctl (fun x => { x with live := x.live.filter (fun l => l.slot != some slot) })
      if (match (h.can ctl).sending with | some r => r.slot == some slot | none => false) then h else h.schedMiss ctl slot
    else h)

/-- CAN_SCHED_RESTART (R227): at the first matrix start computed on the stepped time. -/
def execCanSchedRestart (ctl : Nat) (s : State) : Res :=
  onHw s (fun h =>
    if h.schedOn ctl && (h.can ctl).stepped && (h.can ctl).startAt.all (fun t => decide (t ≤ h.schedNow ctl)) then
      (h.beginCycle ctl 0 (h.schedAt ctl ((h.can ctl).startAt.getD (h.schedNow ctl)))).inc (Reg.CAN_SCHED_RESTART ctl)
    else h)

end Sys2Proof.Machine
end

