-- ==== Sys2Proof/Machine/HostReg.lean ====
section
/-!
DEFINITION. Host register accesses (R6 to R13, R202, R478 to R483, R513): what a read returns and changes, what a write does.
-/
namespace Sys2Proof.Machine

/-! ### Values computed at a read -/

/-- Counts the forwarding unit shows (R83, R96, R117). -/
def Hw.viewFwd (h : Hw) (r : Nat) : Option Nat :=
  if r = Reg.FWD_EM_COUNT then some h.fwd.em.length
  else if r = Reg.FWD_STATUS then
    some (putF (h.rn r) Fld.FWD_STATUS_STASH_USED (h.fwd.em.filter (fun e => decide (stashBase ≤ e.1))).length)
  else if Reg.FWD_PORT_LEARNED 0 ≤ r ∧ r < Reg.FWD_PORT_LEARNED 32 then some (h.portLearned ((r - Reg.FWD_PORT_LEARNED 0) / 4))
  else none

/-- Counts the switch core shows (R30, R40, R513). -/
def Hw.viewSwc (h : Hw) (r : Nat) : Option Nat :=
  if r = Reg.SWC_FREE_CELLS then some h.freeCells
  else if r = Reg.SWC_FREE_DESC then
    some (if h.flag Reg.SWC_STATUS Fld.SWC_STATUS_READY then 131072 - (h.swc.frames.filter (fun f => !f.dead)).length else 0)
  else if Reg.SWC_VOQ_DEPTH 0 ≤ r ∧ r < Reg.SWC_VOQ_DEPTH 8192 then some (h.voqDepth ((r - Reg.SWC_VOQ_DEPTH 0) / 4))
  else none

/-- TSS_GCL_DATA (R146): the entry TSS_GCL_INDEX selects. -/
def Hw.gclData (h : Hw) : Nat :=
  let i := h.rn Reg.TSS_GCL_INDEX
  let list := getF i Fld.TSS_GCL_INDEX_LIST
  let bank := getF i Fld.TSS_GCL_INDEX_BANK
  let key := if getF i Fld.TSS_GCL_INDEX_SLUICE = 1 then 100 + 2 * list + bank else 2 * list + bank
  if getF i Fld.TSS_GCL_INDEX_SLUICE = 0 ∧ 24 ≤ list then 0
  else match kvGet h.tss.lists key with
    | some l => l.entries.getD (getF i Fld.TSS_GCL_INDEX_ENTRY) 0
    | none => 0

/-- TIME registers as a function reads them (R280, R286, R287, R293). -/
def Hw.viewTime (h : Hw) (fn r : Nat) : Option Nat :=
  if 0x200100 ≤ r ∧ r < 0x200500 then
    let b := (r - 0x200100) / 0x80
    let sh := kvGetD h.tim.shadow (fn * 8 + b) (0, 0)
    match r % 0x80 with
    | 0 => some (h.tbNs b % 1000000000)
    | 4 => some (sh.1 % 2 ^ 32)
    | 8 => some (sh.1 / 2 ^ 32 % 2 ^ 16)
    | 12 => some sh.2
    | _ => none
  else if 0x200A00 ≤ r ∧ r < 0x200B00 then
    let q := h.capFifo ((r - 0x200A00) / 0x20)
    let x := q.headD (0, 0)
    match r % 0x20 with
    | 4 => some (x.1 % 2 ^ 32)
    | 8 => some x.2
    | 12 => some (putF (putF (h.rn r) Fld.TIME_CAP_STATUS_ENTRIES q.length) Fld.TIME_CAP_STATUS_SEC_HI (x.1 / 2 ^ 32))
    | _ => none
  else if 0x200C00 ≤ r ∧ r < 0x200D80 then some (h.txtsWord fn ((r - 0x200C00) / 16) (r % 16 / 4))
  else if 0x200D80 ≤ r ∧ r < 0x200DE0 then
    let mac := (r - 0x200D80) / 4
    some (if h.txtsSees fn mac then putF (h.rn r) Fld.TIME_TXTS_STATUS_ENTRIES (kvGetD h.tim.txts mac []).length else 0)
  else if 0x200E00 ≤ r ∧ r < 0x200E60 then some (if h.txtsSees fn ((r - 0x200E00) / 4) then h.rn r else 0)
  else none

/-- Fieldbus registers (R240, R241, R243, R248, R273). -/
def Hw.viewFbus (h : Hw) (r : Nat) : Option Nat :=
  if 0x180000 ≤ r ∧ r < 0x1B0000 ∧ r % 0x1000 = 0 then
    some (putF (h.rn r) Fld.CAN_STATUS_TXQ_DEPTH (h.can ((r - 0x180000) / 0x1000)).txq.length)
  else if 0x1B8000 ≤ r ∧ r < 0x1B8400 ∧ r % 16 = 4 then
    let x := h.rill ((r - 0x1B8000) / 16)
    some (x.used * 2 ^ 16 + x.pkts.length)
  else if 0x1B8000 ≤ r ∧ r < 0x1B8400 ∧ r % 16 = 8 then some (h.rillTag ((r - 0x1B8000) / 16))
  else if 0x1B9000 ≤ r ∧ r < 0x1BA000 then some (h.rillItem ((r - 0x1B9000) / 64) (r % 64 / 4))
  else if r = Reg.BRG_STATUS then some (putF (h.rn r) Fld.BRG_STATUS_TP_OPEN h.brg.sess.length)
  else if r = Reg.BRG_RULES_USED then some (h.brg.rules.filter (fun (e : Nat × List Nat) => bit (e.2.getD 0 0) 31 || bit (e.2.getD 0 0) 29)).length
  else if r = Reg.FBUS_STATUS then
    some (putF (h.rn r) Fld.FBUS_STATUS_WAKE_READY (if h.pg 1 && h.pg 3 then 1 else 0))
  else none

/-- The value a register computes at a read, if it computes one. -/
def Hw.viewReg (h : Hw) (fn r : Nat) : Option Nat :=
  match r / 0x40000 with
  | 1 => if r = Reg.HDMA_RD_INFLIGHT then some h.rdInflight else none
  | 2 => h.viewSwc r
  | 3 => h.viewFwd r
  | 4 => if r = Reg.TSS_GCL_DATA then some h.gclData else none
  | 5 =>
    let m := (r - 0x140000) / 0x1000
    if r % 0x1000 = 0x800 ∧ r < 0x158000 then some (kvGetD h.mac.rxOct m 0 % 2 ^ 32)
    else if r % 0x1000 = 0x830 ∧ r < 0x158000 then some (kvGetD h.mac.txOct m 0 % 2 ^ 32) else none
  | 6 => h.viewFbus r
  | 8 => h.viewTime fn r
  | 9 => if r = Reg.SEC_JOB_ACTIVE then some (h.sec.jobs.length + h.resultsHeld.length) else none
  | _ => none

/-- The value a host reads from a register: 0 where there is none (R9) and from hidden registers (R10, R480). -/
def Hw.hostValue (h : Hw) (fn r : Nat) : Nat :=
  match findReg r with
  | none => 0
  | some d => if d.hid then 0 else (h.viewReg fn r).getD (h.rn r)

/-! ### Side effects of a read -/

/-- A read of an RC register clears it (R10), or restarts it at what hardware adds in the same cycle (R12). -/
def Hw.rcRead (h : Hw) (r incr : Nat) : Hw := h.wn r incr

/-- SWC_MMQ_PEAK restarts at the USED of its quota (R513). -/
def Hw.peakRead (h : Hw) (r : Nat) : Hw := h.wn r (h.mmqUsed ((r - Reg.SWC_MMQ_PEAK 0) / 4))

/-- A LO read of an octet counter copies bits 63:32 into HI and clears the counter (R202); octets of the same cycle restart it. -/
def Hw.octetsRead (h : Hw) (r incr : Nat) : Hw :=
  let m := (r - 0x140000) / 0x1000
  let rx := r % 0x1000 == 0x800
  let v := kvGetD (if rx then h.mac.rxOct else h.mac.txOct) m 0
  let h := h.wn (r + 4) (v / 2 ^ 32)
  h.onMac (fun x => if rx then { x with rxOct := kvPut x.rxOct m incr } else { x with txOct := kvPut x.txOct m incr })

/-- The register is the LO word of an octet counter. -/
def isOctetsLo (r : Nat) : Bool :=
  decide (0x140000 ≤ r) && decide (r < 0x158000) && (r % 0x1000 == 0x800 || r % 0x1000 == 0x830)

/-- The register is SWC_MMQ_PEAK. -/
def isPeak (r : Nat) : Bool := decide (Reg.SWC_MMQ_PEAK 0 ≤ r) && decide (r < Reg.SWC_MMQ_PEAK 128)

/-- What a read of a register changes (R7): counters cleared, copies taken, entries popped. A doorbell read is rung by the
caller, which needs its result. -/
def Hw.readEffect (h : Hw) (fn r incr : Nat) : Hw :=
  if isPeak r then h.peakRead r
  else if isOctetsLo r then h.octetsRead r incr
  else if 0x200100 ≤ r ∧ r < 0x200500 ∧ r % 0x80 = 0 then (h.readTbNs fn ((r - 0x200100) / 0x80)).2
  else if 0x200C00 ≤ r ∧ r < 0x200D80 ∧ r % 16 = 12 then h.txtsPop fn ((r - 0x200C00) / 16)
  else if 0x200A00 ≤ r ∧ r < 0x200B00 ∧ r % 0x20 = 8 then h.capPop ((r - 0x200A00) / 0x20)
  else if 0x1B9000 ≤ r ∧ r < 0x1BA000 ∧ r % 64 = 0x3C then h.rillPop ((r - 0x1B9000) / 64)
  else if 0x200E00 ≤ r ∧ r < 0x200E60 ∧ !h.txtsSees fn ((r - 0x200E00) / 4) then h
  else match findReg r with
    | some d => if d.rc then h.rcRead r incr else h
    | none => h

/-- A host read of a word, whole or partial (R7): the word is read with every side effect, the selected bytes return. -/
def Hw.hostRead (h : Hw) (fn off en incr : Nat) : Hw :=
  match h.hostAt fn (off / 4 * 4) with
  | .nowhere => h.answer off en 0
  | .vfOwner => h.answer off en (fnOwner fn)
  | .slotRam b => h.answer off en (h.slotWord (fnOwner fn) 0 (b / 4))
  | .msixTable b => h.answer off en (if b / 16 < h.vectorCount (fnOwner fn) then h.msixWord (fnOwner fn) (b / 4) else 0)
  | .msixPba b => h.answer off en (h.pbaWord (fnOwner fn) (b / 4))
  | .aperture v b => h.apertureAccess v b 0 en 0
  | .reg r =>
    if 0x10000000 ≤ r ∧ r % 256 < 0x80 then
      let o := (r - 0x10000000) / 256
      let x := h.ringSlot o (r % 256 / 4)
      x.2.answer off en ((x.2.inFlight o).length * 256 + x.1)
    else (h.answer off en (h.hostValue fn r)).readEffect fn r incr

/-- A host read of any width and alignment (R7): the words it touches are read one after another in ascending order; `incr` is what
hardware adds to an RC counter in the first word in the same cycle. -/
def Hw.hostReads (h : Hw) (fn off en incr : Nat) : Hw :=
  (touched en).foldl (fun a k => a.hostRead fn (off / 4 * 4 + 4 * k) (en / 16 ^ k % 16) (if k = 0 then incr else 0)) h

/-- RC_COUNTER_READ (R7, R10, R12): a host read. -/
def execRcCounterRead (fn off en incr : Nat) (s : State) : Res := onHw s (fun h => h.hostReads fn off en incr)

/-- MMQ_PEAK_READ (R513). -/
def execMmqPeakRead (fn off en : Nat) (s : State) : Res :=
  onHw s (fun h => match h.hostReg fn off with
    | some r => if isPeak r then (h.answer off en (h.rn r)).peakRead r else h
    | none => h)

/-- OCTETS_LO_READ (R202). -/
def execOctetsLoRead (fn off en : Nat) (s : State) : Res :=
  onHw s (fun h => match h.hostReg fn off with
    | some r => if isOctetsLo r then (h.answer off en (h.hostValue fn r)).octetsRead r 0 else h
    | none => h)

/-! ### Writes -/

/-- A full write of a register by its access codes (R10, R11): RW bits take the value, W1C bits written 1 clear unless hardware
sets them in the same cycle, the rest keeps. -/
def Hw.plainWrite (h : Hw) (fn r val hwSet : Nat) : Hw :=
  match findReg r with
  | none => h
  | some d => if d.hid || (decide (0x200D80 ≤ r) && decide (r < 0x200DE0) && !h.txtsSees fn ((r - 0x200D80) / 4)) then h else
    let old := h.rn r
    let v := (old &&& (0xFFFFFFFF ^^^ d.rw)) ||| (val &&& d.rw)
    h.wn r ((v ^^^ (v &&& (val &&& d.w1c))) ||| (hwSet &&& d.w1c))

/-- A full write of a register, which an action may follow. -/
def Hw.regWrite (h : Hw) (fn r val hwSet : Nat) : Hw :=
  if 0x10000000 ≤ r then
    (if r % 256 = 0x80 then h.abortSlot ((r - 0x10000000) / 256) (val % 32) else h.plainWrite fn r val hwSet)
  else if 0x20000 ≤ r ∧ r < 0x40000 then
    let o := evqOwnerOf r
    match r % 256 with
    | 0x00 => h.evqCtrlWrite o val
    | 0x14 => h.evqConsWrite o val
    | _ => h.plainWrite fn r val hwSet
  else if 0x60000 ≤ r ∧ r < 0x80000 then h.qWrite r val
  else if 0x200100 ≤ r ∧ r < 0x200500 ∧ r % 0x80 = 0x44 then
    h.timeHost fn ((r - 0x200100) / 0x80) (getF val Fld.TIME_TB_CMD_OP) (getF val Fld.TIME_TB_CMD_NEG == 1)
  else h.plainWrite fn r val hwSet

/-- A host write of a word (R7, R9): a partial write is discarded. -/
def Hw.hostWrite (h : Hw) (fn off en val hwSet : Nat) : Hw :=
  if en ≠ 15 then h
  else match h.hostAt fn (off / 4 * 4) with
    | .nowhere => h
    | .vfOwner => h
    | .slotRam b => h.slotRamWrite (fnOwner fn) (b / 4) val none
    | .msixTable b => h.msixWrite (fnOwner fn) (b / 4) val
    | .msixPba _ => h
    | .aperture v b => h.apertureAccess v b 1 en val
    | .reg r => h.regWrite fn r (val % 2 ^ 32) hwSet

/-- A host write of any width and alignment (R7): 32 bits or 64 bits, 4-byte aligned, are written word by word in ascending order; the
partial accesses of any other are discarded. -/
def Hw.hostWrites (h : Hw) (fn off en val : Nat) : Hw :=
  if en = 255 then (h.hostWrite fn off 15 (val % 2 ^ 32) 0).hostWrite fn (off / 4 * 4 + 4) 15 (val / 2 ^ 32) 0
  else h.hostWrite fn off en val 0

/-- REGISTER_WRITE (R7, R10). -/
def execRegisterWrite (fn off en val : Nat) (s : State) : Res := onHw s (fun h => h.hostWrites fn off en val)

/-- W1C_WRITE (R11): `hwSet` are the bits hardware sets in the same cycle. -/
def execW1cWrite (fn off en val hwSet : Nat) (s : State) : Res :=
  onHw s (fun h => match h.hostReg fn off with
    | some r => match findReg r with
      | some d => if d.w1c ≠ 0 then
          (if en = 15 then h.plainWrite fn r (val % 2 ^ 32) hwSet else h.plainWrite fn r 0 hwSet) else h
      | none => h
    | none => h)

end Sys2Proof.Machine
end

