-- ==== Sys2Proof/Machine/Queues.lean ====
section
/-!
DEFINITION. The hardware queues by their numbers (R30, R31, R205, R271, R175): what each holds, the queue sampler (R140), and the reset
of one (R14).
-/
namespace Sys2Proof.Machine

/-! ### What a queue holds -/

/-- Entries of a queue, and the cycles its head has waited for. -/
structure QueueView where
  depth : Nat
  wait  : Nat

/-- An empty queue. -/
def QueueView.empty : QueueView := ⟨0, 0⟩

/-- The view of entries that came in in these cycles, oldest first. -/
def Hw.viewTimes (h : Hw) (l : List Nat) : QueueView := ⟨l.length, h.clk - l.headD h.clk⟩

/-- VOQs: cells (R140); the head is the oldest frame. -/
def Hw.voqView (h : Hw) (q : Nat) : QueueView :=
  match h.swc.frames.find? (fun f => f.ingress == q / 256 && f.cls == q % 8 && f.waitsAt (q / 8 % 32)) with
  | some f => ⟨h.voqDepth q, h.waited f.arrival⟩
  | none => .empty

/-- Host DMA queues: the pending list of the receive ring (R317); an inactive owner's are empty (R31). -/
def Hw.hostView (h : Hw) (q : Nat) : QueueView :=
  if !h.queuesLive ((q - 8192) / 8) || decide (q < 8208) || decide (10256 ≤ q) then .empty
  else
    let l := (h.ringAt (q - 8208)).pend
    match l with
    | [] => .empty
    | p :: _ => match p.frame.bind h.frame? with
      | some f => ⟨l.length, h.waited f.arrival⟩
      | none => ⟨l.length, h.clk - p.at_⟩

/-- CAN controller queues (R205). -/
def Hw.canView (h : Hw) (c k : Nat) : QueueView :=
  let x := h.can c
  match k with
  | 0 => h.viewTimes (x.rx0.map (·.1))
  | 1 => h.viewTimes (x.rx1.map (·.1))
  | 2 => h.viewTimes (x.txq.map (·.at_))
  | 3 => h.viewTimes (x.conf.map (·.1))
  | 4 => h.viewTimes (x.errq.map (·.1))
  | _ => .empty

/-- LIN controller queues (R205): publish buffers take their updates at once, and firmware its records (DESIGN CHOICE, log entry 163). -/
def Hw.linView (h : Hw) (l k : Nat) : QueueView :=
  match k with
  | 0 => h.viewTimes ((h.lin l).rxq.map (·.1))
  | 1 => h.viewTimes ((h.lin l).diag.map (·.1))
  | _ => .empty

/-- Bridge queues (R271): the messages of a batch, records of an inbound tunnel, records whose signals are not applied yet; firmware takes
its records at once (DESIGN CHOICE, log entry 163). -/
def Hw.brgView (h : Hw) (k : Nat) : QueueView :=
  if k < 32 then match kvGet h.brg.batch k with
    | some b => ⟨b.count, h.clk - b.at_⟩
    | none => .empty
  else if k < 64 then h.viewTimes ((kvGetD h.brg.acf (k + 32) []).map (·.1))
  else if k = 66 then h.viewTimes (h.brg.sig.map (·.1))
  else .empty

/-- Learning messages, mirror copies and loss records; messages from the cascade are taken at once. -/
def Hw.miscView (h : Hw) (q : Nat) : QueueView :=
  match q with
  | 14872 => h.viewTimes (h.fwd.lagB.map (·.1))
  | 14873 => h.viewTimes (h.fwd.lagA.map (·.1))
  | 14874 => h.viewTimes (h.fwd.batch.map (·.1))
  | 14878 => h.viewTimes (h.swc.lossQ.map (·.1))
  | _ => h.viewTimes ((h.swc.samples.filter (fun s => s.queue == q)).map (·.at_))

/-- Queues of a watched stream (R175): verdict records, notices, what its ring stages; a readout goes straight to its ring. -/
def Hw.vieView (h : Hw) (s k : Nat) : QueueView :=
  match k with
  | 0 => h.viewTimes (((kvGet h.vie.s s).map (fun v => v.recs.map (·.1))).getD [])
  | 1 => h.viewTimes (((kvGetD h.swc.srcWait 28 []).filter (fun f => f.vie == some s)).map (·.at_))
  | 2 => h.viewTimes (((h.ringOf s).bind (fun r => (kvGet h.vie.ring r).map (·.times))).getD [])
  | _ => .empty

/-- A queue by its number (R30). -/
def Hw.queueView (h : Hw) (q : Nat) : QueueView :=
  if q < 8192 then h.voqView q
  else if q < 12288 then h.hostView q
  else if q < 13824 then h.canView ((q - 12288) / 32) (q % 32)
  else if q < 14080 then h.linView ((q - 13824) / 16) (q % 16)
  else if q < 14336 then h.brgView (q - 14080)
  else if q < 14848 then
    if h.queuesLive (q - 14336) then h.viewTimes (kvGetD h.evq.times (q - 14336) []) else .empty
  else if q < 14872 then h.viewTimes ((kvGetD h.tim.txts (q - 14848) []).map (·.at_))
  else if q < 14880 then h.miscView q
  else if q < 15136 then h.viewTimes ((kvGet h.sec.jobs (q - 14880)).map (·.at_)).toList
  else if 15360 ≤ q ∧ q < 16384 then h.vieView ((q - 15360) / 16) (q % 16)
  else .empty

/-! ### The queue sampler (R140) -/

/-- One record of a sweep. -/
def Hw.sampleQueue (h : Hw) (sweep start q : Nat) : List Nat :=
  let v := h.queueView q
  [sweep % 65536 * 65536 + q, v.depth, if v.depth = 0 then 0 else min (v.wait * 2) 0xFFFFFFFF, start]

/-- A list's interval has passed since its last sweep began. -/
def Hw.sweepDue (h : Hw) (list : Nat) : Bool :=
  (kvGet h.tss.sweepAt list).all (fun t => decide (t + h.fld (Reg.TSS_QS_CFG list) Fld.TSS_QS_CFG_INTERVAL * 500 ≤ h.clk))

/-- The queues of a list. -/
def Hw.sweepList (h : Hw) (list : Nat) : List Nat :=
  (((List.range 256).map (fun i => h.rn (Reg.TSS_QS_LIST list i))).filter (fun w => getF w Fld.TSS_QS_LIST_VALID == 1)).map
    (getF · Fld.TSS_QS_LIST_QUEUE)

/-- QSAMPLER_SWEEP (R140): a list is swept; whole to its queue, or skipped and counted. -/
def execQsamplerSweep (list : Nat) (descs : List (List Nat)) (s : State) : Res :=
  onHw s (fun h =>
    let cfg := h.rn (Reg.TSS_QS_CFG list)
    if 4 ≤ list ∨ getF cfg Fld.TSS_QS_CFG_EN = 0 ∨ h.sweepDue list = false then h
    else
      let n := kvGetD h.tss.sweep list 0
      let start := h.tbNs (getF cfg Fld.TSS_QS_CFG_TB) % 2 ^ 32
      let recs := (h.sweepList list).flatMap (h.sampleQueue n start)
      let h := h.onTss (fun t => { t with sweep := kvPut t.sweep list ((n + 1) % 65536), sweepAt := kvPut t.sweepAt list h.clk })
      let ring := getF cfg Fld.TSS_QS_CFG_DEST - 8208
      match (if (h.ringAt ring).pend.isEmpty then h.rxWrite ring 3 0 ⟨bytesOf recs, 0, 0, 0, 0⟩ descs else none) with
      | some (h', _) => h'
      | none => h.inc (Reg.TSS_QS_SKIP list))

/-! ### Resets (R14) -/

/-- A VOQ is emptied: its frames lose that egress. -/
def Hw.emptyVoq (h : Hw) (q : Nat) : Hw :=
  let e := q / 8 % 32
  (h.swc.frames.filter (fun f => f.ingress == q / 256 && f.cls == q % 8 && f.waitsAt e)).foldl (fun a f => a.release f.id e) h

/-- A host DMA queue is emptied: descriptors are flushed, what waits for the receive ring is discarded. -/
def Hw.emptyHost (h : Hw) (q : Nat) : Hw :=
  if q < 8208 ∨ 10256 ≤ q then h
  else
    let r := q - 8208
    let h := if h.txEn r then h.txFlush r else h
    let h := ((h.ringAt r).pend ++ (h.ringAt r).head).foldl (fun a p => a.dropRef p) h
    (h.onRingAt r (fun x => { x with pend := [], head := [] })).showRing r

/-- A queue of a CAN controller is emptied. -/
def CanC.emptied (x : CanC) (k : Nat) : CanC :=
  match k with
  | 0 => { x with rx0 := [], lock0 := false }
  | 1 => { x with rx1 := [], lock1 := false }
  | 2 => { x with txq := [] }
  | 3 => { x with conf := [] }
  | 4 => { x with errq := [] }
  | _ => x

/-- A queue of a LIN controller is emptied. -/
def LinC.emptied (x : LinC) (k : Nat) : LinC :=
  match k with
  | 0 => { x with rxq := [] }
  | 1 => { x with diag := [] }
  | _ => x

/-- A bridge queue is emptied. -/
def Brg.emptied (b : Brg) (k : Nat) : Brg :=
  if k < 32 then { b with batch := kvDel b.batch k }
  else if k < 64 then { b with acf := kvDel b.acf (k + 32) }
  else if k = 66 then { b with sig := [] }
  else b

/-- An owner's event queue is emptied: nothing staged, nothing left to consume. -/
def Hw.emptyEvents (h : Hw) (o : Nat) : Hw :=
  (h.onEvq (fun q => { q with staging := q.staging.filter (fun r => r.owner != o), times := kvDel q.times o })).wn (Reg.EVQ_CONS o)
    (h.rn (Reg.EVQ_PROD o))

/-- Learning, mirror and loss queues are emptied. -/
def Hw.emptyMisc (h : Hw) (q : Nat) : Hw :=
  match q with
  | 14872 => { h with fwd := { h.fwd with lagB := [] } }
  | 14873 => { h with fwd := { h.fwd with lagA := [] } }
  | 14874 => { h with fwd := { h.fwd with batch := [] } }
  | 14878 => h.onSwc (fun s => { s with lossQ := [] })
  | _ => (h.swc.samples.filter (fun s => s.queue == q)).foldl (fun a s => a.dropSample s.cell) h

/-- A queue of a watched stream is emptied. -/
def Hw.emptyVie (h : Hw) (s k : Nat) : Hw :=
  match k with
  | 0 => h.onVie (fun v => { v with s := v.s.map (fun (x : Nat × VieS) => if x.1 == s then (x.1, dropRecs x.2) else x) })
  | 1 => h.onSwc (fun w => { w with srcWait := w.srcWait.map (fun (x : Nat × List SrcFrame) =>
      if x.1 == 28 then (x.1, x.2.filter (fun f => f.vie != some s)) else x) })
  | 2 => match h.ringOf s with
    | some r => h.onRing r RsvRing.unstage
    | none => h
  | _ => h

/-- A hardware queue is reset: it is empty (R14; DESIGN CHOICE, log entry 163). -/
def Hw.resetQueue (h : Hw) (q : Nat) : Hw :=
  if q < 8192 then h.emptyVoq q
  else if q < 12288 then h.emptyHost q
  else if q < 13824 then h.onCan ((q - 12288) / 32) (·.emptied (q % 32))
  else if q < 14080 then h.onLin ((q - 13824) / 16) (·.emptied (q % 16))
  else if q < 14336 then h.onBrg (·.emptied (q - 14080))
  else if q < 14848 then h.emptyEvents (q - 14336)
  else if q < 14872 then h.onTime (fun t => { t with txts := kvDel t.txts (q - 14848) })
  else if q < 14880 then h.emptyMisc q
  else if q < 15136 then h.onSec (fun x => { x with jobs := kvDel x.jobs (q - 14880) })
  else if 15360 ≤ q ∧ q < 16384 then h.emptyVie ((q - 15360) / 16) (q % 16)
  else h

end Sys2Proof.Machine
end

