-- ==== Sys2Proof/Machine/Sbb.lean ====
section
/-!
DEFINITION. The rows of the sideband bridge (R417 to R429) and of its lines, and EVF_SW_FIRE (R477).
-/
namespace Sys2Proof.Machine

/-- A GO write of REQ_CTRL with the operation a row names. -/
def Hw.goWrite (h : Hw) (op slot addr word ctrl : Nat) (data : List Byte) : Hw :=
  if slot < 16 ∧ h.pg 48 then
    h.sbbGo slot addr word (putF (putF ctrl Fld.SBB_REQ_CTRL_OP op) Fld.SBB_REQ_CTRL_GO 1) data none
  else h

/-- SBB_GO_READ (R419). -/
def execSbbGoRead (slot addr ctrl : Nat) (s : State) : Res := onHw s (fun h => h.goWrite 0 slot addr 0 ctrl [])

/-- SBB_GO_WRITE (R419): `data` is in REQ_DATA up to four bytes, in the slot's buffer beyond. -/
def execSbbGoWrite (slot addr ctrl : Nat) (data : List Byte) (s : State) : Res :=
  onHw s (fun h => h.goWrite 1 slot addr (if data.length ≤ 4 then le data else h.rn (Reg.SBB_REQ_DATA slot)) ctrl data)

/-- SBB_GO_RMW (R419): `word` is REQ_DATA, MASK and VALUE. -/
def execSbbGoRmw (slot addr word ctrl : Nat) (s : State) : Res := onHw s (fun h => h.goWrite 2 slot addr word ctrl [])

/-- SBB_CANCEL (R426). -/
def execSbbCancel (slot : Nat) (s : State) : Res := onHw s (fun h => h.sbbCancel slot)

/-- The next request of a far-bus sequence goes into the slot (DIAG_SBB_SEQ). -/
def Hw.sbbFollow (h : Hw) (slot : Nat) (serves : Option Nat) : Hw :=
  match serves with
  | none => h
  | some k => match kvGetD h.sbb.seqs k [] with
    | [] => h
    | q :: qs =>
      let h := h.onSbb (fun b => { b with seqs := kvPut b.seqs k qs })
      h.sbbGo slot (q.getD 0 0) (q.getD 1 0) (q.getD 2 0) (toLe 4 (q.getD 1 0)) (some k)

/-- SBB_SLOT_RESP_READ (R420). -/
def execSbbSlotRespRead (slot : Nat) (s : State) : Res :=
  onHw s (fun h => match kvGet h.sbb.tx slot with
    | none => h.emit (.sbbResp slot 0)
    | some t =>
      if t.phase = 4 then (h.sbbRespond slot t).sbbFollow slot t.serves
      else h.onTx slot (fun x => { x with hold := some h.clk }))

/-- SBB_HOLD_EXPIRE (R420): 4 µs after it began the held read returns RETRY. -/
def execSbbHoldExpire (slot : Nat) (s : State) : Res :=
  onHw s (fun h => match kvGet h.sbb.tx slot with
    | none => h
    | some t => match t.hold with
      | none => h
      | some c =>
        if h.clk < c + 2000 then h
        else ((h.onTx slot (fun x => { x with hold := none })).inc Reg.SBB_RETRY_RESP).emit (.sbbResp slot (2 ^ 62)))

/-- The register an OP 2 writes back (R419). -/
def rmwValue (word : Nat) (read : Nat) : Nat :=
  let m := word / 65536 % 65536
  (read % 65536 &&& (65535 - m)) ||| (word % 65536 &&& m)

/-- A piece ends while its transaction stands as it was sent. -/
def Hw.pieceEnd (h : Hw) (slot code n : Nat) (data : List Byte) (t : SbbTx) : Hw :=
  let add (x : SbbTx) : SbbTx := { x with done := x.done + n, got := x.got ++ data }
  if code = 0 then
    let h := h.onTx slot add
    let h := if t.op = 2 then h.emit (.farBus t.chan 1 t.addr t.reg (toLe 2 (rmwValue t.word (le (data.take 2))))) else h
    if isI2c t.chan && t.op == 1 && h.fld (Reg.SBB_CHAN_TIMING t.chan) Fld.SBB_CHAN_TIMING_WR_CYCLE_MS != 0 then
      h.onTx slot (fun x => { x with phase := 3, since := h.clk })
    else h.sbbAdvance slot
  else if (code = 1 ∨ code = 3) ∧ isI2c t.chan ∧ t.tries ≤ h.sbbRetries t then h.onTx slot (fun x => { x with phase := 2, since := h.clk })
  else ((h.onTx slot add).sbbFinish slot code).sbbStart t.chan

/-- The end of a piece with a code completes the transfer. -/
def Hw.pieceLast (h : Hw) (code : Nat) (t : SbbTx) : Bool :=
  if code = 0 then
    (t.left.drop 1).isEmpty &&
      !(isI2c t.chan && t.op == 1 && h.fld (Reg.SBB_CHAN_TIMING t.chan) Fld.SBB_CHAN_TIMING_WR_CYCLE_MS != 0)
  else !((code == 1 || code == 3) && isI2c t.chan && decide (t.tries ≤ h.sbbRetries t))

/-- SBB_PIECE_COMPLETE (R422, R424, R426): a piece ends with a code after `n` acknowledged bytes; `sdaLow` when SDA stays low after
the recovery clocks. After a cancel it is the safe point: the transfer ends CANCELLED, unless it completes in the very cycle of the cancel. -/
def execSbbPieceComplete (slot code n : Nat) (data : List Byte) (sdaLow : Bool) (s : State) : Res :=
  onHw s (fun h => match kvGet h.sbb.tx slot with
    | none => h
    | some t =>
      if t.phase ≠ 1 then h
      else if sdaLow && isI2c t.chan then
        (h.onTx slot (fun x => { x with done := x.done + n })).chanFaults t.chan
      else if t.cancel.isSome && !(t.cancel == some h.clk && h.pieceLast code t) then
        let h := h.onTx slot (fun x => { x with done := x.done + n })
        let h := if data.isEmpty then h else (h.inc Reg.SBB_LATE).lateResult 1
        (h.sbbFinish slot 6).sbbStart t.chan
      else h.pieceEnd slot code n data t)

/-- SBB_RETRY_GAP_EXPIRE (R424): RETRY_GAP_US has passed since the attempt ended. -/
def execSbbRetryGapExpire (slot : Nat) (s : State) : Res :=
  onHw s (fun h => match kvGet h.sbb.tx slot with
    | none => h
    | some t =>
      if t.phase = 2 ∧ t.since + h.fld (Reg.SBB_CHAN_TIMING t.chan) Fld.SBB_CHAN_TIMING_RETRY_GAP_US * 500 ≤ h.clk then (h.onTx slot (fun x => { x with phase := 1, tries := x.tries + 1 })).sbbPiece t
      else h)

/-- SBB_WRITE_POLL (R422): the device acknowledges its address, or WR_CYCLE_MS has passed. -/
def execSbbWritePoll (slot : Nat) (acked : Bool) (s : State) : Res :=
  onHw s (fun h => match kvGet h.sbb.tx slot with
    | none => h
    | some t =>
      if t.phase ≠ 3 then h
      else if acked then h.sbbAdvance slot
      else if h.clk < t.since + h.fld (Reg.SBB_CHAN_TIMING t.chan) Fld.SBB_CHAN_TIMING_WR_CYCLE_MS * 500000 then h
      else (h.sbbFinish slot 1).sbbStart t.chan)

/-- SBB_LOCK_TIMEOUT (R423): the lock of a channel ends, LOCK_MAX after its locking request completed; the slot's next response, or the one in flight, reports it. -/
def execSbbLockTimeout (chan : Nat) (s : State) : Res :=
  onHw s (fun h => match kvGet h.sbb.lock chan with
    | none => h
    | some (slot, c) =>
      if h.clk < c + h.fld (Reg.SBB_CHAN_TIMING chan) Fld.SBB_CHAN_TIMING_LOCK_MAX * 50000 then h
      else ((h.onSbb (fun b => { b with lock := kvDel b.lock chan, expired := insertNew b.expired slot })).emit (.farBusEnd chan)).sbbStart
        chan)

/-- SBB_CHAN_REWRITE (R424, R425): firmware rewrites a channel's settings, refusing any under which a DIAG request could
take 10 ms; FAULT clears when SDA is found high. -/
def execSbbChanRewrite (chan cfg timing : Nat) (sdaHigh : Bool) (s : State) : Res :=
  onHw s (fun h =>
    if chan < 12 ∧ h.pg 48 then
      let old := h
      let h := (h.image (Reg.SBB_CHAN_CFG chan) 0xFFF0FFFF cfg).wn (Reg.SBB_CHAN_TIMING chan) timing
      if (h.worstBudgets chan).any (fun b => decide (10000000 ≤ b)) then old else
      let f := h.fld Reg.SBB_STATUS Fld.SBB_STATUS_CHAN_FAULT
      let h := if sdaHigh && f.testBit chan then h.setFld Reg.SBB_STATUS Fld.SBB_STATUS_CHAN_FAULT (f - 2 ^ chan) else h
      h.sbbStart chan
    else h)

/-! ### GPIO and rails -/

/-- GPIO_TASK (R428): a run of GPIO task `k` acts on its line. -/
def execGpioTask (k : Nat) (s : State) : Res :=
  onHw s (fun h =>
    if k < 16 then h.serveTask (8 + k) (fun h r =>
      let c := h.rn (Reg.SBB_GPIO_TASK k)
      let n := getF c Fld.SBB_GPIO_TASK_LINE
      if getF c Fld.SBB_GPIO_TASK_EN = 1 ∧ n < 48 ∧ h.flag Reg.SBB_STATUS Fld.SBB_STATUS_READY then
        let h := h.lateBy r 1000
        match getF c Fld.SBB_GPIO_TASK_ACTION with
        | 0 => h.gpioDrive n (some true)
        | 1 => h.gpioDrive n (some false)
        | 2 => h.gpioDrive n none
        | _ => h
      else h)
    else h)

/-- RAIL_FAULT (R429): a rail that is on loses power-good, or has not had it PG_TIMEOUT_MS after its enable. -/
def execRailFault (rail : Nat) (s : State) : Res :=
  onHw s (fun h =>
    let pg := h.flag (Reg.SBB_RAIL_CFG rail) Fld.SBB_RAIL_CFG_PG
    let late := decide (kvGetD h.sbb.railAt rail 0 + h.fld (Reg.SBB_RAIL_CFG rail) Fld.SBB_RAIL_CFG_PG_TIMEOUT_MS * 500000 ≤ h.clk)
    if rail < 12 ∧ h.flag (Reg.SBB_RAIL_CFG rail) Fld.SBB_RAIL_CFG_ON ∧ (pg || late) then h.railFault rail pg else h)

/-- RAIL_RETRY_EXPIRE (R429): RETRY_MS after its fault a rail whose fault is not latched is turned on again. -/
def execRailRetryExpire (rail : Nat) (s : State) : Res :=
  onHw s (fun h =>
    let due : Bool := match kvGet h.sbb.railTry rail with
      | some t => decide (t.2 + h.fld (Reg.SBB_RAIL_CFG rail) Fld.SBB_RAIL_CFG_RETRY_MS * 500000 ≤ h.clk)
      | none => false
    if rail < 12 ∧ due ∧ !h.flag (Reg.SBB_RAIL_CFG rail) Fld.SBB_RAIL_CFG_FAULT
        ∧ !h.flag (Reg.SBB_RAIL_CFG rail) Fld.SBB_RAIL_CFG_ON then h.railEnable rail true
    else h)

/-- RAIL_POWER_GOOD (R429, R472): power-good of a rail; after its fault was latched it is a late result and ignored. -/
def execRailPowerGood (rail : Nat) (s : State) : Res :=
  onHw s (fun h =>
    if rail < 12 ∧ h.pg 48 then
      if h.flag (Reg.SBB_RAIL_CFG rail) Fld.SBB_RAIL_CFG_FAULT then h.lateResult 2
      else
        let h := h.setFld (Reg.SBB_RAIL_CFG rail) Fld.SBB_RAIL_CFG_PG 1
        if h.flag (Reg.SBB_RAIL_CFG rail) Fld.SBB_RAIL_CFG_ON then h.railDone rail else h
    else h)

/-- EVF_SW_FIRE_WRITE (R466, R477): firmware fires the software sources. -/
def execEvfSwFireWrite (val : Nat) (s : State) : Res :=
  onHw s (fun h => if h.pg 5 then h.fire ((bitsOf 4 val).map (108 + ·)) else h)

end Sys2Proof.Machine
end

