-- ==== Sys2Proof/Machine/GcsDiag.lean ====
section
/-!
DEFINITION. The DIAG commands (R14 to R16, R417 to R428, R479). Payload words are those of log entry 22 (DESIGN CHOICE).
-/
namespace Sys2Proof.Machine

/-! ### Unit and group resets (R14, R16, R482) -/

/-- Status registers and the counters of a range of registers return to reset. -/
def Hw.clearUnit (h : Hw) (inUnit : Nat → Bool) (status : List Nat) : Hw :=
  (status.foldl Hw.clr h).clrWhere (fun r => inUnit r && (match findReg r with | some d => d.rc | none => false))

/-- A MAC is reset: its link falls, it reports ready again later. -/
def Hw.resetMac (h : Hw) (m : Nat) : Hw :=
  let h := (h.takeDown m).clrReady (Reg.MAC_STATUS m) Fld.MAC_STATUS_READY (32 + m)
  let h := h.onMac (fun x => { x with rxOct := kvDel x.rxOct m, txOct := kvDel x.txOct m })
  let base := Reg.MAC_STATUS m
  h.clearUnit (fun r => decide (base ≤ r) && decide (r < base + 0x1000))
    ([base] ++ (if 20 ≤ m then [Reg.MAC_PLCA_STATUS m] else []))

/-- A Basin bank is reset: what its cells held is lost, as by an uncorrectable error (R47). -/
def Hw.resetBank (h : Hw) (b : Nat) : Hw :=
  (h.swc.frames.filter (fun f => f.cells.any (fun c => c % 128 == b))).foldl (fun a f => (a.markBad f.id 4).discardBad f.id) h

/-- A CAN controller is reset: it integrates again; its settings stay. -/
def Hw.resetCan (h : Hw) (c : Nat) : Hw :=
  let x := h.can c
  let base := Reg.CAN_STATUS c
  (h.onCan c (fun _ => { CanC.init with buf := x.buf, filt := x.filt, sched := x.sched })).clearUnit
    (fun r => decide (base ≤ r) && decide (r < base + 0x1000)) [base, Reg.CAN_ERR c]

/-- A LIN controller is reset; its tables stay. -/
def Hw.resetLin (h : Hw) (l : Nat) : Hw :=
  let base := Reg.LIN_STATUS l
  (h.onLin l (fun _ => LinC.init)).clearUnit (fun r => decide (base ≤ r) && decide (r < base + 0x800)) [base]

/-- A time base is reset: UNSET and 0, for its consumers a step. -/
def Hw.resetBase (h : Hw) (b : Nat) : Hw :=
  let h := (h.notePast b).onTime (fun t => { t with
    base := kvDel t.base b, run := kvDel t.run b, corr := kvDel t.corr b, alt := kvDel t.alt b
    onAlt := without t.onAlt b, blocked := without t.blocked b })
  (h.clearUnit (fun r => r == Reg.TIME_TB_STEP_REFUSED b) [Reg.TIME_TB_STATE b]).stepConsumers b

/-- A pulse output is reset: inactive, no pulse in progress. -/
def Hw.resetPulse (h : Hw) (p : Nat) : Hw := (h.setPulse p { h.pulse p with asserted := false, fired := false }).pulsePin p false

/-- Units of each kind: 0 SerDes lane, 1 MAC, 2 Basin bank, 3 CAN and 4 LIN controller, 5 hardware queue, 6 time base, 7 pulse output;
how many there are. -/
def unitCount : List Nat := [20, 24, 128, 48, 16, 16384, 8, 8]

/-- The resource a unit is, where R344 names it. -/
def unitRes (kind i : Nat) : Option (Nat × Nat) :=
  match kind with
  | 0 => some (1, i)
  | 1 => some (1, i)
  | 3 => some (4, i)
  | 4 => some (5, i)
  | 6 => some (6, i)
  | _ => none

/-- Reset one unit. A lane's MAC loses its line. -/
def Hw.resetUnit (h : Hw) (kind i : Nat) : Hw :=
  match kind with
  | 0 => h.takeDown i
  | 1 => h.resetMac i
  | 2 => h.resetBank i
  | 3 => h.resetCan i
  | 4 => h.resetLin i
  | 5 => h.resetQueue i
  | 6 => h.resetBase i
  | _ => h.resetPulse i

/-- Units and groups that the issuer may reset: by the resource words of R344, else owner 1's. -/
def Hw.denyUnits (h : Hw) (o : Nat) (l : List (Option (Nat × Nat))) : Check :=
  if l.any Option.isNone && o != 1 then (true, cDenied, 0) else h.denyAny o (l.filterMap id)

/-- DIAG_UNIT_RESET (R14): word 0 bits 31:24 the kind of unit, 23:0 its number. -/
def execDiagUnitReset (owner slot : Nat) (s : State) : Res :=
  onHw s (fun h => h.gcsRun owner slot 0x0D01 noDeadlock (fun q =>
    let k := q.w 0 / 2 ^ 24
    let i := q.w 0 % 2 ^ 24
    h.vet [h.denyUnits owner [unitRes k i], badAt (decide (unitCount.getD k 0 ≤ i)) 0] (.ok (h.resetUnit k i) [])))

/-- The units of a group: 0 SerDes quad, 1 Basin bank group, 2 CAN group, 3 MAC group (R14). -/
def groupUnits (kind i : Nat) : List (Nat × Nat) :=
  match kind with
  | 0 => (List.range 4).map (fun l => (0, 4 * i + l))
  | 1 => (List.range 8).map (fun b => (2, 8 * i + b))
  | 2 => (List.range 8).map (fun c => (3, 8 * i + c))
  | _ => (List.range 4).map (fun m => (1, 4 * i + m))

/-- Groups of each kind. -/
def groupCount : List Nat := [5, 16, 6, 6]

/-- Reset a group: its units, its status, its readiness. -/
def Hw.resetGroup (h : Hw) (kind i : Nat) : Hw :=
  let h := (groupUnits kind i).foldl (fun a u => a.resetUnit u.1 u.2) h
  match kind with
  | 0 => (h.clrReady (Reg.SQ_STATUS i) Fld.SQ_STATUS_READY (56 + i)).clearUnit (fun r => r == Reg.SQ_PLL_UNLOCK i) [Reg.SQ_STATUS i]
  | 2 => h.clrReady Reg.FBUS_STATUS ⟨i, i⟩ (16 + i)
  | _ => h

/-- DIAG_GROUP_RESET (R14): word 0 bits 31:24 the kind of group, 23:0 its number. -/
def execDiagGroupReset (owner slot : Nat) (s : State) : Res :=
  onHw s (fun h => h.gcsRun owner slot 0x0D02 noDeadlock (fun q =>
    let k := q.w 0 / 2 ^ 24
    let i := q.w 0 % 2 ^ 24
    h.vet [h.denyUnits owner ((groupUnits k i).map (fun u => unitRes u.1 u.2)), badAt (decide (groupCount.getD k 0 ≤ i)) 0]
      (.ok (h.resetGroup k i) [])))

/-! ### Loopback and the test generator -/

/-- DIAG_LOOPBACK: word 0 the MAC, word 1 0 none, 1 MAC loopback, 2 lane loopback. The receiver then sees the MAC's own transmitter, so
the line is good; taking the loop away is a loss of the line (R184). -/
def execDiagLoopback (owner slot : Nat) (s : State) : Res :=
  onHw s (fun h => h.gcsRun owner slot 0x0D03 noDeadlock (fun q =>
    let m := q.w 0
    let v := q.w 1
    h.vet [h.deny owner 1 m, q.reserved [31, 3], badAt (decide (24 ≤ m)) 0, badAt (v == 3 || (v == 2 && decide (20 ≤ m))) 4]
      (.ok (
        let was := (kvGet h.mac.loopback m).isSome
        let x := h.onMac (fun a => { a with loopback := if v = 0 then kvDel a.loopback m else kvPut a.loopback m v })
        if v = 0 then (if was then x.lineLoss m [] else x)
        else x.onMac (fun a => { a with lineGood := insertNew a.lineGood m })) [])))

/-- DIAG_TESTGEN: word 0 bit 0 runs the generator at P30, further words are its settings, which the spec does not lay out. -/
def execDiagTestgen (owner slot : Nat) (s : State) : Res :=
  onHw s (fun h => h.gcsRun owner slot 0x0D04 noDeadlock (fun q =>
    h.vet [h.deny owner 1 30, q.reserved [1]]
      (.ok { h with sys := { h.sys with testgen := if bit (q.w 0) 0 then q.payload else [] } } [])))

/-! ### Far buses (R417 to R426) -/

/-- A request for a far bus: REQ_ADDR, REQ_DATA, REQ_CTRL, data to write. -/
structure FarReq where
  addr : Nat
  word : Nat
  ctrl : Nat
  data : List Byte
deriving DecidableEq, Repr

/-- REQ_CTRL of a payload with OP and LOCK as the command has them. -/
def farCtrl (w op : Nat) (lock : Bool) : Nat :=
  putF (putF (putF (w % 2 ^ 30) Fld.SBB_REQ_CTRL_OP op) Fld.SBB_REQ_CTRL_LOCK lock.toNat) Fld.SBB_REQ_CTRL_GO 1

/-- The retry budget of a request in ns (R425). -/
def Hw.farBudget (h : Hw) (r : FarReq) : Nat :=
  h.sbbBudget ⟨r.addr, r.word, r.ctrl, r.data, [], 0, 0, [], 0, 0, none, none, 0, none, 0⟩

/-- The first request whose budget is 10 ms or more: DETAIL in µs (R425, R471). -/
def Hw.farCheck (h : Hw) (l : List FarReq) : Check :=
  match l.find? (fun r => decide (10000000 ≤ h.farBudget r)) with
  | some r => (true, cBudget, h.farBudget r / 1000)
  | none => (false, 0, 0)

/-- The sideband slot a DIAG command takes. -/
def Hw.freeTx (h : Hw) : Option Nat := (List.range 16).find? (fun s => (kvGet h.sbb.tx s).isNone)

/-- A DIAG command's requests go to the far bus one after the other in one slot; the command completes with the response of the last.
It waits ACTIVE while every slot is taken (R418). -/
def Hw.farRun (h : Hw) (o slot : Nat) (cs : List Check) (l : List FarReq) : Gcs :=
  let k := o * 32 + slot
  if h.sbb.tx.any (fun t => t.2.serves == some k) then .wait h
  else h.vet (only1 o :: cs ++ [(!h.flag Reg.SBB_STATUS Fld.SBB_STATUS_READY, cState, 0), h.farCheck l])
    (match l, h.freeTx with
     | r :: rs, some t => .wait ((h.onSbb (fun b => { b with
         seqs := kvPut b.seqs k (rs.map (fun x => [x.addr, x.word, x.ctrl])) })).sbbGo t r.addr r.word r.ctrl r.data (some k))
     | _, _ => .wait h)

/-- Fields of REQ_ADDR and REQ_CTRL. -/
def farAddrMask : Nat := 0xFFFF1F7F
def farCtrlMask : Nat := 0x3FFF80FF

/-- DIAG_SBB_READ: word 0 REQ_ADDR, word 1 REQ_CTRL; words 2 to 4 a host buffer for more than 104 bytes. -/
def execDiagSbbRead (owner slot : Nat) (s : State) : Res :=
  onHw s (fun h => h.gcsRun owner slot 0x0D05 noDeadlock (fun q =>
    let n := getF (q.w 1) Fld.SBB_REQ_CTRL_LEN + 1
    h.farRun owner slot [q.reserved [farAddrMask, farCtrlMask], badAt (getF (q.w 1) Fld.SBB_REQ_CTRL_OP != 0) 7,
        badAt (decide (104 < n) && decide (q.w 4 < n)) 16] [⟨q.w 0, 0, farCtrl (q.w 1) 0 false, []⟩]))

/-- DIAG_SBB_WRITE: word 0 REQ_ADDR, word 1 REQ_CTRL with OP 1 or 2, then the data, or REQ_DATA of an OP 2; words 2 to 4 name a host
buffer for more than 104 bytes. -/
def execDiagSbbWrite (owner slot : Nat) (s : State) : Res :=
  onHw s (fun h => h.gcsRun owner slot 0x0D06 noDeadlock (fun q =>
    let n := getF (q.w 1) Fld.SBB_REQ_CTRL_LEN + 1
    let op := getF (q.w 1) Fld.SBB_REQ_CTRL_OP
    let data := if op = 2 then [] else if 104 < n then q.buf.take n else (bytesOf (q.payload.drop 2)).take n
    h.farRun owner slot [q.reserved [farAddrMask, farCtrlMask], badAt (op != 1 && op != 2) 7,
        badAt (op == 1 && data.length != n) 8] [⟨q.w 0, q.w 2, farCtrl (q.w 1) op false, data⟩]))

/-- DIAG_SBB_SEQ: word 0 the number of requests, then REQ_ADDR, REQ_CTRL and REQ_DATA of each, up to four bytes of data; the channel
stays locked to the slot from the first to the last (R423). -/
def execDiagSbbSeq (owner slot : Nat) (s : State) : Res :=
  onHw s (fun h => h.gcsRun owner slot 0x0D07 noDeadlock (fun q =>
    let n := q.w 0
    let ctrl (i : Nat) : Nat := q.w (2 + 3 * i)
    let req (i : Nat) : FarReq :=
      ⟨q.w (1 + 3 * i), q.w (3 + 3 * i), farCtrl (ctrl i) (getF (ctrl i) Fld.SBB_REQ_CTRL_OP) (decide (i + 1 < n)),
       (toLe 4 (q.w (3 + 3 * i))).take (getF (ctrl i) Fld.SBB_REQ_CTRL_LEN + 1)⟩
    let is := List.range (min n 9)
    h.farRun owner slot ([badAt (n = 0 || q.payload.length != 3 * n + 1) 0,
        q.reserved (0xF :: (is.map (fun _ => [farAddrMask, farCtrlMask, 0xFFFFFFFF])).flatten)] ++
        is.map (fun i => badAt (decide (3 < getF (ctrl i) Fld.SBB_REQ_CTRL_LEN) ||
          getF (ctrl i) Fld.SBB_REQ_CTRL_CHANNEL != getF (ctrl 0) Fld.SBB_REQ_CTRL_CHANNEL) (8 + 12 * i))) (is.map req)))

/-! ### GPIO, registers, injected errors -/

/-- DIAG_GPIO_SET (R427, R428): word 0 the line, word 1 bits 31:30 its direction, bit 29 its level. -/
def execDiagGpioSet (owner slot : Nat) (s : State) : Res :=
  onHw s (fun h => h.gcsRun owner slot 0x0D08 noDeadlock (fun q =>
    let n := q.w 0
    let d := bits (q.w 1) 31 30
    h.vet [(decide (48 ≤ n) || !h.flag (Reg.SBB_GPIO_CFG n) Fld.SBB_GPIO_CFG_HOST_SET, cDenied, n), q.reserved [63, 0xE0000000],
        badAt (d == 3) 7, (!h.flag Reg.SBB_STATUS Fld.SBB_STATUS_READY, cState, n)]
      (.ok ((h.setFld (Reg.SBB_GPIO_CFG n) Fld.SBB_GPIO_CFG_DIR d).gpioDrive n (some (bit (q.w 1) 29))) [])))

/-- DIAG_REG_READ (R479): word 0 the offset. Registers of PD_SEC are refused. What a firmware-only register that the spec does not
describe holds is a free value. -/
def execDiagRegRead (owner slot : Nat) (s : State) : Res :=
  onHw s (fun h => h.gcsRun owner slot 0x0D09 noDeadlock (fun q =>
    let r := q.w 0
    h.vet [only1 owner, (r / 0x40000 == 9, cDenied, r), badAt (r % 4 != 0) 0]
      (match findReg r with
       | some _ => h.tell [(h.viewReg 0 r).getD (h.rn r)]
       | none => .ok h.drawn [h.draw % 2 ^ 32])))

/-- An error in a table, a memory or a pointer, injected: word 0 where, word 1 its number, word 2 bit 0 uncorrectable. Where: 0 a
Basin cell, 1 to 6 forwarding table 0 to 5 with bit 1 of word 2 for pipeline B, 16 a 64-bit word of the general banks, 17
the free list of the Basin at a cell. -/
def Hw.inject (h : Hw) (at_ i w : Nat) : Hw :=
  let ue := bit w 0
  if at_ = 0 then
    match h.swc.frames.find? (fun f => f.cells.contains i) with
    | some f => (h.basinEcc f.id (if ue then 2 else 1)).discardBad f.id
    | none => h.inc (if ue then Reg.SWC_BASIN_UE else Reg.SWC_BASIN_CE)
  else if at_ < 16 then h.tableEcc (bit w 1) [(at_ - 1, i, ue)]
  else if at_ = 16 then (if ue then h.onMem (fun m => { m with bad := insertNew m.bad i }) else h.inc Reg.MEM_ECC_CE)
  else if h.heldCells.contains i then h
  else h.onSwc (fun s => { s with leaked := insertNew s.leaked i })

/-- DIAG_INJECT (R353): an ECC or pointer error, with the effects that rule has for it (R47, R72, R114, R399). -/
def execDiagInject (owner slot : Nat) (s : State) : Res :=
  onHw s (fun h => h.gcsRun owner slot 0x0D0A noDeadlock (fun q =>
    let t := q.w 0
    let i := q.w 1
    h.vet [only1 owner, q.reserved [31, 0xFFFFFFFF, 3], badAt (decide (17 < t) || (decide (6 < t) && decide (t < 16))) 0,
        badAt ((t == 0 || t == 17) && decide (131072 ≤ i)) 4, badAt (t == 16 && decide (524288 ≤ i)) 4]
      (.ok (h.inject t i (q.w 2)) [])))

end Sys2Proof.Machine
end

