-- ==== Sys2Proof/Machine/GcsMem.lean ====
section
/-!
DEFINITION. The MEM commands (R401, R407, R411, R414). Banks are numbered 0 to 31 for firmware SRAM and 32 + b for general bank b.
Payload words that R353 does not lay out are those of log entry 22 (DESIGN CHOICE).
-/
namespace Sys2Proof.Machine

/-- A general bank is in an owner's policy: the owner was granted it, or holds it (R344, R400). -/
def Hw.denyBank (h : Hw) (o b : Nat) : Check :=
  (!(h.mayConf o 8 b || h.bankFld b Fld.MEM_BANK_OWNER_OWNER == o), cDenied, resWord 8 b)

/-- MEM_BANK_GRANT (R401): word 0 the general bank, word 1 bits 8:0 the new owner, bit 31 PASS. It completes after the hand-over. -/
def execMemBankGrant (owner slot : Nat) (s : State) : Res :=
  onHw s (fun h => h.gcsRun owner slot 0x0B01 noDeadlock (fun q =>
    let b := q.w 0
    let new := q.w 1 % 512
    let pass := bit (q.w 1) 31
    h.vet [h.denyBank owner b, (pass && h.bankFld b Fld.MEM_BANK_OWNER_OWNER != owner, cDenied, resWord 8 b),
        q.reserved [15, 0x800001FF], (!h.alive new, cNoObject, new), badState (h.bankFld b Fld.MEM_BANK_OWNER_FAILED == 1) 8 b]
      (.wait ((h.setSlot (owner * 32 + slot) { q with committed := true }).ownerWrite b new pass (some (owner * 32 + slot))))))

/-- Retention of a firmware SRAM bank on or off (R407). -/
def Hw.retainFw (h : Hw) (b : Nat) (on : Bool) : Hw :=
  h.wn Reg.MEM_FW_RETAIN (if on then h.rn Reg.MEM_FW_RETAIN ||| 2 ^ b else h.rn Reg.MEM_FW_RETAIN &&& (0xFFFFFFFF - 2 ^ b))

/-- Retention of a general bank off: it wakes; a command that still waited for its entry completes. -/
def Hw.retainOff (h : Hw) (b : Nat) : Hw :=
  let h := match kvGet h.mem.retReq b with
    | some (some k) => h.complete k cOk 0 []
    | _ => h
  let h := h.onMem (fun m => { m with retReq := kvDel m.retReq b })
  if h.bankFld b Fld.MEM_BANK_OWNER_RETAINED = 1 ∧ h.bankFld b Fld.MEM_BANK_OWNER_WAKING = 0 then h.wakeBank b else h

/-- MEM_BANK_RETAIN (R407, R408): word 0 the bank, word 1 bit 0 retention, bit 1 AUTO_WAKE of a general bank. Entry of a general bank
waits for its accesses, and the command with it. -/
def execMemBankRetain (owner slot : Nat) (s : State) : Res :=
  onHw s (fun h => h.gcsRun owner slot 0x0B02 noDeadlock (fun q =>
    let b := q.w 0
    let on := bit (q.w 1) 0
    let k := owner * 32 + slot
    h.vet [if b < 32 then only1 owner else h.denyBank owner (b - 32), q.reserved [63, 3], badAt (decide (48 ≤ b)) 0,
        (on && decide (b < 32) && h.mem.used.testBit b, cState, b)]
      (if b < 32 then .ok (h.retainFw b on) []
       else
         let x := h.setBank (b - 32) Fld.MEM_BANK_OWNER_AUTO_WAKE (bits (q.w 1) 1 1)
         if !on then .ok (x.retainOff (b - 32)) []
         else if x.bankFld (b - 32) Fld.MEM_BANK_OWNER_RETAINED = 1 ∧ x.bankFld (b - 32) Fld.MEM_BANK_OWNER_WAKING = 0 then .ok x []
         else
           let x := (x.retainOff (b - 32)).setSlot k { q with committed := true }
           .wait ((x.onMem (fun m => { m with retReq := kvPut m.retReq (b - 32) (some k) })).testBanks
             (if x.mem.off.contains b then [b] else [])))))

/-- Banks in retention that a test is about to use are woken (R411). -/
def Hw.wakeBanks (h : Hw) (bs : List Nat) : Hw :=
  bs.foldl (fun a b =>
    if b < 32 then a.retainFw b false
    else if a.bankFld (b - 32) Fld.MEM_BANK_OWNER_RETAINED = 1 ∧ a.bankFld (b - 32) Fld.MEM_BANK_OWNER_WAKING = 0 then a.wakeBank (b - 32)
    else a) h

/-- A bank in retention among those a test is about to use. -/
def Hw.anyAsleep (h : Hw) (bs : List Nat) : Bool :=
  bs.any (fun b => if b < 32 then (h.rn Reg.MEM_FW_RETAIN).testBit b else h.bankFld (b - 32) Fld.MEM_BANK_OWNER_RETAINED == 1)

/-- A bank that the mode of a test accepts (R411). -/
def Hw.marchable (h : Hw) (preserve : Bool) (b : Nat) : Bool :=
  preserve || (if b < 32 then !h.mem.used.testBit b else h.bankFld (b - 32) Fld.MEM_BANK_OWNER_OWNER == 1)

/-- MEM_MARCH_RUN (R411): word 0 the firmware SRAM banks, word 1 the general banks, word 2 bit 0 preserving. It waits while another
test runs, and completes when the test ends. -/
def execMemMarchRun (owner slot : Nat) (s : State) : Res :=
  onHw s (fun h => h.gcsRun owner slot 0x0B03 noDeadlock (fun q =>
    let fw := bitsOf 32 (q.w 0)
    let gen := bitsOf 16 (q.w 1)
    let banks := fw ++ gen.map (32 + ·)
    let keep := bit (q.w 2) 0
    h.vet ([(!fw.isEmpty && owner != 1, cDenied, 0)] ++ gen.map (h.denyBank owner) ++
        [q.reserved [0xFFFFFFFF, 0xFFFF, 1], badAt banks.isEmpty 0] ++
        banks.map (fun b => (!h.marchable keep b, cState, if b < 32 then b else resWord 8 (b - 32))))
      (if h.mem.march.isSome then .wait h
       else
        let x := (h.setSlot (owner * 32 + slot) { q with committed := true }).wakeBanks banks
        let x := (x.setFld Reg.MEM_MARCH_RESULT Fld.MEM_MARCH_RESULT_DONE 0).onMem (fun m => { m with
          off := m.off.filter (fun b => !banks.contains b) })
        .wait (x.marchStart banks keep (some (owner * 32 + slot)) (if h.anyAsleep banks then 20000 else 0)))))

/-- MEM_MARCH_RESULT: MEM_MARCH_RESULT and MEM_MARCH_DETAIL. -/
def execMemMarchResult (owner slot : Nat) (s : State) : Res :=
  onHw s (fun h => h.gcsRun owner slot 0x0B04 noDeadlock (fun _ => h.tell [h.rn Reg.MEM_MARCH_RESULT, h.rn Reg.MEM_MARCH_DETAIL]))

/-- MEM_CONFLICT_READ: the eight counts of R406. -/
def execMemConflictRead (owner slot : Nat) (s : State) : Res :=
  onHw s (fun h => h.gcsRun owner slot 0x0B05 noDeadlock (fun _ =>
    h.tell ((List.range 8).map (fun m => h.rn (Reg.MEM_CONFLICT m)))))

/-- The MiB of the regions of a type other than region `i`. -/
def Hw.regionTotal (h : Hw) (i type : Nat) : Nat :=
  (((List.range 32).filter (fun k => k != i && h.flag (Reg.MEM_LPDDR_REGION k) Fld.MEM_LPDDR_REGION_EN &&
    h.fld (Reg.MEM_LPDDR_REGION k) Fld.MEM_LPDDR_REGION_TYPE == type)).map (fun k => h.rn (Reg.MEM_LPDDR_SIZE k))).sum

/-- MEM_LPDDR_REGION (R414): word 0 the region, words 1 and 2 the images of MEM_LPDDR_REGION and its SIZE_MIB word. -/
def execMemLpddrRegion (owner slot : Nat) (s : State) : Res :=
  onHw s (fun h => h.gcsRun owner slot 0x0B06 noDeadlock (fun q =>
    let i := q.w 0
    let c := q.w 1
    let n := q.w 2
    let en := getF c Fld.MEM_LPDDR_REGION_EN == 1
    let t := getF c Fld.MEM_LPDDR_REGION_TYPE
    let b := getF c Fld.MEM_LPDDR_REGION_BASE_MIB
    let o := getF c Fld.MEM_LPDDR_REGION_OWNER
    let hit := (List.range 32).find? (fun k => k != i && h.flag (Reg.MEM_LPDDR_REGION k) Fld.MEM_LPDDR_REGION_EN &&
      decide (b < h.fld (Reg.MEM_LPDDR_REGION k) Fld.MEM_LPDDR_REGION_BASE_MIB + h.rn (Reg.MEM_LPDDR_SIZE k)) &&
      decide (h.fld (Reg.MEM_LPDDR_REGION k) Fld.MEM_LPDDR_REGION_BASE_MIB < b + n))
    h.vet [only1 owner, q.reserved [31, 0xF1FF1FFF, 0x1FFF], badAt (decide (3 < t)) 4,
        badAt (en && decide (min Config.lpddrMib 8192 < b + n)) 4, badAt (en && n = 0) 8,
        badAt (en && t = 2 && decide (8 < n + h.regionTotal i 2)) 8,
        (en && !h.alive o, cNoObject, o), (en && hit.isSome, cConflict, hit.getD 0)]
      (.ok (h.images [(Reg.MEM_LPDDR_REGION i, 0xF1FF1FFF, c), (Reg.MEM_LPDDR_SIZE i, 0x1FFF, n)]) [])))

end Sys2Proof.Machine
end

