-- ==== Sys2Proof/Machine/GcsPwr.lean ====
section
/-!
DEFINITION. The PWR commands (R362, R432 to R447). Payload words that chapter 12 does not lay out are those of log entry 22 (DESIGN CHOICE).
-/
namespace Sys2Proof.Machine

/-- The domains of a fabric port beside PD_FABRIC (R27, R438). -/
def portDomains (p : Nat) : List Nat :=
  if p < 24 then without (wakeDomains (32 + p)) 7
  else [25] ++ (if p % 2 = 0 then [23] else [24]) ++
    (match p with | 24 => [46] | 25 => [37] | 27 => [45] | 28 => [44] | _ => [])

/-- Domains that carry an admitted stream: those of its ingress and its egresses. -/
def Hw.streamDomains (h : Hw) : List Nat :=
  (h.tss.admitted.flatMap (fun a => ((List.range 32).filter (fun p => a.2.ingress == p || a.2.egress.testBit p)).flatMap
    portDomains)).dedup

/-- Domains that a change of domains takes away. -/
def Hw.losing (h : Hw) (target : List Nat) : List Nat := (List.range 50).filter (fun d => d != 0 && h.domOn d && !target.contains d)

/-- Cells that the accepted quotas lack once only the Basin groups of a list are on (R43, R50). -/
def Hw.cellsLeft (h : Hw) (target : List Nat) : Nat :=
  let groups := (List.range 16).filter (fun g => target.contains (7 + g))
  if groups.isEmpty then 0 else h.cellsLacking groups.length

/-- A CAN group or PD_LIN that a mask leaves on without PD_FBUS0 (R244), by its first controller. -/
def breaks244 (m : Nat) : Option Nat :=
  if bit m 37 then none
  else ((bitsOf 50 m).find? (fun d => decide (38 ≤ d) && decide (d ≤ 43))).map (fun d =>
    if d = 43 then resWord 5 0 else resWord 4 (8 * (d - 37)))

/-- The checks on a PARTIAL mask (R43, R244, R362, R437, R438); `at_` is its byte offset. -/
def Hw.maskChecks (h : Hw) (m at_ : Nat) (target : List Nat) : List Check :=
  let hit := breaks244 m
  let lose := h.losing target
  [badAt (!maskGood (if hit.isSome then m ||| 2 ^ 37 else m)) at_, (h.streamDomains.any lose.contains, cState, 0),
   (hit.isSome, cConflict, hit.getD 0), (h.cellsLeft target != 0, cQuota, h.cellsLeft target)]

/-- The domain mask of payload words n and n + 1. -/
def Slot.mask (q : Slot) (n : Nat) : Nat := q.w n + q.w (n + 1) % 2 ^ 18 * 2 ^ 32

/-- PWR_STATE_SET (R362): the checks, then the request; LISTEN, PARTIAL and ACTIVE complete when the state is reached, STANDBY and OFF
at once, 1 ms before their transition begins. -/
def execPwrStateSet (owner slot : Nat) (s : State) : Res :=
  onHw s (fun h => h.gcsRun owner slot 0x0C01 noDeadlock (fun q =>
    let goal := q.w 0
    let group := q.w 1
    let m := q.mask 2
    let armed := h.wn Reg.PWR_WAKE_ARM (q.w 4)
    h.vet ([q.reserved [7, 7, 0xFFFFFFFF, 0x3FFFF, 0xFFFFFFFF], badAt (decide (4 < goal)) 0, badAt (decide (5 < group)) 4] ++
        (if goal = 3 then h.maskChecks m 8 (armed.domainsOf 3 m group) else []))
      (if h.pwr.busy || h.pwr.req.isSome then .wait h
       else if goal ≤ 1 then .ok (armed.onPwr (fun p => { p with req := some ⟨goal, 0, 0, none, h.clk + 500000⟩ })) []
       else .wait ((armed.setSlot (owner * 32 + slot) { q with committed := true }).onPwr (fun p => { p with
         req := some ⟨goal, m, group, some (owner * 32 + slot), h.clk⟩ })))))

/-- PWR_STATE_READ (R353): PWR_STATUS, then the domains on, reporting power-good and faulted, LO and HI of each. -/
def execPwrStateRead (owner slot : Nat) (s : State) : Res :=
  onHw s (fun h => h.gcsRun owner slot 0x0C02 noDeadlock (fun _ =>
    h.tell ([Reg.PWR_STATUS, Reg.PWR_DOMAIN_ON_LO, Reg.PWR_DOMAIN_ON_HI, Reg.PWR_DOMAIN_PG_LO, Reg.PWR_DOMAIN_PG_HI,
      Reg.PWR_DOMAIN_FAULT_LO, Reg.PWR_DOMAIN_FAULT_HI].map h.rn)))

/-- PWR_DOMAIN_SET (R353, R437, R438): words 0 and 1 the domains, words 2 and 3 the mask of those to change; a changed domain is
switched as its bit says. Only in PARTIAL. -/
def execPwrDomainSet (owner slot : Nat) (s : State) : Res :=
  onHw s (fun h => h.gcsRun owner slot 0x0C03 noDeadlock (fun q =>
    let now := maskOf ((List.range 50).filter h.domOn)
    let sel := q.mask 2
    let m := (q.mask 0 &&& sel) ||| (now &&& (2 ^ 50 - 1 - sel))
    h.vet ([q.reserved [0xFFFFFFFF, 0x3FFFF, 0xFFFFFFFF, 0x3FFFF],
        (h.fld Reg.PWR_STATUS Fld.PWR_STATUS_STATE != 3, cState, 0)] ++ h.maskChecks m 0 (h.domainsOf 3 m 0))
      (if h.pwr.busy || h.pwr.req.isSome then .wait h
       else .wait ((h.setSlot (owner * 32 + slot) { q with committed := true }).onPwr (fun p => { p with
         req := some ⟨3, m, 0, some (owner * 32 + slot), h.clk⟩ })))))

/-- In LISTEN and PARTIAL the PD_WAKE domains follow the armed sources (R432, R437). -/
def Hw.followArmed (h : Hw) : Hw :=
  let st := h.fld Reg.PWR_STATUS Fld.PWR_STATUS_STATE
  let on := [1, 2, 3].filter (fun d => h.armedWake.contains d && !h.domOn d)
  let off := [1, 2, 3].filter (fun d => !h.armedWake.contains d && h.domOn d)
  if (st != 2 && st != 3) || (on.isEmpty && off.isEmpty) then h
  else
    let h := (h.setFld Reg.PWR_STATUS Fld.PWR_STATUS_TRANSITION 1).setFld Reg.PWR_STATUS Fld.PWR_STATUS_TARGET st
    h.onPwr (fun p => { p with busy := true, startUp := false, goal := st, toOn := on, toOff := off, rails := 3 })

/-- PWR_WAKE_SET (R435): word 0 the armed sources, words 1 and 2 the Ethernet and LIN sources, word 3 the image of PWR_WAKE_CFG. A
wake target is LISTEN or ACTIVE (R433). -/
def execPwrWakeSet (owner slot : Nat) (s : State) : Res :=
  onHw s (fun h => h.gcsRun owner slot 0x0C04 noDeadlock (fun q =>
    let c := q.w 3
    let t := getF c Fld.PWR_WAKE_CFG_TARGET
    h.vet [only1 owner, q.reserved [0xFFFFFFFF, 0xFFFFF, 0xFFFF, 0xF700FFFF], badAt (t != 2 && t != 4) 15,
        badAt (decide (5 < getF c Fld.PWR_WAKE_CFG_LISTEN_GROUP)) 15]
      (if h.pwr.busy then .wait h
       else .ok (h.images [(Reg.PWR_WAKE_ARM, 0xFFFFFFFF, q.w 0), (Reg.PWR_WAKE_ARM_ETH, 0xFFFFF, q.w 1),
        (Reg.PWR_WAKE_ARM_LIN, 0xFFFF, q.w 2), (Reg.PWR_WAKE_CFG, 0xF700FFFF, c)]).followArmed [])))

/-- The retry budget of a rail in ms (R471). -/
def railBudget (c : Nat) : Nat :=
  let t := getF c Fld.SBB_RAIL_CFG_PG_TIMEOUT_MS
  t + getF c Fld.SBB_RAIL_CFG_RETRIES * (getF c Fld.SBB_RAIL_CFG_RETRY_MS + t)

/-- PWR_RAIL_SET (R429, R444, R471): word 0 the rail, word 1 the image of PWR_RAIL_SEQ, word 2 that of SBB_RAIL_CFG; with AUTO 0,
word 3 bit 0 turns the rail on, which its DOMAIN must allow. -/
def execPwrRailSet (owner slot : Nat) (s : State) : Res :=
  onHw s (fun h => h.gcsRun owner slot 0x0C05 noDeadlock (fun q =>
    let r := q.w 0
    let c := q.w 1
    let f := q.w 2
    let on := bit (q.w 3) 0
    let d := getF c Fld.PWR_RAIL_SEQ_DOMAIN
    let auto := getF c Fld.PWR_RAIL_SEQ_AUTO == 1
    let cfg : Nat := 0x03FFFFFF
    h.vet [only1 owner, q.reserved [15, 0xFE3FFFFF, cfg, 1], badAt (decide (12 ≤ r)) 0, badAt (d != 63 && decide (50 ≤ d)) 6,
        badAt (auto && on) 12, (!auto && on && d != 63 && !h.pg d, cState, 0),
        (decide (250 ≤ railBudget f), cBudget, railBudget f * 1000)]
      (.ok (
        let x := h.images [(Reg.PWR_RAIL_SEQ r, 0xFE3FFFFF, c), (Reg.SBB_RAIL_CFG r, cfg, f)]
        if auto || !x.pg 48 then x
        else if on && !x.railIsOn r then x.railOn r
        else if !on && x.railIsOn r then x.railOff r
        else x) [])))

/-- PWR_WAKE_CAUSE_READ (R353): PWR_WAKE_CAUSE, _ETH, _LIN and PWR_WAKE_FIRST, then cleared. -/
def execPwrWakeCauseRead (owner slot : Nat) (s : State) : Res :=
  onHw s (fun h => h.gcsRun owner slot 0x0C06 noDeadlock (fun _ =>
    let l := [Reg.PWR_WAKE_CAUSE, Reg.PWR_WAKE_CAUSE_ETH, Reg.PWR_WAKE_CAUSE_LIN, Reg.PWR_WAKE_FIRST]
    if owner != 1 then h.refuse cDenied 0 else .ok (l.foldl Hw.clr h) (l.map h.rn)))

/-- PWR_CLOCK_STATUS (R446): PWR_CLK_STATUS, PWR_REF_PPM, PWR_REF_PPM_LAST. -/
def execPwrClockStatus (owner slot : Nat) (s : State) : Res :=
  onHw s (fun h => h.gcsRun owner slot 0x0C07 noDeadlock (fun _ =>
    h.tell ([Reg.PWR_CLK_STATUS, Reg.PWR_REF_PPM, Reg.PWR_REF_PPM_LAST].map h.rn)))

end Sys2Proof.Machine
end

