-- ==== Sys2Proof/Machine/Qos.lean ====
section
/-!
DEFINITION. Events of the scheduling unit: received pauses (R510), gate lists (R122 to R126), preemption (R127, R129), Sluice
gates (R136), replication and elimination (R137, R139).
-/
namespace Sys2Proof.Machine

/-- End of a pause of `quanta` in units of 512 bit times at the port's rate, in 2 ns cycles. -/
def Hw.pauseEnd (h : Hw) (mac quanta : Nat) : Nat :=
  let rate := max (h.portRate mac) 1
  h.clk + (quanta * 512 * 500000 + rate - 1) / rate

/-- One class of a received pause: quanta 0 ends it, anything else replaces the time that remains. -/
def Hw.honour (h : Hw) (mac cls quanta : Nat) : Hw :=
  if quanta = 0 then h.onTss (fun t => { t with pauseRx := kvDel t.pauseRx (mac * 8 + cls) })
  else h.onTss (fun t => { t with pauseRx := kvPut t.pauseRx (mac * 8 + cls) (h.pauseEnd mac quanta) })

/-- PFC_FRAME_RECEIVE (R510): the classes both enabled in the frame and honoured by the port are stopped for their quanta. The frame
is a MAC control frame of 64 bytes, consumed and counted as such (R185). -/
def execPfcFrameReceive (mac enable : Nat) (quanta : List Nat) (s : State) : Res :=
  onHw s (fun h =>
    if 24 ≤ mac || !h.linkUp mac then h
    else
      let h := (h.addRxOctets mac 64).inc (Reg.MAC_RX_PAUSE mac)
      let cs := bitsOf 8 (enable &&& h.fld (Reg.TSS_PORT_CFG mac) Fld.TSS_PORT_CFG_PFC_HONOUR)
      if cs.isEmpty then h
      else cs.foldl (fun a c => a.honour mac c (quanta.getD c 0 % 65536)) (h.inc (Reg.TSS_PFC_RX mac)))

/-- PFC_PAUSE_EXPIRE (R510): the quanta time of a class has run out. -/
def execPfcPauseExpire (mac cls : Nat) (s : State) : Res :=
  onHw s (fun h =>
    if kvGetD h.tss.pauseRx (mac * 8 + cls) 0 ≤ h.clk then h.onTss (fun t => { t with pauseRx := kvDel t.pauseRx (mac * 8 + cls) })
    else h)

/-! ### Gate lists -/

/-- Count the frames that a MAC is sending, suspended ones too, whose gate closes now (R125). -/
def Hw.countOverrun (h : Hw) (mac : Nat) (old new : Nat) : Hw :=
  (kvGetD h.swc.tx mac []).foldl (fun a t => match h.frame? t.frame with
    | some f => if old.testBit f.cls && !new.testBit f.cls then a.inc (Reg.TSS_GATE_OVERRUN mac) else a
    | none => a) h

/-- An entry of an egress list comes into force: gate states, and hold or release (R123); after a release a suspended frame goes
on. -/
def Hw.applyGclEntry (h : Hw) (mac idx entry : Nat) : Hw :=
  let h := h.countOverrun mac (kvGetD h.tss.gates mac 255) (gatesOf entry)
  ((h.onTss (fun t => { t with
    gates := kvPut t.gates mac (gatesOf entry),
    hold := match bits entry 23 22 with | 1 => insertNew t.hold mac | 2 => without t.hold mac | _ => t.hold })).wn
    (Reg.TSS_GCL_ENTRY_NOW mac) idx).resume mac

/-- The entries of one cycle. -/
def cycleEntries (dur : Nat → Nat) (l : GateList) : List Nat := (segments dur l.cycle 0 l.entries).map (fun s => s.2.2)

/-- GCL_ENTRY_ADVANCE (R122, R123): the next entry of the cycle, or the first again; a last cycle before S that is shorter than the
pending list's EXT_NS is not begun, the last entry lasting until S (R124). -/
def execGclEntryAdvance (mac : Nat) (s : State) : Res :=
  onHw s (fun h => match h.listOf mac with
    | none => h
    | some l =>
      if 24 ≤ mac || !h.flag (Reg.TSS_GCL_CTRL mac) Fld.TSS_GCL_CTRL_EN || h.tss.restart.contains mac then h
      else
        let es := cycleEntries egressDur l
        let i := h.rn (Reg.TSS_GCL_ENTRY_NOW mac) + 1
        if i < es.length then h.applyGclEntry mac i (es.getD i (255 * 2 ^ 24))
        else if h.heldLast mac l (h.pendingList mac) then h
        else h.applyGclEntry mac 0 (es.getD 0 (255 * 2 ^ 24)))

/-- The list in force stops: every gate is open (R357). -/
def Hw.stopGcl (h : Hw) (mac : Nat) : Hw :=
  let h := (h.setFld (Reg.TSS_GCL_CTRL mac) Fld.TSS_GCL_CTRL_EN 0).setFld (Reg.TSS_GCL_CTRL mac) Fld.TSS_GCL_CTRL_PENDING 0
  let h := h.setFld (Reg.TSS_PORT_CFG mac) Fld.TSS_PORT_CFG_GATE_EN 0
  (h.onTss (fun t => { t with
    gates := kvDel t.gates mac, hold := without t.hold mac, pendOff := without t.pendOff mac,
    restart := without t.restart mac })).endSwitch mac

/-- The registers of a list in force. -/
def Hw.showGcl (h : Hw) (mac bank : Nat) (l : GateList) : Hw :=
  let h := h.wn (Reg.TSS_GCL_CTRL mac) (2 ^ 31 + bank * 2 ^ 29 + l.tb * 2 ^ 26 + l.guard * 2 ^ 16 + l.entries.length)
  let h := h.wn (Reg.TSS_GCL_BASE_S mac) (l.base / 1000000000)
  let h := h.wn (Reg.TSS_GCL_BASE_NS mac) (l.base % 1000000000)
  let h := h.wn (Reg.TSS_GCL_CYCLE_NS mac) l.cycle
  (h.wn (Reg.TSS_GCL_EXT_NS mac) l.ext).setFld (Reg.TSS_PORT_CFG mac) Fld.TSS_PORT_CFG_GATE_EN 1

/-- Sluice gates follow the list in their bank in force. -/
def Hw.sluiceList (h : Hw) (g : Nat) : Option GateList := kvGet h.tss.lists (100 + g * 2 + kvGetD h.tss.sBank g 0)

/-- An entry of a Sluice list comes into force. -/
def Hw.applySluiceEntry (h : Hw) (g idx entry : Nat) : Hw :=
  h.onTss (fun t => { t with ipv := kvPut t.ipv g entry, sNow := kvPut t.sNow g idx })

/-- A Sluice gate's list stops. -/
def Hw.stopSluice (h : Hw) (g : Nat) : Hw :=
  ((h.setFld (Reg.TSS_SLUICE_GATE_CTRL g) Fld.TSS_SLUICE_GATE_CTRL_EN 0).onTss (fun t => { t with
      pendOff := without t.pendOff (256 + g), ipv := kvDel t.ipv g, restart := without t.restart (256 + g) })).endSwitch (256 + g)

/-- A Sluice gate's list comes into force, its INVALID_CLOSE (kept in `ext`) with it. -/
def Hw.showSluice (h : Hw) (g bank : Nat) (l : GateList) : Hw :=
  let r := Reg.TSS_SLUICE_GATE_CTRL g
  let h := (h.setFld r Fld.TSS_SLUICE_GATE_CTRL_EN 1).setFld r Fld.TSS_SLUICE_GATE_CTRL_TB l.tb
  let h := h.setFld r Fld.TSS_SLUICE_GATE_CTRL_LIST_LEN (l.entries.length - 1)
  let h := h.setFld r Fld.TSS_SLUICE_GATE_CTRL_INVALID_CLOSE l.ext
  let h := h.wn (Reg.TSS_SLUICE_GATE_CYCLE g) l.cycle
  let h := (h.wn (Reg.TSS_SLUICE_GATE_BASE_S g) (l.base / 1000000000)).wn (Reg.TSS_SLUICE_GATE_BASE_NS g) (l.base % 1000000000)
  let h := h.onTss (fun t => { t with
    sBank := kvPut t.sBank g bank, sPend := without t.sPend g, restart := without t.restart (256 + g) })
  (h.applySluiceEntry g 0 (l.entries.getD 0 0)).endSwitch (256 + g)

/-- A Sluice gate's pending bank comes into force at S, or its list stops (R136). -/
def Hw.sluiceSwitch (h : Hw) (g : Nat) : Hw :=
  let bank := 1 - kvGetD h.tss.sBank g 0
  match kvGet h.tss.lists (100 + g * 2 + bank) with
  | none => h
  | some l =>
    if !h.switchDue (256 + g) l.tb then h
    else if h.tss.pendOff.contains (256 + g) then h.stopSluice g
    else if h.tss.sPend.contains g then h.showSluice g bank l
    else h

/-- A MAC's pending bank comes into force at S, or its list stops; the bounds are those of the list in force from now on. -/
def Hw.gclSwitch (h : Hw) (mac : Nat) : Hw :=
  match h.pendingList mac with
  | none => h
  | some l =>
    if !h.switchDue mac l.tb then h
    else if h.tss.pendOff.contains mac then Hw.rebound h (h.stopGcl mac)
    else
      let bank := 1 - h.fld (Reg.TSS_GCL_CTRL mac) Fld.TSS_GCL_CTRL_BANK
      let x := ((h.showGcl mac bank l).onTss (fun t => { t with restart := without t.restart mac })).endSwitch mac
      Hw.rebound h ((x.applyGclEntry mac 0 (l.entries.getD 0 (255 * 2 ^ 24))).postG 1 mac 0x0501 mac bank)

/-- GCL_SWITCH (R124, R357): the pending bank comes into force at S, or the list stops. 0x100 + g names a Sluice gate. -/
def execGclSwitch (mac : Nat) (s : State) : Res :=
  onHw s (fun h =>
    if 512 ≤ mac then h
    else if 256 ≤ mac then h.sluiceSwitch (mac - 256)
    else if 24 ≤ mac then h
    else h.gclSwitch mac)

/-- GCL_RESTART (R126, R136): after a step of its time base a list begins again at the first cycle start. -/
def execGclRestart (mac : Nat) (s : State) : Res :=
  onHw s (fun h =>
    if !h.tss.restart.contains mac then h
    else
      let h := h.onTss (fun t => { t with restart := without t.restart mac })
      if 256 ≤ mac then
        match h.sluiceList (mac - 256) with
        | some l => (h.applySluiceEntry (mac - 256) 0 (l.entries.getD 0 0)).postG 18 (mac - 256) 0x0502 mac
        | none => h
      else match h.listOf mac with
        | some l => ((h.applyGclEntry mac 0 (l.entries.getD 0 (255 * 2 ^ 24))).inc (Reg.TSS_GCL_RESTART mac)).postG 1 mac 0x0502 mac
        | none => h)

/-- SLUICE_GATE_ADVANCE (R136). -/
def execSluiceGateAdvance (gate : Nat) (s : State) : Res :=
  onHw s (fun h => match h.sluiceList gate with
    | none => h
    | some l =>
      if !h.flag (Reg.TSS_SLUICE_GATE_CTRL gate) Fld.TSS_SLUICE_GATE_CTRL_EN || h.tss.restart.contains (256 + gate) then h
      else
        let es := cycleEntries sluiceDur l
        let i := kvGetD h.tss.sNow gate 0 + 1
        let i := if i < es.length then i else 0
        h.applySluiceEntry gate i (es.getD i (2 ^ 31)))

/-! ### Preemption -/

/-- PREEMPT_VERIFY_DONE (R127): verification succeeded. -/
def execPreemptVerifyDone (mac : Nat) (s : State) : Res :=
  onHw s (fun h =>
    let r := Reg.TSS_PORT_CFG mac
    if decide (mac < 20) && h.flag r Fld.TSS_PORT_CFG_PREEMPT_EN && h.flag r Fld.TSS_PORT_CFG_VERIFY_EN && h.linkUp mac
        && !h.flag r Fld.TSS_PORT_CFG_PREEMPT_ACTIVE then
      h.rebound (h.setFld r Fld.TSS_PORT_CFG_PREEMPT_ACTIVE 1)
    else h)

/-- NOTICE_EXPIRE (R129): 1,000 ns after an express notice. -/
def execNoticeExpire (mac : Nat) (s : State) : Res :=
  onHw s (fun h => match kvGetD h.tss.notice mac [] with
    | [] => h
    | n :: rest =>
      if n.2 ≤ h.clk then
        ((h.onTss (fun t => { t with notice := if rest.isEmpty then kvDel t.notice mac else kvPut t.notice mac rest })).inc
          (Reg.TSS_NOTICE_EXPIRED mac)).resume mac
      else h)

/-! ### Replication and elimination -/

/-- An eliminating pair in operation. -/
def Hw.eliminating (h : Hw) (n : Nat) : Bool :=
  decide (n < 64) && h.flag (Reg.TSS_FRER_CFG n) Fld.TSS_FRER_CFG_EN && !h.flag (Reg.TSS_FRER_CFG n) Fld.TSS_FRER_CFG_ROLE

/-- FRER_RECOVERY_RESET (R137): no frame passed for RESET_MS. -/
def execFrerRecoveryReset (pair : Nat) (s : State) : Res :=
  onHw s (fun h =>
    if h.eliminating pair then
      (h.setFrer pair { h.frerOf pair with takeAny := true, history := 0 }).inc (Reg.TSS_FRER_RESETS pair)
    else h)

/-- FRER_LATENT_CHECK (R139): the frames passed and discarded since the last check should be equal in number. -/
def execFrerLatentCheck (pair : Nat) (s : State) : Res :=
  onHw s (fun h =>
    if h.eliminating pair then
      let f := h.frerOf pair
      let diff := if f.passed < f.discarded then f.discarded - f.passed else f.passed - f.discarded
      let h := h.setFrer pair { f with passed := 0, discarded := 0 }
      if 2 * h.fld (Reg.TSS_FRER_CFG pair) Fld.TSS_FRER_CFG_HISTORY < diff then h.post 1 0x0503 pair diff else h
    else h)

end Sys2Proof.Machine
end

