-- ==== Sys2Proof/Machine/GcsQos.lean ====
section
/-!
DEFINITION. The QOS commands (R48 to R60, R118 to R145, R353, R357, R358, R463).
-/
namespace Sys2Proof.Machine

/-! ### Class settings -/

/-- QOS_CLASS_SET (R118, R120, R121, R463). -/
def execQosClassSet (owner slot : Nat) (s : State) : Res :=
  onHw s (fun h => h.gcsRun owner slot 0x0501 Hw.serviceRules (fun q =>
    let p := q.w 0 % 32
    let cls := List.range 8
    let len (c : Nat) : Nat := bits (q.w (3 + c)) 13 0
    let quantum (c : Nat) : Nat := bits (q.w (3 + c)) 30 14
    let burst (c : Nat) : Nat := h.rn (Reg.TSS_WEIR_BURST (pcOf p c))
    h.vet ([h.deny owner 1 p, q.reserved ([0x0F00001F, 0x07FFFFFF, 0xFFFF0000] ++ List.replicate 8 0x7FFFFFFF),
        badAt (decide (8 < bits (q.w 0) 27 24)) 3] ++
        cls.map (fun c => badAt (decide (len c < 64) || decide (9216 < len c) || (h.weirOn (pcOf p c) && decide (burst c < len c))) (12 + 4 * c)) ++
        cls.map (fun c => badAt (decide (quantum c < len c)) (13 + 4 * c)))
      (.ok (
        let x := h.images [(Reg.TSS_PCP_MAP p, 0x07FFFFFF, q.w 1), (Reg.TSS_PORT_CFG p, 0xFFFF000F, q.w 2 + bits (q.w 0) 27 24)]
        cls.foldl (fun a c => a.images [(Reg.TSS_DWRR_QUANTUM (pcOf p c), 0x1FFFF, quantum c),
          (Reg.TSS_CLASS_MAXLEN (pcOf p c), 0x3FFF, len c)]) x) [])))

/-! ### Gate lists -/

/-- A list is put into the bank not in use and becomes pending, its start S computed (R124); it replaces one that is pending. -/
def Hw.pendGcl (h : Hw) (mac : Nat) (l : GateList) (stop : Bool) : Hw :=
  let bank := 1 - h.fld (Reg.TSS_GCL_CTRL mac) Fld.TSS_GCL_CTRL_BANK
  let old := if h.flag (Reg.TSS_GCL_CTRL mac) Fld.TSS_GCL_CTRL_EN then h.listOf mac else none
  ((h.setFld (Reg.TSS_GCL_CTRL mac) Fld.TSS_GCL_CTRL_PENDING (!stop).toNat).onTss (fun t => { t with
    lists := kvPut t.lists (mac * 2 + bank) l, pendOff := if stop then insertNew t.pendOff mac else without t.pendOff mac })).planSwitch mac old l

/-- QOS_GCL_LOAD (R122 to R124, R357). -/
def Hw.gcsGclLoad (h : Hw) (o : Nat) (q : Slot) : Gcs :=
  let m := q.w 0 % 32
  let en := bit (q.w 0) 16
  let n := q.w 7
  let ws := q.bufWords n
  let base := (q.w 1 + q.w 2 * 2 ^ 32) * 1000000000 + q.w 3
  let l : GateList := ⟨if en then ws else [], base, q.w 4, q.w 5, bits (q.w 0) 10 8, q.w 6⟩
  let running := h.flag (Reg.TSS_GCL_CTRL m) Fld.TSS_GCL_CTRL_EN
  let pre := h.flag (Reg.TSS_PORT_CFG m) Fld.TSS_PORT_CFG_PREEMPT_EN
  let bank := 1 - h.fld (Reg.TSS_GCL_CTRL m) Fld.TSS_GCL_CTRL_BANK
  let y := if en then (h.onTss (fun t => { t with lists := kvPut t.lists (m * 2 + bank) l })).showGcl m bank l else h.stopGcl m
  let common := [h.deny o 1 m, q.reserved [0x1071F, 0xFFFFFFFF, 0xFFFF, 0xFFFFFFFF, 0xFFFFFFFF, 0xFFFFFFFF, 0x3FF],
    badAt (decide (24 ≤ m)) 0, badAt (decide (1000000000 ≤ q.w 3)) 12]
  let cyc := badAt (decide (q.w 4 < 1000) || decide (1000000000 < q.w 4)) 16
  if !en && !running then h.vet common (.ok h [])
  else if !en then h.vet (common ++ [cyc]) (match Hw.judgeNew h y Hw.serviceRules with
    | some (c, d) => .no c d [] (if c = cBound then h.inc Reg.TSS_BOUND_REFUSED else h)
    | none => .ok (h.pendGcl m l true) [])
  else h.vet (common ++ [cyc, badAt (n = 0 || decide (1024 < n)) 28, badAt (q.w 10 != 4 * n) 40,
      badEntry ws (fun e => bits e 21 0 == 0 || bits e 23 22 == 3 || (!pre && bits e 23 22 != 0))])
    (match (Hw.serviceRules y).find? (fun d => !(Hw.serviceRules h).contains d), Hw.boundBreaks h (h.pendGcl m l false) with
      | some d, _ => h.refuse cDeadlock d
      | none, some d => .no cBound d [] (h.inc Reg.TSS_BOUND_REFUSED)
      | none, none => .ok (h.pendGcl m l false) [])

/-- QOS_GCL_LOAD (R357). -/
def execQosGclLoad (owner slot : Nat) (s : State) : Res :=
  onHw s (fun h => h.gcsRun owner slot 0x0502 noDeadlock (h.gcsGclLoad owner))

/-! ### Shapers, preemption, buckets -/

/-- QOS_CBS_SET (R130): word 0 class 10:8 and MAC 4:0, words 1 and 2 the images of TSS_CBS_IDLE and TSS_CBS_HICREDIT. -/
def execQosCbsSet (owner slot : Nat) (s : State) : Res :=
  onHw s (fun h => h.gcsRun owner slot 0x0503 Hw.serviceRules (fun q =>
    let m := q.w 0 % 32
    let c := bits (q.w 0) 10 8
    let k := m * 2 + (c - 5)
    let other := h.rn (Reg.TSS_CBS_IDLE (m * 2 + (6 - c)))
    let slope (w : Nat) : Nat := if getF w Fld.TSS_CBS_IDLE_EN = 1 then getF w Fld.TSS_CBS_IDLE_IDLE_SLOPE else 0
    h.vet [h.deny owner 1 m, q.reserved [0x71F, 0x81FFFFFF, 0xFFFFFFFF], badAt (decide (24 ≤ m)) 0, badAt (c != 5 && c != 6) 1,
        badAt (slope (q.w 1) != 0 && decide (3 * h.rateOf m < 4 * (slope (q.w 1) + slope other))) 4]
      (.ok (
        let x := h.images [(Reg.TSS_CBS_IDLE k, 0x81FFFFFF, q.w 1), (Reg.TSS_CBS_HICREDIT k, 0xFFFFFFFF, q.w 2)]
        if getF (q.w 1) Fld.TSS_CBS_IDLE_EN = 0 then x.onTss (fun t => { t with credit := kvDel t.credit k }) else x) [])))

/-- QOS_PREEMPT_SET (R127): word 0 the MAC, word 1 PREEMPT_EN, VERIFY_EN and ADD_FRAG as in TSS_PORT_CFG. -/
def execQosPreemptSet (owner slot : Nat) (s : State) : Res :=
  onHw s (fun h => h.gcsRun owner slot 0x0504 noDeadlock (fun q =>
    let m := q.w 0 % 32
    let r := Reg.TSS_PORT_CFG m
    let en := getF (q.w 1) Fld.TSS_PORT_CFG_PREEMPT_EN == 1
    let ver := getF (q.w 1) Fld.TSS_PORT_CFG_VERIFY_EN == 1
    let same := h.flag r Fld.TSS_PORT_CFG_PREEMPT_EN == en && h.flag r Fld.TSS_PORT_CFG_VERIFY_EN == ver
    h.vet [h.deny owner 1 m, q.reserved [31, 0xE80], badAt (decide (20 ≤ m)) 0]
      (.ok (
        let x := h.cfg r 0xE80 (q.w 1)
        if same then x else x.setFld r Fld.TSS_PORT_CFG_PREEMPT_ACTIVE (en && !ver && h.linkUp m).toNat) [])))

/-- The largest frame a bucket can be charged for (R132, R133). -/
def Hw.largestCharge (h : Hw) (b : Nat) : Nat :=
  if b < 256 then h.fld (Reg.TSS_CLASS_MAXLEN b) Fld.TSS_CLASS_MAXLEN_MAXLEN
  else if b < 768 then 9216
  else if h.flag (Reg.TSS_SLUICE_FILTER (b - 768)) Fld.TSS_SLUICE_FILTER_EN then
    h.fld (Reg.TSS_SLUICE_FILTER (b - 768)) Fld.TSS_SLUICE_FILTER_MAX_SDU
  else 9216

/-- An enabled filter applies a bucket (R135). -/
def Hw.metered (h : Hw) (b : Nat) : Bool :=
  decide (768 ≤ b) && h.flag (Reg.TSS_SLUICE_FILTER (b - 768)) Fld.TSS_SLUICE_FILTER_EN &&
    h.flag (Reg.TSS_SLUICE_FILTER (b - 768)) Fld.TSS_SLUICE_FILTER_METER_EN

/-- QOS_WEIR_SET (R132 to R134): word 0 the bucket, words 1 and 2 its images. The tokens are reset when RATE, BURST or EN changes. -/
def execQosWeirSet (owner slot : Nat) (s : State) : Res :=
  onHw s (fun h => h.gcsRun owner slot 0x0505 Hw.serviceRules (fun q =>
    let b := q.w 0
    let c := q.w 1
    let en := getF c Fld.TSS_WEIR_RATE_EN == 1
    let rate := getF c Fld.TSS_WEIR_RATE_RATE
    let burst := q.w 2
    let same := h.weirOn b == en && h.fld (Reg.TSS_WEIR_RATE b) Fld.TSS_WEIR_RATE_RATE == rate && h.rn (Reg.TSS_WEIR_BURST b) == burst
    h.vet [h.deny owner 7 b, q.reserved [0x1FFF, 0xFFFFFFFF, 0x01FFFFFF], badAt (decide (4864 ≤ b)) 0,
        badAt (decide (25000000 < rate) || (en && rate = 0)) 4, badAt (getF c Fld.TSS_WEIR_RATE_ACTION = 3) 7,
        badAt (decide (768 ≤ b) && getF c Fld.TSS_WEIR_RATE_ACTION == 1 && (h.ratedBy (b - 768)).isSome) 7,
        badAt (decide (burst < 64) || decide (2 ^ 24 < burst) || decide (burst < h.largestCharge b)) 8,
        badState (!en && h.metered b) 7 b]
      (.ok (
        let x := h.images [(Reg.TSS_WEIR_RATE b, 0xFFFFFFFF, c), (Reg.TSS_WEIR_BURST b, 0x01FFFFFF, burst)]
        if same then x.setTokens b (h.tokens b) else x.setTokens b (if b < 768 then 0 else burst * tokenUnit)) [])))

/-! ### The Sluice -/

/-- QOS_SLUICE_FILTER_SET (R135): word 0 the handle, word 1 the image of TSS_SLUICE_FILTER; BLOCKED stays. -/
def execQosSluiceFilterSet (owner slot : Nat) (s : State) : Res :=
  onHw s (fun h => h.gcsRun owner slot 0x0506 noDeadlock (fun q =>
    let k := q.w 0
    let c := q.w 1
    let en := getF c Fld.TSS_SLUICE_FILTER_EN == 1
    let meter := getF c Fld.TSS_SLUICE_FILTER_METER_EN == 1
    h.vet [h.denyAny owner ((2, k) :: (if getF c Fld.TSS_SLUICE_FILTER_GATE_EN = 1 then [(18, getF c Fld.TSS_SLUICE_FILTER_GATE)] else [])),
        q.reserved [4095, 0xFFF83FFF],
        badAt (en && meter && decide (h.rn (Reg.TSS_WEIR_BURST (768 + k)) < getF c Fld.TSS_SLUICE_FILTER_MAX_SDU)) 4,
        noObj (meter && !h.weirOn (768 + k)) 7 (768 + k),
        conflict (en && (h.ratedBy k).isSome) 16 ((h.ratedBy k).getD 0 / 256)]
      (.ok (h.cfg (Reg.TSS_SLUICE_FILTER k) 0xDFF83FFF c) [])))

/-- A Sluice list becomes pending, its start S computed (R124, R136). -/
def Hw.pendSluice (h : Hw) (g : Nat) (l : GateList) (stop : Bool) : Hw :=
  let bank := 1 - kvGetD h.tss.sBank g 0
  let old := if h.flag (Reg.TSS_SLUICE_GATE_CTRL g) Fld.TSS_SLUICE_GATE_CTRL_EN then h.sluiceList g else none
  (h.onTss (fun t => { t with
    lists := kvPut t.lists (100 + g * 2 + bank) l
    sPend := if stop then without t.sPend g else insertNew t.sPend g
    pendOff := if stop then insertNew t.pendOff (256 + g) else without t.pendOff (256 + g) })).planSwitch (256 + g) old l

/-- QOS_SLUICE_GATE_LOAD (R136): word 0 the gate, word 1 the image of TSS_SLUICE_GATE_CTRL, words 2 to 4 the base time as in
QOS_GCL_LOAD, word 5 the cycle, words 6 to 8 the host buffer of entries. EN = 0 stops the list as R357 says. INVALID_CLOSE comes into
force with the list. -/
def execQosSluiceGateLoad (owner slot : Nat) (s : State) : Res :=
  onHw s (fun h => h.gcsRun owner slot 0x0507 noDeadlock (fun q =>
    let g := q.w 0
    let c := q.w 1
    let en := getF c Fld.TSS_SLUICE_GATE_CTRL_EN == 1
    let n := getF c Fld.TSS_SLUICE_GATE_CTRL_LIST_LEN + 1
    let ws := q.bufWords n
    let l : GateList := ⟨if en then ws else [], (q.w 2 + q.w 3 * 2 ^ 32) * 1000000000 + q.w 4, q.w 5,
      getF c Fld.TSS_SLUICE_GATE_CTRL_INVALID_CLOSE,
      getF c Fld.TSS_SLUICE_GATE_CTRL_TB, 0⟩
    let running := h.flag (Reg.TSS_SLUICE_GATE_CTRL g) Fld.TSS_SLUICE_GATE_CTRL_EN
    h.vet ([h.deny owner 18 g, q.reserved [255, 0xDC00003F, 0xFFFFFFFF, 0xFFFF, 0xFFFFFFFF],
        badAt (decide (1000000000 ≤ q.w 4)) 16, badAt (q.w 5 = 0) 20] ++
        (if en then [badAt (q.w 8 != 4 * n) 32, badEntry ws (fun e => bits e 26 0 == 0)] else []))
      (.ok (if en || running then h.pendSluice g l (!en) else h) [])))

/-- QOS_SLUICE_UNBLOCK (R135): word 0 a stream handle, or with bit 31 a Sluice gate; logged with the owner that issued it. -/
def execQosSluiceUnblock (owner slot : Nat) (s : State) : Res :=
  onHw s (fun h => h.gcsRun owner slot 0x0508 noDeadlock (fun q =>
    let gate := bit (q.w 0) 31
    let k := q.w 0 % 4096
    h.vet [if gate then h.deny owner 18 k else h.deny owner 2 k, q.reserved [0x80000FFF], badAt (gate && decide (256 ≤ k)) 0]
      (.ok ((if gate then h.setFld (Reg.TSS_SLUICE_GATE_CTRL k) Fld.TSS_SLUICE_GATE_CTRL_CLOSED_INVALID 0
        else h.setFld (Reg.TSS_SLUICE_FILTER k) Fld.TSS_SLUICE_FILTER_BLOCKED 0).onTss (fun t => { t with
          unblockLog := t.unblockLog ++ [(owner, q.w 0)] })) [])))

/-- QOS_FRER_SET (R137, R138): word 0 the pair, words 1 to 3 its three registers. The recovery and generation state starts anew when the
pair's role or handles change or it is enabled; a change of FORCE keeps it. -/
def execQosFrerSet (owner slot : Nat) (s : State) : Res :=
  onHw s (fun h => h.gcsRun owner slot 0x0509 noDeadlock (fun q =>
    let n := q.w 0
    let c := q.w 1
    let hist := getF c Fld.TSS_FRER_CFG_HISTORY
    let ms := getF c Fld.TSS_FRER_CFG_RESET_MS
    let handles := [(2, bits (q.w 2) 11 0), (2, bits (q.w 3) 11 0)] ++ (if bit c 30 then [(2, bits (q.w 2) 27 16)] else [])
    let kept := bits (h.rn (Reg.TSS_FRER_CFG n)) 31 30 == bits c 31 30 && h.rn (Reg.TSS_FRER_HANDLE0 n) == q.w 2 &&
      h.rn (Reg.TSS_FRER_HANDLE1 n) == q.w 3
    h.vet [h.denyAny owner ((19, n) :: handles), q.reserved [63, 0xFFC00FFF, 0x0FFF0FFF, 0xFFF], badAt (bits c 29 28 = 3) 7,
        badAt (decide (hist < 2) || decide (32 < hist)) 6, badAt (ms = 0 || decide (1000 < ms)) 4]
      (.ok (
        let x := h.images [(Reg.TSS_FRER_CFG n, 0xFFC00FFF, c), (Reg.TSS_FRER_HANDLE0 n, 0x0FFF0FFF, q.w 2), (Reg.TSS_FRER_HANDLE1 n, 0xFFF, q.w 3)]
        if kept then x else x.onTss (fun t => { t with frer := kvDel t.frer n })) [])))

/-! ### Admitted streams -/

/-- QOS_STREAM_ADMIT (R144, R358). The failing term of a bound that was never in force is a free value unless it is unbounded. -/
def execQosStreamAdmit (owner slot : Nat) (s : State) : Res :=
  onHw s (fun h => h.gcsRun owner slot 0x050A Hw.serviceRules (fun q =>
    let k := q.w 0
    let w := q.w 2
    let a : Admitted := ⟨q.w 1, bits w 28 24, bits w 18 16, bits w 13 0, q.w 3, none⟩
    let x := (h.onTss (fun t => { t with admitted := kvPut t.admitted k a })).wn (Reg.TSS_STREAM_DECLARED k) a.declared
    let b := x.streamBound k a
    h.vet [h.denyAny owner ((2, k) :: (1, a.ingress) :: portsOf a.egress), q.reserved [4095, 0xFFFFFFFF, 0x1F073FFF],
        badAt (a.declared = 0 || a.declared = 0xFFFFFFFF) 4, badAt (decide (a.maxlen < 64) || decide (9216 < a.maxlen)) 8,
        badAt (a.egress = 0) 12, noObj (!h.fwd.em.any (fun e => e.2.isStream && e.2.stream == k)) 2 k,
        badState (kvGet h.tss.admitted k).isSome 2 k]
      (match if h.weirOn (768 + k) then Hw.judgeNew h x Hw.serviceRules else some (cBound, 2 ^ 31 + 7 * 2 ^ 16 + k) with
        | some (c, d) =>
          if c = cBound then
            let own := d % 4096 = k && d < 2 ^ 31
            .no c (if own then h.draw % 8 * 2 ^ 16 + 2 ^ 16 + k else d) [] ((if own then h.drawn else h).inc Reg.TSS_BOUND_REFUSED)
          else h.refuse c d
        | none => .ok x [b.1.getD 0xFFFFFFFF, b.2])))

/-- QOS_STREAM_WITHDRAW: word 0 the handle. -/
def execQosStreamWithdraw (owner slot : Nat) (s : State) : Res :=
  onHw s (fun h => h.gcsRun owner slot 0x050B noDeadlock (fun q =>
    let k := q.w 0
    h.vet [h.deny owner 2 k, q.reserved [4095], noObj (kvGet h.tss.admitted k).isNone 2 k]
      (.ok (((h.onTss (fun t => { t with admitted := kvDel t.admitted k })).wn (Reg.TSS_STREAM_BOUND k) 0xFFFFFFFF).wn
        (Reg.TSS_STREAM_DECLARED k) 0xFFFFFFFF).countBroken [])))

/-- QOS_BOUND_READ: the bound in ns (all ones: none), the egress it is reached at, the declared bound, and the nine terms of R143 and
R349 in ps, two words each, all ones when unbounded. -/
def execQosBoundRead (owner slot : Nat) (s : State) : Res :=
  onHw s (fun h => h.gcsRun owner slot 0x050C noDeadlock (fun q =>
    let k := q.w 0
    match kvGet h.tss.admitted k with
    | none => h.vet [h.denyRead owner 2 k, q.reserved [4095]] (h.refuse cNoObject (resWord 2 k))
    | some a =>
      let b := h.streamBound k a
      h.vet [h.denyRead owner 2 k, q.reserved [4095]]
        (h.tell ([b.1.getD 0xFFFFFFFF, b.2, a.declared] ++ (h.boundTerms k a b.2).flatMap (fun t => match t with
          | some v => [v % 2 ^ 32, v / 2 ^ 32]
          | none => [0xFFFFFFFF, 0xFFFFFFFF])))))

/-! ### The Basin -/

/-- The Basin takes up new thresholds: holds begin or end as R56 to R58 say; a class that is mode B while the global state stands is
held (R57). -/
def Hw.rehold (h : Hw) (pcs : List Nat) : Hw :=
  let h := pcs.foldl (fun a pc => if a.modeM pc && (kvGet a.swc.holdAt pc).isSome then a.endHold pc else a) h
  let h := if h.globalXoff then (pcs.filter (fun pc => !h.modeM pc)).foldl Hw.beginHold h else h
  (pcs.foldl Hw.checkXoff h).checkXon

/-- QOS_VOQ_SET (R48 to R50, R56): word 0 port × 8 + class, words 1 to 3 the images of SWC_VOQ_CFG, _THR and _HDRM. -/
def execQosVoqSet (owner slot : Nat) (s : State) : Res :=
  onHw s (fun h => h.gcsRun owner slot 0x050D Hw.deadlocks (fun q =>
    let pc := q.w 0
    let c := q.w 1
    let dq := getF c Fld.SWC_VOQ_CFG_DEFAULT_QUOTA
    let modeM := getF c Fld.SWC_VOQ_CFG_MODE == 1
    let x := h.images [(Reg.SWC_VOQ_CFG pc, 0x7F03, c), (Reg.SWC_VOQ_THR pc, 0xFFFFFFFF, q.w 2), (Reg.SWC_VOQ_HDRM pc, 0xFFFF, q.w 3)]
    h.vet [h.denyAny owner ((1, pc / 8) :: (if modeM then [(20, dq)] else [])), q.reserved [255, 0x7F03, 0xFFFFFFFF, 0xFFFF],
        badAt (modeM && decide (64 ≤ dq) && decide (dq < 112)) 5,
        badAt (decide (pc < 160) && h.flag (Reg.MAC_EEE_CFG (pc / 8)) Fld.MAC_EEE_CFG_EN &&
          x.eeeShort (pc / 8) (h.fld (Reg.MAC_EEE_CFG (pc / 8)) Fld.MAC_EEE_CFG_TW_US)) 12, x.quotaCheck, (x.voqBroken pc, cDeadlock, ruleCode (pc / 8) (pc % 8))]
      (.ok (x.rehold [pc]) [])))

/-- QOS_QUOTA_SET (R49 to R55): word 0 the quota, word 1 the image of SWC_MMQ_CFG. -/
def execQosQuotaSet (owner slot : Nat) (s : State) : Res :=
  onHw s (fun h => h.gcsRun owner slot 0x050E Hw.deadlocks (fun q =>
    let k := q.w 0
    let c := q.w 1
    let n := getF c Fld.SWC_MMQ_CFG_MAX_FRAME_CELLS
    let x := h.cfg (Reg.SWC_MMQ_CFG k) 0x80FFFFFF c
    h.vet [h.deny owner 20 k, q.reserved [127, 0x80FFFFFF], badAt (getF c Fld.SWC_MMQ_CFG_EN = 1 && (n = 0 || decide (36 < n))) 6,
        x.quotaCheck] (.ok x [])))

/-- QOS_SHARED_SET (R57, R60): words 1 and 2 the images of SWC_SHARED_CFG and SWC_MAX_SOJOURN; word 3, when the payload has it, the
image of SWC_CFG, which no rule gives a command (DESIGN CHOICE, log entry 159). -/
def execQosSharedSet (owner slot : Nat) (s : State) : Res :=
  onHw s (fun h => h.gcsRun owner slot 0x050F Hw.serviceRules (fun q =>
    let x := h.images ([(Reg.SWC_SHARED_CFG, 0x3FFFF, q.w 1), (Reg.SWC_MAX_SOJOURN, 0xFFFF, q.w 2)] ++
      (if 4 ≤ q.payload.length then [(Reg.SWC_CFG, 7, q.w 3)] else []))
    h.vet [only1 owner, q.reserved [0, 0x3FFFF, 0xFFFF, 7], badAt (q.w 2 = 0 || decide (2000 < q.w 2)) 8, x.quotaCheck]
      (.ok (x.rehold [0]) [])))

/-- A queue whose depth an owner may sample: its own host queues, VOQs between ports of its policy; owner 1 samples any (R78, R140). -/
def Hw.maySample (h : Hw) (o qn : Nat) : Bool :=
  o == 1 || (if qn < 8192 then h.mayRead o 1 (qn / 256) && h.mayRead o 1 (qn / 8 % 32)
    else decide (qn < 12288) && (qn - 8192) / 8 == o)

/-- QOS_QSAMPLER_SET (R140): word 0 the list, word 1 the image of TSS_QS_CFG, word 2 the number of queues, words 3 to 5 the host buffer
of their numbers. With EN = 0 no queues are named. -/
def execQosQsamplerSet (owner slot : Nat) (s : State) : Res :=
  onHw s (fun h => h.gcsRun owner slot 0x0510 noDeadlock (fun q =>
    let k := q.w 0
    let c := q.w 1
    let en := getF c Fld.TSS_QS_CFG_EN == 1
    let n := if en then q.w 2 else 0
    let ws := q.bufWords n
    let iv := getF c Fld.TSS_QS_CFG_INTERVAL
    let dst := getF c Fld.TSS_QS_CFG_DEST
    h.vet [h.deny owner 15 k, (en && owner != 1 && (dst - 8192) / 8 != owner, cDenied, resWord 15 k),
        (ws.any (fun w => !h.maySample owner (w % 16384)), cDenied, resWord 15 k), q.reserved [3, 0xF0FFFFFF],
        badAt (en && (iv = 0 || decide (1000 < iv))) 4, badAt (en && (decide (dst < 8208) || decide (10256 ≤ dst))) 5,
        badAt (en && (n = 0 || decide (256 < n))) 8, badAt (en && q.w 5 != 4 * n) 20, badEntry ws (fun w => decide (16384 ≤ w))]
      (.ok (
        let x := h.cfg (Reg.TSS_QS_CFG k) 0xF0FFFFFF c
        let x := x.onTss (fun t => { t with sweepAt := kvDel t.sweepAt k })
        if en then x.images ((List.range 256).map (fun i =>
          (Reg.TSS_QS_LIST k i, 0x80003FFF, if i < n then 2 ^ 31 + ws.getD i 0 else 0)))
        else x) [])))

end Sys2Proof.Machine
end

