-- ==== Sys2Proof/Machine/GcsTime.lean ====
section
/-!
DEFINITION. The TIME commands (R274 to R296, R353, R360). Payload words that R360 does not lay out are those of log entry 22 (DESIGN CHOICE).
-/
namespace Sys2Proof.Machine

/-- TIME_BASE_OP (R277, R360): the operation waits in firmware's own staging set, one at a time for a base, for the commit that
completes the command; checked only, its RESULT is what a commit now would give. -/
def execTimeBaseOp (owner slot : Nat) (s : State) : Res :=
  onHw s (fun h => h.gcsRun owner slot 0x0901 noDeadlock (fun q =>
    let k := owner * 32 + slot
    let b := q.w 0 % 8
    let op := bits (q.w 0) 10 8
    let o : TbOp := ⟨op, bit (q.w 0) 16, q.w 1 * 2 ^ 32 + q.w 2, q.w 3, q.w 5 * 2 ^ 32 + q.w 4, true, some k⟩
    let r := h.tbResult b o
    h.vet [h.deny owner 6 b, q.reserved [0x10707, 0xFFFF, 0xFFFFFFFF, 0x3FFFFFFF, 0xFFFFFFFF, 0xFF], badAt (op = 0 || decide (5 < op)) 1]
      (if q.checkOnly then (if r = 0 then .ok h [] else h.refuse cTimeResult r)
       else if (kvGet h.tim.fwOp b).isSome then .wait h
       else .wait (h.onTime (fun t => { t with fwOp := kvPut t.fwOp b o })))))

/-- TIME_BASE_READ: seconds high and low, nanoseconds, fraction, TIME_TB_STATE, ADJ low and high. -/
def execTimeBaseRead (owner slot : Nat) (s : State) : Res :=
  onHw s (fun h => h.gcsRun owner slot 0x0902 noDeadlock (fun q =>
    let b := q.w 0
    let ns := h.tbNs b
    h.vet [h.denyRead owner 6 b, q.reserved [7]]
      (h.tell [ns / 1000000000 / 2 ^ 32, ns / 1000000000 % 2 ^ 32, ns % 1000000000, h.tbRaw b % nsUnit / 2 ^ 15, h.rn (Reg.TIME_TB_STATE b),
        h.rn (Reg.TIME_TB_ADJ_LO b), h.rn (Reg.TIME_TB_ADJ_HI b)])))

/-- TIME_SUPERVISE_SET (R296): word 1 the alternate source (bit 31 configured), word 2 SLEW_PPM, word 3 SLEW_LIMIT_NS. -/
def execTimeSuperviseSet (owner slot : Nat) (s : State) : Res :=
  onHw s (fun h => h.gcsRun owner slot 0x0903 noDeadlock (fun q =>
    let b := q.w 0
    h.vet [h.deny owner 6 b, q.reserved [7, 0x801F0007, 0x1FF], badAt (q.w 2 = 0 || decide (100 < q.w 2)) 8]
      (.ok (
        let x := (h.setFld (Reg.TIME_TB_CTRL b) Fld.TIME_TB_CTRL_SLEW_PPM (q.w 2)).wn (Reg.TIME_TB_SLEW_LIMIT b) (q.w 3)
        x.onTime (fun t => { t with alt := if bit (q.w 1) 31 then kvPut t.alt b (q.w 1 % 2 ^ 31) else kvDel t.alt b })) [])))

/-- TIME_DOMAIN_SET (R283): word 0 the entry, word 1 its image, word 2 the owner event messages of mode 1 go to (0: P26). -/
def execTimeDomainSet (owner slot : Nat) (s : State) : Res :=
  onHw s (fun h => h.gcsRun owner slot 0x0904 noDeadlock (fun q =>
    let d := q.w 0
    let o := q.w 2
    h.vet [only1 owner, q.reserved [7, 0xFF800FFF, 0x1FF], (o != 0 && !h.own.active.contains o, cNoObject, o)]
      (.ok ((h.cfg (Reg.TIME_DOM_CFG d) 0xFF800FFF (q.w 1)).onTime (fun t => { t with
        domOwner := if o = 0 then kvDel t.domOwner d else kvPut t.domOwner d o })) [])))

/-- TIME_LINK_DELAY_SET (R284): word 0 the MAC, word 1 the image of TIME_PORT_LINK_DELAY. -/
def execTimeLinkDelaySet (owner slot : Nat) (s : State) : Res :=
  onHw s (fun h => h.gcsRun owner slot 0x0905 noDeadlock (fun q =>
    let m := q.w 0
    h.vet [h.deny owner 1 m, q.reserved [31], badAt (decide (24 ≤ m)) 0]
      (.ok (h.cfg (Reg.TIME_PORT_LINK_DELAY m) 0xFFFFFFFF (q.w 1)) [])))

/-- TIME_PULSE_SET (R291, R292): words 1 to 5 the images of the output's registers: at once while it is off or between two one-shots, else
at the next period boundary. Not while a VIE sync group holds it (R170). -/
def execTimePulseSet (owner slot : Nat) (s : State) : Res :=
  onHw s (fun h => h.gcsRun owner slot 0x0906 noDeadlock (fun q =>
    let p := q.w 0
    let c := q.w 1
    let en := bit c 31
    let per := bit c 30
    h.vet [only1 owner, q.reserved [7, 0xEE000000, 0xFFFFFFFF, 0x3FFFFFFF, 0xFFFFFFFF, 0xFFFFFFFF],
        badAt (decide (1000000000 ≤ q.w 3)) 12,
        badAt (en && per && (decide (q.w 4 < 1000) || decide (4000000000 < q.w 4))) 16,
        badAt (en && (decide (q.w 5 < 8) || decide (4000000000 < q.w 5) || (per && decide (q.w 4 < q.w 5 + 8)))) 20,
        (h.flag (Reg.TIME_PULSE_CFG p) Fld.TIME_PULSE_CFG_VIE_OWNED, cState, 0)]
      (.ok (h.pulseSet p [c, q.w 2, q.w 3, q.w 4, q.w 5]) [])))

/-- TIME_CAPTURE_SET (R293): word 1 the image of TIME_CAP_CFG. -/
def execTimeCaptureSet (owner slot : Nat) (s : State) : Res :=
  onHw s (fun h => h.gcsRun owner slot 0x0907 noDeadlock (fun q =>
    let c := q.w 0
    h.vet [only1 owner, q.reserved [7, 0xFE000000], badAt (bit (q.w 1) 31 && bits (q.w 1) 30 29 = 0) 7]
      (.ok (h.cfg (Reg.TIME_CAP_CFG c) 0xFE000000 (q.w 1)) [])))

/-- TIME_EPOCH_REQ (R289): word 0 the base; every event queue on it with epoch records enabled gets one. -/
def execTimeEpochReq (owner slot : Nat) (s : State) : Res :=
  onHw s (fun h => h.gcsRun owner slot 0x0908 noDeadlock (fun q =>
    let b := q.w 0
    h.vet [h.denyRead owner 6 b, q.reserved [7]] (.ok ((h.epochQueues b).foldl (fun a o => a.postEpoch o b) h) [])))

end Sys2Proof.Machine
end

