-- ==== Sys2Proof/Machine/Jobs.lean ====
section
/-!
DEFINITION. The lookaside engine of Treust at P27 (R384 to R391): job frames, slots, operations, result frames.
-/
namespace Sys2Proof.Machine

/-- STATUS of a result frame (R388). -/
def jsOk : Nat := 0
def jsLen : Nat := 1
def jsTag : Nat := 2
def jsVerify : Nat := 3
def jsKey : Nat := 4
def jsSeg : Nat := 5
def jsBad : Nat := 6
def jsLimit : Nat := 7
def jsRng : Nat := 9

/-- A segment of a job frame (R385): its header, and what follows it. -/
structure Seg where
  first : Bool
  last  : Bool
  tag   : Nat
  off   : Nat
  n     : Nat
  resQ  : Nat
  rest  : List Byte

/-- Read the segment header after the Ethertype. -/
def segOf (p : List Byte) : Seg :=
  let fl := be (sub p 1 1)
  ⟨fl.testBit 0, fl.testBit 1, be (sub p 2 2), be (sub p 4 4), be (sub p 8 2), be (sub p 10 1) % 8, p.drop 16⟩

/-- The data of a segment: in a first segment it follows the job header and the parameter block. -/
def Seg.data (g : Seg) : List Byte := if g.first then sub g.rest (48 + be (sub g.rest 18 2)) g.n else sub g.rest 0 g.n

/-- A frame P27 takes as a job frame (R384, R385): it comes from P24, P26, P28 or P29, is addressed to the engine, and the engine
accepts jobs. -/
def Hw.isJobFrame (h : Hw) (f : Frame) (d : Hdr) : Bool :=
  (f.ingress == 24 || f.ingress == 26 || f.ingress == 28 || f.ingress == 29)
    && h.flag Reg.SEC_JOB_CFG Fld.SEC_JOB_CFG_EN
    && d.da == h.rn Reg.SEC_JOB_DA_HI % 2 ^ 16 * 2 ^ 32 + h.rn Reg.SEC_JOB_DA_LO
    && d.etype == 0x88B6 && be (sub d.body 0 1) == 1

/-- Bytes of an AES key: 32 with bit 7 of OP, else 16. -/
def Job.keyBytes (j : Job) : Nat := if j.op.testBit 7 then 32 else 16

/-- The operation of a job. -/
def Job.opn (j : Job) : Nat := j.op % 128

/-- Keys an operation takes inline (R386). -/
def inlineKeys (op : Nat) : Nat := match op with
  | 1 => 1 | 2 => 1 | 3 => 1 | 4 => 1 | 5 => 2 | 6 => 2 | _ => 0

/-- PARAM_LEN of a job whose key is inline or not (R386). -/
def Job.paramWant (j : Job) (keySrc : Nat) : Nat :=
  (if keySrc = 0 then inlineKeys j.opn * j.keyBytes else 0)
    + (match j.opn with | 2 => j.tagLen | 4 => 16 | 8 => 192 | 9 => 96 | _ => 0)

/-- The declared lengths are within the limits of R386. -/
def Job.lengthsOk (j : Job) (keySrc paramLen : Nat) : Bool :=
  decide (j.total ≤ 2 ^ 24) && paramLen == j.paramWant keySrc &&
  (match j.opn with
   | 1 => decide (j.aad ≤ 65536) && decide (j.aad ≤ j.total) && decide (12 ≤ j.tagLen) && decide (j.tagLen ≤ 16)
   | 2 => decide (j.aad ≤ 65536) && decide (j.aad ≤ j.total) && decide (12 ≤ j.tagLen) && decide (j.tagLen ≤ 16)
   | 5 => decide (16 ≤ j.du) && decide (j.du ≤ j.total) && j.total % j.du == 0
   | 6 => decide (16 ≤ j.du) && decide (j.du ≤ j.total) && j.total % j.du == 0
   | 9 => j.total == 0 && keySrc == 1
   | 10 => decide (1 ≤ j.total) && decide (j.total ≤ 4096)
   | _ => true)

/-- Input bytes a job takes over all its segments: TOTAL_LEN, and none for a TRNG read. -/
def Job.inputWant (j : Job) : Nat := if j.opn = 10 then 0 else j.total

/-- A key of the job's owner as bytes: job key or the 48 bytes of the ECDH scalar (R370); the second XTS key of 256 bits, which a job
key does not give, is a free value. -/
def Hw.jobKey (h : Hw) (owner op i : Nat) : Option (List Byte) × Hw :=
  match h.master owner with
  | none => (none, h)
  | some mo =>
    if op % 128 = 9 then (some (toBe 48 (scalarOf (kdf mo lbEcdh (toBe 1 i) 448)).toNat), h)
    else
      let k := toBe 32 (kdfKey mo lbJobk (toBe 1 i)).toNat
      if (op = 5 + 128 || op = 6 + 128) = true then
        (some (k ++ toBe 16 h.draw ++ toBe 16 h.drawn.draw), h.drawn.drawn)
      else (some k, h)

/-- The job that a first segment declares, before its key is known, with KEY_SRC, KEY_INDEX and PARAM_LEN. -/
def Seg.job (g : Seg) (f : Frame) (src : Nat) : Job × Nat × Nat × Nat :=
  let b := g.rest
  let pl := be (sub b 18 2)
  (⟨f.owner, g.tag, be (sub b 0 1), [], be (sub b 4 4), be (sub b 8 4), be (sub b 12 4), be (sub b 16 1), sub b 20 16,
    sub b 48 pl, [], 0, g.resQ, f.cls, src, f.ingress, f.arrival, f.arrival⟩, be (sub b 1 1), be (sub b 2 2), pl)

/-! ### Operations -/

/-- The 256-bit key at byte `i` of a job's key. -/
def Job.key256 (j : Job) (i : Nat) : BitVec 256 := BitVec.ofNat 256 (be (sub j.key i 32))

/-- The 128-bit key at byte `i` of a job's key. -/
def Job.key128 (j : Job) (i : Nat) : BitVec 128 := BitVec.ofNat 128 (be (sub j.key i 16))

/-- GCM counter mode under the job's key. -/
def Job.ctr (j : Job) (l : List Byte) : List Byte :=
  let iv := j.iv.take 12
  if j.op.testBit 7 then gcmXor (j.key256 0) iv l else gcmXor128 (j.key128 0) iv l

/-- The GCM tag of the job over its AAD and a ciphertext, TAG_LEN bytes. -/
def Job.gcm (j : Job) (ct : List Byte) : List Byte :=
  let iv := j.iv.take 12
  let t := if j.op.testBit 7 then gcmTag (j.key256 0) iv (j.input.take j.aad) ct
    else gcmTag128 (j.key128 0) iv (j.input.take j.aad) ct
  (toBe 16 t.toNat).take j.tagLen

/-- The CMAC of the job's input. -/
def Job.cmac (j : Job) : List Byte :=
  toBe 16 (if j.op.testBit 7 then cmac256 (j.key256 0) j.input else cmac128 (j.key128 0) j.input).toNat

/-- Data unit `u` through XTS; the tweak counts data units, low byte first. -/
def Job.xts (j : Job) (u : Nat) (l : List Byte) : List Byte :=
  let tw := le j.iv + u
  let enc := j.opn == 5
  if j.op.testBit 7 then xts256 enc (j.key256 0) (j.key256 32) tw l
  else xts128 enc (j.key128 0) (j.key128 16) tw l

/-- What the job's input so far gives as streamed output: of GCM every byte after the AAD, of XTS every whole data unit (R388). -/
def Job.stream (j : Job) : List Byte :=
  match j.opn with
  | 1 => j.ctr (j.input.drop j.aad)
  | 2 => j.ctr (j.input.drop j.aad)
  | 5 => (List.range (j.input.length / j.du)).flatMap (fun u => j.xts u (sub j.input (u * j.du) j.du))
  | 6 => (List.range (j.input.length / j.du)).flatMap (fun u => j.xts u (sub j.input (u * j.du) j.du))
  | _ => []

/-- The parameter block after the inline keys. -/
def Job.tail (j : Job) (n : Nat) : List Byte := j.param.drop (j.param.length - n)

/-- The final output and STATUS of a job, given its random bytes (R386, R388, R389). -/
def Job.final (j : Job) (rnd : List Byte) : List Byte × Nat :=
  match j.opn with
  | 1 => (j.gcm (j.ctr (j.input.drop j.aad)), jsOk)
  | 2 => ([], if j.gcm (j.input.drop j.aad) == j.tail j.tagLen then jsOk else jsTag)
  | 3 => (j.cmac, jsOk)
  | 4 => ([], if j.cmac == j.tail 16 then jsOk else jsVerify)
  | 7 => (toBe 48 (sha384 j.input).toNat, jsOk)
  | 8 => ([], if ecdsaP384 (sub j.param 0 96) (sha384 j.input) (sub j.param 96 96) then jsOk else jsVerify)
  | 9 =>
    let d := BitVec.ofNat 384 (be j.key)
    (toBe 96 (pubP384 d).toNat ++ toBe 48 (ecdhShared d j.param).toNat, jsOk)
  | 10 => (rnd, jsOk)
  | _ => ([], jsOk)

/-! ### Results and ends -/

/-- A result frame (R384, R385, R388) to the submitting owner, without lookup, in the job frame's class. -/
def Hw.jobResult (h : Hw) (j : Job) (first last : Bool) (data : List Byte) (status : Nat) : Hw :=
  let da := h.rn Reg.SEC_JOB_DA_HI % 2 ^ 16 * 2 ^ 32 + h.rn Reg.SEC_JOB_DA_LO
  let flags := 128 + (if first then 1 else 0) + (if last then 2 else 0)
  let b := toBe 6 j.src ++ toBe 6 da ++ toBe 2 0x88B6 ++ toBe 1 1 ++ toBe 1 flags ++ toBe 2 j.tag ++ toBe 4 j.outAt
    ++ toBe 2 data.length ++ toBe 1 j.resQ ++ toBe 1 0 ++ toBe 4 status ++ data
  let kind := if 2 ≤ j.owner ∧ j.owner < 258 then 1000 + j.resQ else if j.owner < 2 then 126 else 100 + j.port
  h.sendInternal 27 ⟨j.owner, padFcs b, none, none, kind, some j.owner, some j.cls, none, none, h.clk⟩

/-- Count the end of a job: once as done, and each failure in the counter of its status. -/
def Hw.countJob (h : Hw) (status : Nat) : Hw :=
  let h := h.inc Reg.SEC_JOBS_DONE
  if status = jsLen then h.inc Reg.SEC_LEN_ERR
  else if status = jsTag then h.inc Reg.SEC_TAG_FAIL
  else if status = jsSeg then h.inc Reg.SEC_SEG_ERR
  else if status = jsKey ∨ status = jsBad ∨ status = jsLimit then h.inc Reg.SEC_JOB_REFUSED
  else h

/-- A job ends before its LAST input: one result frame with FIRST and LAST and no data. -/
def Hw.jobEarlyEnd (h : Hw) (j : Job) (status : Nat) : Hw := (h.jobResult j true true [] status).countJob status

/-- The slot leaves the table. -/
def Hw.freeSlot (h : Hw) (slot : Nat) : Hw := h.onSec (fun x => { x with jobs := kvDel x.jobs slot })

/-- An owner's running job with a tag, with its slot. -/
def Hw.jobOf (h : Hw) (owner tag : Nat) : Option (Nat × Job) :=
  h.sec.jobs.find? (fun e => e.2.owner == owner && e.2.tag == tag)

/-- Random bytes from the TRNG, drawn only when `n` is not zero. -/
def Hw.random (h : Hw) (n : Nat) : List Byte × Hw :=
  let k := (n + 15) / 16
  (((List.range k).flatMap (fun i => toBe 16 (Config.freeValue (h.free + i)).toNat)).take n, { h with free := h.free + k })

/-- A segment of the job in a slot (R387, R388): it continues the input, or the job ends SEG_ERR. -/
def Hw.jobSegment (h : Hw) (slot : Nat) (j : Job) (g : Seg) (cls : Nat) : Hw :=
  let data := g.data
  let j := { j with resQ := g.resQ, cls := cls, seen := h.clk }
  let have_ := j.input.length + data.length
  if g.off ≠ j.input.length ∨ data.length ≠ g.n ∨ j.inputWant < have_ ∨ (g.last = true ∧ have_ < j.inputWant) then
    (h.freeSlot slot).jobEarlyEnd j jsSeg
  else
    let j := { j with input := j.input ++ data }
    let out := j.stream.drop j.outAt
    if g.last then
      if j.opn = 10 ∧ h.flag Reg.SEC_STATUS Fld.SEC_STATUS_TRNG_FAIL = true then
        ((h.freeSlot slot).jobResult j g.first true [] jsRng).countJob jsRng
      else
        let r := h.random (if j.opn = 10 then j.total else 0)
        let e := j.final r.1
        ((r.2.freeSlot slot).jobResult j g.first true (out ++ e.1) e.2).countJob e.2
    else
      let h := h.jobResult j g.first false out jsOk
      h.onSec (fun x => { x with jobs := kvPut x.jobs slot { j with outAt := j.outAt + out.length } })

/-- A free slot: those whose LAST result has still to be issued are not (R387). -/
def Hw.freeJobSlot (h : Hw) : Option Nat :=
  if 256 ≤ h.sec.jobs.length + h.resultsHeld.length then none else (List.range 256).find? (fun i => (kvGet h.sec.jobs i).isNone)

/-- The first segment of a job takes a slot: its declarations are checked, BAD_JOB first, then KEY_ERR, then LEN_ERR (R386). -/
def Hw.jobFirst (h : Hw) (slot : Nat) (f : Frame) (src : Nat) (g : Seg) : Hw :=
  let (j, ks, ki, pl) := g.job f src
  if j.opn = 0 ∨ 10 < j.opn ∨ 1 < ks then h.jobEarlyEnd j jsBad
  else if ks = 1 ∧ ((if j.opn = 9 then 16 else 256) ≤ ki ∨ (h.master f.owner).isNone = true) then h.jobEarlyEnd j jsKey
  else if j.lengthsOk ks pl = false then h.jobEarlyEnd j jsLen
  else
    let k := if ks = 1 then h.jobKey f.owner j.op ki else (some (j.param.take (inlineKeys j.opn * j.keyBytes)), h)
    k.2.jobSegment slot { j with key := k.1.getD [] } g f.cls

/-- The frame waits at the head of its VOQ for a slot (R387). -/
def Hw.jobBlocked (h : Hw) (f : Frame) : Bool :=
  h.sec.waiting.any (fun i => match h.frame? i with
    | some w => w.id == f.id || (w.ingress == f.ingress && w.cls == f.cls)
    | none => false)

/-- A TRNG read ends only once the TRNG delivers (R391). -/
def Hw.jobHeld (h : Hw) (owner : Nat) (g : Seg) : Bool :=
  h.sec.trngDown && g.last && !h.flag Reg.SEC_STATUS Fld.SEC_STATUS_TRNG_FAIL &&
    (if g.first then be (sub g.rest 0 1) % 128 == 10
     else match h.jobOf owner g.tag with | some e => e.2.opn == 10 | none => false)

/-- Slots an owner holds. -/
def Hw.jobsOf (h : Hw) (o : Nat) : Nat :=
  (h.sec.jobs.filter (fun e => e.2.owner == o)).length + (h.resultsHeld.filter (· == o)).length

/-- First segments that wait for a slot and are still in the Basin. -/
def Hw.jobQueue (h : Hw) : List Nat := h.sec.waiting.filter (fun i => (h.copyAt 27 (fun f => f.id == i)).isSome)

/-- Without its FCS, the bytes of a frame. -/
def Hw.jobBytes (h : Hw) (f : Frame) : List Byte :=
  let b := h.readFrame f
  b.take (b.length - 4)

/-- A first segment reaches the engine: the job is refused, takes a slot, or waits for one in the order of arrival (R387). -/
def Hw.jobStart (h : Hw) (f : Frame) (src : Nat) (g : Seg) : Hw :=
  if h.fld Reg.SEC_JOB_CFG Fld.SEC_JOB_CFG_OWNER_MAX ≤ h.jobsOf f.owner then
    (h.takeAt 27 f).jobEarlyEnd (g.job f src).1 jsLimit
  else match h.freeJobSlot, h.jobQueue with
    | some slot, [] => (h.takeAt 27 f).jobFirst slot f src g
    | _, _ => h.onSec (fun x => { x with waiting := x.waiting ++ [f.id] })

/-- JOB_FRAME_RECEIVE (R384 to R389): the oldest frame granted at P27 that no waiting first segment of its VOQ holds up. A first
segment with the tag of a running job of its owner ends that job. -/
def execJobFrameReceive (s : State) : Res :=
  onHw s (fun h => match h.copyAt 27 (fun f => !h.jobBlocked f && !h.jobHeld f.owner (segOf (parseHdr (h.jobBytes f)).body)) with
    | none => h
    | some f =>
      let d := parseHdr (h.jobBytes f)
      if h.isJobFrame f d = false then (h.takeAt 27 f).inc Reg.SEC_JOB_REJECT
      else
        let g := segOf d.body
        match h.jobOf f.owner g.tag with
        | some e =>
          if g.first then ((h.freeSlot e.1).jobEarlyEnd e.2 jsSeg).jobStart f d.sa g
          else (h.takeAt 27 f).jobSegment e.1 e.2 g f.cls
        | none => if g.first then h.jobStart f d.sa g else h.takeAt 27 f)

/-- JOB_SLOT_ALLOCATE (R387): a slot is free; the first segment that has waited longest takes it. -/
def execJobSlotAllocate (s : State) : Res :=
  onHw s (fun h =>
    let h := h.onSec (fun x => { x with waiting := h.jobQueue })
    match h.sec.waiting, h.freeJobSlot with
    | i :: rest, some slot => match h.copyAt 27 (fun f => f.id == i) with
      | none => h
      | some f =>
        let d := parseHdr (h.jobBytes f)
        let g := segOf d.body
        if h.jobHeld f.owner g then h
        else
          let h := (h.onSec (fun x => { x with waiting := rest })).takeAt 27 f
          if h.fld Reg.SEC_JOB_CFG Fld.SEC_JOB_CFG_OWNER_MAX ≤ h.jobsOf f.owner then h.jobEarlyEnd (g.job f d.sa).1 jsLimit
          else h.jobFirst slot f d.sa g
    | _, _ => h)

/-- JOB_IDLE_TIMEOUT (R387): no segment has come for IDLE_US. -/
def execJobIdleTimeout (slot : Nat) (s : State) : Res :=
  onHw s (fun h => match kvGet h.sec.jobs slot with
    | none => h
    | some j =>
      if h.clk < j.seen + h.fld Reg.SEC_JOB_CFG Fld.SEC_JOB_CFG_IDLE_US * 500 then h
      else (h.freeSlot slot).jobEarlyEnd j jsSeg)

end Sys2Proof.Machine
end

