-- ==== Sys2Proof/Machine/Pwr.lean ====
section
/-!
DEFINITION. The rows of the power manager (R433 to R449): power on, resets, regulators, transitions, domains, rails, the reference
monitor, the thermal sensor.
-/
namespace Sys2Proof.Machine

/-! ### Power and resets -/

/-- POR (R449): VDD_AO rises; everything is reset, PD_AO too. The device starts up into ACTIVE, or stays in OFF with PWR_ON low. -/
def execPor (pwrOn : Bool) (s : State) : Res :=
  onHw s (fun h =>
    let h : Hw := { Hw.reset with clk := h.clk, free := h.free, out := h.out }
    if pwrOn then h
    else
      let h := h.onPwr (fun p => { p with busy := false, startUp := false, goal := 0, regUp := none })
      (h.setFld Reg.PWR_STATUS Fld.PWR_STATUS_TRANSITION 0).setFld Reg.PWR_STATUS Fld.PWR_STATUS_TARGET 0)

/-- The power state reached. -/
def Hw.powerState (h : Hw) : Nat := h.fld Reg.PWR_STATUS Fld.PWR_STATUS_STATE

/-- The regulators have been off for 2 ms (R435). -/
def Hw.regsOff2 (h : Hw) : Bool := decide (h.pwr.offAt + h.msLeast 2 ≤ h.clk)

/-- A wake from STANDBY starts (R433, R435). -/
def Hw.wakeStart (h : Hw) : Hw :=
  let t := h.fld Reg.PWR_WAKE_CFG Fld.PWR_WAKE_CFG_TARGET
  h.startDevice 3 (if t = 2 then 2 else 4)

/-- PWR_ON_EDGE (R433, R435): start-up from OFF with cause 7, from STANDBY as a wake once the regulators have been off for 2 ms; else
only recorded with a wake under way. -/
def execPwrOnEdge (s : State) : Res :=
  onHw s (fun h =>
    if !h.pwr.powered || h.pwr.rstLow || h.pwr.thermOff then h
    else if h.powerState = 0 ∧ !h.pwr.busy then h.startDevice 7 4
    else if h.powerState = 1 ∧ !h.pwr.busy then (if h.regsOff2 then (h.recordWake 28).wakeStart else h.wakeDetect 28)
    else if h.pwr.busy ∧ h.pwr.startUp ∧ h.pwr.cause = 3 then h.recordWake 28
    else if h.pwr.busy ∧ h.pwr.goal = 1 then h.wakeDetect 28
    else h)

/-- RST_N_LOW (R449, R450): any transition is abandoned, domains but PD_AO and armed PD_WAKE go off; OFF is left by PWR_ON alone. -/
def execRstNLow (s : State) : Res :=
  onHw s (fun h =>
    if !h.pwr.powered then h
    else if h.powerState = 0 ∧ !h.pwr.busy then h.onPwr (fun p => { p with rstLow := true })
    else (h.wipe []).onPwr (fun p => { p with
      rstLow := true, busy := true, startUp := true, goal := 4, cause := 1, regUp := none, regDown := none, boot := false, retry := false
      latched := [] }))

/-- RST_N_HIGH (R449, R453): start-up with cause 1; power-good is at once when the regulators are on. -/
def execRstNHigh (s : State) : Res :=
  onHw s (fun h =>
    if !h.pwr.rstLow then h
    else
      let h := h.onPwr (fun p => { p with rstLow := false })
      if h.powerState = 0 ∧ !h.pwr.busy then h else h.startDevice 1 4)

/-- TREUST_LOCKSTEP_FAULT (R449). -/
def execTreustLockstepFault (s : State) : Res := onHw s (fun h => if h.pg 4 then (h.wipe []).startDevice 6 4 else h)

/-- CONTROL_PAIR_FAULT (R14, R336, R449): the control firmware restarts; nothing else is reset. -/
def execControlPairFault (s : State) : Res := onHw s (fun h => if h.pg 5 then h.fwRestart else h)

/-- SYS_RESET_EXPIRE (R353): 1 ms after the completion of SYS_RESET. -/
def execSysResetExpire (s : State) : Res :=
  onHw s (fun h => match h.sys.resetReq with
    | some c => if c + 500000 ≤ h.clk then (h.wipe []).startDevice 2 4 else h
    | none => h)

/-! ### Regulators -/

/-- REG_DELAY_EXPIRE (R442): DELAY_MS after the previous channel's power-good the next regulator is enabled; the first has none
before it. -/
def execRegDelayExpire (s : State) : Res :=
  onHw s (fun h => match h.pwr.regUp with
    | some n =>
      let wait := if n = 0 then 0 else h.msLeast (h.fld (Reg.PWR_REG_CFG n) Fld.PWR_REG_CFG_DELAY_MS)
      if h.regOn n || decide (h.clk < h.pwr.regAt + wait) then h else h.setReg n true
    | none => h)

/-- REG_POWER_GOOD (R442): a regulator reports power-good; the next is due, or the last gives power-good of the device. -/
def execRegPowerGood (n : Nat) (s : State) : Res :=
  onHw s (fun h =>
    if 6 ≤ n ∨ !h.regOn n ∨ h.regPg n then h
    else
      let h := h.setFld (Reg.PWR_REG_CFG n) Fld.PWR_REG_CFG_PG 1
      if h.pwr.regUp ≠ some n then h
      else
        let h := h.onPwr (fun p => { p with regAt := h.clk })
        let limit := if h.pwr.startUp then regCount h.pwr.goal else 6
        match (List.range limit).find? (fun m => decide (n < m) && !h.regPg m) with
        | some m => h.onPwr (fun p => { p with regUp := some m })
        | none =>
          let h := h.onPwr (fun p => { p with regUp := none })
          if h.pwr.startUp && !h.flag Reg.PWR_STATUS Fld.PWR_STATUS_PG then h.powerGood else h.settle)

/-- A domain faults (R440): off again, recorded and counted; what requires it is not switched on. -/
def Hw.domainFault (h : Hw) (d : Nat) : Hw :=
  let h := ((h.setPair Reg.PWR_DOMAIN_ON_LO Reg.PWR_DOMAIN_ON_HI d 0).setPair Reg.PWR_DOMAIN_FAULT_LO Reg.PWR_DOMAIN_FAULT_HI d 1).emit
    (.padsOff d)
  let h := ((h.setFld Reg.PWR_STATUS Fld.PWR_STATUS_DOMAIN_FAULT 1).inc Reg.PWR_DOMAIN_FAULTS).post 1 0x0D02 d
  let want := dropDependents 8 [d] (without h.pwr.toOn d)
  let lost := h.pwr.ramping.filter (fun x => x != d && !want.contains x)
  let h := h.onPwr (fun p => { p with
    faults := insertNew p.faults d, toOn := want, ramping := p.ramping.filter (fun x => want.contains x) })
  lost.foldl (fun a x => (a.setPair Reg.PWR_DOMAIN_ON_LO Reg.PWR_DOMAIN_ON_HI x 0).emit (.padsOff x)) h

/-- REG_PG_TIMEOUT (R443): at start-up every enabled channel goes off and the device stays in STANDBY or OFF; in a transition PD_LPDDR
is left off. -/
def execRegPgTimeout (n : Nat) (s : State) : Res :=
  onHw s (fun h =>
    if 6 ≤ n ∨ h.pwr.regUp ≠ some n ∨ !h.regOn n ∨ h.regPg n
        ∨ h.clk < h.pwr.regAt + h.msLeast (h.fld (Reg.PWR_REG_CFG n) Fld.PWR_REG_CFG_PG_TIMEOUT_MS) then h
    else
      let h := (h.inc (Reg.PWR_REG_FAULTS n)).latchReg n
      if h.pwr.startUp then
        let goal := if h.pwr.fromOff then 0 else 1
        (h.setFld Reg.PWR_STATUS Fld.PWR_STATUS_TARGET goal).onPwr (fun p => { p with
          startUp := false, goal := goal, regUp := none, regDown := some 0, toOn := [], slot := none })
      else
        let h := h.post 1 0x0D03 n 0
        (h.onPwr (fun p => { p with regUp := none, regDown := some 4 })).domainFault 47)

/-- REG_PG_LOST (R443). -/
def execRegPgLost (n : Nat) (s : State) : Res :=
  onHw s (fun h =>
    if 6 ≤ n ∨ !h.regOn n ∨ !h.regPg n then h
    else
      let h := (h.setFld (Reg.PWR_REG_CFG n) Fld.PWR_REG_CFG_PG 0).inc (Reg.PWR_REG_FAULTS n)
      if n < 4 then
        let h := h.wipe []
        let fails := h.pwr.fails.filter (fun t => decide (h.clk < t + 500000000)) ++ [h.clk]
        let last := decide (3 ≤ fails.length)
        let h := h.onPwr (fun p => { p with
          fails := fails, retry := !last, busy := true, startUp := false, waking := false, goal := 1, regUp := none, regDown := some 0, boot := false })
        let h := h.setFld Reg.PWR_STATUS Fld.PWR_STATUS_TARGET 1
        if last then h.latchReg n else h
      else
        let h := if h.domOn 47 then h.domainOff 47 else h
        let h := (h.post 1 0x0D03 n 1).latchReg n
        h.onPwr (fun p => { p with toOn := without p.toOn 47, ramping := without p.ramping 47, regDown := some 4, regUp := none }))

/-- REG_RETRY_EXPIRE (R443): 10 ms after the loss the power-up is retried with cause 4, the regulators being off. -/
def execRegRetryExpire (s : State) : Res :=
  onHw s (fun h => if h.pwr.retry && decide (h.pwr.fails.getLastD 0 + h.msLeast 10 ≤ h.clk) && !(List.range 6).any h.regOn then h.startDevice 4 4 else h)

/-- REG_OFF_STEP (R442): the highest enabled regulator of those that go off is turned off, 1 ms after the one above it. -/
def execRegOffStep (s : State) : Res :=
  onHw s (fun h => match h.pwr.regDown with
    | none => h
    | some low =>
      let on := (List.range 6).filter (fun n => decide (low ≤ n) && h.regOn n)
      if h.clk < h.pwr.offAt + h.msLeast 1 then h else
      let h := match on.getLast? with | some n => h.setReg n false | none => h
      if on.length ≤ 1 then (h.onPwr (fun p => { p with regDown := none })).settle else h)

/-! ### Transitions and domains -/

/-- PWR_TRANSITION_START (R433, R434): the waiting request begins once no transition runs and, for STANDBY and OFF, 1 ms
after its completion. -/
def execPwrTransitionStart (s : State) : Res :=
  onHw s (fun h => match h.pwr.req with
    | some q => if h.pwr.busy || h.pwr.rstLow || decide (h.clk < q.due) then h else h.beginTransition q
    | none => h)

/-- Domains of a transition go off once the owners it tears down have lost their keys (R434). -/
def Hw.roundOff (h : Hw) : Hw :=
  if h.pwr.goal ≤ 2 ∧ h.own.tear.any (fun t => !t.2.erased) then h
  else
    let ds := takeUnits 4 h.offUnits
    let h := ds.foldl Hw.domainOff h
    (h.onPwr (fun p => { p with toOff := p.toOff.filter (fun d => !ds.contains d) })).settle

/-- Domains of a transition come on; PD_LPDDR waits for its regulators. -/
def Hw.roundOn (h : Hw) : Hw :=
  let h := if h.pwr.toOn.contains 47 ∧ h.pwr.regUp.isNone ∧ h.pwr.regDown.isNone then
      (match [4, 5].find? (fun n => !h.regPg n) with
       | some n => h.onPwr (fun p => { p with regUp := some n })
       | none => h)
    else h
  let ds := takeUnits 4 h.onUnits
  let h := ds.foldl (fun a d => a.setPair Reg.PWR_DOMAIN_ON_LO Reg.PWR_DOMAIN_ON_HI d 1) h
  h.onPwr (fun p => { p with ramping := p.ramping ++ ds })

/-- Less than 40 µs have passed since the last round (R439). -/
def Hw.sinceRound (h : Hw) : Bool := match h.pwr.roundAt with | some c => decide (h.clk < c + 20000) | none => false

/-- DOMAIN_SWITCH_ROUND (R439): every 40 µs, once the domains of the round before have settled; rails of the domains are off first;
then domains go off, then domains come on. -/
def execDomainSwitchRound (s : State) : Res :=
  onHw s (fun h =>
    if !h.pwr.busy || h.pwr.rails == 2 || h.pwr.rstLow || (h.pwr.startUp && !h.flag Reg.PWR_STATUS Fld.PWR_STATUS_PG) then h
    else if !h.pwr.ramping.isEmpty || h.sinceRound then h
    else
      let h := h.onPwr (fun p => { p with roundAt := some h.clk })
      if h.pwr.toOff.isEmpty then h.roundOn else h.roundOff)

/-- The March test of a start-up (R410, R441): every bank whose contents retention did not keep. -/
def Hw.bootMarch (h : Hw) : Hw :=
  let banks := (List.range 48).filter (fun b => !h.mem.kept.contains b)
  if banks.isEmpty then h.setReady Reg.MEM_STATUS Fld.MEM_STATUS_READY 1
  else h.marchStart banks false none 0

/-- DOMAIN_POWER_GOOD (R439, R440). -/
def execDomainPowerGood (d : Nat) (s : State) : Res :=
  onHw s (fun h =>
    if !h.pwr.ramping.contains d then h
    else
      let h := (h.setPair Reg.PWR_DOMAIN_PG_LO Reg.PWR_DOMAIN_PG_HI d 1).setPair Reg.PWR_DOMAIN_FAULT_LO Reg.PWR_DOMAIN_FAULT_HI d 0
      let any := h.rn Reg.PWR_DOMAIN_FAULT_LO + h.rn Reg.PWR_DOMAIN_FAULT_HI
      let h := h.setFld Reg.PWR_STATUS Fld.PWR_STATUS_DOMAIN_FAULT (if any = 0 then 0 else 1)
      let h := h.onPwr (fun p => { p with toOn := without p.toOn d, ramping := without p.ramping d })
      (if d = 6 then h.bootMarch else h).settle)

/-- DOMAIN_PG_TIMEOUT (R440), 40 µs after the round that closed its switch. PD_FABRIC is not left on without a Basin group (R438). -/
def execDomainPgTimeout (d : Nat) (s : State) : Res :=
  onHw s (fun h =>
    if !h.pwr.ramping.contains d || h.sinceRound then h
    else
      let h := h.domainFault d
      let basin (x : Nat) : Bool := decide (7 ≤ x) && decide (x ≤ 22)
      let h := if basin d && h.domOn 25 && !(List.range 16).any (fun g => h.domOn (7 + g) || h.pwr.toOn.contains (7 + g)) then
          let h := h.onPwr (fun p => { p with toOn := dropDependents 8 [25] (without p.toOn 25), ramping := without p.ramping 25 })
          h.domainOff 25
        else h
      h.settle)

/-- RAIL_STAGE_ADVANCE (R444): rails of the next stage whose ON_DELAY_MS has passed since the earlier stages settled are enabled, or
rails of the highest stage that goes off are switched off OFF_DELAY_MS after the stage above them. -/
def execRailStageAdvance (s : State) : Res :=
  onHw s (fun h =>
    if !h.pwr.busy then h
    else if h.pwr.rails = 2 then
      let k := (h.railsDown.map h.railStage).foldl max 0
      let due (r : Nat) : Bool := h.railStage r == k && h.railDue h.pwr.railAt r Fld.PWR_RAIL_SEQ_OFF_DELAY_MS
      let h := (h.railsDown.filter due).foldl Hw.railOff h
      let left := h.railsDown
      let h := if left.any (fun r => h.railStage r == k) then h else h.onPwr (fun p => { p with stage := k - 1, railAt := h.clk })
      if left.isEmpty then (h.onPwr (fun p => { p with rails := 0 })).settle else h
    else if h.pwr.rails = 1 ∧ h.railsSettled then
      match h.stagesLeft with
      | [] => h.settle
      | k :: ks =>
        let k := ks.foldl min k
        let waits (r : Nat) : Bool := h.railStage r == k && !h.railIsOn r && !h.railSettled r
        let due (r : Nat) : Bool := waits r && h.railDue h.railsSince r Fld.PWR_RAIL_SEQ_ON_DELAY_MS
        let h' := (h.railsUp.filter due).foldl Hw.railOn h
        if h.railsUp.any (fun r => waits r && !due r) then h' else (h'.onPwr (fun p => { p with stage := k + 1 })).settle
    else h)

/-! ### Wakes -/

/-- STANDBY_WAKE (R433, R435). -/
def execStandbyWake (s : State) : Res :=
  onHw s (fun h =>
    if h.powerState = 1 ∧ !h.pwr.busy ∧ !h.pwr.latched.isEmpty ∧ !h.pwr.thermOff ∧ h.regsOff2 then h.wakeStart else h)

/-- LISTEN_WAKE (R435): the domains of a detected source come on, or with LISTEN_AUTO the device goes on to ACTIVE. -/
def execListenWake (source : Nat) (s : State) : Res :=
  onHw s (fun h =>
    if 2 ≤ h.powerState ∧ !h.pwr.busy ∧ h.pwr.latched.contains source then
      let h := h.onPwr (fun p => { p with latched := without p.latched source })
      if h.powerState = 2 ∧ h.flag Reg.PWR_WAKE_CFG Fld.PWR_WAKE_CFG_LISTEN_AUTO then (h.beginTransition ⟨4, 0, 0, none, 0⟩).onPwr (fun p => { p with waking := p.busy })
      else
        let ds := (wakeDomains source).filter (fun d => !h.domOn d)
        if ds.isEmpty then h
        else
          let h := h.setFld Reg.PWR_STATUS Fld.PWR_STATUS_TRANSITION 1
          let h := h.setFld Reg.PWR_STATUS Fld.PWR_STATUS_TARGET h.powerState
          h.onPwr (fun p => { p with busy := true, startUp := false, goal := h.powerState, roundAt := none, toOn := ds, rails := 3, waking := true })
    else h)

/-- WAKE_TIMER_EXPIRE (R433): the wake timer, TIMER_S from the entry to STANDBY by CK_AO, whose crystal is within 50 ppm. -/
def execWakeTimerExpire (s : State) : Res :=
  onHw s (fun h =>
    let t := h.fld Reg.PWR_WAKE_CFG Fld.PWR_WAKE_CFG_TIMER_S
    if h.powerState = 1 ∧ t ≠ 0 ∧ h.pwr.standbyAt + t * 499975000 ≤ h.clk then h.wakeDetect 29 else h)

/-! ### The reference monitor (R446, R447) -/

/-- PWR_REF_PPM units of one ppm. -/
def ppmUnit : Int := 256

/-- The mean of a list of numbers. -/
def meanInt (l : List Int) : Int := if l.isEmpty then 0 else l.sum / l.length

/-- Enter holdover with the frequency word of the last good window: every locked base follows with CAUSE 4; the spec states no rate for it, so each takes a free one. -/
def Hw.clockHoldover (h : Hw) (word : Int) : Hw :=
  if h.flag Reg.PWR_CLK_STATUS Fld.PWR_CLK_STATUS_HOLDOVER then
    (h.setFld Reg.PWR_CLK_STATUS Fld.PWR_CLK_STATUS_RELOCKING 0).onPwr (fun p => { p with hold := 0 })
  else
    let h := (h.setFld Reg.PWR_CLK_STATUS Fld.PWR_CLK_STATUS_HOLDOVER 1).inc Reg.PWR_HOLDOVER_ENTRIES
    let h := h.post 1 0x0D05 0 (h.rn Reg.PWR_REF_PPM_LAST)
    let h := h.onPwr (fun p => { p with hold := 0, holdWord := word })
    ((List.range 8).filter (fun b => h.tbState b == 2)).foldl (fun a b => a.drawn.holdover b 4 a.freeRate) h

/-- REF_MONITOR_WINDOW (R446, R447): one window against CK_AO, its deviation in units of 2^-8 ppm. -/
def execRefMonitorWindow (ppm : Int) (s : State) : Res :=
  onHw s (fun h =>
    if h.powerState < 2 ∧ !h.pwr.busy then h
    else
      let l := (ppm :: h.pwr.ppm).take 8
      let mean := meanInt l
      let present := decide (-1000000 * ppmUnit < ppm)
      let h := (h.onPwr (fun p => { p with ppm := l })).wn Reg.PWR_REF_PPM_LAST (twos 32 ppm)
      let h := h.wn Reg.PWR_REF_PPM (twos 32 mean)
      let h := if present then h.setFld Reg.PWR_CLK_STATUS Fld.PWR_CLK_STATUS_REF_LOST 0 else h
      if h.flag Reg.PWR_CLK_STATUS Fld.PWR_CLK_STATUS_AO_XTAL_FAIL then h
      else
        let drifted := decide (200 * ppmUnit < mean.natAbs)
        let h := h.onPwr (fun p => { p with drift := if ppm.natAbs ≤ 180 * ppmUnit then p.drift + 1 else 0 })
        let was := h.flag Reg.PWR_CLK_STATUS Fld.PWR_CLK_STATUS_REF_DRIFT
        let h := if drifted && !was then
            ((h.setFld Reg.PWR_CLK_STATUS Fld.PWR_CLK_STATUS_REF_DRIFT 1).inc Reg.PWR_REF_DRIFT_EVENTS).post 1 0x0D04 0 (h.rn Reg.PWR_REF_PPM)
          else if was && decide (8 ≤ h.pwr.drift) && !drifted then h.setFld Reg.PWR_CLK_STATUS Fld.PWR_CLK_STATUS_REF_DRIFT 0
          else h
        if 1000 * ppmUnit < mean.natAbs ∨ 1000 * ppmUnit < ppm.natAbs then h.clockHoldover (h.pwr.ppm.getD 1 0)
        else if h.flag Reg.PWR_CLK_STATUS Fld.PWR_CLK_STATUS_HOLDOVER then
          let n := if present ∧ ppm.natAbs ≤ 200 * ppmUnit then h.pwr.hold + 1 else 0
          let h := h.onPwr (fun p => { p with hold := n })
          if 16 ≤ n then h.setFld Reg.PWR_CLK_STATUS Fld.PWR_CLK_STATUS_RELOCKING 1 else h
        else h)

/-- REF_EDGE_LOSS (R446). -/
def execRefEdgeLoss (s : State) : Res :=
  onHw s (fun h =>
    if h.flag Reg.PWR_CLK_STATUS Fld.PWR_CLK_STATUS_PLL_LOCK then
      (h.setFld Reg.PWR_CLK_STATUS Fld.PWR_CLK_STATUS_REF_LOST 1).clockHoldover (h.pwr.ppm.getD 0 0)
    else h)

/-- AO_XTAL_FAIL (R446). -/
def execAoXtalFail (s : State) : Res :=
  onHw s (fun h => if h.pwr.powered then h.setFld Reg.PWR_CLK_STATUS Fld.PWR_CLK_STATUS_AO_XTAL_FAIL 1 else h)

/-- PLL_RELOCK_DONE (R447). -/
def execPllRelockDone (s : State) : Res :=
  onHw s (fun h =>
    if h.flag Reg.PWR_CLK_STATUS Fld.PWR_CLK_STATUS_RELOCKING then
      ((h.setFld Reg.PWR_CLK_STATUS Fld.PWR_CLK_STATUS_RELOCKING 0).setFld Reg.PWR_CLK_STATUS Fld.PWR_CLK_STATUS_HOLDOVER 0).post 1 0x0D06 0
    else h)

/-! ### The thermal sensor (R448) -/

/-- Thermal shutdown: every domain but PD_AO goes off, the regulators in reverse order. -/
def Hw.thermalShutdown (h : Hw) (temp : Int) : Hw :=
  let h := (h.inc Reg.PWR_THERM_SHUTDOWNS).wipe []
  let h := [1, 2, 3].foldl (fun a d =>
    (a.setPair Reg.PWR_DOMAIN_ON_LO Reg.PWR_DOMAIN_ON_HI d 0).setPair Reg.PWR_DOMAIN_PG_LO Reg.PWR_DOMAIN_PG_HI d 0) h
  let h := (h.setFld Reg.PWR_THERM Fld.PWR_THERM_TEMP (twos 16 temp)).setFld Reg.PWR_STATUS Fld.PWR_STATUS_TARGET 1
  h.onPwr (fun p => { p with
    busy := true, startUp := false, goal := 1, regUp := none, regDown := some 0, thermOff := true, retry := false, boot := false })

/-- THERM_SAMPLE (R448): the junction temperature in units of 0.25 °C. -/
def execThermSample (temp : Int) (s : State) : Res :=
  onHw s (fun h =>
    if !h.pwr.powered then h
    else
      let h := h.setFld Reg.PWR_THERM Fld.PWR_THERM_TEMP (twos 16 temp)
      let warn : Int := h.fld Reg.PWR_THERM Fld.PWR_THERM_WARN_C * 4
      let set := h.flag Reg.PWR_STATUS Fld.PWR_STATUS_THERM_WARN
      let h := if warn ≤ temp ∧ !set then
          (h.setFld Reg.PWR_STATUS Fld.PWR_STATUS_THERM_WARN 1).post 1 0x0D07 0 (h.rn Reg.PWR_THERM)
        else if temp ≤ warn - 20 ∧ set then h.setFld Reg.PWR_STATUS Fld.PWR_STATUS_THERM_WARN 0
        else h
      if 520 ≤ temp ∧ !h.pwr.thermOff ∧ (List.range 6).any h.regOn then h.thermalShutdown temp else h)

/-- THERMAL_RESTART (R448): below 110 °C, at most once every 10 s. -/
def execThermalRestart (s : State) : Res :=
  onHw s (fun h =>
    let late := match h.pwr.thermAt with | some t => decide (t + 5000000000 ≤ h.clk) | none => true
    if h.pwr.thermOff ∧ signed 16 (h.fld Reg.PWR_THERM Fld.PWR_THERM_TEMP) < 440 ∧ late = true ∧ !(List.range 6).any h.regOn then
      (h.onPwr (fun p => { p with thermAt := some h.clk })).startDevice 5 4
    else h)

/-- LPDDR_READY (R455). -/
def execLpddrReady (s : State) : Res := onHw s (fun h => if h.pg 47 then h.setLpddr 1 else h)

end Sys2Proof.Machine
end

