-- ==== Sys2Proof/Machine/Ready.lean ====
section
/-!
DEFINITION. Readiness of each function (R42, R83, R146, R176, R183, R203, R206, R244, R298, R301, R416, R454, R468).
-/
namespace Sys2Proof.Machine

/-- BASIN_READY (R42): PD_FABRIC and a Basin group are on; the free list is built. -/
def execBasinReady (s : State) : Res :=
  onHw s (fun h =>
    if h.pg 25 && (List.range 16).any (fun g => h.pg (7 + g)) then
      h.setReady Reg.SWC_STATUS Fld.SWC_STATUS_READY 2
    else h)

/-- FWD_READY (R83): every entry of both replicas is invalid. -/
def execFwdReady (s : State) : Res :=
  onHw s (fun h =>
    if h.pg 23 && h.pg 24 && !h.flag Reg.FWD_STATUS Fld.FWD_STATUS_READY then
      let h := { h with fwd := { h.fwd with
        em := [], stashAge := [], lagA := [], lagB := [], vlan := [], mcast := [], nhop := [], lpm := [], acl := [],
        badUe := [], changes := [], shadow := Shadow.reset, struck := [] } }
      h.setReady Reg.FWD_STATUS Fld.FWD_STATUS_READY 3
    else h)

/-- TSS_READY (R146): all gates open, no list, all classes strict, no preemption, every bucket and filter disabled: the
registers hold their reset values since the domain came on. -/
def execTssReady (s : State) : Res :=
  onHw s (fun h => if h.pg 25 then h.setReady Reg.TSS_STATUS Fld.TSS_STATUS_READY 4 else h)

/-- VIE_READY (R176). -/
def execVieReady (s : State) : Res :=
  onHw s (fun h => if h.pg 44 then h.setReady Reg.VIE_STATUS Fld.VIE_STATUS_READY 5 else h)

/-- CAN_GROUP_READY (R206): groups 0 to 5, or 6 for the LIN controllers. -/
def execCanGroupReady (g : Nat) (s : State) : Res :=
  onHw s (fun h =>
    if g < 6 && h.pg (37 + g) then h.setReady Reg.FBUS_STATUS ⟨g, g⟩ (16 + g)
    else if g = 6 && h.pg 43 then h.setReady Reg.FBUS_STATUS Fld.FBUS_STATUS_LIN_READY 9
    else h)

/-- BRG_READY (R244, R273): the session table starts empty. -/
def execBrgReady (s : State) : Res :=
  onHw s (fun h =>
    if h.pg 37 then
      ({ h with brg := { h.brg with sess := [], claims := [] } }).setReady Reg.BRG_STATUS Fld.BRG_STATUS_READY 8
    else h)

/-- TIME_READY (R298): every base runs from 0 in UNSET, timestamp queues are empty and belong to owner 2. -/
def execTimeReady (s : State) : Res :=
  onHw s (fun h =>
    if h.pg 49 && !h.flag Reg.TIME_STATUS Fld.TIME_STATUS_READY then
      let h := { h with tim := { h.tim with base := [], run := [], past := [], txts := [], txtsOwner := [] } }
      h.setReady Reg.TIME_STATUS Fld.TIME_STATUS_READY 6
    else h)

/-- SQ_READY (R183): the PLLs the quad uses are locked. PLL A serves 25 and 10 Gb/s, PLL B the lower rates (R181). -/
def execSqReady (q : Nat) (s : State) : Res :=
  onHw s (fun h =>
    if q < 5 && h.pg (26 + q) then
      let h := (h.setFld (Reg.SQ_STATUS q) Fld.SQ_STATUS_PLLA_LOCK 1).setFld (Reg.SQ_STATUS q) Fld.SQ_STATUS_PLLB_LOCK 1
      h.setReady (Reg.SQ_STATUS q) Fld.SQ_STATUS_READY (56 + q)
    else h)

/-- MAC_READY (R203): its domain, and for E0 to E19 its quad, are ready. -/
def execMacReady (mac : Nat) (s : State) : Res :=
  onHw s (fun h =>
    if mac < 24 && h.pg (31 + mac / 4) && (decide (20 ≤ mac) || h.flag (Reg.SQ_STATUS (mac / 4)) Fld.SQ_STATUS_READY) then
      h.setReady (Reg.MAC_STATUS mac) Fld.MAC_STATUS_READY (32 + mac)
    else h)

/-- SBB_READY (R416). -/
def execSbbReady (s : State) : Res :=
  onHw s (fun h => if h.pg 48 then h.setReady Reg.SBB_STATUS Fld.SBB_STATUS_READY 7 else h)

/-- EVF_READY (R468). The fabric has no bit among the readiness mirrors. -/
def execEvfReady (s : State) : Res :=
  onHw s (fun h => if h.pg 5 then h.setFld Reg.EVF_STATUS Fld.EVF_STATUS_READY 1 else h)

end Sys2Proof.Machine
end

