-- ==== Sys2Proof/Machine/Wake.lean ====
section
/-!
DEFINITION. The wake detectors of PD_WAKE (R194, R195, R228, R229, R235), and the commit of a time base (R277), which completes
the TIME_BASE_OP that waits for it.
-/
namespace Sys2Proof.Machine

/-! ### Ethernet (R194, R195) -/

/-- Byte `i` of wake pattern `k` of a MAC; bytes 64 on are the mask (R195's register text). -/
def Hw.wakeByte (h : Hw) (mac k i : Nat) : Nat := h.rn (Reg.MAC_WAKE_PAT mac (k * 32 + i / 4)) / 256 ^ (i % 4) % 256

/-- A frame's first 64 bytes match pattern `k` under its mask; a frame of fewer bytes matches none. -/
def Hw.wakeMatch (h : Hw) (mac k : Nat) (b : List Byte) : Bool :=
  h.rn (Reg.MAC_WAKE_PAT_EN mac) / 2 ^ k % 2 == 1 && decide (64 ≤ b.length) &&
  (List.range 64).all (fun i =>
    let m := h.wakeByte mac k (64 + i)
    (b.getD i 0).toNat &&& m == h.wakeByte mac k i &&& m)

/-- ETH_WAKE_DETECT (R194, R195): the deglitched input ETH_WAKE_n takes a level, which wakes when it is the active one, or a frame is at
the wake receiver of E20 to E23, while the MAC group is off. The frame is not forwarded. -/
def execEthWakeDetect (mac : Nat) : Bool × List Byte → State → Res
  | (level, bytes), s => onHw s (fun h =>
    if 24 ≤ mac ∨ h.domOn (31 + mac / 4) ∨ !h.pg 2 then h
    else if mac < 20 then (if h.mac.wakePol.contains mac == level then h.wakeDetect (32 + mac) else h)
    else if fcsGood bytes ∧ (List.range 4).any (fun k => h.wakeMatch mac k bytes) then h.wakeDetect (16 + (mac - 20))
    else h)

/-! ### CAN (R228, R229) -/

/-- Detector `w` watches its bus: it is enabled and powered, and its controllers' group is off. -/
def Hw.canwOn (h : Hw) (w : Nat) : Bool :=
  decide (w < 8) && h.pg 1 && !h.domOn 37 && h.flag (Reg.CANW_CFG w) Fld.CANW_CFG_EN

/-- The four conditions of a match. -/
def Hw.canwMatches (h : Hw) (w ident : Nat) (ide : Bool) (dlc : Nat) (data : List Byte) : Bool :=
  let c := h.rn (Reg.CANW_CFG w)
  let m := h.rn (Reg.CANW_ID_MASK w) % 2 ^ 29
  let d := wordsOf 2 ((data ++ List.replicate 8 0).take 8)
  ident &&& m == h.rn (Reg.CANW_ID w) &&& m &&
  getF c Fld.CANW_CFG_IDE == ide.toNat &&
  (getF c Fld.CANW_CFG_DLC_EN == 0 || getF c Fld.CANW_CFG_DLC == dlc) &&
  d.getD 0 0 &&& h.rn (Reg.CANW_DMASK_LO w) == h.rn (Reg.CANW_DATA_LO w) &&& h.rn (Reg.CANW_DMASK_LO w) &&
  d.getD 1 0 &&& h.rn (Reg.CANW_DMASK_HI w) == h.rn (Reg.CANW_DATA_HI w) &&& h.rn (Reg.CANW_DMASK_HI w)

/-- CANW_MATCH (R228, R229): detector `w` has decoded a classical frame; its identifier stands as in a message record (R208). -/
def execCanwMatch (w ident : Nat) (ide : Bool) (dlc : Nat) (data : List Byte) (s : State) : Res :=
  onHw s (fun h =>
    if !h.canwOn w then h
    else
      let st := Reg.CANW_STATUS w
      let h := h.setFld st Fld.CANW_STATUS_ERRORS (h.fld st Fld.CANW_STATUS_ERRORS - 1)
      if h.canwMatches w ident ide dlc data then
        let len := min dlc 8
        let ws := [w * 2 ^ 22 + ide.toNat * 2 ^ 21 + len, ident % 2 ^ 29, 0] ++ wordsOf 2 ((data.take len ++ List.replicate 8 0).take 8)
        let h := (ws.mapIdx (fun i x => (i, x))).foldl (fun a p => a.wn (Reg.CANW_LAST w p.1) p.2) h
        (h.setFld st Fld.CANW_STATUS_MATCHED 1).wakeDetect w
      else h)

/-- CANW_DECODE_ERROR (R229): one more error, unless the frame is FD or XL and FD_PASSIVE ignores it; at 32 FRAME_ERR, and with
ERR_WAKE a wake. -/
def execCanwDecodeError (w : Nat) (fd : Bool) (s : State) : Res :=
  onHw s (fun h =>
    if !h.canwOn w || (fd && h.flag (Reg.CANW_CFG w) Fld.CANW_CFG_FD_PASSIVE) then h
    else
      let st := Reg.CANW_STATUS w
      let n := min (h.fld st Fld.CANW_STATUS_ERRORS + 1) 63
      let h := h.setFld st Fld.CANW_STATUS_ERRORS n
      if n = 32 then
        let h := h.setFld st Fld.CANW_STATUS_FRAME_ERR 1
        if h.flag (Reg.CANW_CFG w) Fld.CANW_CFG_ERR_WAKE then h.wakeDetect (8 + w) else h
      else h)

/-! ### LIN (R235) -/

/-- LIN_WAKE_DETECT (R235): a dominant level of 150 µs, reported as a record by a powered controller, as a wake by the detector
of PD_WAKE2 while PD_LIN is off. -/
def execLinWakeDetect (l : Nat) (s : State) : Res :=
  onHw s (fun h =>
    if 16 ≤ l then h
    else if h.linOn l then h.linRecord l 10
    else if !h.domOn 43 ∧ h.pg 3 then h.wakeDetect (64 + l)
    else h)

/-! ### GPIO (R427, R433) -/

/-- GPIO_EDGE (R427): the qualified level of a line changes. While PD_SIDEBAND is off GPIO_0 to GPIO_7 are wake inputs; the spec
states no polarity for them, so either change is a detection. -/
def execGpioEdge (line : Nat) (level : Bool) (s : State) : Res :=
  onHw s (fun h =>
    if 48 ≤ line then h
    else if h.pg 48 then
      let c := Reg.SBB_GPIO_CFG line
      let h := h.setFld c Fld.SBB_GPIO_CFG_IN (if level then 1 else 0)
      let e := h.fld c Fld.SBB_GPIO_CFG_EDGE
      if h.fld c Fld.SBB_GPIO_CFG_DIR = 0 ∧ ((level ∧ e % 2 = 1) ∨ (!level ∧ 2 ≤ e)) then h.fire [48 + line] else h
    else if line < 8 ∧ !h.domOn 48 then h.wakeDetect (20 + line)
    else h)

/-! ### The commit of a time base (R277 to R279, R361) -/

/-- The result a TIME_BASE_OP completes with: TIME_RESULT with DETAIL naming a refusal. -/
def Hw.tbCommitted (h : Hw) (b : Nat) : Hw :=
  match h.tbCommit b with
  | (none, x) => x
  | (some (k, r), x) => if r = 0 then x.complete k cOk 0 [] else x.complete k cTimeResult r []

/-- TIME_TB_COMMIT (R277): a base crosses a whole nanosecond with an operation waiting. -/
def execTimeTbCommit (b : Nat) (s : State) : Res := onHw s (fun h => if b < 8 ∧ h.pg 49 then h.tbCommitted b else h)

end Sys2Proof.Machine
end

