-- ==== Sys2Proof/Machine/Dispatch.lean ====
section
/-!
DEFINITION. The dispatch of a command to its meaning, one arm per constructor.
-/
namespace Sys2Proof.Machine

def exec (i : Instr) (s : State) : Host.Outcome State Fault Refusal :=
  match i with
  | .registerWrite fn off en val => Sys2Proof.Machine.execRegisterWrite fn off en val s
  | .w1cWrite fn off en val hwSet => Sys2Proof.Machine.execW1cWrite fn off en val hwSet s
  | .rcCounterRead fn off en incr => Sys2Proof.Machine.execRcCounterRead fn off en incr s
  | .mmqPeakRead fn off en => Sys2Proof.Machine.execMmqPeakRead fn off en s
  | .octetsLoRead fn off en => Sys2Proof.Machine.execOctetsLoRead fn off en s
  | .basinReady => Sys2Proof.Machine.execBasinReady s
  | .fwdReady => Sys2Proof.Machine.execFwdReady s
  | .tssReady => Sys2Proof.Machine.execTssReady s
  | .vieReady => Sys2Proof.Machine.execVieReady s
  | .canGroupReady g => Sys2Proof.Machine.execCanGroupReady g s
  | .brgReady => Sys2Proof.Machine.execBrgReady s
  | .timeReady => Sys2Proof.Machine.execTimeReady s
  | .sqReady q => Sys2Proof.Machine.execSqReady q s
  | .macReady mac => Sys2Proof.Machine.execMacReady mac s
  | .hdmaReady => Sys2Proof.Machine.execHdmaReady s
  | .sbbReady => Sys2Proof.Machine.execSbbReady s
  | .evfReady => Sys2Proof.Machine.execEvfReady s
  | .frameFirstCell port head age owner ecc => Sys2Proof.Machine.execFrameFirstCell port head age owner ecc s
  | .frameLookupStart port => Sys2Proof.Machine.execFrameLookupStart port s
  | .frameLookupDone port ecc => Sys2Proof.Machine.execFrameLookupDone port ecc s
  | .frameTail port rest symErr ecc => Sys2Proof.Machine.execFrameTail port rest symErr ecc s
  | .arbiterIteration => Sys2Proof.Machine.execArbiterIteration s
  | .egressTxStart e => Sys2Proof.Machine.execEgressTxStart e s
  | .egressFrameEnd e ecc => Sys2Proof.Machine.execEgressFrameEnd e ecc s
  | .pauseRepeat pc => Sys2Proof.Machine.execPauseRepeat pc s
  | .internalSourceStart port => Sys2Proof.Machine.execInternalSourceStart port s
  | .sojournAgeout frame => Sys2Proof.Machine.execSojournAgeout frame s
  | .moderatedRecordFlush kind w3 => Sys2Proof.Machine.execModeratedRecordFlush kind w3 s
  | .auditPassStart => Sys2Proof.Machine.execAuditPassStart s
  | .auditPassEnd leaks doubles => Sys2Proof.Machine.execAuditPassEnd leaks doubles s
  | .learnAccept => Sys2Proof.Machine.execLearnAccept s
  | .refreshAccept => Sys2Proof.Machine.execRefreshAccept s
  | .ageTick => Sys2Proof.Machine.execAgeTick s
  | .learnMessageReceive pipeB => Sys2Proof.Machine.execLearnMessageReceive pipeB s
  | .moveWindowClose key => Sys2Proof.Machine.execMoveWindowClose key s
  | .cascadeLearnSend => Sys2Proof.Machine.execCascadeLearnSend s
  | .cascadeLearnReceive => Sys2Proof.Machine.execCascadeLearnReceive s
  | .cascadeWithdraw port => Sys2Proof.Machine.execCascadeWithdraw port s
  | .portFlushOnDown port => Sys2Proof.Machine.execPortFlushOnDown port s
  | .tableUeRepair authFail => Sys2Proof.Machine.execTableUeRepair authFail s
  | .scrubPass mism auth => Sys2Proof.Machine.execScrubPass mism auth s
  | .scrubRecheck table index pipeB still authFail => Sys2Proof.Machine.execScrubRecheck table index pipeB still authFail s
  | .scrubDefer table index pipeB => Sys2Proof.Machine.execScrubDefer table index pipeB s
  | .pfcFrameReceive mac enable quanta => Sys2Proof.Machine.execPfcFrameReceive mac enable quanta s
  | .pfcPauseExpire mac cls => Sys2Proof.Machine.execPfcPauseExpire mac cls s
  | .gclEntryAdvance mac => Sys2Proof.Machine.execGclEntryAdvance mac s
  | .gclSwitch mac => Sys2Proof.Machine.execGclSwitch mac s
  | .gclRestart mac => Sys2Proof.Machine.execGclRestart mac s
  | .preemptVerifyDone mac => Sys2Proof.Machine.execPreemptVerifyDone mac s
  | .noticeExpire mac => Sys2Proof.Machine.execNoticeExpire mac s
  | .sluiceGateAdvance gate => Sys2Proof.Machine.execSluiceGateAdvance gate s
  | .frerRecoveryReset pair => Sys2Proof.Machine.execFrerRecoveryReset pair s
  | .frerLatentCheck pair => Sys2Proof.Machine.execFrerLatentCheck pair s
  | .qsamplerSweep list descs => Sys2Proof.Machine.execQsamplerSweep list descs s
  | .viePacketObserve behind => Sys2Proof.Machine.execViePacketObserve behind s
  | .vieVerdict stream => Sys2Proof.Machine.execVieVerdict stream s
  | .vieMissingExpire stream => Sys2Proof.Machine.execVieMissingExpire stream s
  | .vieNoticeTask => Sys2Proof.Machine.execVieNoticeTask s
  | .vieFallbackTask => Sys2Proof.Machine.execVieFallbackTask s
  | .vieFrerTask => Sys2Proof.Machine.execVieFrerTask s
  | .vieHostTask => Sys2Proof.Machine.execVieHostTask s
  | .vieHeartbeat stream => Sys2Proof.Machine.execVieHeartbeat stream s
  | .rsvTriggerTask k => Sys2Proof.Machine.execRsvTriggerTask k s
  | .rsvPostExpire ring => Sys2Proof.Machine.execRsvPostExpire ring s
  | .lineLoss mac rest => Sys2Proof.Machine.execLineLoss mac rest s
  | .linkDown mac => Sys2Proof.Machine.execLinkDown mac s
  | .linkUp mac rate => Sys2Proof.Machine.execLinkUp mac rate s
  | .sqPllUnlock quad pll => Sys2Proof.Machine.execSqPllUnlock quad pll s
  | .plcaOpportunity mac => Sys2Proof.Machine.execPlcaOpportunity mac s
  | .plcaBeaconLoss mac => Sys2Proof.Machine.execPlcaBeaconLoss mac s
  | .plcaBeaconHeard mac => Sys2Proof.Machine.execPlcaBeaconHeard mac s
  | .t1sCollision mac => Sys2Proof.Machine.execT1sCollision mac s
  | .t1sBackoffExpire mac => Sys2Proof.Machine.execT1sBackoffExpire mac s
  | .eeeLpiEnter mac => Sys2Proof.Machine.execEeeLpiEnter mac s
  | .eeeLpiExit mac => Sys2Proof.Machine.execEeeLpiExit mac s
  | .eeeWakeDone mac => Sys2Proof.Machine.execEeeWakeDone mac s
  | .partnerLpiChange mac on => Sys2Proof.Machine.execPartnerLpiChange mac on s
  | .ethWakeDetect mac bytes => Sys2Proof.Machine.execEthWakeDetect mac bytes s
  | .canIntegrate ctl => Sys2Proof.Machine.execCanIntegrate ctl s
  | .canFrameReceive ctl fmt w0 w1 w2 data age => Sys2Proof.Machine.execCanFrameReceive ctl fmt w0 w1 w2 data age s
  | .canRxqPop ctl q next => Sys2Proof.Machine.execCanRxqPop ctl q next s
  | .canError ctl type tx severe age => Sys2Proof.Machine.execCanError ctl type tx severe age s
  | .canBusRecover ctl => Sys2Proof.Machine.execCanBusRecover ctl s
  | .canTxRequest ctl rec => Sys2Proof.Machine.execCanTxRequest ctl rec s
  | .canBusIdleOffer ctl => Sys2Proof.Machine.execCanBusIdleOffer ctl s
  | .canTxArbLost ctl => Sys2Proof.Machine.execCanTxArbLost ctl s
  | .canTxComplete ctl age tdcv => Sys2Proof.Machine.execCanTxComplete ctl age tdcv s
  | .canModeApply ctl => Sys2Proof.Machine.execCanModeApply ctl s
  | .canFilterApply ctl => Sys2Proof.Machine.execCanFilterApply ctl s
  | .canSchedCycleStart ctl => Sys2Proof.Machine.execCanSchedCycleStart ctl s
  | .canSchedSlotStart ctl slot => Sys2Proof.Machine.execCanSchedSlotStart ctl slot s
  | .canSchedWindowEnd ctl slot => Sys2Proof.Machine.execCanSchedWindowEnd ctl slot s
  | .canSchedRestart ctl => Sys2Proof.Machine.execCanSchedRestart ctl s
  | .canwMatch w ident ide dlc data => Sys2Proof.Machine.execCanwMatch w ident ide dlc data s
  | .canwDecodeError w fd => Sys2Proof.Machine.execCanwDecodeError w fd s
  | .linSchedEntry l => Sys2Proof.Machine.execLinSchedEntry l s
  | .linHeaderReceive l pid syncOk stopOk => Sys2Proof.Machine.execLinHeaderReceive l pid syncOk stopOk s
  | .linResponseReceive l data csum framing bitErr => Sys2Proof.Machine.execLinResponseReceive l data csum framing bitErr s
  | .linResponseTimeout l got => Sys2Proof.Machine.execLinResponseTimeout l got s
  | .linBusIdle l => Sys2Proof.Machine.execLinBusIdle l s
  | .linWakeDetect l => Sys2Proof.Machine.execLinWakeDetect l s
  | .linWakeSignalEnd l => Sys2Proof.Machine.execLinWakeSignalEnd l s
  | .rillDmaMove f descs => Sys2Proof.Machine.execRillDmaMove f descs s
  | .rillWinPop fn off en => Sys2Proof.Machine.execRillWinPop fn off en s
  | .rillPointerMismatch f descs => Sys2Proof.Machine.execRillPointerMismatch f descs s
  | .bridgeDispatchSlot => Sys2Proof.Machine.execBridgeDispatchSlot s
  | .j1939TpTimeout src sa da => Sys2Proof.Machine.execJ1939TpTimeout src sa da s
  | .signalMappingApply => Sys2Proof.Machine.execSignalMappingApply s
  | .signalPeriodicIssue buf => Sys2Proof.Machine.execSignalPeriodicIssue buf s
  | .signalTimeout map => Sys2Proof.Machine.execSignalTimeout map s
  | .acfBatchTimeout t => Sys2Proof.Machine.execAcfBatchTimeout t s
  | .acfInboundFrame => Sys2Proof.Machine.execAcfInboundFrame s
  | .timeTbSet fn b neg => Sys2Proof.Machine.execTimeTbSet fn b neg s
  | .timeTbStep fn b neg => Sys2Proof.Machine.execTimeTbStep fn b neg s
  | .timeTbAdj fn b neg => Sys2Proof.Machine.execTimeTbAdj fn b neg s
  | .timeTbLock fn b neg => Sys2Proof.Machine.execTimeTbLock fn b neg s
  | .timeTbUnlock fn b neg => Sys2Proof.Machine.execTimeTbUnlock fn b neg s
  | .timeTbCommit b => Sys2Proof.Machine.execTimeTbCommit b s
  | .timeTbNsRead fn off en => Sys2Proof.Machine.execTimeTbNsRead fn off en s
  | .txtsW3Read fn off en => Sys2Proof.Machine.execTxtsW3Read fn off en s
  | .capNsRead fn off en => Sys2Proof.Machine.execCapNsRead fn off en s
  | .epochSecond b => Sys2Proof.Machine.execEpochSecond b s
  | .pulseEdge p => Sys2Proof.Machine.execPulseEdge p s
  | .captureEdge c rising => Sys2Proof.Machine.execCaptureEdge c rising s
  | .supervisorSample b => Sys2Proof.Machine.execSupervisorSample b s
  | .sourceLossHoldover b => Sys2Proof.Machine.execSourceLossHoldover b s
  | .slewUpdate b primary alternate offset fs => Sys2Proof.Machine.execSlewUpdate b primary alternate offset fs s
  | .timeRelock b => Sys2Proof.Machine.execTimeRelock b s
  | .pcieLinkUp => Sys2Proof.Machine.execPcieLinkUp s
  | .pcieLinkDown => Sys2Proof.Machine.execPcieLinkDown s
  | .pcieHotReset => Sys2Proof.Machine.execPcieHotReset s
  | .perstDeassert => Sys2Proof.Machine.execPerstDeassert s
  | .vfEnable n => Sys2Proof.Machine.execVfEnable n s
  | .vfDisable => Sys2Proof.Machine.execVfDisable s
  | .flrVf vf => Sys2Proof.Machine.execFlrVf vf s
  | .flrPf => Sys2Proof.Machine.execFlrPf s
  | .busMasterChange fn mrrs tags on relaxed ari => Sys2Proof.Machine.execBusMasterChange fn mrrs tags on relaxed ari s
  | .msixUnmask fn vec => Sys2Proof.Machine.execMsixUnmask fn vec s
  | .txqTailWrite fn off en val => Sys2Proof.Machine.execTxqTailWrite fn off en val s
  | .rxqTailWrite fn off en val => Sys2Proof.Machine.execRxqTailWrite fn off en val s
  | .txEnSet fn off en val => Sys2Proof.Machine.execTxEnSet fn off en val s
  | .txEnClear fn off en val => Sys2Proof.Machine.execTxEnClear fn off en val s
  | .rxEnSet fn off en val => Sys2Proof.Machine.execRxEnSet fn off en val s
  | .rxEnClear fn off en val => Sys2Proof.Machine.execRxEnClear fn off en val s
  | .ringStopDone ring descs => Sys2Proof.Machine.execRingStopDone ring descs s
  | .txDescriptorFetch ring descs => Sys2Proof.Machine.execTxDescriptorFetch ring descs s
  | .txDataReadDone ring data => Sys2Proof.Machine.execTxDataReadDone ring data s
  | .hostReadError ring rx => Sys2Proof.Machine.execHostReadError ring rx s
  | .readRequestIssue => Sys2Proof.Machine.execReadRequestIssue s
  | .p24FrameArrive descs => Sys2Proof.Machine.execP24FrameArrive descs s
  | .rxFrameWrite ring descs => Sys2Proof.Machine.execRxFrameWrite ring descs s
  | .holdTimerExpire ring => Sys2Proof.Machine.execHoldTimerExpire ring s
  | .coalesceTimer ring tx => Sys2Proof.Machine.execCoalesceTimer ring tx s
  | .spoutRecordWrite => Sys2Proof.Machine.execSpoutRecordWrite s
  | .evqEnSet fn off en val => Sys2Proof.Machine.execEvqEnSet fn off en val s
  | .evqConsWrite fn off en val => Sys2Proof.Machine.execEvqConsWrite fn off en val s
  | .evqModTimer owner => Sys2Proof.Machine.execEvqModTimer owner s
  | .evqServiceLate owner => Sys2Proof.Machine.execEvqServiceLate owner s
  | .mbxRingRead fn off en => Sys2Proof.Machine.execMbxRingRead fn off en s
  | .mbxAbortWrite fn off en val => Sys2Proof.Machine.execMbxAbortWrite fn off en val s
  | .mbxSlotWrite fn off en val dev => Sys2Proof.Machine.execMbxSlotWrite fn off en val dev s
  | .fwTakeCommand buf ecc => Sys2Proof.Machine.execFwTakeCommand buf ecc s
  | .fwRestart => Sys2Proof.Machine.execFwRestart s
  | .sysHello owner slot => Sys2Proof.Machine.execSysHello owner slot s
  | .sysInfo owner slot => Sys2Proof.Machine.execSysInfo owner slot s
  | .sysBootReport owner slot => Sys2Proof.Machine.execSysBootReport owner slot s
  | .sysFlashErase owner slot => Sys2Proof.Machine.execSysFlashErase owner slot s
  | .sysFlashWrite owner slot => Sys2Proof.Machine.execSysFlashWrite owner slot s
  | .sysReset owner slot => Sys2Proof.Machine.execSysReset owner slot s
  | .sysEarlyRead owner slot => Sys2Proof.Machine.execSysEarlyRead owner slot s
  | .sysEarlyWrite owner slot copy => Sys2Proof.Machine.execSysEarlyWrite owner slot copy s
  | .sysEvfRoute owner slot => Sys2Proof.Machine.execSysEvfRoute owner slot s
  | .sysCascadeForm owner slot auth => Sys2Proof.Machine.execSysCascadeForm owner slot auth s
  | .sysCascadeResync owner slot => Sys2Proof.Machine.execSysCascadeResync owner slot s
  | .sysCascadeStatus owner slot => Sys2Proof.Machine.execSysCascadeStatus owner slot s
  | .ownCreate owner slot => Sys2Proof.Machine.execOwnCreate owner slot s
  | .ownTeardown owner slot => Sys2Proof.Machine.execOwnTeardown owner slot s
  | .teardownDrainEnd owner => Sys2Proof.Machine.execTeardownDrainEnd owner s
  | .ownerNumberFree owner => Sys2Proof.Machine.execOwnerNumberFree owner s
  | .ownGrant owner slot => Sys2Proof.Machine.execOwnGrant owner slot s
  | .ownRevoke owner slot => Sys2Proof.Machine.execOwnRevoke owner slot s
  | .ownPolicyRead owner slot => Sys2Proof.Machine.execOwnPolicyRead owner slot s
  | .ownSetLimits owner slot => Sys2Proof.Machine.execOwnSetLimits owner slot s
  | .ownList owner slot => Sys2Proof.Machine.execOwnList owner slot s
  | .portSet owner slot => Sys2Proof.Machine.execPortSet owner slot s
  | .portGet owner slot => Sys2Proof.Machine.execPortGet owner slot s
  | .portQuadSet owner slot => Sys2Proof.Machine.execPortQuadSet owner slot s
  | .portEqSet owner slot => Sys2Proof.Machine.execPortEqSet owner slot s
  | .portSteerSet owner slot => Sys2Proof.Machine.execPortSteerSet owner slot s
  | .portEeeSet owner slot => Sys2Proof.Machine.execPortEeeSet owner slot s
  | .portPlcaSet owner slot => Sys2Proof.Machine.execPortPlcaSet owner slot s
  | .portWakeSet owner slot => Sys2Proof.Machine.execPortWakeSet owner slot s
  | .portMacsecSet owner slot => Sys2Proof.Machine.execPortMacsecSet owner slot s
  | .portSleep owner slot => Sys2Proof.Machine.execPortSleep owner slot s
  | .fwdEmAdd owner slot => Sys2Proof.Machine.execFwdEmAdd owner slot s
  | .fwdEmDel owner slot => Sys2Proof.Machine.execFwdEmDel owner slot s
  | .fwdEmAddBulk owner slot => Sys2Proof.Machine.execFwdEmAddBulk owner slot s
  | .fwdEmRead owner slot => Sys2Proof.Machine.execFwdEmRead owner slot s
  | .fwdFlush owner slot => Sys2Proof.Machine.execFwdFlush owner slot s
  | .fwdLpmAdd owner slot => Sys2Proof.Machine.execFwdLpmAdd owner slot s
  | .fwdLpmDel owner slot => Sys2Proof.Machine.execFwdLpmDel owner slot s
  | .fwdAclWrite owner slot => Sys2Proof.Machine.execFwdAclWrite owner slot s
  | .fwdAclDel owner slot => Sys2Proof.Machine.execFwdAclDel owner slot s
  | .fwdVlanSet owner slot => Sys2Proof.Machine.execFwdVlanSet owner slot s
  | .fwdMcastSet owner slot => Sys2Proof.Machine.execFwdMcastSet owner slot s
  | .fwdNhopSet owner slot => Sys2Proof.Machine.execFwdNhopSet owner slot s
  | .fwdAgeSet owner slot => Sys2Proof.Machine.execFwdAgeSet owner slot s
  | .fwdLearnSet owner slot => Sys2Proof.Machine.execFwdLearnSet owner slot s
  | .fwdCfgSet owner slot => Sys2Proof.Machine.execFwdCfgSet owner slot s
  | .fwdSamplerSet owner slot => Sys2Proof.Machine.execFwdSamplerSet owner slot s
  | .fwdCascadePath owner slot => Sys2Proof.Machine.execFwdCascadePath owner slot s
  | .qosClassSet owner slot => Sys2Proof.Machine.execQosClassSet owner slot s
  | .qosGclLoad owner slot => Sys2Proof.Machine.execQosGclLoad owner slot s
  | .qosCbsSet owner slot => Sys2Proof.Machine.execQosCbsSet owner slot s
  | .qosPreemptSet owner slot => Sys2Proof.Machine.execQosPreemptSet owner slot s
  | .qosWeirSet owner slot => Sys2Proof.Machine.execQosWeirSet owner slot s
  | .qosSluiceFilterSet owner slot => Sys2Proof.Machine.execQosSluiceFilterSet owner slot s
  | .qosSluiceGateLoad owner slot => Sys2Proof.Machine.execQosSluiceGateLoad owner slot s
  | .qosSluiceUnblock owner slot => Sys2Proof.Machine.execQosSluiceUnblock owner slot s
  | .qosFrerSet owner slot => Sys2Proof.Machine.execQosFrerSet owner slot s
  | .qosStreamAdmit owner slot => Sys2Proof.Machine.execQosStreamAdmit owner slot s
  | .qosStreamWithdraw owner slot => Sys2Proof.Machine.execQosStreamWithdraw owner slot s
  | .qosBoundRead owner slot => Sys2Proof.Machine.execQosBoundRead owner slot s
  | .qosVoqSet owner slot => Sys2Proof.Machine.execQosVoqSet owner slot s
  | .qosQuotaSet owner slot => Sys2Proof.Machine.execQosQuotaSet owner slot s
  | .qosSharedSet owner slot => Sys2Proof.Machine.execQosSharedSet owner slot s
  | .qosQsamplerSet owner slot => Sys2Proof.Machine.execQosQsamplerSet owner slot s
  | .vidStreamSet owner slot => Sys2Proof.Machine.execVidStreamSet owner slot s
  | .vidStreamEnable owner slot => Sys2Proof.Machine.execVidStreamEnable owner slot s
  | .vidStreamDisable owner slot => Sys2Proof.Machine.execVidStreamDisable owner slot s
  | .vidLatticeSet owner slot => Sys2Proof.Machine.execVidLatticeSet owner slot s
  | .vidActionSet owner slot => Sys2Proof.Machine.execVidActionSet owner slot s
  | .vidNoticeSet owner slot => Sys2Proof.Machine.execVidNoticeSet owner slot s
  | .vidSyncSet owner slot => Sys2Proof.Machine.execVidSyncSet owner slot s
  | .vidStateRead owner slot => Sys2Proof.Machine.execVidStateRead owner slot s
  | .vidRingSet owner slot => Sys2Proof.Machine.execVidRingSet owner slot s
  | .vidRingRelease owner slot => Sys2Proof.Machine.execVidRingRelease owner slot s
  | .vidRingRead owner slot => Sys2Proof.Machine.execVidRingRead owner slot s
  | .vidRingExport owner slot => Sys2Proof.Machine.execVidRingExport owner slot s
  | .vidTrigger owner slot => Sys2Proof.Machine.execVidTrigger owner slot s
  | .fbusCanSet owner slot => Sys2Proof.Machine.execFbusCanSet owner slot s
  | .fbusCanTdcSet owner slot => Sys2Proof.Machine.execFbusCanTdcSet owner slot s
  | .fbusFilterWrite owner slot => Sys2Proof.Machine.execFbusFilterWrite owner slot s
  | .fbusRxqSet owner slot => Sys2Proof.Machine.execFbusRxqSet owner slot s
  | .fbusCanRecover owner slot => Sys2Proof.Machine.execFbusCanRecover owner slot s
  | .fbusSchedLoad owner slot => Sys2Proof.Machine.execFbusSchedLoad owner slot s
  | .fbusMsgbufWrite owner slot => Sys2Proof.Machine.execFbusMsgbufWrite owner slot s
  | .fbusTx owner slot => Sys2Proof.Machine.execFbusTx owner slot s
  | .fbusLinSet owner slot => Sys2Proof.Machine.execFbusLinSet owner slot s
  | .fbusLinTableLoad owner slot => Sys2Proof.Machine.execFbusLinTableLoad owner slot s
  | .fbusLinSchedSelect owner slot => Sys2Proof.Machine.execFbusLinSchedSelect owner slot s
  | .fbusLinWake owner slot => Sys2Proof.Machine.execFbusLinWake owner slot s
  | .fbusWakeDetSet owner slot => Sys2Proof.Machine.execFbusWakeDetSet owner slot s
  | .fbusRillSet owner slot => Sys2Proof.Machine.execFbusRillSet owner slot s
  | .gwyRuleWrite owner slot => Sys2Proof.Machine.execGwyRuleWrite owner slot s
  | .gwyRuleRead owner slot => Sys2Proof.Machine.execGwyRuleRead owner slot s
  | .gwyRuleDel owner slot => Sys2Proof.Machine.execGwyRuleDel owner slot s
  | .gwyRuleBulk owner slot => Sys2Proof.Machine.execGwyRuleBulk owner slot s
  | .gwySrcSet owner slot => Sys2Proof.Machine.execGwySrcSet owner slot s
  | .gwyRewriteSet owner slot => Sys2Proof.Machine.execGwyRewriteSet owner slot s
  | .gwySigMapSet owner slot => Sys2Proof.Machine.execGwySigMapSet owner slot s
  | .gwySigBufSet owner slot => Sys2Proof.Machine.execGwySigBufSet owner slot s
  | .gwyTunnelSet owner slot => Sys2Proof.Machine.execGwyTunnelSet owner slot s
  | .gwyRxtunnelSet owner slot => Sys2Proof.Machine.execGwyRxtunnelSet owner slot s
  | .gwyAuthSet owner slot => Sys2Proof.Machine.execGwyAuthSet owner slot s
  | .gwyAuthFreshSet owner slot => Sys2Proof.Machine.execGwyAuthFreshSet owner slot s
  | .gwyJ1939Read owner slot => Sys2Proof.Machine.execGwyJ1939Read owner slot s
  | .gwyEnable owner slot => Sys2Proof.Machine.execGwyEnable owner slot s
  | .timeBaseOp owner slot => Sys2Proof.Machine.execTimeBaseOp owner slot s
  | .timeBaseRead owner slot => Sys2Proof.Machine.execTimeBaseRead owner slot s
  | .timeSuperviseSet owner slot => Sys2Proof.Machine.execTimeSuperviseSet owner slot s
  | .timeDomainSet owner slot => Sys2Proof.Machine.execTimeDomainSet owner slot s
  | .timeLinkDelaySet owner slot => Sys2Proof.Machine.execTimeLinkDelaySet owner slot s
  | .timePulseSet owner slot => Sys2Proof.Machine.execTimePulseSet owner slot s
  | .timeCaptureSet owner slot => Sys2Proof.Machine.execTimeCaptureSet owner slot s
  | .timeEpochReq owner slot => Sys2Proof.Machine.execTimeEpochReq owner slot s
  | .secLifecycleRead owner slot => Sys2Proof.Machine.execSecLifecycleRead owner slot s
  | .secLifecycleAdvance owner slot => Sys2Proof.Machine.execSecLifecycleAdvance owner slot s
  | .secKeyRotate owner slot => Sys2Proof.Machine.execSecKeyRotate owner slot s
  | .secMacsecSaInstall owner slot => Sys2Proof.Machine.execSecMacsecSaInstall owner slot s
  | .secMacsecSaEnable owner slot => Sys2Proof.Machine.execSecMacsecSaEnable owner slot s
  | .secMacsecSaDelete owner slot => Sys2Proof.Machine.execSecMacsecSaDelete owner slot s
  | .secCmacKeyInstall owner slot => Sys2Proof.Machine.execSecCmacKeyInstall owner slot s
  | .secSessionOpen owner slot => Sys2Proof.Machine.execSecSessionOpen owner slot s
  | .secSessionClose owner slot => Sys2Proof.Machine.execSecSessionClose owner slot s
  | .secDebugUnlock owner slot => Sys2Proof.Machine.execSecDebugUnlock owner slot s
  | .secTamperStatus owner slot => Sys2Proof.Machine.execSecTamperStatus owner slot s
  | .secTamperSet owner slot => Sys2Proof.Machine.execSecTamperSet owner slot s
  | .memBankGrant owner slot => Sys2Proof.Machine.execMemBankGrant owner slot s
  | .memBankRetain owner slot => Sys2Proof.Machine.execMemBankRetain owner slot s
  | .memMarchRun owner slot => Sys2Proof.Machine.execMemMarchRun owner slot s
  | .memMarchResult owner slot => Sys2Proof.Machine.execMemMarchResult owner slot s
  | .memConflictRead owner slot => Sys2Proof.Machine.execMemConflictRead owner slot s
  | .memLpddrRegion owner slot => Sys2Proof.Machine.execMemLpddrRegion owner slot s
  | .pwrStateSet owner slot => Sys2Proof.Machine.execPwrStateSet owner slot s
  | .pwrStateRead owner slot => Sys2Proof.Machine.execPwrStateRead owner slot s
  | .pwrDomainSet owner slot => Sys2Proof.Machine.execPwrDomainSet owner slot s
  | .pwrWakeSet owner slot => Sys2Proof.Machine.execPwrWakeSet owner slot s
  | .pwrRailSet owner slot => Sys2Proof.Machine.execPwrRailSet owner slot s
  | .pwrWakeCauseRead owner slot => Sys2Proof.Machine.execPwrWakeCauseRead owner slot s
  | .pwrClockStatus owner slot => Sys2Proof.Machine.execPwrClockStatus owner slot s
  | .diagUnitReset owner slot => Sys2Proof.Machine.execDiagUnitReset owner slot s
  | .diagGroupReset owner slot => Sys2Proof.Machine.execDiagGroupReset owner slot s
  | .diagLoopback owner slot => Sys2Proof.Machine.execDiagLoopback owner slot s
  | .diagTestgen owner slot => Sys2Proof.Machine.execDiagTestgen owner slot s
  | .diagSbbRead owner slot => Sys2Proof.Machine.execDiagSbbRead owner slot s
  | .diagSbbWrite owner slot => Sys2Proof.Machine.execDiagSbbWrite owner slot s
  | .diagSbbSeq owner slot => Sys2Proof.Machine.execDiagSbbSeq owner slot s
  | .diagGpioSet owner slot => Sys2Proof.Machine.execDiagGpioSet owner slot s
  | .diagRegRead owner slot => Sys2Proof.Machine.execDiagRegRead owner slot s
  | .diagInject owner slot => Sys2Proof.Machine.execDiagInject owner slot s
  | .bootRomStart tamper early copies => Sys2Proof.Machine.execBootRomStart tamper early copies s
  | .sImageReady store => Sys2Proof.Machine.execSImageReady store s
  | .cImageReady => Sys2Proof.Machine.execCImageReady s
  | .keySlotRetire owner => Sys2Proof.Machine.execKeySlotRetire owner s
  | .jobFrameReceive => Sys2Proof.Machine.execJobFrameReceive s
  | .jobSlotAllocate => Sys2Proof.Machine.execJobSlotAllocate s
  | .jobIdleTimeout slot => Sys2Proof.Machine.execJobIdleTimeout slot s
  | .trngHealthFail => Sys2Proof.Machine.execTrngHealthFail s
  | .trngRestartDone => Sys2Proof.Machine.execTrngRestartDone s
  | .tamperDetect sources => Sys2Proof.Machine.execTamperDetect sources s
  | .tamperKeyZeroise => Sys2Proof.Machine.execTamperKeyZeroise s
  | .tamperCisternWipe => Sys2Proof.Machine.execTamperCisternWipe s
  | .tamperSafeResume => Sys2Proof.Machine.execTamperSafeResume s
  | .tamperControlRestart => Sys2Proof.Machine.execTamperControlRestart s
  | .jtagDebugUnlock level key sig => Sys2Proof.Machine.execJtagDebugUnlock level key sig s
  | .bankClearDone bank => Sys2Proof.Machine.execBankClearDone bank s
  | .bankAccess bank master owner op width off value ecc => Sys2Proof.Machine.execBankAccess bank master owner op width off value ecc s
  | .apertureAddRead fn off en => Sys2Proof.Machine.execApertureAddRead fn off en s
  | .apertureSwapRead fn off en => Sys2Proof.Machine.execApertureSwapRead fn off en s
  | .bankWakeDone bank => Sys2Proof.Machine.execBankWakeDone bank s
  | .marchChunkDone => Sys2Proof.Machine.execMarchChunkDone s
  | .marchTestDone fails => Sys2Proof.Machine.execMarchTestDone fails s
  | .sbbGoRead slot addr ctrl => Sys2Proof.Machine.execSbbGoRead slot addr ctrl s
  | .sbbGoWrite slot addr ctrl data => Sys2Proof.Machine.execSbbGoWrite slot addr ctrl data s
  | .sbbGoRmw slot addr word ctrl => Sys2Proof.Machine.execSbbGoRmw slot addr word ctrl s
  | .sbbCancel slot => Sys2Proof.Machine.execSbbCancel slot s
  | .sbbSlotRespRead slot => Sys2Proof.Machine.execSbbSlotRespRead slot s
  | .sbbHoldExpire slot => Sys2Proof.Machine.execSbbHoldExpire slot s
  | .sbbPieceComplete slot code n data sdaLow => Sys2Proof.Machine.execSbbPieceComplete slot code n data sdaLow s
  | .sbbRetryGapExpire slot => Sys2Proof.Machine.execSbbRetryGapExpire slot s
  | .sbbWritePoll slot acked => Sys2Proof.Machine.execSbbWritePoll slot acked s
  | .sbbLockTimeout chan => Sys2Proof.Machine.execSbbLockTimeout chan s
  | .gpioEdge line level => Sys2Proof.Machine.execGpioEdge line level s
  | .gpioTask k => Sys2Proof.Machine.execGpioTask k s
  | .railFault rail => Sys2Proof.Machine.execRailFault rail s
  | .railRetryExpire rail => Sys2Proof.Machine.execRailRetryExpire rail s
  | .railStageAdvance => Sys2Proof.Machine.execRailStageAdvance s
  | .evfSwFireWrite val => Sys2Proof.Machine.execEvfSwFireWrite val s
  | .pulseFireTask p => Sys2Proof.Machine.execPulseFireTask p s
  | .captureSoftTask c => Sys2Proof.Machine.execCaptureSoftTask c s
  | .recordTask k => Sys2Proof.Machine.execRecordTask k s
  | .por pwrOn => Sys2Proof.Machine.execPor pwrOn s
  | .pwrOnEdge => Sys2Proof.Machine.execPwrOnEdge s
  | .rstNLow => Sys2Proof.Machine.execRstNLow s
  | .rstNHigh => Sys2Proof.Machine.execRstNHigh s
  | .regDelayExpire => Sys2Proof.Machine.execRegDelayExpire s
  | .regPowerGood n => Sys2Proof.Machine.execRegPowerGood n s
  | .regPgTimeout n => Sys2Proof.Machine.execRegPgTimeout n s
  | .regPgLost n => Sys2Proof.Machine.execRegPgLost n s
  | .regRetryExpire => Sys2Proof.Machine.execRegRetryExpire s
  | .regOffStep => Sys2Proof.Machine.execRegOffStep s
  | .pwrTransitionStart => Sys2Proof.Machine.execPwrTransitionStart s
  | .domainSwitchRound => Sys2Proof.Machine.execDomainSwitchRound s
  | .domainPowerGood d => Sys2Proof.Machine.execDomainPowerGood d s
  | .domainPgTimeout d => Sys2Proof.Machine.execDomainPgTimeout d s
  | .standbyWake => Sys2Proof.Machine.execStandbyWake s
  | .listenWake source => Sys2Proof.Machine.execListenWake source s
  | .wakeTimerExpire => Sys2Proof.Machine.execWakeTimerExpire s
  | .refMonitorWindow ppm => Sys2Proof.Machine.execRefMonitorWindow ppm s
  | .refEdgeLoss => Sys2Proof.Machine.execRefEdgeLoss s
  | .aoXtalFail => Sys2Proof.Machine.execAoXtalFail s
  | .pllRelockDone => Sys2Proof.Machine.execPllRelockDone s
  | .thermSample temp => Sys2Proof.Machine.execThermSample temp s
  | .thermalRestart => Sys2Proof.Machine.execThermalRestart s
  | .treustLockstepFault => Sys2Proof.Machine.execTreustLockstepFault s
  | .controlPairFault => Sys2Proof.Machine.execControlPairFault s
  | .powerLoss programmed => Sys2Proof.Machine.execPowerLoss programmed s
  | .sysResetExpire => Sys2Proof.Machine.execSysResetExpire s
  | .lpddrReady => Sys2Proof.Machine.execLpddrReady s
  | .lineRestored mac => Sys2Proof.Machine.execLineRestored mac s
  | .cascadeControlReceive port member kind edges => Sys2Proof.Machine.execCascadeControlReceive port member kind edges s
  | .shadowRebuild => Sys2Proof.Machine.execShadowRebuild s
  | .railPowerGood rail => Sys2Proof.Machine.execRailPowerGood rail s
  | .sbbChanRewrite chan cfg timing sdaHigh => Sys2Proof.Machine.execSbbChanRewrite chan cfg timing sdaHigh s

end Sys2Proof.Machine
end

