-- ==== Sys2Proof/Safety.lean ====
section
/-!
DEFINITION. What a safe run is: a step of the block never stops. Every row of the table has an effect the spec gives it, so a
run goes on from every state. And the terms the statements use: what a command leaves alone, a GCS command that is due, its completion.
-/
namespace Sys2Proof.Machine

/-- The outcome is a next state. -/
def completes (o : Host.Outcome State Fault Refusal) : Prop := ∃ t, o = .next t

/-- A state from which the next step goes on. -/
def safe (s : State) : Prop := completes (step s)

/-- The state with its hardware as given, the waiting commands and the fuses as before. -/
def State.on (s : State) (h : Hw) : State := { s with hw := h }

@[simp] theorem State.on_hw (s : State) (h : Hw) : (s.on h).hw = h := rfl
@[simp] theorem State.on_fuse (s : State) (h : Hw) : (s.on h).fuse = s.fuse := rfl
@[simp] theorem State.on_pending (s : State) (h : Hw) : (s.on h).pending = s.pending := rfl

/-- A record of some type raised for owner `o` is lost: the staging is full (R322) or the owner is being torn down (R21). -/
abbrev Hw.loses (h : Hw) (o kind : Nat) : Prop := 4096 ≤ h.evq.staging.length ∨ h.deaf o kind = true

/-- The registers a host write of which does more than its access codes say (R321, R322, R330, R276, R310). -/
abbrev actsOnWrite (r : Nat) : Prop :=
  (0x10000000 ≤ r ∧ r % 256 = 0x80) ∨ (0x20000 ≤ r ∧ r < 0x40000 ∧ (r % 256 = 0 ∨ r % 256 = 0x14)) ∨ (0x60000 ≤ r ∧ r < 0x80000) ∨
    (0x200100 ≤ r ∧ r < 0x200500 ∧ r % 0x80 = 0x44)

/-- A function may write a register: TIME_TXTS_STATUS only where it sees that queue (R285). -/
abbrev Hw.mayWrite (h : Hw) (fn r : Nat) : Prop :=
  0x200D80 ≤ r → r < 0x200DE0 → h.txtsSees fn ((r - 0x200D80) / 4) = true

/-- The registers a host read of which does more than clear an RC field: doorbells, copies, pops, octet counters, peaks (R7). -/
abbrev actsOnRead (r : Nat) : Prop :=
  (0x10000000 ≤ r ∧ r % 256 < 0x80) ∨ isPeak r = true ∨ isOctetsLo r = true ∨ (0x200000 ≤ r ∧ r < 0x240000) ∨
    (0x1B9000 ≤ r ∧ r < 0x1BA000)

/-- Slot `sl` of owner `o` holds the command that firmware carries out next for that owner (R327, R331, R346): ACTIVE, with opcode
`op`, the oldest that has yet to take effect, from an issuer of the command, its mailbox image `q`. -/
abbrev Hw.due (h : Hw) (o sl op : Nat) (q : Slot) : Prop :=
  sl < 32 ∧ kvGet h.mbx.slots (o * 32 + sl) = some q ∧ q.st = 2 ∧ q.opcode = op ∧ q.committed = false ∧
    h.oldestOf (o * 32 + sl) q = true ∧ issuerOk op o = true

/-- A due command that is to take effect: CHECK_ONLY is not set (R331). -/
abbrev Hw.runs (h : Hw) (o sl op : Nat) (q : Slot) : Prop := h.due o sl op q ∧ q.checkOnly = false

/-- The configuration `x` breaks no rule of R49 and no bound of an admitted stream that `h` keeps (R144, R346). -/
abbrev Hw.clean (h x : Hw) (viol : Hw → List Nat) : Prop := h.judgeNew x viol = none

/-- The state after slot `sl` of owner `o` completed with OK and a response (R332), the hardware otherwise `x` with the bounds that
it moved counted and exported (R144, R145). -/
def State.done (s : State) (o sl : Nat) (x : Hw) (resp : List Nat) : State :=
  s.on ((Hw.settleBounds s.hw x).complete (o * 32 + sl) cOk 0 resp)

/-- The state after slot `sl` of owner `o` completed with a result code, DETAIL and response (R332), the hardware otherwise `x`. -/
def State.closed (s : State) (o sl : Nat) (x : Hw) (code detail : Nat) (resp : List Nat) : State :=
  s.on (x.complete (o * 32 + sl) code detail resp)

/-- Fuses `g` keep what `f` holds (R364 to R366, R378): no lifecycle step back, no SVN minimum lower, one device id and vendor key; the
root key until SCRAPPED (5), the OEM key hashes from PROVISIONED (2) on. -/
abbrev Fuse.keeps (f g : Fuse) : Prop :=
  f.life ≤ g.life ∧ (∀ i, f.svn.getD i 0 ≤ g.svn.getD i 0) ∧ g.devId = f.devId ∧ g.vendor = f.vendor ∧ (g.life < 5 → g.root = f.root) ∧
    (2 ≤ f.life → g.oemImg = f.oemImg ∧ g.oemDbg = f.oemDbg)

end Sys2Proof.Machine
end

