-- ==== Sys2Proof/WellFormed.lean ====
section
/-!
DEFINITION. When the operands of a command name things the device has: 32 fabric ports, 24 MACs, 5 SerDes quads, 48 CAN
controllers, 16 LIN controllers, 64 streams, 512 owners and so on (R22 to R31 and the register maps).  An ill-formed command names
nothing of the device: no sender has it to send.
-/
namespace Sys2Proof

/-- A function a register access is presented under: a PCIe function 0 to 255, or 1000 + owner for an access from inside the device. -/
def fnOk (fn : Nat) : Bool := decide (fn < 256) || (decide (1000 ≤ fn) && decide (fn < 1512))

/-- A register access: an aligned offset and four byte enables. -/
def hostOk (fn off en : Nat) : Bool := fnOk fn && off % 4 == 0 && decide (en < 16)

/-- A register access of any width and alignment: the aligned offset it begins in and its bytes from there, at most twelve (R7). -/
def hostWide (fn off en : Nat) : Bool := fnOk fn && off % 4 == 0 && decide (en < 4096)

/-- The operands of a command are in range. -/
def Instr.wf : Instr → Bool
  | .registerWrite fn off en val => hostWide fn off en && decide (val < 2 ^ 64)
  | .w1cWrite fn off en val hwSet => hostOk fn off en && decide (val < 2 ^ 32) && decide (hwSet < 2 ^ 32)
  | .rcCounterRead fn off en _ => hostWide fn off en
  | .mmqPeakRead fn off en => hostOk fn off en
  | .octetsLoRead fn off en => hostOk fn off en
  | .basinReady => true
  | .fwdReady => true
  | .tssReady => true
  | .vieReady => true
  | .canGroupReady g => decide (g < 7)
  | .brgReady => true
  | .timeReady => true
  | .sqReady q => decide (q < 5)
  | .macReady mac => decide (mac < 24)
  | .hdmaReady => true
  | .sbbReady => true
  | .evfReady => true
  | .frameFirstCell port _ _ owner ecc => decide (port < 32) && decide (owner < 512) && decide (ecc < 39)
  | .frameLookupStart port => decide (port < 32)
  | .frameLookupDone port _ => decide (port < 32)
  | .frameTail port _ _ ecc => decide (port < 32) && decide (ecc < 39)
  | .arbiterIteration => true
  | .egressTxStart e => decide (e < 32)
  | .egressFrameEnd e ecc => decide (e < 32) && decide (ecc < 39)
  | .pauseRepeat pc => decide (pc < 256)
  | .internalSourceStart port => decide (port < 32)
  | .sojournAgeout _ => true
  | .moderatedRecordFlush kind w3 => decide (kind < 65536) && decide (w3 < 2 ^ 32)
  | .auditPassStart => true
  | .auditPassEnd _ _ => true
  | .learnAccept => true
  | .refreshAccept => true
  | .ageTick => true
  | .learnMessageReceive _ => true
  | .moveWindowClose _ => true
  | .cascadeLearnSend => true
  | .cascadeLearnReceive => true
  | .cascadeWithdraw port => decide (port < 24)
  | .portFlushOnDown port => decide (port < 24)
  | .tableUeRepair _ => true
  | .scrubPass _ _ => true
  | .scrubRecheck table _ _ _ _ => decide (table < 6)
  | .scrubDefer table _ _ => decide (table < 6)
  | .pfcFrameReceive mac enable _ => decide (mac < 24) && decide (enable < 256)
  | .pfcPauseExpire mac cls => decide (mac < 24) && decide (cls < 8)
  | .gclEntryAdvance mac => decide (mac < 24)
  | .gclSwitch mac => decide (mac < 24)
  | .gclRestart mac => decide (mac < 24)
  | .preemptVerifyDone mac => decide (mac < 24)
  | .noticeExpire mac => decide (mac < 24)
  | .sluiceGateAdvance gate => decide (gate < 256)
  | .frerRecoveryReset pair => decide (pair < 64)
  | .frerLatentCheck pair => decide (pair < 64)
  | .qsamplerSweep list _ => decide (list < 4)
  | .viePacketObserve (_, ecc) => decide (ecc < 39)
  | .vieVerdict stream => decide (stream < 64)
  | .vieMissingExpire stream => decide (stream < 64)
  | .vieNoticeTask => true
  | .vieFallbackTask => true
  | .vieFrerTask => true
  | .vieHostTask => true
  | .vieHeartbeat stream => decide (stream < 64)
  | .rsvTriggerTask k => decide (k < 4)
  | .rsvPostExpire ring => decide (ring < 16)
  | .lineLoss mac _ => decide (mac < 24)
  | .linkDown mac => decide (mac < 24)
  | .linkUp mac rate => decide (mac < 24) && decide (rate < 8)
  | .sqPllUnlock quad pll => decide (quad < 5) && decide (pll < 2)
  | .plcaOpportunity (mac, _) => decide (mac < 24)
  | .plcaBeaconLoss mac => decide (mac < 24)
  | .plcaBeaconHeard mac => decide (mac < 24)
  | .t1sCollision mac => decide (mac < 24)
  | .t1sBackoffExpire mac => decide (mac < 24)
  | .eeeLpiEnter mac => decide (mac < 24)
  | .eeeLpiExit mac => decide (mac < 24)
  | .eeeWakeDone mac => decide (mac < 24)
  | .partnerLpiChange mac _ => decide (mac < 24)
  | .ethWakeDetect mac _ => decide (mac < 24)
  | .canIntegrate ctl => decide (ctl < 48)
  | .canFrameReceive ctl fmt w0 w1 w2 data _ => decide (ctl < 48) && decide (fmt < 3) && decide (w0 < 2 ^ 32) && decide (w1 < 2 ^ 32) && decide (w2 < 2 ^ 32) && decide (data.length ≤ 2048)
  | .canRxqPop ctl q _ => decide (ctl < 48) && decide (q < 32)
  | .canError ctl type _ _ _ => decide (ctl < 48) && decide (type < 8)
  | .canBusRecover ctl => decide (ctl < 48)
  | .canTxRequest ctl _ => decide (ctl < 48)
  | .canBusIdleOffer ctl => decide (ctl < 48)
  | .canTxArbLost ctl => decide (ctl < 48)
  | .canTxComplete ctl _ tdcv => decide (ctl < 48) && decide (tdcv < 256)
  | .canModeApply ctl => decide (ctl < 48)
  | .canFilterApply ctl => decide (ctl < 48)
  | .canSchedCycleStart ctl => decide (ctl < 48)
  | .canSchedSlotStart ctl slot => decide (ctl < 48) && decide (slot < 32)
  | .canSchedWindowEnd ctl slot => decide (ctl < 48) && decide (slot < 32)
  | .canSchedRestart ctl => decide (ctl < 48)
  | .canwMatch w ident _ dlc data => decide (w < 8) && decide (ident < 536870912) && decide (dlc < 16) && decide (data.length ≤ 8)
  | .canwDecodeError w _ => decide (w < 8)
  | .linSchedEntry l => decide (l < 16)
  | .linHeaderReceive l pid _ _ => decide (l < 16) && decide (pid < 256)
  | .linResponseReceive l data csum _ _ => decide (l < 16) && decide (data.length ≤ 9) && decide (csum < 256)
  | .linResponseTimeout l got => decide (l < 16) && decide (got < 10)
  | .linBusIdle l => decide (l < 16)
  | .linWakeDetect l => decide (l < 16)
  | .linWakeSignalEnd l => decide (l < 16)
  | .rillDmaMove f _ => decide (f < 64)
  | .rillWinPop fn off en => hostOk fn off en
  | .rillPointerMismatch f _ => decide (f < 64)
  | .bridgeDispatchSlot => true
  | .j1939TpTimeout src sa da => decide (src < 96) && decide (sa < 256) && decide (da < 256)
  | .signalMappingApply => true
  | .signalPeriodicIssue buf => decide (buf < 4096)
  | .signalTimeout _ => true
  | .acfBatchTimeout t => decide (t < 32)
  | .acfInboundFrame => true
  | .timeTbSet fn b _ => fnOk fn && decide (b < 8)
  | .timeTbStep fn b _ => fnOk fn && decide (b < 8)
  | .timeTbAdj fn b _ => fnOk fn && decide (b < 8)
  | .timeTbLock fn b _ => fnOk fn && decide (b < 8)
  | .timeTbUnlock fn b _ => fnOk fn && decide (b < 8)
  | .timeTbCommit b => decide (b < 8)
  | .timeTbNsRead fn off en => hostOk fn off en
  | .txtsW3Read fn off en => hostOk fn off en
  | .capNsRead fn off en => hostOk fn off en
  | .epochSecond b => decide (b < 8)
  | .pulseEdge p => decide (p < 8)
  | .captureEdge c _ => decide (c < 8)
  | .supervisorSample b => decide (b < 8)
  | .sourceLossHoldover b => decide (b < 8)
  | .slewUpdate b _ _ _ _ => decide (b < 8)
  | .timeRelock b => decide (b < 8)
  | .pcieLinkUp => true
  | .pcieLinkDown => true
  | .pcieHotReset => true
  | .perstDeassert => true
  | .vfEnable n => decide (n < 256)
  | .vfDisable => true
  | .flrVf vf => decide (vf < 256)
  | .flrPf => true
  | .busMasterChange fn _ tags _ _ _ => fnOk fn && decide (tags < 3)
  | .msixUnmask fn vec => fnOk fn && decide (vec < 2048)
  | .txqTailWrite fn off en val => hostOk fn off en && decide (val < 2 ^ 32)
  | .rxqTailWrite fn off en val => hostOk fn off en && decide (val < 2 ^ 32)
  | .txEnSet fn off en val => hostOk fn off en && decide (val < 2 ^ 32)
  | .txEnClear fn off en val => hostOk fn off en && decide (val < 2 ^ 32)
  | .rxEnSet fn off en val => hostOk fn off en && decide (val < 2 ^ 32)
  | .rxEnClear fn off en val => hostOk fn off en && decide (val < 2 ^ 32)
  | .ringStopDone ring _ => decide (ring < 2048)
  | .txDescriptorFetch ring _ => decide (ring < 2048)
  | .txDataReadDone ring _ => decide (ring < 2048)
  | .hostReadError ring _ => decide (ring < 2048)
  | .readRequestIssue => true
  | .p24FrameArrive _ => true
  | .rxFrameWrite ring _ => decide (ring < 2048)
  | .holdTimerExpire ring => decide (ring < 2048)
  | .coalesceTimer ring _ => decide (ring < 2048)
  | .spoutRecordWrite => true
  | .evqEnSet fn off en val => hostOk fn off en && decide (val < 2 ^ 32)
  | .evqConsWrite fn off en val => hostOk fn off en && decide (val < 2 ^ 32)
  | .evqModTimer owner => decide (owner < 512)
  | .evqServiceLate owner => decide (owner < 512)
  | .mbxRingRead fn off en => hostOk fn off en
  | .mbxAbortWrite fn off en val => hostOk fn off en && decide (val < 2 ^ 32)
  | .mbxSlotWrite fn off en val _ => hostOk fn off en && decide (val < 2 ^ 32)
  | .fwTakeCommand _ _ => true
  | .fwRestart => true
  | .sysHello owner slot => decide (owner < 512) && decide (slot < 32)
  | .sysInfo owner slot => decide (owner < 512) && decide (slot < 32)
  | .sysBootReport owner slot => decide (owner < 512) && decide (slot < 32)
  | .sysFlashErase owner slot => decide (owner < 512) && decide (slot < 32)
  | .sysFlashWrite owner slot => decide (owner < 512) && decide (slot < 32)
  | .sysReset owner slot => decide (owner < 512) && decide (slot < 32)
  | .sysEarlyRead owner slot => decide (owner < 512) && decide (slot < 32)
  | .sysEarlyWrite owner slot _ => decide (owner < 512) && decide (slot < 32)
  | .sysEvfRoute owner slot => decide (owner < 512) && decide (slot < 32)
  | .sysCascadeForm owner slot _ => decide (owner < 512) && decide (slot < 32)
  | .sysCascadeResync owner slot => decide (owner < 512) && decide (slot < 32)
  | .sysCascadeStatus owner slot => decide (owner < 512) && decide (slot < 32)
  | .ownCreate owner slot => decide (owner < 512) && decide (slot < 32)
  | .ownTeardown owner slot => decide (owner < 512) && decide (slot < 32)
  | .teardownDrainEnd owner => decide (owner < 512)
  | .ownerNumberFree owner => decide (owner < 512)
  | .ownGrant owner slot => decide (owner < 512) && decide (slot < 32)
  | .ownRevoke owner slot => decide (owner < 512) && decide (slot < 32)
  | .ownPolicyRead owner slot => decide (owner < 512) && decide (slot < 32)
  | .ownSetLimits owner slot => decide (owner < 512) && decide (slot < 32)
  | .ownList owner slot => decide (owner < 512) && decide (slot < 32)
  | .portSet owner slot => decide (owner < 512) && decide (slot < 32)
  | .portGet owner slot => decide (owner < 512) && decide (slot < 32)
  | .portQuadSet owner slot => decide (owner < 512) && decide (slot < 32)
  | .portEqSet owner slot => decide (owner < 512) && decide (slot < 32)
  | .portSteerSet owner slot => decide (owner < 512) && decide (slot < 32)
  | .portEeeSet owner slot => decide (owner < 512) && decide (slot < 32)
  | .portPlcaSet owner slot => decide (owner < 512) && decide (slot < 32)
  | .portWakeSet owner slot => decide (owner < 512) && decide (slot < 32)
  | .portMacsecSet owner slot => decide (owner < 512) && decide (slot < 32)
  | .portSleep owner slot => decide (owner < 512) && decide (slot < 32)
  | .fwdEmAdd owner slot => decide (owner < 512) && decide (slot < 32)
  | .fwdEmDel owner slot => decide (owner < 512) && decide (slot < 32)
  | .fwdEmAddBulk owner slot => decide (owner < 512) && decide (slot < 32)
  | .fwdEmRead owner slot => decide (owner < 512) && decide (slot < 32)
  | .fwdFlush owner slot => decide (owner < 512) && decide (slot < 32)
  | .fwdLpmAdd owner slot => decide (owner < 512) && decide (slot < 32)
  | .fwdLpmDel owner slot => decide (owner < 512) && decide (slot < 32)
  | .fwdAclWrite owner slot => decide (owner < 512) && decide (slot < 32)
  | .fwdAclDel owner slot => decide (owner < 512) && decide (slot < 32)
  | .fwdVlanSet owner slot => decide (owner < 512) && decide (slot < 32)
  | .fwdMcastSet owner slot => decide (owner < 512) && decide (slot < 32)
  | .fwdNhopSet owner slot => decide (owner < 512) && decide (slot < 32)
  | .fwdAgeSet owner slot => decide (owner < 512) && decide (slot < 32)
  | .fwdLearnSet owner slot => decide (owner < 512) && decide (slot < 32)
  | .fwdCfgSet owner slot => decide (owner < 512) && decide (slot < 32)
  | .fwdSamplerSet owner slot => decide (owner < 512) && decide (slot < 32)
  | .fwdCascadePath owner slot => decide (owner < 512) && decide (slot < 32)
  | .qosClassSet owner slot => decide (owner < 512) && decide (slot < 32)
  | .qosGclLoad owner slot => decide (owner < 512) && decide (slot < 32)
  | .qosCbsSet owner slot => decide (owner < 512) && decide (slot < 32)
  | .qosPreemptSet owner slot => decide (owner < 512) && decide (slot < 32)
  | .qosWeirSet owner slot => decide (owner < 512) && decide (slot < 32)
  | .qosSluiceFilterSet owner slot => decide (owner < 512) && decide (slot < 32)
  | .qosSluiceGateLoad owner slot => decide (owner < 512) && decide (slot < 32)
  | .qosSluiceUnblock owner slot => decide (owner < 512) && decide (slot < 32)
  | .qosFrerSet owner slot => decide (owner < 512) && decide (slot < 32)
  | .qosStreamAdmit owner slot => decide (owner < 512) && decide (slot < 32)
  | .qosStreamWithdraw owner slot => decide (owner < 512) && decide (slot < 32)
  | .qosBoundRead owner slot => decide (owner < 512) && decide (slot < 32)
  | .qosVoqSet owner slot => decide (owner < 512) && decide (slot < 32)
  | .qosQuotaSet owner slot => decide (owner < 512) && decide (slot < 32)
  | .qosSharedSet owner slot => decide (owner < 512) && decide (slot < 32)
  | .qosQsamplerSet owner slot => decide (owner < 512) && decide (slot < 32)
  | .vidStreamSet owner slot => decide (owner < 512) && decide (slot < 32)
  | .vidStreamEnable owner slot => decide (owner < 512) && decide (slot < 32)
  | .vidStreamDisable owner slot => decide (owner < 512) && decide (slot < 32)
  | .vidLatticeSet owner slot => decide (owner < 512) && decide (slot < 32)
  | .vidActionSet owner slot => decide (owner < 512) && decide (slot < 32)
  | .vidNoticeSet owner slot => decide (owner < 512) && decide (slot < 32)
  | .vidSyncSet owner slot => decide (owner < 512) && decide (slot < 32)
  | .vidStateRead owner slot => decide (owner < 512) && decide (slot < 32)
  | .vidRingSet owner slot => decide (owner < 512) && decide (slot < 32)
  | .vidRingRelease owner slot => decide (owner < 512) && decide (slot < 32)
  | .vidRingRead owner slot => decide (owner < 512) && decide (slot < 32)
  | .vidRingExport owner slot => decide (owner < 512) && decide (slot < 32)
  | .vidTrigger owner slot => decide (owner < 512) && decide (slot < 32)
  | .fbusCanSet owner slot => decide (owner < 512) && decide (slot < 32)
  | .fbusCanTdcSet owner slot => decide (owner < 512) && decide (slot < 32)
  | .fbusFilterWrite owner slot => decide (owner < 512) && decide (slot < 32)
  | .fbusRxqSet owner slot => decide (owner < 512) && decide (slot < 32)
  | .fbusCanRecover owner slot => decide (owner < 512) && decide (slot < 32)
  | .fbusSchedLoad owner slot => decide (owner < 512) && decide (slot < 32)
  | .fbusMsgbufWrite owner slot => decide (owner < 512) && decide (slot < 32)
  | .fbusTx owner slot => decide (owner < 512) && decide (slot < 32)
  | .fbusLinSet owner slot => decide (owner < 512) && decide (slot < 32)
  | .fbusLinTableLoad owner slot => decide (owner < 512) && decide (slot < 32)
  | .fbusLinSchedSelect owner slot => decide (owner < 512) && decide (slot < 32)
  | .fbusLinWake owner slot => decide (owner < 512) && decide (slot < 32)
  | .fbusWakeDetSet owner slot => decide (owner < 512) && decide (slot < 32)
  | .fbusRillSet owner slot => decide (owner < 512) && decide (slot < 32)
  | .gwyRuleWrite owner slot => decide (owner < 512) && decide (slot < 32)
  | .gwyRuleRead owner slot => decide (owner < 512) && decide (slot < 32)
  | .gwyRuleDel owner slot => decide (owner < 512) && decide (slot < 32)
  | .gwyRuleBulk owner slot => decide (owner < 512) && decide (slot < 32)
  | .gwySrcSet owner slot => decide (owner < 512) && decide (slot < 32)
  | .gwyRewriteSet owner slot => decide (owner < 512) && decide (slot < 32)
  | .gwySigMapSet owner slot => decide (owner < 512) && decide (slot < 32)
  | .gwySigBufSet owner slot => decide (owner < 512) && decide (slot < 32)
  | .gwyTunnelSet owner slot => decide (owner < 512) && decide (slot < 32)
  | .gwyRxtunnelSet owner slot => decide (owner < 512) && decide (slot < 32)
  | .gwyAuthSet owner slot => decide (owner < 512) && decide (slot < 32)
  | .gwyAuthFreshSet owner slot => decide (owner < 512) && decide (slot < 32)
  | .gwyJ1939Read owner slot => decide (owner < 512) && decide (slot < 32)
  | .gwyEnable owner slot => decide (owner < 512) && decide (slot < 32)
  | .timeBaseOp owner slot => decide (owner < 512) && decide (slot < 32)
  | .timeBaseRead owner slot => decide (owner < 512) && decide (slot < 32)
  | .timeSuperviseSet owner slot => decide (owner < 512) && decide (slot < 32)
  | .timeDomainSet owner slot => decide (owner < 512) && decide (slot < 32)
  | .timeLinkDelaySet owner slot => decide (owner < 512) && decide (slot < 32)
  | .timePulseSet owner slot => decide (owner < 512) && decide (slot < 32)
  | .timeCaptureSet owner slot => decide (owner < 512) && decide (slot < 32)
  | .timeEpochReq owner slot => decide (owner < 512) && decide (slot < 32)
  | .secLifecycleRead owner slot => decide (owner < 512) && decide (slot < 32)
  | .secLifecycleAdvance owner slot => decide (owner < 512) && decide (slot < 32)
  | .secKeyRotate owner slot => decide (owner < 512) && decide (slot < 32)
  | .secMacsecSaInstall owner slot => decide (owner < 512) && decide (slot < 32)
  | .secMacsecSaEnable owner slot => decide (owner < 512) && decide (slot < 32)
  | .secMacsecSaDelete owner slot => decide (owner < 512) && decide (slot < 32)
  | .secCmacKeyInstall owner slot => decide (owner < 512) && decide (slot < 32)
  | .secSessionOpen owner slot => decide (owner < 512) && decide (slot < 32)
  | .secSessionClose owner slot => decide (owner < 512) && decide (slot < 32)
  | .secDebugUnlock owner slot => decide (owner < 512) && decide (slot < 32)
  | .secTamperStatus owner slot => decide (owner < 512) && decide (slot < 32)
  | .secTamperSet owner slot => decide (owner < 512) && decide (slot < 32)
  | .memBankGrant owner slot => decide (owner < 512) && decide (slot < 32)
  | .memBankRetain owner slot => decide (owner < 512) && decide (slot < 32)
  | .memMarchRun owner slot => decide (owner < 512) && decide (slot < 32)
  | .memMarchResult owner slot => decide (owner < 512) && decide (slot < 32)
  | .memConflictRead owner slot => decide (owner < 512) && decide (slot < 32)
  | .memLpddrRegion owner slot => decide (owner < 512) && decide (slot < 32)
  | .pwrStateSet owner slot => decide (owner < 512) && decide (slot < 32)
  | .pwrStateRead owner slot => decide (owner < 512) && decide (slot < 32)
  | .pwrDomainSet owner slot => decide (owner < 512) && decide (slot < 32)
  | .pwrWakeSet owner slot => decide (owner < 512) && decide (slot < 32)
  | .pwrRailSet owner slot => decide (owner < 512) && decide (slot < 32)
  | .pwrWakeCauseRead owner slot => decide (owner < 512) && decide (slot < 32)
  | .pwrClockStatus owner slot => decide (owner < 512) && decide (slot < 32)
  | .diagUnitReset owner slot => decide (owner < 512) && decide (slot < 32)
  | .diagGroupReset owner slot => decide (owner < 512) && decide (slot < 32)
  | .diagLoopback owner slot => decide (owner < 512) && decide (slot < 32)
  | .diagTestgen owner slot => decide (owner < 512) && decide (slot < 32)
  | .diagSbbRead owner slot => decide (owner < 512) && decide (slot < 32)
  | .diagSbbWrite owner slot => decide (owner < 512) && decide (slot < 32)
  | .diagSbbSeq owner slot => decide (owner < 512) && decide (slot < 32)
  | .diagGpioSet owner slot => decide (owner < 512) && decide (slot < 32)
  | .diagRegRead owner slot => decide (owner < 512) && decide (slot < 32)
  | .diagInject owner slot => decide (owner < 512) && decide (slot < 32)
  | .bootRomStart tamper _ copies => decide (tamper < 32) && decide (copies.length ≤ 5)
  | .sImageReady _ => true
  | .cImageReady => true
  | .keySlotRetire owner => decide (owner < 512)
  | .jobFrameReceive => true
  | .jobSlotAllocate => true
  | .jobIdleTimeout slot => decide (slot < 256)
  | .trngHealthFail => true
  | .trngRestartDone => true
  | .tamperDetect sources => decide (sources < 32)
  | .tamperKeyZeroise => true
  | .tamperCisternWipe => true
  | .tamperSafeResume => true
  | .tamperControlRestart => true
  | .jtagDebugUnlock level key sig => decide (level < 4) && decide (key.length ≤ 96) && decide (sig.length ≤ 96)
  | .bankClearDone bank => decide (bank < 16)
  | .bankAccess bank master owner op width off value ecc => decide (bank < 16) && decide (master < 7) && decide (owner < 512) && decide (op < 4) && decide (width < 9) && decide (off < 262144) && decide (value < 18446744073709551616) && decide (ecc < 3)
  | .apertureAddRead fn off en => hostOk fn off en
  | .apertureSwapRead fn off en => hostOk fn off en
  | .bankWakeDone bank => decide (bank < 16)
  | .marchChunkDone => true
  | .marchTestDone _ => true
  | .sbbGoRead slot addr ctrl => decide (slot < 16) && decide (addr < 2 ^ 32) && decide (ctrl < 2 ^ 32)
  | .sbbGoWrite slot addr ctrl _ => decide (slot < 16) && decide (addr < 2 ^ 32) && decide (ctrl < 2 ^ 32)
  | .sbbGoRmw slot addr word ctrl => decide (slot < 16) && decide (addr < 2 ^ 32) && decide (word < 2 ^ 32) && decide (ctrl < 2 ^ 32)
  | .sbbCancel slot => decide (slot < 16)
  | .sbbSlotRespRead slot => decide (slot < 16)
  | .sbbHoldExpire slot => decide (slot < 16)
  | .sbbPieceComplete slot _ _ _ _ => decide (slot < 16)
  | .sbbRetryGapExpire slot => decide (slot < 16)
  | .sbbWritePoll slot _ => decide (slot < 16)
  | .sbbLockTimeout chan => decide (chan < 12)
  | .gpioEdge line _ => decide (line < 48)
  | .gpioTask k => decide (k < 16)
  | .railFault rail => decide (rail < 12)
  | .railRetryExpire rail => decide (rail < 12)
  | .railStageAdvance => true
  | .evfSwFireWrite val => decide (val < 2 ^ 32)
  | .pulseFireTask p => decide (p < 8)
  | .captureSoftTask c => decide (c < 8)
  | .recordTask k => decide (k < 64)
  | .por _ => true
  | .pwrOnEdge => true
  | .rstNLow => true
  | .rstNHigh => true
  | .regDelayExpire => true
  | .regPowerGood n => decide (n < 6)
  | .regPgTimeout n => decide (n < 6)
  | .regPgLost n => decide (n < 6)
  | .regRetryExpire => true
  | .regOffStep => true
  | .pwrTransitionStart => true
  | .domainSwitchRound => true
  | .domainPowerGood d => decide (d < 50)
  | .domainPgTimeout d => decide (d < 50)
  | .standbyWake => true
  | .listenWake source => decide (source < 64)
  | .wakeTimerExpire => true
  | .refMonitorWindow _ => true
  | .refEdgeLoss => true
  | .aoXtalFail => true
  | .pllRelockDone => true
  | .thermSample _ => true
  | .thermalRestart => true
  | .treustLockstepFault => true
  | .controlPairFault => true
  | .powerLoss _ => true
  | .sysResetExpire => true
  | .lpddrReady => true
  | .lineRestored mac => decide (mac < 24)
  | .cascadeControlReceive port member _ _ => decide (port < 24) && decide (member < 4)
  | .shadowRebuild => true
  | .railPowerGood rail => decide (rail < 12)
  | .sbbChanRewrite chan cfg timing _ => decide (chan < 12) && decide (cfg < 2 ^ 32) && decide (timing < 2 ^ 32)

end Sys2Proof
end

