-- ==== Sys2Proof/Certificates/Slice0/Obligations.lean ====
section
/-!
DEFINITION. The statements for the provers: rules of the spec over the machine, by family of commands.
-/
open Sys2Proof Sys2Proof.Machine

/-- R362, R401, R407, R411, R414, R429, R432 to R447, R471: what each MEM and PWR command does. Payload layouts that the spec does not give are the model's choice (log entry 22). -/
def Obligations.MemAndPwrCommandsComplete : Prop :=
  (∀ (s : State) (owner slot : Nat) (q : Slot), s.hw.runs owner slot 0x0B01 q →
      let h := s.hw
      let b := q.w 0
      let new := q.w 1 % 512
      let pass := bit (q.w 1) 31
      let after : Hw := ((h.setSlot (owner * 32 + slot) { q with committed := true }).ownerWrite b new pass (some (owner * 32 + slot)))
      (∀ chk ∈ ([h.denyBank owner b, (pass && h.bankFld b Fld.MEM_BANK_OWNER_OWNER != owner, cDenied, resWord 8 b),
          q.reserved [15, 0x800001FF], (!h.alive new, cNoObject, new), badState (h.bankFld b Fld.MEM_BANK_OWNER_FAILED == 1) 8 b] : List Check), chk.1 = false) →
      exec (.memBankGrant owner slot) s = .next (s.on after)) ∧
  (∀ (s : State) (owner slot : Nat) (q : Slot), s.hw.runs owner slot 0x0B02 q →
      let h := s.hw
      let b := q.w 0
      let on := bit (q.w 1) 0
      let k := owner * 32 + slot
      let after : Hw := h.retainFw b on
      (∀ chk ∈ ([if b < 32 then only1 owner else h.denyBank owner (b - 32), q.reserved [63, 3], badAt (decide (48 ≤ b)) 0,
          (on && decide (b < 32) && h.mem.used.testBit b, cState, b)] : List Check), chk.1 = false) →
      (b < 32) →
      h.clean after noDeadlock →
      exec (.memBankRetain owner slot) s = .next (s.done owner slot after [])) ∧
  (∀ (s : State) (owner slot : Nat) (q : Slot), s.hw.runs owner slot 0x0B02 q →
      let h := s.hw
      let b := q.w 0
      let on := bit (q.w 1) 0
      let k := owner * 32 + slot
      let after : Hw := (h.setBank (b - 32) Fld.MEM_BANK_OWNER_AUTO_WAKE (bits (q.w 1) 1 1)).retainOff (b - 32)
      (∀ chk ∈ ([if b < 32 then only1 owner else h.denyBank owner (b - 32), q.reserved [63, 3], badAt (decide (48 ≤ b)) 0,
          (on && decide (b < 32) && h.mem.used.testBit b, cState, b)] : List Check), chk.1 = false) →
      (32 ≤ b) →
      (on = false) →
      h.clean after noDeadlock →
      exec (.memBankRetain owner slot) s = .next (s.done owner slot after [])) ∧
  (∀ (s : State) (owner slot : Nat) (q : Slot), s.hw.runs owner slot 0x0B02 q →
      let h := s.hw
      let b := q.w 0
      let on := bit (q.w 1) 0
      let k := owner * 32 + slot
      let x := (h.setBank (b - 32) Fld.MEM_BANK_OWNER_AUTO_WAKE (bits (q.w 1) 1 1))
      let after : Hw := x
      (∀ chk ∈ ([if b < 32 then only1 owner else h.denyBank owner (b - 32), q.reserved [63, 3], badAt (decide (48 ≤ b)) 0,
          (on && decide (b < 32) && h.mem.used.testBit b, cState, b)] : List Check), chk.1 = false) →
      (32 ≤ b) →
      (on = true) →
      (x.bankFld (b - 32) Fld.MEM_BANK_OWNER_RETAINED = 1 ∧ x.bankFld (b - 32) Fld.MEM_BANK_OWNER_WAKING = 0) →
      h.clean after noDeadlock →
      exec (.memBankRetain owner slot) s = .next (s.done owner slot after [])) ∧
  (∀ (s : State) (owner slot : Nat) (q : Slot), s.hw.runs owner slot 0x0B02 q →
      let h := s.hw
      let b := q.w 0
      let on := bit (q.w 1) 0
      let k := owner * 32 + slot
      let x := (h.setBank (b - 32) Fld.MEM_BANK_OWNER_AUTO_WAKE (bits (q.w 1) 1 1))
      let after : Hw := ((((x.retainOff (b - 32)).setSlot k { q with committed := true }).onMem (fun m => { m with
           retReq := kvPut m.retReq (b - 32) (some k) })).testBanks
             (if ((x.retainOff (b - 32)).setSlot k { q with committed := true }).mem.off.contains b then [b] else []))
      (∀ chk ∈ ([if b < 32 then only1 owner else h.denyBank owner (b - 32), q.reserved [63, 3], badAt (decide (48 ≤ b)) 0,
          (on && decide (b < 32) && h.mem.used.testBit b, cState, b)] : List Check), chk.1 = false) →
      (32 ≤ b) →
      (on = true) →
      (¬ (x.bankFld (b - 32) Fld.MEM_BANK_OWNER_RETAINED = 1 ∧ x.bankFld (b - 32) Fld.MEM_BANK_OWNER_WAKING = 0)) →
      exec (.memBankRetain owner slot) s = .next (s.on after)) ∧
  (∀ (s : State) (owner slot : Nat) (q : Slot), s.hw.runs owner slot 0x0B03 q →
      let h := s.hw
      let fw := bitsOf 32 (q.w 0)
      let gen := bitsOf 16 (q.w 1)
      let banks := fw ++ gen.map (32 + ·)
      let keep := bit (q.w 2) 0
      let after : Hw := 
          let x := (h.setSlot (owner * 32 + slot) { q with committed := true }).wakeBanks banks
          let x := (x.setFld Reg.MEM_MARCH_RESULT Fld.MEM_MARCH_RESULT_DONE 0).onMem (fun m => { m with
            off := m.off.filter (fun b => !banks.contains b) })
          x.marchStart banks keep (some (owner * 32 + slot)) (if h.anyAsleep banks then 20000 else 0)
      (∀ chk ∈ (([(!fw.isEmpty && owner != 1, cDenied, 0)] ++ gen.map (h.denyBank owner) ++
          [q.reserved [0xFFFFFFFF, 0xFFFF, 1], badAt banks.isEmpty 0] ++
          banks.map (fun b => (!h.marchable keep b, cState, if b < 32 then b else resWord 8 (b - 32)))) : List Check), chk.1 = false) →
      (h.mem.march.isSome = false) →
      exec (.memMarchRun owner slot) s = .next (s.on after)) ∧
  (∀ (s : State) (owner slot : Nat) (q : Slot), s.hw.runs owner slot 0x0B03 q →
      let h := s.hw
      let fw := bitsOf 32 (q.w 0)
      let gen := bitsOf 16 (q.w 1)
      let banks := fw ++ gen.map (32 + ·)
      let keep := bit (q.w 2) 0
      let after : Hw := h
      (∀ chk ∈ (([(!fw.isEmpty && owner != 1, cDenied, 0)] ++ gen.map (h.denyBank owner) ++
          [q.reserved [0xFFFFFFFF, 0xFFFF, 1], badAt banks.isEmpty 0] ++
          banks.map (fun b => (!h.marchable keep b, cState, if b < 32 then b else resWord 8 (b - 32)))) : List Check), chk.1 = false) →
      (h.mem.march.isSome = true) →
      exec (.memMarchRun owner slot) s = .next (s.on after)) ∧
  (∀ (s : State) (owner slot : Nat) (q : Slot), s.hw.runs owner slot 0x0B04 q →
      let h := s.hw
      let after : Hw := h
      h.clean after noDeadlock →
      exec (.memMarchResult owner slot) s = .next (s.done owner slot after [h.rn Reg.MEM_MARCH_RESULT, h.rn Reg.MEM_MARCH_DETAIL])) ∧
  (∀ (s : State) (owner slot : Nat) (q : Slot), s.hw.runs owner slot 0x0B05 q →
      let h := s.hw
      let after : Hw := h
      h.clean after noDeadlock →
      exec (.memConflictRead owner slot) s = .next (s.done owner slot after ((List.range 8).map (fun m => h.rn (Reg.MEM_CONFLICT m))))) ∧
  (∀ (s : State) (owner slot : Nat) (q : Slot), s.hw.runs owner slot 0x0B06 q →
      let h := s.hw
      let i := q.w 0
      let c := q.w 1
      let n := q.w 2
      let en := getF c Fld.MEM_LPDDR_REGION_EN == 1
      let t := getF c Fld.MEM_LPDDR_REGION_TYPE
      let b := getF c Fld.MEM_LPDDR_REGION_BASE_MIB
      let o := getF c Fld.MEM_LPDDR_REGION_OWNER
      let hit := (List.range 32).find? (fun k => k != i && h.flag (Reg.MEM_LPDDR_REGION k) Fld.MEM_LPDDR_REGION_EN &&
        decide (b < h.fld (Reg.MEM_LPDDR_REGION k) Fld.MEM_LPDDR_REGION_BASE_MIB + h.rn (Reg.MEM_LPDDR_SIZE k)) &&
        decide (h.fld (Reg.MEM_LPDDR_REGION k) Fld.MEM_LPDDR_REGION_BASE_MIB < b + n))
      let after : Hw := (h.images [(Reg.MEM_LPDDR_REGION i, 0xF1FF1FFF, c), (Reg.MEM_LPDDR_SIZE i, 0x1FFF, n)])
      (∀ chk ∈ ([only1 owner, q.reserved [31, 0xF1FF1FFF, 0x1FFF], badAt (decide (3 < t)) 4,
          badAt (en && decide (min Config.lpddrMib 8192 < b + n)) 4, badAt (en && n = 0) 8,
          badAt (en && t = 2 && decide (8 < n + h.regionTotal i 2)) 8,
          (en && !h.alive o, cNoObject, o), (en && hit.isSome, cConflict, hit.getD 0)] : List Check), chk.1 = false) →
      h.clean after noDeadlock →
      exec (.memLpddrRegion owner slot) s = .next (s.done owner slot after [])) ∧
  (∀ (s : State) (owner slot : Nat) (q : Slot), s.hw.runs owner slot 0x0C01 q →
      let h := s.hw
      let goal := q.w 0
      let group := q.w 1
      let m := q.mask 2
      let armed := h.wn Reg.PWR_WAKE_ARM (q.w 4)
      let after : Hw := armed.onPwr (fun p => { p with req := some ⟨goal, 0, 0, none, h.clk + 500000⟩ })
      (∀ chk ∈ (([q.reserved [7, 7, 0xFFFFFFFF, 0x3FFFF, 0xFFFFFFFF], badAt (decide (4 < goal)) 0, badAt (decide (5 < group)) 4] ++
          (if goal = 3 then h.maskChecks m 8 (armed.domainsOf 3 m group) else [])) : List Check), chk.1 = false) →
      (h.pwr.busy || h.pwr.req.isSome) = false →
      (goal ≤ 1) →
      h.clean after noDeadlock →
      exec (.pwrStateSet owner slot) s = .next (s.done owner slot after [])) ∧
  (∀ (s : State) (owner slot : Nat) (q : Slot), s.hw.runs owner slot 0x0C01 q →
      let h := s.hw
      let goal := q.w 0
      let group := q.w 1
      let m := q.mask 2
      let armed := h.wn Reg.PWR_WAKE_ARM (q.w 4)
      let after : Hw := (armed.setSlot (owner * 32 + slot) { q with committed := true }).onPwr (fun p => { p with
           req := some ⟨goal, m, group, some (owner * 32 + slot), h.clk⟩ })
      (∀ chk ∈ (([q.reserved [7, 7, 0xFFFFFFFF, 0x3FFFF, 0xFFFFFFFF], badAt (decide (4 < goal)) 0, badAt (decide (5 < group)) 4] ++
          (if goal = 3 then h.maskChecks m 8 (armed.domainsOf 3 m group) else [])) : List Check), chk.1 = false) →
      (h.pwr.busy || h.pwr.req.isSome) = false →
      (1 < goal) →
      exec (.pwrStateSet owner slot) s = .next (s.on after)) ∧
  (∀ (s : State) (owner slot : Nat) (q : Slot), s.hw.runs owner slot 0x0C01 q →
      let h := s.hw
      let goal := q.w 0
      let group := q.w 1
      let m := q.mask 2
      let armed := h.wn Reg.PWR_WAKE_ARM (q.w 4)
      let after : Hw := h
      (∀ chk ∈ (([q.reserved [7, 7, 0xFFFFFFFF, 0x3FFFF, 0xFFFFFFFF], badAt (decide (4 < goal)) 0, badAt (decide (5 < group)) 4] ++
          (if goal = 3 then h.maskChecks m 8 (armed.domainsOf 3 m group) else [])) : List Check), chk.1 = false) →
      (h.pwr.busy || h.pwr.req.isSome) = true →
      exec (.pwrStateSet owner slot) s = .next (s.on after)) ∧
  (∀ (s : State) (owner slot : Nat) (q : Slot), s.hw.runs owner slot 0x0C02 q →
      let h := s.hw
      let after : Hw := h
      h.clean after noDeadlock →
      exec (.pwrStateRead owner slot) s = .next (s.done owner slot after ([Reg.PWR_STATUS, Reg.PWR_DOMAIN_ON_LO, Reg.PWR_DOMAIN_ON_HI, Reg.PWR_DOMAIN_PG_LO, Reg.PWR_DOMAIN_PG_HI,
        Reg.PWR_DOMAIN_FAULT_LO, Reg.PWR_DOMAIN_FAULT_HI].map h.rn))) ∧
  (∀ (s : State) (owner slot : Nat) (q : Slot), s.hw.runs owner slot 0x0C03 q →
      let h := s.hw
      let now := maskOf ((List.range 50).filter h.domOn)
      let sel := q.mask 2
      let m := (q.mask 0 &&& sel) ||| (now &&& (2 ^ 50 - 1 - sel))
      let after : Hw := (h.setSlot (owner * 32 + slot) { q with committed := true }).onPwr (fun p => { p with
           req := some ⟨3, m, 0, some (owner * 32 + slot), h.clk⟩ })
      (∀ chk ∈ (([q.reserved [0xFFFFFFFF, 0x3FFFF, 0xFFFFFFFF, 0x3FFFF],
          (h.fld Reg.PWR_STATUS Fld.PWR_STATUS_STATE != 3, cState, 0)] ++ h.maskChecks m 0 (h.domainsOf 3 m 0)) : List Check), chk.1 = false) →
      (h.pwr.busy || h.pwr.req.isSome) = false →
      exec (.pwrDomainSet owner slot) s = .next (s.on after)) ∧
  (∀ (s : State) (owner slot : Nat) (q : Slot), s.hw.runs owner slot 0x0C04 q →
      let h := s.hw
      let c := q.w 3
      let t := getF c Fld.PWR_WAKE_CFG_TARGET
      let after : Hw := (h.images [(Reg.PWR_WAKE_ARM, 0xFFFFFFFF, q.w 0), (Reg.PWR_WAKE_ARM_ETH, 0xFFFFF, q.w 1),
          (Reg.PWR_WAKE_ARM_LIN, 0xFFFF, q.w 2), (Reg.PWR_WAKE_CFG, 0xF700FFFF, c)]).followArmed
      (∀ chk ∈ ([only1 owner, q.reserved [0xFFFFFFFF, 0xFFFFF, 0xFFFF, 0xF700FFFF], badAt (t != 2 && t != 4) 15,
          badAt (decide (5 < getF c Fld.PWR_WAKE_CFG_LISTEN_GROUP)) 15] : List Check), chk.1 = false) →
      (h.pwr.busy = false) →
      h.clean after noDeadlock →
      exec (.pwrWakeSet owner slot) s = .next (s.done owner slot after [])) ∧
  (∀ (s : State) (owner slot : Nat) (q : Slot), s.hw.runs owner slot 0x0C05 q →
      let h := s.hw
      let r := q.w 0
      let c := q.w 1
      let f := q.w 2
      let on := bit (q.w 3) 0
      let d := getF c Fld.PWR_RAIL_SEQ_DOMAIN
      let auto := getF c Fld.PWR_RAIL_SEQ_AUTO == 1
      let cfg : Nat := 0x03FFFFFF
      let after : Hw := (
          let x := h.images [(Reg.PWR_RAIL_SEQ r, 0xFE3FFFFF, c), (Reg.SBB_RAIL_CFG r, cfg, f)]
          if auto || !x.pg 48 then x
          else if on && !x.railIsOn r then x.railOn r
          else if !on && x.railIsOn r then x.railOff r
          else x)
      (∀ chk ∈ ([only1 owner, q.reserved [15, 0xFE3FFFFF, cfg, 1], badAt (decide (12 ≤ r)) 0, badAt (d != 63 && decide (50 ≤ d)) 6,
          badAt (auto && on) 12, (!auto && on && d != 63 && !h.pg d, cState, 0),
          (decide (250 ≤ railBudget f), cBudget, railBudget f * 1000)] : List Check), chk.1 = false) →
      h.clean after noDeadlock →
      exec (.pwrRailSet owner slot) s = .next (s.done owner slot after [])) ∧
  (∀ (s : State) (owner slot : Nat) (q : Slot), s.hw.runs owner slot 0x0C06 q →
      let h := s.hw
      let l := [Reg.PWR_WAKE_CAUSE, Reg.PWR_WAKE_CAUSE_ETH, Reg.PWR_WAKE_CAUSE_LIN, Reg.PWR_WAKE_FIRST]
      let after : Hw := l.foldl Hw.clr h
      (owner = 1) →
      h.clean after noDeadlock →
      exec (.pwrWakeCauseRead owner slot) s = .next (s.done owner slot after (l.map h.rn))) ∧
  (∀ (s : State) (owner slot : Nat) (q : Slot), s.hw.runs owner slot 0x0C07 q →
      let h := s.hw
      let after : Hw := h
      h.clean after noDeadlock →
      exec (.pwrClockStatus owner slot) s = .next (s.done owner slot after ([Reg.PWR_CLK_STATUS, Reg.PWR_REF_PPM, Reg.PWR_REF_PPM_LAST].map h.rn)))

/-- R14 to R16, R47, R72, R114, R353, R399, R417 to R428, R479: what each DIAG command does. Payload layouts that the spec does not give are the model's choice (log entry 22). -/
def Obligations.DiagCommandsComplete : Prop :=
  (∀ (s : State) (owner slot : Nat) (q : Slot), s.hw.runs owner slot 0x0D01 q →
      let h := s.hw
      let k := q.w 0 / 2 ^ 24
      let i := q.w 0 % 2 ^ 24
      let after : Hw := (h.resetUnit k i)
      (∀ chk ∈ ([h.denyUnits owner [unitRes k i], badAt (decide (unitCount.getD k 0 ≤ i)) 0] : List Check), chk.1 = false) →
      h.clean after noDeadlock →
      exec (.diagUnitReset owner slot) s = .next (s.done owner slot after [])) ∧
  (∀ (s : State) (owner slot : Nat) (q : Slot), s.hw.runs owner slot 0x0D02 q →
      let h := s.hw
      let k := q.w 0 / 2 ^ 24
      let i := q.w 0 % 2 ^ 24
      let after : Hw := (h.resetGroup k i)
      (∀ chk ∈ ([h.denyUnits owner ((groupUnits k i).map (fun u => unitRes u.1 u.2)), badAt (decide (groupCount.getD k 0 ≤ i)) 0] : List Check), chk.1 = false) →
      h.clean after noDeadlock →
      exec (.diagGroupReset owner slot) s = .next (s.done owner slot after [])) ∧
  (∀ (s : State) (owner slot : Nat) (q : Slot), s.hw.runs owner slot 0x0D03 q →
      let h := s.hw
      let m := q.w 0
      let v := q.w 1
      let after : Hw := (
          let was := (kvGet h.mac.loopback m).isSome
          let x := h.onMac (fun a => { a with loopback := if v = 0 then kvDel a.loopback m else kvPut a.loopback m v })
          if v = 0 then (if was then x.lineLoss m [] else x)
          else x.onMac (fun a => { a with lineGood := insertNew a.lineGood m }))
      (∀ chk ∈ ([h.deny owner 1 m, q.reserved [31, 3], badAt (decide (24 ≤ m)) 0, badAt (v == 3 || (v == 2 && decide (20 ≤ m))) 4] : List Check), chk.1 = false) →
      h.clean after noDeadlock →
      exec (.diagLoopback owner slot) s = .next (s.done owner slot after [])) ∧
  (∀ (s : State) (owner slot : Nat) (q : Slot), s.hw.runs owner slot 0x0D04 q →
      let h := s.hw
      let after : Hw := { h with sys := { h.sys with testgen := if bit (q.w 0) 0 then q.payload else [] } }
      (∀ chk ∈ ([h.deny owner 1 30, q.reserved [1]] : List Check), chk.1 = false) →
      h.clean after noDeadlock →
      exec (.diagTestgen owner slot) s = .next (s.done owner slot after [])) ∧
  (∀ (s : State) (owner slot : Nat) (q : Slot), s.hw.runs owner slot 0x0D05 q →
      let h := s.hw
      let n := getF (q.w 1) Fld.SBB_REQ_CTRL_LEN + 1
      let k := owner * 32 + slot
      let l : List FarReq := [⟨q.w 0, 0, farCtrl (q.w 1) 0 false, []⟩]
      ∀ (r : FarReq) (rs : List FarReq) (t : Nat),
      let after : Hw := (h.onSbb (fun b => { b with
           seqs := kvPut b.seqs k (rs.map (fun x => [x.addr, x.word, x.ctrl])) })).sbbGo t r.addr r.word r.ctrl r.data (some k)
      (∀ chk ∈ ((only1 owner :: [q.reserved [farAddrMask, farCtrlMask], badAt (getF (q.w 1) Fld.SBB_REQ_CTRL_OP != 0) 7,
          badAt (decide (104 < n) && decide (q.w 4 < n)) 16] ++ [(!h.flag Reg.SBB_STATUS Fld.SBB_STATUS_READY, cState, 0), h.farCheck l]) : List Check), chk.1 = false) →
      (l = r :: rs) →
      (h.sbb.tx.any (fun t => t.2.serves == some k) = false) →
      (h.freeTx = some t) →
      exec (.diagSbbRead owner slot) s = .next (s.on after)) ∧
  (∀ (s : State) (owner slot : Nat) (q : Slot), s.hw.runs owner slot 0x0D06 q →
      let h := s.hw
      let n := getF (q.w 1) Fld.SBB_REQ_CTRL_LEN + 1
      let op := getF (q.w 1) Fld.SBB_REQ_CTRL_OP
      let data := if op = 2 then [] else if 104 < n then q.buf.take n else (bytesOf (q.payload.drop 2)).take n
      let k := owner * 32 + slot
      let l : List FarReq := [⟨q.w 0, q.w 2, farCtrl (q.w 1) op false, data⟩]
      ∀ (r : FarReq) (rs : List FarReq) (t : Nat),
      let after : Hw := (h.onSbb (fun b => { b with
           seqs := kvPut b.seqs k (rs.map (fun x => [x.addr, x.word, x.ctrl])) })).sbbGo t r.addr r.word r.ctrl r.data (some k)
      (∀ chk ∈ ((only1 owner :: [q.reserved [farAddrMask, farCtrlMask], badAt (op != 1 && op != 2) 7,
          badAt (op == 1 && data.length != n) 8] ++ [(!h.flag Reg.SBB_STATUS Fld.SBB_STATUS_READY, cState, 0), h.farCheck l]) : List Check), chk.1 = false) →
      (l = r :: rs) →
      (h.sbb.tx.any (fun t => t.2.serves == some k) = false) →
      (h.freeTx = some t) →
      exec (.diagSbbWrite owner slot) s = .next (s.on after)) ∧
  (∀ (s : State) (owner slot : Nat) (q : Slot), s.hw.runs owner slot 0x0D07 q →
      let h := s.hw
      let n := q.w 0
      let ctrl (i : Nat) : Nat := q.w (2 + 3 * i)
      let req (i : Nat) : FarReq :=
        ⟨q.w (1 + 3 * i), q.w (3 + 3 * i), farCtrl (ctrl i) (getF (ctrl i) Fld.SBB_REQ_CTRL_OP) (decide (i + 1 < n)),
         (toLe 4 (q.w (3 + 3 * i))).take (getF (ctrl i) Fld.SBB_REQ_CTRL_LEN + 1)⟩
      let is := List.range (min n 9)
      let k := owner * 32 + slot
      let l : List FarReq := (is.map req)
      ∀ (r : FarReq) (rs : List FarReq) (t : Nat),
      let after : Hw := (h.onSbb (fun b => { b with
           seqs := kvPut b.seqs k (rs.map (fun x => [x.addr, x.word, x.ctrl])) })).sbbGo t r.addr r.word r.ctrl r.data (some k)
      (∀ chk ∈ ((only1 owner :: ([badAt (n = 0 || q.payload.length != 3 * n + 1) 0,
          q.reserved (0xF :: (is.map (fun _ => [farAddrMask, farCtrlMask, 0xFFFFFFFF])).flatten)] ++
          is.map (fun i => badAt (decide (3 < getF (ctrl i) Fld.SBB_REQ_CTRL_LEN) ||
            getF (ctrl i) Fld.SBB_REQ_CTRL_CHANNEL != getF (ctrl 0) Fld.SBB_REQ_CTRL_CHANNEL) (8 + 12 * i))) ++ [(!h.flag Reg.SBB_STATUS Fld.SBB_STATUS_READY, cState, 0), h.farCheck l]) : List Check), chk.1 = false) →
      (l = r :: rs) →
      (h.sbb.tx.any (fun t => t.2.serves == some k) = false) →
      (h.freeTx = some t) →
      exec (.diagSbbSeq owner slot) s = .next (s.on after)) ∧
  (∀ (s : State) (owner slot : Nat) (q : Slot), s.hw.runs owner slot 0x0D08 q →
      let h := s.hw
      let n := q.w 0
      let d := bits (q.w 1) 31 30
      let after : Hw := ((h.setFld (Reg.SBB_GPIO_CFG n) Fld.SBB_GPIO_CFG_DIR d).gpioDrive n (some (bit (q.w 1) 29)))
      (∀ chk ∈ ([(decide (48 ≤ n) || !h.flag (Reg.SBB_GPIO_CFG n) Fld.SBB_GPIO_CFG_HOST_SET, cDenied, n), q.reserved [63, 0xE0000000],
          badAt (d == 3) 7, (!h.flag Reg.SBB_STATUS Fld.SBB_STATUS_READY, cState, n)] : List Check), chk.1 = false) →
      h.clean after noDeadlock →
      exec (.diagGpioSet owner slot) s = .next (s.done owner slot after [])) ∧
  (∀ (s : State) (owner slot : Nat) (q : Slot), s.hw.runs owner slot 0x0D09 q →
      let h := s.hw
      let r := q.w 0
      ∀ (rd : RegDesc),
      let after : Hw := h
      (∀ chk ∈ ([only1 owner, (r / 0x40000 == 9, cDenied, r), badAt (r % 4 != 0) 0] : List Check), chk.1 = false) →
      (findReg r = some rd) →
      h.clean after noDeadlock →
      exec (.diagRegRead owner slot) s = .next (s.done owner slot after [(h.viewReg 0 r).getD (h.rn r)])) ∧
  (∀ (s : State) (owner slot : Nat) (q : Slot), s.hw.runs owner slot 0x0D09 q →
      let h := s.hw
      let r := q.w 0
      let after : Hw := h.drawn
      (∀ chk ∈ ([only1 owner, (r / 0x40000 == 9, cDenied, r), badAt (r % 4 != 0) 0] : List Check), chk.1 = false) →
      (findReg r = none) →
      h.clean after noDeadlock →
      exec (.diagRegRead owner slot) s = .next (s.done owner slot after [h.draw % 2 ^ 32])) ∧
  (∀ (s : State) (owner slot : Nat) (q : Slot), s.hw.runs owner slot 0x0D0A q →
      let h := s.hw
      let t := q.w 0
      let i := q.w 1
      let after : Hw := (h.inject t i (q.w 2))
      (∀ chk ∈ ([only1 owner, q.reserved [31, 0xFFFFFFFF, 3], badAt (decide (17 < t) || (decide (6 < t) && decide (t < 16))) 0,
          badAt ((t == 0 || t == 17) && decide (131072 ≤ i)) 4, badAt (t == 16 && decide (524288 ≤ i)) 4] : List Check), chk.1 = false) →
      h.clean after noDeadlock →
      exec (.diagInject owner slot) s = .next (s.done owner slot after []))

/-- The model's choice (log entry 4): with no command waiting a step is one cycle of the clock. -/
def Obligations.IdleStepPassesOneCycle : Prop :=
  ∀ s : State, s.pending = [] → step s = .next (s.on s.hw.tick)

/-- R482 and R17: what device reset leaves. Reset values that no rule gives are the model's choice (log entry 1). -/
def Obligations.ResetShowsResetValues : Prop :=
  State.reset.pending = [] ∧ (∀ r, State.reset.hw.rd r = resetVal r) ∧ State.reset.hw.own.active = [0, 1] ∧ State.reset.hw.mbx.slots = [] ∧
    State.reset.hw.evq.staging = [] ∧ State.reset.hw.swc.frames = [] ∧ State.reset.hw.tasks = [] ∧ State.reset.hw.out = []

/-- The block reports through its own state: no command stops it. R365, R378: fuses change only by a lifecycle advance (also one that power loss interrupts, R366) and when the C-image raises SVN minima. -/
def Obligations.EveryCommandGoesOn : Prop :=
  (∀ (c : Instr) (s : State), ∃ t, exec c s = .next t ∧ t.pending = s.pending ∧
      (t.fuse = s.fuse ∨ c = .cImageReady ∨ (∃ p, c = .powerLoss p) ∨ (∃ owner slot, c = .secLifecycleAdvance owner slot))) ∧
  (∀ s : State, safe s)

/-- R364 to R366, R378: fuses are one-way. `Fuse.keeps f g` says that `g` keeps what `f` holds. -/
def Obligations.FusesOnlyRatchet : Prop :=
  ∀ (f : Fuse) (s t : State), f.keeps s.fuse → step s = .next t → f.keeps t.fuse

/-- The start of the induction for FusesOnlyRatchet. The fuses as shipped are the model's choice (log entry 1). -/
def Obligations.FusesAtResetKeepTheirFloor : Prop :=
  Fuse.keeps Fuse.reset State.reset.fuse

/-- R331, R332, R346, R347, R352: the frame of all GCS commands, for any judgement `f` of a payload. -/
def Obligations.GcsFrameJudgesAndCompletes : Prop :=
  (∀ (h : Hw) (o sl op : Nat) (viol : Hw → List Nat) (f : Slot → Gcs),
      (kvGet h.mbx.slots (o * 32 + sl) = none ∨ ∃ q, kvGet h.mbx.slots (o * 32 + sl) = some q ∧
        (q.st ≠ 2 ∨ q.opcode ≠ op ∨ q.committed = true ∨ h.oldestOf (o * 32 + sl) q = false)) → h.gcsRun o sl op viol f = h) ∧
  (∀ (h : Hw) (o sl op : Nat) (viol : Hw → List Nat) (f : Slot → Gcs) (q : Slot), sl < 32 → kvGet h.mbx.slots (o * 32 + sl) = some q → q.st = 2 →
      q.opcode = op → q.committed = false → h.oldestOf (o * 32 + sl) q = true → issuerOk op o = false →
      h.gcsRun o sl op viol f = h.complete (o * 32 + sl) cDenied (q.payload.getD 0 0) []) ∧
  (∀ (h x : Hw) (o sl op code detail : Nat) (resp : List Nat) (viol : Hw → List Nat) (f : Slot → Gcs) (q : Slot), h.due o sl op q →
      f q = .no code detail resp x → h.gcsRun o sl op viol f = (if q.checkOnly then h else x).complete (o * 32 + sl) code detail resp) ∧
  (∀ (h x : Hw) (o sl op : Nat) (viol : Hw → List Nat) (f : Slot → Gcs) (q : Slot), h.due o sl op q → f q = .wait x →
      h.gcsRun o sl op viol f = if q.checkOnly then h.complete (o * 32 + sl) cOk 0 [] else x) ∧
  (∀ (h : Hw) (l m : List Check) (c : Check) (r : Gcs), (∀ x ∈ l, x.1 = false) → c.1 = true → h.vet (l ++ c :: m) r = h.refuse c.2.1 c.2.2) ∧
  (∀ (h x : Hw) (o sl op : Nat) (resp : List Nat) (viol : Hw → List Nat) (f : Slot → Gcs) (q : Slot), h.due o sl op q → f q = .ok x resp →
      (h.judgeNew x viol = none → h.gcsRun o sl op viol f = (if q.checkOnly then h else Hw.settleBounds h x).complete (o * 32 + sl) cOk 0 resp) ∧
      (∀ e, h.judgeNew x viol = some (cDeadlock, e) → h.gcsRun o sl op viol f = h.complete (o * 32 + sl) cDeadlock e []) ∧
      (∀ e, h.judgeNew x viol = some (cBound, e) →
        h.gcsRun o sl op viol f = (if q.checkOnly then h else h.inc Reg.TSS_BOUND_REFUSED).complete (o * 32 + sl) cBound e [])) ∧
  (∀ (h x : Hw) (viol : Hw → List Nat) (j : Nat × Nat), h.judgeNew x viol = some j → j.1 = cDeadlock ∨ j.1 = cBound) ∧
  (∀ (h : Hw) (k code detail : Nat) (resp : List Nat) (q : Slot), kvGet h.mbx.slots k = some q → q.aborted = false → resp.length ≤ 28 → code < 2 ^ 16 →
      let o := k / 32
      let n := k % 32
      let x := h.complete k code detail resp
      kvGet x.mbx.slots k = none ∧ x.slotWord o n 2 = 3 * 2 ^ 30 + code ∧ x.slotWord o n 3 = detail % 2 ^ 32 ∧
        (∀ i, i < resp.length → x.slotWord o n (4 + i) = resp.getD i 0 % 2 ^ 32) ∧
        (∀ m w, m < 32 → w < 32 → m ≠ n → x.slotWord o m w = h.slotWord o m w) ∧
        (¬ h.loses o 0x0201 → ∃ r, x.evq.staging = h.evq.staging ++ [r] ∧ r.owner = o ∧ r.kind = 0x0201 ∧ r.w3 = q.tag * 65536 + n ∧
          r.w4 = q.opcode * 65536 + code ∧ r.w5 = detail))

/-- The model's form (log entry 4): a step runs the command at the front of the queue on the state with the queue's rest. -/
def Obligations.StepRunsFrontCommand : Prop :=
  ∀ (c : Instr) (l : List Instr) (s : State), step { s with pending := c :: l } = exec c { s with pending := l }

/-- R9: nothing stands at an offset, or the register file has no register there: a read answers 0, a write is discarded; no error is raised. -/
def Obligations.AbsentOffsetsReadZero : Prop :=
  (∀ (s : State) (fn off en incr : Nat), (∀ k ∈ touched en, s.hw.hostAt fn (off / 4 * 4 + 4 * k) = .nowhere) →
      exec (.rcCounterRead fn off en incr) s =
        .next (s.on ((touched en).foldl (fun a k => a.emit (.regData (off / 4 * 4 + 4 * k) 0)) s.hw))) ∧
  (∀ (s : State) (fn off en val : Nat), (∀ k ∈ touched en, s.hw.hostAt fn (off / 4 * 4 + 4 * k) = .nowhere) →
      exec (.registerWrite fn off en val) s = .next s) ∧
  (∀ (s : State) (fn off en incr r : Nat), off % 4 = 0 → en < 16 → s.hw.hostReg fn off = some r → r % 4 = 0 → findReg r = none →
      ¬ (0x10000000 ≤ r ∧ r % 256 < 0x80) →
      exec (.rcCounterRead fn off en incr) s = .next (s.on (s.hw.emit (.regData off 0)))) ∧
  (∀ (s : State) (fn off en val r : Nat), en ≠ 255 → s.hw.hostReg fn off = some r → findReg r = none →
      ¬ (0x10000000 ≤ r ∧ r % 256 = 0x80) → exec (.registerWrite fn off en val) s = .next s)

/-- R7 and R10 for the codes RW, RO, RC and W1C of a register without an action of its own (WO actions and RWL sealing apart). -/
def Obligations.RegisterWritesFollowAccessCodes : Prop :=
  (∀ (s : State) (fn off val r : Nat) (d : RegDesc), s.hw.hostReg fn off = some r → findReg r = some d → d.hid = false →
      ¬ actsOnWrite r → s.hw.mayWrite fn r → ∃ t, exec (.registerWrite fn off 15 val) s = .next t ∧
        (∀ i < 32, (t.hw.rn r).testBit i = if (d.w1c.testBit i && val.testBit i) = true then false
          else if d.rw.testBit i = true then val.testBit i else (s.hw.rn r).testBit i) ∧
        (∀ r', r' ≠ r → t.hw.rn r' = s.hw.rn r') ∧ t = s.on { s.hw with regs := t.hw.regs }) ∧
  (∀ (s t : State) (fn off val : Nat), off % 4 = 0 → exec (.registerWrite fn off 15 (val % 2 ^ 32)) s = .next t →
      exec (.registerWrite fn off 255 val) s = exec (.registerWrite fn (off + 4) 15 (val / 2 ^ 32)) t) ∧
  (∀ (s t : State) (fn off incr : Nat), off % 4 = 0 → exec (.rcCounterRead fn off 15 incr) s = .next t →
      exec (.rcCounterRead fn off 255 incr) s = exec (.rcCounterRead fn (off + 4) 15 0) t) ∧
  (∀ (s : State) (fn off en val : Nat), en ≠ 15 → en ≠ 255 → exec (.registerWrite fn off en val) s = .next s)

/-- R11. -/
def Obligations.W1cBitSetInTheSameCycleStays : Prop :=
  ∀ (s : State) (fn off val hwSet r : Nat) (d : RegDesc), s.hw.hostReg fn off = some r → findReg r = some d → d.hid = false →
    d.w1c ≠ 0 → s.hw.mayWrite fn r → ∃ t, exec (.w1cWrite fn off 15 val hwSet) s = .next t ∧
      (∀ i < 32, d.w1c.testBit i = true → hwSet.testBit i = true → (t.hw.rn r).testBit i = true) ∧
      (∀ i < 32, d.w1c.testBit i = true → hwSet.testBit i = false → val.testBit i = true → (t.hw.rn r).testBit i = false) ∧
      (∀ r', r' ≠ r → t.hw.rn r' = s.hw.rn r') ∧ t = s.on { s.hw with regs := t.hw.regs }

/-- R12 (an RC counter), the restart of R513 and the LO read of R202. -/
def Obligations.ReadsThatClearLoseNothing : Prop :=
  (∀ (s : State) (fn off incr r : Nat) (d : RegDesc), off % 4 = 0 → s.hw.hostReg fn off = some r → findReg r = some d → d.hid = false → d.rc = true →
      s.hw.viewReg fn r = none → ¬ actsOnRead r →
      exec (.rcCounterRead fn off 15 incr) s = .next (s.on ((s.hw.emit (.regData off (s.hw.rn r))).wn r incr))) ∧
  (∀ (s : State) (fn off q : Nat), q < 128 → s.hw.hostReg fn off = some (Reg.SWC_MMQ_PEAK q) →
      ∃ t, exec (.mmqPeakRead fn off 15) s = .next t ∧ t.hw.out = .regData off (s.hw.rn (Reg.SWC_MMQ_PEAK q)) :: s.hw.out ∧
        t.hw.rn (Reg.SWC_MMQ_PEAK q) = s.hw.mmqUsed q % 2 ^ 32 ∧
        (∀ r', r' ≠ Reg.SWC_MMQ_PEAK q → t.hw.rn r' = s.hw.rn r') ∧
        t = s.on { s.hw with out := t.hw.out, regs := t.hw.regs }) ∧
  (∀ (s : State) (fn off mac : Nat), mac < 24 → s.hw.hostReg fn off = some (Reg.MAC_RX_OCTETS_LO mac) →
      ∃ t, exec (.octetsLoRead fn off 15) s = .next t ∧
        t.hw.out = .regData off (kvGetD s.hw.mac.rxOct mac 0 % 2 ^ 32) :: s.hw.out ∧
        t.hw.rn (Reg.MAC_RX_OCTETS_HI mac) = kvGetD s.hw.mac.rxOct mac 0 / 2 ^ 32 % 2 ^ 32 ∧
        kvGetD t.hw.mac.rxOct mac 0 = 0 ∧ t.hw.mac.txOct = s.hw.mac.txOct ∧
        (∀ r', r' ≠ Reg.MAC_RX_OCTETS_HI mac → t.hw.rn r' = s.hw.rn r') ∧
        t = s.on { s.hw with out := t.hw.out, regs := t.hw.regs, mac := { s.hw.mac with rxOct := t.hw.mac.rxOct } }) ∧
  (∀ (s : State) (fn off mac : Nat), mac < 24 → s.hw.hostReg fn off = some (Reg.MAC_TX_OCTETS_LO mac) →
      ∃ t, exec (.octetsLoRead fn off 15) s = .next t ∧
        t.hw.out = .regData off (kvGetD s.hw.mac.txOct mac 0 % 2 ^ 32) :: s.hw.out ∧
        t.hw.rn (Reg.MAC_TX_OCTETS_HI mac) = kvGetD s.hw.mac.txOct mac 0 / 2 ^ 32 % 2 ^ 32 ∧
        kvGetD t.hw.mac.txOct mac 0 = 0 ∧ t.hw.mac.rxOct = s.hw.mac.rxOct ∧
        (∀ r', r' ≠ Reg.MAC_TX_OCTETS_HI mac → t.hw.rn r' = s.hw.rn r') ∧
        t = s.on { s.hw with out := t.hw.out, regs := t.hw.regs, mac := { s.hw.mac with txOct := t.hw.mac.txOct } })

/-- R42, R83, R146, R176, R183, R203, R206, R244, R298, R416, R468: what each readiness command leaves; what setReady does is `ReadyBitIsMirroredAndReported`. -/
def Obligations.FunctionsBecomeReady : Prop :=
  (∀ (s : State) (g : Nat), s.hw.pg 25 = true → g < 16 → s.hw.pg (7 + g) = true →
      exec .basinReady s = .next (s.on (s.hw.setReady Reg.SWC_STATUS Fld.SWC_STATUS_READY 2))) ∧
  (∀ (s : State), s.hw.pg 23 = true → s.hw.pg 24 = true → s.hw.flag Reg.FWD_STATUS Fld.FWD_STATUS_READY = false →
      let f := { s.hw.fwd with em := [], stashAge := [], lagA := [], lagB := [], vlan := [], mcast := [], nhop := [], lpm := [], acl := [], badUe := [], changes := [], shadow := Shadow.reset, struck := [] }
      exec .fwdReady s = .next (s.on (({ s.hw with fwd := f } : Hw).setReady Reg.FWD_STATUS Fld.FWD_STATUS_READY 3))) ∧
  (∀ (s : State), s.hw.pg 44 = true →
      exec .vieReady s = .next (s.on (s.hw.setReady Reg.VIE_STATUS Fld.VIE_STATUS_READY 5))) ∧
  (∀ (s : State) (g : Nat), g < 6 → s.hw.pg (37 + g) = true →
      exec (.canGroupReady g) s = .next (s.on (s.hw.setReady Reg.FBUS_STATUS ⟨g, g⟩ (16 + g)))) ∧
  (∀ (s : State), s.hw.pg 43 = true →
      exec (.canGroupReady 6) s = .next (s.on (s.hw.setReady Reg.FBUS_STATUS Fld.FBUS_STATUS_LIN_READY 9))) ∧
  (∀ (s : State), s.hw.pg 37 = true →
      exec .brgReady s = .next (s.on (({ s.hw with brg := { s.hw.brg with sess := [], claims := [] } } : Hw).setReady
        Reg.BRG_STATUS Fld.BRG_STATUS_READY 8))) ∧
  (∀ (s : State), s.hw.pg 49 = true → s.hw.flag Reg.TIME_STATUS Fld.TIME_STATUS_READY = false →
      exec .timeReady s = .next (s.on (({ s.hw with tim := { s.hw.tim with base := [], run := [], txts := [], txtsOwner := [], past := [] } } : Hw).setReady
        Reg.TIME_STATUS Fld.TIME_STATUS_READY 6))) ∧
  (∀ (s : State) (q : Nat), q < 5 → s.hw.pg (26 + q) = true →
      exec (.sqReady q) s = .next (s.on (((s.hw.setFld (Reg.SQ_STATUS q) Fld.SQ_STATUS_PLLA_LOCK 1).setFld (Reg.SQ_STATUS q)
        Fld.SQ_STATUS_PLLB_LOCK 1).setReady (Reg.SQ_STATUS q) Fld.SQ_STATUS_READY (56 + q)))) ∧
  (∀ (s : State) (m : Nat), m < 24 → s.hw.pg (31 + m / 4) = true →
      (m < 20 → s.hw.flag (Reg.SQ_STATUS (m / 4)) Fld.SQ_STATUS_READY = true) →
      exec (.macReady m) s = .next (s.on (s.hw.setReady (Reg.MAC_STATUS m) Fld.MAC_STATUS_READY (32 + m)))) ∧
  (∀ (s : State), s.hw.pg 48 = true →
      exec .sbbReady s = .next (s.on (s.hw.setReady Reg.SBB_STATUS Fld.SBB_STATUS_READY 7))) ∧
  (∀ (s : State), s.hw.pg 5 = true →
      exec .evfReady s = .next (s.on (s.hw.setFld Reg.EVF_STATUS Fld.EVF_STATUS_READY 1)))

/-- R454 and R146, shown on the scheduling unit: READY, its mirror bit 4, the record of the change. -/
def Obligations.ReadyBitIsMirroredAndReported : Prop :=
  (∀ (s : State), s.hw.pg 25 = true → s.hw.flag Reg.TSS_STATUS Fld.TSS_STATUS_READY = false →
      s.hw.flag Reg.EVF_STATUS Fld.EVF_STATUS_READY = false → ¬ s.hw.loses 1 0x0D01 →
      s.hw.flag (Reg.EVQ_CTRL 2) Fld.EVQ_CTRL_EN = false →
      ∃ t, exec .tssReady s = .next t ∧ t.hw.fld Reg.TSS_STATUS Fld.TSS_STATUS_READY = 1 ∧ (t.hw.rn Reg.PWR_READY).testBit 4 = true ∧
        t.hw.evq.staging = s.hw.evq.staging ++
          [⟨1, 0x0D01, s.hw.tbNs (s.hw.fld (Reg.EVQ_CTRL 1) Fld.EVQ_CTRL_TB) % 2 ^ 32, 0, t.hw.rn Reg.PWR_READY,
            t.hw.rn Reg.PWR_READY_PORTS, 0, 0, s.hw.clk⟩] ∧
        (∀ r, r ≠ Reg.TSS_STATUS → r ≠ Reg.PWR_READY → t.hw.rn r = s.hw.rn r) ∧
        t = s.on { s.hw with regs := t.hw.regs, evq := { s.hw.evq with staging := t.hw.evq.staging } }) ∧
  (∀ (s : State), s.hw.flag Reg.TSS_STATUS Fld.TSS_STATUS_READY = true → exec .tssReady s = .next s)

/-- R51, R62, R63, R85, R185: FRAME_FIRST_CELL, FRAME_LOOKUP_START, FRAME_LOOKUP_DONE, FRAME_TAIL. -/
def Obligations.FramesEnterAndAreLookedUp : Prop :=
  (∀ (s : State) (port age owner ecc : Nat) (head : List Byte), port < 32 → kvGet s.hw.swc.rx port = none → head ≠ [] →
      (port < 24 → s.hw.linkUp port = true) → (24 ≤ port → port = 26 ∨ (port = 30 ∧ s.hw.sys.testgen ≠ [])) →
      s.hw.macsecOn port = false → ((parseHdr head).etype ≠ 0x8808 ∨ 24 ≤ port) →
      let k := s.hw.classify port head (if port = 26 then some owner else none) none none
      s.hw.mustWait port k (cellsFor head.length) = false → (s.hw.admitTest port k).1 = true →
      ∃ t, exec (.frameFirstCell port head age owner ecc) s = .next t ∧
        kvGet t.hw.swc.rx port = some ⟨head, some s.hw.swc.nextId, none, s.hw.rxStamps port age, none, false⟩) ∧
  (∀ (s : State) (port age owner ecc : Nat) (head : List Byte), port < 32 → kvGet s.hw.swc.rx port = none → head ≠ [] →
      (port < 24 → s.hw.linkUp port = true) → (24 ≤ port → port = 26 ∨ (port = 30 ∧ s.hw.sys.testgen ≠ [])) →
      s.hw.macsecOn port = false → ((parseHdr head).etype ≠ 0x8808 ∨ 24 ≤ port) →
      let k := s.hw.classify port head (if port = 26 then some owner else none) none none
      s.hw.mustWait port k (cellsFor head.length) = true →
      exec (.frameFirstCell port head age owner ecc) s = .next (s.on (s.hw.stall port))) ∧
  (∀ (s : State) (port age owner ecc : Nat) (head : List Byte), port < 32 → kvGet s.hw.swc.rx port = none → head ≠ [] →
      (port < 24 → s.hw.linkUp port = true) → (24 ≤ port → port = 26 ∨ (port = 30 ∧ s.hw.sys.testgen ≠ [])) →
      s.hw.macsecOn port = false → ((parseHdr head).etype ≠ 0x8808 ∨ 24 ≤ port) →
      let k := s.hw.classify port head (if port = 26 then some owner else none) none none
      s.hw.mustWait port k (cellsFor head.length) = false → (s.hw.admitTest port k).1 = false →
      exec (.frameFirstCell port head age owner ecc) s = .next (s.on ((s.hw.admitTest port k).2.setRx port
        ⟨head, none, none, s.hw.rxStamps port age, none, s.hw.flag Reg.SWC_STATUS Fld.SWC_STATUS_READY⟩))) ∧
  (∀ (s : State) (port : Nat) (f : Frame), s.hw.unlooked port false = some f → 128 ≤ f.len ∨ f.tail = true →
      exec (.frameLookupStart port) s = .next (s.on (s.hw.onFrame f.id (fun x => { x with asked := true })))) ∧
  (∀ (s : State) (port : Nat) (f : Frame) (ecc : List (Nat × Nat × Bool)), s.hw.unlooked port true = some f →
      exec (.frameLookupDone port ecc) s = .next (s.on (s.hw.lookupDone f ecc))) ∧
  (∀ (s : State) (port : Nat) (f : Frame), s.hw.unlooked port true = some f → f.tail = false → f.bad = none → f.kind = 0 →
      s.hw.frame? f.id = some f →
      let r := s.hw.tableLookup f.ingress (s.hw.readFrame f)
      r.1.drop = false → r.1.stream = none → r.1.entry = none → r.1.dests ≠ 0 → r.1.cls ≠ 7 → r.2 = s.hw →
      exec (.frameLookupDone port []) s = .next (s.on (s.hw.onFrame f.id (fun x => { x with looked := true, cls := r.1.cls, copies := (bitsOf 32 r.1.dests).map (fun e => (⟨e, .waiting⟩ : Copy)), stream := none, vie := none, untag := r.1.untag, edit := r.1.edit, refund := [], sdu := none, acl := r.1.acl, dest := if x.dest.isSome then x.dest else r.1.dest, tie := r.1.tie, dei := false, dests := r.1.dests, counted := x.counted || false })))) ∧
  (∀ (s : State) (port id ecc : Nat) (rest : List Byte) (symErr : Option Nat) (r : Rx), kvGet s.hw.swc.rx port = some r →
      r.frame = some id → r.sec = none → 64 ≤ (r.raw ++ rest).length →
      let c := rxClass (decide (port < 24) && (s.hw.clrRx port).macsecOn port) (r.raw ++ rest) symErr.isSome
      exec (.frameTail port rest symErr ecc) s = .next (s.on
        ((if port < 24 then (s.hw.clrRx port).countRx port c (r.raw ++ rest) else s.hw.clrRx port).endTail id (r.raw ++ rest)
          (symErr.map (plainPos none (r.raw ++ rest))) (causeOfClass c) ecc))) ∧
  (∀ (s : State) (port id ecc : Nat) (rest : List Byte) (symErr : Option Nat) (r : Rx) (f : Frame), port < 24 → kvGet s.hw.swc.rx port = some r →
      r.frame = some id → s.hw.frame? id = some f → f.counted = false → (r.raw ++ rest).length < 64 →
      exec (.frameTail port rest symErr ecc) s = .next (s.on
        (((((s.hw.clrRx port).addRxOctets port (r.raw ++ rest).length).inc (Reg.MAC_RX_RUNT port)).inc Reg.SWC_RUNT).onFrame f.id
          (fun x => { x with tail := true }) |>.dropFrame f.id)))

/-- R41, R56, R59, R60, R69, R120: ARBITER_ITERATION, EGRESS_TX_START, EGRESS_FRAME_END, PAUSE_REPEAT, INTERNAL_SOURCE_START, SOJOURN_AGEOUT. -/
def Obligations.FramesAreMatchedAndSent : Prop :=
  (∀ (s : State) (o : Offer), s.hw.flag Reg.SWC_STATUS Fld.SWC_STATUS_READY = true →
      let h := (List.range 32).foldl Hw.countShaped ((List.range 24).foldl Hw.withdraw s.hw)
      h.offers = [o] → o.frame.ingress < 32 →
      h.slotsUsed o.frame.ingress < 2 → exec .arbiterIteration s = .next (s.on (h.grant o))) ∧
  (∀ (s : State) (e : Nat) (f : Frame), e < 32 → s.hw.plca e = false → s.hw.grantedAt e = some f → s.hw.keyless f = false →
      kvGetD s.hw.swc.pauseQ e [] = [] → s.hw.mayStart e f = true → (e < 24 → s.hw.protects e (s.hw.readFrame f) = false) →
      ∃ t, exec (.egressTxStart e) s = .next t ∧
        ∃ x, kvGetD t.hw.swc.tx e [] = ⟨f.id, s.hw.txStamps e, x, none, s.hw.clk, 0, false⟩ :: kvGetD (s.hw.suspend e).swc.tx e []) ∧
  (∀ (s : State) (e ecc : Nat) (x : TxCur) (rest : List TxCur) (f0 f : Frame), e < 24 → kvGetD s.hw.swc.tx e [] = x :: rest →
      s.hw.frame? x.frame = some f0 → f0.tail = true → (x.susp && s.hw.preemptHeld e) = false →
      let h := (s.hw.basinEcc f0.id ecc).discardBad f0.id
      h.frame? f0.id = some f →
      let a := (((h.macEnd e f x).popTx e).release f.id e).reap f.id
      exec (.egressFrameEnd e ecc) s = .next (s.on (if a.txBusy e then a else a.sendPauses e))) ∧
  (∀ (s : State) (pc : Nat), (kvGet s.hw.swc.holdAt pc).isSome = true → s.hw.xon pc ≤ s.hw.pcUsed pc ∨ s.hw.globalXoff = true →
      exec (.pauseRepeat pc) s = .next (s.on (s.hw.queuePause (pc / 8) (pc % 8) 0xFFFF))) ∧
  (∀ (s : State) (p : Nat) (f : SrcFrame) (rest : List SrcFrame), 24 ≤ p → p ≤ 30 → kvGetD s.hw.swc.srcWait p [] = f :: rest →
      s.hw.hasCredit p f = true →
      exec (.internalSourceStart p) s = .next (s.on ((s.hw.onSwc (fun w => { w with
        srcWait := if rest.isEmpty then kvDel w.srcWait p else kvPut w.srcWait p rest })).enterFrame p f))) ∧
  (∀ (s : State) (p : Nat) (f : SrcFrame) (rest : List SrcFrame), 24 ≤ p → p ≤ 30 → kvGetD s.hw.swc.srcWait p [] = f :: rest →
      s.hw.hasCredit p f = false →
      exec (.internalSourceStart p) s = .next (s.on (s.hw.stall p))) ∧
  (∀ (s : State) (id : Nat) (f : Frame), s.hw.frame? id = some f → f.dead = false → f.counted = false →
      s.hw.fld Reg.SWC_MAX_SOJOURN Fld.SWC_MAX_SOJOURN_LIMIT_MS * 500000 < s.hw.waited f.arrival →
      f.copies.any (fun c => c.st == CopyState.sending) = false →
      let h := ((s.hw.inc Reg.SWC_AGEOUT).post 1 0x0303 (f.ingress * 256 + (f.copies.map (·.egress)).headD 31 * 8 + f.cls) (s.hw.waited f.arrival / 500000)).onFrame f.id (fun x => { x with counted := true })
      exec (.sojournAgeout id) s = .next (s.on ((f.copies.foldl (fun a c => a.txStamp f c.egress none) h).dropFrame f.id)))

/-- R54, R72, R73: AUDIT_PASS_START, AUDIT_PASS_END, MODERATED_RECORD_FLUSH. -/
def Obligations.BasinAuditReclaimsLostCells : Prop :=
  (∀ (s : State), s.hw.flag Reg.SWC_CFG Fld.SWC_CFG_AUDIT_EN = true → s.hw.flag Reg.SWC_STATUS Fld.SWC_STATUS_AUDIT_BUSY = false →
      s.hw.flag Reg.SWC_STATUS Fld.SWC_STATUS_READY = true →
      exec .auditPassStart s = .next (s.on ((s.hw.setFld Reg.SWC_STATUS Fld.SWC_STATUS_AUDIT_BUSY 1).onSwc (fun w => { w with touched := [] })))) ∧
  (∀ (s : State), s.hw.flag Reg.SWC_STATUS Fld.SWC_STATUS_AUDIT_BUSY = true → s.hw.swc.leaked = [] →
      ∃ t, exec (.auditPassEnd [] ([], [])) s = .next t ∧ t.hw.fld Reg.SWC_STATUS Fld.SWC_STATUS_AUDIT_BUSY = 0 ∧
        t.hw.fld Reg.SWC_AUDIT_STATUS Fld.SWC_AUDIT_STATUS_SUSPECT = 0 ∧
        t.hw.fld Reg.SWC_AUDIT_STATUS Fld.SWC_AUDIT_STATUS_PASSES =
          (s.hw.fld Reg.SWC_AUDIT_STATUS Fld.SWC_AUDIT_STATUS_PASSES + 1) % 2 ^ 16 ∧ t.hw.swc.suspect = [] ∧
        (∀ r, r ≠ Reg.SWC_STATUS → r ≠ Reg.SWC_AUDIT_STATUS → t.hw.rn r = s.hw.rn r) ∧
        t = s.on { s.hw with regs := t.hw.regs, swc := { s.hw.swc with suspect := [] } }) ∧
  (∀ (s : State) (c : Nat), s.hw.flag Reg.SWC_STATUS Fld.SWC_STATUS_AUDIT_BUSY = true → s.hw.swc.leaked = [c] →
      s.hw.swc.touched.contains c = false → s.hw.swc.suspect = [c] → ¬ s.hw.loses 1 0x0304 →
      ∃ t, exec (.auditPassEnd [] ([], [])) s = .next t ∧
        t.hw.rn Reg.SWC_LEAK_RECLAIM = min (s.hw.rn Reg.SWC_LEAK_RECLAIM + 1) 0xFFFFFFFF ∧ t.hw.swc.leaked = [] ∧
        t.hw.evq.staging = s.hw.evq.staging ++
          [⟨1, 0x0304, s.hw.tbNs (s.hw.fld (Reg.EVQ_CTRL 1) Fld.EVQ_CTRL_TB) % 2 ^ 32, c, 0, 0, 0, 0, s.hw.clk⟩]) ∧
  (∀ (s : State) (kind w3 : Nat) (m : Moderation), s.hw.evq.modr.find? (fun m => m.kind == kind && m.w3 == w3) = some m →
      let h : Hw := { s.hw with evq := { s.hw.evq with modr := s.hw.evq.modr.filter (fun x => !(x.kind == kind && x.w3 == w3)) } }
      exec (.moderatedRecordFlush kind w3) s = .next (s.on
        (if m.count = 0 then h else h.post 1 kind w3 (modWords m.aux m.count).1 (modWords m.aux m.count).2)))

/-- R89, R95 to R99, R101, R102, R105, R27: LEARN_ACCEPT, REFRESH_ACCEPT, AGE_TICK, LEARN_MESSAGE_RECEIVE, MOVE_WINDOW_CLOSE, PORT_FLUSH_ON_DOWN. -/
def Obligations.LearningArbiterServesRequests : Prop :=
  (∀ (s : State) (r : LearnReq) (rest : List LearnReq), takeReq true s.hw.fwd.learnQ = (some r, rest) →
      let h := s.hw.onFwd (fun f => { f with learnQ := rest })
      let q := (if 24 ≤ r.port then { r with time := s.hw.tbNs (s.hw.fld Reg.FWD_LEARN_CFG Fld.FWD_LEARN_CFG_TB) } else r)
      exec .learnAccept s = .next (s.on (h.acceptLearn q))) ∧
  (∀ (s : State), (takeReq true s.hw.fwd.learnQ).1 = none → exec .learnAccept s = .next s) ∧
  (∀ (s : State) (r : LearnReq) (rest : List LearnReq), takeReq true s.hw.fwd.learnQ = (some r, rest) →
      let h := s.hw.onFwd (fun f => { f with learnQ := rest })
      let q := (if 24 ≤ r.port then { r with time := s.hw.tbNs (s.hw.fld Reg.FWD_LEARN_CFG Fld.FWD_LEARN_CFG_TB) } else r)
      h.emAt 0 r.key = none →
      (h.fld (Reg.FWD_PORT_CFG r.port) Fld.FWD_PORT_CFG_LEARN_LIMIT = 0 ∨ h.portLearned r.port < h.fld (Reg.FWD_PORT_CFG r.port) Fld.FWD_PORT_CFG_LEARN_LIMIT) →
      let i := h.insertEntry (viaOf q) ⟨false, 0, r.key, h.ageNow, r.port, none, 0, none, none, none, none⟩
      let w := macVidWords r.key
      exec .learnAccept s = .next (s.on (
        if i.1 then ((i.2.inc Reg.FWD_LEARN_APPLIED).recordLearn r.key (recentOf q false false)).notePlaced q
        else (i.2.inc Reg.FWD_INSERT_FAIL).post 1 0x0402 r.port w.1 w.2))) ∧
  (∀ (s : State) (r : LearnReq) (rest : List LearnReq), takeReq true s.hw.fwd.learnQ = (some r, rest) →
      let h := s.hw.onFwd (fun f => { f with learnQ := rest })
      h.emAt 0 r.key = none → h.fld (Reg.FWD_PORT_CFG r.port) Fld.FWD_PORT_CFG_LEARN_LIMIT ≠ 0 →
      h.fld (Reg.FWD_PORT_CFG r.port) Fld.FWD_PORT_CFG_LEARN_LIMIT ≤ h.portLearned r.port →
      exec .learnAccept s = .next (s.on (h.inc Reg.FWD_LEARN_LIMITED))) ∧
  (∀ (s : State) (r : LearnReq) (rest : List LearnReq) (pos : Nat) (e : EmEntry), takeReq true s.hw.fwd.learnQ = (some r, rest) →
      s.hw.emAt 0 r.key = some (pos, e) → e.static = true →
      let h := s.hw.onFwd (fun f => { f with learnQ := rest })
      exec .learnAccept s = .next (s.on (if e.group = none ∧ e.port = r.port then h else h.inc Reg.FWD_STATIC_CONFLICT))) ∧
  (∀ (s : State) (r : LearnReq) (rest : List LearnReq) (pos : Nat) (e : EmEntry), takeReq true s.hw.fwd.learnQ = (some r, rest) →
      s.hw.emAt 0 r.key = some (pos, e) → e.static = false → e.group = none → e.port = r.port →
      let h := s.hw.onFwd (fun f => { f with learnQ := rest })
      let q := (if 24 ≤ r.port then { r with time := s.hw.tbNs (s.hw.fld Reg.FWD_LEARN_CFG Fld.FWD_LEARN_CFG_TB) } else r)
      exec .learnAccept s = .next (s.on (h.refreshEntry pos e q))) ∧
  (∀ (s : State) (r : LearnReq) (rest : List LearnReq) (pos : Nat) (e : EmEntry), takeReq true s.hw.fwd.learnQ = (some r, rest) →
      s.hw.emAt 0 r.key = some (pos, e) → e.static = false → ¬ (e.group = none ∧ e.port = r.port) →
      (r.remote ≠ none ∨ s.hw.isCascade r.port = false) → kvGet s.hw.fwd.recent r.key = none →
      let h := s.hw.onFwd (fun f => { f with learnQ := rest })
      let q := (if 24 ≤ r.port then { r with time := s.hw.tbNs (s.hw.fld Reg.FWD_LEARN_CFG Fld.FWD_LEARN_CFG_TB) } else r)
      exec .learnAccept s = .next (s.on (((h.moveEntry pos e q).recordLearn r.key (recentOf q false false)).notePlaced q))) ∧
  (∀ (s : State) (r : LearnReq) (rest : List LearnReq) (pos : Nat) (e : EmEntry), (takeReq true s.hw.fwd.learnQ).1 = none →
      takeReq false s.hw.fwd.learnQ = (some r, rest) → s.hw.emAt 0 r.key = some (pos, e) →
      e.static = false → e.group = none → e.port = r.port →
      let h := s.hw.onFwd (fun f => { f with learnQ := rest })
      let w := h.emWrite (viaOf r) [(pos, some { e with age := s.hw.ageNow })]
      exec .refreshAccept s = .next (s.on (
        if e.age = s.hw.ageNow then h
        else if r.remote.isSome || w.isCascade r.port || kvGet w.fwd.sentAge r.key == some w.ageNow then w
        else (w.tellCascade 1 r.movable r.key r.port r.time).onFwd (fun f => { f with sentAge := kvPut f.sentAge r.key w.ageNow })))) ∧
  (∀ (s : State) (r : LearnReq) (rest : List LearnReq), (takeReq true s.hw.fwd.learnQ).1 = none →
      takeReq false s.hw.fwd.learnQ = (some r, rest) →
      (∀ x ∈ s.hw.emAt 0 r.key, x.2.static = true ∨ x.2.group ≠ none ∨ x.2.port ≠ r.port) →
      exec .refreshAccept s = .next (s.on (s.hw.onFwd (fun f => { f with learnQ := rest })))) ∧
  (∀ (s : State), ((takeReq true s.hw.fwd.learnQ).1 ≠ none ∨ (takeReq false s.hw.fwd.learnQ).1 = none) → exec .refreshAccept s = .next s) ∧
  (∀ (s : State), let h := s.hw.setFld Reg.FWD_AGE_NOW Fld.FWD_AGE_NOW_NOW (s.hw.ageNow + 1)
      let r := h.refreshDue.emRemoveAll true (fun e => !e.static && e.type == 0 && decide (h.fld Reg.FWD_AGE_CFG Fld.FWD_AGE_CFG_LIMIT ≤ h.ageOf e))
      exec .ageTick s = .next (s.on (if s.hw.fwdReady then r.2.add Reg.FWD_AGED_OUT r.1 else h))) ∧
  (∀ (s : State) (b : Bool), exec (.learnMessageReceive b) s = .next (s.on (s.hw.onFwd (fun f =>
      if b then { f with lagB := f.lagB.tail } else { f with lagA := f.lagA.tail })))) ∧
  (∀ (s : State) (key : Nat) (x : Recent), kvGet s.hw.fwd.recent key = some x →
      let h := s.hw.onFwd (fun f => { f with recent := kvDel f.recent key })
      exec (.moveWindowClose key) s = .next (s.on (match s.hw.emAt 0 key with
        | none => h
        | some (_, e) => if x.said && e.group.isNone && !s.hw.isCascade e.port then
            (h.tellCascade 3 x.movable key e.port x.time).onFwd (fun f => { f with confirm := kvPut f.confirm key (x.time, s.hw.devIndex * 32 + e.port) })
          else h))) ∧
  (∀ (s : State) (key : Nat), kvGet s.hw.fwd.recent key = none → exec (.moveWindowClose key) s = .next s) ∧
  (∀ (s : State) (p : Nat), exec (.portFlushOnDown p) s = .next (s.on (
      if p < 24 ∧ s.hw.flag (Reg.FWD_PORT_CFG p) Fld.FWD_PORT_CFG_FLUSH_ON_DOWN = true ∧ s.hw.linkUp p = false ∧ s.hw.isCascade p = false
      then (s.hw.emRemoveAll true (learnedOn p)).2 else s.hw)))

/-- R34, R106, R108, R109, R462: CASCADE_LEARN_SEND, CASCADE_LEARN_RECEIVE, CASCADE_WITHDRAW, CASCADE_CONTROL_RECEIVE. -/
def Obligations.CascadeSharesLearning : Prop :=
  (∀ (s : State), s.hw.fwd.batch ≠ [] →
      let recs := (s.hw.fwd.batch.take 60).map (·.2)
      let h := s.hw.onFwd (fun f => { f with batch := f.batch.drop 60, txSeq := (f.txSeq + 1) % 2 ^ 32 })
      let body := toBe 1 1 ++ toBe 1 recs.length ++ toBe 1 s.hw.devIndex ++ toBe 1 0 ++ toBe 4 s.hw.fwd.txSeq ++ recs.flatMap lmBytes
      let frameTo (a : Hw) (k : Nat) := padFcs (toBe 6 (a.memberMac k) ++ toBe 6 (a.memberMac a.devIndex) ++ toBe 2 0x88B5 ++ body)
      exec .cascadeLearnSend s = .next (s.on (s.hw.cascadeMembers.foldl (fun a k =>
        a.drawn.sendInternal 26 ⟨1, frameTo a k, none, none, 100 + a.pathTo k, none, none, none, none, a.clk⟩) h))) ∧
  (∀ (s : State), s.hw.fwd.batch = [] → exec .cascadeLearnSend s = .next s) ∧
  (∀ (s : State) (f : Frame), s.hw.copyAt 26 (fun f => (parseHdr (s.hw.readFrame f)).etype == 0x88B5) = some f →
      exec .cascadeLearnReceive s = .next (s.on ((s.hw.takeAt 26 f).learnFrame f.ingress (s.hw.readFrame f)))) ∧
  (∀ (s : State) (p : Nat), let r := s.hw.emRemoveAll false (learnedOn p)
      exec (.cascadeWithdraw p) s = .next (s.on (if s.hw.isCascade p = true ∧ s.hw.linkUp p = false then Hw.rebound s.hw (r.2.onFwd (fun f => { f with
        origin := f.origin.filter (fun o => (s.hw.emAt 0 o.1).all (fun e => e.2.port != p)) })) else s.hw))) ∧
  (∀ (s : State) (p k : Nat) (edges : List (Nat × Nat)), k < 4 → k ≠ s.hw.devIndex → s.hw.isCascade p = true → s.hw.linkUp p = true →
      s.hw.inCascade = true → s.hw.fwRuns = true →
      exec (.cascadeControlReceive p k 2 edges) s = .next (s.on (({ s.hw with sys := { s.hw.sys with
        authed := s.hw.sys.authed ||| 2 ^ k } } : Hw).seeMembers p true))) ∧
  (∀ (s : State) (p k : Nat) (edges : List (Nat × Nat)), k < 4 → k ≠ s.hw.devIndex → s.hw.isCascade p = true → s.hw.linkUp p = true →
      s.hw.inCascade = true → s.hw.fwRuns = true → s.hw.sys.authed.testBit k = true →
      exec (.cascadeControlReceive p k 1 edges) s = .next (s.on { s.hw with sys := { s.hw.sys with edges := kvPut s.hw.sys.edges k (edges.filter (fun e => decide (e.1 < 2048) && decide (e.2 < 2048))) } })) ∧
  (∀ (s : State) (p k : Nat) (edges : List (Nat × Nat)), k < 4 → k ≠ s.hw.devIndex → s.hw.isCascade p = true → s.hw.linkUp p = true →
      s.hw.inCascade = true → s.hw.fwRuns = true → s.hw.sys.authed.testBit k = true →
      exec (.cascadeControlReceive p k 3 edges) s = .next (s.on { s.hw with sys := { s.hw.sys with edges := kvDel s.hw.sys.edges k } })) ∧
  (∀ (s : State) (p k : Nat) (edges : List (Nat × Nat)), k < 4 → k ≠ s.hw.devIndex → s.hw.isCascade p = true → s.hw.linkUp p = true →
      s.hw.inCascade = true → s.hw.fwRuns = true → s.hw.sys.authed.testBit k = true →
      exec (.cascadeControlReceive p k 0 edges) s = .next (s.on (s.hw.resendLearn)))

/-- R114 to R116: TABLE_UE_REPAIR, SCRUB_PASS, SCRUB_RECHECK, SCRUB_DEFER, SHADOW_REBUILD. -/
def Obligations.ScrubberRepairsTables : Prop :=
  (∀ (s : State) (x : Nat × Nat × Bool), s.hw.fwd.badUe.getLast? = some x → s.hw.logLost = false →
      s.hw.fwd.changes.any (fun c => c.table == x.1 && c.index == x.2.1) = false →
      exec (.tableUeRepair false) s = .next (s.on ((s.hw.writeTable x.1 x.2.1 (s.hw.fwd.shadow.val x.1 x.2.1)).inc (Reg.FWD_SCRUB_REPAIR x.1)))) ∧
  (∀ (s : State) (x : Nat × Nat × Bool), s.hw.fwd.badUe.getLast? = some x → s.hw.logLost = false →
      s.hw.fwd.changes.any (fun c => c.table == x.1 && c.index == x.2.1) = false →
      exec (.tableUeRepair true) s = .next (s.on ((((s.hw.inc Reg.FWD_SHADOW_AUTH).inc Reg.SEC_LPDDR_AUTH_FAIL).post 1 0x0B03 s.hw.draw).drawn))) ∧
  (∀ (s : State) (a : Bool), (s.hw.fwd.badUe = [] ∨ s.hw.logLost = true) → exec (.tableUeRepair a) s = .next s) ∧
  (∀ (s : State) (wrong : List (Nat × Nat × Bool)) (auth : List Nat), s.hw.flag Reg.FWD_CFG Fld.FWD_CFG_SCRUB_EN = true → s.hw.fwdReady = true → s.hw.fwd.recheck = [] → s.hw.repairFirst = false →
      let a := auth.foldl (fun a _ => (((a.inc Reg.FWD_SHADOW_AUTH).inc Reg.SEC_LPDDR_AUTH_FAIL).post 1 0x0B03 a.draw).drawn) s.hw
      let h := a.onFwd (fun f => { f with struck := f.struck ++ wrong.filter (fun x => !f.struck.contains x) })
      exec (.scrubPass wrong auth) s = .next (s.on ((h.onFwd (fun f => { f with
        recheck := h.mismatches.map (fun m => ⟨m.1, m.2.1, m.2.2, h.rn Reg.FWD_CHANGE_SEQ⟩) })).scrubEnd))) ∧
  (∀ (s : State), s.hw.flag Reg.FWD_CFG Fld.FWD_CFG_SCRUB_EN = true → s.hw.fwdReady = true → s.hw.fwd.recheck = [] → s.hw.repairFirst = false → s.hw.mismatches = [] →
      ∃ t, exec (.scrubPass [] []) s = .next t ∧ t.hw.rn Reg.FWD_SCRUB_PASSES = (s.hw.rn Reg.FWD_SCRUB_PASSES + 1) % 2 ^ 32 ∧
        t.hw.fld Reg.FWD_STATUS Fld.FWD_STATUS_SCRUB_BUSY = 0 ∧
        (∀ r, r ≠ Reg.FWD_STATUS → r ≠ Reg.FWD_SCRUB_PASSES → t.hw.rn r = s.hw.rn r) ∧ t = s.on { s.hw with regs := t.hw.regs }) ∧
  (∀ (s : State) (wrong : List (Nat × Nat × Bool)) (auth : List Nat), (s.hw.flag Reg.FWD_CFG Fld.FWD_CFG_SCRUB_EN = false ∨ s.hw.fwdReady = false) →
      exec (.scrubPass wrong auth) s = .next s) ∧
  (∀ (s : State) (t i : Nat) (b : Bool) (x : Recheck), s.hw.fwd.recheck.find? (fun x => x.table == t && x.index == i && x.pipeB == b) = some x →
      s.hw.shadowReached x.seq = true → s.hw.repairFirst = false →
      let h := (s.hw.dropRecheck t i b).onFwd (fun f => { f with struck := f.struck.filter (fun y => y != (t, i, b)) })
      h.differs b t i = false →
      exec (.scrubRecheck t i b false false) s = .next (s.on h.scrubEnd)) ∧
  (∀ (s : State) (t i : Nat) (b : Bool) (x : Recheck), s.hw.fwd.recheck.find? (fun x => x.table == t && x.index == i && x.pipeB == b) = some x →
      s.hw.shadowReached x.seq = true → s.hw.repairFirst = false →
      let h := s.hw.dropRecheck t i b
      h.differs b t i = true → let p := h.post 1 0x0406 t i b.toNat
      exec (.scrubRecheck t i b true false) s = .next (s.on (
        if p.logLost then p else (p.writeTable t i (p.fwd.shadow.val t i)).inc (Reg.FWD_SCRUB_REPAIR t)).scrubEnd)) ∧
  (∀ (s : State) (t i : Nat) (b : Bool) (x : Recheck), s.hw.fwd.recheck.find? (fun x => x.table == t && x.index == i && x.pipeB == b) = some x →
      s.hw.shadowReached x.seq = true → s.hw.repairFirst = false →
      exec (.scrubRecheck t i b true true) s = .next (s.on (s.hw.dropRecheck t i b).shadowAuthFail.scrubEnd)) ∧
  (∀ (s : State) (t i : Nat) (b : Bool), exec (.scrubDefer t i b) s = .next (s.on (
      if s.hw.fwd.recheck.any (fun x => x.table == t && x.index == i && x.pipeB == b) then ((s.hw.dropRecheck t i b).inc Reg.FWD_SCRUB_DEFER).scrubEnd else s.hw))) ∧
  (∀ (s : State), s.hw.logLost = true → s.hw.fwRuns = true →
      ∃ t, exec .shadowRebuild s = .next t ∧ t.hw.rn Reg.FWD_SHADOW_SEQ = s.hw.rn Reg.FWD_CHANGE_SEQ ∧
        t.hw.fld Reg.FWD_STATUS Fld.FWD_STATUS_LOG_LOST = 0 ∧
        (∀ r, r ≠ Reg.FWD_SHADOW_SEQ → r ≠ Reg.FWD_STATUS → t.hw.rn r = s.hw.rn r) ∧
        t = s.on { s.hw with regs := t.hw.regs, fwd := { s.hw.fwd with shadow := s.hw.fwd.copy, changes := [] } })

/-- R510, R185: the classes a received 802.1Qbb pause stops; the end of a pause in 2 ns cycles, rounded up to a cycle. -/
def Obligations.ReceivedPausesStopClasses : Prop :=
  (∀ (s : State) (mac en : Nat) (quanta : List Nat), mac < 24 → s.hw.linkUp mac = true →
      (∃ c, c < 8 ∧ en.testBit c = true ∧ (s.hw.fld (Reg.TSS_PORT_CFG mac) Fld.TSS_PORT_CFG_PFC_HONOUR).testBit c = true) →
      ∃ t, exec (.pfcFrameReceive mac en quanta) s = .next t ∧
        (∀ c, c < 8 → en.testBit c = true → (s.hw.fld (Reg.TSS_PORT_CFG mac) Fld.TSS_PORT_CFG_PFC_HONOUR).testBit c = true →
          kvGet t.hw.tss.pauseRx (mac * 8 + c) =
            if quanta.getD c 0 % 65536 = 0 then none else some (s.hw.pauseEnd mac (quanta.getD c 0 % 65536))) ∧
        (∀ k, ¬ (∃ c, c < 8 ∧ k = mac * 8 + c ∧ en.testBit c = true ∧
            (s.hw.fld (Reg.TSS_PORT_CFG mac) Fld.TSS_PORT_CFG_PFC_HONOUR).testBit c = true) →
          kvGet t.hw.tss.pauseRx k = kvGet s.hw.tss.pauseRx k) ∧
        t = s.on ((((s.hw.addRxOctets mac 64).inc (Reg.MAC_RX_PAUSE mac)).inc (Reg.TSS_PFC_RX mac)).onTss (fun x => { x with
          pauseRx := t.hw.tss.pauseRx }))) ∧
  (∀ (s : State) (mac en : Nat) (quanta : List Nat), mac < 24 → s.hw.linkUp mac = true →
      bitsOf 8 (en &&& s.hw.fld (Reg.TSS_PORT_CFG mac) Fld.TSS_PORT_CFG_PFC_HONOUR) = [] →
      exec (.pfcFrameReceive mac en quanta) s = .next (s.on ((s.hw.addRxOctets mac 64).inc (Reg.MAC_RX_PAUSE mac)))) ∧
  (∀ (s : State) (mac en : Nat) (quanta : List Nat), s.hw.linkUp mac = false → exec (.pfcFrameReceive mac en quanta) s = .next s) ∧
  (∀ (s : State) (mac cls : Nat), kvGetD s.hw.tss.pauseRx (mac * 8 + cls) 0 ≤ s.hw.clk →
      ∃ t, exec (.pfcPauseExpire mac cls) s = .next t ∧ kvGet t.hw.tss.pauseRx (mac * 8 + cls) = none ∧
      (∀ k, k ≠ mac * 8 + cls → kvGet t.hw.tss.pauseRx k = kvGet s.hw.tss.pauseRx k) ∧
      t = s.on (s.hw.onTss (fun x => { x with pauseRx := t.hw.tss.pauseRx }))) ∧
  (∀ (s : State) (mac cls : Nat), s.hw.clk < kvGetD s.hw.tss.pauseRx (mac * 8 + cls) 0 → exec (.pfcPauseExpire mac cls) s = .next s)

/-- R122 to R126, R136, R145, R357: GCL_ENTRY_ADVANCE, GCL_SWITCH, GCL_RESTART, SLUICE_GATE_ADVANCE. -/
def Obligations.GateListsAdvanceSwitchAndRestart : Prop :=
  (∀ (s : State) (mac : Nat) (l : GateList), mac < 24 → s.hw.listOf mac = some l →
      s.hw.flag (Reg.TSS_GCL_CTRL mac) Fld.TSS_GCL_CTRL_EN = true → s.hw.tss.restart.contains mac = false →
      let es := (segments egressDur l.cycle 0 l.entries).map (fun x => x.2.2)
      let i := s.hw.rn (Reg.TSS_GCL_ENTRY_NOW mac) + 1
      exec (.gclEntryAdvance mac) s = .next (s.on (
        if i < es.length then s.hw.applyGclEntry mac i (es.getD i (255 * 2 ^ 24))
        else if s.hw.heldLast mac l (s.hw.pendingList mac) then s.hw
        else s.hw.applyGclEntry mac 0 (es.getD 0 (255 * 2 ^ 24))))) ∧
  (∀ (s : State) (mac : Nat) (l : GateList) (e : Nat), mac < 24 → s.hw.listOf mac = some l →
      s.hw.flag (Reg.TSS_GCL_CTRL mac) Fld.TSS_GCL_CTRL_EN = true → s.hw.tss.restart.contains mac = false →
      s.hw.rn (Reg.TSS_GCL_ENTRY_NOW mac) < 1024 →
      ((segments egressDur l.cycle 0 l.entries).map (fun x => x.2.2))[s.hw.rn (Reg.TSS_GCL_ENTRY_NOW mac) + 1]? = some e →
      ∃ t, exec (.gclEntryAdvance mac) s = .next t ∧ kvGet t.hw.tss.gates mac = some (bits e 31 24) ∧
        (bits e 23 22 = 1 → mac ∈ t.hw.tss.hold) ∧ (bits e 23 22 = 2 → mac ∉ t.hw.tss.hold) ∧
        (bits e 23 22 = 0 → t.hw.tss.hold = s.hw.tss.hold) ∧
        t.hw.rn (Reg.TSS_GCL_ENTRY_NOW mac) = s.hw.rn (Reg.TSS_GCL_ENTRY_NOW mac) + 1 ∧
        (∀ r, r ≠ Reg.TSS_GCL_ENTRY_NOW mac → r ≠ Reg.TSS_GATE_OVERRUN mac → t.hw.rn r = s.hw.rn r) ∧
        t = s.on { s.hw with regs := t.hw.regs, tss := { s.hw.tss with gates := t.hw.tss.gates, hold := t.hw.tss.hold },
                             swc := { s.hw.swc with tx := t.hw.swc.tx } }) ∧
  (∀ (s : State) (mac : Nat), (s.hw.listOf mac = none ∨ s.hw.flag (Reg.TSS_GCL_CTRL mac) Fld.TSS_GCL_CTRL_EN = false ∨
      s.hw.tss.restart.contains mac = true) → exec (.gclEntryAdvance mac) s = .next s) ∧
  (∀ (s : State) (mac : Nat) (l : GateList), mac < 24 → s.hw.pendingList mac = some l → s.hw.switchDue mac l.tb = true →
      s.hw.tss.pendOff.contains mac = false →
      let bank := 1 - s.hw.fld (Reg.TSS_GCL_CTRL mac) Fld.TSS_GCL_CTRL_BANK
      let x := ((s.hw.showGcl mac bank l).onTss (fun t => { t with restart := without t.restart mac })).endSwitch mac
      exec (.gclSwitch mac) s = .next (s.on (Hw.rebound s.hw ((x.applyGclEntry mac 0 (l.entries.getD 0 (255 * 2 ^ 24))).postG 1 mac 0x0501 mac bank)))) ∧
  (∀ (s : State) (mac : Nat) (l : GateList), mac < 24 → s.hw.pendingList mac = some l → s.hw.switchDue mac l.tb = true →
      s.hw.tss.pendOff.contains mac = true →
      ∃ u : Hw, exec (.gclSwitch mac) s = .next (s.on (Hw.rebound s.hw u)) ∧ u.fld (Reg.TSS_GCL_CTRL mac) Fld.TSS_GCL_CTRL_EN = 0 ∧
        u.fld (Reg.TSS_GCL_CTRL mac) Fld.TSS_GCL_CTRL_PENDING = 0 ∧ u.gateEn mac = false ∧ kvGet u.tss.gates mac = none ∧
        mac ∉ u.tss.hold ∧ (∀ r, r ≠ Reg.TSS_GCL_CTRL mac → r ≠ Reg.TSS_PORT_CFG mac → u.rn r = s.hw.rn r) ∧
        u = { s.hw with regs := u.regs, tss := u.tss }) ∧
  (∀ (s : State) (mac : Nat), mac < 24 → (∀ l ∈ s.hw.pendingList mac, s.hw.switchDue mac l.tb = false) → exec (.gclSwitch mac) s = .next s) ∧
  (∀ (s : State) (mac : Nat) (l : GateList), mac < 24 → s.hw.tss.restart.contains mac = true → s.hw.listOf mac = some l →
      exec (.gclRestart mac) s = .next (s.on ((((s.hw.onTss (fun t => { t with restart := without t.restart mac })).applyGclEntry mac 0
        (l.entries.getD 0 (255 * 2 ^ 24))).inc (Reg.TSS_GCL_RESTART mac)).postG 1 mac 0x0502 mac))) ∧
  (∀ (s : State) (g : Nat) (l : GateList), s.hw.tss.restart.contains (256 + g) = true → s.hw.sluiceList g = some l →
      exec (.gclRestart (256 + g)) s = .next (s.on (((s.hw.onTss (fun t => { t with restart := without t.restart (256 + g) })).applySluiceEntry g 0
        (l.entries.getD 0 0)).postG 18 g 0x0502 (256 + g)))) ∧
  (∀ (s : State) (g : Nat) (l : GateList), s.hw.sluiceList g = some l →
      s.hw.flag (Reg.TSS_SLUICE_GATE_CTRL g) Fld.TSS_SLUICE_GATE_CTRL_EN = true → s.hw.tss.restart.contains (256 + g) = false →
      let es := (segments sluiceDur l.cycle 0 l.entries).map (fun x => x.2.2)
      let i := if kvGetD s.hw.tss.sNow g 0 + 1 < es.length then kvGetD s.hw.tss.sNow g 0 + 1 else 0
      exec (.sluiceGateAdvance g) s = .next (s.on (s.hw.onTss (fun t => { t with
        ipv := kvPut t.ipv g (es.getD i (2 ^ 31)), sNow := kvPut t.sNow g i })))) ∧
  (∀ (s : State) (g : Nat) (l : GateList), g < 256 → let bank := 1 - kvGetD s.hw.tss.sBank g 0
      kvGet s.hw.tss.lists (100 + g * 2 + bank) = some l →
      exec (.gclSwitch (256 + g)) s = .next (s.on (
        if s.hw.switchDue (256 + g) l.tb = true ∧ s.hw.tss.pendOff.contains (256 + g) = true then s.hw.stopSluice g
        else if s.hw.switchDue (256 + g) l.tb = true ∧ s.hw.tss.sPend.contains g = true then s.hw.showSluice g bank l
        else s.hw))) ∧
  (∀ (s : State) (g : Nat), s.hw.stopSluice g = (((s.hw.setFld (Reg.TSS_SLUICE_GATE_CTRL g) Fld.TSS_SLUICE_GATE_CTRL_EN 0).onTss (fun t => { t with
        pendOff := without t.pendOff (256 + g), ipv := kvDel t.ipv g, restart := without t.restart (256 + g) })).endSwitch (256 + g)))

/-- R127, R129, R137, R139, R140: PREEMPT_VERIFY_DONE, NOTICE_EXPIRE, FRER_RECOVERY_RESET, FRER_LATENT_CHECK, QSAMPLER_SWEEP. -/
def Obligations.PreemptionAndEliminationEvents : Prop :=
  (∀ (s : State) (mac : Nat), exec (.preemptVerifyDone mac) s = .next (s.on (
      if mac < 20 ∧ s.hw.flag (Reg.TSS_PORT_CFG mac) Fld.TSS_PORT_CFG_PREEMPT_EN = true ∧
        s.hw.flag (Reg.TSS_PORT_CFG mac) Fld.TSS_PORT_CFG_VERIFY_EN = true ∧ s.hw.linkUp mac = true ∧
        s.hw.flag (Reg.TSS_PORT_CFG mac) Fld.TSS_PORT_CFG_PREEMPT_ACTIVE = false
      then s.hw.rebound (s.hw.setFld (Reg.TSS_PORT_CFG mac) Fld.TSS_PORT_CFG_PREEMPT_ACTIVE 1) else s.hw))) ∧
  (∀ (s : State) (mac : Nat) (n : Nat × Nat) (rest : List (Nat × Nat)), kvGetD s.hw.tss.notice mac [] = n :: rest → n.2 ≤ s.hw.clk →
      ∃ u : Hw, exec (.noticeExpire mac) s = .next (s.on (u.resume mac)) ∧ kvGetD u.tss.notice mac [] = rest ∧
        u.rn (Reg.TSS_NOTICE_EXPIRED mac) = min (s.hw.rn (Reg.TSS_NOTICE_EXPIRED mac) + 1) 0xFFFFFFFF ∧
        u = { s.hw with regs := (s.hw.inc (Reg.TSS_NOTICE_EXPIRED mac)).regs, tss := { s.hw.tss with notice := u.tss.notice } }) ∧
  (∀ (s : State) (mac : Nat), (∀ n ∈ (kvGetD s.hw.tss.notice mac []).head?, s.hw.clk < n.2) → exec (.noticeExpire mac) s = .next s) ∧
  (∀ (s : State) (p : Nat), s.hw.eliminating p = true →
      ∃ t, exec (.frerRecoveryReset p) s = .next t ∧ (t.hw.frerOf p).takeAny = true ∧ (t.hw.frerOf p).history = 0 ∧
        t.hw.rn (Reg.TSS_FRER_RESETS p) = min (s.hw.rn (Reg.TSS_FRER_RESETS p) + 1) 0xFFFFFFFF ∧
        t = s.on { s.hw with regs := (s.hw.inc (Reg.TSS_FRER_RESETS p)).regs,
                             tss := { s.hw.tss with frer := kvPut s.hw.tss.frer p { s.hw.frerOf p with takeAny := true, history := 0 } } }) ∧
  (∀ (s : State) (p : Nat), s.hw.eliminating p = true →
      let d := max ((s.hw.frerOf p).passed - (s.hw.frerOf p).discarded) ((s.hw.frerOf p).discarded - (s.hw.frerOf p).passed)
      let h := s.hw.setFrer p { s.hw.frerOf p with passed := 0, discarded := 0 }
      exec (.frerLatentCheck p) s = .next (s.on (if 2 * s.hw.fld (Reg.TSS_FRER_CFG p) Fld.TSS_FRER_CFG_HISTORY < d then h.post 1 0x0503 p d else h))) ∧
  (∀ (s : State) (p : Nat), s.hw.eliminating p = false → exec (.frerRecoveryReset p) s = .next s ∧ exec (.frerLatentCheck p) s = .next s) ∧
  (∀ (s : State) (list : Nat) (descs : List (List Nat)), list < 4 → s.hw.flag (Reg.TSS_QS_CFG list) Fld.TSS_QS_CFG_EN = true →
      s.hw.sweepDue list = true →
      let start := s.hw.tbNs (s.hw.fld (Reg.TSS_QS_CFG list) Fld.TSS_QS_CFG_TB) % 2 ^ 32
      let n := kvGetD s.hw.tss.sweep list 0
      let recs := (s.hw.sweepList list).flatMap (s.hw.sampleQueue n start)
      let h := s.hw.onTss (fun t => { t with sweep := kvPut t.sweep list ((n + 1) % 65536), sweepAt := kvPut t.sweepAt list s.hw.clk })
      let ring := s.hw.fld (Reg.TSS_QS_CFG list) Fld.TSS_QS_CFG_DEST - 8208
      exec (.qsamplerSweep list descs) s = .next (s.on (
        match (if (h.ringAt ring).pend.isEmpty then h.rxWrite ring 3 0 ⟨bytesOf recs, 0, 0, 0, 0⟩ descs else none) with
        | some (h', _) => h'
        | none => h.inc (Reg.TSS_QS_SKIP list)))) ∧
  (∀ (s : State) (list : Nat) (descs : List (List Nat)), (s.hw.fld (Reg.TSS_QS_CFG list) Fld.TSS_QS_CFG_EN = 0 ∨ s.hw.sweepDue list = false) →
      exec (.qsamplerSweep list descs) s = .next s)

/-- R47, R65, R150, R152, R153, R160, R168, R175: VIE_PACKET_OBSERVE, VIE_VERDICT, VIE_MISSING_EXPIRE, VIE_HEARTBEAT. -/
def Obligations.VideoFramesAreObservedAndJudged : Prop :=
  (∀ (s : State) (b : Bool) (ecc : Nat) (f0 f : Frame), s.hw.vieHead = some f0 →
      let h := (s.hw.basinEcc f0.id ecc).discardBad f0.id
      h.frame? f0.id = some f →
      (f.vie = none ∨ h.keyless f = true) →
      exec (.viePacketObserve (b, ecc)) s = .next (s.on (h.takeAt 28 f))) ∧
  (∀ (s : State) (b : Bool) (ecc : Nat) (f0 f : Frame) (v : Nat), s.hw.vieHead = some f0 →
      let h := (s.hw.basinEcc f0.id ecc).discardBad f0.id
      h.frame? f0.id = some f →
      f.vie = some v → (h.vcfg v Fld.VIE_S_CFG_EN = 0 ∨ h.flag Reg.VIE_STATUS Fld.VIE_STATUS_READY = false) →
      exec (.viePacketObserve (b, ecc)) s = .next (s.on (h.takeAt 28 f))) ∧
  (∀ (s : State) (b : Bool) (ecc : Nat) (f0 f : Frame) (v : Nat), s.hw.vieHead = some f0 →
      let h := (s.hw.basinEcc f0.id ecc).discardBad f0.id
      h.frame? f0.id = some f → f.vie = some v → h.keyless f = false → h.vcfg v Fld.VIE_S_CFG_EN ≠ 0 →
      h.flag Reg.VIE_STATUS Fld.VIE_STATUS_READY = true → let x := if (kvGet h.vie.s v).isNone then h.vieEnable v else h
      f.bad.isSome = true →
      exec (.viePacketObserve (b, ecc)) s = .next (s.on ((x.recordPacket v f (h.readFrame f) b).takeAt 28 f))) ∧
  (∀ (s : State) (b : Bool) (ecc : Nat) (f0 f : Frame) (v : Nat), s.hw.vieHead = some f0 →
      let h := (s.hw.basinEcc f0.id ecc).discardBad f0.id
      h.frame? f0.id = some f → f.vie = some v → h.keyless f = false → h.vcfg v Fld.VIE_S_CFG_EN ≠ 0 →
      h.flag Reg.VIE_STATUS Fld.VIE_STATUS_READY = true → let x := if (kvGet h.vie.s v).isNone then h.vieEnable v else h
      f.bad.isSome = false →
      let r := x.viePacket v (kvGetD x.vie.s v VieS.init) f (h.readFrame f) b
      exec (.viePacketObserve (b, ecc)) s = .next (s.on (((r.1.setVie v r.2).showVie v).takeAt 28 f))) ∧
  (∀ (s : State) (b : Bool) (ecc : Nat), s.hw.vieHead = none → exec (.viePacketObserve (b, ecc)) s = .next s) ∧
  (∀ (s : State) (st : Nat) (v : VieS) (w : VieFrame) (ws : List VieFrame), kvGet s.hw.vie.s st = some v → v.wait = w :: ws →
      exec (.vieVerdict st) s = .next (s.on (if s.hw.awaitsDisplay st w then s.hw else s.hw.judge st { v with wait := ws } w))) ∧
  (∀ (s : State) (st : Nat) (v : VieS) (w : VieFrame) (ws : List VieFrame), kvGet s.hw.vie.s st = some v → v.wait = w :: ws →
      s.hw.awaitsDisplay st w = false → w.complete = false → w.ts = none → w.cfg = none → w.fresh = false →
      s.hw.vcfg st Fld.VIE_S_CFG_VERDICT_EN = 0 →
      exec (.vieVerdict st) s = .next (s.on ((s.hw.recordVerdict st w.no (frameRecord w 0 (2 &&& s.hw.checkEn st))).score s.hw st
        { v with wait := ws, missed := v.missed + 1 } 2 2 false (if (s.hw.checkEn st).testBit 5 then w.disp.getD w.close else w.close)))) ∧
  (∀ (s : State) (st : Nat), (∀ v ∈ kvGet s.hw.vie.s st, v.wait = []) → exec (.vieVerdict st) s = .next s) ∧
  (∀ (s : State) (st c n : Nat) (v : VieS), kvGet s.hw.vie.s st = some v → v.armed = some (c, n) →
      exec (.vieMissingExpire st) s = .next (s.on (s.hw.score s.hw st { v with missed := v.missed + 1, armed := some (c, n + 1) } 1 1 false
        (c + (n + 1) * s.hw.rn (Reg.VIE_S_NOMINAL st))))) ∧
  (∀ (s : State) (st : Nat), (∀ v ∈ kvGet s.hw.vie.s st, v.armed = none) → exec (.vieMissingExpire st) s = .next s) ∧
  (∀ (s : State) (st : Nat) (v : VieS), kvGet s.hw.vie.s st = some v →
      exec (.vieHeartbeat st) s = .next (s.on (if s.hw.fld Reg.VIE_NOTICE_CFG Fld.VIE_NOTICE_CFG_HEARTBEAT_MS = 0 then s.hw
        else s.hw.notice st (if v.alarm = 0 then 0 else 1) none)))

/-- R164 to R166, R169, R173: the four tasks of the VIE and the trigger tasks of the Reservoir. -/
def Obligations.VideoAlarmsAct : Prop :=
  (∀ (s : State) (r : TaskRun), s.hw.taskRun? 0 = some r →
      let h : Hw := { s.hw with tasks := dropRun s.hw.tasks 0 }
      exec .vieNoticeTask s = .next (s.on (((h.causeStreams r).foldl (fun a x => a.noticeNow x (some r.at_)) h).taskRecord r))) ∧
  (∀ (s : State) (r : TaskRun), s.hw.taskRun? 1 = some r →
      let h : Hw := { s.hw with tasks := dropRun s.hw.tasks 1 }
      exec .vieFallbackTask s = .next (s.on ((((h.causeStreams r).foldl (fun a x => if a.flag (Reg.VIE_S_FALLBACK x) Fld.VIE_S_FALLBACK_FB_EN && (kvGetD a.vie.s x VieS.init).alarm != 0 && a.fld (Reg.VIE_S_FALLBACK x) Fld.VIE_S_FALLBACK_FB_STREAM != x then (a.setVie x { kvGetD a.vie.s x VieS.init with fbReq := some (a.fld (Reg.VIE_S_FALLBACK x) Fld.VIE_S_FALLBACK_FB_STREAM) }).lateBy r 500 else a) h).refreshFallbacks).taskRecord r))) ∧
  (∀ (s : State) (r : TaskRun), s.hw.taskRun? 2 = some r →
      let h : Hw := { s.hw with tasks := dropRun s.hw.tasks 2 }
      exec .vieFrerTask s = .next (s.on (((h.causeStreams r).foldl (fun a x => if a.flag (Reg.VIE_S_FALLBACK x) Fld.VIE_S_FALLBACK_FRER_EN then (a.forceFrer x).lateBy r 500 else a) h).taskRecord r))) ∧
  (∀ (s : State) (r : TaskRun), s.hw.taskRun? 3 = some r →
      let h : Hw := { s.hw with tasks := dropRun s.hw.tasks 3 }
      exec .vieHostTask s = .next (s.on (((h.causeStreams r).foldl (fun a x => (a.postG 3 x 0x0901 x ((kvGetD a.vie.s x VieS.init).entering + (kvGetD a.vie.s x VieS.init).alarm * 2 ^ 8)
        (a.rn (Reg.VIE_S_LAST_COUNTER x)) (kvGetD a.vie.s x VieS.init).lastTs ((kvGetD a.vie.s x VieS.init).tFail % 2 ^ 32)).backdate a.evq.staging.length r.at_) h).taskRecord r))) ∧
  (∀ (s : State), s.hw.tasks = [] → exec .vieNoticeTask s = .next s ∧ exec .vieFallbackTask s = .next s ∧
      exec .vieFrerTask s = .next s ∧ exec .vieHostTask s = .next s ∧ ∀ k, exec (.rsvTriggerTask k) s = .next s) ∧
  (∀ (s : State) (k : Nat) (r : TaskRun), k < 4 → s.hw.taskRun? (4 + k) = some r →
      let h : Hw := { s.hw with tasks := dropRun s.hw.tasks (4 + k) }
      exec (.rsvTriggerTask k) s = .next (s.on (((bitsOf 16 (h.rn (Reg.RSV_TRIG_MASK k))).foldl
        (fun a x => (a.triggerRing x r.at_ (maskOf r.cause)).lateBy r 1000) h).taskRecord r))) ∧
  (∀ (s : State) (k x : Nat) (r : TaskRun) (g : RsvRing), k < 4 → s.hw.taskRun? (4 + k) = some r → r.at_ = s.hw.clk → x < 16 →
      bitsOf 16 (s.hw.rn (Reg.RSV_TRIG_MASK k)) = [x] → s.hw.fld (Reg.RSV_RING_STATE x) Fld.RSV_RING_STATE_STATE = 1 →
      s.hw.flag (Reg.EVF_TASK_CFG (4 + k)) Fld.EVF_TASK_CFG_RECORD = false → kvGet s.hw.vie.ring x = some g → g.trig = [] →
      ∃ t, exec (.rsvTriggerTask k) s = .next t ∧ t.hw.fld (Reg.RSV_RING_STATE x) Fld.RSV_RING_STATE_STATE = 2 ∧
        t.hw.fld (Reg.RSV_RING_STATE x) Fld.RSV_RING_STATE_LOGGED = 1 ∧
        kvGet t.hw.vie.ring x = some { g with
          postEnd := s.hw.clk + s.hw.fld (Reg.RSV_RING_CFG x) Fld.RSV_RING_CFG_POST_MS * 500000, trig := [(s.hw.clk, maskOf r.cause)], trigAt := some s.hw.clk } ∧
        (∀ q, q ≠ Reg.RSV_RING_STATE x → t.hw.rn q = s.hw.rn q) ∧
        t = s.on { s.hw with regs := t.hw.regs, vie := { s.hw.vie with ring := t.hw.vie.ring }, tasks := dropRun s.hw.tasks (4 + k) }) ∧
  (∀ (s : State) (x : Nat), s.hw.fld (Reg.RSV_RING_STATE x) Fld.RSV_RING_STATE_STATE = 2 →
      (kvGetD s.hw.vie.ring x RsvRing.empty).postEnd ≤ s.hw.clk →
      let h := s.hw.onRing x (fun z => { z with cur := [], times := z.times.take (z.times.length - z.cur.length) })
      exec (.rsvPostExpire x) s = .next (s.on ((h.setFld (Reg.RSV_RING_STATE x) Fld.RSV_RING_STATE_STATE 3).postG 11 x 0x0904 x
        (kvGetD h.vie.ring x RsvRing.empty).trig.length))) ∧
  (∀ (s : State) (x : Nat), (s.hw.fld (Reg.RSV_RING_STATE x) Fld.RSV_RING_STATE_STATE ≠ 2 ∨ s.hw.clk < (kvGetD s.hw.vie.ring x RsvRing.empty).postEnd) →
      exec (.rsvPostExpire x) s = .next s)

/-- R178, R181 to R184: LINE_LOSS, LINE_RESTORED, LINK_DOWN, LINK_UP, SQ_PLL_UNLOCK. -/
def Obligations.LinksFallAndRise : Prop :=
  (∀ (s : State) (m : Nat) (rest : List Byte), exec (.lineLoss m rest) s = .next (s.on (
      if m < 24 ∧ (kvGet s.hw.mac.loopback m).isNone = true then
        ((s.hw.onMac (fun x => { x with lineGood := without x.lineGood m })).laneSignal m false).cutRx m rest
      else s.hw))) ∧
  (∀ (s : State) (m : Nat) (rest : List Byte), m < 24 → kvGet s.hw.mac.loopback m = none → kvGet s.hw.swc.rx m = none →
      ∃ t, exec (.lineLoss m rest) s = .next t ∧ m ∉ t.hw.mac.lineGood ∧
        (m < 20 → t.hw.fld (Reg.SQ_STATUS (m / 4)) ⟨4 + m % 4, 4 + m % 4⟩ = 0) ∧
        t = s.on { s.hw with regs := t.hw.regs, mac := { s.hw.mac with lineGood := without s.hw.mac.lineGood m } } ∧
        (∀ r, r ≠ Reg.SQ_STATUS (m / 4) → r ≠ Reg.SQ_LANE_EQ (m / 4) (m % 4) → t.hw.rn r = s.hw.rn r)) ∧
  (∀ (s : State) (m : Nat), m < 24 → ∃ t, exec (.lineRestored m) s = .next t ∧ m ∈ t.hw.mac.lineGood ∧
      t = s.on ((s.hw.onMac (fun x => { x with lineGood := t.hw.mac.lineGood })).laneSignal m true)) ∧
  (∀ (s : State) (m : Nat), m < 24 → s.hw.mac.lineGood.contains m = false → exec (.linkDown m) s = .next (s.on (s.hw.linkDown m))) ∧
  (∀ (s : State) (m : Nat), s.hw.mac.lineGood.contains m = true ∨ s.hw.linkUp m = false → exec (.linkDown m) s = .next s) ∧
  (∀ (s : State) (m n : Nat), exec (.linkUp m n) s = .next (s.on (
      if m < 24 ∧ s.hw.linkUp m = false ∧ s.hw.mac.lineGood.contains m = true ∧ s.hw.pllLocked m = true ∧
        s.hw.pllFits m (s.hw.macMode m) = true ∧ s.hw.flag (Reg.MAC_STATUS m) Fld.MAC_STATUS_READY = true ∧
        s.hw.flag (Reg.MAC_CFG m) Fld.MAC_CFG_EN = true ∧ (modeRates (s.hw.macMode m)).contains (s.hw.rateUp m n) = true
      then s.hw.linkUpAt m (s.hw.rateUp m n) else s.hw))) ∧
  (∀ (s : State) (m n : Nat), s.hw.rateUp m n = if s.hw.flag (Reg.MAC_CFG m) Fld.MAC_CFG_AN_EN ∧ (s.hw.macMode m = 3 ∨ s.hw.macMode m = 5)
      then n else s.hw.fld (Reg.MAC_CFG m) Fld.MAC_CFG_RATE) ∧
  (∀ (s : State) (q p : Nat) (f : Field), q < 5 → (p = 0 ∧ f = Fld.SQ_STATUS_PLLA_LOCK) ∨ (p = 1 ∧ f = Fld.SQ_STATUS_PLLB_LOCK) →
      let h := ((s.hw.setFld (Reg.SQ_STATUS q) f 0).inc (Reg.SQ_PLL_UNLOCK q)).post 1 0x0602 q p
      let x := (s.hw.pllLanes q p).foldl (fun a m => (a.lineLoss m []).linkDown m) h
      exec (.sqPllUnlock q p) s = .next (s.on (if s.hw.flag (Reg.SQ_STATUS q) f = false then s.hw
        else if s.hw.pllLanes q p = [] then x else x.clrReady (Reg.SQ_STATUS q) Fld.SQ_STATUS_READY (56 + q))))

/-- R186 to R188: PLCA_OPPORTUNITY, PLCA_BEACON_LOSS, PLCA_BEACON_HEARD, T1S_COLLISION, T1S_BACKOFF_EXPIRE. -/
def Obligations.MixingSegmentsShareTheLine : Prop :=
  (∀ (s : State) (m : Nat) (more : Bool) (f : Frame), s.hw.plca m = true → s.hw.txBusy m = false → (more = true → s.hw.burstLeft m = true) →
      let h := s.hw.opportunity m more
      h.grantedAt m = some f →
      exec (.plcaOpportunity (m, more)) s = .next (s.on (if h.fits m f.cls (h.chargeLen f m) then h.burstStart m else h.inc (Reg.MAC_PLCA_YIELD m)))) ∧
  (∀ (s : State) (m : Nat) (more : Bool) (x : Nat × Frame × Option Round), s.hw.plca m = true → s.hw.txBusy m = false → (more = true → s.hw.burstLeft m = true) →
      let h := s.hw.opportunity m more
      h.grantedAt m = none → h.select m = some x →
      exec (.plcaOpportunity (m, more)) s = .next (s.on (if h.slotsUsed x.2.1.ingress < 2 then (h.grant ⟨m, x.1, x.2.1, x.2.2⟩).burstStart m else h))) ∧
  (∀ (s : State) (m : Nat) (more : Bool), s.hw.plca m = true → s.hw.txBusy m = false → (more = true → s.hw.burstLeft m = true) →
      let h := s.hw.opportunity m more
      h.grantedAt m = none → h.select m = none →
      exec (.plcaOpportunity (m, more)) s = .next (s.on (if h.gateBlocked m then h.inc (Reg.MAC_PLCA_YIELD m) else h.txStart m))) ∧
  (∀ (s : State) (m : Nat) (more : Bool), (s.hw.plca m = false ∨ s.hw.txBusy m = true ∨ (more = true ∧ s.hw.burstLeft m = false)) →
      exec (.plcaOpportunity (m, more)) s = .next s) ∧
  (∀ (s : State) (m : Nat), exec (.plcaBeaconLoss m) s = .next (s.on (
      if s.hw.plcaPort m = true ∧ s.hw.fld (Reg.MAC_PLCA_CFG m) Fld.MAC_PLCA_CFG_ID ≠ 0 ∧ s.hw.flag (Reg.MAC_PLCA_STATUS m) Fld.MAC_PLCA_STATUS_ACTIVE = true
      then Hw.rebound s.hw ((s.hw.setFld (Reg.MAC_PLCA_STATUS m) Fld.MAC_PLCA_STATUS_ACTIVE 0).post 1 0x0603 m) else s.hw))) ∧
  (∀ (s : State) (m : Nat), exec (.plcaBeaconHeard m) s = .next (s.on (
      if s.hw.plcaPort m = true ∧ s.hw.flag (Reg.MAC_PLCA_STATUS m) Fld.MAC_PLCA_STATUS_ACTIVE = false
      then Hw.rebound s.hw (s.hw.setFld (Reg.MAC_PLCA_STATUS m) Fld.MAC_PLCA_STATUS_ACTIVE 1) else s.hw))) ∧
  (∀ (s : State) (m : Nat) (x : TxCur) (xs : List TxCur) (f : Frame), 20 ≤ m → m < 24 → kvGetD s.hw.swc.tx m [] = x :: xs →
      let h := (((s.hw.inc (Reg.MAC_COLLISIONS m)).countCut m)).onSwc (fun w => { w with tx := kvDel w.tx m })
      h.frame? x.frame = some f → let n := (if s.hw.retrying m x.frame then (kvGetD s.hw.mac.attempts m (0, 0)).2 else 0) + 1
      n < 16 → exec (.t1sCollision m) s = .next (s.on ((h.setCopy f.id m .granted).onMac
        (fun y => { y with attempts := kvPut y.attempts m (f.id, n), backoff := insertNew y.backoff m })))) ∧
  (∀ (s : State) (m : Nat) (x : TxCur) (xs : List TxCur) (f : Frame), 20 ≤ m → m < 24 → kvGetD s.hw.swc.tx m [] = x :: xs →
      let h := (((s.hw.inc (Reg.MAC_COLLISIONS m)).countCut m)).onSwc (fun w => { w with tx := kvDel w.tx m })
      h.frame? x.frame = some f → let n := (if s.hw.retrying m x.frame then (kvGetD s.hw.mac.attempts m (0, 0)).2 else 0) + 1
      16 ≤ n → exec (.t1sCollision m) s = .next (s.on ((((h.onMac (fun y => { y with
        attempts := kvDel y.attempts m, backoff := without y.backoff m })).inc (Reg.MAC_TX_EXCESS_COLL m)).abandon f m).reap f.id))) ∧
  (∀ (s : State) (m : Nat), let h := s.hw.onMac (fun y => { y with backoff := without y.backoff m })
      exec (.t1sBackoffExpire m) s = .next (s.on (if s.hw.mac.backoff.contains m then (if s.hw.plca m then h else h.txStart m) else s.hw)))

/-- R192 to R195: EEE_LPI_ENTER, EEE_LPI_EXIT, EEE_WAKE_DONE, PARTNER_LPI_CHANGE, ETH_WAKE_DETECT. -/
def Obligations.IdleLinksSleepAndWake : Prop :=
  (∀ (s : State) (m : Nat), m < 20 → s.hw.linkUp m = true → s.hw.flag (Reg.MAC_EEE_CFG m) Fld.MAC_EEE_CFG_EN = true → s.hw.lpi m = false →
      s.hw.hasCopies m = false → kvGetD s.hw.swc.pauseQ m [] = [] →
      ∃ t, exec (.eeeLpiEnter m) s = .next t ∧ t.hw.fld (Reg.MAC_STATUS m) Fld.MAC_STATUS_TX_LPI = 1 ∧
        t.hw.rn (Reg.MAC_TX_LPI_ENTRIES m) = min (s.hw.rn (Reg.MAC_TX_LPI_ENTRIES m) + 1) 0xFFFFFFFF ∧
        (∀ r, r ≠ Reg.MAC_STATUS m → r ≠ Reg.MAC_TX_LPI_ENTRIES m → t.hw.rn r = s.hw.rn r) ∧ t = s.on { s.hw with regs := t.hw.regs }) ∧
  (∀ (s : State) (m : Nat), (20 ≤ m ∨ s.hw.linkUp m = false ∨ s.hw.flag (Reg.MAC_EEE_CFG m) Fld.MAC_EEE_CFG_EN = false ∨ s.hw.lpi m = true ∨
      s.hw.hasCopies m = true ∨ kvGetD s.hw.swc.pauseQ m [] ≠ []) → exec (.eeeLpiEnter m) s = .next s) ∧
  (∀ (s : State) (m : Nat), exec (.eeeLpiExit m) s = .next (s.on (
      if m < 20 ∧ s.hw.flag (Reg.MAC_STATUS m) Fld.MAC_STATUS_TX_LPI = true ∧ s.hw.wakeReason m = true
      then (s.hw.setFld (Reg.MAC_STATUS m) Fld.MAC_STATUS_TX_LPI 0).onMac (fun y => { y with lpiExit := insertNew y.lpiExit m }) else s.hw))) ∧
  (∀ (s : State) (m : Nat), exec (.eeeWakeDone m) s = .next (s.on (if s.hw.mac.lpiExit.contains m then
      ((((s.hw.onMac (fun y => { y with lpiExit := without y.lpiExit m })).add (Reg.MAC_LPI_WAKE_DELAYED m)
        (s.hw.swc.frames.filter (s.hw.wakeDelayed m)).length).sendPauses m).txStart m) else s.hw))) ∧
  (∀ (s : State) (m : Nat) (on_ : Bool), exec (.partnerLpiChange m on_) s = .next (s.on (
      if m < 20 ∧ s.hw.linkUp m = true ∧ s.hw.flag (Reg.MAC_STATUS m) Fld.MAC_STATUS_RX_LPI ≠ on_ then
        (if on_ then (s.hw.setFld (Reg.MAC_STATUS m) Fld.MAC_STATUS_RX_LPI 1).inc (Reg.MAC_RX_LPI_ENTRIES m)
         else s.hw.setFld (Reg.MAC_STATUS m) Fld.MAC_STATUS_RX_LPI 0) else s.hw))) ∧
  (∀ (s : State) (m : Nat) (level : Bool) (b : List Byte), m < 20 → s.hw.domOn (31 + m / 4) = false → s.hw.pg 2 = true →
      exec (.ethWakeDetect m (level, b)) s = .next (s.on (if s.hw.mac.wakePol.contains m = level then s.hw.wakeDetect (32 + m) else s.hw))) ∧
  (∀ (s : State) (m : Nat) (level : Bool) (b : List Byte), 20 ≤ m → m < 24 → s.hw.domOn 36 = false → s.hw.pg 2 = true →
      exec (.ethWakeDetect m (level, b)) s = .next (s.on (
        if fcsGood b = true ∧ ∃ k, k < 4 ∧ s.hw.wakeMatch m k b = true then s.hw.wakeDetect (16 + (m - 20)) else s.hw))) ∧
  (∀ (s : State) (m : Nat) (level : Bool) (b : List Byte), (24 ≤ m ∨ s.hw.domOn (31 + m / 4) = true ∨ s.hw.pg 2 = false) →
      exec (.ethWakeDetect m (level, b)) s = .next s)

/-- R206, R207, R213 to R219: CAN_INTEGRATE, CAN_FRAME_RECEIVE, CAN_RXQ_POP, CAN_ERROR, CAN_BUS_RECOVER, CAN_MODE_APPLY, CAN_FILTER_APPLY. -/
def Obligations.CanControllersReceiveAndCountErrors : Prop :=
  (∀ (s : State) (c : Nat), c < 48 → s.hw.flag (Reg.CAN_CFG c) Fld.CAN_CFG_EN = true → s.hw.flag Reg.FBUS_STATUS ⟨c / 8, c / 8⟩ = true →
      s.hw.flag (Reg.CAN_STATUS c) Fld.CAN_STATUS_SYNC = false →
      ∃ t, exec (.canIntegrate c) s = .next t ∧ t.hw.flag (Reg.CAN_STATUS c) Fld.CAN_STATUS_SYNC = true ∧
        t.hw.flag (Reg.CAN_STATUS c) Fld.CAN_STATUS_PEX_ACTIVE = false ∧ t.hw.canMode c = s.hw.canCfg c Fld.CAN_CFG_MODE ∧
        (∀ r, r ≠ Reg.CAN_STATUS c → t.hw.rn r = s.hw.rn r) ∧ t = s.on { s.hw with regs := t.hw.regs }) ∧
  (∀ (s : State) (c : Nat), (48 ≤ c ∨ s.hw.flag (Reg.CAN_CFG c) Fld.CAN_CFG_EN = false ∨ s.hw.flag Reg.FBUS_STATUS ⟨c / 8, c / 8⟩ = false ∨
      s.hw.flag (Reg.CAN_STATUS c) Fld.CAN_STATUS_SYNC = true) → exec (.canIntegrate c) s = .next s) ∧
  (∀ (s : State) (c fmt w0 w1 w2 age : Nat) (d : List Byte), s.hw.canOn c = true → s.hw.canMode c ≠ 2 →
      (fmt = 1 → s.hw.canCfg c Fld.CAN_CFG_FD_EN ≠ 0) → (fmt = 2 → s.hw.canCfg c Fld.CAN_CFG_XL_EN ≠ 0) →
      exec (.canFrameReceive c fmt w0 w1 w2 d age) s = .next (s.on (Hw.canAccept (Hw.goodRx (s.hw.onCan c (fun x => { x with erring := false })) c) c fmt w0 w1 w2 d age))) ∧
  (∀ (s : State) (c w0 w1 w2 age i : Nat) (d : List Byte), s.hw.canOn c = true → s.hw.canMode c ≠ 2 →
      (Hw.goodRx (s.hw.onCan c (fun x => { x with erring := false })) c).filterOf c 0 (w1 % 2 ^ 29) (w0.testBit 21) = (3, i) →
      exec (.canFrameReceive c 0 w0 w1 w2 d age) s = .next (s.on ((Hw.goodRx (s.hw.onCan c (fun x => { x with erring := false })) c).inc (Reg.CAN_RX_REJECT c)))) ∧
  (∀ (s : State) (c fmt w0 w1 w2 age : Nat) (d : List Byte), s.hw.canOn c = true → s.hw.canMode c ≠ 2 →
      (fmt = 1 ∧ s.hw.canCfg c Fld.CAN_CFG_FD_EN = 0) ∨ (fmt = 2 ∧ s.hw.canCfg c Fld.CAN_CFG_XL_EN = 0) →
      let h := s.hw.onCan c (fun x => { x with erring := false })
      exec (.canFrameReceive c fmt w0 w1 w2 d age) s = .next (s.on (if s.hw.flag (Reg.CAN_CFG c) Fld.CAN_CFG_PEX then
        ((h.inc (Reg.CAN_PEX c)).setFld (Reg.CAN_STATUS c) Fld.CAN_STATUS_PEX_ACTIVE 1).setFld (Reg.CAN_STATUS c) Fld.CAN_STATUS_SYNC 0
        else h.canError c 3 false false age none))) ∧
  (∀ (s : State) (c fmt w0 w1 w2 age : Nat) (d : List Byte), s.hw.canOn c = false ∨ s.hw.canMode c = 2 →
      exec (.canFrameReceive c fmt w0 w1 w2 d age) s = .next (s.on (if c < 48 then s.hw.onCan c (fun x => { x with erring := false }) else s.hw))) ∧
  (∀ (s : State) (c ty age : Nat) (tx sev : Bool) (v : Option Nat), exec (.canError c ty tx sev (age, v)) s = .next (s.on (
      if s.hw.canOn c = true ∧ 1 ≤ ty ∧ ty ≤ 5 ∧ (tx = false ∨ (s.hw.can c).sending ≠ none ∨ (s.hw.can c).erring = true)
      then s.hw.canError c ty tx sev age v else s.hw))) ∧
  (∀ (s : State) (c q : Nat) (nx : Bool) (e : Nat × List Nat) (es : List (Nat × List Nat)), c < 48 → q < 2 →
      s.hw.flag (Reg.CAN_CFG c) (if q = 0 then Fld.CAN_CFG_RXQ0_DIRECT else Fld.CAN_CFG_RXQ1_DIRECT) = true → (s.hw.can c).rx q = e :: es →
      ∃ t, exec (.canRxqPop c q (true, nx)) s = .next t ∧ (t.hw.can c).rx q = e :: es ∧ (t.hw.can c).lock q = true ∧
        t.hw.out = .cpu (canQueue c q) (bytesOf e.2) :: s.hw.out ∧
        t = s.on { s.hw with out := t.hw.out, fbus := { s.hw.fbus with can := t.hw.fbus.can } }) ∧
  (∀ (s : State) (c q : Nat) (nx : Bool) (e : Nat × List Nat) (es : List (Nat × List Nat)), c < 48 → q < 2 →
      s.hw.flag (Reg.CAN_CFG c) (if q = 0 then Fld.CAN_CFG_RXQ0_DIRECT else Fld.CAN_CFG_RXQ1_DIRECT) = true → (s.hw.can c).rx q = e :: es →
      ∃ t, exec (.canRxqPop c q (false, nx)) s = .next t ∧ (t.hw.can c).rx q = es ∧ (t.hw.can c).lock q = (nx && !es.isEmpty) ∧
        t.hw.out = .cpu (canQueue c q) (bytesOf e.2) :: s.hw.out ∧
        t = s.on { s.hw with out := t.hw.out, fbus := { s.hw.fbus with can := t.hw.fbus.can } }) ∧
  (∀ (s : State) (c : Nat) (rd nx : Bool) (r : Nat × List Nat) (rs : List (Nat × List Nat)), c < 48 → (s.hw.can c).conf = r :: rs →
      exec (.canRxqPop c 3 (rd, nx)) s = .next (s.on ((s.hw.emit (.cpu (canQueue c 3) (bytesOf r.2))).onCan c (fun x => { x with conf := rs })))) ∧
  (∀ (s : State) (c : Nat) (rd nx : Bool) (r : Nat × List Nat) (rs : List (Nat × List Nat)), c < 48 → (s.hw.can c).errq = r :: rs →
      exec (.canRxqPop c 4 (rd, nx)) s = .next (s.on ((s.hw.emit (.cpu (canQueue c 4) (bytesOf r.2))).onCan c (fun x => { x with errq := rs })))) ∧
  (∀ (s : State) (c q : Nat) (rd nx : Bool), (48 ≤ c ∨ (q = 3 ∧ (s.hw.can c).conf = []) ∨ (q = 4 ∧ (s.hw.can c).errq = []) ∨ (2 ≤ q ∧ q ≠ 3 ∧ q ≠ 4) ∨
      (q < 2 ∧ (s.hw.flag (Reg.CAN_CFG c) (if q = 0 then Fld.CAN_CFG_RXQ0_DIRECT else Fld.CAN_CFG_RXQ1_DIRECT) = false ∨ (s.hw.can c).rx q = []))) →
      exec (.canRxqPop c q (rd, nx)) s = .next s) ∧
  (∀ (s : State) (c : Nat), c < 48 → s.hw.canErr c = 2 → s.hw.flag (Reg.CAN_CFG c) Fld.CAN_CFG_AUTO_RECOVER = true ∨ (s.hw.can c).recover = true →
      ∃ t, exec (.canBusRecover c) s = .next t ∧ t.hw.canErr c = 0 ∧ t = s.on (((s.hw.setErr c 0 0).onCan c (fun x => { x with recover := false })).post 1 0x0703 c)) ∧
  (∀ (s : State) (c : Nat), (48 ≤ c ∨ s.hw.canErr c ≠ 2 ∨ (s.hw.flag (Reg.CAN_CFG c) Fld.CAN_CFG_AUTO_RECOVER = false ∧ (s.hw.can c).recover = false)) →
      exec (.canBusRecover c) s = .next s) ∧
  (∀ (s : State) (c : Nat), exec (.canModeApply c) s = .next (s.on (
      if c < 48 ∧ s.hw.flag (Reg.CAN_CFG c) Fld.CAN_CFG_EN = true ∧ (s.hw.can c).sending = none
      then s.hw.setFld (Reg.CAN_STATUS c) Fld.CAN_STATUS_MODE_NOW (s.hw.canCfg c Fld.CAN_CFG_MODE) else s.hw))) ∧
  (∀ (s : State) (c : Nat), exec (.canFilterApply c) s = .next (s.on (if 48 ≤ c ∨ (s.hw.can c).sending ≠ none then s.hw
      else ((s.hw.can c).filt.foldl (fun a w => a.wn w.1 w.2) s.hw).onCan c (fun x => { x with filt := [] }))))

/-- R213, R221 to R227: CAN_TX_REQUEST, CAN_BUS_IDLE_OFFER, CAN_TX_ARB_LOST, CAN_TX_COMPLETE and the four CAN_SCHED rows. -/
def Obligations.CanControllersSend : Prop :=
  (∀ (s : State) (c : Nat) (m : List Nat), c < 48 → s.hw.pg (37 + c / 8) = true → recKind m < 3 → s.hw.canFormat c (recKind m) = true →
      (s.hw.can c).txq.length < 32 →
      ∃ t, exec (.canTxRequest c m) s = .next t ∧ (t.hw.can c).txq = (s.hw.can c).txq ++ [⟨m, s.hw.clk, none, 0, false⟩] ∧
        (∀ d, d ≠ c → t.hw.can d = s.hw.can d) ∧ t = s.on { s.hw with fbus := { s.hw.fbus with can := t.hw.fbus.can } }) ∧
  (∀ (s : State) (c : Nat) (m : List Nat), c < 48 → s.hw.pg (37 + c / 8) = true → recKind m < 3 → s.hw.canFormat c (recKind m) = true →
      32 ≤ (s.hw.can c).txq.length → exec (.canTxRequest c m) s = .next (s.on (s.hw.inc (Reg.CAN_TXQ_FULL c)))) ∧
  (∀ (s : State) (c : Nat) (m : List Nat), (48 ≤ c ∨ s.hw.pg (37 + c / 8) = false ∨ 3 ≤ recKind m ∨ s.hw.canFormat c (recKind m) = false) →
      exec (.canTxRequest c m) s = .next s) ∧
  (∀ (s : State) (c : Nat) (r : CanReq) (x : Hw), s.hw.canOn c = true → s.hw.canMode c ≠ 1 → (s.hw.can c).sending = none →
      (s.hw.onCan c (fun x => { x with erring := false })).offerFresh c 33 = (some r, x) →
      exec (.canBusIdleOffer c) s = .next (s.on ((x.onCan c (fun y => { y with sending := some r, live := y.live.map (fun l =>
        if r.slot.isSome && l.slot == r.slot then { l with tried := true } else l) })).setFld (Reg.CAN_STATUS c) Fld.CAN_STATUS_TX_BUSY 1))) ∧
  (∀ (s : State) (c : Nat) (x : Hw), s.hw.canOn c = true → s.hw.canMode c ≠ 1 → (s.hw.can c).sending = none →
      (s.hw.onCan c (fun x => { x with erring := false })).offerFresh c 33 = (none, x) → exec (.canBusIdleOffer c) s = .next (s.on x)) ∧
  (∀ (s : State) (c : Nat), (s.hw.canOn c = false ∨ s.hw.canMode c = 1 ∨ (s.hw.can c).sending ≠ none) → exec (.canBusIdleOffer c) s = .next s) ∧
  (∀ (s : State) (c : Nat) (r : CanReq), c < 48 → (s.hw.can c).sending = some r → r.slot = none →
      ∃ t, exec (.canTxArbLost c) s = .next t ∧ (t.hw.can c).sending = none ∧ (t.hw.can c).txq = (s.hw.can c).txq ∧
        t.hw.rn (Reg.CAN_TX_ARB_LOST c) = min (s.hw.rn (Reg.CAN_TX_ARB_LOST c) + 1) 0xFFFFFFFF ∧
        t.hw.fld (Reg.CAN_STATUS c) Fld.CAN_STATUS_TX_BUSY = 0) ∧
  (∀ (s : State) (c : Nat), exec (.canTxArbLost c) s = .next (s.on (
      if c < 48 ∧ (s.hw.can c).sending ≠ none then (s.hw.inc (Reg.CAN_TX_ARB_LOST c)).canUnsent c else s.hw))) ∧
  (∀ (s : State) (c age v : Nat) (r : CanReq), (s.hw.can c).sending = some r →
      let a := s.hw.onCan c (fun x => { x with sending := none, txq := if r.slot.isNone then dropReq r x.txq else x.txq, live := x.live.filter (fun l => r.slot.isNone || l.slot != r.slot) })
      let b := ((a.setFld (Reg.CAN_STATUS c) Fld.CAN_STATUS_TX_BUSY 0).inc (Reg.CAN_TX_OK c)).measureTdc c (recKind r.msg) v
      let d := b.setErr c (b.fld (Reg.CAN_ERR c) Fld.CAN_ERR_TEC - 1) (b.fld (Reg.CAN_ERR c) Fld.CAN_ERR_REC)
      let data := recData 3 r.msg
      let w0 := r.msg.getD 0 0
      let x := if d.flag (Reg.CAN_CFG c) Fld.CAN_CFG_TXCONF_EN = true ∧ (d.can c).conf.length ≤ Config.queueMore (canQueue c 3)
        then d.onCan c (fun y => { y with conf := y.conf ++ [(d.clk, d.record (d.canCfg c Fld.CAN_CFG_TB) age false (recWord0 5 c w0 data.length) (recIdent r.msg) 0 data)] }) else d
      exec (.canTxComplete c age v) s = .next (s.on (
        if x.canMode c = 2 then x.canAccept c (recKind r.msg) w0 (r.msg.getD 1 0) (r.msg.getD 2 0) data age
        else (x.selfClaim c r.msg).emit (.canTx c (r.msg.take 3) data (x.fastMode c (recKind r.msg)) (x.sampleAt c (recKind r.msg)))))) ∧
  (∀ (s : State) (c age v : Nat), (s.hw.can c).sending = none → exec (.canTxComplete c age v) s = .next s) ∧
  (∀ (s : State) (c k t : Nat), s.hw.schedOn c = true → (s.hw.can c).stepped = false → s.hw.nextCycle c = some (k, t) →
      exec (.canSchedCycleStart c) s = .next (s.on (if t ≤ s.hw.schedRun c then s.hw.beginCycle c k t else s.hw))) ∧
  (∀ (s : State) (c : Nat), (s.hw.schedOn c = false ∨ (s.hw.can c).stepped = true ∨ s.hw.nextCycle c = none) → exec (.canSchedCycleStart c) s = .next s) ∧
  (∀ (s : State) (c slot k st : Nat), s.hw.schedOn c = true → slot < 64 → (s.hw.rn (Reg.CAN_SCHED_SLOT c slot)).testBit 31 = true →
      (s.hw.can c).cycle = some (k, st) → st + s.hw.rn (Reg.CAN_SCHED_SLOT c slot) % 2 ^ 30 ≤ s.hw.schedRun c →
      let h := s.hw.setFld (Reg.CAN_SCHED_NOW c) Fld.CAN_SCHED_NOW_SLOT slot
      exec (.canSchedSlotStart c slot) s = .next (s.on (match (h.cellOf c k slot).bind (h.bufferNow c) with
        | none => h
        | some m => if h.canMode c = 1 then h.inc (Reg.CAN_SCHED_SKIP c)
          else h.slotJoin c slot (st + s.hw.rn (Reg.CAN_SCHED_SLOT c slot) % 2 ^ 30 + h.rn (Reg.CAN_SCHED_WIN c slot) % 2 ^ 30) m))) ∧
  (∀ (s : State) (c slot : Nat), (s.hw.schedOn c = false ∨ 64 ≤ slot ∨ (s.hw.rn (Reg.CAN_SCHED_SLOT c slot)).testBit 31 = false ∨ (s.hw.can c).cycle = none ∨
      ∃ k st, (s.hw.can c).cycle = some (k, st) ∧ s.hw.schedRun c < st + s.hw.rn (Reg.CAN_SCHED_SLOT c slot) % 2 ^ 30) → exec (.canSchedSlotStart c slot) s = .next s) ∧
  (∀ (s : State) (c slot : Nat), c < 48 → (s.hw.can c).live.any (fun l => l.slot == some slot && decide (l.until_ ≤ s.hw.schedRun c)) = true → (s.hw.can c).sending = none →
      exec (.canSchedWindowEnd c slot) s = .next (s.on ((s.hw.onCan c (fun x => { x with live := x.live.filter (fun l => l.slot != some slot) })).schedMiss c slot))) ∧
  (∀ (s : State) (c slot : Nat) (r : CanReq), c < 48 → (s.hw.can c).live.any (fun l => l.slot == some slot && decide (l.until_ ≤ s.hw.schedRun c)) = true → (s.hw.can c).sending = some r →
      let h := s.hw.onCan c (fun x => { x with live := x.live.filter (fun l => l.slot != some slot) })
      exec (.canSchedWindowEnd c slot) s = .next (s.on (if r.slot = some slot then h else h.schedMiss c slot))) ∧
  (∀ (s : State) (c slot : Nat), 48 ≤ c ∨ (s.hw.can c).live.any (fun l => l.slot == some slot && decide (l.until_ ≤ s.hw.schedRun c)) = false → exec (.canSchedWindowEnd c slot) s = .next s) ∧
  (∀ (s : State) (c : Nat), exec (.canSchedRestart c) s = .next (s.on (
      if s.hw.schedOn c = true ∧ (s.hw.can c).stepped = true ∧ (s.hw.can c).startAt.all (fun t => decide (t ≤ s.hw.schedNow c)) = true then
        (s.hw.beginCycle c 0 (s.hw.schedAt c ((s.hw.can c).startAt.getD (s.hw.schedNow c)))).inc (Reg.CAN_SCHED_RESTART c) else s.hw)))

/-- R228 to R235: the LIN rows, CANW_MATCH, CANW_DECODE_ERROR, LIN_WAKE_DETECT. -/
def Obligations.LinControllersAndWakeDetectors : Prop :=
  (∀ (s : State) (l : Nat),
      let n := s.hw.linNext l
      let h := ((s.hw.setFld (Reg.LIN_STATUS l) Fld.LIN_STATUS_TABLE n.1).setFld (Reg.LIN_STATUS l) Fld.LIN_STATUS_ENTRY n.2.1).onLin l
        (fun x => { x with coll := n.2.2, collNext := none, running := true, since := s.hw.clk, await := none, sent := none })
      exec (.linSchedEntry l) s = .next (s.on (
        if s.hw.linOn l = true ∧ s.hw.linResponder l = false ∧ s.hw.flag (Reg.LIN_SCHED_CTRL l) Fld.LIN_SCHED_CTRL_RUN = true ∧ s.hw.linDue l = true
        then (if h.linValid l n.1 n.2.1 then h.linStart l else h) else s.hw))) ∧
  (∀ (s : State) (l pid : Nat) (ok stop : Bool), exec (.linHeaderReceive l pid ok stop) s = .next (s.on (
      if s.hw.linOn l = false ∨ s.hw.linResponder l = false then s.hw else if ok = false ∨ stop = false then s.hw.linError l 3
        else if linPid (pid % 64) ≠ pid then s.hw.linError l 4 else s.hw.linHeader l (pid % 64)))) ∧
  (linPid 0x3C = 0x3C ∧ linPid 0x3D = 0x7D ∧ linPid 0 = 0x80) ∧
  (∀ (s : State) (l id csum : Nat) (d : List Byte) (fr be_ : Bool), s.hw.linOn l = true → (s.hw.lin l).sent = none → (s.hw.lin l).await = some id →
      let h := s.hw.onLin l (fun x => { x with await := none })
      exec (.linResponseReceive l d csum fr be_) s = .next (s.on (if fr then h.linBad l 3
        else if linSum (s.hw.linEnhanced l id) (linPid id) d ≠ csum then h.linBad l 2 else h.linGood l id csum d))) ∧
  (∀ (s : State) (l id csum : Nat) (d p : List Byte) (u fr : Bool), s.hw.linOn l = true → (s.hw.lin l).sent = some id → kvGet (s.hw.lin l).pub id = some (p, u) →
      ∃ t, exec (.linResponseReceive l d csum fr false) s = .next t ∧ t.hw.pubUpdated l id = false ∧
        t.hw.rn (Reg.LIN_FRAMES_OK l) = min (s.hw.rn (Reg.LIN_FRAMES_OK l) + 1) 0xFFFFFFFF ∧ (t.hw.lin l).sent = none) ∧
  (∀ (s : State) (l id csum : Nat) (d : List Byte) (fr be_ : Bool), s.hw.linOn l = true → (s.hw.lin l).sent = some id →
      let h := s.hw.onLin l (fun x => { x with sent := none })
      exec (.linResponseReceive l d csum fr be_) s = .next (s.on (if be_ then h.linBad l 1 else (h.inc (Reg.LIN_FRAMES_OK l)).onLin l (fun x => { x with
        pub := match kvGet x.pub id with | some p => kvPut x.pub id (p.1, false) | none => x.pub })))) ∧
  (∀ (s : State) (l csum : Nat) (d : List Byte) (fr be_ : Bool), (s.hw.linOn l = false ∨ ((s.hw.lin l).sent = none ∧ (s.hw.lin l).await = none)) →
      exec (.linResponseReceive l d csum fr be_) s = .next s) ∧
  (∀ (s : State) (l got id : Nat), (s.hw.lin l).await = some id →
      let h := s.hw.onLin l (fun x => { x with await := none })
      exec (.linResponseTimeout l got) s = .next (s.on (
        if s.hw.fld (Reg.LIN_FRAME l id) Fld.LIN_FRAME_ACTION = 1 then h.linBad l (if got = 0 then 5 else 6) else h))) ∧
  (∀ (s : State) (l got : Nat), (s.hw.lin l).await = none → exec (.linResponseTimeout l got) s = .next s) ∧
  (∀ (s : State) (l : Nat), exec (.linBusIdle l) s = .next (s.on (
      if s.hw.linOn l then (s.hw.setFld (Reg.LIN_STATUS l) Fld.LIN_STATUS_BUS_ACTIVE 0).linRecord l 9 else s.hw))) ∧
  (∀ (s : State) (l : Nat), exec (.linWakeSignalEnd l) s = .next (s.on (if (s.hw.lin l).waking.any (fun t => decide (t ≤ s.hw.clk)) then
      (s.hw.onLin l (fun x => { x with waking := none })).emit (.pin (.linTx l) (some true)) else s.hw))) ∧
  (∀ (s : State) (l : Nat), exec (.linWakeDetect l) s = .next (s.on (if 16 ≤ l then s.hw else if s.hw.linOn l then s.hw.linRecord l 10
      else if s.hw.domOn 43 = false ∧ s.hw.pg 3 = true then s.hw.wakeDetect (64 + l) else s.hw))) ∧
  (∀ (s : State) (w id dlc : Nat) (ide : Bool) (d : List Byte), s.hw.canwOn w = true →
      let h := s.hw.setFld (Reg.CANW_STATUS w) Fld.CANW_STATUS_ERRORS (s.hw.fld (Reg.CANW_STATUS w) Fld.CANW_STATUS_ERRORS - 1)
      h.canwMatches w id ide dlc d = false → exec (.canwMatch w id ide dlc d) s = .next (s.on h)) ∧
  (∀ (s : State) (w id dlc : Nat) (ide : Bool) (d : List Byte), s.hw.canwOn w = true →
      let h := s.hw.setFld (Reg.CANW_STATUS w) Fld.CANW_STATUS_ERRORS (s.hw.fld (Reg.CANW_STATUS w) Fld.CANW_STATUS_ERRORS - 1)
      h.canwMatches w id ide dlc d = true →
      let ws := wordsOf 2 ((d.take (min dlc 8) ++ List.replicate 8 0).take 8)
      let x := (((((h.wn (Reg.CANW_LAST w 0) (w * 2 ^ 22 + ide.toNat * 2 ^ 21 + min dlc 8)).wn (Reg.CANW_LAST w 1) (id % 2 ^ 29)).wn (Reg.CANW_LAST w 2) 0).wn
        (Reg.CANW_LAST w 3) (ws.getD 0 0)).wn (Reg.CANW_LAST w 4) (ws.getD 1 0))
      exec (.canwMatch w id ide dlc d) s = .next (s.on ((x.setFld (Reg.CANW_STATUS w) Fld.CANW_STATUS_MATCHED 1).wakeDetect w))) ∧
  (∀ (s : State) (w id dlc : Nat) (ide fd : Bool) (d : List Byte), s.hw.canwOn w = false →
      exec (.canwMatch w id ide dlc d) s = .next s ∧ exec (.canwDecodeError w fd) s = .next s) ∧
  (∀ (s : State) (w : Nat) (fd : Bool), s.hw.canwOn w = true → fd = false ∨ s.hw.flag (Reg.CANW_CFG w) Fld.CANW_CFG_FD_PASSIVE = false →
      let n := min (s.hw.fld (Reg.CANW_STATUS w) Fld.CANW_STATUS_ERRORS + 1) 63
      let h := s.hw.setFld (Reg.CANW_STATUS w) Fld.CANW_STATUS_ERRORS n
      let x := h.setFld (Reg.CANW_STATUS w) Fld.CANW_STATUS_FRAME_ERR 1
      exec (.canwDecodeError w fd) s = .next (s.on (if n = 32 then (if s.hw.flag (Reg.CANW_CFG w) Fld.CANW_CFG_ERR_WAKE then x.wakeDetect (8 + w) else x) else h))) ∧
  (∀ (s : State) (w : Nat), s.hw.flag (Reg.CANW_CFG w) Fld.CANW_CFG_FD_PASSIVE = true → exec (.canwDecodeError w true) s = .next s)

/-- R246, R256, R257, R261, R263 to R265: the rows of the fieldbus bridge. -/
def Obligations.BridgeDispatchesAndComposes : Prop :=
  (∀ (s : State) (c : Nat) (e : Nat × List Nat), s.hw.flag Reg.BRG_STATUS Fld.BRG_STATUS_READY = true → s.hw.flag Reg.BRG_CFG Fld.BRG_CFG_EN = true →
      s.hw.brgNext true = some c → s.hw.brgHead true c = some e →
      let w := (s.hw.clk - e.1) * 2
      let h := if s.hw.rn Reg.BRG_HIGH_WAIT_MAX < w then s.hw.wn Reg.BRG_HIGH_WAIT_MAX (min w 0xFFFFFFFF) else s.hw
      exec .bridgeDispatchSlot s = .next (s.on (((h.brgTake true c).onBrg (fun b => { b with hi := (c + 1) % 48 })).dispatch c e.2))) ∧
  (∀ (s : State) (c : Nat) (e : Nat × List Nat), s.hw.flag Reg.BRG_STATUS Fld.BRG_STATUS_READY = true → s.hw.flag Reg.BRG_CFG Fld.BRG_CFG_EN = true →
      s.hw.brgNext true = none → s.hw.brgNext false = some c → s.hw.brgHead false c = some e →
      exec .bridgeDispatchSlot s = .next (s.on (((s.hw.brgTake false c).onBrg (fun b => { b with lo := (c + 1) % 96 })).dispatch c e.2))) ∧
  (∀ (h : Hw) (b : Bool) (c : Nat), h.brgNext b = some c → (h.brgHead b c).isSome = true) ∧
  (∀ (s : State), (s.hw.flag Reg.BRG_STATUS Fld.BRG_STATUS_READY = false ∨ s.hw.flag Reg.BRG_CFG Fld.BRG_CFG_EN = false ∨
      (s.hw.brgNext true = none ∧ s.hw.brgNext false = none)) → exec .bridgeDispatchSlot s = .next s) ∧
  (∀ (s : State) (z : Nat) (ws : List Nat) (l : List (Nat × Nat)) (rest : List (Nat × List Nat × List (Nat × Nat))), s.hw.brg.sig = (z, ws, l) :: rest →
      let h := s.hw.onBrg (fun b => { b with sig := rest })
      let x := l.foldl (fun a p => a.sigApply (recData 5 ws) p.1 p.2) h
      exec .signalMappingApply s = .next (s.on ((h.sigTouched (recData 5 ws) l).foldl (fun a i => match kvGet a.brg.bufs i with
        | none => a
        | some b => if sigDue b (match kvGet h.brg.bufs i with | some o => o.data != b.data | none => true) a.clk then a.sigIssue i else a) x))) ∧
  (∀ (s : State), s.hw.brg.sig = [] → exec .signalMappingApply s = .next s) ∧
  (∀ (s : State) (i : Nat) (b : AsmBuf), kvGet s.hw.brg.bufs i = some b → exec (.signalPeriodicIssue i) s = .next (s.on (
      if (b.send = 2 ∨ b.send = 3) ∧ b.due ≤ s.hw.clk then
        (s.hw.onBrg (fun x => { x with bufs := kvPut x.bufs i { b with due := b.due + b.period * 500000 } })).sigIssue i else s.hw))) ∧
  (∀ (s : State) (i : Nat), kvGet s.hw.brg.bufs i = none → exec (.signalPeriodicIssue i) s = .next s) ∧
  (∀ (s : State) (k : Nat) (m : SigMap) (b : AsmBuf), kvGet s.hw.brg.maps k = some m → s.hw.mapLate m = true → kvGet s.hw.brg.bufs m.buf = some b →
      let d := (sigBits m.dst m.len m.dstBe).foldl (fun a p => setBitAt a p true) b.data
      exec (.signalTimeout k) s = .next (s.on (((s.hw.onBrg (fun x => { x with maps := kvPut x.maps k { m with out := true }, bufs := kvPut x.bufs m.buf { b with data := d } })).inc
        Reg.BRG_SIG_TIMEOUT).postMod 0x0804 k))) ∧
  (∀ (s : State) (k : Nat) (m : SigMap), kvGet s.hw.brg.maps k = some m → s.hw.mapLate m = true → kvGet s.hw.brg.bufs m.buf = none →
      exec (.signalTimeout k) s = .next (s.on (((s.hw.onBrg (fun x => { x with maps := kvPut x.maps k { m with out := true } })).inc Reg.BRG_SIG_TIMEOUT).postMod 0x0804 k))) ∧
  (∀ (s : State) (k : Nat), (kvGet s.hw.brg.maps k).all (fun m => !s.hw.mapLate m) = true → exec (.signalTimeout k) s = .next s) ∧
  ((sigBits 4 8 false).foldl (fun a p => setBitAt a p true) [0, 0, 0] = [0xF0, 0x0F, 0]) ∧
  (∀ (s : State) (src sa da : Nat) (x : TpSess), s.hw.sess? src sa da = some x → exec (.j1939TpTimeout src sa da) s = .next (s.on (
      if s.hw.sessLate x then ((s.hw.inc Reg.BRG_TP_ABORT).post 1 0x0803 x.src (x.sa * 256 + x.da) (min x.data.length x.size) 3).sessClose x else s.hw))) ∧
  (∀ (s : State) (src sa da : Nat), s.hw.sess? src sa da = none → exec (.j1939TpTimeout src sa da) s = .next s) ∧
  (∀ (s : State) (t : Nat), exec (.acfBatchTimeout t) s = .next (s.on (if s.hw.acfDue t then s.hw.acfSend t else s.hw))) ∧
  (∀ (s : State) (t : Nat) (b : Batch), kvGet s.hw.brg.batch t = some b → b.at_ + s.hw.fld (Reg.BRG_TUNNEL_TMO t) Fld.BRG_TUNNEL_TMO_TIMEOUT_US * 500 ≤ s.hw.clk →
      exec (.acfBatchTimeout t) s = .next (s.on (s.hw.acfSend t))) ∧
  (∀ (s : State), s.hw.copyAt 25 (fun _ => true) = none → exec .acfInboundFrame s = .next s) ∧
  (∀ (s : State) (f : Frame), s.hw.copyAt 25 (fun _ => true) = some f → let d := parseHdr (s.hw.readFrame f)
      (if d.etype == 0x22F0 && (be (sub d.body 0 1) == 0x82 || be (sub d.body 0 1) == 5) then s.hw.rxTunnel (be (sub d.body 4 8)) else none) = none →
      exec .acfInboundFrame s = .next (s.on ((s.hw.inc Reg.BRG_ACF_RX_MALFORMED).takeAt 25 f))) ∧
  (∀ (s : State) (f : Frame) (r : Nat), s.hw.copyAt 25 (fun _ => true) = some f → let d := parseHdr (s.hw.readFrame f)
      (if d.etype == 0x22F0 && (be (sub d.body 0 1) == 0x82 || be (sub d.body 0 1) == 5) then s.hw.rxTunnel (be (sub d.body 4 8)) else none) = some r →
      let nt := be (sub d.body 0 1) == 0x82
      let seq := if nt then be (sub d.body 3 1) else be (sub d.body 2 1)
      let n := if nt then be (sub d.body 1 2) % 2 ^ 11 else be (sub d.body 20 2)
      let body := d.body.drop (if nt then 12 else 24)
      let held := body.take (body.length - 4)
      let a := if seq = (s.hw.fld (Reg.BRG_RXTUN_CFG r) Fld.BRG_RXTUN_CFG_LAST_SEQ + 1) % 256 then s.hw else s.hw.inc Reg.BRG_ACF_RX_SEQ_GAP
      let h := a.setFld (Reg.BRG_RXTUN_CFG r) Fld.BRG_RXTUN_CFG_LAST_SEQ seq
      exec .acfInboundFrame s = .next (s.on ((if held.length < n then (h.acfTake f held).inc Reg.BRG_ACF_RX_MALFORMED else h.acfTake f (held.take n)).takeAt 25 f)))

/-- R237 to R242: RILL_DMA_MOVE, RILL_WIN_POP, RILL_POINTER_MISMATCH. -/
def Obligations.RillFifosDeliverPackets : Prop :=
  (∀ (s : State) (f q : Nat) (descs : List (List Nat)) (p : List Nat) (ps : List (List Nat)),
      s.hw.flag (Reg.FBUS_RILL_CFG f) Fld.FBUS_RILL_CFG_DIRECT = false → s.hw.rillRing f = some q → (s.hw.rill f).pkts = p :: ps → (s.hw.rill f).moving = false →
      exec (.rillDmaMove f descs) s = .next (s.on (s.hw.onRill f (fun y => { y with moving := true })))) ∧
  (∀ (s : State) (f q : Nat) (descs left : List (List Nat)) (p : List Nat) (ps : List (List Nat)) (x : Hw),
      s.hw.flag (Reg.FBUS_RILL_CFG f) Fld.FBUS_RILL_CFG_DIRECT = false → s.hw.rillRing f = some q → (s.hw.rill f).pkts = p :: ps → (s.hw.rill f).moving = true →
      s.hw.rxWrite q 1 0 ⟨bytesOf p, 0, 0, 0, 0⟩ descs = some (x, left) →
      exec (.rillDmaMove f descs) s = .next (s.on ((x.onRill f (fun y => { y with pkts := ps, read := 0, moving := false })).inc (Reg.FBUS_RILL_PKTS f)))) ∧
  (∀ (s : State) (f : Nat) (descs : List (List Nat)), (s.hw.flag (Reg.FBUS_RILL_CFG f) Fld.FBUS_RILL_CFG_DIRECT = true ∨ s.hw.rillRing f = none ∨ (s.hw.rill f).pkts = [] ∨
      ∃ q p ps, (s.hw.rill f).pkts = p :: ps ∧ s.hw.rillRing f = some q ∧ (s.hw.rill f).moving = true ∧ s.hw.rxWrite q 1 0 ⟨bytesOf p, 0, 0, 0, 0⟩ descs = none) →
      exec (.rillDmaMove f descs) s = .next s) ∧
  (∀ (s : State) (fn off en f : Nat) (p : List Nat) (ps : List (List Nat)), f < 64 → s.hw.hostReg fn off = some (0x1B9000 + 64 * f + 0x3C) →
      s.hw.flag (Reg.FBUS_RILL_CFG f) Fld.FBUS_RILL_CFG_DIRECT = true → (s.hw.rill f).pkts = p :: ps → 16 * (s.hw.rill f).read + 16 < p.length →
      ∃ t, exec (.rillWinPop fn off en) s = .next t ∧ t.hw.out = .regData off (selectBytes en (((p.drop (16 * (s.hw.rill f).read)).take 16).getD 15 0x1D1E1D1E)) :: s.hw.out ∧
        t.hw.rill f = { s.hw.rill f with read := (s.hw.rill f).read + 1 } ∧ t = s.on { s.hw with out := t.hw.out, fbus := { s.hw.fbus with rill := t.hw.fbus.rill } }) ∧
  (∀ (s : State) (fn off en f : Nat) (p : List Nat) (ps : List (List Nat)), f < 64 → s.hw.hostReg fn off = some (0x1B9000 + 64 * f + 0x3C) →
      s.hw.flag (Reg.FBUS_RILL_CFG f) Fld.FBUS_RILL_CFG_DIRECT = true → (s.hw.rill f).pkts = p :: ps → p.length ≤ 16 * (s.hw.rill f).read + 16 →
      ∃ t, exec (.rillWinPop fn off en) s = .next t ∧ (t.hw.rill f).pkts = ps ∧ (t.hw.rill f).read = 0 ∧
        t.hw.rn (Reg.FBUS_RILL_PKTS f) = min (s.hw.rn (Reg.FBUS_RILL_PKTS f) + 1) 0xFFFFFFFF) ∧
  (∀ (s : State) (fn off en f : Nat), f < 64 → s.hw.hostReg fn off = some (0x1B9000 + 64 * f + 0x3C) →
      (s.hw.flag (Reg.FBUS_RILL_CFG f) Fld.FBUS_RILL_CFG_DIRECT = false ∨ (s.hw.rill f).pkts = []) →
      exec (.rillWinPop fn off en) s = .next (s.on (s.hw.answer off en 0x1D1E1D1E))) ∧
  (∀ (s : State) (fn off en : Nat), (∀ f, f < 64 → s.hw.hostReg fn off ≠ some (0x1B9000 + 64 * f + 0x3C)) → exec (.rillWinPop fn off en) s = .next s) ∧
  (∀ (s : State) (f : Nat) (descs : List (List Nat)), (s.hw.rill f).moving = false →
      exec (.rillPointerMismatch f descs) s = .next (s.on ((((s.hw.onRill f (fun _ => ⟨[], 0, false, s.hw.clk + 8⟩)).add (Reg.FBUS_RILL_RESET_LOST f) (s.hw.rill f).pkts.length).inc
        (Reg.FBUS_RILL_RESET f)).post 1 0x0706 f (s.hw.rill f).pkts.length))) ∧
  (∀ (s : State) (f q : Nat) (descs : List (List Nat)), (s.hw.rill f).moving = true → s.hw.rillRing f = some q →
      let x := match s.hw.rxWrite q 1 1 ⟨bytesOf ((s.hw.rill f).pkts.headD []), 0, 0, 0, 0⟩ descs with | some (y, _) => y | none => s.hw
      exec (.rillPointerMismatch f descs) s = .next (s.on ((((x.onRill f (fun _ => ⟨[], 0, false, x.clk + 8⟩)).add (Reg.FBUS_RILL_RESET_LOST f) (s.hw.rill f).pkts.length).inc
        (Reg.FBUS_RILL_RESET f)).post 1 0x0706 f (s.hw.rill f).pkts.length))) ∧
  (∀ (s : State) (f : Nat) (descs : List (List Nat)), (s.hw.rill f).moving = true → s.hw.rillRing f = none →
      exec (.rillPointerMismatch f descs) s = .next (s.on ((((s.hw.onRill f (fun _ => ⟨[], 0, false, s.hw.clk + 8⟩)).add (Reg.FBUS_RILL_RESET_LOST f) (s.hw.rill f).pkts.length).inc
        (Reg.FBUS_RILL_RESET f)).post 1 0x0706 f (s.hw.rill f).pkts.length)))

/-- R275 to R278: TIME_TB_SET, TIME_TB_STEP, TIME_TB_ADJ, TIME_TB_LOCK, TIME_TB_UNLOCK, TIME_TB_COMMIT. -/
def Obligations.TimeCommandsWaitAndCommit : Prop :=
  (∀ (s : State) (fn b : Nat) (neg : Bool), b < 8 → s.hw.hostReg fn (Reg.TIME_TB_CMD b) = some (Reg.TIME_TB_CMD b) →
      s.hw.flag (Reg.TIME_TB_CMD_STATUS b) Fld.TIME_TB_CMD_STATUS_BUSY = false →
      let o : Nat → TbOp := fun op => ⟨op, neg, s.hw.rn (Reg.TIME_TB_WR_SEC_HI b) % 2 ^ 16 * 2 ^ 32 + s.hw.rn (Reg.TIME_TB_WR_SEC_LO b),
        s.hw.rn (Reg.TIME_TB_WR_NS b) % 2 ^ 30, s.hw.rn (Reg.TIME_TB_WR_ADJ_HI b) % 256 * 2 ^ 32 + s.hw.rn (Reg.TIME_TB_WR_ADJ_LO b),
        s.hw.flag (Reg.TIME_TB_CTRL b) Fld.TIME_TB_CTRL_HOST_WR, none⟩
      let t : Nat → State := fun op => s.on ((s.hw.setFld (Reg.TIME_TB_CMD_STATUS b) Fld.TIME_TB_CMD_STATUS_BUSY 1).onTime
        (fun t => { t with hostOp := kvPut t.hostOp b (o op) }))
      exec (.timeTbSet fn b neg) s = .next (t 1) ∧ exec (.timeTbStep fn b neg) s = .next (t 2) ∧ exec (.timeTbAdj fn b neg) s = .next (t 3) ∧
      exec (.timeTbLock fn b neg) s = .next (t 4) ∧ exec (.timeTbUnlock fn b neg) s = .next (t 5)) ∧
  (∀ (s : State) (fn b : Nat) (neg : Bool), s.hw.flag (Reg.TIME_TB_CMD_STATUS b) Fld.TIME_TB_CMD_STATUS_BUSY = true →
      exec (.timeTbSet fn b neg) s = .next s ∧ exec (.timeTbStep fn b neg) s = .next s ∧ exec (.timeTbAdj fn b neg) s = .next s ∧
      exec (.timeTbLock fn b neg) s = .next s ∧ exec (.timeTbUnlock fn b neg) s = .next s) ∧
  (∀ (s : State) (fn b : Nat) (neg : Bool), (8 ≤ b ∨ s.hw.hostReg fn (Reg.TIME_TB_CMD b) ≠ some (Reg.TIME_TB_CMD b)) →
      exec (.timeTbSet fn b neg) s = .next s ∧ exec (.timeTbStep fn b neg) s = .next s ∧ exec (.timeTbAdj fn b neg) s = .next s ∧
      exec (.timeTbLock fn b neg) s = .next s ∧ exec (.timeTbUnlock fn b neg) s = .next s) ∧
  (∀ (s : State) (b : Nat) (o : TbOp), b < 8 → s.hw.pg 49 = true → kvGet s.hw.tim.fwOp b = none → kvGet s.hw.tim.hostOp b = some o →
      let r := (s.hw.onTime (fun t => { t with hostOp := kvDel t.hostOp b })).tbDo b o
      exec (.timeTbCommit b) s = .next (s.on (r.2.wn (Reg.TIME_TB_CMD_STATUS b) r.1))) ∧
  (∀ (s : State) (b : Nat) (o : TbOp), b < 8 → s.hw.pg 49 = true → kvGet s.hw.tim.fwOp b = some o →
      let r := (s.hw.onTime (fun t => { t with fwOp := kvDel t.fwOp b })).tbDo b o
      exec (.timeTbCommit b) s = .next (s.on (match o.slot with
        | none => r.2
        | some k => if r.1 = 0 then r.2.complete k cOk 0 [] else r.2.complete k cTimeResult r.1 []))) ∧
  (∀ (s : State) (b : Nat), (8 ≤ b ∨ s.hw.pg 49 = false ∨ (kvGet s.hw.tim.fwOp b = none ∧ kvGet s.hw.tim.hostOp b = none)) →
      exec (.timeTbCommit b) s = .next s) ∧
  (∀ (h : Hw) (b : Nat) (o : TbOp), h.tbResult b o =
      if o.access = false then 5
      else if (o.op = 1 ∨ o.op = 2) ∧ 2 ≤ h.tbState b then 1
      else if o.op = 3 ∧ 3 ≤ h.tbState b then 3
      else if o.op = 4 ∧ h.tbState b ≠ 1 then 4
      else if (o.op = 1 ∨ o.op = 2) ∧ 1000000000 ≤ o.ns then 2
      else if o.op = 2 ∧ o.neg = true ∧ h.tbRaw b < (o.sec * 1000000000 + o.ns) * 2 ^ 47 then 2
      else if o.op = 3 ∧ 281474976710 < (adjInt o.adj).natAbs then 2 else 0) ∧
  (∀ (s : State) (b : Nat) (o : TbOp), b < 8 → s.hw.pg 49 = true → kvGet s.hw.tim.fwOp b = none → kvGet s.hw.tim.hostOp b = some o → o.access = true →
      o.op = 1 ∨ o.op = 2 → 2 ≤ s.hw.tbState b →
      exec (.timeTbCommit b) s = .next (s.on (((s.hw.onTime (fun t => { t with hostOp := kvDel t.hostOp b })).inc (Reg.TIME_TB_STEP_REFUSED b)).wn (Reg.TIME_TB_CMD_STATUS b) 1))) ∧
  (∀ (s : State) (b : Nat) (o : TbOp), b < 8 → s.hw.pg 49 = true → kvGet s.hw.tim.fwOp b = none → kvGet s.hw.tim.hostOp b = some o → o.access = true →
      s.hw.tbState b = 1 → (adjInt o.adj).natAbs ≤ 281474976710 →
      let h := s.hw.onTime (fun t => { t with hostOp := kvDel t.hostOp b })
      (o.op = 4 → exec (.timeTbCommit b) s = .next (s.on ((h.setTbState b 2).wn (Reg.TIME_TB_CMD_STATUS b) 0))) ∧
      (o.op = 3 → exec (.timeTbCommit b) s = .next (s.on ((h.setAdj b o.adj).wn (Reg.TIME_TB_CMD_STATUS b) 0))) ∧
      (o.op = 5 → exec (.timeTbCommit b) s = .next (s.on (h.wn (Reg.TIME_TB_CMD_STATUS b) 0))))

/-- R280, R287, R289, R291 to R293, R466, R467, R470. -/
def Obligations.TimeReadsPulsesAndCaptures : Prop :=
  (∀ (s : State) (fn b en : Nat), b < 8 → s.hw.hostReg fn (Reg.TIME_TB_NS b) = some (Reg.TIME_TB_NS b) →
      ∃ t, exec (.timeTbNsRead fn (Reg.TIME_TB_NS b) en) s = .next t ∧
        t.hw.out = .regData (Reg.TIME_TB_NS b) (selectBytes en (s.hw.tbNs b % 1000000000)) :: s.hw.out ∧
        kvGet t.hw.tim.shadow (fn * 8 + b) = some (s.hw.tbNs b / 1000000000, s.hw.tbRaw b % 2 ^ 47 / 2 ^ 15) ∧
        (∀ k, k ≠ fn * 8 + b → kvGet t.hw.tim.shadow k = kvGet s.hw.tim.shadow k) ∧
        t = s.on { s.hw with out := t.hw.out, tim := { s.hw.tim with shadow := t.hw.tim.shadow } }) ∧
  (∀ (s : State) (fn off en : Nat), (∀ b, b < 8 → s.hw.hostReg fn off ≠ some (Reg.TIME_TB_NS b)) → exec (.timeTbNsRead fn off en) s = .next s) ∧
  (∀ (s : State) (fn m en : Nat) (e : TxTs) (es : List TxTs), m < 24 → s.hw.hostReg fn (0x200C00 + 16 * m + 12) = some (0x200C00 + 16 * m + 12) →
      s.hw.txtsSees fn m = true → kvGetD s.hw.tim.txts m [] = e :: es →
      ∃ t, exec (.txtsW3Read fn (0x200C00 + 16 * m + 12) en) s = .next t ∧ kvGetD t.hw.tim.txts m [] = es ∧
        t.hw.out = .regData (0x200C00 + 16 * m + 12) (selectBytes en (e.sec / 2 ^ 32 % 2 ^ 16)) :: s.hw.out ∧
        t = s.on { s.hw with out := t.hw.out, tim := { s.hw.tim with txts := t.hw.tim.txts } }) ∧
  (∀ (s : State) (fn m en : Nat), m < 24 → s.hw.hostReg fn (0x200C00 + 16 * m + 12) = some (0x200C00 + 16 * m + 12) →
      s.hw.txtsHead fn m = none → exec (.txtsW3Read fn (0x200C00 + 16 * m + 12) en) s = .next (s.on (s.hw.answer (0x200C00 + 16 * m + 12) en 0))) ∧
  (∀ (s : State) (fn off en : Nat), (∀ b, b < 24 → s.hw.hostReg fn off ≠ some (0x200C00 + 16 * b + 12)) → exec (.txtsW3Read fn off en) s = .next s) ∧
  (∀ (s : State) (fn c en : Nat), c < 8 → s.hw.hostReg fn (Reg.TIME_CAP_NS c) = some (Reg.TIME_CAP_NS c) →
      ∃ t, exec (.capNsRead fn (Reg.TIME_CAP_NS c) en) s = .next t ∧ t.hw.capFifo c = (s.hw.capFifo c).drop 1 ∧
        t.hw.out = .regData (Reg.TIME_CAP_NS c) (selectBytes en ((s.hw.capFifo c).headD (0, 0)).2) :: s.hw.out ∧
        t = s.on { s.hw with out := t.hw.out, tim := { s.hw.tim with cap := t.hw.tim.cap } }) ∧
  (∀ (s : State) (fn off en : Nat), (∀ b, b < 8 → s.hw.hostReg fn off ≠ some (Reg.TIME_CAP_NS b)) → exec (.capNsRead fn off en) s = .next s) ∧
  (∀ (s : State) (b : Nat), exec (.epochSecond b) s = .next (s.on (
      if b < 8 ∧ s.hw.secondDue b = true then (s.hw.epochQueues b).foldl (fun a o => a.postEpoch o b)
        (s.hw.onTime (fun t => { t with epochAt := kvPut t.epochAt b (s.hw.tbNs b / 1000000000) })) else s.hw))) ∧
  (∀ (s : State) (p d x : Nat), p < 8 → s.hw.flag (Reg.TIME_PULSE_CFG p) Fld.TIME_PULSE_CFG_EN = true → s.hw.pulse p = ⟨false, false, none, d, x⟩ → d ≤ s.hw.tbNs (s.hw.pulseTb p) →
      exec (.pulseEdge p) s = .next (s.on (((s.hw.setPulse p ⟨true, true, none, s.hw.pulseFrom p (s.hw.tbNs (s.hw.pulseTb p) + 1),
        s.hw.runRaw (s.hw.pulseTb p) / nsUnit + s.hw.rn (Reg.TIME_PULSE_WIDTH p)⟩).pulsePin p true).fire [32 + p]))) ∧
  (∀ (s : State) (p : Nat), p < 8 → s.hw.flag (Reg.TIME_PULSE_CFG p) Fld.TIME_PULSE_CFG_EN = true → (s.hw.pulse p).asserted = false → (s.hw.pulse p).due ≤ s.hw.tbNs (s.hw.pulseTb p) →
      let h := s.hw.pulseBoundary p
      exec (.pulseEdge p) s = .next (s.on (
        if h.flag (Reg.TIME_PULSE_CFG p) Fld.TIME_PULSE_CFG_EN = false ∨ h.tbNs (h.pulseTb p) < (h.pulse p).due then h
        else if h.flag (Reg.TIME_PULSE_CFG p) Fld.TIME_PULSE_CFG_PERIODIC = true ∨ (h.pulse p).fired = false then h.pulseAssert p else h))) ∧
  (∀ (s : State) (p d x : Nat) (f : Bool), p < 8 → s.hw.flag (Reg.TIME_PULSE_CFG p) Fld.TIME_PULSE_CFG_EN = true → s.hw.pulse p = ⟨true, f, none, d, x⟩ → x ≤ s.hw.runRaw (s.hw.pulseTb p) / nsUnit →
      exec (.pulseEdge p) s = .next (s.on ((s.hw.setPulse p ⟨false, f, none, d, x⟩).pulsePin p false))) ∧
  (∀ (s : State) (p : Nat), p < 8 → s.hw.flag (Reg.TIME_PULSE_CFG p) Fld.TIME_PULSE_CFG_EN = true → (s.hw.pulse p).asserted = true → (s.hw.pulse p).off ≤ s.hw.runRaw (s.hw.pulseTb p) / nsUnit →
      let h := (s.hw.setPulse p { s.hw.pulse p with asserted := false }).pulsePin p false
      exec (.pulseEdge p) s = .next (s.on (
        if h.flag (Reg.TIME_PULSE_CFG p) Fld.TIME_PULSE_CFG_PERIODIC = false ∧ (s.hw.pulse p).next ≠ none then h.pulseNow p else h))) ∧
  (∀ (s : State) (p : Nat), (8 ≤ p ∨ s.hw.flag (Reg.TIME_PULSE_CFG p) Fld.TIME_PULSE_CFG_EN = false ∨
      ((s.hw.pulse p).asserted = true ∧ s.hw.runRaw (s.hw.pulseTb p) / nsUnit < (s.hw.pulse p).off) ∨
      ((s.hw.pulse p).asserted = false ∧ s.hw.tbNs (s.hw.pulseTb p) < (s.hw.pulse p).due)) → exec (.pulseEdge p) s = .next s) ∧
  (∀ (s : State) (c : Nat) (up : Bool), c < 8 → s.hw.flag (Reg.TIME_CAP_CFG c) Fld.TIME_CAP_CFG_EN = true →
      (s.hw.fld (Reg.TIME_CAP_CFG c) Fld.TIME_CAP_CFG_EDGE).testBit (if up then 0 else 1) = true →
      (∀ t, kvGet s.hw.tim.capLast c = some t → t + 8 ≤ s.hw.clk) →
      exec (.captureEdge c up) s = .next (s.on ((s.hw.onTime (fun t => { t with capLast := kvPut t.capLast c s.hw.clk })).capture c 4))) ∧
  (∀ (s : State) (c : Nat) (up : Bool), c < 8 → s.hw.flag (Reg.TIME_CAP_CFG c) Fld.TIME_CAP_CFG_EN = true →
      (s.hw.fld (Reg.TIME_CAP_CFG c) Fld.TIME_CAP_CFG_EDGE).testBit (if up then 0 else 1) = true →
      ∀ t, kvGet s.hw.tim.capLast c = some t → s.hw.clk < t + 8 →
      exec (.captureEdge c up) s = .next (s.on (s.hw.onTime (fun t => { t with capLast := kvPut t.capLast c s.hw.clk })))) ∧
  (∀ (s : State) (c : Nat) (up : Bool), (8 ≤ c ∨ s.hw.fld (Reg.TIME_CAP_CFG c) Fld.TIME_CAP_CFG_EN = 0 ∨
      (s.hw.fld (Reg.TIME_CAP_CFG c) Fld.TIME_CAP_CFG_EDGE).testBit (if up then 0 else 1) = false) → exec (.captureEdge c up) s = .next s) ∧
  (∀ (s : State) (c : Nat) (up : Bool), c < 8 → s.hw.flag (Reg.TIME_CAP_CFG c) Fld.TIME_CAP_CFG_EN = true →
      (s.hw.fld (Reg.TIME_CAP_CFG c) Fld.TIME_CAP_CFG_EDGE).testBit (if up then 0 else 1) = true →
      kvGet s.hw.tim.capLast c = none → 16 ≤ (s.hw.capFifo c).length →
      exec (.captureEdge c up) s = .next (s.on (((s.hw.onTime (fun t => { t with capLast := kvPut t.capLast c s.hw.clk })).setFld (Reg.TIME_CAP_STATUS c)
        Fld.TIME_CAP_STATUS_OVF 1).inc (Reg.TIME_CAP_LOST c)))) ∧
  (∀ (s : State) (p : Nat) (r : TaskRun), p < 8 → s.hw.taskRun? (24 + p) = some r →
      let h : Hw := { s.hw with tasks := dropRun s.hw.tasks (24 + p) }
      exec (.pulseFireTask p) s = .next (s.on ((if getF (h.rn (Reg.TIME_PULSE_CFG p)) Fld.TIME_PULSE_CFG_EN = 1 ∧ getF (h.rn (Reg.TIME_PULSE_CFG p)) Fld.TIME_PULSE_CFG_PERIODIC = 0 ∧ (h.pulse p).fired = false then h.pulseAssert p else h).taskRecord r))) ∧
  (∀ (s : State) (c : Nat) (r : TaskRun), c < 8 → s.hw.taskRun? (32 + c) = some r →
      let h : Hw := { s.hw with tasks := dropRun s.hw.tasks (32 + c) }
      exec (.captureSoftTask c) s = .next (s.on ((if h.flag (Reg.TIME_CAP_CFG c) Fld.TIME_CAP_CFG_EN then h.capture c 0 else h).taskRecord r))) ∧
  (∀ (s : State) (k : Nat) (r : TaskRun), k < 64 → s.hw.taskRun? (40 + k) = some r → s.hw.fld (Reg.EVF_TASK_CFG (40 + k)) Fld.EVF_TASK_CFG_OWNER = 1 →
      exec (.recordTask k) s = .next (s.on (({ s.hw with tasks := dropRun s.hw.tasks (40 + k) } : Hw).taskRecordTo 1 r))) ∧
  (∀ (s : State) (k : Nat) (r : TaskRun), k < 64 → s.hw.taskRun? (40 + k) = some r →
      let h : Hw := { s.hw with tasks := dropRun s.hw.tasks (40 + k) }
      exec (.recordTask k) s = .next (s.on ((h).taskRecord r))) ∧
  (∀ (s : State) (k : Nat), s.hw.tasks = [] → exec (.pulseFireTask k) s = .next s ∧ exec (.captureSoftTask k) s = .next s ∧ exec (.recordTask k) s = .next s) ∧
  (∀ (s : State) (v : Nat), exec (.evfSwFireWrite v) s = .next (s.on (if s.hw.pg 5 then s.hw.fire ((bitsOf 4 v).map (108 + ·)) else s.hw)))

/-- R294 to R296. The rate of a holdover without a sample of 64 s before is the model's free value (log entry 3); that the supervisor's steps need the control firmware is the model's reading of R297. -/
def Obligations.SupervisorHoldsOverAndSlews : Prop :=
  (∀ (s : State) (b : Nat), b < 8 → s.hw.tbState b = 2 → s.hw.fwRuns = true → s.hw.sampleDue b = true →
      suspectCause ((adjInt (s.hw.adj b) :: s.hw.samples b).take 65) = 0 → exec (.supervisorSample b) s = .next (s.on (s.hw.onTime (fun t => { t with corr := kvPut t.corr b ((adjInt (s.hw.adj b) :: s.hw.samples b).take 65), supAt := kvPut t.supAt b s.hw.clk })))) ∧
  (∀ (s : State) (b c : Nat), b < 8 → s.hw.tbState b = 2 → s.hw.fwRuns = true → s.hw.sampleDue b = true →
      suspectCause ((adjInt (s.hw.adj b) :: s.hw.samples b).take 65) = c + 1 →
      let h := s.hw.onTime (fun t => { t with corr := kvPut t.corr b ((adjInt (s.hw.adj b) :: s.hw.samples b).take 65), supAt := kvPut t.supAt b s.hw.clk })
      exec (.supervisorSample b) s = .next (s.on (match ((adjInt (s.hw.adj b) :: s.hw.samples b).take 65)[64]? with
        | some r => h.holdover b (c + 1) r
        | none => h.drawn.holdover b (c + 1) h.freeRate))) ∧
  (∀ (s : State) (b : Nat), (8 ≤ b ∨ s.hw.tbState b ≠ 2 ∨ s.hw.fwRuns = false ∨ s.hw.sampleDue b = false) → exec (.supervisorSample b) s = .next s) ∧
  (∀ (c : Int) (l : List Int), suspectCause (c :: l) = if 100 * 2 ^ 48 < c.natAbs * 1000000 then 1
      else match l[63]? with | some o => if 32 * 2 ^ 48 < (c - o).natAbs * 1000000 then 2 else 0 | none => 0) ∧
  (∀ (s : State) (b : Nat), b < 8 → s.hw.tbState b = 2 → s.hw.fwRuns = true → exec (.sourceLossHoldover b) s = .next (s.on (match s.hw.samples b with
      | c :: _ => s.hw.holdover b 3 c
      | [] => s.hw.drawn.holdover b 3 s.hw.freeRate))) ∧
  (∀ (s : State) (b : Nat), b < 8 → s.hw.tbState b = 4 → s.hw.fwRuns = true → exec (.sourceLossHoldover b) s = .next (s.on (
      s.hw.holdover b 3 (adjInt (s.hw.rn (Reg.TIME_TB_HOLD_ADJ_HI b) % 256 * 2 ^ 32 + s.hw.rn (Reg.TIME_TB_HOLD_ADJ_LO b)))))) ∧
  (∀ (s : State) (b : Nat), (8 ≤ b ∨ s.hw.fwRuns = false ∨ (s.hw.tbState b ≠ 2 ∧ s.hw.tbState b ≠ 4)) → exec (.sourceLossHoldover b) s = .next s) ∧
  (∀ (s : State) (b : Nat) (pr alt : Bool) (off fs : Int), b < 8 → s.hw.tbState b = 3 → s.hw.fwRuns = true → s.hw.tim.blocked.contains b = false →
      pr = true ∨ (alt = true ∧ kvGet s.hw.tim.alt b ≠ none) → off.natAbs ≤ s.hw.rn (Reg.TIME_TB_SLEW_LIMIT b) →
      exec (.slewUpdate b pr alt off fs) s = .next (s.on (((s.hw.onTime (fun t => { t with onAlt := if pr then without t.onAlt b else insertNew t.onAlt b, nearAt := kvDel t.nearAt b })).setTbState
        b 4).slew b off fs))) ∧
  (∀ (s : State) (b : Nat) (pr alt : Bool) (off fs : Int), b < 8 → s.hw.tbState b = 3 → s.hw.fwRuns = true → s.hw.tim.blocked.contains b = false →
      pr = true ∨ (alt = true ∧ kvGet s.hw.tim.alt b ≠ none) → s.hw.rn (Reg.TIME_TB_SLEW_LIMIT b) < off.natAbs →
      exec (.slewUpdate b pr alt off fs) s = .next (s.on ((s.hw.onTime (fun t => { t with blocked := insertNew t.blocked b })).postG 6 b 0x0A08 b (satInt32 off)))) ∧
  (∀ (s : State) (b : Nat) (pr alt : Bool) (off fs : Int), b < 8 → s.hw.tbState b = 4 → s.hw.fwRuns = true →
      exec (.slewUpdate b pr alt off fs) s = .next (s.on (s.hw.slew b off fs))) ∧
  (∀ (s : State) (b : Nat) (pr alt : Bool) (off fs : Int), (8 ≤ b ∨ s.hw.fwRuns = false ∨ (s.hw.tbState b ≠ 3 ∧ s.hw.tbState b ≠ 4) ∨
      (s.hw.tbState b = 3 ∧ (s.hw.tim.blocked.contains b = true ∨ (pr = false ∧ (alt = false ∨ kvGet s.hw.tim.alt b = none))))) →
      exec (.slewUpdate b pr alt off fs) s = .next s) ∧
  (∀ (s : State) (b n : Nat), b < 8 → s.hw.tbState b = 4 → s.hw.fwRuns = true → kvGet s.hw.tim.nearAt b = some n → n + 8000000000 ≤ s.hw.clk →
      let h := (s.hw.setTbState b 2).setFld (Reg.TIME_TB_STATE b) Fld.TIME_TB_STATE_SUSPECT 0
      exec (.timeRelock b) s = .next (s.on ((h.onTime (fun t => { t with corr := kvDel t.corr b, nearAt := kvDel t.nearAt b })).postG 6 b 0x0A07 b
        (if h.tim.onAlt.contains b then 1 else 0)))) ∧
  (∀ (s : State) (b : Nat), (8 ≤ b ∨ s.hw.tbState b ≠ 4 ∨ s.hw.fwRuns = false ∨ (kvGet s.hw.tim.nearAt b).all (fun n => decide (s.hw.clk < n + 8000000000)) = true) →
      exec (.timeRelock b) s = .next s)

/-- R301, R302, R303, R306, R457. -/
def Obligations.HostFunctionsComeAndGo : Prop :=
  (∀ s : State, exec .perstDeassert s = .next (s.on { s.hw with hdma := { s.hw.hdma with perst := false } })) ∧
  (∀ s : State, exec .pcieLinkUp s = .next (s.on (
      if s.hw.pg 46 = true ∧ s.hw.hdma.perst = false then { s.hw with hdma := { s.hw.hdma with linkUp := true } } else s.hw))) ∧
  (∀ s : State, s.hw.pg 46 = true → s.hw.hdma.linkUp = true → kvGet s.hw.own.tear 2 = none →
      exec .hdmaReady s = .next (s.on ((s.hw.createOwner 2).setReady Reg.HDMA_STATUS Fld.HDMA_STATUS_READY 10))) ∧
  (∀ s : State, (s.hw.pg 46 = false ∨ s.hw.hdma.linkUp = false ∨ kvGet s.hw.own.tear 2 ≠ none) → exec .hdmaReady s = .next s) ∧
  (∀ s : State, s.hw.hdma.linkUp = true →
      ∃ t, exec .pcieLinkDown s = .next (s.on t) ∧ exec .pcieHotReset s = .next (s.on t) ∧
        t.hdma.linkUp = false ∧ t.hdma.waiting = [] ∧ t.hdma.flight = [] ∧
        t = Hw.clrReady (s.hw.hostDown.onHdma (fun d => { d with linkUp := false, waiting := [], flight := [] }))
          Reg.HDMA_STATUS Fld.HDMA_STATUS_READY 10) ∧
  (∀ s : State, s.hw.hdma.linkUp = false → exec .pcieLinkDown s = .next s ∧ exec .pcieHotReset s = .next s ∧ exec .flrPf s = .next s) ∧
  (∀ s : State, s.hw.hdma.linkUp = true →
      let x := (s.hw.keepVfs 0).onHdma (fun d => { d with fn := [] })
      x.fwLife = true → x.own.active.contains 2 = true → kvGet x.own.tear 2 = none → x.inFlight 2 = [] →
      ∃ t, exec .flrPf s = .next (s.on t) ∧ t = x.tearStart 2 true ∧ kvGet t.own.tear 2 = some ⟨0, 0, false, true⟩) ∧
  (∀ s : State, s.hw.hdma.linkUp = true → exec .flrPf s = .next (s.on (((s.hw.keepVfs 0).onHdma (fun d => { d with fn := [] })).tearStart 2 true))) ∧
  (∀ (s : State) (vf : Nat), 1 ≤ vf → vf ≤ s.hw.hdma.numVfs → s.hw.fwLife = true → s.hw.own.active.contains (vf + 2) = true → kvGet s.hw.own.tear (vf + 2) = none →
      s.hw.inFlight (vf + 2) = [] →
      ∃ t, exec (.flrVf vf) s = .next (s.on t) ∧ kvGet t.own.tear (vf + 2) = some ⟨0, 0, false, true⟩ ∧
        t = (s.hw.onHdma (fun d => { d with fn := kvDel d.fn (vf + 2) })).tearStart (vf + 2) true) ∧
  (∀ (s : State) (vf : Nat), exec (.flrVf vf) s = .next (s.on (
      if 1 ≤ vf ∧ vf ≤ s.hw.hdma.numVfs then (s.hw.onHdma (fun d => { d with fn := kvDel d.fn (vf + 2) })).tearStart (vf + 2) true else s.hw))) ∧
  (∀ (s : State) (n : Nat), s.hw.hdma.linkUp = true → n ≤ s.hw.totalVfs →
      let x := (s.hw.vfOwners.filter (fun o => decide (n + 2 < o))).foldl (fun a o => a.tearStart o true)
        (s.hw.onHdma (fun d => { d with numVfs := n, fn := d.fn.filter (fun e => decide (e.1 ≤ n + 2)) }))
      exec (.vfEnable n) s = .next (s.on (if x.flag Reg.MBX_STATUS Fld.MBX_STATUS_READY then
        (List.range x.hdma.numVfs).foldl (fun a i => a.enableOwner (3 + i)) x else x))) ∧
  (∀ (s : State) (n : Nat), s.hw.hdma.linkUp = false ∨ s.hw.totalVfs < n → exec (.vfEnable n) s = .next s) ∧
  (∀ (s : State), exec (.vfDisable) s = .next (s.on (
      (s.hw.vfOwners.filter (fun o => decide (0 + 2 < o))).foldl (fun a o => a.tearStart o true)
      (s.hw.onHdma (fun d => { d with numVfs := 0, fn := d.fn.filter (fun e => decide (e.1 ≤ 0 + 2)) }))))) ∧
  (∀ (s : State) (fn mrrs tags : Nat) (on relaxed ari : Bool), fn < 256 → s.hw.hdma.linkUp = true →
      let h := s.hw.onHdma (fun d => { d with fn := kvPut d.fn (fnOwner fn) ⟨on, relaxed, mrrs⟩ })
      (fn = 0 → exec (.busMasterChange fn mrrs tags on relaxed ari) s = .next (s.on ((h.onHdma (fun d => { d with ari := ari })).setFld
        Reg.HDMA_STATUS Fld.HDMA_STATUS_TAG_MODE (min tags 2)))) ∧
      (fn ≠ 0 → exec (.busMasterChange fn mrrs tags on relaxed ari) s = .next (s.on h))) ∧
  (∀ (s : State) (fn mrrs tags : Nat) (on relaxed ari : Bool), (256 ≤ fn ∨ s.hw.hdma.linkUp = false) → exec (.busMasterChange fn mrrs tags on relaxed ari) s = .next s) ∧
  (∀ (s : State) (fn vec : Nat), vec < s.hw.vectorCount (fnOwner fn) → kvGetD s.hw.hdma.msixPba (fnOwner fn * 2048 + vec) false = true →
      ∃ t, exec (.msixUnmask fn vec) s = .next (s.on t) ∧ t.out = .msix (fnOwner fn) vec :: s.hw.out ∧
        kvGet t.hdma.msixPba (fnOwner fn * 2048 + vec) = none ∧ (t.msixWord (fnOwner fn) (vec * 4 + 3)).testBit 0 = false) ∧
  (∀ (s : State) (fn vec : Nat), exec (.msixUnmask fn vec) s = .next (s.on (
      let o := fnOwner fn
      if (vec * 4 + 3) / 4 < s.hw.vectorCount o then (s.hw.onHdma (fun d => { d with msixTbl := kvPut d.msixTbl (o * 8192 + (vec * 4 + 3)) (s.hw.msixWord o (vec * 4 + 3) / 2 * 2) })).unmask o ((vec * 4 + 3) / 4) else s.hw)))

/-- R308, R309, R318. -/
def Obligations.HostRingsAreCommandedAndStop : Prop :=
  (∀ (s : State) (fn off val r : Nat), r < 2048 → s.hw.hostReg fn off = some (0x60000 + 0x40 * r + 0x0C) →
      let new := ringWork (s.hw.txHead r) (val % 65536)
      let size := 2 ^ s.hw.fld (Reg.HDMA_Q_CTRL r) Fld.HDMA_Q_CTRL_TX_LOG2
      (new ≤ size → ringWork (s.hw.txHead r) (s.hw.txTail r) ≤ new →
        exec (.txqTailWrite fn off 15 val) s = .next (s.on (s.hw.wn (Reg.HDMA_TXQ_TAIL r) (val % 65536)))) ∧
      (size < new ∨ new < ringWork (s.hw.txHead r) (s.hw.txTail r) → exec (.txqTailWrite fn off 15 val) s = .next (s.on (s.hw.inc Reg.HDMA_BAD_TAIL)))) ∧
  (∀ (s : State) (fn off val r : Nat), r < 2048 → s.hw.hostReg fn off = some (0x60000 + 0x40 * r + 0x1C) →
      let h := s.hw.holdExpire r
      let new := ringWork (h.rxHead r) (val % 65536)
      let size := 2 ^ h.fld (Reg.HDMA_Q_CTRL r) Fld.HDMA_Q_CTRL_RX_LOG2
      let x := h.wn (Reg.HDMA_RXQ_TAIL r) (val % 65536)
      (new ≤ size → ringWork (h.rxHead r) (h.rxTail16 r) ≤ new →
        exec (.rxqTailWrite fn off 15 val) s = .next (s.on (if x.flag (Reg.HDMA_Q_STATUS r) Fld.HDMA_Q_STATUS_DIVERT = true ∧ 1 ≤ x.rxFree r then x.endDivert r else x))) ∧
      (size < new ∨ new < ringWork (h.rxHead r) (h.rxTail16 r) → exec (.rxqTailWrite fn off 15 val) s = .next (s.on (h.inc Reg.HDMA_BAD_TAIL)))) ∧
  (∀ (s : State) (fn off val r : Nat), r < 2048 → s.hw.hostReg fn off = some (0x60000 + 0x40 * r) →
      4 ≤ getF val Fld.HDMA_Q_CTRL_TX_LOG2 → 4 ≤ getF val Fld.HDMA_Q_CTRL_RX_LOG2 →
      ∃ t, t = s.hw.qCtrlWrite r val ∧
        (val.testBit 31 = true → exec (.txEnSet fn off 15 val) s = .next (s.on t)) ∧ (val.testBit 31 = false → exec (.txEnClear fn off 15 val) s = .next (s.on t)) ∧
        (val.testBit 30 = true → exec (.rxEnSet fn off 15 val) s = .next (s.on t)) ∧ (val.testBit 30 = false → exec (.rxEnClear fn off 15 val) s = .next (s.on t))) ∧
  (∀ (s : State) (fn off val r : Nat), r < 2048 → s.hw.hostReg fn off = some (0x60000 + 0x40 * r) →
      getF val Fld.HDMA_Q_CTRL_TX_LOG2 < 4 ∨ getF val Fld.HDMA_Q_CTRL_RX_LOG2 < 4 →
      exec (.txEnSet fn off 15 val) s = .next s ∧ exec (.txEnClear fn off 15 val) s = .next s ∧
      exec (.rxEnSet fn off 15 val) s = .next s ∧ exec (.rxEnClear fn off 15 val) s = .next s) ∧
  (∀ (s : State) (fn off en val : Nat),
      (val.testBit 31 = false → exec (.txEnSet fn off en val) s = .next s) ∧ (val.testBit 31 = true → exec (.txEnClear fn off en val) s = .next s) ∧
      (val.testBit 30 = false → exec (.rxEnSet fn off en val) s = .next s) ∧ (val.testBit 30 = true → exec (.rxEnClear fn off en val) s = .next s)) ∧
  (∀ (s : State) (fn off en val : Nat), (en ≠ 15 ∨ ∀ r, s.hw.hostReg fn off = some r → r < 0x60000 ∨ 0x80000 ≤ r) →
      exec (.txqTailWrite fn off en val) s = .next s ∧ exec (.rxqTailWrite fn off en val) s = .next s ∧ exec (.txEnSet fn off en val) s = .next s ∧
      exec (.txEnClear fn off en val) s = .next s ∧ exec (.rxEnSet fn off en val) s = .next s ∧ exec (.rxEnClear fn off en val) s = .next s) ∧
  (∀ (s : State) (r : Nat) (descs : List (List Nat)), (s.hw.ringAt r).txStop = true → (s.hw.ringAt r).reading = none → s.hw.mayMaster r = true →
      let x := ((s.hw.txFlush r).onRingAt r (fun y => { y with txStop := false })).post (ringOwner r) 0x0104 (ringQueue r)
      (x.ringAt r).rxStop = false → exec (.ringStopDone r descs) s = .next (s.on x)) ∧
  (∀ (s : State) (r : Nat) (descs : List (List Nat)), (s.hw.ringAt r).txStop = false → (s.hw.ringAt r).rxStop = true →
      let n := (s.hw.ringAt r).pend.length + (s.hw.ringAt r).head.length
      exec (.ringStopDone r descs) s = .next (s.on ((((s.hw.drainPend r n descs).1.discardPend r).onRingAt r (fun y => { y with rxStop := false })).post
        (ringOwner r) 0x0104 (ringQueue r) 1))) ∧
  (∀ (s : State) (r : Nat) (descs : List (List Nat)), exec (.ringStopDone r descs) s = .next (s.on (
      let x := if (s.hw.ringAt r).txStop && (s.hw.ringAt r).reading.isNone && s.hw.mayMaster r then
        ((s.hw.txFlush r).onRingAt r (fun y => { y with txStop := false })).post (ringOwner r) 0x0104 (ringQueue r) else s.hw
      if (x.ringAt r).rxStop then ((((x.drainPend r ((x.ringAt r).pend.length + (x.ringAt r).head.length) descs).1.discardPend r).onRingAt r
        (fun y => { y with rxStop := false })).post (ringOwner r) 0x0104 (ringQueue r) 1) else x)))

/-- R311 to R319, R509, R512. -/
def Obligations.HostRingsMoveFrames : Prop :=
  (∀ (s : State) (r : Nat) (descs : List (List Nat)), s.hw.outstanding r 0 = [] →
      (s.hw.txTurn = some r → exec (.txDescriptorFetch r descs) s = .next (s.on (s.hw.txJudge r 32))) ∧
      (s.hw.txTurn ≠ some r → exec (.txDescriptorFetch r descs) s = .next s)) ∧
  (∀ (s : State) (r : Nat) (descs : List (List Nat)), descs ≠ [] → ((s.hw.outstanding r 0).map (·.bytes)).sum / 64 = descs.length → s.hw.txServes r = true →
      s.hw.allIssued r 0 = true →
      exec (.txDescriptorFetch r descs) s = .next (s.on (((s.hw.endReads r 0).onRingAt r (fun x => { x with fetched := x.fetched ++ descs })).txJudge r 32))) ∧
  (∀ (s : State) (r : Nat) (descs : List (List Nat)), ((s.hw.outstanding r 0).map (·.bytes)).sum / 64 ≠ 0 →
      (s.hw.txServes r = false ∨ s.hw.allIssued r 0 = false ∨ descs.length ≠ ((s.hw.outstanding r 0).map (·.bytes)).sum / 64) →
      exec (.txDescriptorFetch r descs) s = .next s) ∧
  (∀ (s : State) (r : Nat) (data : List Byte) (fr : TxFrame), (s.hw.ringAt r).reading = some fr → data.length = fr.len → s.hw.allIssued r 1 = true → s.hw.mayMaster r = true →
      let w3 := fr.words.getD 3 0
      let f : SrcFrame := ⟨ringOwner r, hostFrame data, if bit w3 31 then some (w3 % 65536, bits w3 26 24) else none, none, 0, none, none, none, none, s.hw.clk⟩
      let y := (s.hw.endReads r 1).onRingAt r (fun x => { x with reading := none })
      exec (.txDataReadDone r data) s = .next (s.on (
        if s.hw.hasCredit 24 f = false ∨ s.hw.flag Reg.SWC_STATUS Fld.SWC_STATUS_READY = false ∨ s.hw.sec.admits = false ∨ s.hw.freeCells < cellsFor f.bytes.length
        then (s.hw.stall 24).onRingAt r (fun x => { x with reading := some { fr with stalled := true } })
        else ((y.enterFrame 24 f).inc (Reg.HDMA_TX_FRAMES r)).txBack r fr.count 0))) ∧
  (∀ (s : State) (r : Nat) (data : List Byte), ((s.hw.ringAt r).reading = none ∨ s.hw.allIssued r 1 = false ∨ s.hw.mayMaster r = false ∨
      ∃ fr, (s.hw.ringAt r).reading = some fr ∧ data.length ≠ fr.len) → exec (.txDataReadDone r data) s = .next s) ∧
  (∀ (s : State) (r : Nat), exec (.hostReadError r true) s = .next (s.on (if s.hw.rxEn r then
      ((s.hw.setFld (Reg.HDMA_Q_STATUS r) Fld.HDMA_Q_STATUS_RX_STOPPED 1).inc Reg.HDMA_RD_ERR).post (ringOwner r) 0x0104 (ringQueue r) 1 else s.hw))) ∧
  (∀ (s : State) (r : Nat),
      let n := ((s.hw.outstanding r 0).map (·.bytes)).sum / 64
      exec (.hostReadError r false) s = .next (s.on (match (s.hw.ringAt r).reading with
        | some fr => s.hw.txFail r fr.count
        | none => if n = 0 then s.hw else s.hw.txFail r ((s.hw.ringAt r).fetched.length + n)))) ∧
  (∀ (h : Hw) (r n : Nat),
      let a := ((h.endReads r 0).endReads r 1).onRingAt r (fun x => { x with fetched := [], reading := none })
      let b := ((a.txBack r n 3).setFld (Reg.HDMA_Q_STATUS r) Fld.HDMA_Q_STATUS_TX_STOPPED 1).inc Reg.HDMA_RD_ERR
      h.txFail r n = b.post (ringOwner r) 0x0103 (ringQueue r) (b.txHead r) 3) ∧
  (∀ (s : State) (q : ReadReq), s.hw.nextRead = some q → exec .readRequestIssue s = .next (s.on (
      if s.hw.hdma.flight.length < s.hw.tagSupply ∧ s.hw.cplUsed + (q.bytes + 127) / 128 ≤ 768 then
        (s.hw.onHdma (fun d => { d with waiting := d.waiting.erase q, flight := d.flight ++ [q] })).emit (.hostRead (ringOwner q.ring) q.addr q.bytes)
      else if s.hw.hdma.waitUs = s.hw.usNow then s.hw else (s.hw.inc Reg.HDMA_RD_WAIT).onHdma (fun d => { d with waitUs := s.hw.usNow })))) ∧
  (∀ (s : State), (∀ q ∈ s.hw.hdma.waiting, s.hw.mayMaster q.ring = false) → exec .readRequestIssue s = .next s) ∧
  (∀ (s : State) (descs : List (List Nat)) (f : Frame), s.hw.copyAt 24 (fun _ => true) = some f →
      let o := recvOwner f
      let r := (o - 2) * 8 + s.hw.rxQueueOf f (s.hw.readFrame f)
      let p : RxPend := ⟨some f.id, 0, [], s.hw.clk⟩
      (kvGet s.hw.own.tear o = none → s.hw.own.active.contains o = true → exec (.p24FrameArrive descs) s = .next (s.on (s.hw.p24Live r p descs))) ∧
      (kvGet s.hw.own.tear o = none → s.hw.own.active.contains o = false → exec (.p24FrameArrive descs) s = .next (s.on (s.hw.rxDiscard r p))) ∧
      (∀ t, kvGet s.hw.own.tear o = some t → t.erased = false → exec (.p24FrameArrive descs) s = .next (s.on (s.hw.p24Live r p descs))) ∧
      (∀ t, kvGet s.hw.own.tear o = some t → t.erased = true → exec (.p24FrameArrive descs) s = .next (s.on
        { s.hw.takeAt 24 f with own := { (s.hw.takeAt 24 f).own with tear := kvPut (s.hw.takeAt 24 f).own.tear o { t with frames := t.frames + 1 } } }))) ∧
  (∀ (h : Hw) (r : Nat) (p : RxPend) (descs : List (List Nat)), h.rxEn r = false → p.frame ≠ none →
      h.p24Live r p descs = (h.dropRef p).inc (Reg.HDMA_RX_DIVERT r)) ∧
  (∀ (s : State) (descs : List (List Nat)), s.hw.copyAt 24 (fun _ => true) = none → exec (.p24FrameArrive descs) s = .next s) ∧
  (∀ (s : State) (r : Nat) (descs : List (List Nat)),
      let w := s.hw.drainPend r ((s.hw.ringAt r).pend.length + (s.hw.ringAt r).head.length) descs
      let h := w.1.showRing r
      (h.ringAt r).pend ≠ [] ∨ r % 8 ≠ 0 ∨ h.sideItem (ringOwner r) = none → exec (.rxFrameWrite r descs) s = .next (s.on h)) ∧
  (∀ (s : State) (r k : Nat) (b : List Byte) (done : Hw → Hw) (descs : List (List Nat)),
      let w := s.hw.drainPend r ((s.hw.ringAt r).pend.length + (s.hw.ringAt r).head.length) descs
      let h := w.1.showRing r
      (h.ringAt r).pend = [] → r % 8 = 0 → h.sideItem (ringOwner r) = some (k, b, done) →
      exec (.rxFrameWrite r descs) s = .next (s.on (match h.rxWrite r k 0 ⟨b, 0, 0, 0, 0⟩ w.2 with | some (x, _) => done x | none => h))) ∧
  (∀ (s : State) (r : Nat), s.hw.holdDue r = true →
      let n := (framesIn ((s.hw.ringAt r).pend ++ (s.hw.ringAt r).head)).length
      ∃ x, x = ((((s.hw.discardPend r).onRingAt r (fun y => { y with timer := none, diverted := n })).showRing r).setFld (Reg.HDMA_Q_STATUS r) Fld.HDMA_Q_STATUS_DIVERT 1) ∧
        exec (.holdTimerExpire r) s = .next (s.on (x.post (ringOwner r) 0x0105 (ringQueue r) n)) ∧ x.flag (Reg.HDMA_Q_STATUS r) Fld.HDMA_Q_STATUS_DIVERT = true) ∧
  (∀ (s : State) (r : Nat), s.hw.holdDue r = false → exec (.holdTimerExpire r) s = .next s) ∧
  (∀ (s : State) (r : Nat),
      (let x := s.hw.onRingAt r (fun y => { y with txAnn := 0 })
      s.hw.coalDue r true = true → (s.hw.ringAt r).txAnn ≠ 0 → exec (.coalesceTimer r true) s = .next (s.on (
        if s.hw.fld (Reg.HDMA_Q_COAL r) Fld.HDMA_Q_COAL_VEC_MODE = 1 then x.sendMsix (ringOwner r) (s.hw.fld (Reg.HDMA_Q_COAL r) Fld.HDMA_Q_COAL_VECTOR)
        else x.post (ringOwner r) 0x0101 (ringQueue r) (s.hw.txHead r) (s.hw.ringAt r).txAnn))) ∧
      (let x := s.hw.onRingAt r (fun y => { y with rxAnn := 0 })
      s.hw.coalDue r false = true → (s.hw.ringAt r).rxAnn ≠ 0 → exec (.coalesceTimer r false) s = .next (s.on (
        if s.hw.fld (Reg.HDMA_Q_COAL r) Fld.HDMA_Q_COAL_VEC_MODE = 1 then x.sendMsix (ringOwner r) (s.hw.fld (Reg.HDMA_Q_COAL r) Fld.HDMA_Q_COAL_VECTOR)
        else x.post (ringOwner r) 0x0102 (ringQueue r) (s.hw.rxHead r) (s.hw.ringAt r).rxAnn)))) ∧
  (∀ (s : State) (r : Nat) (tx : Bool), (s.hw.coalDue r tx = false ∨ (if tx then (s.hw.ringAt r).txAnn else (s.hw.ringAt r).rxAnn) = 0) → exec (.coalesceTimer r tx) s = .next s)

/-- R31, R320 to R323, R465. -/
def Obligations.EventQueuesWriteEnableAndConsume : Prop :=
  (∀ s : State, s.hw.evq.staging = [] → exec .spoutRecordWrite s = .next s) ∧
  (∀ (s : State) (r : EvRec) (rs : List EvRec), s.hw.evq.staging = r :: rs → s.hw.evqEn r.owner = true → s.hw.takes r.owner = true →
      s.hw.flag (Reg.EVQ_STATUS r.owner) Fld.EVQ_STATUS_OVF_PENDING = false → 0 < s.hw.evqFree r.owner →
      let x := s.hw.onEvq (fun q => { q with staging := rs })
      exec .spoutRecordWrite s = .next (s.on ((x.writeRecord r).evqMaybeMessage r.owner false))) ∧
  (∀ (h : Hw) (r : EvRec), r.owner < 512 → r.kind < 16384 → (r.kind ≠ 0x0901 ∨ h.clk ≤ r.at_ + 5000) →
      let i := h.rn (Reg.EVQ_PROD r.owner)
      let phase := if (i / 2 ^ h.fld (Reg.EVQ_CTRL r.owner) Fld.EVQ_CTRL_LOG2) % 2 = 0 then 1 else 0
      (h.writeRecord r).out = .evRecord r.owner i [phase * 2 ^ 31 + r.kind / 256 * 2 ^ 25 + r.owner * 2 ^ 16 + r.kind, r.w1 % 2 ^ 32,
        h.rn (Reg.EVQ_SEQ r.owner), r.w3 % 2 ^ 32, r.w4 % 2 ^ 32, r.w5 % 2 ^ 32, r.w6 % 2 ^ 32, r.w7 % 2 ^ 32] :: h.out ∧
      (h.writeRecord r).rn (Reg.EVQ_PROD r.owner) = (i + 1) % 2 ^ 32 ∧
      (h.writeRecord r).rn (Reg.EVQ_SEQ r.owner) = (h.rn (Reg.EVQ_SEQ r.owner) + 1) % 2 ^ 32) ∧
  (∀ (s : State) (r : EvRec) (rs : List EvRec), s.hw.evq.staging = r :: rs → (s.hw.evqEn r.owner = false ∨ s.hw.takes r.owner = false) →
      exec .spoutRecordWrite s = .next (s.on ((s.hw.onEvq (fun q => { q with staging := rs })).loseRecord r.owner))) ∧
  (∀ (s : State) (r : EvRec) (rs : List EvRec), s.hw.evq.staging = r :: rs → s.hw.evqEn r.owner = true → s.hw.takes r.owner = true → s.hw.evqFree r.owner = 0 →
      exec .spoutRecordWrite s = .next (s.on ((s.hw.onEvq (fun q => { q with staging := rs })).loseRecord r.owner))) ∧
  (∀ (s : State) (fn off val o : Nat), o < 512 → s.hw.hostReg fn off = some (0x20000 + 0x100 * o) → getF val Fld.EVQ_CTRL_EN = 1 →
      (getF val Fld.EVQ_CTRL_LOG2 < 6 ∨ 16 < getF val Fld.EVQ_CTRL_LOG2 → exec (.evqEnSet fn off 15 val) s = .next s) ∧
      (6 ≤ getF val Fld.EVQ_CTRL_LOG2 → getF val Fld.EVQ_CTRL_LOG2 ≤ 16 →
        let x := s.hw.wn (Reg.EVQ_CTRL o) (val / 1024 * 1024)
        (s.hw.evqEn o = false → x.evqEn o = true → exec (.evqEnSet fn off 15 val) s = .next (s.on (x.evqEnable o))) ∧
        (s.hw.evqEn o = true → exec (.evqEnSet fn off 15 val) s = .next (s.on x)))) ∧
  (∀ (h : Hw) (o : Nat), o ≠ 2 →
      let x := h.evqEnable o
      x.rn (Reg.EVQ_PROD o) = 0 ∧ x.rn (Reg.EVQ_CONS o) = 0 ∧ x.rn (Reg.EVQ_SEQ o) = 0 ∧ x.flag (Reg.EVQ_STATUS o) Fld.EVQ_STATUS_ARMED = true) ∧
  (∀ (s : State) (fn off en val : Nat), (en ≠ 15 ∨ getF val Fld.EVQ_CTRL_EN = 0 ∨ ∀ r, s.hw.hostReg fn off = some r → r < 0x20000 ∨ 0x40000 ≤ r ∨ r % 256 ≠ 0) →
      exec (.evqEnSet fn off en val) s = .next s) ∧
  (∀ (s : State) (fn off val o : Nat), o < 512 → s.hw.hostReg fn off = some (0x20000 + 0x100 * o + 0x14) →
      let adv := (val + 2 ^ 32 - s.hw.rn (Reg.EVQ_CONS o)) % 2 ^ 32
      (s.hw.evqUsed o < adv → exec (.evqConsWrite fn off 15 val) s = .next (s.on (s.hw.inc (Reg.EVQ_BAD_CONS o)))) ∧
      (adv ≤ s.hw.evqUsed o → exec (.evqConsWrite fn off 15 val) s = .next (s.on
        (((((s.hw.wn (Reg.EVQ_CONS o) val).setFld (Reg.EVQ_STATUS o) Fld.EVQ_STATUS_ARMED 1).onEvq (fun q =>
          { q with times := kvMod q.times o [] (·.drop adv), lateTimer := without q.lateTimer o, lateDone := without q.lateDone o, lateAt := kvDel q.lateAt o })).overflowRecord o).evqMaybeMessage o false)))) ∧
  (∀ (s : State) (fn off en val : Nat), (en ≠ 15 ∨ ∀ r, s.hw.hostReg fn off = some r → r < 0x20000 ∨ 0x40000 ≤ r ∨ r % 256 ≠ 0x14) →
      exec (.evqConsWrite fn off en val) s = .next s) ∧
  (∀ (s : State) (o t : Nat), kvGet s.hw.evq.sinceRec o = some t → t + s.hw.fld (Reg.EVQ_MOD o) Fld.EVQ_MOD_MOD_US * 500 ≤ s.hw.clk → evqInternal o = false →
      s.hw.flag (Reg.EVQ_CTRL o) Fld.EVQ_CTRL_VEC_EN = true → s.hw.flag (Reg.EVQ_STATUS o) Fld.EVQ_STATUS_ARMED = true →
      exec (.evqModTimer o) s = .next (s.on (s.hw.evqMessage o))) ∧
  (∀ (s : State) (o : Nat), (s.hw.modDue o = false ∨ evqInternal o = true ∨ s.hw.flag (Reg.EVQ_CTRL o) Fld.EVQ_CTRL_VEC_EN = false ∨
        s.hw.flag (Reg.EVQ_STATUS o) Fld.EVQ_STATUS_ARMED = false) → exec (.evqModTimer o) s = .next s) ∧
  (∀ (s : State) (o : Nat), 2 ≤ o → s.hw.evq.lateTimer.contains o = true → s.hw.evq.lateDone.contains o = false → s.hw.evqUsed o ≠ 0 →
      kvGetD s.hw.evq.lateAt o s.hw.clk + s.hw.fld (Reg.EVF_SVC_BOUND o) Fld.EVF_SVC_BOUND_BOUND_MS * 500000 ≤ s.hw.clk →
      exec (.evqServiceLate o) s = .next (s.on (((s.hw.inc Reg.EVF_EVQ_LATE).onEvq (fun q => { q with lateDone := q.lateDone ++ [o] })).post 1 0x0F02 o
        (s.hw.fld (Reg.EVF_SVC_BOUND o) Fld.EVF_SVC_BOUND_BOUND_MS) ((s.hw.clk - kvGetD s.hw.evq.lateAt o s.hw.clk) / 500000)))) ∧
  (∀ (s : State) (o : Nat), (o < 2 ∨ s.hw.evq.lateTimer.contains o = false ∨ s.hw.evq.lateDone.contains o = true ∨ s.hw.evqUsed o = 0 ∨
        s.hw.clk < kvGetD s.hw.evq.lateAt o s.hw.clk + s.hw.fld (Reg.EVF_SVC_BOUND o) Fld.EVF_SVC_BOUND_BOUND_MS * 500000) →
      exec (.evqServiceLate o) s = .next s)

/-- R20, R21, R302, R327 to R337, R341, R345, R354, R375, R403. -/
def Obligations.MailboxesRingRunAbortAndRestart : Prop :=
  (∀ (s : State) (fn off en o n : Nat), n < 32 → s.hw.hostReg fn off = some (0x10000000 + 0x100 * o + 4 * n) →
      let ready := s.hw.flag (Reg.MBX_OWNER_STATUS o) Fld.MBX_OWNER_STATUS_READY
      let copy := (List.range 32).map (s.hw.slotWord o n)
      let y := ((s.hw.onMbx (fun m => { m with slots := kvPut m.slots (o * 32 + n) ⟨1, copy, m.order, [], false, [], false⟩, order := m.order + 1 })).putSlot o n 2 [2 ^ 30]).showMbx o
      let x := s.hw.inc (Reg.MBX_RING_REFUSED o)
      let busy := kvGet s.hw.mbx.slots (o * 32 + n)
      (ready = false → exec (.mbxRingRead fn off en) s = .next (s.on (s.hw.answer off en ((s.hw.inFlight o).length * 256 + 3)))) ∧
      (ready = true → 32 ≤ (s.hw.inFlight o).length → exec (.mbxRingRead fn off en) s = .next (s.on (x.answer off en ((s.hw.inFlight o).length * 256 + 1)))) ∧
      (ready = true → (s.hw.inFlight o).length < 32 → busy.isSome = true →
        exec (.mbxRingRead fn off en) s = .next (s.on (x.answer off en ((s.hw.inFlight o).length * 256 + 2)))) ∧
      (ready = true → (s.hw.inFlight o).length < 32 → busy = none → exec (.mbxRingRead fn off en) s = .next (s.on (y.answer off en ((y.inFlight o).length * 256 + 0))))) ∧
  (∀ (s : State) (fn off en : Nat), (∀ r, s.hw.hostReg fn off = some r → r < 0x10000000 ∨ 0x80 ≤ r % 256) → exec (.mbxRingRead fn off en) s = .next s) ∧
  (∀ (s : State) (fn off val o : Nat) (q : Slot), s.hw.hostReg fn off = some (0x10000000 + 0x100 * o + 0x80) → kvGet s.hw.mbx.slots (o * 32 + val % 32) = some q →
      let k := o * 32 + val % 32
      (q.committed = false → exec (.mbxAbortWrite fn off 15 val) s = .next (s.on ((s.hw.abandonWork k).complete k cAborted 0 q.partResp))) ∧
      (q.committed = true → exec (.mbxAbortWrite fn off 15 val) s = .next (s.on (s.hw.setSlot k { q with aborted := true })))) ∧
  (∀ (s : State) (fn off val o : Nat), s.hw.hostReg fn off = some (0x10000000 + 0x100 * o + 0x80) → kvGet s.hw.mbx.slots (o * 32 + val % 32) = none →
      exec (.mbxAbortWrite fn off 15 val) s = .next s) ∧
  (∀ (s : State) (fn off en val : Nat), (en ≠ 15 ∨ ∀ r, s.hw.hostReg fn off = some r → r < 0x10000000 ∨ r % 256 ≠ 0x80) → exec (.mbxAbortWrite fn off en val) s = .next s) ∧
  (∀ (s : State) (fn off val b : Nat), s.hw.hostAt fn (off / 4 * 4) = .slotRam b →
      exec (.mbxSlotWrite fn off 15 val none) s = .next (s.on (s.hw.putSlot (fnOwner fn) 0 (b / 4) [val])) ∧
      exec (.mbxSlotWrite fn off 15 val (some val)) s = .next (s.on (s.hw.putSlot (fnOwner fn) 0 (b / 4) [val])) ∧
      ∀ d, d ≠ val → exec (.mbxSlotWrite fn off 15 val (some d)) s = .next (s.on
        ((((s.hw.putSlot (fnOwner fn) 0 (b / 4) [d]).setFld (Reg.MBX_COLLIDE (fnOwner fn)) Fld.MBX_COLLIDE_COLLIDE 1).setFld (Reg.MBX_COLLIDE (fnOwner fn))
          Fld.MBX_COLLIDE_LAST_WORD (b / 4)).inc (Reg.MBX_COLLIDE_COUNT (fnOwner fn))))) ∧
  (∀ (s : State) (fn off en val : Nat) (dev : Option Nat), (en ≠ 15 ∨ ∀ b, s.hw.hostAt fn (off / 4 * 4) ≠ .slotRam b) → exec (.mbxSlotWrite fn off en val dev) s = .next s) ∧
  (∀ (s : State) (buf : Option (List Byte)) (ecc : Bool) (k : Nat) (q : Slot),
      (s.hw.flag Reg.MBX_STATUS Fld.MBX_STATUS_READY = true ∨ s.hw.flag Reg.MBX_STATUS Fld.MBX_STATUS_SAFE_SET = true) →
      (s.hw.mbx.slots.filter (fun x => x.2.st == 2)).length < (if s.hw.flag Reg.MBX_STATUS Fld.MBX_STATUS_SAFE_SET = true then 1 else 64) → s.hw.nextCommand = some (k, q) →
      let h := s.hw.onMbx (fun m => { m with turn := k / 32 })
      (h.headerCheck (k / 32) q ecc = none → gcsNeeds q.opcode q.payload = false → exec (.fwTakeCommand buf ecc) s = .next (s.on
        (((h.setSlot k { q with st := 2, buf := buf.getD [] }).putSlot (k / 32) (k % 32) 2 [2 * 2 ^ 30]).showMbx (k / 32)))) ∧
      (∀ b, h.headerCheck (k / 32) q ecc = none → gcsNeeds q.opcode q.payload = true → buf = some b → exec (.fwTakeCommand buf ecc) s = .next (s.on
        (((h.setSlot k { q with st := 2, buf := b }).putSlot (k / 32) (k % 32) 2 [2 * 2 ^ 30]).showMbx (k / 32)))) ∧
      (h.headerCheck (k / 32) q ecc = none → gcsNeeds q.opcode q.payload = true → buf = none → exec (.fwTakeCommand buf ecc) s = .next (s.on (h.complete k cBufErr 0 []))) ∧
      (∀ c, h.headerCheck (k / 32) q ecc = some c → exec (.fwTakeCommand buf ecc) s = .next (s.on (h.complete k c 0 [])))) ∧
  (∀ (s : State) (buf : Option (List Byte)) (ecc : Bool),
      ((s.hw.flag Reg.MBX_STATUS Fld.MBX_STATUS_READY = false ∧ s.hw.flag Reg.MBX_STATUS Fld.MBX_STATUS_SAFE_SET = false) ∨ s.hw.nextCommand = none ∨
        (if s.hw.flag Reg.MBX_STATUS Fld.MBX_STATUS_SAFE_SET = true then 1 else 64) ≤ (s.hw.mbx.slots.filter (fun x => x.2.st == 2)).length) →
      exec (.fwTakeCommand buf ecc) s = .next s) ∧
  (∀ s : State, s.hw.flag Reg.MBX_STATUS Fld.MBX_STATUS_READY = true →
      exec .fwRestart s = .next (s.on (s.hw.mbx.slots.foldl (fun a x => if x.2.committed = true then a else (a.abandonWork x.1).complete x.1 cRestarted 0 x.2.partResp) s.hw))) ∧
  (∀ s : State, s.hw.flag Reg.MBX_STATUS Fld.MBX_STATUS_READY = false → exec .fwRestart s = .next s) ∧
  (∀ (s : State) (o : Nat) (t : Tear), kvGet s.hw.own.tear o = some t → t.erased = false → s.hw.fwLife = true →
      let x := s.hw.drainOwner o t
      let u := kvGetD x.own.tear o t
      let y := (x.eraseOwner o u).debugSettle
      exec (.teardownDrainEnd o) s = .next (s.on ((y.tearWaits o).foldl (fun a k => a.complete k cOk 0 [u.frames, u.cmds]) y))) ∧
  (∀ (s : State) (o : Nat), (kvGet s.hw.own.tear o = none ∨ s.hw.fwLife = false ∨ ∃ t, kvGet s.hw.own.tear o = some t ∧ t.erased = true) → exec (.teardownDrainEnd o) s = .next s) ∧
  (∀ (s : State) (o : Nat) (t : Tear), kvGet s.hw.own.tear o = some t → t.erased = true → s.hw.clearsDone o = true → s.hw.fwLife = true →
      let x := ((s.hw.onOwn (fun w => { w with tear := kvDel w.tear o, active := without w.active o })).clearOwnerRegs o).clearOwnerQueues o
      kvGet x.own.tear o = none ∧ x.own.active.contains o = false ∧
      exec (.ownerNumberFree o) s = .next (s.on (if t.again = true ∧ x.functionOn o = true then x.createOwner o else x))) ∧
  (∀ (s : State) (o : Nat), (kvGet s.hw.own.tear o = none ∨ s.hw.fwLife = false ∨ s.hw.clearsDone o = false ∨ ∃ t, kvGet s.hw.own.tear o = some t ∧ t.erased = false) →
      exec (.ownerNumberFree o) s = .next s) ∧
  (∀ (s : State) (o slot : Nat), kvGet s.hw.own.retiring o = some slot →
      let used := s.hw.swc.frames.any (fun f => f.owner == o && f.keySel == slot && !f.cells.isEmpty)
      let x := (s.hw.onOwn (fun w => { w with keys := kvDel w.keys (o * 2 + slot), retiring := kvDel w.retiring o })).post 1 0x0B01 o slot
      (used = true → exec (.keySlotRetire o) s = .next s) ∧ (used = false → o ≠ 1 → exec (.keySlotRetire o) s = .next (s.on (x.post o 0x0B01 o slot))) ∧
      (used = false → o = 1 → exec (.keySlotRetire o) s = .next (s.on x))) ∧
  (∀ (s : State) (o : Nat), kvGet s.hw.own.retiring o = none → exec (.keySlotRetire o) s = .next s)

/-- R339 to R341, R366, R376 to R379, R383, R391 to R395, R455, R456, R494. Where the C-image lies in firmware SRAM is a free value. -/
def Obligations.StartUpRunsImagesAndTamperErases : Prop :=
  (∀ (s : State) (tamper : Nat) (early : Option EarlySet) (copies : List (Option ImageCopy)), s.hw.pwr.boot = true → s.hw.pg 4 = true → s.fuse.boots = false →
      exec (.bootRomStart tamper early copies) s = .next (s.on ((s.hw.onPwr (fun p => { p with boot := false })).setFld Reg.SEC_STATUS Fld.SEC_STATUS_LIFECYCLE s.fuse.life))) ∧
  (∀ (s : State) (tamper : Nat) (early : Option EarlySet) (copies : List (Option ImageCopy)), s.hw.pwr.boot = true → s.hw.pg 4 = true → s.fuse.boots = true →
      s.hw.pg 5 = true → s.hw.pg 6 = true → s.hw.flag Reg.MEM_STATUS Fld.MEM_STATUS_READY = true →
      let y := (((((s.hw.onPwr (fun p => { p with boot := false })).emit (.pin .xspiRst (some false))).emit (.pin .xspiRst (some true))).setFld
        Reg.SEC_STATUS Fld.SEC_STATUS_LIFECYCLE s.fuse.life).wn Reg.SEC_DEVICE_ID_LO (s.fuse.devId % 2 ^ 32)).wn Reg.SEC_DEVICE_ID_HI (s.fuse.devId / 2 ^ 32 % 2 ^ 32)
      let x : Hw := { y with sys := { y.sys with copies := copies.take 4 } }
      let r := x.bootSteps s.fuse tamper early
      (s.hw.flag Reg.SEC_STATUS Fld.SEC_STATUS_TRNG_FAIL = true → exec (.bootRomStart tamper early copies) s = .next (s.on (y.safeSet 3))) ∧
      (s.hw.flag Reg.SEC_STATUS Fld.SEC_STATUS_TRNG_FAIL = false → s.hw.sec.trngDown = true → exec (.bootRomStart tamper early copies) s = .next s) ∧
      (s.hw.flag Reg.SEC_STATUS Fld.SEC_STATUS_TRNG_FAIL = false → s.hw.sec.trngDown = false →
        exec (.bootRomStart tamper early copies) s = .next (s.on (if r.2 = true then r.1 else r.1.bootPair s.fuse copies)))) ∧
  (∀ (s : State) (tamper : Nat) (early : Option EarlySet) (copies : List (Option ImageCopy)), (s.hw.pwr.boot = false ∨ s.hw.pg 4 = false ∨
        (s.fuse.boots = true ∧ (s.hw.pg 5 = false ∨ s.hw.pg 6 = false ∨ s.hw.flag Reg.MEM_STATUS Fld.MEM_STATUS_READY = false))) →
      exec (.bootRomStart tamper early copies) s = .next s) ∧
  (∀ (st : Nat) (c0 c1 s0 s1 : Option ImageCopy),
      (pairCause st c0 s0 = 0 → (pairTrial st c0 c1 s0 s1).1 = 0) ∧ (pairCause st c0 s0 ≠ 0 → pairCause st c0 s1 = 0 → (pairTrial st c0 c1 s0 s1).1 = 1) ∧
      (pairCause st c0 s0 ≠ 0 → pairCause st c0 s1 ≠ 0 → pairCause st c1 s0 = 0 → (pairTrial st c0 c1 s0 s1).1 = 2) ∧
      (pairCause st c0 s0 ≠ 0 → pairCause st c0 s1 ≠ 0 → pairCause st c1 s0 ≠ 0 → pairCause st c1 s1 = 0 → (pairTrial st c0 c1 s0 s1).1 = 3) ∧
      (pairCause st c0 s0 ≠ 0 → pairCause st c0 s1 ≠ 0 → pairCause st c1 s0 ≠ 0 → pairCause st c1 s1 ≠ 0 → (pairTrial st c0 c1 s0 s1).1 = 7)) ∧
  (∀ (s : State) (store : Option (Nat × Nat × List (Nat × Nat))) (i : ImageCopy), s.hw.sys.imgS = some i → s.hw.pg 4 = true → s.hw.sec.latch = false →
      s.hw.flag Reg.SEC_STATUS Fld.SEC_STATUS_READY = false →
      let y := (s.hw.wn Reg.MBX_S_VERSION i.version).wn Reg.MBX_EPOCHS (s.hw.rn Reg.MBX_EPOCHS / 2 ^ 16 * 2 ^ 16 + i.epoch % 2 ^ 16)
      let z := (y.setFld Reg.SEC_STATUS Fld.SEC_STATUS_STORE_UNANCHORED 1).post 1 0x0B04 0
      let ready : Hw → Hw := fun x => ((x.resumeStore store).writeStore.setFld Reg.SEC_JOB_CFG Fld.SEC_JOB_CFG_EN 1).setReady Reg.SEC_STATUS Fld.SEC_STATUS_READY 12
      (y.rn Reg.SEC_AO_STORE_SEQ = 0 → exec (.sImageReady store) s = .next (s.on (ready z))) ∧ (y.rn Reg.SEC_AO_STORE_SEQ ≠ 0 → exec (.sImageReady store) s = .next (s.on (ready y)))) ∧
  (∀ (s : State) (store : Option (Nat × Nat × List (Nat × Nat))), (s.hw.sys.imgS = none ∨ s.hw.pg 4 = false ∨ s.hw.sec.latch = true ∨
        s.hw.flag Reg.SEC_STATUS Fld.SEC_STATUS_READY = true) → exec (.sImageReady store) s = .next s) ∧
  (∀ (s : State) (c : ImageCopy), s.hw.sys.imgC = some c → s.hw.pg 5 = true → s.hw.flag Reg.MBX_STATUS Fld.MBX_STATUS_READY = false →
      s.hw.flag Reg.MBX_STATUS Fld.MBX_STATUS_SAFE_SET = false → s.hw.sec.latch = false →
      let y := (s.hw.wn Reg.MBX_C_VERSION c.version).wn Reg.MBX_EPOCHS (c.epoch % 2 ^ 16 * 2 ^ 16 + s.hw.rn Reg.MBX_EPOCHS % 2 ^ 16)
      let x := Hw.setReady { y with sys := { y.sys with isSealed := true } } Reg.MBX_STATUS Fld.MBX_STATUS_READY 13
      let z := (x.own.active.filter (fun o => (kvGet x.own.tear o).isNone)).foldl (fun a o => a.setFld (Reg.MBX_OWNER_STATUS o) Fld.MBX_OWNER_STATUS_READY 1) x
      let r := z.tearDue.createVfs.settle
      let fu := if s.hw.sys.pair = 0 then s.fuse.raiseSvn [(1, s.hw.sys.imgS), (2, some c), (3, s.hw.sys.early.map (·.copy))] else s.fuse
      exec .cImageReady s = .next { s with hw := r.rebound r, fuse := fu }) ∧
  (∀ s : State, (s.hw.sys.imgC = none ∨ s.hw.pg 5 = false ∨ s.hw.flag Reg.MBX_STATUS Fld.MBX_STATUS_READY = true ∨
        s.hw.flag Reg.MBX_STATUS Fld.MBX_STATUS_SAFE_SET = true ∨ s.hw.sec.latch = true) → exec .cImageReady s = .next s) ∧
  (∀ s : State, s.hw.pg 4 = true →
      let l := s.hw.sec.trngAt.filter (fun t => decide (s.hw.clk < t + 500000000)) ++ [s.hw.clk]
      let x := (s.hw.inc Reg.SEC_TRNG_HEALTH).onSec (fun y => { y with trngDown := true, trngAt := l })
      (l.length < 3 → exec .trngHealthFail s = .next (s.on x)) ∧ (3 ≤ l.length → exec .trngHealthFail s = .next (s.on (x.setFld Reg.SEC_STATUS Fld.SEC_STATUS_TRNG_FAIL 1)))) ∧
  (∀ s : State, s.hw.pg 4 = false → exec .trngHealthFail s = .next s) ∧
  (∀ s : State, exec .trngRestartDone s = .next (s.on ((s.hw.own.await.filter s.hw.functionOn).foldl Hw.createOwner
      ((s.hw.onSec (fun x => { x with trngDown := false })).onOwn (fun w => { w with await := [] }))))) ∧
  (∀ (s : State) (sources : Nat), s.hw.tamperOn s.fuse sources ≠ 0 → s.hw.pg 4 = true → s.fuse.boots = true →
      let src := s.hw.tamperOn s.fuse sources
      let x := s.hw.add Reg.SEC_GLITCH_EVENTS ((bitsOf 5 src).filter (fun i => decide (2 ≤ i))).length
      (x.flag Reg.MBX_STATUS Fld.MBX_STATUS_SAFE_SET = false → x.sec.tamper = 0 → ∃ t, exec (.tamperDetect sources) s = .next (s.on t) ∧ t = x.tamperBegin src ∧
        t.sec = { s.hw.sec with latch := true, admits := false, tamper := 1, tamperAt := s.hw.clk }) ∧
      (x.flag Reg.MBX_STATUS Fld.MBX_STATUS_SAFE_SET = false → x.sec.tamper ≠ 0 → x.clk ≤ x.sec.tamperAt + 2500 → exec (.tamperDetect sources) s = .next (s.on (x.tamperLog src))) ∧
      (x.flag Reg.MBX_STATUS Fld.MBX_STATUS_SAFE_SET = false → x.sec.tamper ≠ 0 → x.sec.tamperAt + 2500 < x.clk → exec (.tamperDetect sources) s = .next (s.on x)) ∧
      (x.flag Reg.MBX_STATUS Fld.MBX_STATUS_SAFE_SET = true → exec (.tamperDetect sources) s = .next (s.on ((x.tamperLog src).stopFlash)))) ∧
  (∀ (s : State) (sources : Nat), (s.hw.tamperOn s.fuse sources = 0 ∨ s.hw.pg 4 = false ∨ s.fuse.boots = false) → exec (.tamperDetect sources) s = .next s) ∧
  (∀ s : State, s.hw.sec.tamper = 1 →
      let x := s.hw.swc.frames.foldl (fun a f => a.cutFrame f.id) s.hw
      let y : Hw := { x with
        mac := { x.mac with sa := x.mac.sa.map (fun (e : Nat × Sa) => (e.1, { e.2 with key := 0, salt := 0, en := false })) }, brg := { x.brg with auth := x.brg.auth.map (fun (e : Nat × Auth) => (e.1, { e.2 with key := none })) }, vie := { x.vie with ring := x.vie.ring.map (fun (r : Nat × RsvRing) => (r.1, { r.2 with sealKey := none })) } }
      ∃ t, exec .tamperKeyZeroise s = .next (s.on t) ∧ t.sec.tamper = 2 ∧ t.sec.jobs = [] ∧ t.sec.waiting = [] ∧ t.own.keys = [] ∧ t.mac = y.mac ∧ t.brg = y.brg ∧ t.vie = y.vie ∧
        t = ((y.onOwn (fun w => { w with keys := [], keySel := [], retiring := [] })).add Reg.SEC_JOBS_DONE y.sec.jobs.length).onSec
          (fun z => { z with tamper := 2, jobs := [], waiting := [] })) ∧
  (∀ s : State, s.hw.sec.tamper = 2 →
      exec .tamperCisternWipe s = .next (s.on (s.hw.onSec (fun x =>
        { x with tamper := 3, nonce := 0, dsess := none, mo := [], rot := [], pubs := [], fresh := [], chal := none, dbgChal := none })))) ∧
  (∀ s : State, s.hw.sec.tamper = 3 →
      let y := s.hw.drawn.drawn.onOwn (fun w => { w with keys := [(2, BitVec.ofNat 256 (s.hw.draw * 2 ^ 128 + s.hw.drawn.draw))] })
      let z : Hw := { y with
        swc := { y.swc with frames := [], samples := [], lossQ := [], cells := emptyCells y.swc.cells, leaked := [], suspect := [], touched := [], rx := [], tx := [] }, fwd := { y.fwd with em := [], stashAge := [], lagA := [], lagB := [], lpm := [], acl := [], changes := [], shadow := Shadow.reset, struck := [] }, brg := { y.brg with rules := [] }, vie := { y.vie with s := [] } }
      (z.sys.early = none → exec .tamperSafeResume s = .next (s.on ((z.onSec (fun x => { x with tamper := 4, admits := true })).safeSet 2))) ∧
      ∀ e, z.sys.early = some e → exec .tamperSafeResume s = .next (s.on ((((z.applyEarly e).onSec (fun x => { x with pubs := [] })).onSec (fun x => { x with tamper := 4, admits := true })).safeSet 2))) ∧
  (∀ s : State, s.hw.sec.tamper = 4 →
      let x := (s.hw.clrReady Reg.SEC_STATUS Fld.SEC_STATUS_READY 12).fwRestart
      exec .tamperControlRestart s = .next (s.on (((x.own.active.filter (fun o => decide (2 ≤ o))).foldl (fun a o => a.tearStart o (o == 2)) x).onSec (fun y => { y with tamper := 5 })))) ∧
  (∀ s : State, (s.hw.sec.tamper ≠ 1 → exec .tamperKeyZeroise s = .next s) ∧ (s.hw.sec.tamper ≠ 2 → exec .tamperCisternWipe s = .next s) ∧
      (s.hw.sec.tamper ≠ 3 → exec .tamperSafeResume s = .next s) ∧ (s.hw.sec.tamper ≠ 4 → exec .tamperControlRestart s = .next s)) ∧
  (∀ (s : State) (level : Nat) (key sig : List Byte), s.hw.domOn 4 = true → 2 ≤ level → level ≤ debugMax s.fuse.life →
      (sig = [] → s.hw.sec.trngDown = false → s.hw.flag Reg.SEC_STATUS Fld.SEC_STATUS_TRNG_FAIL = false → exec (.jtagDebugUnlock level key sig) s = .next (s.on
        ((s.hw.challenge.2.onSec (fun x => { x with dbgChal := some s.hw.challenge.1 })).emit (.jtag (toBe 32 s.hw.challenge.1))))) ∧
      (sig ≠ [] → s.fuse.debugProof level s.hw.sec.dbgChal key sig = true → exec (.jtagDebugUnlock level key sig) s = .next (s.on (s.hw.debugGrant level))) ∧
      (sig ≠ [] → s.fuse.debugProof level s.hw.sec.dbgChal key sig = false → exec (.jtagDebugUnlock level key sig) s = .next s)) ∧
  (∀ (s : State) (level : Nat) (key sig : List Byte), (s.hw.domOn 4 = false ∨ level < 2 ∨ debugMax s.fuse.life < level ∨
        (sig = [] ∧ (s.hw.sec.trngDown = true ∨ s.hw.flag Reg.SEC_STATUS Fld.SEC_STATUS_TRNG_FAIL = true))) → exec (.jtagDebugUnlock level key sig) s = .next s) ∧
  (∀ (s : State) (programmed : Bool),
      let ws := (s.hw.mbx.slots.filter (fun x => x.2.st == 2 && x.2.opcode == 0x0A02 && !x.2.checkOnly && !x.2.committed)).map (·.2)
      ∃ t, exec (.powerLoss programmed) s = .next t ∧ t.pending = s.pending ∧ t.hw.regs = [] ∧ t.hw.swc = Hw.reset.swc ∧ t.hw.sec = Hw.reset.sec ∧
      t.hw.own = Hw.reset.own ∧ t.hw.mem = Hw.reset.mem ∧ t.hw.pwr.powered = false ∧ (programmed = false ∨ ws = [] → t.fuse = s.fuse) ∧
      ∀ q rest fu, programmed = true → ws = q :: rest → s.fuse.advance (q.w 0) s.hw.sec.chal q.buf = some fu →
        (∃ x ws', s.hw.gcsAdvance s.fuse q = .ok x ws') → t.fuse = fu)

/-- R384 to R389. -/
def Obligations.JobsTakeSlotsAndEnd : Prop :=
  (∀ (s : State) (f : Frame), s.hw.copyAt 27 (fun f => !s.hw.jobBlocked f && !s.hw.jobHeld f.owner (segOf (parseHdr (s.hw.jobBytes f)).body)) = some f →
      s.hw.isJobFrame f (parseHdr (s.hw.jobBytes f)) = false → exec .jobFrameReceive s = .next (s.on ((s.hw.takeAt 27 f).inc Reg.SEC_JOB_REJECT))) ∧
  (∀ (s : State) (f : Frame), s.hw.copyAt 27 (fun f => !s.hw.jobBlocked f && !s.hw.jobHeld f.owner (segOf (parseHdr (s.hw.jobBytes f)).body)) = some f →
      let d := parseHdr (s.hw.jobBytes f)
      let g := segOf d.body
      s.hw.isJobFrame f d = true →
      (s.hw.jobOf f.owner g.tag = none → g.first = true → exec .jobFrameReceive s = .next (s.on (s.hw.jobStart f d.sa g))) ∧
      (s.hw.jobOf f.owner g.tag = none → g.first = false → exec .jobFrameReceive s = .next (s.on (s.hw.takeAt 27 f))) ∧
      (∀ e, s.hw.jobOf f.owner g.tag = some e → g.first = false → exec .jobFrameReceive s = .next (s.on ((s.hw.takeAt 27 f).jobSegment e.1 e.2 g f.cls))) ∧
      (∀ e, s.hw.jobOf f.owner g.tag = some e → g.first = true → exec .jobFrameReceive s = .next (s.on (((s.hw.freeSlot e.1).jobEarlyEnd e.2 jsSeg).jobStart f d.sa g)))) ∧
  (∀ s : State, s.hw.copyAt 27 (fun f => !s.hw.jobBlocked f && !s.hw.jobHeld f.owner (segOf (parseHdr (s.hw.jobBytes f)).body)) = none → exec .jobFrameReceive s = .next s) ∧
  (∀ (h : Hw) (f : Frame) (src : Nat) (g : Seg),
      (h.fld Reg.SEC_JOB_CFG Fld.SEC_JOB_CFG_OWNER_MAX ≤ h.jobsOf f.owner → h.jobStart f src g = (h.takeAt 27 f).jobEarlyEnd (g.job f src).1 jsLimit) ∧
      (h.jobsOf f.owner < h.fld Reg.SEC_JOB_CFG Fld.SEC_JOB_CFG_OWNER_MAX → h.jobQueue = [] → ∀ slot, h.freeJobSlot = some slot → h.jobStart f src g = (h.takeAt 27 f).jobFirst slot f src g) ∧
      (h.jobsOf f.owner < h.fld Reg.SEC_JOB_CFG Fld.SEC_JOB_CFG_OWNER_MAX → h.jobQueue ≠ [] ∨ h.freeJobSlot = none →
        h.jobStart f src g = h.onSec (fun x => { x with waiting := x.waiting ++ [f.id] }))) ∧
  (∀ (s : State) (i slot : Nat) (rest : List Nat) (f : Frame),
      let x := s.hw.onSec (fun x => { x with waiting := s.hw.jobQueue })
      let d := parseHdr (x.jobBytes f)
      let g := segOf d.body
      let y := (x.onSec (fun x => { x with waiting := rest })).takeAt 27 f
      x.sec.waiting = i :: rest → x.freeJobSlot = some slot → x.copyAt 27 (fun f => f.id == i) = some f → x.jobHeld f.owner g = false →
      (y.jobsOf f.owner < y.fld Reg.SEC_JOB_CFG Fld.SEC_JOB_CFG_OWNER_MAX → exec .jobSlotAllocate s = .next (s.on (y.jobFirst slot f d.sa g))) ∧
      (y.fld Reg.SEC_JOB_CFG Fld.SEC_JOB_CFG_OWNER_MAX ≤ y.jobsOf f.owner → exec .jobSlotAllocate s = .next (s.on (y.jobEarlyEnd (g.job f d.sa).1 jsLimit)))) ∧
  (∀ s : State,
      let x := s.hw.onSec (fun x => { x with waiting := s.hw.jobQueue })
      (x.sec.waiting = [] ∨ x.freeJobSlot = none ∨ ∃ i rest f, x.sec.waiting = i :: rest ∧ x.copyAt 27 (fun f => f.id == i) = some f ∧
        x.jobHeld f.owner (segOf (parseHdr (x.jobBytes f)).body) = true) →
      exec .jobSlotAllocate s = .next (s.on x)) ∧
  (∀ s : State, s.hw.sec.waiting = [] → exec .jobSlotAllocate s = .next s) ∧
  (∀ (s : State) (slot : Nat) (j : Job), kvGet s.hw.sec.jobs slot = some j →
      (j.seen + s.hw.fld Reg.SEC_JOB_CFG Fld.SEC_JOB_CFG_IDLE_US * 500 ≤ s.hw.clk → exec (.jobIdleTimeout slot) s = .next (s.on ((s.hw.freeSlot slot).jobEarlyEnd j jsSeg))) ∧
      (s.hw.clk < j.seen + s.hw.fld Reg.SEC_JOB_CFG Fld.SEC_JOB_CFG_IDLE_US * 500 → exec (.jobIdleTimeout slot) s = .next s)) ∧
  (∀ (s : State) (slot : Nat), kvGet s.hw.sec.jobs slot = none → exec (.jobIdleTimeout slot) s = .next s)

/-- R398 to R406, R408. Bytes that nothing has written read 0 (log entry 24). -/
def Obligations.GeneralBanksReadWhatWasWritten : Prop :=
  (∀ (s : State) (bank master owner width off value : Nat), bank < 16 → master < 7 → width = 1 ∨ width = 2 ∨ width = 4 ∨ width = 8 → off + width ≤ bankBytes → s.hw.pg 6 = true →
      s.hw.bankFld bank Fld.MEM_BANK_OWNER_OWNER = presented master owner → s.hw.mem.off.contains (32 + bank) = false → s.hw.bankFld bank Fld.MEM_BANK_OWNER_RETAINED = 0 →
      s.hw.bankFld bank Fld.MEM_BANK_OWNER_CLEARING = 0 → s.hw.marchHolds bank off = false → s.hw.bankTaken bank = false → kvGetD s.hw.mem.wait bank [] = [] →
      s.hw.mem.bad.contains ((bank * bankBytes + off) / 8) = false → memWf s.hw.mem.ram = true →
      ∃ t, exec (.bankAccess bank master owner 1 width off value 0) s = .next t ∧ t.hw.mem.ram = writeMem s.hw.mem.ram (bank * bankBytes + off) width value ∧
        readMem t.hw.mem.ram (bank * bankBytes + off) width = value % 256 ^ width ∧
        (∀ a, a < bank * bankBytes + off ∨ bank * bankBytes + off + width ≤ a → readByte t.hw.mem.ram a = readByte s.hw.mem.ram a) ∧ memWf t.hw.mem.ram = true ∧
        (∀ r, r ≠ Reg.MEM_CONFLICT master → t.hw.rn r = s.hw.rn r) ∧ t.hw.out = s.hw.out) ∧
  (∀ (s : State) (bank master owner op width off value : Nat), bank < 16 → master < 7 → width = 1 ∨ width = 2 ∨ width = 4 ∨ width = 8 → off + width ≤ bankBytes → s.hw.pg 6 = true →
      s.hw.bankFld bank Fld.MEM_BANK_OWNER_OWNER = presented master owner → s.hw.mem.off.contains (32 + bank) = false → s.hw.bankFld bank Fld.MEM_BANK_OWNER_RETAINED = 0 →
      s.hw.bankFld bank Fld.MEM_BANK_OWNER_CLEARING = 0 → s.hw.marchHolds bank off = false → s.hw.bankTaken bank = false → kvGetD s.hw.mem.wait bank [] = [] →
      s.hw.mem.bad.contains ((bank * bankBytes + off) / 8) = false →
      let a := bank * bankBytes + off
      let old := readMem s.hw.mem.ram a width
      let z := (s.hw.add (Reg.MEM_CONFLICT master) (s.hw.clk - s.hw.clk)).onMem (fun m => { m with last := kvPut m.last bank (s.hw.clk, master) })
      let x := z.emit (.bank master a old)
      (op = 0 → exec (.bankAccess bank master owner op width off value 0) s = .next (s.on x)) ∧
      (op = 2 → 4 ≤ width → off % width = 0 → exec (.bankAccess bank master owner op width off value 0) s = .next (s.on (x.onMem (fun m => { m with ram := writeMem m.ram a width (old + value) })))) ∧
      (op = 3 → 4 ≤ width → off % width = 0 → exec (.bankAccess bank master owner op width off value 0) s = .next (s.on (x.onMem (fun m => { m with ram := writeMem m.ram a width value })))) ∧
      (op = 2 ∨ op = 3 → width < 4 ∨ off % width ≠ 0 → exec (.bankAccess bank master owner op width off value 0) s = .next (s.on ((z.emit (.bank master a 0)).inc Reg.MEM_BANK_DENIED)))) ∧
  (∀ (s : State) (bank master owner op width off value ecc : Nat), bank < 16 → master < 7 → width = 1 ∨ width = 2 ∨ width = 4 ∨ width = 8 → off + width ≤ bankBytes → op < 4 → s.hw.pg 6 = true →
      exec (.bankAccess bank master owner op width off value ecc) s = .next (s.on (s.hw.bankAccess bank ⟨master, presented master owner, op, width, off, value, 15, s.hw.clk, ecc⟩))) ∧
  (∀ (s : State) (bank master owner op width off value ecc : Nat), (16 ≤ bank ∨ 7 ≤ master ∨ (width ≠ 1 ∧ width ≠ 2 ∧ width ≠ 4 ∧ width ≠ 8) ∨ bankBytes < off + width ∨ 4 ≤ op ∨ s.hw.pg 6 = false) →
      exec (.bankAccess bank master owner op width off value ecc) s = .next s) ∧
  (∀ (h : Hw) (bank : Nat) (q : BankReq), h.bankFld bank Fld.MEM_BANK_OWNER_OWNER ≠ q.owner → h.bankAccess bank q = h.bankRefuse bank q) ∧
  (∀ (h : Hw) (bank : Nat) (q : BankReq), h.bankFld bank Fld.MEM_BANK_OWNER_OWNER = q.owner → h.mem.off.contains (32 + bank) = false → h.bankFld bank Fld.MEM_BANK_OWNER_RETAINED = 0 →
      (h.bankFld bank Fld.MEM_BANK_OWNER_CLEARING = 1 ∨ h.marchHolds bank q.off = true ∨ h.bankTaken bank = true) →
      h.bankAccess bank q = h.onMem (fun m => { m with wait := kvMod m.wait bank [] (· ++ [q]) })) ∧
  (∀ (s : State) (fn off en b : Nat),
      let q : Nat → BankReq := fun op => ⟨3, 2, op, 4, s.hw.fld Reg.MEM_APERTURE_SEL Fld.MEM_APERTURE_SEL_PAGE * 0x8000 + b / 4 * 4, s.hw.rn Reg.MEM_ATOM_OPERAND, en, s.hw.clk, 0⟩
      let bank := s.hw.fld Reg.MEM_APERTURE_SEL Fld.MEM_APERTURE_SEL_BANK
      (s.hw.hostAt fn off = .aperture 1 b → exec (.apertureAddRead fn off en) s = .next (s.on (s.hw.bankAccess bank (q 2)))) ∧
      (s.hw.hostAt fn off = .aperture 2 b → exec (.apertureSwapRead fn off en) s = .next (s.on (s.hw.bankAccess bank (q 3))))) ∧
  (∀ (s : State) (fn off en : Nat),
      ((∀ b, s.hw.hostAt fn off ≠ .aperture 1 b) → exec (.apertureAddRead fn off en) s = .next s) ∧
      ((∀ b, s.hw.hostAt fn off ≠ .aperture 2 b) → exec (.apertureSwapRead fn off en) s = .next s))

/-- R401, R402, R408 to R410, R412, R413, R455. -/
def Obligations.BanksClearWakeAndAreTested : Prop :=
  (∀ (s : State) (bank : Nat), bank < 16 → s.hw.bankFld bank Fld.MEM_BANK_OWNER_CLEARING = 1 → (kvGetD s.hw.mem.old bank (1, 0)).2 + 32768 ≤ s.hw.clk →
      exec (.bankClearDone bank) s = .next (s.on (s.hw.clearEnd bank))) ∧
  (∀ (s : State) (bank : Nat), (16 ≤ bank ∨ s.hw.bankFld bank Fld.MEM_BANK_OWNER_CLEARING ≠ 1 ∨ s.hw.clk < (kvGetD s.hw.mem.old bank (1, 0)).2 + 32768) →
      exec (.bankClearDone bank) s = .next s) ∧
  (∀ (h : Hw) (bank : Nat), kvGetD h.mem.pend bank [] = [] →
      let x := h.onMem (fun m => { m with ram := clearMem m.ram (bank * bankBytes) bankBytes, bad := m.bad.filter (fun w => w * 8 / bankBytes != bank), old := kvDel m.old bank })
      let y := ((x.setBank bank Fld.MEM_BANK_OWNER_CLEARING 0).setBank bank Fld.MEM_BANK_OWNER_RETAINED 0).setBank bank Fld.MEM_BANK_OWNER_WAKING 0
      let z := (y.handover bank (kvGetD h.mem.old bank (1, 0)).1 (y.bankFld bank Fld.MEM_BANK_OWNER_OWNER) false).grantDone bank
      (kvGetD z.mem.pend bank [] = [] → h.clearEnd bank = z.bankResume bank) ∧
      ∀ o p k ps, kvGetD z.mem.pend bank [] = (o, p, k) :: ps → h.clearEnd bank =
        ((z.onMem (fun m => { m with pend := kvPut m.pend bank ps })).ownerWrite bank (if (z.own.active.contains o && (kvGet z.own.tear o).isNone) = true then o else 1) p k).bankResume bank) ∧
  (∀ (m : List Host.Cell) (bank : Nat), memWf m = true →
      (∀ a, bank * bankBytes ≤ a → a < (bank + 1) * bankBytes → readByte (clearMem m (bank * bankBytes) bankBytes) a = 0) ∧
      (∀ a, a < bank * bankBytes ∨ (bank + 1) * bankBytes ≤ a → readByte (clearMem m (bank * bankBytes) bankBytes) a = readByte m a) ∧
      memWf (clearMem m (bank * bankBytes) bankBytes) = true) ∧
  (∀ (s : State) (bank : Nat), bank < 16 → s.hw.bankFld bank Fld.MEM_BANK_OWNER_WAKING = 1 → kvGetD s.hw.mem.wakeAt bank 0 + 20000 ≤ s.hw.clk →
      exec (.bankWakeDone bank) s = .next (s.on (((s.hw.setBank bank Fld.MEM_BANK_OWNER_WAKING 0).setBank bank Fld.MEM_BANK_OWNER_RETAINED 0).bankResume bank))) ∧
  (∀ (s : State) (bank : Nat), (16 ≤ bank ∨ s.hw.bankFld bank Fld.MEM_BANK_OWNER_WAKING ≠ 1 ∨ s.hw.clk < kvGetD s.hw.mem.wakeAt bank 0 + 20000) →
      exec (.bankWakeDone bank) s = .next s) ∧
  (∀ (s : State) (m : March), s.hw.mem.march = some m → m.preserve = true → m.chunk < 512 → m.from_ + 768 ≤ s.hw.clk →
      let x := (s.hw.onMem (fun x => { x with march := some { m with chunk := 512, from_ := s.hw.clk } })).marchResume (m.banks.take 4)
      let nxt : March := if m.chunk + 1 < 512 then { m with chunk := m.chunk + 1, from_ := s.hw.clk } else if m.banks.length ≤ 4 then { m with chunk := 512, from_ := s.hw.clk } else { m with chunk := 0, banks := m.banks.drop 4, from_ := s.hw.clk }
      exec .marchChunkDone s = .next (s.on (x.onMem (fun y => { y with march := some nxt })))) ∧
  (∀ (s : State), (s.hw.mem.march = none ∨ ∃ m, s.hw.mem.march = some m ∧ (m.preserve = false ∨ 512 ≤ m.chunk ∨ s.hw.clk < m.from_ + 768)) → exec .marchChunkDone s = .next s) ∧
  (∀ (s : State) (m : March) (fails : List (Nat × Nat × Nat × Nat × Nat)), s.hw.mem.march = some m → m.preserve = true → 512 ≤ m.chunk →
      let r := marchResult true fails
      let x := (((((s.hw).wn Reg.MEM_MARCH_RESULT r.1).wn Reg.MEM_MARCH_DETAIL r.2).setFld Reg.MEM_STATUS Fld.MEM_STATUS_MARCH_BUSY 0).onMem (fun y => { y with march := none })).post 1 0x0C04 0 r.1 r.2
      let y := ((((fails.map (·.1)).dedup).foldl Hw.marchFail x).marchResume m.banks).setReady Reg.MEM_STATUS Fld.MEM_STATUS_READY 1
      let z := match m.slot with | some k => y.complete k cOk 0 [r.1, r.2] | none => y
      exec (.marchTestDone fails) s = .next (s.on (z.testBanks (z.mem.off.filter (fun k => z.fld Reg.PWR_STATUS Fld.PWR_STATUS_STATE == 4 || (decide (32 ≤ k) && !(kvGetD z.mem.wait (k - 32) []).isEmpty)))))) ∧
  (∀ (s : State) (m : March) (fails : List (Nat × Nat × Nat × Nat × Nat)), s.hw.mem.march = some m → m.preserve = false → m.from_ + (m.banks.length + 3) / 4 * 327680 ≤ s.hw.clk →
      let r := marchResult false fails
      let x := (((((m.banks.foldl (fun a b => if 32 ≤ b then a.onMem (fun x => { x with ram := clearMem x.ram ((b - 32) * bankBytes) bankBytes, bad := x.bad.filter (fun w => w * 8 / bankBytes != b - 32) }) else a) s.hw).wn Reg.MEM_MARCH_RESULT r.1).wn Reg.MEM_MARCH_DETAIL r.2).setFld Reg.MEM_STATUS Fld.MEM_STATUS_MARCH_BUSY 0).onMem (fun y => { y with march := none })).post 1 0x0C04 0 r.1 r.2
      let y := ((((fails.map (·.1)).dedup).foldl Hw.marchFail x).marchResume m.banks).setReady Reg.MEM_STATUS Fld.MEM_STATUS_READY 1
      let z := match m.slot with | some k => y.complete k cOk 0 [r.1, r.2] | none => y
      exec (.marchTestDone fails) s = .next (s.on (z.testBanks (z.mem.off.filter (fun k => z.fld Reg.PWR_STATUS Fld.PWR_STATUS_STATE == 4 || (decide (32 ≤ k) && !(kvGetD z.mem.wait (k - 32) []).isEmpty)))))) ∧
  (∀ (s : State) (fails : List (Nat × Nat × Nat × Nat × Nat)), (s.hw.mem.march = none ∨ ∃ m, s.hw.mem.march = some m ∧
        ((m.preserve = true ∧ m.chunk < 512) ∨ (m.preserve = false ∧ s.hw.clk < m.from_ + (m.banks.length + 3) / 4 * 327680))) → exec (.marchTestDone fails) s = .next s) ∧
  (∀ s : State, s.hw.pg 47 = true → exec .lpddrReady s = .next (s.on (s.hw.setLpddr 1))) ∧
  (∀ s : State, s.hw.pg 47 = false → exec .lpddrReady s = .next s)

/-- R417 to R426. -/
def Obligations.SidebandTransactionsRunToTheirResponse : Prop :=
  (∀ (s : State) (slot addr word ctrl : Nat) (data : List Byte), slot < 16 → s.hw.pg 48 = true →
      let c : Nat → Nat := fun op => putF (putF ctrl Fld.SBB_REQ_CTRL_OP op) Fld.SBB_REQ_CTRL_GO 1
      exec (.sbbGoRead slot addr ctrl) s = .next (s.on (s.hw.sbbGo slot addr 0 (c 0) [] none)) ∧
      exec (.sbbGoWrite slot addr ctrl data) s = .next (s.on (s.hw.sbbGo slot addr (if data.length ≤ 4 then le data else s.hw.rn (Reg.SBB_REQ_DATA slot)) (c 1) data none)) ∧
      exec (.sbbGoRmw slot addr word ctrl) s = .next (s.on (s.hw.sbbGo slot addr word (c 2) [] none))) ∧
  (∀ (s : State) (slot addr word ctrl : Nat) (data : List Byte), (16 ≤ slot ∨ s.hw.pg 48 = false) →
      exec (.sbbGoRead slot addr ctrl) s = .next s ∧ exec (.sbbGoWrite slot addr ctrl data) s = .next s ∧ exec (.sbbGoRmw slot addr word ctrl) s = .next s) ∧
  (∀ (h : Hw) (slot addr word ctrl : Nat) (data : List Byte) (v : Option Nat), (kvGet h.sbb.tx slot).isSome = true → h.sbbGo slot addr word ctrl data v = h.inc Reg.SBB_GO_BUSY) ∧
  (∀ (h : Hw) (slot addr word ctrl : Nat) (data : List Byte) (v : Option Nat), kvGet h.sbb.tx slot = none →
      let x := (h.wn (Reg.SBB_REQ_ADDR slot) addr).wn (Reg.SBB_REQ_DATA slot) word
      let t0 : SbbTx := ⟨addr, word, ctrl, data, [], 0, 0, [], 0, 0, none, none, h.sbb.order, v, h.clk⟩
      let t : SbbTx := { t0 with left := x.sbbPieces t0 }
      let y := x.onSbb (fun b => { b with tx := kvPut b.tx slot t, order := b.order + 1 })
      let bad := 2 < t.op ∨ 12 ≤ t.chan ∨ (t.op = 2 ∧ 4 ≤ t.chan) ∨ t.left.isEmpty = true
      (bad → h.sbbGo slot addr word ctrl data v = y.sbbFinish slot 8) ∧ (¬ bad → y.chanFault t.chan = true → h.sbbGo slot addr word ctrl data v = y.sbbFinish slot 7) ∧
      (¬ bad → y.chanFault t.chan = false → h.sbbGo slot addr word ctrl data v = y.sbbStart t.chan)) ∧
  (∀ (s : State) (slot : Nat) (t : SbbTx), kvGet s.hw.sbb.tx slot = some t →
      (t.phase = 4 → exec (.sbbCancel slot) s = .next s) ∧ (t.phase = 1 → exec (.sbbCancel slot) s = .next (s.on (s.hw.onTx slot (fun x => { x with cancel := some s.hw.clk })))) ∧
      (t.phase ≠ 4 → t.phase ≠ 1 → exec (.sbbCancel slot) s = .next (s.on ((s.hw.sbbFinish slot 6).sbbStart t.chan)))) ∧
  (∀ (s : State) (slot : Nat), kvGet s.hw.sbb.tx slot = none →
      exec (.sbbCancel slot) s = .next (s.on (((s.hw.sbb.lock.filter (fun l => l.2.1 == slot)).map (·.1)).foldl
        (fun a c => ((a.onSbb (fun b => { b with lock := kvDel b.lock c })).emit (.farBusEnd c)).sbbStart c) s.hw)) ∧
      (s.hw.sbb.lock.filter (fun l => l.2.1 == slot) = [] → exec (.sbbCancel slot) s = .next s)) ∧
  (∀ (s : State) (slot : Nat),
      (kvGet s.hw.sbb.tx slot = none → exec (.sbbSlotRespRead slot) s = .next (s.on (s.hw.emit (.sbbResp slot 0)))) ∧
      (∀ t, kvGet s.hw.sbb.tx slot = some t → t.phase ≠ 4 → exec (.sbbSlotRespRead slot) s = .next (s.on (s.hw.onTx slot (fun x => { x with hold := some s.hw.clk })))) ∧
      (∀ t, kvGet s.hw.sbb.tx slot = some t → t.phase = 4 → t.serves = none → ∃ u, exec (.sbbSlotRespRead slot) s = .next (s.on u) ∧
        u.out = .sbbResp slot (t.response (s.hw.sbb.expired.contains slot)) :: s.hw.out ∧ kvGet u.sbb.tx slot = none)) ∧
  (∀ (s : State) (slot : Nat) (t : SbbTx), kvGet s.hw.sbb.tx slot = some t → t.phase = 4 →
      exec (.sbbSlotRespRead slot) s = .next (s.on ((s.hw.sbbRespond slot t).sbbFollow slot t.serves))) ∧
  (∀ (s : State) (slot : Nat) (t : SbbTx), kvGet s.hw.sbb.tx slot = some t →
      (∀ c, t.hold = some c → c + 2000 ≤ s.hw.clk → exec (.sbbHoldExpire slot) s = .next (s.on (((s.hw.onTx slot (fun x => { x with hold := none })).inc Reg.SBB_RETRY_RESP).emit (.sbbResp slot (2 ^ 62))))) ∧
      (∀ c, t.hold = some c → s.hw.clk < c + 2000 → exec (.sbbHoldExpire slot) s = .next s) ∧
      (t.hold = none → exec (.sbbHoldExpire slot) s = .next s)) ∧
  (∀ (s : State) (slot code n : Nat) (data : List Byte) (b : Bool), kvGet s.hw.sbb.tx slot = none →
      exec (.sbbHoldExpire slot) s = .next s ∧ exec (.sbbPieceComplete slot code n data b) s = .next s ∧ exec (.sbbRetryGapExpire slot) s = .next s ∧ exec (.sbbWritePoll slot b) s = .next s) ∧
  (∀ (s : State) (slot code n : Nat) (data : List Byte) (low : Bool) (t : SbbTx), kvGet s.hw.sbb.tx slot = some t → t.phase = 1 →
      let x := s.hw.onTx slot (fun x => { x with done := x.done + n })
      (low = true → isI2c t.chan = true → exec (.sbbPieceComplete slot code n data low) s = .next (s.on (x.chanFaults t.chan))) ∧
      (∀ c, (low = false ∨ isI2c t.chan = false) → t.cancel = some c → (c ≠ s.hw.clk ∨ s.hw.pieceLast code t = false) →
        exec (.sbbPieceComplete slot code n data low) s = .next (s.on (((if data.isEmpty = true then x else (x.inc Reg.SBB_LATE).lateResult 1).sbbFinish slot 6).sbbStart t.chan))) ∧
      ((low = false ∨ isI2c t.chan = false) → (t.cancel = none ∨ (t.cancel = some s.hw.clk ∧ s.hw.pieceLast code t = true)) →
        exec (.sbbPieceComplete slot code n data low) s = .next (s.on (s.hw.pieceEnd slot code n data t)))) ∧
  (∀ (h : Hw) (slot code n : Nat) (data : List Byte) (t : SbbTx),
      let x := h.onTx slot (fun x => { x with done := x.done + n, got := x.got ++ data })
      let polls := isI2c t.chan = true ∧ t.op = 1 ∧ h.fld (Reg.SBB_CHAN_TIMING t.chan) Fld.SBB_CHAN_TIMING_WR_CYCLE_MS ≠ 0
      (code = 0 → t.op ≠ 2 → ¬ polls → h.pieceEnd slot code n data t = x.sbbAdvance slot) ∧
      (code = 0 → polls → h.pieceEnd slot code n data t = x.onTx slot (fun y => { y with phase := 3, since := h.clk })) ∧
      (code = 1 ∨ code = 3 → isI2c t.chan = true → t.tries ≤ h.sbbRetries t → h.pieceEnd slot code n data t = h.onTx slot (fun x => { x with phase := 2, since := h.clk })) ∧
      (code ≠ 0 → ¬ ((code = 1 ∨ code = 3) ∧ isI2c t.chan = true ∧ t.tries ≤ h.sbbRetries t) → h.pieceEnd slot code n data t = (x.sbbFinish slot code).sbbStart t.chan)) ∧
  (∀ (s : State) (slot code n : Nat) (data : List Byte) (b : Bool) (t : SbbTx), kvGet s.hw.sbb.tx slot = some t →
      (t.phase ≠ 1 → exec (.sbbPieceComplete slot code n data b) s = .next s) ∧ (t.phase ≠ 3 → exec (.sbbWritePoll slot b) s = .next s)) ∧
  (∀ (s : State) (slot : Nat) (t : SbbTx), kvGet s.hw.sbb.tx slot = some t →
      (t.phase = 2 → t.since + s.hw.fld (Reg.SBB_CHAN_TIMING t.chan) Fld.SBB_CHAN_TIMING_RETRY_GAP_US * 500 ≤ s.hw.clk → exec (.sbbRetryGapExpire slot) s = .next (s.on ((s.hw.onTx slot (fun x => { x with phase := 1, tries := x.tries + 1 })).sbbPiece t))) ∧
      (¬ (t.phase = 2 ∧ t.since + s.hw.fld (Reg.SBB_CHAN_TIMING t.chan) Fld.SBB_CHAN_TIMING_RETRY_GAP_US * 500 ≤ s.hw.clk) → exec (.sbbRetryGapExpire slot) s = .next s)) ∧
  (∀ (s : State) (slot : Nat) (t : SbbTx), kvGet s.hw.sbb.tx slot = some t → t.phase = 3 →
      exec (.sbbWritePoll slot true) s = .next (s.on (s.hw.sbbAdvance slot)) ∧
      (t.since + s.hw.fld (Reg.SBB_CHAN_TIMING t.chan) Fld.SBB_CHAN_TIMING_WR_CYCLE_MS * 500000 ≤ s.hw.clk → exec (.sbbWritePoll slot false) s = .next (s.on ((s.hw.sbbFinish slot 1).sbbStart t.chan))) ∧
      (s.hw.clk < t.since + s.hw.fld (Reg.SBB_CHAN_TIMING t.chan) Fld.SBB_CHAN_TIMING_WR_CYCLE_MS * 500000 → exec (.sbbWritePoll slot false) s = .next s)) ∧
  (∀ (s : State) (chan slot c : Nat), kvGet s.hw.sbb.lock chan = some (slot, c) →
      (c + s.hw.fld (Reg.SBB_CHAN_TIMING chan) Fld.SBB_CHAN_TIMING_LOCK_MAX * 50000 ≤ s.hw.clk → exec (.sbbLockTimeout chan) s = .next (s.on (((s.hw.onSbb (fun b => { b with lock := kvDel b.lock chan, expired := insertNew b.expired slot })).emit (.farBusEnd chan)).sbbStart chan))) ∧
      (s.hw.clk < c + s.hw.fld (Reg.SBB_CHAN_TIMING chan) Fld.SBB_CHAN_TIMING_LOCK_MAX * 50000 → exec (.sbbLockTimeout chan) s = .next s)) ∧
  (∀ (s : State) (chan : Nat), kvGet s.hw.sbb.lock chan = none → exec (.sbbLockTimeout chan) s = .next s) ∧
  (∀ (s : State) (chan cfg timing : Nat), chan < 12 → s.hw.pg 48 = true →
      let x := (s.hw.image (Reg.SBB_CHAN_CFG chan) 0xFFF0FFFF cfg).wn (Reg.SBB_CHAN_TIMING chan) timing
      let f := x.fld Reg.SBB_STATUS Fld.SBB_STATUS_CHAN_FAULT
      let slow := (x.worstBudgets chan).any (fun b => decide (10000000 ≤ b))
      (∀ hi, slow = true → exec (.sbbChanRewrite chan cfg timing hi) s = .next s) ∧
      (slow = false → exec (.sbbChanRewrite chan cfg timing false) s = .next (s.on (x.sbbStart chan))) ∧
      (slow = false → f.testBit chan = true → exec (.sbbChanRewrite chan cfg timing true) s = .next (s.on ((x.setFld Reg.SBB_STATUS Fld.SBB_STATUS_CHAN_FAULT (f - 2 ^ chan)).sbbStart chan))) ∧
      (slow = false → f.testBit chan = false → exec (.sbbChanRewrite chan cfg timing true) s = .next (s.on (x.sbbStart chan)))) ∧
  (∀ (s : State) (chan cfg timing : Nat) (hi : Bool), (12 ≤ chan ∨ s.hw.pg 48 = false) → exec (.sbbChanRewrite chan cfg timing hi) s = .next s)

/-- R169, R427 to R429, R444, R472. -/
def Obligations.LinesAndRailsAct : Prop :=
  (∀ (s : State) (line : Nat) (level : Bool), line < 48 → s.hw.pg 48 = true →
      let x := s.hw.setFld (Reg.SBB_GPIO_CFG line) Fld.SBB_GPIO_CFG_IN (if level then 1 else 0)
      let e := x.fld (Reg.SBB_GPIO_CFG line) Fld.SBB_GPIO_CFG_EDGE
      let fires := x.fld (Reg.SBB_GPIO_CFG line) Fld.SBB_GPIO_CFG_DIR = 0 ∧ ((level = true ∧ e % 2 = 1) ∨ (level = false ∧ 2 ≤ e))
      (fires → exec (.gpioEdge line level) s = .next (s.on (x.fire [48 + line]))) ∧ (¬ fires → exec (.gpioEdge line level) s = .next (s.on x))) ∧
  (∀ (s : State) (line : Nat) (level : Bool), line < 8 → s.hw.pg 48 = false → s.hw.domOn 48 = false → exec (.gpioEdge line level) s = .next (s.on (s.hw.wakeDetect (20 + line)))) ∧
  (∀ (s : State) (line : Nat) (level : Bool), (48 ≤ line ∨ (s.hw.pg 48 = false ∧ (8 ≤ line ∨ s.hw.domOn 48 = true))) → exec (.gpioEdge line level) s = .next s) ∧
  (∀ (s : State) (k : Nat) (r : TaskRun), k < 16 → s.hw.taskRun? (8 + k) = some r →
      let y := ({ s.hw with tasks := dropRun s.hw.tasks (8 + k) } : Hw).lateBy r 1000
      let n := s.hw.fld (Reg.SBB_GPIO_TASK k) Fld.SBB_GPIO_TASK_LINE
      s.hw.flag (Reg.SBB_GPIO_TASK k) Fld.SBB_GPIO_TASK_EN = true → n < 48 → s.hw.flag Reg.SBB_STATUS Fld.SBB_STATUS_READY = true →
      (s.hw.fld (Reg.SBB_GPIO_TASK k) Fld.SBB_GPIO_TASK_ACTION = 0 → exec (.gpioTask k) s = .next (s.on ((y.gpioDrive n (some true)).taskRecord r))) ∧
      (s.hw.fld (Reg.SBB_GPIO_TASK k) Fld.SBB_GPIO_TASK_ACTION = 1 → exec (.gpioTask k) s = .next (s.on ((y.gpioDrive n (some false)).taskRecord r))) ∧
      (s.hw.fld (Reg.SBB_GPIO_TASK k) Fld.SBB_GPIO_TASK_ACTION = 2 → exec (.gpioTask k) s = .next (s.on ((y.gpioDrive n none).taskRecord r)))) ∧
  (∀ (s : State) (k : Nat) (r : TaskRun), k < 16 → s.hw.taskRun? (8 + k) = some r → s.hw.fld (Reg.SBB_GPIO_TASK k) Fld.SBB_GPIO_TASK_EN ≠ 1 →
      exec (.gpioTask k) s = .next (s.on (({ s.hw with tasks := dropRun s.hw.tasks (8 + k) } : Hw).taskRecord r))) ∧
  (∀ (s : State) (k : Nat), (16 ≤ k ∨ s.hw.taskRun? (8 + k) = none) → exec (.gpioTask k) s = .next s) ∧
  (∀ (s : State) (rail : Nat), rail < 12 → s.hw.flag (Reg.SBB_RAIL_CFG rail) Fld.SBB_RAIL_CFG_ON = true → (s.hw.flag (Reg.SBB_RAIL_CFG rail) Fld.SBB_RAIL_CFG_PG = true ∨ kvGetD s.hw.sbb.railAt rail 0 + s.hw.fld (Reg.SBB_RAIL_CFG rail) Fld.SBB_RAIL_CFG_PG_TIMEOUT_MS * 500000 ≤ s.hw.clk) →
      exec (.railFault rail) s = .next (s.on (s.hw.railFault rail (s.hw.flag (Reg.SBB_RAIL_CFG rail) Fld.SBB_RAIL_CFG_PG)))) ∧
  (∀ (s : State) (rail : Nat), (12 ≤ rail ∨ s.hw.flag (Reg.SBB_RAIL_CFG rail) Fld.SBB_RAIL_CFG_ON = false ∨ (s.hw.flag (Reg.SBB_RAIL_CFG rail) Fld.SBB_RAIL_CFG_PG = false ∧ ¬ (kvGetD s.hw.sbb.railAt rail 0 + s.hw.fld (Reg.SBB_RAIL_CFG rail) Fld.SBB_RAIL_CFG_PG_TIMEOUT_MS * 500000 ≤ s.hw.clk))) → exec (.railFault rail) s = .next s) ∧
  (∀ (s : State) (rail : Nat) (t : Nat × Nat), rail < 12 → kvGet s.hw.sbb.railTry rail = some t → t.2 + s.hw.fld (Reg.SBB_RAIL_CFG rail) Fld.SBB_RAIL_CFG_RETRY_MS * 500000 ≤ s.hw.clk →
      s.hw.flag (Reg.SBB_RAIL_CFG rail) Fld.SBB_RAIL_CFG_FAULT = false → s.hw.flag (Reg.SBB_RAIL_CFG rail) Fld.SBB_RAIL_CFG_ON = false →
      exec (.railRetryExpire rail) s = .next (s.on (s.hw.railEnable rail true))) ∧
  (∀ (s : State) (rail : Nat), (12 ≤ rail ∨ kvGet s.hw.sbb.railTry rail = none ∨ (∃ t, kvGet s.hw.sbb.railTry rail = some t ∧ ¬ (t.2 + s.hw.fld (Reg.SBB_RAIL_CFG rail) Fld.SBB_RAIL_CFG_RETRY_MS * 500000 ≤ s.hw.clk)) ∨
      s.hw.flag (Reg.SBB_RAIL_CFG rail) Fld.SBB_RAIL_CFG_FAULT = true ∨ s.hw.flag (Reg.SBB_RAIL_CFG rail) Fld.SBB_RAIL_CFG_ON = true) → exec (.railRetryExpire rail) s = .next s) ∧
  (∀ (s : State) (rail : Nat), rail < 12 → s.hw.pg 48 = true →
      let x := s.hw.setFld (Reg.SBB_RAIL_CFG rail) Fld.SBB_RAIL_CFG_PG 1
      (s.hw.flag (Reg.SBB_RAIL_CFG rail) Fld.SBB_RAIL_CFG_FAULT = true → exec (.railPowerGood rail) s = .next (s.on (s.hw.lateResult 2))) ∧
      (s.hw.flag (Reg.SBB_RAIL_CFG rail) Fld.SBB_RAIL_CFG_FAULT = false → exec (.railPowerGood rail) s = .next (s.on
        (if x.flag (Reg.SBB_RAIL_CFG rail) Fld.SBB_RAIL_CFG_ON = true then x.railDone rail else x)))) ∧
  (∀ (s : State) (rail : Nat), (12 ≤ rail ∨ s.hw.pg 48 = false) → exec (.railPowerGood rail) s = .next s)

/-- R14, R336, R353, R433, R435, R442, R443, R445, R449, R450, R453. -/
def Obligations.ResetsAndRegulatorsFollowTheirOrder : Prop :=
  (∀ s : State, ∃ t u, exec (.por true) s = .next t ∧ exec (.por false) s = .next u ∧ t.fuse = s.fuse ∧ u.fuse = s.fuse ∧ t.pending = s.pending ∧ u.pending = s.pending ∧
      t.hw = { Hw.reset with clk := s.hw.clk, free := s.hw.free, out := s.hw.out } ∧
      u.hw.pwr = { Hw.reset.pwr with busy := false, startUp := false, goal := 0, regUp := none } ∧ u.hw.fld Reg.PWR_STATUS Fld.PWR_STATUS_TARGET = 0) ∧
  (∀ s : State, s.hw.pwr.powered = true → s.hw.pwr.rstLow = false → s.hw.pwr.thermOff = false →
      (s.hw.pwr.busy = false → s.hw.powerState = 0 → exec .pwrOnEdge s = .next (s.on (s.hw.startDevice 7 4))) ∧
      (s.hw.pwr.busy = false → s.hw.powerState = 1 → s.hw.pwr.offAt + s.hw.msLeast 2 ≤ s.hw.clk → exec .pwrOnEdge s = .next (s.on ((s.hw.recordWake 28).wakeStart))) ∧
      (s.hw.pwr.busy = false → s.hw.powerState = 1 → s.hw.clk < s.hw.pwr.offAt + s.hw.msLeast 2 → exec .pwrOnEdge s = .next (s.on (s.hw.wakeDetect 28))) ∧
      (s.hw.pwr.busy = true → s.hw.pwr.startUp = true → s.hw.pwr.cause = 3 → exec .pwrOnEdge s = .next (s.on (s.hw.recordWake 28))) ∧
      (s.hw.pwr.busy = true → s.hw.pwr.startUp = false → s.hw.pwr.goal = 1 → exec .pwrOnEdge s = .next (s.on (s.hw.wakeDetect 28)))) ∧
  (∀ s : State, (s.hw.pwr.powered = false ∨ s.hw.pwr.rstLow = true ∨ s.hw.pwr.thermOff = true ∨ (s.hw.pwr.busy = false ∧ 2 ≤ s.hw.powerState) ∨
        (s.hw.pwr.busy = true ∧ s.hw.pwr.goal ≠ 1 ∧ (s.hw.pwr.startUp = false ∨ s.hw.pwr.cause ≠ 3))) → exec .pwrOnEdge s = .next s) ∧
  (∀ s : State, s.hw.pwr.powered = true →
      (s.hw.powerState = 0 → s.hw.pwr.busy = false → exec .rstNLow s = .next (s.on (s.hw.onPwr (fun p => { p with rstLow := true })))) ∧
      (s.hw.powerState ≠ 0 ∨ s.hw.pwr.busy = true → exec .rstNLow s = .next (s.on ((s.hw.wipe []).onPwr (fun p =>
        { p with rstLow := true, busy := true, startUp := true, goal := 4, cause := 1, regUp := none, regDown := none, boot := false, retry := false, latched := [] }))))) ∧
  (∀ s : State, s.hw.pwr.powered = false → exec .rstNLow s = .next s) ∧
  (∀ s : State, (s.hw.pwr.rstLow = false → exec .rstNHigh s = .next s) ∧ (s.hw.pwr.rstLow = true →
      let x := s.hw.onPwr (fun p => { p with rstLow := false })
      (s.hw.powerState = 0 → s.hw.pwr.busy = false → exec .rstNHigh s = .next (s.on x)) ∧ (s.hw.powerState ≠ 0 ∨ s.hw.pwr.busy = true → exec .rstNHigh s = .next (s.on (x.startDevice 1 4))))) ∧
  (∀ s : State,
      (s.hw.pg 4 = true → exec .treustLockstepFault s = .next (s.on ((s.hw.wipe []).startDevice 6 4))) ∧ (s.hw.pg 4 = false → exec .treustLockstepFault s = .next s) ∧
      (s.hw.pg 5 = true → exec .controlPairFault s = .next (s.on s.hw.fwRestart)) ∧ (s.hw.pg 5 = false → exec .controlPairFault s = .next s) ∧
      (∀ c, s.hw.sys.resetReq = some c → c + 500000 ≤ s.hw.clk → exec .sysResetExpire s = .next (s.on ((s.hw.wipe []).startDevice 2 4))) ∧
      (∀ c, s.hw.sys.resetReq = some c → s.hw.clk < c + 500000 → exec .sysResetExpire s = .next s) ∧ (s.hw.sys.resetReq = none → exec .sysResetExpire s = .next s)) ∧
  (∀ s : State, (s.hw.pwr.regUp = none → exec .regDelayExpire s = .next s) ∧
      ∀ n, s.hw.pwr.regUp = some n →
        let wait := if n = 0 then 0 else s.hw.msLeast (s.hw.fld (Reg.PWR_REG_CFG n) Fld.PWR_REG_CFG_DELAY_MS)
        (s.hw.regOn n = true ∨ s.hw.clk < s.hw.pwr.regAt + wait → exec .regDelayExpire s = .next s) ∧
        (s.hw.regOn n = false → s.hw.pwr.regAt + wait ≤ s.hw.clk → exec .regDelayExpire s = .next (s.on (s.hw.setReg n true)))) ∧
  (∀ (s : State) (n : Nat), n < 6 → s.hw.regOn n = true → s.hw.regPg n = false →
      let x := s.hw.setFld (Reg.PWR_REG_CFG n) Fld.PWR_REG_CFG_PG 1
      let z := x.onPwr (fun p => { p with regAt := x.clk })
      let limit := if s.hw.pwr.startUp = true then regCount s.hw.pwr.goal else 6
      let later := (List.range limit).find? (fun m => decide (n < m) && !z.regPg m)
      let y := z.onPwr (fun p => { p with regUp := none })
      (s.hw.pwr.regUp ≠ some n → exec (.regPowerGood n) s = .next (s.on x)) ∧
      (s.hw.pwr.regUp = some n → ∀ m, later = some m → exec (.regPowerGood n) s = .next (s.on (z.onPwr (fun p => { p with regUp := some m })))) ∧
      (s.hw.pwr.regUp = some n → later = none → s.hw.pwr.startUp = true → y.flag Reg.PWR_STATUS Fld.PWR_STATUS_PG = false → exec (.regPowerGood n) s = .next (s.on y.powerGood)) ∧
      (s.hw.pwr.regUp = some n → later = none → s.hw.pwr.startUp = false ∨ y.flag Reg.PWR_STATUS Fld.PWR_STATUS_PG = true → exec (.regPowerGood n) s = .next (s.on y.settle))) ∧
  (∀ (s : State) (n : Nat), (6 ≤ n ∨ s.hw.regOn n = false ∨ s.hw.regPg n = true) → exec (.regPowerGood n) s = .next s) ∧
  (∀ (s : State) (n : Nat), n < 6 → s.hw.pwr.regUp = some n → s.hw.regOn n = true → s.hw.regPg n = false → s.hw.pwr.regAt + s.hw.msLeast (s.hw.fld (Reg.PWR_REG_CFG n) Fld.PWR_REG_CFG_PG_TIMEOUT_MS) ≤ s.hw.clk →
      let x := (s.hw.inc (Reg.PWR_REG_FAULTS n)).latchReg n
      let goal := if s.hw.pwr.fromOff = true then 0 else 1
      (s.hw.pwr.startUp = true → exec (.regPgTimeout n) s = .next (s.on ((x.setFld Reg.PWR_STATUS Fld.PWR_STATUS_TARGET goal).onPwr (fun p =>
        { p with startUp := false, goal := goal, regUp := none, regDown := some 0, toOn := [], slot := none })))) ∧
      (s.hw.pwr.startUp = false → exec (.regPgTimeout n) s = .next (s.on (((x.post 1 0x0D03 n 0).onPwr (fun p => { p with regUp := none, regDown := some 4 })).domainFault 47)))) ∧
  (∀ (s : State) (n : Nat), (6 ≤ n ∨ s.hw.pwr.regUp ≠ some n ∨ s.hw.regOn n = false ∨ s.hw.regPg n = true ∨ s.hw.clk < s.hw.pwr.regAt + s.hw.msLeast (s.hw.fld (Reg.PWR_REG_CFG n) Fld.PWR_REG_CFG_PG_TIMEOUT_MS)) → exec (.regPgTimeout n) s = .next s) ∧
  (∀ (s : State) (n : Nat), s.hw.regOn n = true → s.hw.regPg n = true →
      let x := (s.hw.setFld (Reg.PWR_REG_CFG n) Fld.PWR_REG_CFG_PG 0).inc (Reg.PWR_REG_FAULTS n)
      let w := x.wipe []
      let fails := w.pwr.fails.filter (fun t => decide (w.clk < t + 500000000)) ++ [w.clk]
      let y := (w.onPwr (fun p => { p with fails := fails, retry := !decide (3 ≤ fails.length), busy := true, startUp := false, waking := false, goal := 1, regUp := none, regDown := some 0, boot := false })).setFld
        Reg.PWR_STATUS Fld.PWR_STATUS_TARGET 1
      let z := ((if x.domOn 47 = true then x.domainOff 47 else x).post 1 0x0D03 n 1).latchReg n
      (n < 4 → fails.length < 3 → exec (.regPgLost n) s = .next (s.on y)) ∧ (n < 4 → 3 ≤ fails.length → exec (.regPgLost n) s = .next (s.on (y.latchReg n))) ∧
      (4 ≤ n → n < 6 → exec (.regPgLost n) s = .next (s.on (z.onPwr (fun p => { p with toOn := without p.toOn 47, ramping := without p.ramping 47, regDown := some 4, regUp := none }))))) ∧
  (∀ (s : State) (n : Nat), (6 ≤ n ∨ s.hw.regOn n = false ∨ s.hw.regPg n = false) → exec (.regPgLost n) s = .next s) ∧
  (∀ s : State, (s.hw.pwr.retry = true → s.hw.pwr.fails.getLastD 0 + s.hw.msLeast 10 ≤ s.hw.clk → (List.range 6).any s.hw.regOn = false →
        exec .regRetryExpire s = .next (s.on (s.hw.startDevice 4 4))) ∧
      (s.hw.pwr.retry = false ∨ s.hw.clk < s.hw.pwr.fails.getLastD 0 + s.hw.msLeast 10 ∨ (List.range 6).any s.hw.regOn = true → exec .regRetryExpire s = .next s)) ∧
  (∀ (s : State) (low : Nat), s.hw.pwr.regDown = some low →
      let on := (List.range 6).filter (fun n => decide (low ≤ n) && s.hw.regOn n)
      (s.hw.clk < s.hw.pwr.offAt + s.hw.msLeast 1 → exec .regOffStep s = .next s) ∧
      (s.hw.pwr.offAt + s.hw.msLeast 1 ≤ s.hw.clk →
        (on = [] → exec .regOffStep s = .next (s.on (s.hw.onPwr (fun p => { p with regDown := none })).settle)) ∧
        ∀ n, on.getLast? = some n →
          (on.length ≤ 1 → exec .regOffStep s = .next (s.on (((s.hw.setReg n false).onPwr (fun p => { p with regDown := none })).settle))) ∧
          (1 < on.length → exec .regOffStep s = .next (s.on (s.hw.setReg n false))))) ∧
  (∀ s : State, s.hw.pwr.regDown = none → exec .regOffStep s = .next s)

/-- R432 to R448. -/
def Obligations.PowerStatesClocksAndHeat : Prop :=
  (∀ (s : State) (q : PwrReq), s.hw.pwr.req = some q →
      (s.hw.pwr.busy = false → s.hw.pwr.rstLow = false → q.due ≤ s.hw.clk → exec .pwrTransitionStart s = .next (s.on (s.hw.beginTransition q))) ∧
      (s.hw.pwr.busy = true ∨ s.hw.pwr.rstLow = true ∨ s.hw.clk < q.due → exec .pwrTransitionStart s = .next s)) ∧
  (∀ s : State, s.hw.pwr.req = none → exec .pwrTransitionStart s = .next s) ∧
  (∀ s : State, s.hw.pwr.busy = true → s.hw.pwr.rails ≠ 2 → s.hw.pwr.rstLow = false → s.hw.pwr.startUp = false ∨ s.hw.flag Reg.PWR_STATUS Fld.PWR_STATUS_PG = true →
      s.hw.pwr.ramping = [] → s.hw.sinceRound = false →
      let x := s.hw.onPwr (fun p => { p with roundAt := some s.hw.clk })
      (s.hw.pwr.toOff = [] → exec .domainSwitchRound s = .next (s.on x.roundOn)) ∧ (s.hw.pwr.toOff ≠ [] → exec .domainSwitchRound s = .next (s.on x.roundOff))) ∧
  (∀ s : State, (s.hw.pwr.busy = false ∨ s.hw.pwr.rails = 2 ∨ s.hw.pwr.rstLow = true ∨ (s.hw.pwr.startUp = true ∧ s.hw.flag Reg.PWR_STATUS Fld.PWR_STATUS_PG = false) ∨
        s.hw.pwr.ramping ≠ [] ∨ s.hw.sinceRound = true) → exec .domainSwitchRound s = .next s) ∧
  (∀ (s : State) (d : Nat), s.hw.pwr.ramping.contains d = true →
      let x := (s.hw.setPair Reg.PWR_DOMAIN_PG_LO Reg.PWR_DOMAIN_PG_HI d 1).setPair Reg.PWR_DOMAIN_FAULT_LO Reg.PWR_DOMAIN_FAULT_HI d 0
      let y := (x.setFld Reg.PWR_STATUS Fld.PWR_STATUS_DOMAIN_FAULT (if x.rn Reg.PWR_DOMAIN_FAULT_LO + x.rn Reg.PWR_DOMAIN_FAULT_HI = 0 then 0 else 1)).onPwr (fun p =>
        { p with toOn := without p.toOn d, ramping := without p.ramping d })
      (d = 6 → exec (.domainPowerGood d) s = .next (s.on y.bootMarch.settle)) ∧ (d ≠ 6 → exec (.domainPowerGood d) s = .next (s.on y.settle))) ∧
  (∀ (s : State) (d : Nat), s.hw.pwr.ramping.contains d = false → exec (.domainPowerGood d) s = .next s ∧ exec (.domainPgTimeout d) s = .next s) ∧
  (∀ (s : State) (d : Nat), s.hw.pwr.ramping.contains d = true → s.hw.sinceRound = false → (d < 7 ∨ 22 < d) → exec (.domainPgTimeout d) s = .next (s.on (s.hw.domainFault d).settle)) ∧
  (∀ (s : State) (d : Nat), s.hw.pwr.ramping.contains d = true → s.hw.sinceRound = false → 7 ≤ d → d ≤ 22 →
      let x := s.hw.domainFault d
      let alone := x.domOn 25 = true ∧ (List.range 16).any (fun g => x.domOn (7 + g) || x.pwr.toOn.contains (7 + g)) = false
      (¬ alone → exec (.domainPgTimeout d) s = .next (s.on x.settle)) ∧
      (alone → exec (.domainPgTimeout d) s = .next (s.on ((x.onPwr (fun p => { p with toOn := dropDependents 8 [25] (without p.toOn 25), ramping := without p.ramping 25 })).domainOff 25).settle))) ∧
  (∀ (s : State) (d : Nat), s.hw.sinceRound = true → exec (.domainPgTimeout d) s = .next s) ∧
  (∀ s : State, s.hw.pwr.busy = true → s.hw.pwr.rails = 2 →
      let k := (s.hw.railsDown.map s.hw.railStage).foldl max 0
      let y := (s.hw.railsDown.filter (fun r => s.hw.railStage r == k && s.hw.railDue s.hw.pwr.railAt r Fld.PWR_RAIL_SEQ_OFF_DELAY_MS)).foldl Hw.railOff s.hw
      let x := if y.railsDown.any (fun r => y.railStage r == k) = true then y else y.onPwr (fun p => { p with stage := k - 1, railAt := y.clk })
      (y.railsDown = [] → exec .railStageAdvance s = .next (s.on (x.onPwr (fun p => { p with rails := 0 })).settle)) ∧ (y.railsDown ≠ [] → exec .railStageAdvance s = .next (s.on x))) ∧
  (∀ (s : State) (k : Nat) (ks : List Nat), s.hw.pwr.busy = true → s.hw.pwr.rails = 1 → s.hw.railsSettled = true → s.hw.stagesLeft = k :: ks →
      let n := ks.foldl min k
      let waits : Nat → Bool := fun r => s.hw.railStage r == n && !s.hw.railIsOn r && !s.hw.railSettled r
      let due : Nat → Bool := fun r => waits r && s.hw.railDue s.hw.railsSince r Fld.PWR_RAIL_SEQ_ON_DELAY_MS
      let x := (s.hw.railsUp.filter due).foldl Hw.railOn s.hw
      exec .railStageAdvance s = .next (s.on (if s.hw.railsUp.any (fun r => waits r && !due r) = true then x else (x.onPwr (fun p => { p with stage := n + 1 })).settle))) ∧
  (∀ s : State, s.hw.pwr.busy = true → s.hw.pwr.rails = 1 → s.hw.railsSettled = true → s.hw.stagesLeft = [] → exec .railStageAdvance s = .next (s.on s.hw.settle)) ∧
  (∀ s : State, (s.hw.pwr.busy = false ∨ (s.hw.pwr.rails ≠ 2 ∧ (s.hw.pwr.rails ≠ 1 ∨ s.hw.railsSettled = false))) → exec .railStageAdvance s = .next s) ∧
  (∀ s : State, (s.hw.powerState = 1 → s.hw.pwr.busy = false → s.hw.pwr.latched ≠ [] → s.hw.pwr.thermOff = false → s.hw.pwr.offAt + s.hw.msLeast 2 ≤ s.hw.clk →
        exec .standbyWake s = .next (s.on s.hw.wakeStart)) ∧
      (s.hw.powerState ≠ 1 ∨ s.hw.pwr.busy = true ∨ s.hw.pwr.latched = [] ∨ s.hw.pwr.thermOff = true ∨ s.hw.clk < s.hw.pwr.offAt + s.hw.msLeast 2 → exec .standbyWake s = .next s)) ∧
  (∀ (s : State) (source : Nat), 2 ≤ s.hw.powerState → s.hw.pwr.busy = false → s.hw.pwr.latched.contains source = true →
      let x := s.hw.onPwr (fun p => { p with latched := without p.latched source })
      let ds := (wakeDomains source).filter (fun d => !x.domOn d)
      let auto := s.hw.powerState = 2 ∧ s.hw.flag Reg.PWR_WAKE_CFG Fld.PWR_WAKE_CFG_LISTEN_AUTO = true
      (auto → exec (.listenWake source) s = .next (s.on ((x.beginTransition ⟨4, 0, 0, none, 0⟩).onPwr (fun p => { p with waking := p.busy })))) ∧ (¬ auto → ds = [] → exec (.listenWake source) s = .next (s.on x)) ∧
      (¬ auto → ds ≠ [] → ∃ y, exec (.listenWake source) s = .next (s.on y) ∧ y.pwr = { x.pwr with busy := true, startUp := false, goal := s.hw.powerState, roundAt := none, toOn := ds, rails := 3, waking := true })) ∧
  (∀ (s : State) (source : Nat), s.hw.powerState < 2 ∨ s.hw.pwr.busy = true ∨ s.hw.pwr.latched.contains source = false → exec (.listenWake source) s = .next s) ∧
  (∀ s : State, (s.hw.powerState = 1 → s.hw.fld Reg.PWR_WAKE_CFG Fld.PWR_WAKE_CFG_TIMER_S ≠ 0 → s.hw.pwr.standbyAt + s.hw.fld Reg.PWR_WAKE_CFG Fld.PWR_WAKE_CFG_TIMER_S * 499975000 ≤ s.hw.clk → exec .wakeTimerExpire s = .next (s.on (s.hw.wakeDetect 29))) ∧
      (s.hw.powerState ≠ 1 ∨ s.hw.fld Reg.PWR_WAKE_CFG Fld.PWR_WAKE_CFG_TIMER_S = 0 ∨ s.hw.clk < s.hw.pwr.standbyAt + s.hw.fld Reg.PWR_WAKE_CFG Fld.PWR_WAKE_CFG_TIMER_S * 499975000 → exec .wakeTimerExpire s = .next s)) ∧
  (∀ (s : State) (ppm : Int), 2 ≤ s.hw.powerState ∨ s.hw.pwr.busy = true → 1000 * ppmUnit < ppm.natAbs → ppm ≤ -1000000 * ppmUnit →
      let l := (ppm :: s.hw.pwr.ppm).take 8
      let x := ((s.hw.onPwr (fun p => { p with ppm := l })).wn Reg.PWR_REF_PPM_LAST (twos 32 ppm)).wn Reg.PWR_REF_PPM (twos 32 (meanInt l))
      (x.flag Reg.PWR_CLK_STATUS Fld.PWR_CLK_STATUS_AO_XTAL_FAIL = true → exec (.refMonitorWindow ppm) s = .next (s.on x)) ∧
      (x.flag Reg.PWR_CLK_STATUS Fld.PWR_CLK_STATUS_AO_XTAL_FAIL = false → ∃ y : Hw, exec (.refMonitorWindow ppm) s = .next (s.on (y.clockHoldover (l.getD 1 0))) ∧ y.pwr.drift = 0 ∧ y.pwr.ppm = l)) ∧
  (∀ (s : State) (ppm : Int), s.hw.powerState < 2 → s.hw.pwr.busy = false → exec (.refMonitorWindow ppm) s = .next s) ∧
  (∀ (s : State) (ppm : Int), 2 ≤ s.hw.powerState ∨ s.hw.pwr.busy = true →
      let l := (ppm :: s.hw.pwr.ppm).take 8
      let w := ((s.hw.onPwr (fun p => { p with ppm := l })).wn Reg.PWR_REF_PPM_LAST (twos 32 ppm)).wn Reg.PWR_REF_PPM (twos 32 (meanInt l))
      let x := if decide (-1000000 * ppmUnit < ppm) = true then w.setFld Reg.PWR_CLK_STATUS Fld.PWR_CLK_STATUS_REF_LOST 0 else w
      let y := x.onPwr (fun p => { p with drift := if (ppm.natAbs : Int) ≤ 180 * ppmUnit then p.drift + 1 else 0 })
      let was := y.flag Reg.PWR_CLK_STATUS Fld.PWR_CLK_STATUS_REF_DRIFT
      let drifted := decide (200 * ppmUnit < ((meanInt l).natAbs : Int))
      let z := if (drifted && !was) = true then ((y.setFld Reg.PWR_CLK_STATUS Fld.PWR_CLK_STATUS_REF_DRIFT 1).inc Reg.PWR_REF_DRIFT_EVENTS).post 1 0x0D04 0 (y.rn Reg.PWR_REF_PPM)
        else if (was && decide (8 ≤ y.pwr.drift) && !drifted) = true then y.setFld Reg.PWR_CLK_STATUS Fld.PWR_CLK_STATUS_REF_DRIFT 0 else y
      let n := if decide (-1000000 * ppmUnit < ppm) = true ∧ (ppm.natAbs : Int) ≤ 200 * ppmUnit then z.pwr.hold + 1 else 0
      let u := z.onPwr (fun p => { p with hold := n })
      exec (.refMonitorWindow ppm) s = .next (s.on (if x.flag Reg.PWR_CLK_STATUS Fld.PWR_CLK_STATUS_AO_XTAL_FAIL = true then x
        else if 1000 * ppmUnit < ((meanInt l).natAbs : Int) ∨ 1000 * ppmUnit < (ppm.natAbs : Int) then z.clockHoldover (z.pwr.ppm.getD 1 0)
        else if z.flag Reg.PWR_CLK_STATUS Fld.PWR_CLK_STATUS_HOLDOVER = true then (if 16 ≤ n then u.setFld Reg.PWR_CLK_STATUS Fld.PWR_CLK_STATUS_RELOCKING 1 else u) else z))) ∧
  (∀ s : State, (s.hw.flag Reg.PWR_CLK_STATUS Fld.PWR_CLK_STATUS_PLL_LOCK = true → exec .refEdgeLoss s = .next (s.on ((s.hw.setFld Reg.PWR_CLK_STATUS Fld.PWR_CLK_STATUS_REF_LOST 1).clockHoldover (s.hw.pwr.ppm.getD 0 0)))) ∧
      (s.hw.flag Reg.PWR_CLK_STATUS Fld.PWR_CLK_STATUS_PLL_LOCK = false → exec .refEdgeLoss s = .next s) ∧
      (s.hw.pwr.powered = true → exec .aoXtalFail s = .next (s.on (s.hw.setFld Reg.PWR_CLK_STATUS Fld.PWR_CLK_STATUS_AO_XTAL_FAIL 1))) ∧ (s.hw.pwr.powered = false → exec .aoXtalFail s = .next s)) ∧
  (∀ s : State, (s.hw.flag Reg.PWR_CLK_STATUS Fld.PWR_CLK_STATUS_RELOCKING = true →
        exec .pllRelockDone s = .next (s.on (((s.hw.setFld Reg.PWR_CLK_STATUS Fld.PWR_CLK_STATUS_RELOCKING 0).setFld Reg.PWR_CLK_STATUS Fld.PWR_CLK_STATUS_HOLDOVER 0).post 1 0x0D06 0))) ∧
      (s.hw.flag Reg.PWR_CLK_STATUS Fld.PWR_CLK_STATUS_RELOCKING = false → exec .pllRelockDone s = .next s)) ∧
  (∀ (s : State) (temp : Int), s.hw.pwr.powered = true →
      let x := s.hw.setFld Reg.PWR_THERM Fld.PWR_THERM_TEMP (twos 16 temp)
      let warn : Int := x.fld Reg.PWR_THERM Fld.PWR_THERM_WARN_C * 4
      let set := x.flag Reg.PWR_STATUS Fld.PWR_STATUS_THERM_WARN
      let y := if warn ≤ temp ∧ set = false then (x.setFld Reg.PWR_STATUS Fld.PWR_STATUS_THERM_WARN 1).post 1 0x0D07 0 (x.rn Reg.PWR_THERM)
        else if temp ≤ warn - 20 ∧ set = true then x.setFld Reg.PWR_STATUS Fld.PWR_STATUS_THERM_WARN 0 else x
      exec (.thermSample temp) s = .next (s.on (if 520 ≤ temp ∧ y.pwr.thermOff = false ∧ (List.range 6).any y.regOn = true then y.thermalShutdown temp else y))) ∧
  (∀ (s : State) (temp : Int), s.hw.pwr.powered = false → exec (.thermSample temp) s = .next s) ∧
  (∀ s : State, s.hw.pwr.thermOff = true → signed 16 (s.hw.fld Reg.PWR_THERM Fld.PWR_THERM_TEMP) < 440 → (List.range 6).any s.hw.regOn = false →
      s.hw.pwr.thermAt = none ∨ (∃ t, s.hw.pwr.thermAt = some t ∧ t + 5000000000 ≤ s.hw.clk) →
      exec .thermalRestart s = .next (s.on ((s.hw.onPwr (fun p => { p with thermAt := some s.hw.clk })).startDevice 5 4))) ∧
  (∀ s : State, (s.hw.pwr.thermOff = false ∨ 440 ≤ signed 16 (s.hw.fld Reg.PWR_THERM Fld.PWR_THERM_TEMP) ∨ (List.range 6).any s.hw.regOn = true ∨
        ∃ t, s.hw.pwr.thermAt = some t ∧ s.hw.clk < t + 5000000000) → exec .thermalRestart s = .next s)

/-- R337, R339, R350, R353, R430, R456, R462, R468: what each SYS command does. Payload layouts that the spec does not give are the model's choice (log entry 22). -/
def Obligations.SysCommandsComplete : Prop :=
  (∀ (s : State) (owner slot : Nat) (q : Slot), s.hw.runs owner slot 0x0101 q →
      let h := s.hw
      let major := bits (q.w 0) 31 16
      let minor := min (bits (q.w 0) 15 0) 2
      let r := Reg.MBX_OWNER_STATUS owner
      let after : Hw := (h.setFld r Fld.MBX_OWNER_STATUS_NEGOTIATED 1).setFld r Fld.MBX_OWNER_STATUS_GCS_MINOR minor
      (major = 3) →
      h.clean after noDeadlock →
      exec (.sysHello owner slot) s = .next (s.done owner slot after [3 * 2 ^ 16 + minor])) ∧
  (∀ (s : State) (owner slot : Nat) (q : Slot), s.hw.runs owner slot 0x0101 q →
      let h := s.hw
      let after : Hw := h
      (bits (q.w 0) 31 16 ≠ 3) →
      exec (.sysHello owner slot) s = .next (s.closed owner slot after cVersion 0 [0x00030002])) ∧
  (∀ (s : State) (owner slot : Nat) (q : Slot), s.hw.runs owner slot 0x0102 q →
      let h := s.hw
      let after : Hw := h
      h.clean after noDeadlock →
      exec (.sysInfo owner slot) s = .next (s.done owner slot after [0x00030002, h.rn Reg.MBX_C_VERSION, h.rn Reg.MBX_S_VERSION, h.rn Reg.MBX_EPOCHS, h.rn Reg.GLB_ID,
        h.own.active.length, 512])) ∧
  (∀ (s : State) (owner slot : Nat) (q : Slot), s.hw.runs owner slot 0x0103 q →
      let h := s.hw
      let after : Hw := h
      h.clean after noDeadlock →
      exec (.sysBootReport owner slot) s = .next (s.done owner slot after (h.rn Reg.MBX_BOOT_REPORT :: (List.range 4).flatMap (fun i => descriptorWords (h.sys.copies.getD i none))))) ∧
  (∀ (s : State) (owner slot : Nat) (q : Slot), s.hw.runs owner slot 0x0104 q →
      let h := s.hw
      let n := q.w 0
      let r : Nat × Option (Nat × Nat) × Hw := runElements noDeadlock (fun a i x =>
          if x % 4096 ≠ 0 ∨ flashBytes ≤ x then (some (cBadParam, 4 * (i + 1)), a)
          else (none, a.emit (.flash x (List.replicate 4096 255)))) (q.payload.drop 1) 0 h
      let after : Hw := r.2.2
      (∀ chk ∈ ([badAt (n = 0 || q.payload.length != n + 1) 0] : List Check), chk.1 = false) →
      (r.2.1 = none) →
      h.clean after noDeadlock →
      exec (.sysFlashErase owner slot) s = .next (s.done owner slot after [r.1])) ∧
  (∀ (s : State) (owner slot : Nat) (q : Slot), s.hw.runs owner slot 0x0104 q →
      let h := s.hw
      let n := q.w 0
      let r : Nat × Option (Nat × Nat) × Hw := runElements noDeadlock (fun a i x =>
          if x % 4096 ≠ 0 ∨ flashBytes ≤ x then (some (cBadParam, 4 * (i + 1)), a)
          else (none, a.emit (.flash x (List.replicate 4096 255)))) (q.payload.drop 1) 0 h
      ∀ (code detail : Nat),
      let after : Hw := r.2.2
      (∀ chk ∈ ([badAt (n = 0 || q.payload.length != n + 1) 0] : List Check), chk.1 = false) →
      (r.2.1 = some (code, detail)) →
      exec (.sysFlashErase owner slot) s = .next (s.closed owner slot after code detail [r.1])) ∧
  (∀ (s : State) (owner slot : Nat) (q : Slot), s.hw.runs owner slot 0x0105 q →
      let h := s.hw
      let at_ := q.w 0
      let len := q.w 3
      let r : Nat × Option (Nat × Nat) × Hw := runElements noDeadlock (fun a _ p =>
          if flashBytes ≤ at_ + 256 * p then (some (cBadParam, 12), a)
          else (none, a.emit (.flash (at_ + 256 * p) (sub q.buf (256 * p) 256)))) (List.range (len / 256)) 0 h
      let after : Hw := r.2.2
      (∀ chk ∈ ([badAt (at_ % 256 != 0 || decide (flashBytes ≤ at_)) 0, badAt (len = 0 || len % 256 != 0) 12] : List Check), chk.1 = false) →
      (r.2.1 = none) →
      h.clean after noDeadlock →
      exec (.sysFlashWrite owner slot) s = .next (s.done owner slot after [r.1])) ∧
  (∀ (s : State) (owner slot : Nat) (q : Slot), s.hw.runs owner slot 0x0106 q →
      let h := s.hw
      let after : Hw := { h with sys := { h.sys with resetReq := some h.clk } }
      h.clean after noDeadlock →
      exec (.sysReset owner slot) s = .next (s.done owner slot after [])) ∧
  (∀ (s : State) (owner slot : Nat) (q : Slot), s.hw.runs owner slot 0x0107 q →
      let h := s.hw
      ∀ (e : EarlySet),
      let after : Hw := h.emit (.hostWrite owner (q.w64 1) ((wordsOf ((e.copy.bytes.length + 3) / 4) (e.copy.bytes ++ [0, 0, 0])).take (q.w 3 / 4)))
      (h.sys.early = some e) →
      (owner < 2 ∨ 257 < owner ∨ (h.hdma.linkUp = true ∧ (h.pciFn owner).busMaster = true)) →
      h.clean after noDeadlock →
      exec (.sysEarlyRead owner slot) s = .next (s.done owner slot after [(wordsOf ((e.copy.bytes.length + 3) / 4) (e.copy.bytes ++ [0, 0, 0])).length])) ∧
  (∀ (s : State) (owner slot : Nat) (q : Slot), s.hw.runs owner slot 0x0107 q →
      let h := s.hw
      let after : Hw := h
      (h.sys.early = none) →
      exec (.sysEarlyRead owner slot) s = .next (s.closed owner slot after cNoObject 0 [])) ∧
  (∀ (s : State) (owner slot : Nat) (copy : ImageCopy) (q : Slot), s.hw.runs owner slot 0x0108 q →
      let h := s.hw
      let after : Hw := h.drawn.emit (.flash (h.draw % flashBytes) (copy.block ++ copy.bytes))
      h.clean after noDeadlock →
      exec (.sysEarlyWrite owner slot copy) s = .next (if s.fuse.verified 3 copy then s.done owner slot after [] else s.closed owner slot h cAuth 0 [])) ∧
  (∀ (s : State) (owner slot : Nat) (q : Slot), s.hw.runs owner slot 0x0109 q →
      let h := s.hw
      let t := q.w 0
      let mask := (List.range 8).map (fun i => q.w (1 + i))
      let others := decide (t < 4) && (decide (65536 ≤ mask.getD 0 0) || (mask.drop 1).any (fun x => x != 0))
      let cfgMask := 2 ^ Fld.EVF_TASK_CFG_RECORD.lo ||| (511 * 2 ^ Fld.EVF_TASK_CFG_OWNER.lo)
      let after : Hw := (let x := h.images ((mask.mapIdx (fun i v => (i, v))).map (fun p => (Reg.EVF_ROUTE t p.1, 0xFFFFFFFF, p.2)))
              if q.payload.length = 10 then x.cfg (Reg.EVF_TASK_CFG t) cfgMask (q.w 9) else x)
      (∀ chk ∈ ([badAt (decide (104 ≤ t)) 0, badAt others 4, q.reserved ([127] ++ List.replicate 8 0xFFFFFFFF ++ [cfgMask])] : List Check), chk.1 = false) →
      h.clean after noDeadlock →
      exec (.sysEvfRoute owner slot) s = .next (s.done owner slot after [])) ∧
  (∀ (s : State) (owner slot : Nat) (auth : Bool) (q : Slot), s.hw.runs owner slot 0x010A q →
      let h := s.hw
      let w := q.w 0
      let idx := bits w 1 0
      let size := bits w 5 4
      let links := (List.range 4).filter (fun p => bit w (8 + p))
      let members := (List.range 4).filter (fun k => decide (k ≤ size) && k != idx)
      let after : Hw := (
          let x := ((h.setFld Reg.GLB_TOPOLOGY Fld.GLB_TOPOLOGY_DEV_INDEX idx).setFld Reg.GLB_TOPOLOGY Fld.GLB_TOPOLOGY_CASCADE_SIZE size)
          let x := (List.range 4).foldl (fun a p => a.setCascade p (links.contains p)) x
          let macs := (idx :: members).map (fun k => (k, [q.w64 (1 + 2 * k)]))
          let ends := links.filterMap (fun p =>
            if bit (q.w (9 + p)) 31 then some (16 + p, [bits (q.w (9 + p)) 1 0, bits (q.w (9 + p)) 12 8]) else none)
          let x := { x with sys := { x.sys with
            peers := (macs ++ ends).foldl (fun (m : Kv (List Nat)) (e : Nat × List Nat) => kvPut m e.1 e.2) [], authed := maskOf members, edges := [] } }
          let x := x.setFld Reg.GLB_TOPOLOGY Fld.GLB_TOPOLOGY_MEMBERS_SEEN 0
          let x := links.foldl (fun a p => if a.linkUp p then a.seeMembers p true else a) x
          members.foldl (fun a k => a.emit (.cpu 14874 (toBe 1 k))) x)
      (∀ chk ∈ (([h.denyAny owner (links.map (fun p => (1, p))),
          q.reserved ([0xF33] ++ (List.replicate 4 [0xFFFFFFFF, 0xFFFF]).flatten ++ List.replicate 4 0x80001F03),
          badAt (decide (size < idx)) 0] ++
          links.map (fun p => badAt (!h.macsecOn p) 1) ++
          links.map (fun p => badState (h.fld (Reg.MAC_CFG p) Fld.MAC_CFG_MODE != 1) 1 p) ++ [(!auth, cAuth, 0)]) : List Check), chk.1 = false) →
      h.clean after Hw.deadlocks →
      exec (.sysCascadeForm owner slot auth) s = .next (s.done owner slot after [])) ∧
  (∀ (s : State) (owner slot : Nat) (q : Slot), s.hw.runs owner slot 0x010B q →
      let h := s.hw
      let k := q.w 0
      let after : Hw := (h.emit (.cpu 14874 (toBe 1 k)))
      (∀ chk ∈ ([q.reserved [3], (!h.sys.authed.testBit k, cNoObject, 0)] : List Check), chk.1 = false) →
      h.clean after noDeadlock →
      exec (.sysCascadeResync owner slot) s = .next (s.done owner slot after [])) ∧
  (∀ (s : State) (owner slot : Nat) (q : Slot), s.hw.runs owner slot 0x010C q →
      let h := s.hw
      let after : Hw := h
      h.clean after noDeadlock →
      exec (.sysCascadeStatus owner slot) s = .next (s.done owner slot after ([h.rn Reg.GLB_TOPOLOGY] ++ (List.range 4).map (fun k => h.rn (Reg.FWD_CASCADE_PATH k)) ++ [h.fwd.txSeq] ++
        (List.range 4).map (fun k => kvGetD h.fwd.rxSeq k 0))))

/-- R19, R21, R353, R354, R461, R465: what each OWN command does. Payload layouts that the spec does not give are the model's choice (log entry 22). -/
def Obligations.OwnCommandsComplete : Prop :=
  (∀ (s : State) (owner slot : Nat) (q : Slot), s.hw.runs owner slot 0x0201 q →
      let h := s.hw
      let o := q.w 0
      let after : Hw := h.createOwner o
      (∀ chk ∈ ([badAt (decide (o < 258) || decide (511 < o)) 0, (h.own.active.contains o || h.keysBarred, cState, o)] : List Check), chk.1 = false) →
      (h.flag Reg.SEC_STATUS Fld.SEC_STATUS_TRNG_FAIL = false) →
      (h.sec.trngDown = false) →
      h.clean after noDeadlock →
      exec (.ownCreate owner slot) s = .next (s.done owner slot after [])) ∧
  (∀ (s : State) (owner slot : Nat) (q : Slot), s.hw.runs owner slot 0x0202 q →
      let h := s.hw
      let o := q.w 0
      let erased := match kvGet h.own.tear o with | some t => t.erased | none => false
      let after : Hw := ((h.setSlot (owner * 32 + slot) { q with committed := true }).tearStart o (decide (o ≤ 257)))
      (∀ chk ∈ ([badAt (decide (o < 3) || decide (511 < o)) 0, (!h.own.active.contains o, cNoObject, o), (erased, cState, o)] : List Check), chk.1 = false) →
      exec (.ownTeardown owner slot) s = .next (s.on after)) ∧
  (∀ (s : State) (owner slot : Nat) (q : Slot), s.hw.runs owner slot 0x0203 q →
      let h := s.hw
      let access := bits (q.w 0) 17 16
      let o := q.grantee
      let held (w : Nat) : Bool := match kvGet h.own.conf w with | some x => x != 1 && x != o | none => false
      let after : Hw := (q.resources.foldl (fun a w => a.grantRes o (access == 3) w) h)
      (∀ chk ∈ ((badAt (access != 1 && access != 3) 2 :: h.grantChecks q ++ (!h.alive o, cState, o) ::
          q.resources.map (fun w => (access == 3 && held w, cConflict, w))) : List Check), chk.1 = false) →
      h.clean after noDeadlock →
      exec (.ownGrant owner slot) s = .next (s.done owner slot after [])) ∧
  (∀ (s : State) (owner slot : Nat) (q : Slot), s.hw.runs owner slot 0x0204 q →
      let h := s.hw
      let after : Hw := (q.resources.foldl (fun a w => a.revokeRes q.grantee w) h)
      (∀ chk ∈ ((h.grantChecks q ++ q.resources.map (fun w => (!h.holds q.grantee w, cNoObject, w))) : List Check), chk.1 = false) →
      h.clean after noDeadlock →
      exec (.ownRevoke owner slot) s = .next (s.done owner slot after [])) ∧
  (∀ (s : State) (owner slot : Nat) (q : Slot), s.hw.runs owner slot 0x0205 q →
      let h := s.hw
      let o := q.w 0
      let after : Hw := h.emit (.hostWrite owner (q.w64 1) ((h.policyWords o).take (q.w 3 / 4)))
      (∀ chk ∈ ([(owner != 1 && o != owner, cDenied, o), badAt (decide (511 < o)) 0, (!h.own.active.contains o, cNoObject, o)] : List Check), chk.1 = false) →
      (owner < 2 ∨ 257 < owner ∨ (h.hdma.linkUp = true ∧ (h.pciFn owner).busMaster = true)) →
      h.clean after noDeadlock →
      exec (.ownPolicyRead owner slot) s = .next (s.done owner slot after [(h.policyWords o).length])) ∧
  (∀ (s : State) (owner slot : Nat) (q : Slot), s.hw.runs owner slot 0x0206 q →
      let h := s.hw
      let o := q.w 0
      let pairs := if 2 ≤ o ∧ o ≤ 257 then List.range 8 else []
      let after : Hw := (pairs.foldl (fun a i => a.setFld (Reg.HDMA_Q_CTRL ((o - 2) * 8 + i)) Fld.HDMA_Q_CTRL_HOLD (q.w (2 + i)))
          (h.wn (Reg.EVF_SVC_BOUND o) (q.w 1)))
      (∀ chk ∈ (([badAt (decide (511 < o)) 0, badAt (q.w 1 = 0 || decide (10000 < q.w 1)) 4] ++
          pairs.map (fun i => badAt (q.w (2 + i) = 0 || decide (100 < q.w (2 + i))) (8 + 4 * i)) ++
          [(!h.own.active.contains o, cNoObject, o)]) : List Check), chk.1 = false) →
      h.clean after noDeadlock →
      exec (.ownSetLimits owner slot) s = .next (s.done owner slot after [])) ∧
  (∀ (s : State) (owner slot : Nat) (q : Slot), s.hw.runs owner slot 0x0207 q →
      let h := s.hw
      let l := (List.range 512).filter h.own.active.contains
      let after : Hw := h
      h.clean after noDeadlock →
      exec (.ownList owner slot) s = .next (s.done owner slot after (l.length :: ((l.filter (fun o => decide (q.w 0 ≤ o))).take 27).map (fun o => ownerKind o * 65536 + o))))

/-- R178 to R203, R353, R355: what each PORT command does. Payload layouts that the spec does not give are the model's choice (log entry 22). -/
def Obligations.PortCommandsComplete : Prop :=
  (∀ (s : State) (owner slot : Nat) (q : Slot), s.hw.runs owner slot 0x0301 q →
      let h := s.hw
          let m := q.w 0
      let c := q.w 1
      let old := h.rn (Reg.MAC_CFG m)
      let mode := getF c Fld.MAC_CFG_MODE
      let en := getF c Fld.MAC_CFG_EN == 1
      let rate := getF c Fld.MAC_CFG_RATE
      let an := getF c Fld.MAC_CFG_AN_EN == 1 && (mode == 3 || mode == 5)
      let vid := bits (q.w 5) 27 16
      let own := bits (q.w 5) 8 0
      let us := bits (q.w 2) 25 16
      let clash := h.q0Clash m mode
      let link : Nat := 0x4FC  -- MODE, RATE, AN_EN and the inversion bits
      let relink := old &&& (link ||| 0x300) != c &&& (link ||| 0x300) || (getF old Fld.MAC_CFG_EN == 1 && !en)
      let x := h.images ([(Reg.MAC_CFG m, 0x7FFD, c), (Reg.MAC_LINK_CFG m, 0x3FF00FF, q.w 2)] ++
        (if m < 20 then [(Reg.MAC_RX_PHY_LAT m, 0xFFFFFFFF, q.w 3), (Reg.MAC_TX_PHY_LAT m, 0xFFFFFFFF, q.w 4)] else []))
      let x := { x with fwd := { x.fwd with defVid := kvPut x.fwd.defVid m vid, defOwner := kvPut x.fwd.defOwner m own } }
      -- the bounds at the rate the port would run at
      let y := if an || !h.linkUp m then h else h.setFld (Reg.MAC_STATUS m) Fld.MAC_STATUS_RATE rate
      let after : Hw := if relink then x.takeDown m else x
      (∀ chk ∈ ([h.deny owner 1 m, denyOwner owner own, q.reserved [31, 0x7FFD, 0x3FF00FF, 0xFFFFFFFF, 0xFFFFFFFF, 0x0FFF01FF],
        badAt (decide (24 ≤ m)) 0, badAt (if mode = 0 then en || decide (20 ≤ m) else !(macModes m).contains mode) 4,
        badAt (mode != 0 && !an && !(modeRates mode).contains rate) 5, badAt (us = 0 || decide (1000 < us)) 10,
        (!h.alive own, cNoObject, own), badState (!en && h.carries m) 1 m,
        badState (h.isCascade m && mode != 1) 1 m, conflict (mode != 0 && !h.pllFits m mode) 1 m,
        conflict clash.isSome 1 (clash.getD 0), x.quotaCheck] : List Check), chk.1 = false) →
      (Hw.boundBreaks h y = none) →
      h.clean after noDeadlock →
      exec (.portSet owner slot) s = .next (s.done owner slot after [])) ∧
  (∀ (s : State) (owner slot : Nat) (q : Slot), s.hw.runs owner slot 0x0302 q →
      let h := s.hw
      let m := q.w 0
      let after : Hw := h
      (∀ chk ∈ ([h.denyRead owner 1 m, q.reserved [31], badAt (decide (24 ≤ m)) 0] : List Check), chk.1 = false) →
      h.clean after noDeadlock →
      exec (.portGet owner slot) s = .next (s.done owner slot after [h.rn (Reg.MAC_CFG m), h.rn (Reg.MAC_LINK_CFG m), h.rn (Reg.MAC_RX_PHY_LAT m), h.rn (Reg.MAC_TX_PHY_LAT m),
          kvGetD h.fwd.defVid m 1 * 65536 + kvGetD h.fwd.defOwner m 1, h.rn (Reg.MAC_STATUS m)])) ∧
  (∀ (s : State) (owner slot : Nat) (q : Slot), s.hw.runs owner slot 0x0303 q →
      let h := s.hw
      let k := q.w 0
      let v := q.w 1 % 2
      let macs := (List.range 4).map (fun l => 4 * k + l)
      let lanes := macs.filter (fun m => h.macMode m == 1 || h.macMode m == 2 || h.macMode m == 3)
      let clash := if k = 0 then lanes.find? (fun m => (h.macMode m == 1) != (v == 1)) else none
      let after : Hw := (if h.fld (Reg.SQ_CFG k) Fld.SQ_CFG_PLLA_RATE = v then h
          else lanes.foldl Hw.takeDown (h.cfg (Reg.SQ_CFG k) 1 v))
      (∀ chk ∈ (([h.denyAny owner (macs.map (fun m => (1, m))), q.reserved [7, 1], badAt (decide (5 ≤ k)) 0, badAt (k != 0 && v == 1) 4] ++
          macs.map (fun m => badState (h.carries m) 1 m) ++ [conflict clash.isSome 1 (clash.getD 0)]) : List Check), chk.1 = false) →
      h.clean after noDeadlock →
      exec (.portQuadSet owner slot) s = .next (s.done owner slot after [])) ∧
  (∀ (s : State) (owner slot : Nat) (q : Slot), s.hw.runs owner slot 0x0304 q →
      let h := s.hw
      let m := q.w 0
      let after : Hw := (h.cfg (Reg.SQ_LANE_EQ (m / 4) (m % 4)) 0x1FFF1F (q.w 1))
      (∀ chk ∈ ([h.deny owner 1 m, q.reserved [31, 0x1FFF1F], badAt (decide (20 ≤ m)) 0] : List Check), chk.1 = false) →
      h.clean after noDeadlock →
      exec (.portEqSet owner slot) s = .next (s.done owner slot after [])) ∧
  (∀ (s : State) (owner slot : Nat) (q : Slot), s.hw.runs owner slot 0x0305 q →
      let h := s.hw
      let m := q.w 0 % 32
      let i := bits (q.w 0) 12 8
      let after : Hw := (h.images [(Reg.MAC_STEER m i, 0xFFF00FFF, q.w 1), (Reg.MAC_STEER_TYPE m i, 0xFFFF, q.w 2)])
      (∀ chk ∈ ([h.deny owner 1 m, q.reserved [0x1F1F, 0xFFF00FFF, 0xFFFF], badAt (decide (24 ≤ m)) 0] : List Check), chk.1 = false) →
      h.clean after noDeadlock →
      exec (.portSteerSet owner slot) s = .next (s.done owner slot after [])) ∧
  (∀ (s : State) (owner slot : Nat) (q : Slot), s.hw.runs owner slot 0x0306 q →
      let h := s.hw
      let m := q.w 0
      let c := q.w 1
      let tw := getF c Fld.MAC_EEE_CFG_TW_US
      let after : Hw := (h.cfg (Reg.MAC_EEE_CFG m) 0x83FF03FF c)
      (∀ chk ∈ ([h.deny owner 1 m, q.reserved [31, 0x83FF03FF], badAt (decide (20 ≤ m)) 0, badAt (tw = 0) 4,
          badAt (getF c Fld.MAC_EEE_CFG_IDLE_US = 0) 6, badAt (getF c Fld.MAC_EEE_CFG_EN == 1 && h.eeeShort m tw) 4] : List Check), chk.1 = false) →
      h.clean after noDeadlock →
      exec (.portEeeSet owner slot) s = .next (s.done owner slot after [])) ∧
  (∀ (s : State) (owner slot : Nat) (q : Slot), s.hw.runs owner slot 0x0307 q →
      let h := s.hw
      let m := q.w 0
      let c := q.w 1
      let n := getF c Fld.MAC_PLCA_CFG_NODE_COUNT
      let after : Hw := (
          let x := h.images [(Reg.MAC_PLCA_CFG m, 0x870FFFFF, c), (Reg.MAC_PLCA_LIMIT m, 0x3FFF00FF, q.w 2)]
          if getF c Fld.MAC_PLCA_CFG_EN = 0 then x.setFld (Reg.MAC_PLCA_STATUS m) Fld.MAC_PLCA_STATUS_ACTIVE 0
          else if getF c Fld.MAC_PLCA_CFG_ID = 0 ∧ h.linkUp m then x.setFld (Reg.MAC_PLCA_STATUS m) Fld.MAC_PLCA_STATUS_ACTIVE 1
          else x)
      (∀ chk ∈ ([h.deny owner 1 m, q.reserved [31, 0x870FFFFF, 0x3FFF00FF], badAt (decide (m < 20) || decide (24 ≤ m)) 0,
          badAt (n = 0 || decide (8 < n)) 6] : List Check), chk.1 = false) →
      h.clean after noDeadlock →
      exec (.portPlcaSet owner slot) s = .next (s.done owner slot after [])) ∧
  (∀ (s : State) (owner slot : Nat) (q : Slot), s.hw.runs owner slot 0x0308 q →
      let h := s.hw
      let m := q.w 0
      let pat := q.w 4 = 512
      let after : Hw := (
          if m < 20 then (h.cfg (Reg.MAC_CFG m) 0x800 (q.w 1)).onMac (fun a => { a with
            wakePol := if bit (q.w 1) 11 then insertNew a.wakePol m else without a.wakePol m })
          else
            let x := h.cfg (Reg.MAC_WAKE_PAT_EN m) 15 (q.w 1)
            if pat then x.images (((q.bufWords 128).mapIdx (fun i v => (i, v))).map (fun p => (Reg.MAC_WAKE_PAT m p.1, 0xFFFFFFFF, p.2)))
            else x)
      (∀ chk ∈ ([h.deny owner 1 m, q.reserved [31, if m < 20 then 0x800 else 15], badAt (decide (24 ≤ m)) 0,
          badAt (q.w 4 != 0 && (!pat || decide (m < 20))) 16] : List Check), chk.1 = false) →
      h.clean after noDeadlock →
      exec (.portWakeSet owner slot) s = .next (s.done owner slot after [])) ∧
  (∀ (s : State) (owner slot : Nat) (q : Slot), s.hw.runs owner slot 0x0309 q →
      let h := s.hw
      let m := q.w 0
      let c := q.w 1
      let en := getF c Fld.MAC_SEC_CFG_EN
      let after : Hw := (
          let x := h.images ([(Reg.MAC_SEC_CFG m, 0xFF000003, c), (Reg.MAC_SEC_REPLAY_WINDOW m, 0xFFFFFFFF, q.w 2)] ++
            (List.range 4).map (fun i => (Reg.MAC_SEC_BYPASS m i, 0xFFFFFFFF, q.w (3 + i))))
          x.setFld (Reg.MAC_STATUS m) Fld.MAC_STATUS_MACSEC_ACTIVE (if x.macsecOn m && h.linkUp m then 1 else 0))
      (∀ chk ∈ ([h.deny owner 1 m, q.reserved [31, 0xFF000003], badAt (decide (20 ≤ m)) 0,
          badAt (getF c Fld.MAC_SEC_CFG_VALIDATE = 3) 7, badAt (getF c Fld.MAC_SEC_CFG_CONF_OFFSET = 3) 7,
          badAt (h.isCascade m && en == 0) 7] : List Check), chk.1 = false) →
      h.clean after noDeadlock →
      exec (.portMacsecSet owner slot) s = .next (s.done owner slot after [])) ∧
  (∀ (s : State) (owner slot : Nat) (q : Slot), s.hw.runs owner slot 0x030A q →
      let h := s.hw
      let g := q.w 0
      let macs := (List.range 4).map (fun i => 4 * g + i)
      let ds := (31 + g) :: (if g < 5 then [26 + g] else [])
      let after : Hw := (ds.foldl (fun a d => if a.domOn d then a.domainOff d else a) (h.onPwr (fun p => { p with
          toOn := p.toOn.filter (fun d => !ds.contains d), ramping := p.ramping.filter (fun d => !ds.contains d) })))
      (∀ chk ∈ (([h.denyAny owner (macs.map (fun m => (1, m))), badAt (decide (6 ≤ g)) 0] ++ macs.map (fun m => badState (h.carries m) 1 m)) : List Check), chk.1 = false) →
      h.clean after noDeadlock →
      exec (.portSleep owner slot) s = .next (s.done owner slot after []))

/-- R75 to R113, R350, R353, R356: what each FWD command does. Payload layouts that the spec does not give are the model's choice (log entry 22). -/
def Obligations.FwdCommandsComplete : Prop :=
  (∀ (s : State) (owner slot : Nat) (q : Slot), s.hw.runs owner slot 0x0401 q →
      let h := s.hw
      let e := emOfPayload h.ageNow q.payload
      let r := h.emPut e
      ∀ (evicted : Bool),
      let after : Hw := r.2
      (∀ chk ∈ ((h.emChecks owner q.payload) : List Check), chk.1 = false) →
      (r.1 = some evicted) →
      h.clean after Hw.deadlocks →
      exec (.fwdEmAdd owner slot) s = .next (s.done owner slot after [((r.2.emAt e.type e.key).map (fun p => posWord p.1)).getD 0, evicted.toNat])) ∧
  (∀ (s : State) (owner slot : Nat) (q : Slot), s.hw.runs owner slot 0x0402 q →
      let h := s.hw
      let t := q.w 0 % 16
      ∀ (e : Nat × EmEntry),
      let after : Hw := h.emRemove none [e.1]
      (∀ chk ∈ ([h.denyEntry owner e.2 [], q.reserved [15, 0xFFFFFFFF, 0xFFFFFFFF, 15]] : List Check), chk.1 = false) →
      (h.emAt t (keyWords (q.w 1) (q.w 2) (q.w 3)) = some e) →
      h.clean after noDeadlock →
      exec (.fwdEmDel owner slot) s = .next (s.done owner slot after [])) ∧
  (∀ (s : State) (owner slot : Nat) (q : Slot), s.hw.runs owner slot 0x0403 q →
      let h := s.hw
      let n := q.w 0
      let ws := q.bufWords (7 * n)
      let r : Nat × Option (Nat × Nat) × Hw := runElements Hw.deadlocks (fun a i (_ : Nat) =>
          match a.emAdd owner ((ws.drop (7 * i)).take 7) with
          | .ok x _ => (none, x)
          | .wait x => (none, x)
          | .no c d _ x => (some (c, if c = cBadParam then 28 * i + d else d), x)) (List.range n) 0 h
      let after : Hw := r.2.2
      (∀ chk ∈ ([q.reserved [0x7FF], badAt (n = 0 || decide (1024 < n)) 0, badAt (q.w 3 != 28 * n) 12] : List Check), chk.1 = false) →
      (r.2.1 = none) →
      h.clean after Hw.deadlocks →
      exec (.fwdEmAddBulk owner slot) s = .next (s.done owner slot after [r.1])) ∧
  (∀ (s : State) (owner slot : Nat) (q : Slot), s.hw.runs owner slot 0x0403 q →
      let h := s.hw
      let n := q.w 0
      let ws := q.bufWords (7 * n)
      let r : Nat × Option (Nat × Nat) × Hw := runElements Hw.deadlocks (fun a i (_ : Nat) =>
          match a.emAdd owner ((ws.drop (7 * i)).take 7) with
          | .ok x _ => (none, x)
          | .wait x => (none, x)
          | .no c d _ x => (some (c, if c = cBadParam then 28 * i + d else d), x)) (List.range n) 0 h
      ∀ (code detail : Nat),
      let after : Hw := r.2.2
      (∀ chk ∈ ([q.reserved [0x7FF], badAt (n = 0 || decide (1024 < n)) 0, badAt (q.w 3 != 28 * n) 12] : List Check), chk.1 = false) →
      (r.2.1 = some (code, detail)) →
      exec (.fwdEmAddBulk owner slot) s = .next (s.closed owner slot after code detail [r.1])) ∧
  (∀ (s : State) (owner slot : Nat) (q : Slot), s.hw.runs owner slot 0x0404 q →
      let h := s.hw
      let x := if bit (q.w 0) 31 then (kvGet h.fwd.em (posOfWord (q.w 1))).map (fun e => (posOfWord (q.w 1), e))
        else h.emAt (q.w 0 % 16) (keyWords (q.w 1) (q.w 2) (q.w 3))
      ∀ (p : Nat) (e : EmEntry),
      let after : Hw := h
      (∀ chk ∈ ([h.denyLook owner e, q.reserved [0x8000000F]] : List Check), chk.1 = false) →
      (x = some (p, e)) →
      h.clean after noDeadlock →
      exec (.fwdEmRead owner slot) s = .next (s.done owner slot after (posWord p :: ((emToPayload e).set 0 (e.static.toNat * 256 + e.type) ++ [e.age])))) ∧
  (∀ (s : State) (owner slot : Nat) (q : Slot), s.hw.runs owner slot 0x0405 q →
      let h := s.hw
      let w := q.w 0
      let byP := bit w 31
      let byV := bit w 30
      let r := h.emRemoveAll true (fun e => !e.static && e.type == 0 && (!byP || (e.group.isNone && e.port == bits w 4 0)) &&
        (!byV || e.key / 2 ^ 48 % 4096 == bits w 27 16))
      let after : Hw := r.2
      (∀ chk ∈ ([if byP then h.deny owner 1 (bits w 4 0) else only1 owner, q.reserved [0xCFFF001F], badAt (!byP && !byV) 3] : List Check), chk.1 = false) →
      h.clean after noDeadlock →
      exec (.fwdFlush owner slot) s = .next (s.done owner slot after [r.1])) ∧
  (∀ (s : State) (owner slot : Nat) (q : Slot), s.hw.runs owner slot 0x0406 q →
      let h := s.hw
      let p := q.route
      let nh := bits (q.w 1) 27 16
      let new : LpmEntry := ⟨p.1, p.2.1, p.2.2, nh⟩
      ∀ (ws : List (Nat × Option LpmEntry)),
      let after : Hw := h.lpmWrite ws
      (∀ chk ∈ (([only1 owner] ++ q.routeChecks ++ [((kvGet h.fwd.nhop nh).isNone, cNoObject, 0), ((h.lpmAt p.1 p.2.1).isSome, cConflict, 0)]) : List Check), chk.1 = false) →
      (lpmInsert h.fwd.lpm new = some ws) →
      h.clean after Hw.deadlocks →
      exec (.fwdLpmAdd owner slot) s = .next (s.done owner slot after [])) ∧
  (∀ (s : State) (owner slot : Nat) (q : Slot), s.hw.runs owner slot 0x0407 q →
      let h := s.hw
      ∀ (e : Nat × LpmEntry),
      let after : Hw := h.lpmWrite [(e.1, none)]
      (∀ chk ∈ ((only1 owner :: q.routeChecks) : List Check), chk.1 = false) →
      (h.lpmAt q.route.1 q.route.2.1 = some e) →
      h.clean after noDeadlock →
      exec (.fwdLpmDel owner slot) s = .next (s.done owner slot after [])) ∧
  (∀ (s : State) (owner slot : Nat) (q : Slot), s.hw.runs owner slot 0x0408 q →
      let h := s.hw
      let i := q.w 0
      let w := q.w 1
      let t := bits w 27 16
      let act : AclAct := match bits w 31 30 with
        | 0 => .permit
        | 1 => .deny
        | 2 => .toPort (t % 32)
        | _ => .toGroup t
      let e : AclEntry := ⟨q.w320 3, q.w320 13, bits w 11 0, act, if bit (q.w 2) 3 then some (bits (q.w 2) 2 0) else none,
        if bit (q.w 2) 31 then some (bits (q.w 2) 27 16) else none⟩
      let after : Hw := (h.tableWrites 2 [(i, .acl (some e))] (fun f => { f with acl := kvPut f.acl i e }))
      (∀ chk ∈ ([only1 owner, q.reserved [0x1FFF, 0xCFFF0FFF, 0x8FFF000F], badAt (bits w 31 30 = 2 && decide (32 ≤ t)) 6] : List Check), chk.1 = false) →
      h.clean after Hw.deadlocks →
      exec (.fwdAclWrite owner slot) s = .next (s.done owner slot after [])) ∧
  (∀ (s : State) (owner slot : Nat) (q : Slot), s.hw.runs owner slot 0x0409 q →
      let h := s.hw
      let i := q.w 0
      let after : Hw := (h.tableWrites 2 [(i, .acl none)] (fun f => { f with acl := kvDel f.acl i }))
      (∀ chk ∈ ([only1 owner, q.reserved [0x1FFF], ((kvGet h.fwd.acl i).isNone, cNoObject, 0)] : List Check), chk.1 = false) →
      h.clean after noDeadlock →
      exec (.fwdAclDel owner slot) s = .next (s.done owner slot after [])) ∧
  (∀ (s : State) (owner slot : Nat) (q : Slot), s.hw.runs owner slot 0x040A q →
      let h := s.hw
      let v := q.w 0
      let was := match kvGet h.fwd.vlan v with | some e => e.member | none => 0
      let e : VlanEntry := ⟨q.w 1, q.w 2, bit (q.w 3) 31, bits (q.w 3) 11 0, bits (q.w 3) 27 16⟩
      let after : Hw := (h.tableWrites 3 [(v, .vlan (some e))] (fun f => { f with vlan := kvPut f.vlan v e }))
      (∀ chk ∈ ([h.denyAny owner (portsOf (q.w 1 ||| was)), q.reserved [4095, 0xFFFFFFFF, 0xFFFFFFFF, 0x8FFF0FFF]] : List Check), chk.1 = false) →
      h.clean after Hw.deadlocks →
      exec (.fwdVlanSet owner slot) s = .next (s.done owner slot after [])) ∧
  (∀ (s : State) (owner slot : Nat) (q : Slot), s.hw.runs owner slot 0x040B q →
      let h := s.hw
      let g := q.w 0
      let after : Hw := (h.tableWrites 4 [(g, .group (q.w 1))] (fun f => { f with mcast := kvPut f.mcast g (q.w 1) }))
      (∀ chk ∈ ([h.denyAny owner (portsOf (q.w 1 ||| h.groupMask g)), q.reserved [4095]] : List Check), chk.1 = false) →
      h.clean after Hw.deadlocks →
      exec (.fwdMcastSet owner slot) s = .next (s.done owner slot after [])) ∧
  (∀ (s : State) (owner slot : Nat) (q : Slot), s.hw.runs owner slot 0x040C q →
      let h := s.hw
      let i := q.w 0
      let e : Nhop := ⟨q.w 1 % 32, q.w64 2, bits (q.w 1) 27 16⟩
      let after : Hw := (h.tableWrites 5 [(i, .nhop (some e))] (fun f => { f with nhop := kvPut f.nhop i e }))
      (∀ chk ∈ ([h.denyAny owner ((1, q.w 1 % 32) :: (match kvGet h.fwd.nhop i with | some n => [(1, n.port)] | none => [])),
          q.reserved [4095, 0x0FFF001F, 0xFFFFFFFF, 0xFFFF]] : List Check), chk.1 = false) →
      h.clean after Hw.deadlocks →
      exec (.fwdNhopSet owner slot) s = .next (s.done owner slot after [])) ∧
  (∀ (s : State) (owner slot : Nat) (q : Slot), s.hw.runs owner slot 0x040D q →
      let h := s.hw
      let after : Hw := (h.cfg Reg.FWD_AGE_CFG 0x7FFF000F (q.w 1))
      (∀ chk ∈ ([only1 owner, q.reserved [0, 0x7FFF000F], badAt (getF (q.w 1) Fld.FWD_AGE_CFG_LIMIT = 0) 6] : List Check), chk.1 = false) →
      h.clean after noDeadlock →
      exec (.fwdAgeSet owner slot) s = .next (s.done owner slot after [])) ∧
  (∀ (s : State) (owner slot : Nat) (q : Slot), s.hw.runs owner slot 0x040E q →
      let h := s.hw
      let p := q.w 0 % 32
      let cas := getF (q.w 1) Fld.FWD_PORT_CFG_CASCADE == 1
      let all := q.payload.length = 3
      let hold := getF (q.w 2) Fld.FWD_LEARN_CFG_MOVE_HOLD_MS
      let after : Hw := (
          let x := h.cfg (Reg.FWD_PORT_CFG p) 0xFFFFC00F (q.w 1)
          let x := if p < 4 then x.setCascade p cas else x
          if all then x.cfg Reg.FWD_LEARN_CFG 0x03FF0007 (q.w 2) else x)
      (∀ chk ∈ ([h.deny owner 1 p, (all && q.w 2 != h.rn Reg.FWD_LEARN_CFG && owner != 1, cDenied, 0),
          q.reserved [31, 0xFFFFC00F, 0x03FF0007], badAt (cas && (decide (4 ≤ p) || !h.macsecOn p)) 4,
          badState (cas && h.fld (Reg.MAC_CFG p) Fld.MAC_CFG_MODE != 1) 1 p,
          badAt (all && (hold = 0 || decide (1000 < hold))) 10] : List Check), chk.1 = false) →
      h.clean after Hw.deadlocks →
      exec (.fwdLearnSet owner slot) s = .next (s.done owner slot after [])) ∧
  (∀ (s : State) (owner slot : Nat) (q : Slot), s.hw.runs owner slot 0x040F q →
      let h := s.hw
      let after : Hw := (h.cfg Reg.FWD_CFG 15 (q.w 1))
      (∀ chk ∈ ([only1 owner, q.reserved [0, 15]] : List Check), chk.1 = false) →
      h.clean after noDeadlock →
      exec (.fwdCfgSet owner slot) s = .next (s.done owner slot after [])) ∧
  (∀ (s : State) (owner slot : Nat) (q : Slot), s.hw.runs owner slot 0x0410 q →
      let h := s.hw
      let k := q.w 0 % 64
      let t := getF (q.w 2) Fld.SWC_SMP_POINT_TYPE
      let i := getF (q.w 2) Fld.SWC_SMP_POINT_INDEX
      let after : Hw := ((h.images [(Reg.SWC_SMP_CFG k, 0x3FFFF, q.w 1), (Reg.SWC_SMP_POINT k, 0x1FFF0003, q.w 2)]).onSwc (fun x => { x with
          smpCount := kvDel x.smpCount k }))
      (∀ chk ∈ ([h.deny owner 9 k, if t = 2 then only1 owner else h.denyRead owner 1 i,
          (h.uncovered (h.holder 9 k) t i, cDenied, resWord 9 k), q.reserved [63, 0x3FFFF, 0x1FFF0003],
          badAt (t = 3) 8, badAt (t != 2 && decide (32 ≤ i)) 10] : List Check), chk.1 = false) →
      h.clean after noDeadlock →
      exec (.fwdSamplerSet owner slot) s = .next (s.done owner slot after [])) ∧
  (∀ (s : State) (owner slot : Nat) (q : Slot), s.hw.runs owner slot 0x0411 q →
      let h := s.hw
      let p := q.w 1 % 32
      let after : Hw := (h.cfg (Reg.FWD_CASCADE_PATH (q.w 0 % 4)) 0x8000001F (q.w 1))
      (∀ chk ∈ ([only1 owner, q.reserved [3, 0x8000001F], badAt (decide (4 ≤ p)) 4, noObj (bit (q.w 1) 31 && !h.isCascade p) 1 p] : List Check), chk.1 = false) →
      h.clean after Hw.deadlocks →
      exec (.fwdCascadePath owner slot) s = .next (s.done owner slot after []))

/-- R48 to R60, R118 to R145, R353, R357, R358, R463: what each QOS command does. Payload layouts that the spec does not give are the model's choice (log entry 22). -/
def Obligations.QosCommandsComplete : Prop :=
  (∀ (s : State) (owner slot : Nat) (q : Slot), s.hw.runs owner slot 0x0501 q →
      let h := s.hw
      let p := q.w 0 % 32
      let cls := List.range 8
      let len (c : Nat) : Nat := bits (q.w (3 + c)) 13 0
      let quantum (c : Nat) : Nat := bits (q.w (3 + c)) 30 14
      let burst (c : Nat) : Nat := h.rn (Reg.TSS_WEIR_BURST (pcOf p c))
      let after : Hw := (
          let x := h.images [(Reg.TSS_PCP_MAP p, 0x07FFFFFF, q.w 1), (Reg.TSS_PORT_CFG p, 0xFFFF000F, q.w 2 + bits (q.w 0) 27 24)]
          cls.foldl (fun a c => a.images [(Reg.TSS_DWRR_QUANTUM (pcOf p c), 0x1FFFF, quantum c),
            (Reg.TSS_CLASS_MAXLEN (pcOf p c), 0x3FFF, len c)]) x)
      (∀ chk ∈ (([h.deny owner 1 p, q.reserved ([0x0F00001F, 0x07FFFFFF, 0xFFFF0000] ++ List.replicate 8 0x7FFFFFFF),
          badAt (decide (8 < bits (q.w 0) 27 24)) 3] ++
          cls.map (fun c => badAt (decide (len c < 64) || decide (9216 < len c) || (h.weirOn (pcOf p c) && decide (burst c < len c))) (12 + 4 * c)) ++
          cls.map (fun c => badAt (decide (quantum c < len c)) (13 + 4 * c))) : List Check), chk.1 = false) →
      h.clean after Hw.serviceRules →
      exec (.qosClassSet owner slot) s = .next (s.done owner slot after [])) ∧
  (∀ (s : State) (owner slot : Nat) (q : Slot), s.hw.runs owner slot 0x0502 q →
      let h := s.hw
          let m := q.w 0 % 32
      let en := bit (q.w 0) 16
      let n := q.w 7
      let ws := q.bufWords n
      let base := (q.w 1 + q.w 2 * 2 ^ 32) * 1000000000 + q.w 3
      let l : GateList := ⟨if en then ws else [], base, q.w 4, q.w 5, bits (q.w 0) 10 8, q.w 6⟩
      let running := h.flag (Reg.TSS_GCL_CTRL m) Fld.TSS_GCL_CTRL_EN
      let pre := h.flag (Reg.TSS_PORT_CFG m) Fld.TSS_PORT_CFG_PREEMPT_EN
      let bank := 1 - h.fld (Reg.TSS_GCL_CTRL m) Fld.TSS_GCL_CTRL_BANK
      let y := if en then (h.onTss (fun t => { t with lists := kvPut t.lists (m * 2 + bank) l })).showGcl m bank l else h.stopGcl m
      let common := [h.deny owner 1 m, q.reserved [0x1071F, 0xFFFFFFFF, 0xFFFF, 0xFFFFFFFF, 0xFFFFFFFF, 0xFFFFFFFF, 0x3FF],
        badAt (decide (24 ≤ m)) 0, badAt (decide (1000000000 ≤ q.w 3)) 12]
      let cyc := badAt (decide (q.w 4 < 1000) || decide (1000000000 < q.w 4)) 16
      let after : Hw := h
      (∀ chk ∈ (common : List Check), chk.1 = false) →
      (!en && !running) = true →
      h.clean after noDeadlock →
      exec (.qosGclLoad owner slot) s = .next (s.done owner slot after [])) ∧
  (∀ (s : State) (owner slot : Nat) (q : Slot), s.hw.runs owner slot 0x0502 q →
      let h := s.hw
          let m := q.w 0 % 32
      let en := bit (q.w 0) 16
      let n := q.w 7
      let ws := q.bufWords n
      let base := (q.w 1 + q.w 2 * 2 ^ 32) * 1000000000 + q.w 3
      let l : GateList := ⟨if en then ws else [], base, q.w 4, q.w 5, bits (q.w 0) 10 8, q.w 6⟩
      let running := h.flag (Reg.TSS_GCL_CTRL m) Fld.TSS_GCL_CTRL_EN
      let pre := h.flag (Reg.TSS_PORT_CFG m) Fld.TSS_PORT_CFG_PREEMPT_EN
      let bank := 1 - h.fld (Reg.TSS_GCL_CTRL m) Fld.TSS_GCL_CTRL_BANK
      let y := if en then (h.onTss (fun t => { t with lists := kvPut t.lists (m * 2 + bank) l })).showGcl m bank l else h.stopGcl m
      let common := [h.deny owner 1 m, q.reserved [0x1071F, 0xFFFFFFFF, 0xFFFF, 0xFFFFFFFF, 0xFFFFFFFF, 0xFFFFFFFF, 0x3FF],
        badAt (decide (24 ≤ m)) 0, badAt (decide (1000000000 ≤ q.w 3)) 12]
      let cyc := badAt (decide (q.w 4 < 1000) || decide (1000000000 < q.w 4)) 16
      let after : Hw := h.pendGcl m l true
      (∀ chk ∈ ((common ++ [cyc]) : List Check), chk.1 = false) →
      (en = false) →
      (running = true) →
      (h.clean y Hw.serviceRules) →
      h.clean after noDeadlock →
      exec (.qosGclLoad owner slot) s = .next (s.done owner slot after [])) ∧
  (∀ (s : State) (owner slot : Nat) (q : Slot), s.hw.runs owner slot 0x0502 q →
      let h := s.hw
          let m := q.w 0 % 32
      let en := bit (q.w 0) 16
      let n := q.w 7
      let ws := q.bufWords n
      let base := (q.w 1 + q.w 2 * 2 ^ 32) * 1000000000 + q.w 3
      let l : GateList := ⟨if en then ws else [], base, q.w 4, q.w 5, bits (q.w 0) 10 8, q.w 6⟩
      let running := h.flag (Reg.TSS_GCL_CTRL m) Fld.TSS_GCL_CTRL_EN
      let pre := h.flag (Reg.TSS_PORT_CFG m) Fld.TSS_PORT_CFG_PREEMPT_EN
      let bank := 1 - h.fld (Reg.TSS_GCL_CTRL m) Fld.TSS_GCL_CTRL_BANK
      let y := if en then (h.onTss (fun t => { t with lists := kvPut t.lists (m * 2 + bank) l })).showGcl m bank l else h.stopGcl m
      let common := [h.deny owner 1 m, q.reserved [0x1071F, 0xFFFFFFFF, 0xFFFF, 0xFFFFFFFF, 0xFFFFFFFF, 0xFFFFFFFF, 0x3FF],
        badAt (decide (24 ≤ m)) 0, badAt (decide (1000000000 ≤ q.w 3)) 12]
      let cyc := badAt (decide (q.w 4 < 1000) || decide (1000000000 < q.w 4)) 16
      let after : Hw := h.pendGcl m l false
      (∀ chk ∈ ((common ++ [cyc, badAt (n = 0 || decide (1024 < n)) 28, badAt (q.w 10 != 4 * n) 40,
        badEntry ws (fun e => bits e 21 0 == 0 || bits e 23 22 == 3 || (!pre && bits e 23 22 != 0))]) : List Check), chk.1 = false) →
      (en = true) →
      (Hw.serviceRules y).find? (fun d => !(Hw.serviceRules h).contains d) = none →
      (Hw.boundBreaks h (h.pendGcl m l false) = none) →
      h.clean after noDeadlock →
      exec (.qosGclLoad owner slot) s = .next (s.done owner slot after [])) ∧
  (∀ (s : State) (owner slot : Nat) (q : Slot), s.hw.runs owner slot 0x0503 q →
      let h := s.hw
      let m := q.w 0 % 32
      let c := bits (q.w 0) 10 8
      let k := m * 2 + (c - 5)
      let other := h.rn (Reg.TSS_CBS_IDLE (m * 2 + (6 - c)))
      let slope (w : Nat) : Nat := if getF w Fld.TSS_CBS_IDLE_EN = 1 then getF w Fld.TSS_CBS_IDLE_IDLE_SLOPE else 0
      let after : Hw := (
          let x := h.images [(Reg.TSS_CBS_IDLE k, 0x81FFFFFF, q.w 1), (Reg.TSS_CBS_HICREDIT k, 0xFFFFFFFF, q.w 2)]
          if getF (q.w 1) Fld.TSS_CBS_IDLE_EN = 0 then x.onTss (fun t => { t with credit := kvDel t.credit k }) else x)
      (∀ chk ∈ ([h.deny owner 1 m, q.reserved [0x71F, 0x81FFFFFF, 0xFFFFFFFF], badAt (decide (24 ≤ m)) 0, badAt (c != 5 && c != 6) 1,
          badAt (slope (q.w 1) != 0 && decide (3 * h.rateOf m < 4 * (slope (q.w 1) + slope other))) 4] : List Check), chk.1 = false) →
      h.clean after Hw.serviceRules →
      exec (.qosCbsSet owner slot) s = .next (s.done owner slot after [])) ∧
  (∀ (s : State) (owner slot : Nat) (q : Slot), s.hw.runs owner slot 0x0504 q →
      let h := s.hw
      let m := q.w 0 % 32
      let r := Reg.TSS_PORT_CFG m
      let en := getF (q.w 1) Fld.TSS_PORT_CFG_PREEMPT_EN == 1
      let ver := getF (q.w 1) Fld.TSS_PORT_CFG_VERIFY_EN == 1
      let same := h.flag r Fld.TSS_PORT_CFG_PREEMPT_EN == en && h.flag r Fld.TSS_PORT_CFG_VERIFY_EN == ver
      let after : Hw := (
          let x := h.cfg r 0xE80 (q.w 1)
          if same then x else x.setFld r Fld.TSS_PORT_CFG_PREEMPT_ACTIVE (en && !ver && h.linkUp m).toNat)
      (∀ chk ∈ ([h.deny owner 1 m, q.reserved [31, 0xE80], badAt (decide (20 ≤ m)) 0] : List Check), chk.1 = false) →
      h.clean after noDeadlock →
      exec (.qosPreemptSet owner slot) s = .next (s.done owner slot after [])) ∧
  (∀ (s : State) (owner slot : Nat) (q : Slot), s.hw.runs owner slot 0x0505 q →
      let h := s.hw
      let b := q.w 0
      let c := q.w 1
      let en := getF c Fld.TSS_WEIR_RATE_EN == 1
      let rate := getF c Fld.TSS_WEIR_RATE_RATE
      let burst := q.w 2
      let same := h.weirOn b == en && h.fld (Reg.TSS_WEIR_RATE b) Fld.TSS_WEIR_RATE_RATE == rate && h.rn (Reg.TSS_WEIR_BURST b) == burst
      let after : Hw := (
          let x := h.images [(Reg.TSS_WEIR_RATE b, 0xFFFFFFFF, c), (Reg.TSS_WEIR_BURST b, 0x01FFFFFF, burst)]
          if same then x.setTokens b (h.tokens b) else x.setTokens b (if b < 768 then 0 else burst * tokenUnit))
      (∀ chk ∈ ([h.deny owner 7 b, q.reserved [0x1FFF, 0xFFFFFFFF, 0x01FFFFFF], badAt (decide (4864 ≤ b)) 0,
          badAt (decide (25000000 < rate) || (en && rate = 0)) 4, badAt (getF c Fld.TSS_WEIR_RATE_ACTION = 3) 7,
          badAt (decide (768 ≤ b) && getF c Fld.TSS_WEIR_RATE_ACTION == 1 && (h.ratedBy (b - 768)).isSome) 7,
          badAt (decide (burst < 64) || decide (2 ^ 24 < burst) || decide (burst < h.largestCharge b)) 8,
          badState (!en && h.metered b) 7 b] : List Check), chk.1 = false) →
      h.clean after Hw.serviceRules →
      exec (.qosWeirSet owner slot) s = .next (s.done owner slot after [])) ∧
  (∀ (s : State) (owner slot : Nat) (q : Slot), s.hw.runs owner slot 0x0506 q →
      let h := s.hw
      let k := q.w 0
      let c := q.w 1
      let en := getF c Fld.TSS_SLUICE_FILTER_EN == 1
      let meter := getF c Fld.TSS_SLUICE_FILTER_METER_EN == 1
      let after : Hw := (h.cfg (Reg.TSS_SLUICE_FILTER k) 0xDFF83FFF c)
      (∀ chk ∈ ([h.denyAny owner ((2, k) :: (if getF c Fld.TSS_SLUICE_FILTER_GATE_EN = 1 then [(18, getF c Fld.TSS_SLUICE_FILTER_GATE)] else [])),
          q.reserved [4095, 0xFFF83FFF],
          badAt (en && meter && decide (h.rn (Reg.TSS_WEIR_BURST (768 + k)) < getF c Fld.TSS_SLUICE_FILTER_MAX_SDU)) 4,
          noObj (meter && !h.weirOn (768 + k)) 7 (768 + k),
          conflict (en && (h.ratedBy k).isSome) 16 ((h.ratedBy k).getD 0 / 256)] : List Check), chk.1 = false) →
      h.clean after noDeadlock →
      exec (.qosSluiceFilterSet owner slot) s = .next (s.done owner slot after [])) ∧
  (∀ (s : State) (owner slot : Nat) (q : Slot), s.hw.runs owner slot 0x0507 q →
      let h := s.hw
      let g := q.w 0
      let c := q.w 1
      let en := getF c Fld.TSS_SLUICE_GATE_CTRL_EN == 1
      let n := getF c Fld.TSS_SLUICE_GATE_CTRL_LIST_LEN + 1
      let ws := q.bufWords n
      let l : GateList := ⟨if en then ws else [], (q.w 2 + q.w 3 * 2 ^ 32) * 1000000000 + q.w 4, q.w 5,
        getF c Fld.TSS_SLUICE_GATE_CTRL_INVALID_CLOSE,
        getF c Fld.TSS_SLUICE_GATE_CTRL_TB, 0⟩
      let running := h.flag (Reg.TSS_SLUICE_GATE_CTRL g) Fld.TSS_SLUICE_GATE_CTRL_EN
      let after : Hw := (if en || running then h.pendSluice g l (!en) else h)
      (∀ chk ∈ (([h.deny owner 18 g, q.reserved [255, 0xDC00003F, 0xFFFFFFFF, 0xFFFF, 0xFFFFFFFF],
          badAt (decide (1000000000 ≤ q.w 4)) 16, badAt (q.w 5 = 0) 20] ++
          (if en then [badAt (q.w 8 != 4 * n) 32, badEntry ws (fun e => bits e 26 0 == 0)] else [])) : List Check), chk.1 = false) →
      h.clean after noDeadlock →
      exec (.qosSluiceGateLoad owner slot) s = .next (s.done owner slot after [])) ∧
  (∀ (s : State) (owner slot : Nat) (q : Slot), s.hw.runs owner slot 0x0508 q →
      let h := s.hw
      let gate := bit (q.w 0) 31
      let k := q.w 0 % 4096
      let after : Hw := ((if gate then h.setFld (Reg.TSS_SLUICE_GATE_CTRL k) Fld.TSS_SLUICE_GATE_CTRL_CLOSED_INVALID 0
          else h.setFld (Reg.TSS_SLUICE_FILTER k) Fld.TSS_SLUICE_FILTER_BLOCKED 0).onTss (fun t => { t with
            unblockLog := t.unblockLog ++ [(owner, q.w 0)] }))
      (∀ chk ∈ ([if gate then h.deny owner 18 k else h.deny owner 2 k, q.reserved [0x80000FFF], badAt (gate && decide (256 ≤ k)) 0] : List Check), chk.1 = false) →
      h.clean after noDeadlock →
      exec (.qosSluiceUnblock owner slot) s = .next (s.done owner slot after [])) ∧
  (∀ (s : State) (owner slot : Nat) (q : Slot), s.hw.runs owner slot 0x0509 q →
      let h := s.hw
      let n := q.w 0
      let c := q.w 1
      let hist := getF c Fld.TSS_FRER_CFG_HISTORY
      let ms := getF c Fld.TSS_FRER_CFG_RESET_MS
      let handles := [(2, bits (q.w 2) 11 0), (2, bits (q.w 3) 11 0)] ++ (if bit c 30 then [(2, bits (q.w 2) 27 16)] else [])
      let kept := bits (h.rn (Reg.TSS_FRER_CFG n)) 31 30 == bits c 31 30 && h.rn (Reg.TSS_FRER_HANDLE0 n) == q.w 2 &&
        h.rn (Reg.TSS_FRER_HANDLE1 n) == q.w 3
      let after : Hw := (
          let x := h.images [(Reg.TSS_FRER_CFG n, 0xFFC00FFF, c), (Reg.TSS_FRER_HANDLE0 n, 0x0FFF0FFF, q.w 2), (Reg.TSS_FRER_HANDLE1 n, 0xFFF, q.w 3)]
          if kept then x else x.onTss (fun t => { t with frer := kvDel t.frer n }))
      (∀ chk ∈ ([h.denyAny owner ((19, n) :: handles), q.reserved [63, 0xFFC00FFF, 0x0FFF0FFF, 0xFFF], badAt (bits c 29 28 = 3) 7,
          badAt (decide (hist < 2) || decide (32 < hist)) 6, badAt (ms = 0 || decide (1000 < ms)) 4] : List Check), chk.1 = false) →
      h.clean after noDeadlock →
      exec (.qosFrerSet owner slot) s = .next (s.done owner slot after [])) ∧
  (∀ (s : State) (owner slot : Nat) (q : Slot), s.hw.runs owner slot 0x050A q →
      let h := s.hw
      let k := q.w 0
      let w := q.w 2
      let adm : Admitted := ⟨q.w 1, bits w 28 24, bits w 18 16, bits w 13 0, q.w 3, none⟩
      let x := (h.onTss (fun t => { t with admitted := kvPut t.admitted k adm })).wn (Reg.TSS_STREAM_DECLARED k) adm.declared
      let b := x.streamBound k adm
      let after : Hw := x
      (∀ chk ∈ ([h.denyAny owner ((2, k) :: (1, adm.ingress) :: portsOf adm.egress), q.reserved [4095, 0xFFFFFFFF, 0x1F073FFF],
          badAt (adm.declared = 0 || adm.declared = 0xFFFFFFFF) 4, badAt (decide (adm.maxlen < 64) || decide (9216 < adm.maxlen)) 8,
          badAt (adm.egress = 0) 12, noObj (!h.fwd.em.any (fun e => e.2.isStream && e.2.stream == k)) 2 k,
          badState (kvGet h.tss.admitted k).isSome 2 k] : List Check), chk.1 = false) →
      (h.weirOn (768 + k) = true) →
      h.clean after Hw.serviceRules →
      exec (.qosStreamAdmit owner slot) s = .next (s.done owner slot after [b.1.getD 0xFFFFFFFF, b.2])) ∧
  (∀ (s : State) (owner slot : Nat) (q : Slot), s.hw.runs owner slot 0x050A q →
      let h := s.hw
      let k := q.w 0
      let w := q.w 2
      let adm : Admitted := ⟨q.w 1, bits w 28 24, bits w 18 16, bits w 13 0, q.w 3, none⟩
      let x := (h.onTss (fun t => { t with admitted := kvPut t.admitted k adm })).wn (Reg.TSS_STREAM_DECLARED k) adm.declared
      let b := x.streamBound k adm
      let after : Hw := h.inc Reg.TSS_BOUND_REFUSED
      (∀ chk ∈ ([h.denyAny owner ((2, k) :: (1, adm.ingress) :: portsOf adm.egress), q.reserved [4095, 0xFFFFFFFF, 0x1F073FFF],
          badAt (adm.declared = 0 || adm.declared = 0xFFFFFFFF) 4, badAt (decide (adm.maxlen < 64) || decide (9216 < adm.maxlen)) 8,
          badAt (adm.egress = 0) 12, noObj (!h.fwd.em.any (fun e => e.2.isStream && e.2.stream == k)) 2 k,
          badState (kvGet h.tss.admitted k).isSome 2 k] : List Check), chk.1 = false) →
      (h.weirOn (768 + k) = false) →
      exec (.qosStreamAdmit owner slot) s = .next (s.closed owner slot after cBound (2 ^ 31 + 7 * 2 ^ 16 + k) [])) ∧
  (∀ (s : State) (owner slot : Nat) (q : Slot), s.hw.runs owner slot 0x050B q →
      let h := s.hw
      let k := q.w 0
      let after : Hw := (((h.onTss (fun t => { t with admitted := kvDel t.admitted k })).wn (Reg.TSS_STREAM_BOUND k) 0xFFFFFFFF).wn
          (Reg.TSS_STREAM_DECLARED k) 0xFFFFFFFF).countBroken
      (∀ chk ∈ ([h.deny owner 2 k, q.reserved [4095], noObj (kvGet h.tss.admitted k).isNone 2 k] : List Check), chk.1 = false) →
      h.clean after noDeadlock →
      exec (.qosStreamWithdraw owner slot) s = .next (s.done owner slot after [])) ∧
  (∀ (s : State) (owner slot : Nat) (q : Slot), s.hw.runs owner slot 0x050C q →
      let h := s.hw
      let k := q.w 0
      ∀ (adm : Admitted),
      let after : Hw := h
      (∀ chk ∈ ([h.denyRead owner 2 k, q.reserved [4095]] : List Check), chk.1 = false) →
      (kvGet h.tss.admitted k = some adm) →
      h.clean after noDeadlock →
      exec (.qosBoundRead owner slot) s = .next (s.done owner slot after ([(h.streamBound k adm).1.getD 0xFFFFFFFF, (h.streamBound k adm).2, adm.declared] ++ (h.boundTerms k adm (h.streamBound k adm).2).flatMap (fun t => match t with
            | some v => [v % 2 ^ 32, v / 2 ^ 32]
            | none => [0xFFFFFFFF, 0xFFFFFFFF])))) ∧
  (∀ (s : State) (owner slot : Nat) (q : Slot), s.hw.runs owner slot 0x050D q →
      let h := s.hw
      let pc := q.w 0
      let c := q.w 1
      let dq := getF c Fld.SWC_VOQ_CFG_DEFAULT_QUOTA
      let modeM := getF c Fld.SWC_VOQ_CFG_MODE == 1
      let x := h.images [(Reg.SWC_VOQ_CFG pc, 0x7F03, c), (Reg.SWC_VOQ_THR pc, 0xFFFFFFFF, q.w 2), (Reg.SWC_VOQ_HDRM pc, 0xFFFF, q.w 3)]
      let after : Hw := (x.rehold [pc])
      (∀ chk ∈ ([h.denyAny owner ((1, pc / 8) :: (if modeM then [(20, dq)] else [])), q.reserved [255, 0x7F03, 0xFFFFFFFF, 0xFFFF],
          badAt (modeM && decide (64 ≤ dq) && decide (dq < 112)) 5,
          badAt (decide (pc < 160) && h.flag (Reg.MAC_EEE_CFG (pc / 8)) Fld.MAC_EEE_CFG_EN &&
            x.eeeShort (pc / 8) (h.fld (Reg.MAC_EEE_CFG (pc / 8)) Fld.MAC_EEE_CFG_TW_US)) 12, x.quotaCheck, (x.voqBroken pc, cDeadlock, ruleCode (pc / 8) (pc % 8))] : List Check), chk.1 = false) →
      h.clean after Hw.deadlocks →
      exec (.qosVoqSet owner slot) s = .next (s.done owner slot after [])) ∧
  (∀ (s : State) (owner slot : Nat) (q : Slot), s.hw.runs owner slot 0x050E q →
      let h := s.hw
      let k := q.w 0
      let c := q.w 1
      let n := getF c Fld.SWC_MMQ_CFG_MAX_FRAME_CELLS
      let x := h.cfg (Reg.SWC_MMQ_CFG k) 0x80FFFFFF c
      let after : Hw := x
      (∀ chk ∈ ([h.deny owner 20 k, q.reserved [127, 0x80FFFFFF], badAt (getF c Fld.SWC_MMQ_CFG_EN = 1 && (n = 0 || decide (36 < n))) 6,
          x.quotaCheck] : List Check), chk.1 = false) →
      h.clean after Hw.deadlocks →
      exec (.qosQuotaSet owner slot) s = .next (s.done owner slot after [])) ∧
  (∀ (s : State) (owner slot : Nat) (q : Slot), s.hw.runs owner slot 0x050F q →
      let h := s.hw
      let x := h.images ([(Reg.SWC_SHARED_CFG, 0x3FFFF, q.w 1), (Reg.SWC_MAX_SOJOURN, 0xFFFF, q.w 2)] ++
        (if 4 ≤ q.payload.length then [(Reg.SWC_CFG, 7, q.w 3)] else []))
      let after : Hw := (x.rehold [0])
      (∀ chk ∈ ([only1 owner, q.reserved [0, 0x3FFFF, 0xFFFF, 7], badAt (q.w 2 = 0 || decide (2000 < q.w 2)) 8, x.quotaCheck] : List Check), chk.1 = false) →
      h.clean after Hw.serviceRules →
      exec (.qosSharedSet owner slot) s = .next (s.done owner slot after [])) ∧
  (∀ (s : State) (owner slot : Nat) (q : Slot), s.hw.runs owner slot 0x0510 q →
      let h := s.hw
      let k := q.w 0
      let c := q.w 1
      let en := getF c Fld.TSS_QS_CFG_EN == 1
      let n := if en then q.w 2 else 0
      let ws := q.bufWords n
      let iv := getF c Fld.TSS_QS_CFG_INTERVAL
      let dst := getF c Fld.TSS_QS_CFG_DEST
      let after : Hw := (
          let x := h.cfg (Reg.TSS_QS_CFG k) 0xF0FFFFFF c
          let x := x.onTss (fun t => { t with sweepAt := kvDel t.sweepAt k })
          if en then x.images ((List.range 256).map (fun i =>
            (Reg.TSS_QS_LIST k i, 0x80003FFF, if i < n then 2 ^ 31 + ws.getD i 0 else 0)))
          else x)
      (∀ chk ∈ ([h.deny owner 15 k, (en && owner != 1 && (dst - 8192) / 8 != owner, cDenied, resWord 15 k),
          (ws.any (fun w => !h.maySample owner (w % 16384)), cDenied, resWord 15 k), q.reserved [3, 0xF0FFFFFF],
          badAt (en && (iv = 0 || decide (1000 < iv))) 4, badAt (en && (decide (dst < 8208) || decide (10256 ≤ dst))) 5,
          badAt (en && (n = 0 || decide (256 < n))) 8, badAt (en && q.w 5 != 4 * n) 20, badEntry ws (fun w => decide (16384 ≤ w))] : List Check), chk.1 = false) →
      h.clean after noDeadlock →
      exec (.qosQsamplerSet owner slot) s = .next (s.done owner slot after []))

/-- R147 to R175, R353, R370, R373: what each VID command does. The layout of the export is the model's choice (log entry 30). Payload layouts that the spec does not give are the model's choice (log entry 22). -/
def Obligations.VidCommandsComplete : Prop :=
  (∀ (s : State) (owner slot : Nat) (q : Slot), s.hw.runs owner slot 0x0601 q →
      let h := s.hw
      let v := q.w 0
      let c := q.w 1
      let crc := getF c Fld.VIE_S_CFG_CRC_MODE
      let pix := getF (q.w 5) Fld.VIE_S_PIXEL_PIX_BITS
      let l : List (Nat × Nat × Nat) := [(Reg.VIE_S_CFG v, 0x7FFF8000, c), (Reg.VIE_S_NOMINAL v, 0xFFFFFFFF, q.w 2), (Reg.VIE_S_TIMING v, 0xFFFFFFFF, q.w 3),
          (Reg.VIE_S_FRAME v, 0xFFFFFF00, q.w 4), (Reg.VIE_S_PIXEL v, 0xFFFF011F, q.w 5), (Reg.VIE_S_COUNTER v, 0xFF030FFF, q.w 6),
          (Reg.VIE_S_AGE_MAX v, 0xFFFFFFFF, q.w 7), (Reg.VIE_S_TS_OFFSET v, 0xFFFFFFFF, q.w 8)]
      let x : Hw := l.foldl (fun b e => b.image e.1 e.2.1 e.2.2) (h.settled v)
      let after : Hw := h.setStream v l
      (∀ chk ∈ ([h.denyAny owner ((3, v) :: (if getF c Fld.VIE_S_CFG_SYNC_EN = 1 then [(14, getF c Fld.VIE_S_CFG_SYNC)] else [])),
          q.reserved [63, 0xFFFFFF00, 0xFFFFFFFF, 0xFFFFFFFF, 0xFFFFFF00, 0xFFFF011F, 0xFF030FFF],
          badAt (crc = 1 || crc = 3 || decide (23 < getF c Fld.VIE_S_CFG_AGE_PORT)) 6, badAt (x.syncBad v) 8,
          badAt (decide (q.w 2 < getF (q.w 3) Fld.VIE_S_TIMING_SLACK_US * 1000)) 14,
          badAt (getF c Fld.VIE_S_CFG_FORMAT = 0 && (decide (pix < 8) || decide (16 < pix))) 20, badAt (x.latticeBad v) 24] : List Check), chk.1 = false) →
      (h.clean x noDeadlock) →
      h.clean after noDeadlock →
      exec (.vidStreamSet owner slot) s = .next (s.done owner slot after [])) ∧
  (∀ (s : State) (owner slot : Nat) (q : Slot), s.hw.runs owner slot 0x0602 q →
      let h := s.hw
      let v := q.w 0
      let c := bits (q.w 1) 14 8
      let after : Hw := (
          let x := h.cfg (Reg.VIE_S_CFG v) 0x80007F00 (2 ^ 31 + q.w 1)
          if x.answers (Reg.VIE_S_CFG v) then x.vieEnable v else x)
      (∀ chk ∈ ([h.deny owner 3 v, q.reserved [63, 0x7F00], badAt (c.testBit 4 && !c.testBit 3) 5,
          badState (h.vcfg v Fld.VIE_S_CFG_EN = 1) 3 v] : List Check), chk.1 = false) →
      h.clean after noDeadlock →
      exec (.vidStreamEnable owner slot) s = .next (s.done owner slot after [])) ∧
  (∀ (s : State) (owner slot : Nat) (q : Slot), s.hw.runs owner slot 0x0603 q →
      let h := s.hw
      let v := q.w 0
      let after : Hw := (if h.vcfg v Fld.VIE_S_CFG_EN = 1 then
            let x := (((kvGet h.vie.s v).bind (·.pend)).getD []).foldl (fun (a : Hw) w => a.wn w.1 w.2) h
            (x.vieDisable v).setFld (Reg.VIE_S_CFG v) Fld.VIE_S_CFG_EN 0
          else h)
      (∀ chk ∈ ([h.deny owner 3 v, q.reserved [63]] : List Check), chk.1 = false) →
      h.clean after noDeadlock →
      exec (.vidStreamDisable owner slot) s = .next (s.done owner slot after [])) ∧
  (∀ (s : State) (owner slot : Nat) (q : Slot), s.hw.runs owner slot 0x0604 q →
      let h := s.hw
      let v := q.w 0
      let l : List (Nat × Nat × Nat) := [(Reg.VIE_S_LAT_ORG v, 0xFFFFFFFF, q.w 1), (Reg.VIE_S_LAT_STEP v, 0xFFFFFFFF, q.w 2),
          (Reg.VIE_S_LAT_COUNT v, 0x1FFF1FFF, q.w 3)]
      let x : Hw := l.foldl (fun b e => b.image e.1 e.2.1 e.2.2) (h.settled v)
      let after : Hw := h.setStream v l
      (∀ chk ∈ ([h.deny owner 3 v, q.reserved [63, 0xFFFFFFFF, 0xFFFFFFFF, 0x1FFF1FFF], badAt (x.latticeBad v) 12] : List Check), chk.1 = false) →
      (h.clean x noDeadlock) →
      h.clean after noDeadlock →
      exec (.vidLatticeSet owner slot) s = .next (s.done owner slot after [])) ∧
  (∀ (s : State) (owner slot : Nat) (q : Slot), s.hw.runs owner slot 0x0605 q →
      let h := s.hw
      let v := q.w 0
      let f := q.w 4
      let fb := getF f Fld.VIE_S_FALLBACK_FB_STREAM
      let fbEn := getF f Fld.VIE_S_FALLBACK_FB_EN == 1
      let frEn := getF f Fld.VIE_S_FALLBACK_FRER_EN == 1
      let l : List (Nat × Nat × Nat) := [(Reg.VIE_S_THRESH v, 0x0FFFFFFF, q.w 1), (Reg.VIE_S_ACT v, 0x0FFFFFFF, q.w 2), (Reg.VIE_S_HYST v, 0xFFFFFF0F, q.w 3),
          (Reg.VIE_S_FALLBACK v, 0xBFF0003F, f)]
      let x : Hw := l.foldl (fun b e => b.image e.1 e.2.1 e.2.2) (h.settled v)
      let after : Hw := h.setStream v l
      (∀ chk ∈ ([h.denyAny owner ((3, v) :: (if fbEn then [(3, fb)] else []) ++ (if frEn then [(19, getF f Fld.VIE_S_FALLBACK_FRER_PAIR)] else [])),
          q.reserved [63, 0x0FFFFFFF, 0x0FFFFFFF, 0xFFFFFF0F, 0xBFF0003F], badAt (getF (q.w 3) Fld.VIE_S_HYST_CLEAR_N = 0) 13,
          badAt (frEn && getF f Fld.VIE_S_FALLBACK_FRER_FORCE = 3) 18, badAt (fbEn && fb = v) 19] : List Check), chk.1 = false) →
      (h.clean x noDeadlock) →
      h.clean after noDeadlock →
      exec (.vidActionSet owner slot) s = .next (s.done owner slot after [])) ∧
  (∀ (s : State) (owner slot : Nat) (q : Slot), s.hw.runs owner slot 0x0606 q →
      let h := s.hw
      let v := q.w 0
      let n := q.w 1
      let all := q.payload.length = 4
      let cfg := if all then q.w 3 else h.rn Reg.VIE_NOTICE_CFG
      let key := getF n Fld.VIE_S_NOTICE_NOTICE_VID * 2 ^ 48 + getF n Fld.VIE_S_NOTICE_NOTICE_DA_HI * 2 ^ 32 + q.w 2
      let x := h.setStream v [(Reg.VIE_S_NOTICE v, 0x8FFFFFFF, n), (Reg.VIE_S_NOTICE_DA v, 0xFFFFFFFF, q.w 2)]
      let x := if all then x.images [(Reg.VIE_NOTICE_CFG, 0x03FF00FF, cfg)] else x
      let after : Hw := x
      (∀ chk ∈ ([h.deny owner 3 v, (cfg != h.rn Reg.VIE_NOTICE_CFG && owner != 1, cDenied, 0), q.reserved [63, 0x8FFFFFFF, 0xFFFFFFFF, 0x03FF00FF],
          badAt (decide (1000 < getF cfg Fld.VIE_NOTICE_CFG_HEARTBEAT_MS)) 14,
          badAt (bit n 31 && getF cfg Fld.VIE_NOTICE_CFG_SUBTYPE = 0) 12] : List Check), chk.1 = false) →
      (bit n 31 = false) →
      h.clean after noDeadlock →
      exec (.vidNoticeSet owner slot) s = .next (s.done owner slot after [])) ∧
  (∀ (s : State) (owner slot : Nat) (q : Slot), s.hw.runs owner slot 0x0606 q →
      let h := s.hw
      let v := q.w 0
      let n := q.w 1
      let all := q.payload.length = 4
      let cfg := if all then q.w 3 else h.rn Reg.VIE_NOTICE_CFG
      let key := getF n Fld.VIE_S_NOTICE_NOTICE_VID * 2 ^ 48 + getF n Fld.VIE_S_NOTICE_NOTICE_DA_HI * 2 ^ 32 + q.w 2
      let x := h.setStream v [(Reg.VIE_S_NOTICE v, 0x8FFFFFFF, n), (Reg.VIE_S_NOTICE_DA v, 0xFFFFFFFF, q.w 2)]
      let x := if all then x.images [(Reg.VIE_NOTICE_CFG, 0x03FF00FF, cfg)] else x
      ∀ (y : Hw),
      let after : Hw := y
      (∀ chk ∈ ([h.deny owner 3 v, (cfg != h.rn Reg.VIE_NOTICE_CFG && owner != 1, cDenied, 0), q.reserved [63, 0x8FFFFFFF, 0xFFFFFFFF, 0x03FF00FF],
          badAt (decide (1000 < getF cfg Fld.VIE_NOTICE_CFG_HEARTBEAT_MS)) 14,
          badAt (bit n 31 && getF cfg Fld.VIE_NOTICE_CFG_SUBTYPE = 0) 12] : List Check), chk.1 = false) →
      (bit n 31 = true) →
      (x.noticeEntry key = some y) →
      h.clean after noDeadlock →
      exec (.vidNoticeSet owner slot) s = .next (s.done owner slot after [])) ∧
  (∀ (s : State) (owner slot : Nat) (q : Slot), s.hw.runs owner slot 0x0607 q →
      let h := s.hw
      let g := q.w 0
      let c := q.w 1
      let en := getF c Fld.VIE_SYNC_CFG_EN == 1
      let p := getF c Fld.VIE_SYNC_CFG_PULSE
      let tb := getF c Fld.VIE_SYNC_CFG_TB
      let old := h.rn (Reg.VIE_SYNC_CFG g)
      let oldP := getF old Fld.VIE_SYNC_CFG_PULSE
      let ms := (List.range 64).filter (fun v => (h.settled v).vcfg v Fld.VIE_S_CFG_SYNC_EN == 1 && (h.settled v).vcfg v Fld.VIE_S_CFG_SYNC == g)
      let per := match ms with
        | v :: _ => (h.settled v).rn (Reg.VIE_S_NOMINAL v)
        | [] => h.rn (Reg.TIME_PULSE_PERIOD p)
      let other := (List.range 8).find? (fun k => k != g && h.flag (Reg.VIE_SYNC_CFG k) Fld.VIE_SYNC_CFG_EN &&
        h.fld (Reg.VIE_SYNC_CFG k) Fld.VIE_SYNC_CFG_PULSE == p)
      let w := h.rn (Reg.TIME_PULSE_WIDTH p)
      let wOk := 8 ≤ w && w + 8 ≤ per
      let width := if wOk then w else 8 + h.draw % (per - 15)
      let after : Hw := (
          let x := h.images [(Reg.VIE_SYNC_CFG g, 0xFE0FFFFF, c), (Reg.VIE_SYNC_PHASE g, 0xFFFFFFFF, q.w 2)]
          let off (a : Hw) (n : Nat) : Hw := a.pulseSet n [0, a.rn (Reg.TIME_PULSE_START_S n), a.rn (Reg.TIME_PULSE_START_NS n),
            a.rn (Reg.TIME_PULSE_PERIOD n), a.rn (Reg.TIME_PULSE_WIDTH n)]
          let x := if getF old Fld.VIE_SYNC_CFG_EN = 1 && (!en || oldP != p) then off x oldP else x
          if en then
            let pol := if h.flag (Reg.TIME_PULSE_CFG p) Fld.TIME_PULSE_CFG_POL then 2 ^ 29 else 0
            (if wOk then x else x.drawn).pulseSet p [2 ^ 31 + 2 ^ 30 + pol + 2 ^ 28 + tb * 2 ^ 25, q.w 2 / 1000000000, q.w 2 % 1000000000, per, width]
          else x)
      (∀ chk ∈ ([h.deny owner 14 g, q.reserved [7, 0xFE0FFFFF], badAt (en && ms.any (fun v => (h.settled v).vcfg v Fld.VIE_S_CFG_TB != tb)) 7,
          badAt (en && (ms.any (fun v => (h.settled v).rn (Reg.VIE_S_NOMINAL v) != per) || decide (per < 1000) || decide (4000000000 < per))) 4,
          conflict (en && other.isSome) 14 (other.getD 0)] : List Check), chk.1 = false) →
      h.clean after noDeadlock →
      exec (.vidSyncSet owner slot) s = .next (s.done owner slot after [])) ∧
  (∀ (s : State) (owner slot : Nat) (q : Slot), s.hw.runs owner slot 0x0608 q →
      let h := s.hw
      let v := q.w 0
      let after : Hw := h
      (∀ chk ∈ ([h.denyRead owner 3 v, q.reserved [63]] : List Check), chk.1 = false) →
      h.clean after noDeadlock →
      exec (.vidStateRead owner slot) s = .next (s.done owner slot after [h.rn (Reg.VIE_S_STATE v), h.rn (Reg.VIE_S_LAST_COUNTER v), h.rn (Reg.VIE_S_LAST_SIG_LO v), h.rn (Reg.VIE_S_LAST_SIG_HI v),
          h.rn (Reg.VIE_S_LAST_CRC v), h.rn (Reg.VIE_S_LAST_AGE v)])) ∧
  (∀ (s : State) (owner slot : Nat) (q : Slot), s.hw.runs owner slot 0x0609 q →
      let h := s.hw
      let r := q.w 0
      let c := q.w 1
      let en := getF c Fld.RSV_RING_CFG_EN == 1
      let was := h.flag (Reg.RSV_RING_CFG r) Fld.RSV_RING_CFG_EN
      let v := getF c Fld.RSV_RING_CFG_STREAM
      let b := q.w 2
      let n := q.w 3
      let on (k : Nat) : Bool := k != r && h.flag (Reg.RSV_RING_CFG k) Fld.RSV_RING_CFG_EN
      let moved := h.fld (Reg.RSV_RING_CFG r) Fld.RSV_RING_CFG_STREAM != v || h.rn (Reg.RSV_RING_BASE r) != b || h.rn (Reg.RSV_RING_SIZE r) != n
      let other := (List.range 16).find? (fun k => on k && (h.fld (Reg.RSV_RING_CFG k) Fld.RSV_RING_CFG_STREAM == v ||
        overlaps b n (h.rn (Reg.RSV_RING_BASE k)) (h.rn (Reg.RSV_RING_SIZE k))))
      let region (i : Nat) : Bool := h.flag (Reg.MEM_LPDDR_REGION i) Fld.MEM_LPDDR_REGION_EN
      let base (i : Nat) : Nat := h.fld (Reg.MEM_LPDDR_REGION i) Fld.MEM_LPDDR_REGION_BASE_MIB
      let size (i : Nat) : Nat := h.rn (Reg.MEM_LPDDR_SIZE i)
      let isRsv (i : Nat) : Bool := h.fld (Reg.MEM_LPDDR_REGION i) Fld.MEM_LPDDR_REGION_TYPE == 3
      let foreign := (List.range 32).any (fun i => region i && !isRsv i && overlaps b n (base i) (size i))
      let inside := (List.range 32).any (fun i => region i && isRsv i && decide (base i ≤ b) && decide (b + n ≤ base i + size i))
      let after : Hw := (
          let x := h.images ([(Reg.RSV_RING_CFG r, 0xFF00FFFF, c), (Reg.RSV_RING_BASE r, 0x1FFF, b), (Reg.RSV_RING_SIZE r, 0x1FFF, n)] ++
            (List.range 4).map (fun k => (Reg.RSV_TRIG_MASK k, 2 ^ r, if bit (q.w 4) k then 2 ^ r else 0)))
          if en && was then x
          else (((x.onVie (fun w => { w with ring := kvDel w.ring r })).wn (Reg.RSV_RING_FILL r) 0).wn (Reg.RSV_RING_STATE r) en.toNat))
      (∀ chk ∈ ([h.deny owner 11 r, h.denyRead owner 3 v, q.reserved [15, 0xFF00FFFF, 0x1FFF, 0x1FFF, 15],
          badAt (decide (60000 < getF c Fld.RSV_RING_CFG_POST_MS)) 4, badAt (en && n = 0) 12,
          noObj (en && !inside && !foreign) 11 r, badState (en && was && moved) 11 r, (en && foreign, cConflict, 0),
          conflict (en && other.isSome) 11 (other.getD 0)] : List Check), chk.1 = false) →
      h.clean after noDeadlock →
      exec (.vidRingSet owner slot) s = .next (s.done owner slot after [])) ∧
  (∀ (s : State) (owner slot : Nat) (q : Slot), s.hw.runs owner slot 0x060A q →
      let h := s.hw
      let r := q.w 0
      let after : Hw := ((h.onRing r (fun x => { x with trig := [], trigAt := none, postEnd := 0 })).wn (Reg.RSV_RING_STATE r) 1)
      (∀ chk ∈ ([h.deny owner 11 r, q.reserved [15], badState (h.fld (Reg.RSV_RING_STATE r) Fld.RSV_RING_STATE_STATE != 3) 11 r] : List Check), chk.1 = false) →
      h.clean after noDeadlock →
      exec (.vidRingRelease owner slot) s = .next (s.done owner slot after [])) ∧
  (∀ (s : State) (owner slot : Nat) (q : Slot), s.hw.runs owner slot 0x060B q →
      let h := s.hw
      let r := q.w 0
      let dst := q.w 1
      let own := 8208 ≤ dst && dst < 10256 && (dst - 8192) / 8 == owner
      ∀ (l : List (List Byte)),
      let after : Hw := (h.onRingAt (dst - 8208) (fun x => { x with pend := x.pend ++ l.map (fun b => ⟨none, 5, b, h.clk⟩) })).showRing (dst - 8208)
      (∀ chk ∈ ([h.denyRead owner 11 r, (!own, cDenied, resWord 11 r), q.reserved [15, 0x3FFF], noObj (kvGet h.vie.ring r).isNone 11 r] : List Check), chk.1 = false) →
      (h.ringData r = some l) →
      h.clean after noDeadlock →
      exec (.vidRingRead owner slot) s = .next (s.done owner slot after [l.length])) ∧
  (∀ (s : State) (owner slot : Nat) (q : Slot), s.hw.runs owner slot 0x060C q →
      let h := s.hw
      let r := q.w 0
      ∀ (kt : BitVec 256) (l : List (List Byte)),
      let k := kdfKey kt lbXprt (toBe 1 r)
      let iv := toBe 12 h.draw
      let ct := gcmXor k iv l.flatten
      let out := iv ++ ct ++ toBe 16 (gcmTag k iv (toLe 4 r) ct).toNat
      let after : Hw := h.drawn.emit (.hostWrite owner (q.w64 1) ((wordsOf ((out.length + 3) / 4) out).take (q.w 3 / 4)))
      (∀ chk ∈ ([h.denyRead owner 11 r, q.reserved [15], noObj (kvGet h.vie.ring r).isNone 11 r] : List Check), chk.1 = false) →
      (h.transportKey s.fuse owner = some kt) →
      (h.ringData r = some l) →
      (owner < 2 ∨ 257 < owner ∨ (h.hdma.linkUp = true ∧ (h.pciFn owner).busMaster = true)) →
      h.clean after noDeadlock →
      exec (.vidRingExport owner slot) s = .next (s.done owner slot after [(wordsOf ((out.length + 3) / 4) out).length])) ∧
  (∀ (s : State) (owner slot : Nat) (q : Slot), s.hw.runs owner slot 0x060D q →
      let h := s.hw
      let k := q.w 0
      let after : Hw := (h.runTask (4 + k) [])
      (∀ chk ∈ ([h.denyAny owner ((bitsOf 16 (h.rn (Reg.RSV_TRIG_MASK k))).map (fun r => (11, r))), badAt (decide (4 ≤ k)) 0] : List Check), chk.1 = false) →
      h.clean after noDeadlock →
      exec (.vidTrigger owner slot) s = .next (s.done owner slot after []))

/-- R204 to R243, R353: what each FBUS command does. Payload layouts that the spec does not give are the model's choice (log entry 22). -/
def Obligations.FbusCommandsComplete : Prop :=
  (∀ (s : State) (owner slot : Nat) (q : Slot), s.hw.runs owner slot 0x0701 q →
      let h := s.hw
      let c := q.w 0
      let cfg := q.w 1
      let en := getF cfg Fld.CAN_CFG_EN == 1
      let was := h.flag (Reg.CAN_CFG c) Fld.CAN_CFG_EN
      let tms := getF cfg Fld.CAN_CFG_XL_TMS == 1
      let moved := h.rn (Reg.CAN_NBT c) != q.w 2 || h.rn (Reg.CAN_DBT c) != q.w 3
      let x := h.images [(Reg.CAN_CFG c, 0xFFFF8000, cfg), (Reg.CAN_NBT c, 0xFFFFFF7F, q.w 2), (Reg.CAN_DBT c, 0x1F3F1F1F, q.w 3),
        (Reg.CAN_XL_PWM c, 0xFFFFFF, q.w 4)]
      let after : Hw := (if en != was then x.canToggle c else x)
      (∀ chk ∈ (([h.deny owner 4 c, q.reserved [0x3F, 0xFFFF8000, 0xFFFFFF7F, 0x1F3F1F1F, 0xFFFFFF], badAt (decide (48 ≤ c)) 0,
          badAt (getF cfg Fld.CAN_CFG_NOMATCH = 3) 6, badAt (getF cfg Fld.CAN_CFG_MODE = 3) 7] ++
          timingChecks (q.w 2) (q.w 3) (getF cfg Fld.CAN_CFG_FD_EN == 1) (getF cfg Fld.CAN_CFG_XL_EN == 1) ++
          [badAt (h.flag (Reg.CAN_TDC c) Fld.CAN_TDC_EN && decide (datBit (q.w 3) < 8) && !tms) 15] ++
          (List.range 3).map (fun i => badAt (tms && bits (q.w 4) (8 * i + 7) (8 * i) = 0) (16 + i)) ++
          [badAt (en && x.schedBad c && !(was && h.schedBad c)) 8, badState (was && moved) 4 c]) : List Check), chk.1 = false) →
      h.clean after Hw.deadlocks →
      exec (.fbusCanSet owner slot) s = .next (s.done owner slot after [])) ∧
  (∀ (s : State) (owner slot : Nat) (q : Slot), s.hw.runs owner slot 0x0702 q →
      let h := s.hw
      let c := q.w 0
      let after : Hw := (h.cfg (Reg.CAN_TDC c) 0x800000FF (q.w 1))
      (∀ chk ∈ ([h.deny owner 4 c, q.reserved [0x3F, 0x800000FF], badAt (decide (48 ≤ c)) 0,
          badAt (bit (q.w 1) 31 && decide (datBit (h.rn (Reg.CAN_DBT c)) < 8) && !h.flag (Reg.CAN_CFG c) Fld.CAN_CFG_XL_TMS) 7] : List Check), chk.1 = false) →
      h.clean after noDeadlock →
      exec (.fbusCanTdcSet owner slot) s = .next (s.done owner slot after [])) ∧
  (∀ (s : State) (owner slot : Nat) (q : Slot), s.hw.runs owner slot 0x0703 q →
      let h := s.hw
      let c := q.w 0 % 64
      let first := bits (q.w 0) 13 8
      let n := bits (q.w 0) 22 16
      let ws := q.bufWords (2 * n)
      let after : Hw := (h.onCan c (fun x => { x with filt := x.filt ++ (List.range n).flatMap (fun i =>
          [(Reg.CAN_FILT_VAL c (first + i), ws.getD (2 * i) 0), (Reg.CAN_FILT_MASK c (first + i), ws.getD (2 * i + 1) 0)]) }))
      (∀ chk ∈ ([h.deny owner 4 c, q.reserved [0x7F3F3F], badAt (decide (48 ≤ c)) 0, badAt (n = 0 || decide (64 < first + n)) 2,
          badAt (q.w 3 != 8 * n) 12] : List Check), chk.1 = false) →
      h.clean after noDeadlock →
      exec (.fbusFilterWrite owner slot) s = .next (s.done owner slot after [])) ∧
  (∀ (s : State) (owner slot : Nat) (q : Slot), s.hw.runs owner slot 0x0704 q →
      let h := s.hw
      let c := q.w 0
      let after : Hw := (h.images [(Reg.CAN_RXQ_CFG c, 0xC000000F, q.w 1), (Reg.CAN_TXQ_CFG c, 0xFFFF, q.w 2)])
      (∀ chk ∈ ([h.deny owner 4 c, q.reserved [0x3F, 0xC000000F, 0xFFFF], badAt (decide (48 ≤ c)) 0, badAt (q.w 1 % 16 = 0) 4] : List Check), chk.1 = false) →
      h.clean after noDeadlock →
      exec (.fbusRxqSet owner slot) s = .next (s.done owner slot after [])) ∧
  (∀ (s : State) (owner slot : Nat) (q : Slot), s.hw.runs owner slot 0x0705 q →
      let h := s.hw
      let c := q.w 0
      let after : Hw := (h.onCan c (fun x => { x with recover := true }))
      (∀ chk ∈ ([h.deny owner 4 c, q.reserved [0x3F], badAt (decide (48 ≤ c)) 0, badState (h.canErr c != 2) 4 c] : List Check), chk.1 = false) →
      h.clean after noDeadlock →
      exec (.fbusCanRecover owner slot) s = .next (s.done owner slot after [])) ∧
  (∀ (s : State) (owner slot : Nat) (q : Slot), s.hw.runs owner slot 0x0706 q →
      let h := s.hw
      let c := q.w 0
      let en := bit (q.w 1) 31
      let ws := q.bufWords 384
      let writes := schedWrites c ws
      let x := h.images [(Reg.CAN_SCHED_CFG c, 0xF7001FFF, q.w 1), (Reg.CAN_SCHED_CYCLE_NS c, 0xFFFFFFFF, q.w 2),
        (Reg.CAN_SCHED_BASE_S c, 0xFFFFFFFF, q.w 3), (Reg.CAN_SCHED_BASE_NS c, 0xFFFFFFFF, q.w 4)]
      let same := h.flag (Reg.CAN_SCHED_CFG c) Fld.CAN_SCHED_CFG_EN && bits (q.w 1) 30 24 == bits (h.rn (Reg.CAN_SCHED_CFG c)) 30 24 &&
        h.cycNs c == q.w 2 && h.rn (Reg.CAN_SCHED_BASE_S c) == q.w 3 && h.rn (Reg.CAN_SCHED_BASE_NS c) == q.w 4
      let y := (x.onCan c (fun k => { k with sched := [] })).images (writes.map (fun w => (w.1, 0xFFFFFFFF, w.2)))
      let common := [h.deny owner 4 c, q.reserved [0x3F, 0xF7001FFF], badAt (decide (48 ≤ c)) 0]
      let after : Hw := (h.cfg (Reg.CAN_SCHED_CFG c) 0xF7001FFF (q.w 1)).onCan c (fun k => { k with cycle := none, live := [], stepped := false, startAt := none })
      (∀ chk ∈ (common : List Check), chk.1 = false) →
      (en = false) →
      h.clean after noDeadlock →
      exec (.fbusSchedLoad owner slot) s = .next (s.done owner slot after [])) ∧
  (∀ (s : State) (owner slot : Nat) (q : Slot), s.hw.runs owner slot 0x0706 q →
      let h := s.hw
      let c := q.w 0
      let en := bit (q.w 1) 31
      let ws := q.bufWords 384
      let writes := schedWrites c ws
      let x := h.images [(Reg.CAN_SCHED_CFG c, 0xF7001FFF, q.w 1), (Reg.CAN_SCHED_CYCLE_NS c, 0xFFFFFFFF, q.w 2),
        (Reg.CAN_SCHED_BASE_S c, 0xFFFFFFFF, q.w 3), (Reg.CAN_SCHED_BASE_NS c, 0xFFFFFFFF, q.w 4)]
      let same := h.flag (Reg.CAN_SCHED_CFG c) Fld.CAN_SCHED_CFG_EN && bits (q.w 1) 30 24 == bits (h.rn (Reg.CAN_SCHED_CFG c)) 30 24 &&
        h.cycNs c == q.w 2 && h.rn (Reg.CAN_SCHED_BASE_S c) == q.w 3 && h.rn (Reg.CAN_SCHED_BASE_NS c) == q.w 4
      let y := (x.onCan c (fun k => { k with sched := [] })).images (writes.map (fun w => (w.1, 0xFFFFFFFF, w.2)))
      let common := [h.deny owner 4 c, q.reserved [0x3F, 0xF7001FFF], badAt (decide (48 ≤ c)) 0]
      let after : Hw := if same then x.onCan c (fun k => { k with sched := writes })
          else y.onCan c (fun k => { k with cycle := none, live := [], stepped := false, startAt := some (y.matrixStart c) })
      (∀ chk ∈ ((common ++ [badAt (decide (4 < bits (q.w 1) 26 24)) 7, badAt (decide (q.w 2 < 100000) || decide (1000000000 < q.w 2)) 8,
          badAt (decide (1000000000 ≤ q.w 4)) 16, badAt (q.w 7 != 1536) 28,
          reservedIn ws ((List.range 64).flatMap (fun _ => [0xFFFFFFFF, 0x3FFFFFFF]) ++ List.replicate 256 0xBFBFBFBF)] ++
          (List.range 64).map (fun i => badAt (bit (ws.getD (2 * i) 0) 31 && decide (q.w 2 ≤ ws.getD (2 * i) 0 % 2 ^ 30)) (8 * i)) ++
          [badAt (y.narrowSlot c).isSome (8 * (y.narrowSlot c).getD 0 + 4), badAt (y.exclOverlap c) 0, badAt (y.guardShort c) 4]) : List Check), chk.1 = false) →
      (en = true) →
      h.clean after noDeadlock →
      exec (.fbusSchedLoad owner slot) s = .next (s.done owner slot after [])) ∧
  (∀ (s : State) (owner slot : Nat) (q : Slot), s.hw.runs owner slot 0x0707 q →
      let h := s.hw
      let c := q.w 0 % 64
      let b := bits (q.w 0) 13 8
      let msg := messageFor c (q.payload.drop 1)
      let x := h.bufferWrite c b msg
      let after : Hw := x
      (∀ chk ∈ ([h.deny owner 4 c, q.reserved [0x3F3F, 0xFFFE0FFF], badAt (decide (48 ≤ c)) 0, badAt (h.badMessage c msg 64) 4,
          badAt (x.schedBad c && !h.schedBad c) 4] : List Check), chk.1 = false) →
      h.clean after noDeadlock →
      exec (.fbusMsgbufWrite owner slot) s = .next (s.done owner slot after [])) ∧
  (∀ (s : State) (owner slot : Nat) (q : Slot), s.hw.runs owner slot 0x0708 q →
      let h := s.hw
      let c := q.w 0 % 64
      let far := bit (q.w 0) 31
      let msg := messageFor c (if far then q.bufWords (q.w 3 / 4) else q.payload.drop 1)
      let r := h.canRequest c msg
      let after : Hw := r.2
      (∀ chk ∈ ([h.deny owner 4 c, q.reserved [0x8000003F], badAt (decide (48 ≤ c)) 0, badAt (h.badMessage c msg 2048) (if far then 0 else 4)] : List Check), chk.1 = false) →
      (r.1 = true) →
      h.clean after noDeadlock →
      exec (.fbusTx owner slot) s = .next (s.done owner slot after [])) ∧
  (∀ (s : State) (owner slot : Nat) (q : Slot), s.hw.runs owner slot 0x0708 q →
      let h := s.hw
      let c := q.w 0 % 64
      let far := bit (q.w 0) 31
      let msg := messageFor c (if far then q.bufWords (q.w 3 / 4) else q.payload.drop 1)
      let r := h.canRequest c msg
      let after : Hw := r.2
      (∀ chk ∈ ([h.deny owner 4 c, q.reserved [0x8000003F], badAt (decide (48 ≤ c)) 0, badAt (h.badMessage c msg 2048) (if far then 0 else 4)] : List Check), chk.1 = false) →
      (r.1 = false) →
      exec (.fbusTx owner slot) s = .next (s.closed owner slot after cState (resWord 4 c) [])) ∧
  (∀ (s : State) (owner slot : Nat) (q : Slot), s.hw.runs owner slot 0x0709 q →
      let h := s.hw
      let l := q.w 0
      let t := q.w 3
      let x := h.images [(Reg.LIN_CFG l, 0xF8000000, q.w 1), (Reg.LIN_RATE l, 0xFFFF, q.w 2), (Reg.LIN_TIMING l, 0xFFFFFF1F, t)]
      let stop := !bit (q.w 1) 31 || bit (q.w 1) 30 != h.linResponder l
      let after : Hw := (if stop then (x.setFld (Reg.LIN_STATUS l) Fld.LIN_STATUS_BUS_ACTIVE 0).onLin l (fun k => { k with
          await := none, sent := none, coll := none, collNext := none, running := false }) else x)
      (∀ chk ∈ ([h.deny owner 5 l, q.reserved [15, 0xF8000000, 0xFFFF, 0xFFFFFF1F], badAt (decide (q.w 2 < 1000) || decide (20000 < q.w 2)) 8,
          badAt (!x.delaysFit l && h.delaysFit l) 8, badAt (decide (t % 32 < 13) || decide (26 < t % 32)) 12,
          badAt (bits t 11 8 = 0 || decide (4 < bits t 11 8) || decide (6 < bits t 15 12)) 13,
          badAt (decide (bits t 31 16 < 250) || decide (5000 < bits t 31 16)) 14] : List Check), chk.1 = false) →
      h.clean after noDeadlock →
      exec (.fbusLinSet owner slot) s = .next (s.done owner slot after [])) ∧
  (∀ (s : State) (owner slot : Nat) (q : Slot), s.hw.runs owner slot 0x070A q →
      let h := s.hw
      let l := q.w 0 % 16
      let k := bits (q.w 0) 10 8
      let n := if k = 5 then 16 else 64
      let ws := q.bufWords n
      let x := h.images ((List.range n).map (fun i =>
        (if k < 4 then Reg.LIN_SCHED l k i else if k = 4 then Reg.LIN_FRAME l i else Reg.LIN_SPORADIC l i, 0xFFFFFFFF, ws.getD i 0)))
      let after : Hw := x
      (∀ chk ∈ ([h.deny owner 5 l, q.reserved [0x70F], badAt (decide (5 < k)) 1, badAt (q.w 3 != 4 * n) 12,
          reservedIn ws (List.replicate n (if k < 4 then 0xFC3FFFFF else if k = 4 then 0x7F else 0xBFBFBFBF)),
          badEntry ws (fun e => if k < 4 then decide (4 < bits e 30 28) else k == 4 &&
            (e % 4 == 3 || (e % 4 != 0 && (bits e 5 2 == 0 || decide (8 < bits e 5 2))))),
          badEntry ws (fun e => decide (k < 4) && !delayFits (h.linLen l) (h.sporadicIds l) (h.rn (Reg.LIN_RATE l) % 65536) e),
          badAt (decide (4 ≤ k) && !x.delaysFit l && h.delaysFit l) 0] : List Check), chk.1 = false) →
      h.clean after noDeadlock →
      exec (.fbusLinTableLoad owner slot) s = .next (s.done owner slot after [])) ∧
  (∀ (s : State) (owner slot : Nat) (q : Slot), s.hw.runs owner slot 0x070B q →
      let h := s.hw
      let l := q.w 0
      let after : Hw := (
          let x := h.cfg (Reg.LIN_SCHED_CTRL l) 0x80000003 (q.w 1)
          if bit (q.w 1) 31 then x else x.onLin l (fun k => { k with running := false, coll := none, collNext := none }))
      (∀ chk ∈ ([h.deny owner 5 l, q.reserved [15, 0x80000003]] : List Check), chk.1 = false) →
      h.clean after noDeadlock →
      exec (.fbusLinSchedSelect owner slot) s = .next (s.done owner slot after [])) ∧
  (∀ (s : State) (owner slot : Nat) (q : Slot), s.hw.runs owner slot 0x070C q →
      let h := s.hw
      let l := q.w 0
      let after : Hw := ((h.onLin l (fun k => { k with waking := some (h.clk + h.fld (Reg.LIN_TIMING l) Fld.LIN_TIMING_WAKE_US * 500) })).emit (.pin (.linTx l) (some false)))
      (∀ chk ∈ ([h.deny owner 5 l, q.reserved [15], noObj (!h.linOn l) 5 l] : List Check), chk.1 = false) →
      h.clean after noDeadlock →
      exec (.fbusLinWake owner slot) s = .next (s.done owner slot after [])) ∧
  (∀ (s : State) (owner slot : Nat) (q : Slot), s.hw.runs owner slot 0x070D q →
      let h := s.hw
      let w := q.w 0
      let after : Hw := (h.images [(Reg.CANW_CFG w, 0xFE00000F, q.w 1), (Reg.CANW_ID w, 0x1FFFFFFF, q.w 2), (Reg.CANW_ID_MASK w, 0x1FFFFFFF, q.w 3),
          (Reg.CANW_DATA_LO w, 0xFFFFFFFF, q.w 4), (Reg.CANW_DATA_HI w, 0xFFFFFFFF, q.w 5), (Reg.CANW_DMASK_LO w, 0xFFFFFFFF, q.w 6),
          (Reg.CANW_DMASK_HI w, 0xFFFFFFFF, q.w 7)])
      (∀ chk ∈ ([h.deny owner 4 w, q.reserved [7, 0xFE00000F, 0x1FFFFFFF, 0x1FFFFFFF]] : List Check), chk.1 = false) →
      h.clean after noDeadlock →
      exec (.fbusWakeDetSet owner slot) s = .next (s.done owner slot after [])) ∧
  (∀ (s : State) (owner slot : Nat) (q : Slot), s.hw.runs owner slot 0x070E q →
      let h := s.hw
      let f := q.w 0
      let dst := q.w 1 % 2 ^ 14
      let en := bit (q.w 1) 31 && !bit (q.w 1) 30
      let after : Hw := (h.cfg (Reg.FBUS_RILL_CFG f) 0xC0003FFF (q.w 1))
      (∀ chk ∈ ([h.deny owner 10 f, (en && owner != 1 && (dst - 8192) / 8 != owner, cDenied, resWord 10 f), q.reserved [63, 0xC0003FFF],
          badAt (en && (decide (dst < 8208) || decide (8208 + 2048 ≤ dst))) 4,
          (en && !h.own.active.contains ((dst - 8192) / 8), cNoObject, resWord 10 f)] : List Check), chk.1 = false) →
      h.clean after noDeadlock →
      exec (.fbusRillSet owner slot) s = .next (s.done owner slot after []))

/-- R244 to R269, R350, R353, R359: what each GWY command does. Payload layouts that the spec does not give are the model's choice (log entry 22). -/
def Obligations.GwyCommandsComplete : Prop :=
  (∀ (s : State) (owner slot : Nat) (q : Slot), s.hw.runs owner slot 0x0801 q →
      let h := s.hw
          let r := ruleOf q.payload
      let chained := bit (q.payload.getD 0 0) 16
      let i := q.payload.getD 0 0 % 65536
      let upd := i != 65535
      let old := kvGet h.brg.rules i
      let keep := upd && (match old with | some p => ruleKey p == ruleKey r | none => false)
      let place := if keep then some i else h.freeRule owner
      let x := h.onBrg (fun b => { b with rules := kvPut (if upd then kvDel b.rules i else b.rules) (place.getD 65536) r })
      let w2 := r.getD 2 0
      let handle := w2 % 4096
      let rated := ruleHead r && bit w2 15
      let dup := h.brg.rules.find? (fun e => !(upd && e.1 == i) && ruleHead e.2 && ruleHead r && ruleKey e.2 == ruleKey r)
      let mixed := firstNew Hw.tunnelsMixed h x
      let next := r.getD 7 0 % 65536
      let used := x.fwd.em.any (fun e => e.2.isStream && e.2.stream == handle) ||
        h.flag (Reg.TSS_SLUICE_FILTER handle) Fld.TSS_SLUICE_FILTER_EN
      ∀ (p : Nat),
      let after : Hw := x
      (∀ chk ∈ (([if upd then h.deny owner 16 (i / 256) else ((List.range 256).all (fun b => !h.mayConf owner 16 b), cDenied, resWord 16 0),
          h.denyAny owner (ruleNames r), (if bit w2 31 then denyOwner owner (bits w2 24 16) else (false, 0, 0)),
          reservedIn q.payload ([0x1FFFF] ++ (if chained then [0xFFFFFFFF, 0xFFFFFFFF, 0xFFFFFFFF] else [0xDFFFFFFF, 0xFFF00FFF, 0x81FF8FFF]) ++
            ((q.payload.drop 4).take 4).map destMask ++ [0x8FFFFFFF])] ++ ruleChecks r ++
          [badAt (firstNew (fun a => a.headsWith (fun b e => decide (4 < b.chainLen 5 e))) h x).isSome 35,
           badAt (firstNew (fun a => a.headsWith Hw.formatBad) h x).isSome 18,
           badAt (firstNew (fun a => a.headsWith Hw.authBad) h x).isSome 8,
           badAt (rated && h.fld (Reg.TSS_WEIR_RATE (768 + handle)) Fld.TSS_WEIR_RATE_ACTION = 1) 13,
           badAt (firstNew Hw.guardsShort h x).isSome 16,
           noObj (upd && old.isNone) 16 (i / 256), noObj (bit (r.getD 7 0) 31 && (kvGet x.brg.rules next).isNone) 16 (next / 256),
           (bit w2 31 && !h.alive (bits w2 24 16), cNoObject, bits w2 24 16),
           (match dup with | some e => (true, cConflict, resWord 16 (e.1 / 256)) | none => (false, 0, 0)),
           conflict (rated && used) 2 handle, conflict mixed.isSome 12 (mixed.getD 0), loopCheck h x]) : List Check), chk.1 = false) →
      (place = some p) →
      h.clean after Hw.deadlocks →
      exec (.gwyRuleWrite owner slot) s = .next (s.done owner slot after [p])) ∧
  (∀ (s : State) (owner slot : Nat) (q : Slot), s.hw.runs owner slot 0x0802 q →
      let h := s.hw
      let i := q.w 0 % 65536
      let x := if bit (q.w 0) 16 then h.ruleAt (bits (q.w 2) 31 25) (bits (q.w 2) 24 23) (bit (q.w 1) 30) (q.w 1 % 2 ^ 29)
        else (kvGet h.brg.rules i).map (fun r => (i, r))
      let masks := [0x1FFFF, 0x5FFFFFFF, 0xFF800000]
      ∀ (k : Nat) (r : List Nat),
      let after : Hw := h
      (∀ chk ∈ ([h.denyRead owner 16 (k / 256), q.reserved masks] : List Check), chk.1 = false) →
      (x = some (k, r)) →
      h.clean after noDeadlock →
      exec (.gwyRuleRead owner slot) s = .next (s.done owner slot after (k :: (if ruleChained r then 0 else r.getD 0 0) :: r.drop 1))) ∧
  (∀ (s : State) (owner slot : Nat) (q : Slot), s.hw.runs owner slot 0x0803 q →
      let h := s.hw
      let i := q.w 0
      let x := h.onBrg (fun b => { b with rules := kvDel b.rules i })
      let after : Hw := x
      (∀ chk ∈ ([h.deny owner 16 (i / 256), q.reserved [0xFFFF], noObj (kvGet h.brg.rules i).isNone 16 (i / 256), loopCheck h x] : List Check), chk.1 = false) →
      h.clean after noDeadlock →
      exec (.gwyRuleDel owner slot) s = .next (s.done owner slot after [])) ∧
  (∀ (s : State) (owner slot : Nat) (q : Slot), s.hw.runs owner slot 0x0804 q →
      let h := s.hw
      let n := q.w 0
      let ws := q.bufWords (9 * n)
      let r : Nat × Option (Nat × Nat) × Hw := runElements Hw.deadlocks (fun a i (_ : Nat) =>
          match a.ruleAdd owner ((ws.drop (9 * i)).take 9) with
          | .ok x _ => (none, x)
          | .wait x => (none, x)
          | .no c d _ x => (some (c, if c = cBadParam then 36 * i + d else d), x)) (List.range n) 0 h
      let after : Hw := r.2.2
      (∀ chk ∈ ([q.reserved [0x3FF], badAt (n = 0 || decide (512 < n)) 0, badAt (q.w 3 != 36 * n) 12] : List Check), chk.1 = false) →
      (r.2.1 = none) →
      h.clean after Hw.deadlocks →
      exec (.gwyRuleBulk owner slot) s = .next (s.done owner slot after [r.1])) ∧
  (∀ (s : State) (owner slot : Nat) (q : Slot), s.hw.runs owner slot 0x0805 q →
      let h := s.hw
      let k := q.w 0
      let x := h.images ((Reg.BRG_SRC_CFG k, 0xF0000000, q.w 1) ::
        (List.range 4).map (fun m => (Reg.BRG_SRC_MASK k m, 0x9FFFFFFF, q.w (2 + m))))
      let x := if bit (q.w 1) 29 then x
        else x.onBrg (fun b => { b with claims := b.claims.filter (fun (e : Nat × Nat × Nat) => e.1 / 256 != k) })
      let after : Hw := x
      (∀ chk ∈ ([h.denyAny owner [srcRes k], q.reserved [127, 0xF0000000, 0x9FFFFFFF, 0x9FFFFFFF, 0x9FFFFFFF, 0x9FFFFFFF],
          badAt (decide (96 ≤ k)) 0, loopCheck h x] : List Check), chk.1 = false) →
      h.clean after noDeadlock →
      exec (.gwySrcSet owner slot) s = .next (s.done owner slot after [])) ∧
  (∀ (s : State) (owner slot : Nat) (q : Slot), s.hw.runs owner slot 0x0806 q →
      let h := s.hw
      let ws := q.payload.drop 1
      let x := h.onBrg (fun b => { b with rewr := (ws.mapIdx (fun i w => (q.w 0 + i, w))).foldl (fun m e => kvPut m e.1 e.2) b.rewr })
      let after : Hw := x
      (∀ chk ∈ ([only1 owner, q.reserved (0xFFF :: ws.map (fun _ => 0x5FFFFFFF)), badAt (decide (4096 < q.w 0 + ws.length)) 0,
          badAt (firstNew Hw.guardsShort h x).isSome 4, loopCheck h x] : List Check), chk.1 = false) →
      h.clean after noDeadlock →
      exec (.gwyRewriteSet owner slot) s = .next (s.done owner slot after [])) ∧
  (∀ (s : State) (owner slot : Nat) (q : Slot), s.hw.runs owner slot 0x0807 q →
      let h := s.hw
      let n := (q.payload.length - 1) / 2
      let ks := List.range n
      let a (i : Nat) : Nat := q.w (1 + 2 * i)
      let m (i : Nat) : SigMap := mapOf (a i) (q.w (2 + 2 * i)) h.clk
      let maps := ks.foldl (fun l i => if bit (a i) 31 then kvPut l (q.w 0 + i) (m i) else kvDel l (q.w 0 + i)) h.brg.maps
      let len (i : Nat) : Nat := match kvGet h.brg.bufs (m i).buf with | some b => b.len | none => 0
      let after : Hw := (h.onBrg (fun b => { b with maps := maps }))
      (∀ chk ∈ (([only1 owner, q.reserved (0x1FFF :: ks.flatMap (fun _ => [0xFF0001FF, 0xFFFF01FF])),
          badAt (decide (8192 < q.w 0 + n)) 0, badAt (q.payload.length != 1 + 2 * n) 0] ++
          ks.map (fun i => badAt (bit (a i) 31 && ((m i).len = 0 || decide (64 < (m i).len))) (8 * i + 11)) ++
          ks.map (fun i => badAt (bit (a i) 31 && (m i).dstBits.any (fun p => decide (8 * len i ≤ p))) (8 * i + 8)) ++
          ks.map (fun i => (bit (a i) 31 && maps.any (fun e => e.1 != q.w 0 + i && clash e.2 (m i)), cConflict, 0))) : List Check), chk.1 = false) →
      h.clean after noDeadlock →
      exec (.gwySigMapSet owner slot) s = .next (s.done owner slot after [])) ∧
  (∀ (s : State) (owner slot : Nat) (q : Slot), s.hw.runs owner slot 0x0808 q →
      let h := s.hw
      let i := q.w 0 % 512
      let valid := bit (q.w 0) 31
      let n := recLen [q.w 1]
      let d := q.w 3
      let t := bits d 31 28
      let send := bits (q.w 4) 17 16
      let data := match kvGet h.brg.bufs i with
        | some b => b.data.take n ++ List.replicate (n - b.data.length) 0
        | none => List.replicate n 0
      let new : AsmBuf := ⟨n, q.w 1, q.w 2, d, send, q.w 4 % 65536, q.w 5, data, h.clk, h.clk + q.w 4 % 65536 * 500000⟩
      let x := h.onBrg (fun b => { b with bufs := if valid then kvPut b.bufs i new else kvDel b.bufs i })
      let fixed := h.brg.maps.any (fun e => e.2.buf == i && e.2.dstBits.any (fun p => decide (8 * n ≤ p)))
      let after : Hw := x
      (∀ chk ∈ ([only1 owner, q.reserved [0x800001FF, 0xF03E0FFF, 0xFFFFFFFF,
            [0, 0xFFF80000, 0xFF00003F, 0xFFC0003F].getD t 0, 0x3FFFF, 0xFFFF],
          badAt (valid && (n = 0 || decide (64 < n) || fixed || decide (2 < recKind [q.w 1]) || (recKind [q.w 1] = 0 && decide (8 < n)))) 4,
          badAt (valid && (t = 0 || decide (3 < t))) 15, badAt (valid && t != 2 && decide (48 ≤ bits d 27 22)) 14,
          badAt (valid && t = 2 && decide (8 < n)) 4, badAt (valid && decide (2 ≤ send) && q.w 4 % 65536 = 0) 16,
          badAt (firstNew Hw.guardsShort h x).isSome 4] : List Check), chk.1 = false) →
      h.clean after noDeadlock →
      exec (.gwySigBufSet owner slot) s = .next (s.done owner slot after [])) ∧
  (∀ (s : State) (owner slot : Nat) (q : Slot), s.hw.runs owner slot 0x0809 q →
      let h := s.hw
      let t := q.w 0
      let c := q.w 1
      let en := getF c Fld.BRG_TUNNEL_CFG_EN == 1
      let max_ := getF c Fld.BRG_TUNNEL_CFG_MAX_BYTES
      let after : Hw := (h.images [(Reg.BRG_TUNNEL_CFG t, 0xFFFFF7FF, c), (Reg.BRG_TUNNEL_SID_HI t, 0xFFFFFFFF, q.w 2),
          (Reg.BRG_TUNNEL_SID_LO t, 0xFFFFFFFF, q.w 3), (Reg.BRG_TUNNEL_DA_HI t, 0xFFFF, q.w 4), (Reg.BRG_TUNNEL_DA_LO t, 0xFFFFFFFF, q.w 5),
          (Reg.BRG_TUNNEL_TMO t, 0xFFFF, q.w 6), (Reg.BRG_TUNNEL_MTT t, 0xFFFFFFFF, q.w 7), (Reg.BRG_TUNNEL_TB t, 7, q.w 8)])
      (∀ chk ∈ ([h.deny owner 12 t, q.reserved [31, 0xFFFFF7FF, 0xFFFFFFFF, 0xFFFFFFFF, 0xFFFF, 0xFFFFFFFF, 0xFFFF, 0xFFFFFFFF, 7],
          badAt (decide (max_ < 64) || decide ((if getF c Fld.BRG_TUNNEL_CFG_TSCF = 1 then 1476 else 1488) < max_)) 4,
          badAt (en && q.w 6 = 0) 24] : List Check), chk.1 = false) →
      h.clean after Hw.deadlocks →
      exec (.gwyTunnelSet owner slot) s = .next (s.done owner slot after [])) ∧
  (∀ (s : State) (owner slot : Nat) (q : Slot), s.hw.runs owner slot 0x080A q →
      let h := s.hw
      let t := q.w 0
      let after : Hw := (h.images [(Reg.BRG_RXTUN_CFG t, 0x80000000, q.w 1), (Reg.BRG_RXTUN_SID_HI t, 0xFFFFFFFF, q.w 2),
          (Reg.BRG_RXTUN_SID_LO t, 0xFFFFFFFF, q.w 3)])
      (∀ chk ∈ ([h.deny owner 12 (256 + t), q.reserved [31, 0x80000000]] : List Check), chk.1 = false) →
      h.clean after noDeadlock →
      exec (.gwyRxtunnelSet owner slot) s = .next (s.done owner slot after [])) ∧
  (∀ (s : State) (owner slot : Nat) (q : Slot), s.hw.runs owner slot 0x080B q →
      let h := s.hw
      let i := q.w 0
      let w := q.w 1
      let a : Auth := kvGetD h.brg.auth i ⟨none, 1, 0, 0, 0, true, 0, 0, false, 0, kvGetD h.sec.fresh i 0⟩
      let x := h.onBrg (fun b => { b with auth := kvPut b.auth i { a with
        len := bits w 5 0, fv := bits w 11 8, mac := bits w 16 12, strict := bit w 20, resync := bits w 31 24 } })
      let after : Hw := x
      (∀ chk ∈ ([h.deny owner 17 i, q.reserved [4095, 0xFF11FF3F], badAt (decide (60 < bits w 5 0)) 4, badAt (decide (8 < bits w 11 8)) 5,
          badAt (decide (bits w 16 12 < 3) || decide (16 < bits w 16 12)) 5, badAt (bits w 31 24 = 0) 7,
          badAt (firstNew (fun b => b.headsWith Hw.authBad) h x).isSome 4] : List Check), chk.1 = false) →
      h.clean after noDeadlock →
      exec (.gwyAuthSet owner slot) s = .next (s.done owner slot after [])) ∧
  (∀ (s : State) (owner slot : Nat) (q : Slot), s.hw.runs owner slot 0x080C q →
      let h := s.hw
      let i := q.w 0
      let after : Hw := (h.onBrg (fun b => { b with auth := match kvGet b.auth i with
          | some a => kvPut b.auth i { a with l := q.w64 1, fails := 0, wait := false }
          | none => b.auth }))
      (∀ chk ∈ ([h.deny owner 17 i, q.reserved [4095], noObj (kvGet h.brg.auth i).isNone 17 i] : List Check), chk.1 = false) →
      h.clean after noDeadlock →
      exec (.gwyAuthFreshSet owner slot) s = .next (s.done owner slot after [])) ∧
  (∀ (s : State) (owner slot : Nat) (q : Slot), s.hw.runs owner slot 0x080D q →
      let h := s.hw
      let k := q.w 0 % 128
      let l := h.brg.claims.filter (fun e => e.1 / 256 == k && decide (bits (q.w 0) 15 8 ≤ e.1 % 256))
      let after : Hw := h
      (∀ chk ∈ ([(!h.mayRead owner (srcRes k).1 (srcRes k).2, cDenied, resWord (srcRes k).1 (srcRes k).2), q.reserved [0xFF7F],
          badAt (decide (96 ≤ k)) 0] : List Check), chk.1 = false) →
      h.clean after noDeadlock →
      exec (.gwyJ1939Read owner slot) s = .next (s.done owner slot after (l.length :: (l.take 5).flatMap (fun e => [e.1 % 256, e.2.1 % 2 ^ 32, e.2.1 / 2 ^ 32, e.2.2 / 1000000000 % 2 ^ 32,
          e.2.2 % 1000000000])))) ∧
  (∀ (s : State) (owner slot : Nat) (q : Slot), s.hw.runs owner slot 0x080E q →
      let h := s.hw
      let after : Hw := (h.cfg Reg.BRG_CFG 3 (q.w 0))
      (∀ chk ∈ ([only1 owner, q.reserved [3]] : List Check), chk.1 = false) →
      h.clean after noDeadlock →
      exec (.gwyEnable owner slot) s = .next (s.done owner slot after []))

/-- R274 to R296, R353, R360: what each TIME command does. Payload layouts that the spec does not give are the model's choice (log entry 22). -/
def Obligations.TimeCommandsComplete : Prop :=
  (∀ (s : State) (owner slot : Nat) (q : Slot), s.hw.runs owner slot 0x0901 q →
      let h := s.hw
      let k := owner * 32 + slot
      let b := q.w 0 % 8
      let op := bits (q.w 0) 10 8
      let o : TbOp := ⟨op, bit (q.w 0) 16, q.w 1 * 2 ^ 32 + q.w 2, q.w 3, q.w 5 * 2 ^ 32 + q.w 4, true, some k⟩
      let r := h.tbResult b o
      let after : Hw := h.onTime (fun t => { t with fwOp := kvPut t.fwOp b o })
      (∀ chk ∈ ([h.deny owner 6 b, q.reserved [0x10707, 0xFFFF, 0xFFFFFFFF, 0x3FFFFFFF, 0xFFFFFFFF, 0xFF], badAt (op = 0 || decide (5 < op)) 1] : List Check), chk.1 = false) →
      (kvGet h.tim.fwOp b).isSome = false →
      exec (.timeBaseOp owner slot) s = .next (s.on after)) ∧
  (∀ (s : State) (owner slot : Nat) (q : Slot), s.hw.runs owner slot 0x0901 q →
      let h := s.hw
      let k := owner * 32 + slot
      let b := q.w 0 % 8
      let op := bits (q.w 0) 10 8
      let o : TbOp := ⟨op, bit (q.w 0) 16, q.w 1 * 2 ^ 32 + q.w 2, q.w 3, q.w 5 * 2 ^ 32 + q.w 4, true, some k⟩
      let r := h.tbResult b o
      let after : Hw := h
      (∀ chk ∈ ([h.deny owner 6 b, q.reserved [0x10707, 0xFFFF, 0xFFFFFFFF, 0x3FFFFFFF, 0xFFFFFFFF, 0xFF], badAt (op = 0 || decide (5 < op)) 1] : List Check), chk.1 = false) →
      (kvGet h.tim.fwOp b).isSome = true →
      exec (.timeBaseOp owner slot) s = .next (s.on after)) ∧
  (∀ (s : State) (owner slot : Nat) (q : Slot), s.hw.runs owner slot 0x0902 q →
      let h := s.hw
      let b := q.w 0
      let ns := h.tbNs b
      let after : Hw := h
      (∀ chk ∈ ([h.denyRead owner 6 b, q.reserved [7]] : List Check), chk.1 = false) →
      h.clean after noDeadlock →
      exec (.timeBaseRead owner slot) s = .next (s.done owner slot after [ns / 1000000000 / 2 ^ 32, ns / 1000000000 % 2 ^ 32, ns % 1000000000, h.tbRaw b % nsUnit / 2 ^ 15, h.rn (Reg.TIME_TB_STATE b),
          h.rn (Reg.TIME_TB_ADJ_LO b), h.rn (Reg.TIME_TB_ADJ_HI b)])) ∧
  (∀ (s : State) (owner slot : Nat) (q : Slot), s.hw.runs owner slot 0x0903 q →
      let h := s.hw
      let b := q.w 0
      let after : Hw := (
          let x := (h.setFld (Reg.TIME_TB_CTRL b) Fld.TIME_TB_CTRL_SLEW_PPM (q.w 2)).wn (Reg.TIME_TB_SLEW_LIMIT b) (q.w 3)
          x.onTime (fun t => { t with alt := if bit (q.w 1) 31 then kvPut t.alt b (q.w 1 % 2 ^ 31) else kvDel t.alt b }))
      (∀ chk ∈ ([h.deny owner 6 b, q.reserved [7, 0x801F0007, 0x1FF], badAt (q.w 2 = 0 || decide (100 < q.w 2)) 8] : List Check), chk.1 = false) →
      h.clean after noDeadlock →
      exec (.timeSuperviseSet owner slot) s = .next (s.done owner slot after [])) ∧
  (∀ (s : State) (owner slot : Nat) (q : Slot), s.hw.runs owner slot 0x0904 q →
      let h := s.hw
      let d := q.w 0
      let o := q.w 2
      let after : Hw := ((h.cfg (Reg.TIME_DOM_CFG d) 0xFF800FFF (q.w 1)).onTime (fun t => { t with
          domOwner := if o = 0 then kvDel t.domOwner d else kvPut t.domOwner d o }))
      (∀ chk ∈ ([only1 owner, q.reserved [7, 0xFF800FFF, 0x1FF], (o != 0 && !h.own.active.contains o, cNoObject, o)] : List Check), chk.1 = false) →
      h.clean after noDeadlock →
      exec (.timeDomainSet owner slot) s = .next (s.done owner slot after [])) ∧
  (∀ (s : State) (owner slot : Nat) (q : Slot), s.hw.runs owner slot 0x0905 q →
      let h := s.hw
      let m := q.w 0
      let after : Hw := (h.cfg (Reg.TIME_PORT_LINK_DELAY m) 0xFFFFFFFF (q.w 1))
      (∀ chk ∈ ([h.deny owner 1 m, q.reserved [31], badAt (decide (24 ≤ m)) 0] : List Check), chk.1 = false) →
      h.clean after noDeadlock →
      exec (.timeLinkDelaySet owner slot) s = .next (s.done owner slot after [])) ∧
  (∀ (s : State) (owner slot : Nat) (q : Slot), s.hw.runs owner slot 0x0906 q →
      let h := s.hw
      let p := q.w 0
      let c := q.w 1
      let en := bit c 31
      let per := bit c 30
      let after : Hw := (h.pulseSet p [c, q.w 2, q.w 3, q.w 4, q.w 5])
      (∀ chk ∈ ([only1 owner, q.reserved [7, 0xEE000000, 0xFFFFFFFF, 0x3FFFFFFF, 0xFFFFFFFF, 0xFFFFFFFF],
          badAt (decide (1000000000 ≤ q.w 3)) 12,
          badAt (en && per && (decide (q.w 4 < 1000) || decide (4000000000 < q.w 4))) 16,
          badAt (en && (decide (q.w 5 < 8) || decide (4000000000 < q.w 5) || (per && decide (q.w 4 < q.w 5 + 8)))) 20,
          (h.flag (Reg.TIME_PULSE_CFG p) Fld.TIME_PULSE_CFG_VIE_OWNED, cState, 0)] : List Check), chk.1 = false) →
      h.clean after noDeadlock →
      exec (.timePulseSet owner slot) s = .next (s.done owner slot after [])) ∧
  (∀ (s : State) (owner slot : Nat) (q : Slot), s.hw.runs owner slot 0x0907 q →
      let h := s.hw
      let c := q.w 0
      let after : Hw := (h.cfg (Reg.TIME_CAP_CFG c) 0xFE000000 (q.w 1))
      (∀ chk ∈ ([only1 owner, q.reserved [7, 0xFE000000], badAt (bit (q.w 1) 31 && bits (q.w 1) 30 29 = 0) 7] : List Check), chk.1 = false) →
      h.clean after noDeadlock →
      exec (.timeCaptureSet owner slot) s = .next (s.done owner slot after [])) ∧
  (∀ (s : State) (owner slot : Nat) (q : Slot), s.hw.runs owner slot 0x0908 q →
      let h := s.hw
      let b := q.w 0
      let after : Hw := ((h.epochQueues b).foldl (fun a o => a.postEpoch o b) h)
      (∀ chk ∈ ([h.denyRead owner 6 b, q.reserved [7]] : List Check), chk.1 = false) →
      h.clean after noDeadlock →
      exec (.timeEpochReq owner slot) s = .next (s.done owner slot after []))

/-- R361, R364 to R375, R391, R392, R395: what each SEC command does. Payload layouts that the spec does not give are the model's choice (log entry 22). -/
def Obligations.SecCommandsComplete : Prop :=
  (∀ (s : State) (owner slot : Nat) (q : Slot), s.hw.runs owner slot 0x0A01 q →
      let h := s.hw
      let c := h.challenge
      let after : Hw := c.2.onSec (fun x => { x with chal := some c.1 })
      (h.flag Reg.SEC_STATUS Fld.SEC_STATUS_TRNG_FAIL = false) →
      (h.sec.trngDown = false) →
      h.clean after noDeadlock →
      exec (.secLifecycleRead owner slot) s = .next (s.done owner slot after (s.fuse.life :: bytesAsWords (toBe 32 c.1)))) ∧
  (∀ (s : State) (owner slot : Nat) (q : Slot), s.hw.runs owner slot 0x0A02 q →
      let h := s.hw
      let t := q.w 0
      let spent := h.onSec (fun x => { x with chal := none })
      let after (fu : Fuse) : Hw := { (spent.setFld Reg.SEC_STATUS Fld.SEC_STATUS_LIFECYCLE fu.life) with
        sys := { h.sys with resetReq := if 4 ≤ t then some h.clk else h.sys.resetReq } }
      (∀ chk ∈ ([q.reserved [7], badAt (q.w 3 != (if t = 2 then 288 else 192)) 12, (!advances s.fuse.life t, cLifecycle, s.fuse.life)] : List Check), chk.1 = false) →
      (∀ fu, s.fuse.advance t h.sec.chal q.buf = some fu → h.clean (after fu) noDeadlock) →
      exec (.secLifecycleAdvance owner slot) s = .next (match s.fuse.advance t h.sec.chal q.buf with
        | some fu =>
          let x := (s.done owner slot (after fu) []).hw
          { s with fuse := fu, hw := if t = 4 then (x.own.active.filter (· != 0)).foldl (fun b o => b.tearStart o false) x else x }
        | none => s.closed owner slot spent cAuth 0 [])) ∧
  (∀ (s : State) (owner slot : Nat) (q : Slot), s.hw.runs owner slot 0x0A03 q →
      let h := s.hw
      let o := q.w 0
      let sel := kvGetD h.own.keySel o 0
      let n := kvGetD h.sec.rot o 0 + 1
      ∀ (mo : BitVec 256),
      let after : Hw := (h.onSec (fun x => { x with rot := kvPut x.rot o n })).onOwn (fun w => { w with
              keys := kvPut w.keys (o * 2 + (1 - sel)) (basinKey mo n), keySel := kvPut w.keySel o (1 - sel),
              retiring := kvPut w.retiring o sel })
      (∀ chk ∈ ([(owner != 1 && o != owner, cDenied, o), q.reserved [0x1FF],
          (!h.own.active.contains o || (kvGet h.own.tear o).isSome || o == 0, cNoObject, o),
          ((kvGet h.own.retiring o).isSome || (h.master o).isNone, cState, o)] : List Check), chk.1 = false) →
      (h.master o = some mo) →
      h.clean after noDeadlock →
      exec (.secKeyRotate owner slot) s = .next (s.done owner slot after [])) ∧
  (∀ (s : State) (owner slot : Nat) (q : Slot), s.hw.runs owner slot 0x0A04 q →
      let h := s.hw
      let w := q.w 0
      let m := w % 32
      let after (t : List Byte) : Hw := h.onMac (fun x => { x with sa := kvPut x.sa (saOfWord w) ⟨BitVec.ofNat 256 (be (t.take 32)), be (sub t 32 12), q.w 5, q.w64 1, q.w64 3, false, false, owner⟩ })
      (∀ chk ∈ (([h.deny owner 1 m, q.reserved [0xFD1F], badAt (decide (20 ≤ m)) 0] ++ h.blobChecks s.fuse owner 1 m ++
          [badState (h.saInForce w) 1 m]) : List Check), chk.1 = false) →
      (∀ t, h.blobText s.fuse owner 6 72 q = some t → h.clean (after t) noDeadlock) →
      exec (.secMacsecSaInstall owner slot) s = .next (match h.blobText s.fuse owner 6 72 q with
        | some t => s.done owner slot (after t) []
        | none => s.closed owner slot h cAuth 0 [])) ∧
  (∀ (s : State) (owner slot : Nat) (q : Slot), s.hw.runs owner slot 0x0A05 q →
      let h := s.hw
      let w := q.w 0
      let m := w % 32
      let after : Hw := (h.onMac (fun x => { x with sa := match kvGet x.sa (saOfWord w) with
          | some sa => kvPut x.sa (saOfWord w) { sa with en := bit (q.w 1) 0 }
          | none => x.sa }))
      (∀ chk ∈ ([h.deny owner 1 m, q.reserved [0xFD1F, 1], badAt (decide (20 ≤ m)) 0, noObj (kvGet h.mac.sa (saOfWord w)).isNone 1 m] : List Check), chk.1 = false) →
      h.clean after noDeadlock →
      exec (.secMacsecSaEnable owner slot) s = .next (s.done owner slot after [])) ∧
  (∀ (s : State) (owner slot : Nat) (q : Slot), s.hw.runs owner slot 0x0A06 q →
      let h := s.hw
      let w := q.w 0
      let m := w % 32
      let after : Hw := (h.onMac (fun x => { x with sa := kvDel x.sa (saOfWord w) }))
      (∀ chk ∈ ([h.deny owner 1 m, q.reserved [0xFD1F], badAt (decide (20 ≤ m)) 0, noObj (kvGet h.mac.sa (saOfWord w)).isNone 1 m] : List Check), chk.1 = false) →
      h.clean after noDeadlock →
      exec (.secMacsecSaDelete owner slot) s = .next (s.done owner slot after [])) ∧
  (∀ (s : State) (owner slot : Nat) (q : Slot), s.hw.runs owner slot 0x0A07 q →
      let h := s.hw
      let i := q.w 0
      let after (t : List Byte) : Hw := { h with brg := { h.brg with auth := kvPut h.brg.auth i { (kvGetD h.brg.auth i
          ⟨none, owner, 0, 0, 3, true, 255, 0, false, 0, kvGetD h.sec.fresh i 0⟩ : Auth) with key := some (BitVec.ofNat 256 (be t)), by_ := owner } } }
      (∀ chk ∈ (([h.deny owner 17 i, q.reserved [4095]] ++ h.blobChecks s.fuse owner 17 i) : List Check), chk.1 = false) →
      (∀ t, h.blobText s.fuse owner 1 60 q = some t → h.clean (after t) noDeadlock) →
      exec (.secCmacKeyInstall owner slot) s = .next (match h.blobText s.fuse owner 1 60 q with
        | some t => s.done owner slot (after t) []
        | none => s.closed owner slot h cAuth 0 [])) ∧
  (∀ (s : State) (owner slot : Nat) (q : Slot), s.hw.runs owner slot 0x0A08 q →
      let h := s.hw
      let o := q.w 0
      let after : Hw := ((h.createOwner o).onSec (fun k => { k with pubs := kvPut k.pubs o ((bytesOf (q.payload.drop 1)).take 96) })).onOwn (fun w => { w with
            session := kvPut w.session o owner })
      (∀ chk ∈ ([q.reserved [0x1FF], badAt (decide (o < 258)) 0,
          (h.own.active.contains o || !h.flag Reg.SEC_STATUS Fld.SEC_STATUS_READY || h.sec.latch || h.keysBarred, cState, o)] : List Check), chk.1 = false) →
      (h.flag Reg.SEC_STATUS Fld.SEC_STATUS_TRNG_FAIL = false) →
      (h.sec.trngDown = false) →
      h.clean after noDeadlock →
      exec (.secSessionOpen owner slot) s = .next (s.done owner slot after [o])) ∧
  (∀ (s : State) (owner slot : Nat) (q : Slot), s.hw.runs owner slot 0x0A09 q →
      let h := s.hw
      let o := q.w 0
      let by_ := kvGet h.own.session o
      let after : Hw := (h.tearStart o false)
      (∀ chk ∈ ([(owner != 1 && by_.isSome && by_ != some owner, cDenied, o), q.reserved [0x1FF], (by_.isNone, cNoObject, o)] : List Check), chk.1 = false) →
      h.clean after noDeadlock →
      exec (.secSessionClose owner slot) s = .next (s.done owner slot after [])) ∧
  (∀ (s : State) (owner slot : Nat) (q : Slot), s.hw.runs owner slot 0x0A0A q →
      let h := s.hw
      let level := q.w 0 % 4
      let two := bit (q.w 0) 8
      let after : Hw := h.challenge.2.onSec (fun x => { x with dbgChal := some h.challenge.1 })
      (∀ chk ∈ ([q.reserved [0x103], badAt (decide (level < 2)) 0, badAt (two && q.w 3 != 192) 12,
          (decide (debugMax s.fuse.life < level), cLifecycle, s.fuse.life)] : List Check), chk.1 = false) →
      (two = false) →
      (h.flag Reg.SEC_STATUS Fld.SEC_STATUS_TRNG_FAIL = false) →
      (h.sec.trngDown = false) →
      h.clean after noDeadlock → exec (.secDebugUnlock owner slot) s = .next (s.done owner slot after (bytesAsWords (toBe 32 h.challenge.1)))) ∧
  (∀ (s : State) (owner slot : Nat) (q : Slot), s.hw.runs owner slot 0x0A0A q →
      let h := s.hw
      let level := q.w 0 % 4
      let two := bit (q.w 0) 8
      let after : Hw := h
      (∀ chk ∈ ([q.reserved [0x103], badAt (decide (level < 2)) 0, badAt (two && q.w 3 != 192) 12,
          (decide (debugMax s.fuse.life < level), cLifecycle, s.fuse.life)] : List Check), chk.1 = false) →
      (two = true) →
      (s.fuse.debugProof level h.sec.dbgChal (sub q.buf 0 96) (sub q.buf 96 96) = true) →
      h.clean after noDeadlock → exec (.secDebugUnlock owner slot) s = .next (s.on ((s.done owner slot after []).hw.debugGrant level))) ∧
  (∀ (s : State) (owner slot : Nat) (q : Slot), s.hw.runs owner slot 0x0A0B q →
      let h := s.hw
      let after : Hw := h
      h.clean after noDeadlock →
      exec (.secTamperStatus owner slot) s = .next (s.done owner slot after [h.rn Reg.SEC_TAMPER_CFG, h.rn Reg.SEC_TAMPER_LOG, h.rn Reg.SEC_STATUS])) ∧
  (∀ (s : State) (owner slot : Nat) (q : Slot), s.hw.runs owner slot 0x0A0C q →
      let h := s.hw
      let after : Hw := (
          let x := h.cfg Reg.SEC_TAMPER_CFG 0x31F (q.w 0)
          if bit (q.w 1) 0 then x.clr Reg.SEC_TAMPER_LOG else x)
      (∀ chk ∈ ([q.reserved [0x31F, 1]] : List Check), chk.1 = false) →
      h.clean after noDeadlock →
      exec (.secTamperSet owner slot) s = .next (s.done owner slot after []))
end

