-- ==== Sys2Proof/Laws/Exec.lean ====
section
/-!
SUPPORT. Which meaning each command runs: one lemma per constructor, so that no proof unfolds the dispatch.
-/
namespace Sys2Proof.Machine

theorem exec_registerWrite (fn off en val : Nat) (s : State) : exec (.registerWrite fn off en val) s = execRegisterWrite fn off en val s := rfl
theorem exec_w1cWrite (fn off en val hwSet : Nat) (s : State) : exec (.w1cWrite fn off en val hwSet) s = execW1cWrite fn off en val hwSet s := rfl
theorem exec_rcCounterRead (fn off en incr : Nat) (s : State) : exec (.rcCounterRead fn off en incr) s = execRcCounterRead fn off en incr s := rfl
theorem exec_mmqPeakRead (fn off en : Nat) (s : State) : exec (.mmqPeakRead fn off en) s = execMmqPeakRead fn off en s := rfl
theorem exec_octetsLoRead (fn off en : Nat) (s : State) : exec (.octetsLoRead fn off en) s = execOctetsLoRead fn off en s := rfl
theorem exec_basinReady (s : State) : exec (.basinReady) s = execBasinReady s := rfl
theorem exec_fwdReady (s : State) : exec (.fwdReady) s = execFwdReady s := rfl
theorem exec_tssReady (s : State) : exec (.tssReady) s = execTssReady s := rfl
theorem exec_vieReady (s : State) : exec (.vieReady) s = execVieReady s := rfl
theorem exec_canGroupReady (g : Nat) (s : State) : exec (.canGroupReady g) s = execCanGroupReady g s := rfl
theorem exec_brgReady (s : State) : exec (.brgReady) s = execBrgReady s := rfl
theorem exec_timeReady (s : State) : exec (.timeReady) s = execTimeReady s := rfl
theorem exec_sqReady (q : Nat) (s : State) : exec (.sqReady q) s = execSqReady q s := rfl
theorem exec_macReady (mac : Nat) (s : State) : exec (.macReady mac) s = execMacReady mac s := rfl
theorem exec_hdmaReady (s : State) : exec (.hdmaReady) s = execHdmaReady s := rfl
theorem exec_sbbReady (s : State) : exec (.sbbReady) s = execSbbReady s := rfl
theorem exec_evfReady (s : State) : exec (.evfReady) s = execEvfReady s := rfl
theorem exec_frameFirstCell (port : Nat) (head : List Byte) (age owner ecc : Nat) (s : State) : exec (.frameFirstCell port head age owner ecc) s = execFrameFirstCell port head age owner ecc s := rfl
theorem exec_frameLookupStart (port : Nat) (s : State) : exec (.frameLookupStart port) s = execFrameLookupStart port s := rfl
theorem exec_frameLookupDone (port : Nat) (ecc : List (Nat × Nat × Bool)) (s : State) : exec (.frameLookupDone port ecc) s = execFrameLookupDone port ecc s := rfl
theorem exec_frameTail (port : Nat) (rest : List Byte) (symErr : Option Nat) (ecc : Nat) (s : State) : exec (.frameTail port rest symErr ecc) s = execFrameTail port rest symErr ecc s := rfl
theorem exec_arbiterIteration (s : State) : exec (.arbiterIteration) s = execArbiterIteration s := rfl
theorem exec_egressTxStart (e : Nat) (s : State) : exec (.egressTxStart e) s = execEgressTxStart e s := rfl
theorem exec_egressFrameEnd (e ecc : Nat) (s : State) : exec (.egressFrameEnd e ecc) s = execEgressFrameEnd e ecc s := rfl
theorem exec_pauseRepeat (pc : Nat) (s : State) : exec (.pauseRepeat pc) s = execPauseRepeat pc s := rfl
theorem exec_internalSourceStart (port : Nat) (s : State) : exec (.internalSourceStart port) s = execInternalSourceStart port s := rfl
theorem exec_sojournAgeout (frame : Nat) (s : State) : exec (.sojournAgeout frame) s = execSojournAgeout frame s := rfl
theorem exec_moderatedRecordFlush (kind w3 : Nat) (s : State) : exec (.moderatedRecordFlush kind w3) s = execModeratedRecordFlush kind w3 s := rfl
theorem exec_auditPassStart (s : State) : exec (.auditPassStart) s = execAuditPassStart s := rfl
theorem exec_auditPassEnd (leaks : List Nat) (doubles : List Nat × List Nat) (s : State) : exec (.auditPassEnd leaks doubles) s = execAuditPassEnd leaks doubles s := rfl
theorem exec_learnAccept (s : State) : exec (.learnAccept) s = execLearnAccept s := rfl
theorem exec_refreshAccept (s : State) : exec (.refreshAccept) s = execRefreshAccept s := rfl
theorem exec_ageTick (s : State) : exec (.ageTick) s = execAgeTick s := rfl
theorem exec_learnMessageReceive (pipeB : Bool) (s : State) : exec (.learnMessageReceive pipeB) s = execLearnMessageReceive pipeB s := rfl
theorem exec_moveWindowClose (key : Nat) (s : State) : exec (.moveWindowClose key) s = execMoveWindowClose key s := rfl
theorem exec_cascadeLearnSend (s : State) : exec (.cascadeLearnSend) s = execCascadeLearnSend s := rfl
theorem exec_cascadeLearnReceive (s : State) : exec (.cascadeLearnReceive) s = execCascadeLearnReceive s := rfl
theorem exec_cascadeWithdraw (port : Nat) (s : State) : exec (.cascadeWithdraw port) s = execCascadeWithdraw port s := rfl
theorem exec_portFlushOnDown (port : Nat) (s : State) : exec (.portFlushOnDown port) s = execPortFlushOnDown port s := rfl
theorem exec_tableUeRepair (authFail : Bool) (s : State) : exec (.tableUeRepair authFail) s = execTableUeRepair authFail s := rfl
theorem exec_scrubPass (mism : List (Nat × Nat × Bool)) (auth : List Nat) (s : State) : exec (.scrubPass mism auth) s = execScrubPass mism auth s := rfl
theorem exec_scrubRecheck (table index : Nat) (pipeB still authFail : Bool) (s : State) : exec (.scrubRecheck table index pipeB still authFail) s = execScrubRecheck table index pipeB still authFail s := rfl
theorem exec_scrubDefer (table index : Nat) (pipeB : Bool) (s : State) : exec (.scrubDefer table index pipeB) s = execScrubDefer table index pipeB s := rfl
theorem exec_pfcFrameReceive (mac enable : Nat) (quanta : List Nat) (s : State) : exec (.pfcFrameReceive mac enable quanta) s = execPfcFrameReceive mac enable quanta s := rfl
theorem exec_pfcPauseExpire (mac cls : Nat) (s : State) : exec (.pfcPauseExpire mac cls) s = execPfcPauseExpire mac cls s := rfl
theorem exec_gclEntryAdvance (mac : Nat) (s : State) : exec (.gclEntryAdvance mac) s = execGclEntryAdvance mac s := rfl
theorem exec_gclSwitch (mac : Nat) (s : State) : exec (.gclSwitch mac) s = execGclSwitch mac s := rfl
theorem exec_gclRestart (mac : Nat) (s : State) : exec (.gclRestart mac) s = execGclRestart mac s := rfl
theorem exec_preemptVerifyDone (mac : Nat) (s : State) : exec (.preemptVerifyDone mac) s = execPreemptVerifyDone mac s := rfl
theorem exec_noticeExpire (mac : Nat) (s : State) : exec (.noticeExpire mac) s = execNoticeExpire mac s := rfl
theorem exec_sluiceGateAdvance (gate : Nat) (s : State) : exec (.sluiceGateAdvance gate) s = execSluiceGateAdvance gate s := rfl
theorem exec_frerRecoveryReset (pair : Nat) (s : State) : exec (.frerRecoveryReset pair) s = execFrerRecoveryReset pair s := rfl
theorem exec_frerLatentCheck (pair : Nat) (s : State) : exec (.frerLatentCheck pair) s = execFrerLatentCheck pair s := rfl
theorem exec_qsamplerSweep (list : Nat) (descs : List (List Nat)) (s : State) : exec (.qsamplerSweep list descs) s = execQsamplerSweep list descs s := rfl
theorem exec_viePacketObserve (behind : Bool × Nat) (s : State) : exec (.viePacketObserve behind) s = execViePacketObserve behind s := rfl
theorem exec_vieVerdict (stream : Nat) (s : State) : exec (.vieVerdict stream) s = execVieVerdict stream s := rfl
theorem exec_vieMissingExpire (stream : Nat) (s : State) : exec (.vieMissingExpire stream) s = execVieMissingExpire stream s := rfl
theorem exec_vieNoticeTask (s : State) : exec (.vieNoticeTask) s = execVieNoticeTask s := rfl
theorem exec_vieFallbackTask (s : State) : exec (.vieFallbackTask) s = execVieFallbackTask s := rfl
theorem exec_vieFrerTask (s : State) : exec (.vieFrerTask) s = execVieFrerTask s := rfl
theorem exec_vieHostTask (s : State) : exec (.vieHostTask) s = execVieHostTask s := rfl
theorem exec_vieHeartbeat (stream : Nat) (s : State) : exec (.vieHeartbeat stream) s = execVieHeartbeat stream s := rfl
theorem exec_rsvTriggerTask (k : Nat) (s : State) : exec (.rsvTriggerTask k) s = execRsvTriggerTask k s := rfl
theorem exec_rsvPostExpire (ring : Nat) (s : State) : exec (.rsvPostExpire ring) s = execRsvPostExpire ring s := rfl
theorem exec_lineLoss (mac : Nat) (rest : List Byte) (s : State) : exec (.lineLoss mac rest) s = execLineLoss mac rest s := rfl
theorem exec_linkDown (mac : Nat) (s : State) : exec (.linkDown mac) s = execLinkDown mac s := rfl
theorem exec_linkUp (mac rate : Nat) (s : State) : exec (.linkUp mac rate) s = execLinkUp mac rate s := rfl
theorem exec_sqPllUnlock (quad pll : Nat) (s : State) : exec (.sqPllUnlock quad pll) s = execSqPllUnlock quad pll s := rfl
theorem exec_plcaOpportunity (mac : Nat × Bool) (s : State) : exec (.plcaOpportunity mac) s = execPlcaOpportunity mac s := rfl
theorem exec_plcaBeaconLoss (mac : Nat) (s : State) : exec (.plcaBeaconLoss mac) s = execPlcaBeaconLoss mac s := rfl
theorem exec_plcaBeaconHeard (mac : Nat) (s : State) : exec (.plcaBeaconHeard mac) s = execPlcaBeaconHeard mac s := rfl
theorem exec_t1sCollision (mac : Nat) (s : State) : exec (.t1sCollision mac) s = execT1sCollision mac s := rfl
theorem exec_t1sBackoffExpire (mac : Nat) (s : State) : exec (.t1sBackoffExpire mac) s = execT1sBackoffExpire mac s := rfl
theorem exec_eeeLpiEnter (mac : Nat) (s : State) : exec (.eeeLpiEnter mac) s = execEeeLpiEnter mac s := rfl
theorem exec_eeeLpiExit (mac : Nat) (s : State) : exec (.eeeLpiExit mac) s = execEeeLpiExit mac s := rfl
theorem exec_eeeWakeDone (mac : Nat) (s : State) : exec (.eeeWakeDone mac) s = execEeeWakeDone mac s := rfl
theorem exec_partnerLpiChange (mac : Nat) (on : Bool) (s : State) : exec (.partnerLpiChange mac on) s = execPartnerLpiChange mac on s := rfl
theorem exec_ethWakeDetect (mac : Nat) (bytes : Bool × List Byte) (s : State) : exec (.ethWakeDetect mac bytes) s = execEthWakeDetect mac bytes s := rfl
theorem exec_canIntegrate (ctl : Nat) (s : State) : exec (.canIntegrate ctl) s = execCanIntegrate ctl s := rfl
theorem exec_canFrameReceive (ctl fmt w0 w1 w2 : Nat) (data : List Byte) (age : Nat) (s : State) : exec (.canFrameReceive ctl fmt w0 w1 w2 data age) s = execCanFrameReceive ctl fmt w0 w1 w2 data age s := rfl
theorem exec_canRxqPop (ctl q : Nat) (next : Bool × Bool) (s : State) : exec (.canRxqPop ctl q next) s = execCanRxqPop ctl q next s := rfl
theorem exec_canError (ctl type : Nat) (tx severe : Bool) (age : Nat × Option Nat) (s : State) : exec (.canError ctl type tx severe age) s = execCanError ctl type tx severe age s := rfl
theorem exec_canBusRecover (ctl : Nat) (s : State) : exec (.canBusRecover ctl) s = execCanBusRecover ctl s := rfl
theorem exec_canTxRequest (ctl : Nat) (rec : List Nat) (s : State) : exec (.canTxRequest ctl rec) s = execCanTxRequest ctl rec s := rfl
theorem exec_canBusIdleOffer (ctl : Nat) (s : State) : exec (.canBusIdleOffer ctl) s = execCanBusIdleOffer ctl s := rfl
theorem exec_canTxArbLost (ctl : Nat) (s : State) : exec (.canTxArbLost ctl) s = execCanTxArbLost ctl s := rfl
theorem exec_canTxComplete (ctl age tdcv : Nat) (s : State) : exec (.canTxComplete ctl age tdcv) s = execCanTxComplete ctl age tdcv s := rfl
theorem exec_canModeApply (ctl : Nat) (s : State) : exec (.canModeApply ctl) s = execCanModeApply ctl s := rfl
theorem exec_canFilterApply (ctl : Nat) (s : State) : exec (.canFilterApply ctl) s = execCanFilterApply ctl s := rfl
theorem exec_canSchedCycleStart (ctl : Nat) (s : State) : exec (.canSchedCycleStart ctl) s = execCanSchedCycleStart ctl s := rfl
theorem exec_canSchedSlotStart (ctl slot : Nat) (s : State) : exec (.canSchedSlotStart ctl slot) s = execCanSchedSlotStart ctl slot s := rfl
theorem exec_canSchedWindowEnd (ctl slot : Nat) (s : State) : exec (.canSchedWindowEnd ctl slot) s = execCanSchedWindowEnd ctl slot s := rfl
theorem exec_canSchedRestart (ctl : Nat) (s : State) : exec (.canSchedRestart ctl) s = execCanSchedRestart ctl s := rfl
theorem exec_canwMatch (w ident : Nat) (ide : Bool) (dlc : Nat) (data : List Byte) (s : State) : exec (.canwMatch w ident ide dlc data) s = execCanwMatch w ident ide dlc data s := rfl
theorem exec_canwDecodeError (w : Nat) (fd : Bool) (s : State) : exec (.canwDecodeError w fd) s = execCanwDecodeError w fd s := rfl
theorem exec_linSchedEntry (l : Nat) (s : State) : exec (.linSchedEntry l) s = execLinSchedEntry l s := rfl
theorem exec_linHeaderReceive (l pid : Nat) (syncOk stopOk : Bool) (s : State) : exec (.linHeaderReceive l pid syncOk stopOk) s = execLinHeaderReceive l pid syncOk stopOk s := rfl
theorem exec_linResponseReceive (l : Nat) (data : List Byte) (csum : Nat) (framing bitErr : Bool) (s : State) : exec (.linResponseReceive l data csum framing bitErr) s = execLinResponseReceive l data csum framing bitErr s := rfl
theorem exec_linResponseTimeout (l got : Nat) (s : State) : exec (.linResponseTimeout l got) s = execLinResponseTimeout l got s := rfl
theorem exec_linBusIdle (l : Nat) (s : State) : exec (.linBusIdle l) s = execLinBusIdle l s := rfl
theorem exec_linWakeDetect (l : Nat) (s : State) : exec (.linWakeDetect l) s = execLinWakeDetect l s := rfl
theorem exec_linWakeSignalEnd (l : Nat) (s : State) : exec (.linWakeSignalEnd l) s = execLinWakeSignalEnd l s := rfl
theorem exec_rillDmaMove (f : Nat) (descs : List (List Nat)) (s : State) : exec (.rillDmaMove f descs) s = execRillDmaMove f descs s := rfl
theorem exec_rillWinPop (fn off en : Nat) (s : State) : exec (.rillWinPop fn off en) s = execRillWinPop fn off en s := rfl
theorem exec_rillPointerMismatch (f : Nat) (descs : List (List Nat)) (s : State) : exec (.rillPointerMismatch f descs) s = execRillPointerMismatch f descs s := rfl
theorem exec_bridgeDispatchSlot (s : State) : exec (.bridgeDispatchSlot) s = execBridgeDispatchSlot s := rfl
theorem exec_j1939TpTimeout (src sa da : Nat) (s : State) : exec (.j1939TpTimeout src sa da) s = execJ1939TpTimeout src sa da s := rfl
theorem exec_signalMappingApply (s : State) : exec (.signalMappingApply) s = execSignalMappingApply s := rfl
theorem exec_signalPeriodicIssue (buf : Nat) (s : State) : exec (.signalPeriodicIssue buf) s = execSignalPeriodicIssue buf s := rfl
theorem exec_signalTimeout (map : Nat) (s : State) : exec (.signalTimeout map) s = execSignalTimeout map s := rfl
theorem exec_acfBatchTimeout (t : Nat) (s : State) : exec (.acfBatchTimeout t) s = execAcfBatchTimeout t s := rfl
theorem exec_acfInboundFrame (s : State) : exec (.acfInboundFrame) s = execAcfInboundFrame s := rfl
theorem exec_timeTbSet (fn b : Nat) (neg : Bool) (s : State) : exec (.timeTbSet fn b neg) s = execTimeTbSet fn b neg s := rfl
theorem exec_timeTbStep (fn b : Nat) (neg : Bool) (s : State) : exec (.timeTbStep fn b neg) s = execTimeTbStep fn b neg s := rfl
theorem exec_timeTbAdj (fn b : Nat) (neg : Bool) (s : State) : exec (.timeTbAdj fn b neg) s = execTimeTbAdj fn b neg s := rfl
theorem exec_timeTbLock (fn b : Nat) (neg : Bool) (s : State) : exec (.timeTbLock fn b neg) s = execTimeTbLock fn b neg s := rfl
theorem exec_timeTbUnlock (fn b : Nat) (neg : Bool) (s : State) : exec (.timeTbUnlock fn b neg) s = execTimeTbUnlock fn b neg s := rfl
theorem exec_timeTbCommit (b : Nat) (s : State) : exec (.timeTbCommit b) s = execTimeTbCommit b s := rfl
theorem exec_timeTbNsRead (fn off en : Nat) (s : State) : exec (.timeTbNsRead fn off en) s = execTimeTbNsRead fn off en s := rfl
theorem exec_txtsW3Read (fn off en : Nat) (s : State) : exec (.txtsW3Read fn off en) s = execTxtsW3Read fn off en s := rfl
theorem exec_capNsRead (fn off en : Nat) (s : State) : exec (.capNsRead fn off en) s = execCapNsRead fn off en s := rfl
theorem exec_epochSecond (b : Nat) (s : State) : exec (.epochSecond b) s = execEpochSecond b s := rfl
theorem exec_pulseEdge (p : Nat) (s : State) : exec (.pulseEdge p) s = execPulseEdge p s := rfl
theorem exec_captureEdge (c : Nat) (rising : Bool) (s : State) : exec (.captureEdge c rising) s = execCaptureEdge c rising s := rfl
theorem exec_supervisorSample (b : Nat) (s : State) : exec (.supervisorSample b) s = execSupervisorSample b s := rfl
theorem exec_sourceLossHoldover (b : Nat) (s : State) : exec (.sourceLossHoldover b) s = execSourceLossHoldover b s := rfl
theorem exec_slewUpdate (b : Nat) (primary alternate : Bool) (offset fs : Int) (s : State) : exec (.slewUpdate b primary alternate offset fs) s = execSlewUpdate b primary alternate offset fs s := rfl
theorem exec_timeRelock (b : Nat) (s : State) : exec (.timeRelock b) s = execTimeRelock b s := rfl
theorem exec_pcieLinkUp (s : State) : exec (.pcieLinkUp) s = execPcieLinkUp s := rfl
theorem exec_pcieLinkDown (s : State) : exec (.pcieLinkDown) s = execPcieLinkDown s := rfl
theorem exec_pcieHotReset (s : State) : exec (.pcieHotReset) s = execPcieHotReset s := rfl
theorem exec_perstDeassert (s : State) : exec (.perstDeassert) s = execPerstDeassert s := rfl
theorem exec_vfEnable (n : Nat) (s : State) : exec (.vfEnable n) s = execVfEnable n s := rfl
theorem exec_vfDisable (s : State) : exec (.vfDisable) s = execVfDisable s := rfl
theorem exec_flrVf (vf : Nat) (s : State) : exec (.flrVf vf) s = execFlrVf vf s := rfl
theorem exec_flrPf (s : State) : exec (.flrPf) s = execFlrPf s := rfl
theorem exec_busMasterChange (fn mrrs tags : Nat) (on relaxed ari : Bool) (s : State) : exec (.busMasterChange fn mrrs tags on relaxed ari) s = execBusMasterChange fn mrrs tags on relaxed ari s := rfl
theorem exec_msixUnmask (fn vec : Nat) (s : State) : exec (.msixUnmask fn vec) s = execMsixUnmask fn vec s := rfl
theorem exec_txqTailWrite (fn off en val : Nat) (s : State) : exec (.txqTailWrite fn off en val) s = execTxqTailWrite fn off en val s := rfl
theorem exec_rxqTailWrite (fn off en val : Nat) (s : State) : exec (.rxqTailWrite fn off en val) s = execRxqTailWrite fn off en val s := rfl
theorem exec_txEnSet (fn off en val : Nat) (s : State) : exec (.txEnSet fn off en val) s = execTxEnSet fn off en val s := rfl
theorem exec_txEnClear (fn off en val : Nat) (s : State) : exec (.txEnClear fn off en val) s = execTxEnClear fn off en val s := rfl
theorem exec_rxEnSet (fn off en val : Nat) (s : State) : exec (.rxEnSet fn off en val) s = execRxEnSet fn off en val s := rfl
theorem exec_rxEnClear (fn off en val : Nat) (s : State) : exec (.rxEnClear fn off en val) s = execRxEnClear fn off en val s := rfl
theorem exec_ringStopDone (ring : Nat) (descs : List (List Nat)) (s : State) : exec (.ringStopDone ring descs) s = execRingStopDone ring descs s := rfl
theorem exec_txDescriptorFetch (ring : Nat) (descs : List (List Nat)) (s : State) : exec (.txDescriptorFetch ring descs) s = execTxDescriptorFetch ring descs s := rfl
theorem exec_txDataReadDone (ring : Nat) (data : List Byte) (s : State) : exec (.txDataReadDone ring data) s = execTxDataReadDone ring data s := rfl
theorem exec_hostReadError (ring : Nat) (rx : Bool) (s : State) : exec (.hostReadError ring rx) s = execHostReadError ring rx s := rfl
theorem exec_readRequestIssue (s : State) : exec (.readRequestIssue) s = execReadRequestIssue s := rfl
theorem exec_p24FrameArrive (descs : List (List Nat)) (s : State) : exec (.p24FrameArrive descs) s = execP24FrameArrive descs s := rfl
theorem exec_rxFrameWrite (ring : Nat) (descs : List (List Nat)) (s : State) : exec (.rxFrameWrite ring descs) s = execRxFrameWrite ring descs s := rfl
theorem exec_holdTimerExpire (ring : Nat) (s : State) : exec (.holdTimerExpire ring) s = execHoldTimerExpire ring s := rfl
theorem exec_coalesceTimer (ring : Nat) (tx : Bool) (s : State) : exec (.coalesceTimer ring tx) s = execCoalesceTimer ring tx s := rfl
theorem exec_spoutRecordWrite (s : State) : exec (.spoutRecordWrite) s = execSpoutRecordWrite s := rfl
theorem exec_evqEnSet (fn off en val : Nat) (s : State) : exec (.evqEnSet fn off en val) s = execEvqEnSet fn off en val s := rfl
theorem exec_evqConsWrite (fn off en val : Nat) (s : State) : exec (.evqConsWrite fn off en val) s = execEvqConsWrite fn off en val s := rfl
theorem exec_evqModTimer (owner : Nat) (s : State) : exec (.evqModTimer owner) s = execEvqModTimer owner s := rfl
theorem exec_evqServiceLate (owner : Nat) (s : State) : exec (.evqServiceLate owner) s = execEvqServiceLate owner s := rfl
theorem exec_mbxRingRead (fn off en : Nat) (s : State) : exec (.mbxRingRead fn off en) s = execMbxRingRead fn off en s := rfl
theorem exec_mbxAbortWrite (fn off en val : Nat) (s : State) : exec (.mbxAbortWrite fn off en val) s = execMbxAbortWrite fn off en val s := rfl
theorem exec_mbxSlotWrite (fn off en val : Nat) (dev : Option Nat) (s : State) : exec (.mbxSlotWrite fn off en val dev) s = execMbxSlotWrite fn off en val dev s := rfl
theorem exec_fwTakeCommand (buf : Option (List Byte)) (ecc : Bool) (s : State) : exec (.fwTakeCommand buf ecc) s = execFwTakeCommand buf ecc s := rfl
theorem exec_fwRestart (s : State) : exec (.fwRestart) s = execFwRestart s := rfl
theorem exec_sysHello (owner slot : Nat) (s : State) : exec (.sysHello owner slot) s = execSysHello owner slot s := rfl
theorem exec_sysInfo (owner slot : Nat) (s : State) : exec (.sysInfo owner slot) s = execSysInfo owner slot s := rfl
theorem exec_sysBootReport (owner slot : Nat) (s : State) : exec (.sysBootReport owner slot) s = execSysBootReport owner slot s := rfl
theorem exec_sysFlashErase (owner slot : Nat) (s : State) : exec (.sysFlashErase owner slot) s = execSysFlashErase owner slot s := rfl
theorem exec_sysFlashWrite (owner slot : Nat) (s : State) : exec (.sysFlashWrite owner slot) s = execSysFlashWrite owner slot s := rfl
theorem exec_sysReset (owner slot : Nat) (s : State) : exec (.sysReset owner slot) s = execSysReset owner slot s := rfl
theorem exec_sysEarlyRead (owner slot : Nat) (s : State) : exec (.sysEarlyRead owner slot) s = execSysEarlyRead owner slot s := rfl
theorem exec_sysEarlyWrite (owner slot : Nat) (copy : ImageCopy) (s : State) : exec (.sysEarlyWrite owner slot copy) s = execSysEarlyWrite owner slot copy s := rfl
theorem exec_sysEvfRoute (owner slot : Nat) (s : State) : exec (.sysEvfRoute owner slot) s = execSysEvfRoute owner slot s := rfl
theorem exec_sysCascadeForm (owner slot : Nat) (auth : Bool) (s : State) : exec (.sysCascadeForm owner slot auth) s = execSysCascadeForm owner slot auth s := rfl
theorem exec_sysCascadeResync (owner slot : Nat) (s : State) : exec (.sysCascadeResync owner slot) s = execSysCascadeResync owner slot s := rfl
theorem exec_sysCascadeStatus (owner slot : Nat) (s : State) : exec (.sysCascadeStatus owner slot) s = execSysCascadeStatus owner slot s := rfl
theorem exec_ownCreate (owner slot : Nat) (s : State) : exec (.ownCreate owner slot) s = execOwnCreate owner slot s := rfl
theorem exec_ownTeardown (owner slot : Nat) (s : State) : exec (.ownTeardown owner slot) s = execOwnTeardown owner slot s := rfl
theorem exec_teardownDrainEnd (owner : Nat) (s : State) : exec (.teardownDrainEnd owner) s = execTeardownDrainEnd owner s := rfl
theorem exec_ownerNumberFree (owner : Nat) (s : State) : exec (.ownerNumberFree owner) s = execOwnerNumberFree owner s := rfl
theorem exec_ownGrant (owner slot : Nat) (s : State) : exec (.ownGrant owner slot) s = execOwnGrant owner slot s := rfl
theorem exec_ownRevoke (owner slot : Nat) (s : State) : exec (.ownRevoke owner slot) s = execOwnRevoke owner slot s := rfl
theorem exec_ownPolicyRead (owner slot : Nat) (s : State) : exec (.ownPolicyRead owner slot) s = execOwnPolicyRead owner slot s := rfl
theorem exec_ownSetLimits (owner slot : Nat) (s : State) : exec (.ownSetLimits owner slot) s = execOwnSetLimits owner slot s := rfl
theorem exec_ownList (owner slot : Nat) (s : State) : exec (.ownList owner slot) s = execOwnList owner slot s := rfl
theorem exec_portSet (owner slot : Nat) (s : State) : exec (.portSet owner slot) s = execPortSet owner slot s := rfl
theorem exec_portGet (owner slot : Nat) (s : State) : exec (.portGet owner slot) s = execPortGet owner slot s := rfl
theorem exec_portQuadSet (owner slot : Nat) (s : State) : exec (.portQuadSet owner slot) s = execPortQuadSet owner slot s := rfl
theorem exec_portEqSet (owner slot : Nat) (s : State) : exec (.portEqSet owner slot) s = execPortEqSet owner slot s := rfl
theorem exec_portSteerSet (owner slot : Nat) (s : State) : exec (.portSteerSet owner slot) s = execPortSteerSet owner slot s := rfl
theorem exec_portEeeSet (owner slot : Nat) (s : State) : exec (.portEeeSet owner slot) s = execPortEeeSet owner slot s := rfl
theorem exec_portPlcaSet (owner slot : Nat) (s : State) : exec (.portPlcaSet owner slot) s = execPortPlcaSet owner slot s := rfl
theorem exec_portWakeSet (owner slot : Nat) (s : State) : exec (.portWakeSet owner slot) s = execPortWakeSet owner slot s := rfl
theorem exec_portMacsecSet (owner slot : Nat) (s : State) : exec (.portMacsecSet owner slot) s = execPortMacsecSet owner slot s := rfl
theorem exec_portSleep (owner slot : Nat) (s : State) : exec (.portSleep owner slot) s = execPortSleep owner slot s := rfl
theorem exec_fwdEmAdd (owner slot : Nat) (s : State) : exec (.fwdEmAdd owner slot) s = execFwdEmAdd owner slot s := rfl
theorem exec_fwdEmDel (owner slot : Nat) (s : State) : exec (.fwdEmDel owner slot) s = execFwdEmDel owner slot s := rfl
theorem exec_fwdEmAddBulk (owner slot : Nat) (s : State) : exec (.fwdEmAddBulk owner slot) s = execFwdEmAddBulk owner slot s := rfl
theorem exec_fwdEmRead (owner slot : Nat) (s : State) : exec (.fwdEmRead owner slot) s = execFwdEmRead owner slot s := rfl
theorem exec_fwdFlush (owner slot : Nat) (s : State) : exec (.fwdFlush owner slot) s = execFwdFlush owner slot s := rfl
theorem exec_fwdLpmAdd (owner slot : Nat) (s : State) : exec (.fwdLpmAdd owner slot) s = execFwdLpmAdd owner slot s := rfl
theorem exec_fwdLpmDel (owner slot : Nat) (s : State) : exec (.fwdLpmDel owner slot) s = execFwdLpmDel owner slot s := rfl
theorem exec_fwdAclWrite (owner slot : Nat) (s : State) : exec (.fwdAclWrite owner slot) s = execFwdAclWrite owner slot s := rfl
theorem exec_fwdAclDel (owner slot : Nat) (s : State) : exec (.fwdAclDel owner slot) s = execFwdAclDel owner slot s := rfl
theorem exec_fwdVlanSet (owner slot : Nat) (s : State) : exec (.fwdVlanSet owner slot) s = execFwdVlanSet owner slot s := rfl
theorem exec_fwdMcastSet (owner slot : Nat) (s : State) : exec (.fwdMcastSet owner slot) s = execFwdMcastSet owner slot s := rfl
theorem exec_fwdNhopSet (owner slot : Nat) (s : State) : exec (.fwdNhopSet owner slot) s = execFwdNhopSet owner slot s := rfl
theorem exec_fwdAgeSet (owner slot : Nat) (s : State) : exec (.fwdAgeSet owner slot) s = execFwdAgeSet owner slot s := rfl
theorem exec_fwdLearnSet (owner slot : Nat) (s : State) : exec (.fwdLearnSet owner slot) s = execFwdLearnSet owner slot s := rfl
theorem exec_fwdCfgSet (owner slot : Nat) (s : State) : exec (.fwdCfgSet owner slot) s = execFwdCfgSet owner slot s := rfl
theorem exec_fwdSamplerSet (owner slot : Nat) (s : State) : exec (.fwdSamplerSet owner slot) s = execFwdSamplerSet owner slot s := rfl
theorem exec_fwdCascadePath (owner slot : Nat) (s : State) : exec (.fwdCascadePath owner slot) s = execFwdCascadePath owner slot s := rfl
theorem exec_qosClassSet (owner slot : Nat) (s : State) : exec (.qosClassSet owner slot) s = execQosClassSet owner slot s := rfl
theorem exec_qosGclLoad (owner slot : Nat) (s : State) : exec (.qosGclLoad owner slot) s = execQosGclLoad owner slot s := rfl
theorem exec_qosCbsSet (owner slot : Nat) (s : State) : exec (.qosCbsSet owner slot) s = execQosCbsSet owner slot s := rfl
theorem exec_qosPreemptSet (owner slot : Nat) (s : State) : exec (.qosPreemptSet owner slot) s = execQosPreemptSet owner slot s := rfl
theorem exec_qosWeirSet (owner slot : Nat) (s : State) : exec (.qosWeirSet owner slot) s = execQosWeirSet owner slot s := rfl
theorem exec_qosSluiceFilterSet (owner slot : Nat) (s : State) : exec (.qosSluiceFilterSet owner slot) s = execQosSluiceFilterSet owner slot s := rfl
theorem exec_qosSluiceGateLoad (owner slot : Nat) (s : State) : exec (.qosSluiceGateLoad owner slot) s = execQosSluiceGateLoad owner slot s := rfl
theorem exec_qosSluiceUnblock (owner slot : Nat) (s : State) : exec (.qosSluiceUnblock owner slot) s = execQosSluiceUnblock owner slot s := rfl
theorem exec_qosFrerSet (owner slot : Nat) (s : State) : exec (.qosFrerSet owner slot) s = execQosFrerSet owner slot s := rfl
theorem exec_qosStreamAdmit (owner slot : Nat) (s : State) : exec (.qosStreamAdmit owner slot) s = execQosStreamAdmit owner slot s := rfl
theorem exec_qosStreamWithdraw (owner slot : Nat) (s : State) : exec (.qosStreamWithdraw owner slot) s = execQosStreamWithdraw owner slot s := rfl
theorem exec_qosBoundRead (owner slot : Nat) (s : State) : exec (.qosBoundRead owner slot) s = execQosBoundRead owner slot s := rfl
theorem exec_qosVoqSet (owner slot : Nat) (s : State) : exec (.qosVoqSet owner slot) s = execQosVoqSet owner slot s := rfl
theorem exec_qosQuotaSet (owner slot : Nat) (s : State) : exec (.qosQuotaSet owner slot) s = execQosQuotaSet owner slot s := rfl
theorem exec_qosSharedSet (owner slot : Nat) (s : State) : exec (.qosSharedSet owner slot) s = execQosSharedSet owner slot s := rfl
theorem exec_qosQsamplerSet (owner slot : Nat) (s : State) : exec (.qosQsamplerSet owner slot) s = execQosQsamplerSet owner slot s := rfl
theorem exec_vidStreamSet (owner slot : Nat) (s : State) : exec (.vidStreamSet owner slot) s = execVidStreamSet owner slot s := rfl
theorem exec_vidStreamEnable (owner slot : Nat) (s : State) : exec (.vidStreamEnable owner slot) s = execVidStreamEnable owner slot s := rfl
theorem exec_vidStreamDisable (owner slot : Nat) (s : State) : exec (.vidStreamDisable owner slot) s = execVidStreamDisable owner slot s := rfl
theorem exec_vidLatticeSet (owner slot : Nat) (s : State) : exec (.vidLatticeSet owner slot) s = execVidLatticeSet owner slot s := rfl
theorem exec_vidActionSet (owner slot : Nat) (s : State) : exec (.vidActionSet owner slot) s = execVidActionSet owner slot s := rfl
theorem exec_vidNoticeSet (owner slot : Nat) (s : State) : exec (.vidNoticeSet owner slot) s = execVidNoticeSet owner slot s := rfl
theorem exec_vidSyncSet (owner slot : Nat) (s : State) : exec (.vidSyncSet owner slot) s = execVidSyncSet owner slot s := rfl
theorem exec_vidStateRead (owner slot : Nat) (s : State) : exec (.vidStateRead owner slot) s = execVidStateRead owner slot s := rfl
theorem exec_vidRingSet (owner slot : Nat) (s : State) : exec (.vidRingSet owner slot) s = execVidRingSet owner slot s := rfl
theorem exec_vidRingRelease (owner slot : Nat) (s : State) : exec (.vidRingRelease owner slot) s = execVidRingRelease owner slot s := rfl
theorem exec_vidRingRead (owner slot : Nat) (s : State) : exec (.vidRingRead owner slot) s = execVidRingRead owner slot s := rfl
theorem exec_vidRingExport (owner slot : Nat) (s : State) : exec (.vidRingExport owner slot) s = execVidRingExport owner slot s := rfl
theorem exec_vidTrigger (owner slot : Nat) (s : State) : exec (.vidTrigger owner slot) s = execVidTrigger owner slot s := rfl
theorem exec_fbusCanSet (owner slot : Nat) (s : State) : exec (.fbusCanSet owner slot) s = execFbusCanSet owner slot s := rfl
theorem exec_fbusCanTdcSet (owner slot : Nat) (s : State) : exec (.fbusCanTdcSet owner slot) s = execFbusCanTdcSet owner slot s := rfl
theorem exec_fbusFilterWrite (owner slot : Nat) (s : State) : exec (.fbusFilterWrite owner slot) s = execFbusFilterWrite owner slot s := rfl
theorem exec_fbusRxqSet (owner slot : Nat) (s : State) : exec (.fbusRxqSet owner slot) s = execFbusRxqSet owner slot s := rfl
theorem exec_fbusCanRecover (owner slot : Nat) (s : State) : exec (.fbusCanRecover owner slot) s = execFbusCanRecover owner slot s := rfl
theorem exec_fbusSchedLoad (owner slot : Nat) (s : State) : exec (.fbusSchedLoad owner slot) s = execFbusSchedLoad owner slot s := rfl
theorem exec_fbusMsgbufWrite (owner slot : Nat) (s : State) : exec (.fbusMsgbufWrite owner slot) s = execFbusMsgbufWrite owner slot s := rfl
theorem exec_fbusTx (owner slot : Nat) (s : State) : exec (.fbusTx owner slot) s = execFbusTx owner slot s := rfl
theorem exec_fbusLinSet (owner slot : Nat) (s : State) : exec (.fbusLinSet owner slot) s = execFbusLinSet owner slot s := rfl
theorem exec_fbusLinTableLoad (owner slot : Nat) (s : State) : exec (.fbusLinTableLoad owner slot) s = execFbusLinTableLoad owner slot s := rfl
theorem exec_fbusLinSchedSelect (owner slot : Nat) (s : State) : exec (.fbusLinSchedSelect owner slot) s = execFbusLinSchedSelect owner slot s := rfl
theorem exec_fbusLinWake (owner slot : Nat) (s : State) : exec (.fbusLinWake owner slot) s = execFbusLinWake owner slot s := rfl
theorem exec_fbusWakeDetSet (owner slot : Nat) (s : State) : exec (.fbusWakeDetSet owner slot) s = execFbusWakeDetSet owner slot s := rfl
theorem exec_fbusRillSet (owner slot : Nat) (s : State) : exec (.fbusRillSet owner slot) s = execFbusRillSet owner slot s := rfl
theorem exec_gwyRuleWrite (owner slot : Nat) (s : State) : exec (.gwyRuleWrite owner slot) s = execGwyRuleWrite owner slot s := rfl
theorem exec_gwyRuleRead (owner slot : Nat) (s : State) : exec (.gwyRuleRead owner slot) s = execGwyRuleRead owner slot s := rfl
theorem exec_gwyRuleDel (owner slot : Nat) (s : State) : exec (.gwyRuleDel owner slot) s = execGwyRuleDel owner slot s := rfl
theorem exec_gwyRuleBulk (owner slot : Nat) (s : State) : exec (.gwyRuleBulk owner slot) s = execGwyRuleBulk owner slot s := rfl
theorem exec_gwySrcSet (owner slot : Nat) (s : State) : exec (.gwySrcSet owner slot) s = execGwySrcSet owner slot s := rfl
theorem exec_gwyRewriteSet (owner slot : Nat) (s : State) : exec (.gwyRewriteSet owner slot) s = execGwyRewriteSet owner slot s := rfl
theorem exec_gwySigMapSet (owner slot : Nat) (s : State) : exec (.gwySigMapSet owner slot) s = execGwySigMapSet owner slot s := rfl
theorem exec_gwySigBufSet (owner slot : Nat) (s : State) : exec (.gwySigBufSet owner slot) s = execGwySigBufSet owner slot s := rfl
theorem exec_gwyTunnelSet (owner slot : Nat) (s : State) : exec (.gwyTunnelSet owner slot) s = execGwyTunnelSet owner slot s := rfl
theorem exec_gwyRxtunnelSet (owner slot : Nat) (s : State) : exec (.gwyRxtunnelSet owner slot) s = execGwyRxtunnelSet owner slot s := rfl
theorem exec_gwyAuthSet (owner slot : Nat) (s : State) : exec (.gwyAuthSet owner slot) s = execGwyAuthSet owner slot s := rfl
theorem exec_gwyAuthFreshSet (owner slot : Nat) (s : State) : exec (.gwyAuthFreshSet owner slot) s = execGwyAuthFreshSet owner slot s := rfl
theorem exec_gwyJ1939Read (owner slot : Nat) (s : State) : exec (.gwyJ1939Read owner slot) s = execGwyJ1939Read owner slot s := rfl
theorem exec_gwyEnable (owner slot : Nat) (s : State) : exec (.gwyEnable owner slot) s = execGwyEnable owner slot s := rfl
theorem exec_timeBaseOp (owner slot : Nat) (s : State) : exec (.timeBaseOp owner slot) s = execTimeBaseOp owner slot s := rfl
theorem exec_timeBaseRead (owner slot : Nat) (s : State) : exec (.timeBaseRead owner slot) s = execTimeBaseRead owner slot s := rfl
theorem exec_timeSuperviseSet (owner slot : Nat) (s : State) : exec (.timeSuperviseSet owner slot) s = execTimeSuperviseSet owner slot s := rfl
theorem exec_timeDomainSet (owner slot : Nat) (s : State) : exec (.timeDomainSet owner slot) s = execTimeDomainSet owner slot s := rfl
theorem exec_timeLinkDelaySet (owner slot : Nat) (s : State) : exec (.timeLinkDelaySet owner slot) s = execTimeLinkDelaySet owner slot s := rfl
theorem exec_timePulseSet (owner slot : Nat) (s : State) : exec (.timePulseSet owner slot) s = execTimePulseSet owner slot s := rfl
theorem exec_timeCaptureSet (owner slot : Nat) (s : State) : exec (.timeCaptureSet owner slot) s = execTimeCaptureSet owner slot s := rfl
theorem exec_timeEpochReq (owner slot : Nat) (s : State) : exec (.timeEpochReq owner slot) s = execTimeEpochReq owner slot s := rfl
theorem exec_secLifecycleRead (owner slot : Nat) (s : State) : exec (.secLifecycleRead owner slot) s = execSecLifecycleRead owner slot s := rfl
theorem exec_secLifecycleAdvance (owner slot : Nat) (s : State) : exec (.secLifecycleAdvance owner slot) s = execSecLifecycleAdvance owner slot s := rfl
theorem exec_secKeyRotate (owner slot : Nat) (s : State) : exec (.secKeyRotate owner slot) s = execSecKeyRotate owner slot s := rfl
theorem exec_secMacsecSaInstall (owner slot : Nat) (s : State) : exec (.secMacsecSaInstall owner slot) s = execSecMacsecSaInstall owner slot s := rfl
theorem exec_secMacsecSaEnable (owner slot : Nat) (s : State) : exec (.secMacsecSaEnable owner slot) s = execSecMacsecSaEnable owner slot s := rfl
theorem exec_secMacsecSaDelete (owner slot : Nat) (s : State) : exec (.secMacsecSaDelete owner slot) s = execSecMacsecSaDelete owner slot s := rfl
theorem exec_secCmacKeyInstall (owner slot : Nat) (s : State) : exec (.secCmacKeyInstall owner slot) s = execSecCmacKeyInstall owner slot s := rfl
theorem exec_secSessionOpen (owner slot : Nat) (s : State) : exec (.secSessionOpen owner slot) s = execSecSessionOpen owner slot s := rfl
theorem exec_secSessionClose (owner slot : Nat) (s : State) : exec (.secSessionClose owner slot) s = execSecSessionClose owner slot s := rfl
theorem exec_secDebugUnlock (owner slot : Nat) (s : State) : exec (.secDebugUnlock owner slot) s = execSecDebugUnlock owner slot s := rfl
theorem exec_secTamperStatus (owner slot : Nat) (s : State) : exec (.secTamperStatus owner slot) s = execSecTamperStatus owner slot s := rfl
theorem exec_secTamperSet (owner slot : Nat) (s : State) : exec (.secTamperSet owner slot) s = execSecTamperSet owner slot s := rfl
theorem exec_memBankGrant (owner slot : Nat) (s : State) : exec (.memBankGrant owner slot) s = execMemBankGrant owner slot s := rfl
theorem exec_memBankRetain (owner slot : Nat) (s : State) : exec (.memBankRetain owner slot) s = execMemBankRetain owner slot s := rfl
theorem exec_memMarchRun (owner slot : Nat) (s : State) : exec (.memMarchRun owner slot) s = execMemMarchRun owner slot s := rfl
theorem exec_memMarchResult (owner slot : Nat) (s : State) : exec (.memMarchResult owner slot) s = execMemMarchResult owner slot s := rfl
theorem exec_memConflictRead (owner slot : Nat) (s : State) : exec (.memConflictRead owner slot) s = execMemConflictRead owner slot s := rfl
theorem exec_memLpddrRegion (owner slot : Nat) (s : State) : exec (.memLpddrRegion owner slot) s = execMemLpddrRegion owner slot s := rfl
theorem exec_pwrStateSet (owner slot : Nat) (s : State) : exec (.pwrStateSet owner slot) s = execPwrStateSet owner slot s := rfl
theorem exec_pwrStateRead (owner slot : Nat) (s : State) : exec (.pwrStateRead owner slot) s = execPwrStateRead owner slot s := rfl
theorem exec_pwrDomainSet (owner slot : Nat) (s : State) : exec (.pwrDomainSet owner slot) s = execPwrDomainSet owner slot s := rfl
theorem exec_pwrWakeSet (owner slot : Nat) (s : State) : exec (.pwrWakeSet owner slot) s = execPwrWakeSet owner slot s := rfl
theorem exec_pwrRailSet (owner slot : Nat) (s : State) : exec (.pwrRailSet owner slot) s = execPwrRailSet owner slot s := rfl
theorem exec_pwrWakeCauseRead (owner slot : Nat) (s : State) : exec (.pwrWakeCauseRead owner slot) s = execPwrWakeCauseRead owner slot s := rfl
theorem exec_pwrClockStatus (owner slot : Nat) (s : State) : exec (.pwrClockStatus owner slot) s = execPwrClockStatus owner slot s := rfl
theorem exec_diagUnitReset (owner slot : Nat) (s : State) : exec (.diagUnitReset owner slot) s = execDiagUnitReset owner slot s := rfl
theorem exec_diagGroupReset (owner slot : Nat) (s : State) : exec (.diagGroupReset owner slot) s = execDiagGroupReset owner slot s := rfl
theorem exec_diagLoopback (owner slot : Nat) (s : State) : exec (.diagLoopback owner slot) s = execDiagLoopback owner slot s := rfl
theorem exec_diagTestgen (owner slot : Nat) (s : State) : exec (.diagTestgen owner slot) s = execDiagTestgen owner slot s := rfl
theorem exec_diagSbbRead (owner slot : Nat) (s : State) : exec (.diagSbbRead owner slot) s = execDiagSbbRead owner slot s := rfl
theorem exec_diagSbbWrite (owner slot : Nat) (s : State) : exec (.diagSbbWrite owner slot) s = execDiagSbbWrite owner slot s := rfl
theorem exec_diagSbbSeq (owner slot : Nat) (s : State) : exec (.diagSbbSeq owner slot) s = execDiagSbbSeq owner slot s := rfl
theorem exec_diagGpioSet (owner slot : Nat) (s : State) : exec (.diagGpioSet owner slot) s = execDiagGpioSet owner slot s := rfl
theorem exec_diagRegRead (owner slot : Nat) (s : State) : exec (.diagRegRead owner slot) s = execDiagRegRead owner slot s := rfl
theorem exec_diagInject (owner slot : Nat) (s : State) : exec (.diagInject owner slot) s = execDiagInject owner slot s := rfl
theorem exec_bootRomStart (tamper : Nat) (early : Option EarlySet) (copies : List (Option ImageCopy)) (s : State) : exec (.bootRomStart tamper early copies) s = execBootRomStart tamper early copies s := rfl
theorem exec_sImageReady (store : Option (Nat × Nat × List (Nat × Nat))) (s : State) : exec (.sImageReady store) s = execSImageReady store s := rfl
theorem exec_cImageReady (s : State) : exec (.cImageReady) s = execCImageReady s := rfl
theorem exec_keySlotRetire (owner : Nat) (s : State) : exec (.keySlotRetire owner) s = execKeySlotRetire owner s := rfl
theorem exec_jobFrameReceive (s : State) : exec (.jobFrameReceive) s = execJobFrameReceive s := rfl
theorem exec_jobSlotAllocate (s : State) : exec (.jobSlotAllocate) s = execJobSlotAllocate s := rfl
theorem exec_jobIdleTimeout (slot : Nat) (s : State) : exec (.jobIdleTimeout slot) s = execJobIdleTimeout slot s := rfl
theorem exec_trngHealthFail (s : State) : exec (.trngHealthFail) s = execTrngHealthFail s := rfl
theorem exec_trngRestartDone (s : State) : exec (.trngRestartDone) s = execTrngRestartDone s := rfl
theorem exec_tamperDetect (sources : Nat) (s : State) : exec (.tamperDetect sources) s = execTamperDetect sources s := rfl
theorem exec_tamperKeyZeroise (s : State) : exec (.tamperKeyZeroise) s = execTamperKeyZeroise s := rfl
theorem exec_tamperCisternWipe (s : State) : exec (.tamperCisternWipe) s = execTamperCisternWipe s := rfl
theorem exec_tamperSafeResume (s : State) : exec (.tamperSafeResume) s = execTamperSafeResume s := rfl
theorem exec_tamperControlRestart (s : State) : exec (.tamperControlRestart) s = execTamperControlRestart s := rfl
theorem exec_jtagDebugUnlock (level : Nat) (key sig : List Byte) (s : State) : exec (.jtagDebugUnlock level key sig) s = execJtagDebugUnlock level key sig s := rfl
theorem exec_bankClearDone (bank : Nat) (s : State) : exec (.bankClearDone bank) s = execBankClearDone bank s := rfl
theorem exec_bankAccess (bank master owner op width off value ecc : Nat) (s : State) : exec (.bankAccess bank master owner op width off value ecc) s = execBankAccess bank master owner op width off value ecc s := rfl
theorem exec_apertureAddRead (fn off en : Nat) (s : State) : exec (.apertureAddRead fn off en) s = execApertureAddRead fn off en s := rfl
theorem exec_apertureSwapRead (fn off en : Nat) (s : State) : exec (.apertureSwapRead fn off en) s = execApertureSwapRead fn off en s := rfl
theorem exec_bankWakeDone (bank : Nat) (s : State) : exec (.bankWakeDone bank) s = execBankWakeDone bank s := rfl
theorem exec_marchChunkDone (s : State) : exec (.marchChunkDone) s = execMarchChunkDone s := rfl
theorem exec_marchTestDone (fails : List (Nat × Nat × Nat × Nat × Nat)) (s : State) : exec (.marchTestDone fails) s = execMarchTestDone fails s := rfl
theorem exec_sbbGoRead (slot addr ctrl : Nat) (s : State) : exec (.sbbGoRead slot addr ctrl) s = execSbbGoRead slot addr ctrl s := rfl
theorem exec_sbbGoWrite (slot addr ctrl : Nat) (data : List Byte) (s : State) : exec (.sbbGoWrite slot addr ctrl data) s = execSbbGoWrite slot addr ctrl data s := rfl
theorem exec_sbbGoRmw (slot addr word ctrl : Nat) (s : State) : exec (.sbbGoRmw slot addr word ctrl) s = execSbbGoRmw slot addr word ctrl s := rfl
theorem exec_sbbCancel (slot : Nat) (s : State) : exec (.sbbCancel slot) s = execSbbCancel slot s := rfl
theorem exec_sbbSlotRespRead (slot : Nat) (s : State) : exec (.sbbSlotRespRead slot) s = execSbbSlotRespRead slot s := rfl
theorem exec_sbbHoldExpire (slot : Nat) (s : State) : exec (.sbbHoldExpire slot) s = execSbbHoldExpire slot s := rfl
theorem exec_sbbPieceComplete (slot code n : Nat) (data : List Byte) (sdaLow : Bool) (s : State) : exec (.sbbPieceComplete slot code n data sdaLow) s = execSbbPieceComplete slot code n data sdaLow s := rfl
theorem exec_sbbRetryGapExpire (slot : Nat) (s : State) : exec (.sbbRetryGapExpire slot) s = execSbbRetryGapExpire slot s := rfl
theorem exec_sbbWritePoll (slot : Nat) (acked : Bool) (s : State) : exec (.sbbWritePoll slot acked) s = execSbbWritePoll slot acked s := rfl
theorem exec_sbbLockTimeout (chan : Nat) (s : State) : exec (.sbbLockTimeout chan) s = execSbbLockTimeout chan s := rfl
theorem exec_gpioEdge (line : Nat) (level : Bool) (s : State) : exec (.gpioEdge line level) s = execGpioEdge line level s := rfl
theorem exec_gpioTask (k : Nat) (s : State) : exec (.gpioTask k) s = execGpioTask k s := rfl
theorem exec_railFault (rail : Nat) (s : State) : exec (.railFault rail) s = execRailFault rail s := rfl
theorem exec_railRetryExpire (rail : Nat) (s : State) : exec (.railRetryExpire rail) s = execRailRetryExpire rail s := rfl
theorem exec_railStageAdvance (s : State) : exec (.railStageAdvance) s = execRailStageAdvance s := rfl
theorem exec_evfSwFireWrite (val : Nat) (s : State) : exec (.evfSwFireWrite val) s = execEvfSwFireWrite val s := rfl
theorem exec_pulseFireTask (p : Nat) (s : State) : exec (.pulseFireTask p) s = execPulseFireTask p s := rfl
theorem exec_captureSoftTask (c : Nat) (s : State) : exec (.captureSoftTask c) s = execCaptureSoftTask c s := rfl
theorem exec_recordTask (k : Nat) (s : State) : exec (.recordTask k) s = execRecordTask k s := rfl
theorem exec_por (pwrOn : Bool) (s : State) : exec (.por pwrOn) s = execPor pwrOn s := rfl
theorem exec_pwrOnEdge (s : State) : exec (.pwrOnEdge) s = execPwrOnEdge s := rfl
theorem exec_rstNLow (s : State) : exec (.rstNLow) s = execRstNLow s := rfl
theorem exec_rstNHigh (s : State) : exec (.rstNHigh) s = execRstNHigh s := rfl
theorem exec_regDelayExpire (s : State) : exec (.regDelayExpire) s = execRegDelayExpire s := rfl
theorem exec_regPowerGood (n : Nat) (s : State) : exec (.regPowerGood n) s = execRegPowerGood n s := rfl
theorem exec_regPgTimeout (n : Nat) (s : State) : exec (.regPgTimeout n) s = execRegPgTimeout n s := rfl
theorem exec_regPgLost (n : Nat) (s : State) : exec (.regPgLost n) s = execRegPgLost n s := rfl
theorem exec_regRetryExpire (s : State) : exec (.regRetryExpire) s = execRegRetryExpire s := rfl
theorem exec_regOffStep (s : State) : exec (.regOffStep) s = execRegOffStep s := rfl
theorem exec_pwrTransitionStart (s : State) : exec (.pwrTransitionStart) s = execPwrTransitionStart s := rfl
theorem exec_domainSwitchRound (s : State) : exec (.domainSwitchRound) s = execDomainSwitchRound s := rfl
theorem exec_domainPowerGood (d : Nat) (s : State) : exec (.domainPowerGood d) s = execDomainPowerGood d s := rfl
theorem exec_domainPgTimeout (d : Nat) (s : State) : exec (.domainPgTimeout d) s = execDomainPgTimeout d s := rfl
theorem exec_standbyWake (s : State) : exec (.standbyWake) s = execStandbyWake s := rfl
theorem exec_listenWake (source : Nat) (s : State) : exec (.listenWake source) s = execListenWake source s := rfl
theorem exec_wakeTimerExpire (s : State) : exec (.wakeTimerExpire) s = execWakeTimerExpire s := rfl
theorem exec_refMonitorWindow (ppm : Int) (s : State) : exec (.refMonitorWindow ppm) s = execRefMonitorWindow ppm s := rfl
theorem exec_refEdgeLoss (s : State) : exec (.refEdgeLoss) s = execRefEdgeLoss s := rfl
theorem exec_aoXtalFail (s : State) : exec (.aoXtalFail) s = execAoXtalFail s := rfl
theorem exec_pllRelockDone (s : State) : exec (.pllRelockDone) s = execPllRelockDone s := rfl
theorem exec_thermSample (temp : Int) (s : State) : exec (.thermSample temp) s = execThermSample temp s := rfl
theorem exec_thermalRestart (s : State) : exec (.thermalRestart) s = execThermalRestart s := rfl
theorem exec_treustLockstepFault (s : State) : exec (.treustLockstepFault) s = execTreustLockstepFault s := rfl
theorem exec_controlPairFault (s : State) : exec (.controlPairFault) s = execControlPairFault s := rfl
theorem exec_powerLoss (programmed : Bool) (s : State) : exec (.powerLoss programmed) s = execPowerLoss programmed s := rfl
theorem exec_sysResetExpire (s : State) : exec (.sysResetExpire) s = execSysResetExpire s := rfl
theorem exec_lpddrReady (s : State) : exec (.lpddrReady) s = execLpddrReady s := rfl
theorem exec_lineRestored (mac : Nat) (s : State) : exec (.lineRestored mac) s = execLineRestored mac s := rfl
theorem exec_cascadeControlReceive (port member kind : Nat) (edges : List (Nat × Nat)) (s : State) : exec (.cascadeControlReceive port member kind edges) s = execCascadeControlReceive port member kind edges s := rfl
theorem exec_shadowRebuild (s : State) : exec (.shadowRebuild) s = execShadowRebuild s := rfl
theorem exec_railPowerGood (rail : Nat) (s : State) : exec (.railPowerGood rail) s = execRailPowerGood rail s := rfl
theorem exec_sbbChanRewrite (chan cfg timing : Nat) (sdaHigh : Bool) (s : State) : exec (.sbbChanRewrite chan cfg timing sdaHigh) s = execSbbChanRewrite chan cfg timing sdaHigh s := rfl

end Sys2Proof.Machine
end

