-- ==== Sys2Proof/Laws/State.lean ====
section
/-!
SUPPORT. One lemma per field per update of the hardware: what each update leaves, so that no proof unfolds a record update.
-/
namespace Sys2Proof.Machine

@[simp] theorem Hw.onSwc_regs (h : Hw) (f : Swc → Swc) : (h.onSwc f).regs = h.regs := rfl
@[simp] theorem Hw.onSwc_clk (h : Hw) (f : Swc → Swc) : (h.onSwc f).clk = h.clk := rfl
@[simp] theorem Hw.onSwc_free (h : Hw) (f : Swc → Swc) : (h.onSwc f).free = h.free := rfl
@[simp] theorem Hw.onSwc_out (h : Hw) (f : Swc → Swc) : (h.onSwc f).out = h.out := rfl
@[simp] theorem Hw.onSwc_tasks (h : Hw) (f : Swc → Swc) : (h.onSwc f).tasks = h.tasks := rfl
@[simp] theorem Hw.onSwc_swc (h : Hw) (f : Swc → Swc) : (h.onSwc f).swc = f h.swc := rfl
@[simp] theorem Hw.onSwc_fwd (h : Hw) (f : Swc → Swc) : (h.onSwc f).fwd = h.fwd := rfl
@[simp] theorem Hw.onSwc_tss (h : Hw) (f : Swc → Swc) : (h.onSwc f).tss = h.tss := rfl
@[simp] theorem Hw.onSwc_mac (h : Hw) (f : Swc → Swc) : (h.onSwc f).mac = h.mac := rfl
@[simp] theorem Hw.onSwc_vie (h : Hw) (f : Swc → Swc) : (h.onSwc f).vie = h.vie := rfl
@[simp] theorem Hw.onSwc_fbus (h : Hw) (f : Swc → Swc) : (h.onSwc f).fbus = h.fbus := rfl
@[simp] theorem Hw.onSwc_brg (h : Hw) (f : Swc → Swc) : (h.onSwc f).brg = h.brg := rfl
@[simp] theorem Hw.onSwc_tim (h : Hw) (f : Swc → Swc) : (h.onSwc f).tim = h.tim := rfl
@[simp] theorem Hw.onSwc_hdma (h : Hw) (f : Swc → Swc) : (h.onSwc f).hdma = h.hdma := rfl
@[simp] theorem Hw.onSwc_mbx (h : Hw) (f : Swc → Swc) : (h.onSwc f).mbx = h.mbx := rfl
@[simp] theorem Hw.onSwc_evq (h : Hw) (f : Swc → Swc) : (h.onSwc f).evq = h.evq := rfl
@[simp] theorem Hw.onSwc_own (h : Hw) (f : Swc → Swc) : (h.onSwc f).own = h.own := rfl
@[simp] theorem Hw.onSwc_sec (h : Hw) (f : Swc → Swc) : (h.onSwc f).sec = h.sec := rfl
@[simp] theorem Hw.onSwc_mem (h : Hw) (f : Swc → Swc) : (h.onSwc f).mem = h.mem := rfl
@[simp] theorem Hw.onSwc_sbb (h : Hw) (f : Swc → Swc) : (h.onSwc f).sbb = h.sbb := rfl
@[simp] theorem Hw.onSwc_pwr (h : Hw) (f : Swc → Swc) : (h.onSwc f).pwr = h.pwr := rfl
@[simp] theorem Hw.onSwc_sys (h : Hw) (f : Swc → Swc) : (h.onSwc f).sys = h.sys := rfl

@[simp] theorem Hw.onFwd_regs (h : Hw) (f : Fwd → Fwd) : (h.onFwd f).regs = h.regs := rfl
@[simp] theorem Hw.onFwd_clk (h : Hw) (f : Fwd → Fwd) : (h.onFwd f).clk = h.clk := rfl
@[simp] theorem Hw.onFwd_free (h : Hw) (f : Fwd → Fwd) : (h.onFwd f).free = h.free := rfl
@[simp] theorem Hw.onFwd_out (h : Hw) (f : Fwd → Fwd) : (h.onFwd f).out = h.out := rfl
@[simp] theorem Hw.onFwd_tasks (h : Hw) (f : Fwd → Fwd) : (h.onFwd f).tasks = h.tasks := rfl
@[simp] theorem Hw.onFwd_swc (h : Hw) (f : Fwd → Fwd) : (h.onFwd f).swc = h.swc := rfl
@[simp] theorem Hw.onFwd_fwd (h : Hw) (f : Fwd → Fwd) : (h.onFwd f).fwd = f h.fwd := rfl
@[simp] theorem Hw.onFwd_tss (h : Hw) (f : Fwd → Fwd) : (h.onFwd f).tss = h.tss := rfl
@[simp] theorem Hw.onFwd_mac (h : Hw) (f : Fwd → Fwd) : (h.onFwd f).mac = h.mac := rfl
@[simp] theorem Hw.onFwd_vie (h : Hw) (f : Fwd → Fwd) : (h.onFwd f).vie = h.vie := rfl
@[simp] theorem Hw.onFwd_fbus (h : Hw) (f : Fwd → Fwd) : (h.onFwd f).fbus = h.fbus := rfl
@[simp] theorem Hw.onFwd_brg (h : Hw) (f : Fwd → Fwd) : (h.onFwd f).brg = h.brg := rfl
@[simp] theorem Hw.onFwd_tim (h : Hw) (f : Fwd → Fwd) : (h.onFwd f).tim = h.tim := rfl
@[simp] theorem Hw.onFwd_hdma (h : Hw) (f : Fwd → Fwd) : (h.onFwd f).hdma = h.hdma := rfl
@[simp] theorem Hw.onFwd_mbx (h : Hw) (f : Fwd → Fwd) : (h.onFwd f).mbx = h.mbx := rfl
@[simp] theorem Hw.onFwd_evq (h : Hw) (f : Fwd → Fwd) : (h.onFwd f).evq = h.evq := rfl
@[simp] theorem Hw.onFwd_own (h : Hw) (f : Fwd → Fwd) : (h.onFwd f).own = h.own := rfl
@[simp] theorem Hw.onFwd_sec (h : Hw) (f : Fwd → Fwd) : (h.onFwd f).sec = h.sec := rfl
@[simp] theorem Hw.onFwd_mem (h : Hw) (f : Fwd → Fwd) : (h.onFwd f).mem = h.mem := rfl
@[simp] theorem Hw.onFwd_sbb (h : Hw) (f : Fwd → Fwd) : (h.onFwd f).sbb = h.sbb := rfl
@[simp] theorem Hw.onFwd_pwr (h : Hw) (f : Fwd → Fwd) : (h.onFwd f).pwr = h.pwr := rfl
@[simp] theorem Hw.onFwd_sys (h : Hw) (f : Fwd → Fwd) : (h.onFwd f).sys = h.sys := rfl

@[simp] theorem Hw.onTss_regs (h : Hw) (f : Tss → Tss) : (h.onTss f).regs = h.regs := rfl
@[simp] theorem Hw.onTss_clk (h : Hw) (f : Tss → Tss) : (h.onTss f).clk = h.clk := rfl
@[simp] theorem Hw.onTss_free (h : Hw) (f : Tss → Tss) : (h.onTss f).free = h.free := rfl
@[simp] theorem Hw.onTss_out (h : Hw) (f : Tss → Tss) : (h.onTss f).out = h.out := rfl
@[simp] theorem Hw.onTss_tasks (h : Hw) (f : Tss → Tss) : (h.onTss f).tasks = h.tasks := rfl
@[simp] theorem Hw.onTss_swc (h : Hw) (f : Tss → Tss) : (h.onTss f).swc = h.swc := rfl
@[simp] theorem Hw.onTss_fwd (h : Hw) (f : Tss → Tss) : (h.onTss f).fwd = h.fwd := rfl
@[simp] theorem Hw.onTss_tss (h : Hw) (f : Tss → Tss) : (h.onTss f).tss = f h.tss := rfl
@[simp] theorem Hw.onTss_mac (h : Hw) (f : Tss → Tss) : (h.onTss f).mac = h.mac := rfl
@[simp] theorem Hw.onTss_vie (h : Hw) (f : Tss → Tss) : (h.onTss f).vie = h.vie := rfl
@[simp] theorem Hw.onTss_fbus (h : Hw) (f : Tss → Tss) : (h.onTss f).fbus = h.fbus := rfl
@[simp] theorem Hw.onTss_brg (h : Hw) (f : Tss → Tss) : (h.onTss f).brg = h.brg := rfl
@[simp] theorem Hw.onTss_tim (h : Hw) (f : Tss → Tss) : (h.onTss f).tim = h.tim := rfl
@[simp] theorem Hw.onTss_hdma (h : Hw) (f : Tss → Tss) : (h.onTss f).hdma = h.hdma := rfl
@[simp] theorem Hw.onTss_mbx (h : Hw) (f : Tss → Tss) : (h.onTss f).mbx = h.mbx := rfl
@[simp] theorem Hw.onTss_evq (h : Hw) (f : Tss → Tss) : (h.onTss f).evq = h.evq := rfl
@[simp] theorem Hw.onTss_own (h : Hw) (f : Tss → Tss) : (h.onTss f).own = h.own := rfl
@[simp] theorem Hw.onTss_sec (h : Hw) (f : Tss → Tss) : (h.onTss f).sec = h.sec := rfl
@[simp] theorem Hw.onTss_mem (h : Hw) (f : Tss → Tss) : (h.onTss f).mem = h.mem := rfl
@[simp] theorem Hw.onTss_sbb (h : Hw) (f : Tss → Tss) : (h.onTss f).sbb = h.sbb := rfl
@[simp] theorem Hw.onTss_pwr (h : Hw) (f : Tss → Tss) : (h.onTss f).pwr = h.pwr := rfl
@[simp] theorem Hw.onTss_sys (h : Hw) (f : Tss → Tss) : (h.onTss f).sys = h.sys := rfl

@[simp] theorem Hw.onMac_regs (h : Hw) (f : MacSt → MacSt) : (h.onMac f).regs = h.regs := rfl
@[simp] theorem Hw.onMac_clk (h : Hw) (f : MacSt → MacSt) : (h.onMac f).clk = h.clk := rfl
@[simp] theorem Hw.onMac_free (h : Hw) (f : MacSt → MacSt) : (h.onMac f).free = h.free := rfl
@[simp] theorem Hw.onMac_out (h : Hw) (f : MacSt → MacSt) : (h.onMac f).out = h.out := rfl
@[simp] theorem Hw.onMac_tasks (h : Hw) (f : MacSt → MacSt) : (h.onMac f).tasks = h.tasks := rfl
@[simp] theorem Hw.onMac_swc (h : Hw) (f : MacSt → MacSt) : (h.onMac f).swc = h.swc := rfl
@[simp] theorem Hw.onMac_fwd (h : Hw) (f : MacSt → MacSt) : (h.onMac f).fwd = h.fwd := rfl
@[simp] theorem Hw.onMac_tss (h : Hw) (f : MacSt → MacSt) : (h.onMac f).tss = h.tss := rfl
@[simp] theorem Hw.onMac_mac (h : Hw) (f : MacSt → MacSt) : (h.onMac f).mac = f h.mac := rfl
@[simp] theorem Hw.onMac_vie (h : Hw) (f : MacSt → MacSt) : (h.onMac f).vie = h.vie := rfl
@[simp] theorem Hw.onMac_fbus (h : Hw) (f : MacSt → MacSt) : (h.onMac f).fbus = h.fbus := rfl
@[simp] theorem Hw.onMac_brg (h : Hw) (f : MacSt → MacSt) : (h.onMac f).brg = h.brg := rfl
@[simp] theorem Hw.onMac_tim (h : Hw) (f : MacSt → MacSt) : (h.onMac f).tim = h.tim := rfl
@[simp] theorem Hw.onMac_hdma (h : Hw) (f : MacSt → MacSt) : (h.onMac f).hdma = h.hdma := rfl
@[simp] theorem Hw.onMac_mbx (h : Hw) (f : MacSt → MacSt) : (h.onMac f).mbx = h.mbx := rfl
@[simp] theorem Hw.onMac_evq (h : Hw) (f : MacSt → MacSt) : (h.onMac f).evq = h.evq := rfl
@[simp] theorem Hw.onMac_own (h : Hw) (f : MacSt → MacSt) : (h.onMac f).own = h.own := rfl
@[simp] theorem Hw.onMac_sec (h : Hw) (f : MacSt → MacSt) : (h.onMac f).sec = h.sec := rfl
@[simp] theorem Hw.onMac_mem (h : Hw) (f : MacSt → MacSt) : (h.onMac f).mem = h.mem := rfl
@[simp] theorem Hw.onMac_sbb (h : Hw) (f : MacSt → MacSt) : (h.onMac f).sbb = h.sbb := rfl
@[simp] theorem Hw.onMac_pwr (h : Hw) (f : MacSt → MacSt) : (h.onMac f).pwr = h.pwr := rfl
@[simp] theorem Hw.onMac_sys (h : Hw) (f : MacSt → MacSt) : (h.onMac f).sys = h.sys := rfl

@[simp] theorem Hw.onVie_regs (h : Hw) (f : Vie → Vie) : (h.onVie f).regs = h.regs := rfl
@[simp] theorem Hw.onVie_clk (h : Hw) (f : Vie → Vie) : (h.onVie f).clk = h.clk := rfl
@[simp] theorem Hw.onVie_free (h : Hw) (f : Vie → Vie) : (h.onVie f).free = h.free := rfl
@[simp] theorem Hw.onVie_out (h : Hw) (f : Vie → Vie) : (h.onVie f).out = h.out := rfl
@[simp] theorem Hw.onVie_tasks (h : Hw) (f : Vie → Vie) : (h.onVie f).tasks = h.tasks := rfl
@[simp] theorem Hw.onVie_swc (h : Hw) (f : Vie → Vie) : (h.onVie f).swc = h.swc := rfl
@[simp] theorem Hw.onVie_fwd (h : Hw) (f : Vie → Vie) : (h.onVie f).fwd = h.fwd := rfl
@[simp] theorem Hw.onVie_tss (h : Hw) (f : Vie → Vie) : (h.onVie f).tss = h.tss := rfl
@[simp] theorem Hw.onVie_mac (h : Hw) (f : Vie → Vie) : (h.onVie f).mac = h.mac := rfl
@[simp] theorem Hw.onVie_vie (h : Hw) (f : Vie → Vie) : (h.onVie f).vie = f h.vie := rfl
@[simp] theorem Hw.onVie_fbus (h : Hw) (f : Vie → Vie) : (h.onVie f).fbus = h.fbus := rfl
@[simp] theorem Hw.onVie_brg (h : Hw) (f : Vie → Vie) : (h.onVie f).brg = h.brg := rfl
@[simp] theorem Hw.onVie_tim (h : Hw) (f : Vie → Vie) : (h.onVie f).tim = h.tim := rfl
@[simp] theorem Hw.onVie_hdma (h : Hw) (f : Vie → Vie) : (h.onVie f).hdma = h.hdma := rfl
@[simp] theorem Hw.onVie_mbx (h : Hw) (f : Vie → Vie) : (h.onVie f).mbx = h.mbx := rfl
@[simp] theorem Hw.onVie_evq (h : Hw) (f : Vie → Vie) : (h.onVie f).evq = h.evq := rfl
@[simp] theorem Hw.onVie_own (h : Hw) (f : Vie → Vie) : (h.onVie f).own = h.own := rfl
@[simp] theorem Hw.onVie_sec (h : Hw) (f : Vie → Vie) : (h.onVie f).sec = h.sec := rfl
@[simp] theorem Hw.onVie_mem (h : Hw) (f : Vie → Vie) : (h.onVie f).mem = h.mem := rfl
@[simp] theorem Hw.onVie_sbb (h : Hw) (f : Vie → Vie) : (h.onVie f).sbb = h.sbb := rfl
@[simp] theorem Hw.onVie_pwr (h : Hw) (f : Vie → Vie) : (h.onVie f).pwr = h.pwr := rfl
@[simp] theorem Hw.onVie_sys (h : Hw) (f : Vie → Vie) : (h.onVie f).sys = h.sys := rfl

@[simp] theorem Hw.onBrg_regs (h : Hw) (f : Brg → Brg) : (h.onBrg f).regs = h.regs := rfl
@[simp] theorem Hw.onBrg_clk (h : Hw) (f : Brg → Brg) : (h.onBrg f).clk = h.clk := rfl
@[simp] theorem Hw.onBrg_free (h : Hw) (f : Brg → Brg) : (h.onBrg f).free = h.free := rfl
@[simp] theorem Hw.onBrg_out (h : Hw) (f : Brg → Brg) : (h.onBrg f).out = h.out := rfl
@[simp] theorem Hw.onBrg_tasks (h : Hw) (f : Brg → Brg) : (h.onBrg f).tasks = h.tasks := rfl
@[simp] theorem Hw.onBrg_swc (h : Hw) (f : Brg → Brg) : (h.onBrg f).swc = h.swc := rfl
@[simp] theorem Hw.onBrg_fwd (h : Hw) (f : Brg → Brg) : (h.onBrg f).fwd = h.fwd := rfl
@[simp] theorem Hw.onBrg_tss (h : Hw) (f : Brg → Brg) : (h.onBrg f).tss = h.tss := rfl
@[simp] theorem Hw.onBrg_mac (h : Hw) (f : Brg → Brg) : (h.onBrg f).mac = h.mac := rfl
@[simp] theorem Hw.onBrg_vie (h : Hw) (f : Brg → Brg) : (h.onBrg f).vie = h.vie := rfl
@[simp] theorem Hw.onBrg_fbus (h : Hw) (f : Brg → Brg) : (h.onBrg f).fbus = h.fbus := rfl
@[simp] theorem Hw.onBrg_brg (h : Hw) (f : Brg → Brg) : (h.onBrg f).brg = f h.brg := rfl
@[simp] theorem Hw.onBrg_tim (h : Hw) (f : Brg → Brg) : (h.onBrg f).tim = h.tim := rfl
@[simp] theorem Hw.onBrg_hdma (h : Hw) (f : Brg → Brg) : (h.onBrg f).hdma = h.hdma := rfl
@[simp] theorem Hw.onBrg_mbx (h : Hw) (f : Brg → Brg) : (h.onBrg f).mbx = h.mbx := rfl
@[simp] theorem Hw.onBrg_evq (h : Hw) (f : Brg → Brg) : (h.onBrg f).evq = h.evq := rfl
@[simp] theorem Hw.onBrg_own (h : Hw) (f : Brg → Brg) : (h.onBrg f).own = h.own := rfl
@[simp] theorem Hw.onBrg_sec (h : Hw) (f : Brg → Brg) : (h.onBrg f).sec = h.sec := rfl
@[simp] theorem Hw.onBrg_mem (h : Hw) (f : Brg → Brg) : (h.onBrg f).mem = h.mem := rfl
@[simp] theorem Hw.onBrg_sbb (h : Hw) (f : Brg → Brg) : (h.onBrg f).sbb = h.sbb := rfl
@[simp] theorem Hw.onBrg_pwr (h : Hw) (f : Brg → Brg) : (h.onBrg f).pwr = h.pwr := rfl
@[simp] theorem Hw.onBrg_sys (h : Hw) (f : Brg → Brg) : (h.onBrg f).sys = h.sys := rfl

@[simp] theorem Hw.onHdma_regs (h : Hw) (f : Hdma → Hdma) : (h.onHdma f).regs = h.regs := rfl
@[simp] theorem Hw.onHdma_clk (h : Hw) (f : Hdma → Hdma) : (h.onHdma f).clk = h.clk := rfl
@[simp] theorem Hw.onHdma_free (h : Hw) (f : Hdma → Hdma) : (h.onHdma f).free = h.free := rfl
@[simp] theorem Hw.onHdma_out (h : Hw) (f : Hdma → Hdma) : (h.onHdma f).out = h.out := rfl
@[simp] theorem Hw.onHdma_tasks (h : Hw) (f : Hdma → Hdma) : (h.onHdma f).tasks = h.tasks := rfl
@[simp] theorem Hw.onHdma_swc (h : Hw) (f : Hdma → Hdma) : (h.onHdma f).swc = h.swc := rfl
@[simp] theorem Hw.onHdma_fwd (h : Hw) (f : Hdma → Hdma) : (h.onHdma f).fwd = h.fwd := rfl
@[simp] theorem Hw.onHdma_tss (h : Hw) (f : Hdma → Hdma) : (h.onHdma f).tss = h.tss := rfl
@[simp] theorem Hw.onHdma_mac (h : Hw) (f : Hdma → Hdma) : (h.onHdma f).mac = h.mac := rfl
@[simp] theorem Hw.onHdma_vie (h : Hw) (f : Hdma → Hdma) : (h.onHdma f).vie = h.vie := rfl
@[simp] theorem Hw.onHdma_fbus (h : Hw) (f : Hdma → Hdma) : (h.onHdma f).fbus = h.fbus := rfl
@[simp] theorem Hw.onHdma_brg (h : Hw) (f : Hdma → Hdma) : (h.onHdma f).brg = h.brg := rfl
@[simp] theorem Hw.onHdma_tim (h : Hw) (f : Hdma → Hdma) : (h.onHdma f).tim = h.tim := rfl
@[simp] theorem Hw.onHdma_hdma (h : Hw) (f : Hdma → Hdma) : (h.onHdma f).hdma = f h.hdma := rfl
@[simp] theorem Hw.onHdma_mbx (h : Hw) (f : Hdma → Hdma) : (h.onHdma f).mbx = h.mbx := rfl
@[simp] theorem Hw.onHdma_evq (h : Hw) (f : Hdma → Hdma) : (h.onHdma f).evq = h.evq := rfl
@[simp] theorem Hw.onHdma_own (h : Hw) (f : Hdma → Hdma) : (h.onHdma f).own = h.own := rfl
@[simp] theorem Hw.onHdma_sec (h : Hw) (f : Hdma → Hdma) : (h.onHdma f).sec = h.sec := rfl
@[simp] theorem Hw.onHdma_mem (h : Hw) (f : Hdma → Hdma) : (h.onHdma f).mem = h.mem := rfl
@[simp] theorem Hw.onHdma_sbb (h : Hw) (f : Hdma → Hdma) : (h.onHdma f).sbb = h.sbb := rfl
@[simp] theorem Hw.onHdma_pwr (h : Hw) (f : Hdma → Hdma) : (h.onHdma f).pwr = h.pwr := rfl
@[simp] theorem Hw.onHdma_sys (h : Hw) (f : Hdma → Hdma) : (h.onHdma f).sys = h.sys := rfl

@[simp] theorem Hw.onMbx_regs (h : Hw) (f : Mbx → Mbx) : (h.onMbx f).regs = h.regs := rfl
@[simp] theorem Hw.onMbx_clk (h : Hw) (f : Mbx → Mbx) : (h.onMbx f).clk = h.clk := rfl
@[simp] theorem Hw.onMbx_free (h : Hw) (f : Mbx → Mbx) : (h.onMbx f).free = h.free := rfl
@[simp] theorem Hw.onMbx_out (h : Hw) (f : Mbx → Mbx) : (h.onMbx f).out = h.out := rfl
@[simp] theorem Hw.onMbx_tasks (h : Hw) (f : Mbx → Mbx) : (h.onMbx f).tasks = h.tasks := rfl
@[simp] theorem Hw.onMbx_swc (h : Hw) (f : Mbx → Mbx) : (h.onMbx f).swc = h.swc := rfl
@[simp] theorem Hw.onMbx_fwd (h : Hw) (f : Mbx → Mbx) : (h.onMbx f).fwd = h.fwd := rfl
@[simp] theorem Hw.onMbx_tss (h : Hw) (f : Mbx → Mbx) : (h.onMbx f).tss = h.tss := rfl
@[simp] theorem Hw.onMbx_mac (h : Hw) (f : Mbx → Mbx) : (h.onMbx f).mac = h.mac := rfl
@[simp] theorem Hw.onMbx_vie (h : Hw) (f : Mbx → Mbx) : (h.onMbx f).vie = h.vie := rfl
@[simp] theorem Hw.onMbx_fbus (h : Hw) (f : Mbx → Mbx) : (h.onMbx f).fbus = h.fbus := rfl
@[simp] theorem Hw.onMbx_brg (h : Hw) (f : Mbx → Mbx) : (h.onMbx f).brg = h.brg := rfl
@[simp] theorem Hw.onMbx_tim (h : Hw) (f : Mbx → Mbx) : (h.onMbx f).tim = h.tim := rfl
@[simp] theorem Hw.onMbx_hdma (h : Hw) (f : Mbx → Mbx) : (h.onMbx f).hdma = h.hdma := rfl
@[simp] theorem Hw.onMbx_mbx (h : Hw) (f : Mbx → Mbx) : (h.onMbx f).mbx = f h.mbx := rfl
@[simp] theorem Hw.onMbx_evq (h : Hw) (f : Mbx → Mbx) : (h.onMbx f).evq = h.evq := rfl
@[simp] theorem Hw.onMbx_own (h : Hw) (f : Mbx → Mbx) : (h.onMbx f).own = h.own := rfl
@[simp] theorem Hw.onMbx_sec (h : Hw) (f : Mbx → Mbx) : (h.onMbx f).sec = h.sec := rfl
@[simp] theorem Hw.onMbx_mem (h : Hw) (f : Mbx → Mbx) : (h.onMbx f).mem = h.mem := rfl
@[simp] theorem Hw.onMbx_sbb (h : Hw) (f : Mbx → Mbx) : (h.onMbx f).sbb = h.sbb := rfl
@[simp] theorem Hw.onMbx_pwr (h : Hw) (f : Mbx → Mbx) : (h.onMbx f).pwr = h.pwr := rfl
@[simp] theorem Hw.onMbx_sys (h : Hw) (f : Mbx → Mbx) : (h.onMbx f).sys = h.sys := rfl

@[simp] theorem Hw.onOwn_regs (h : Hw) (f : Own → Own) : (h.onOwn f).regs = h.regs := rfl
@[simp] theorem Hw.onOwn_clk (h : Hw) (f : Own → Own) : (h.onOwn f).clk = h.clk := rfl
@[simp] theorem Hw.onOwn_free (h : Hw) (f : Own → Own) : (h.onOwn f).free = h.free := rfl
@[simp] theorem Hw.onOwn_out (h : Hw) (f : Own → Own) : (h.onOwn f).out = h.out := rfl
@[simp] theorem Hw.onOwn_tasks (h : Hw) (f : Own → Own) : (h.onOwn f).tasks = h.tasks := rfl
@[simp] theorem Hw.onOwn_swc (h : Hw) (f : Own → Own) : (h.onOwn f).swc = h.swc := rfl
@[simp] theorem Hw.onOwn_fwd (h : Hw) (f : Own → Own) : (h.onOwn f).fwd = h.fwd := rfl
@[simp] theorem Hw.onOwn_tss (h : Hw) (f : Own → Own) : (h.onOwn f).tss = h.tss := rfl
@[simp] theorem Hw.onOwn_mac (h : Hw) (f : Own → Own) : (h.onOwn f).mac = h.mac := rfl
@[simp] theorem Hw.onOwn_vie (h : Hw) (f : Own → Own) : (h.onOwn f).vie = h.vie := rfl
@[simp] theorem Hw.onOwn_fbus (h : Hw) (f : Own → Own) : (h.onOwn f).fbus = h.fbus := rfl
@[simp] theorem Hw.onOwn_brg (h : Hw) (f : Own → Own) : (h.onOwn f).brg = h.brg := rfl
@[simp] theorem Hw.onOwn_tim (h : Hw) (f : Own → Own) : (h.onOwn f).tim = h.tim := rfl
@[simp] theorem Hw.onOwn_hdma (h : Hw) (f : Own → Own) : (h.onOwn f).hdma = h.hdma := rfl
@[simp] theorem Hw.onOwn_mbx (h : Hw) (f : Own → Own) : (h.onOwn f).mbx = h.mbx := rfl
@[simp] theorem Hw.onOwn_evq (h : Hw) (f : Own → Own) : (h.onOwn f).evq = h.evq := rfl
@[simp] theorem Hw.onOwn_own (h : Hw) (f : Own → Own) : (h.onOwn f).own = f h.own := rfl
@[simp] theorem Hw.onOwn_sec (h : Hw) (f : Own → Own) : (h.onOwn f).sec = h.sec := rfl
@[simp] theorem Hw.onOwn_mem (h : Hw) (f : Own → Own) : (h.onOwn f).mem = h.mem := rfl
@[simp] theorem Hw.onOwn_sbb (h : Hw) (f : Own → Own) : (h.onOwn f).sbb = h.sbb := rfl
@[simp] theorem Hw.onOwn_pwr (h : Hw) (f : Own → Own) : (h.onOwn f).pwr = h.pwr := rfl
@[simp] theorem Hw.onOwn_sys (h : Hw) (f : Own → Own) : (h.onOwn f).sys = h.sys := rfl

@[simp] theorem Hw.onSec_regs (h : Hw) (f : Sec → Sec) : (h.onSec f).regs = h.regs := rfl
@[simp] theorem Hw.onSec_clk (h : Hw) (f : Sec → Sec) : (h.onSec f).clk = h.clk := rfl
@[simp] theorem Hw.onSec_free (h : Hw) (f : Sec → Sec) : (h.onSec f).free = h.free := rfl
@[simp] theorem Hw.onSec_out (h : Hw) (f : Sec → Sec) : (h.onSec f).out = h.out := rfl
@[simp] theorem Hw.onSec_tasks (h : Hw) (f : Sec → Sec) : (h.onSec f).tasks = h.tasks := rfl
@[simp] theorem Hw.onSec_swc (h : Hw) (f : Sec → Sec) : (h.onSec f).swc = h.swc := rfl
@[simp] theorem Hw.onSec_fwd (h : Hw) (f : Sec → Sec) : (h.onSec f).fwd = h.fwd := rfl
@[simp] theorem Hw.onSec_tss (h : Hw) (f : Sec → Sec) : (h.onSec f).tss = h.tss := rfl
@[simp] theorem Hw.onSec_mac (h : Hw) (f : Sec → Sec) : (h.onSec f).mac = h.mac := rfl
@[simp] theorem Hw.onSec_vie (h : Hw) (f : Sec → Sec) : (h.onSec f).vie = h.vie := rfl
@[simp] theorem Hw.onSec_fbus (h : Hw) (f : Sec → Sec) : (h.onSec f).fbus = h.fbus := rfl
@[simp] theorem Hw.onSec_brg (h : Hw) (f : Sec → Sec) : (h.onSec f).brg = h.brg := rfl
@[simp] theorem Hw.onSec_tim (h : Hw) (f : Sec → Sec) : (h.onSec f).tim = h.tim := rfl
@[simp] theorem Hw.onSec_hdma (h : Hw) (f : Sec → Sec) : (h.onSec f).hdma = h.hdma := rfl
@[simp] theorem Hw.onSec_mbx (h : Hw) (f : Sec → Sec) : (h.onSec f).mbx = h.mbx := rfl
@[simp] theorem Hw.onSec_evq (h : Hw) (f : Sec → Sec) : (h.onSec f).evq = h.evq := rfl
@[simp] theorem Hw.onSec_own (h : Hw) (f : Sec → Sec) : (h.onSec f).own = h.own := rfl
@[simp] theorem Hw.onSec_sec (h : Hw) (f : Sec → Sec) : (h.onSec f).sec = f h.sec := rfl
@[simp] theorem Hw.onSec_mem (h : Hw) (f : Sec → Sec) : (h.onSec f).mem = h.mem := rfl
@[simp] theorem Hw.onSec_sbb (h : Hw) (f : Sec → Sec) : (h.onSec f).sbb = h.sbb := rfl
@[simp] theorem Hw.onSec_pwr (h : Hw) (f : Sec → Sec) : (h.onSec f).pwr = h.pwr := rfl
@[simp] theorem Hw.onSec_sys (h : Hw) (f : Sec → Sec) : (h.onSec f).sys = h.sys := rfl

@[simp] theorem Hw.onMem_regs (h : Hw) (f : MemSt → MemSt) : (h.onMem f).regs = h.regs := rfl
@[simp] theorem Hw.onMem_clk (h : Hw) (f : MemSt → MemSt) : (h.onMem f).clk = h.clk := rfl
@[simp] theorem Hw.onMem_free (h : Hw) (f : MemSt → MemSt) : (h.onMem f).free = h.free := rfl
@[simp] theorem Hw.onMem_out (h : Hw) (f : MemSt → MemSt) : (h.onMem f).out = h.out := rfl
@[simp] theorem Hw.onMem_tasks (h : Hw) (f : MemSt → MemSt) : (h.onMem f).tasks = h.tasks := rfl
@[simp] theorem Hw.onMem_swc (h : Hw) (f : MemSt → MemSt) : (h.onMem f).swc = h.swc := rfl
@[simp] theorem Hw.onMem_fwd (h : Hw) (f : MemSt → MemSt) : (h.onMem f).fwd = h.fwd := rfl
@[simp] theorem Hw.onMem_tss (h : Hw) (f : MemSt → MemSt) : (h.onMem f).tss = h.tss := rfl
@[simp] theorem Hw.onMem_mac (h : Hw) (f : MemSt → MemSt) : (h.onMem f).mac = h.mac := rfl
@[simp] theorem Hw.onMem_vie (h : Hw) (f : MemSt → MemSt) : (h.onMem f).vie = h.vie := rfl
@[simp] theorem Hw.onMem_fbus (h : Hw) (f : MemSt → MemSt) : (h.onMem f).fbus = h.fbus := rfl
@[simp] theorem Hw.onMem_brg (h : Hw) (f : MemSt → MemSt) : (h.onMem f).brg = h.brg := rfl
@[simp] theorem Hw.onMem_tim (h : Hw) (f : MemSt → MemSt) : (h.onMem f).tim = h.tim := rfl
@[simp] theorem Hw.onMem_hdma (h : Hw) (f : MemSt → MemSt) : (h.onMem f).hdma = h.hdma := rfl
@[simp] theorem Hw.onMem_mbx (h : Hw) (f : MemSt → MemSt) : (h.onMem f).mbx = h.mbx := rfl
@[simp] theorem Hw.onMem_evq (h : Hw) (f : MemSt → MemSt) : (h.onMem f).evq = h.evq := rfl
@[simp] theorem Hw.onMem_own (h : Hw) (f : MemSt → MemSt) : (h.onMem f).own = h.own := rfl
@[simp] theorem Hw.onMem_sec (h : Hw) (f : MemSt → MemSt) : (h.onMem f).sec = h.sec := rfl
@[simp] theorem Hw.onMem_mem (h : Hw) (f : MemSt → MemSt) : (h.onMem f).mem = f h.mem := rfl
@[simp] theorem Hw.onMem_sbb (h : Hw) (f : MemSt → MemSt) : (h.onMem f).sbb = h.sbb := rfl
@[simp] theorem Hw.onMem_pwr (h : Hw) (f : MemSt → MemSt) : (h.onMem f).pwr = h.pwr := rfl
@[simp] theorem Hw.onMem_sys (h : Hw) (f : MemSt → MemSt) : (h.onMem f).sys = h.sys := rfl

@[simp] theorem Hw.onSbb_regs (h : Hw) (f : Sbb → Sbb) : (h.onSbb f).regs = h.regs := rfl
@[simp] theorem Hw.onSbb_clk (h : Hw) (f : Sbb → Sbb) : (h.onSbb f).clk = h.clk := rfl
@[simp] theorem Hw.onSbb_free (h : Hw) (f : Sbb → Sbb) : (h.onSbb f).free = h.free := rfl
@[simp] theorem Hw.onSbb_out (h : Hw) (f : Sbb → Sbb) : (h.onSbb f).out = h.out := rfl
@[simp] theorem Hw.onSbb_tasks (h : Hw) (f : Sbb → Sbb) : (h.onSbb f).tasks = h.tasks := rfl
@[simp] theorem Hw.onSbb_swc (h : Hw) (f : Sbb → Sbb) : (h.onSbb f).swc = h.swc := rfl
@[simp] theorem Hw.onSbb_fwd (h : Hw) (f : Sbb → Sbb) : (h.onSbb f).fwd = h.fwd := rfl
@[simp] theorem Hw.onSbb_tss (h : Hw) (f : Sbb → Sbb) : (h.onSbb f).tss = h.tss := rfl
@[simp] theorem Hw.onSbb_mac (h : Hw) (f : Sbb → Sbb) : (h.onSbb f).mac = h.mac := rfl
@[simp] theorem Hw.onSbb_vie (h : Hw) (f : Sbb → Sbb) : (h.onSbb f).vie = h.vie := rfl
@[simp] theorem Hw.onSbb_fbus (h : Hw) (f : Sbb → Sbb) : (h.onSbb f).fbus = h.fbus := rfl
@[simp] theorem Hw.onSbb_brg (h : Hw) (f : Sbb → Sbb) : (h.onSbb f).brg = h.brg := rfl
@[simp] theorem Hw.onSbb_tim (h : Hw) (f : Sbb → Sbb) : (h.onSbb f).tim = h.tim := rfl
@[simp] theorem Hw.onSbb_hdma (h : Hw) (f : Sbb → Sbb) : (h.onSbb f).hdma = h.hdma := rfl
@[simp] theorem Hw.onSbb_mbx (h : Hw) (f : Sbb → Sbb) : (h.onSbb f).mbx = h.mbx := rfl
@[simp] theorem Hw.onSbb_evq (h : Hw) (f : Sbb → Sbb) : (h.onSbb f).evq = h.evq := rfl
@[simp] theorem Hw.onSbb_own (h : Hw) (f : Sbb → Sbb) : (h.onSbb f).own = h.own := rfl
@[simp] theorem Hw.onSbb_sec (h : Hw) (f : Sbb → Sbb) : (h.onSbb f).sec = h.sec := rfl
@[simp] theorem Hw.onSbb_mem (h : Hw) (f : Sbb → Sbb) : (h.onSbb f).mem = h.mem := rfl
@[simp] theorem Hw.onSbb_sbb (h : Hw) (f : Sbb → Sbb) : (h.onSbb f).sbb = f h.sbb := rfl
@[simp] theorem Hw.onSbb_pwr (h : Hw) (f : Sbb → Sbb) : (h.onSbb f).pwr = h.pwr := rfl
@[simp] theorem Hw.onSbb_sys (h : Hw) (f : Sbb → Sbb) : (h.onSbb f).sys = h.sys := rfl

@[simp] theorem Hw.onPwr_regs (h : Hw) (f : PwrSt → PwrSt) : (h.onPwr f).regs = h.regs := rfl
@[simp] theorem Hw.onPwr_clk (h : Hw) (f : PwrSt → PwrSt) : (h.onPwr f).clk = h.clk := rfl
@[simp] theorem Hw.onPwr_free (h : Hw) (f : PwrSt → PwrSt) : (h.onPwr f).free = h.free := rfl
@[simp] theorem Hw.onPwr_out (h : Hw) (f : PwrSt → PwrSt) : (h.onPwr f).out = h.out := rfl
@[simp] theorem Hw.onPwr_tasks (h : Hw) (f : PwrSt → PwrSt) : (h.onPwr f).tasks = h.tasks := rfl
@[simp] theorem Hw.onPwr_swc (h : Hw) (f : PwrSt → PwrSt) : (h.onPwr f).swc = h.swc := rfl
@[simp] theorem Hw.onPwr_fwd (h : Hw) (f : PwrSt → PwrSt) : (h.onPwr f).fwd = h.fwd := rfl
@[simp] theorem Hw.onPwr_tss (h : Hw) (f : PwrSt → PwrSt) : (h.onPwr f).tss = h.tss := rfl
@[simp] theorem Hw.onPwr_mac (h : Hw) (f : PwrSt → PwrSt) : (h.onPwr f).mac = h.mac := rfl
@[simp] theorem Hw.onPwr_vie (h : Hw) (f : PwrSt → PwrSt) : (h.onPwr f).vie = h.vie := rfl
@[simp] theorem Hw.onPwr_fbus (h : Hw) (f : PwrSt → PwrSt) : (h.onPwr f).fbus = h.fbus := rfl
@[simp] theorem Hw.onPwr_brg (h : Hw) (f : PwrSt → PwrSt) : (h.onPwr f).brg = h.brg := rfl
@[simp] theorem Hw.onPwr_tim (h : Hw) (f : PwrSt → PwrSt) : (h.onPwr f).tim = h.tim := rfl
@[simp] theorem Hw.onPwr_hdma (h : Hw) (f : PwrSt → PwrSt) : (h.onPwr f).hdma = h.hdma := rfl
@[simp] theorem Hw.onPwr_mbx (h : Hw) (f : PwrSt → PwrSt) : (h.onPwr f).mbx = h.mbx := rfl
@[simp] theorem Hw.onPwr_evq (h : Hw) (f : PwrSt → PwrSt) : (h.onPwr f).evq = h.evq := rfl
@[simp] theorem Hw.onPwr_own (h : Hw) (f : PwrSt → PwrSt) : (h.onPwr f).own = h.own := rfl
@[simp] theorem Hw.onPwr_sec (h : Hw) (f : PwrSt → PwrSt) : (h.onPwr f).sec = h.sec := rfl
@[simp] theorem Hw.onPwr_mem (h : Hw) (f : PwrSt → PwrSt) : (h.onPwr f).mem = h.mem := rfl
@[simp] theorem Hw.onPwr_sbb (h : Hw) (f : PwrSt → PwrSt) : (h.onPwr f).sbb = h.sbb := rfl
@[simp] theorem Hw.onPwr_pwr (h : Hw) (f : PwrSt → PwrSt) : (h.onPwr f).pwr = f h.pwr := rfl
@[simp] theorem Hw.onPwr_sys (h : Hw) (f : PwrSt → PwrSt) : (h.onPwr f).sys = h.sys := rfl

@[simp] theorem Hw.wr_clk (h : Hw) (r : Nat) (v : Word) : (h.wr r v).clk = h.clk := rfl
@[simp] theorem Hw.wr_free (h : Hw) (r : Nat) (v : Word) : (h.wr r v).free = h.free := rfl
@[simp] theorem Hw.wr_out (h : Hw) (r : Nat) (v : Word) : (h.wr r v).out = h.out := rfl
@[simp] theorem Hw.wr_tasks (h : Hw) (r : Nat) (v : Word) : (h.wr r v).tasks = h.tasks := rfl
@[simp] theorem Hw.wr_swc (h : Hw) (r : Nat) (v : Word) : (h.wr r v).swc = h.swc := rfl
@[simp] theorem Hw.wr_fwd (h : Hw) (r : Nat) (v : Word) : (h.wr r v).fwd = h.fwd := rfl
@[simp] theorem Hw.wr_tss (h : Hw) (r : Nat) (v : Word) : (h.wr r v).tss = h.tss := rfl
@[simp] theorem Hw.wr_mac (h : Hw) (r : Nat) (v : Word) : (h.wr r v).mac = h.mac := rfl
@[simp] theorem Hw.wr_vie (h : Hw) (r : Nat) (v : Word) : (h.wr r v).vie = h.vie := rfl
@[simp] theorem Hw.wr_fbus (h : Hw) (r : Nat) (v : Word) : (h.wr r v).fbus = h.fbus := rfl
@[simp] theorem Hw.wr_brg (h : Hw) (r : Nat) (v : Word) : (h.wr r v).brg = h.brg := rfl
@[simp] theorem Hw.wr_tim (h : Hw) (r : Nat) (v : Word) : (h.wr r v).tim = h.tim := rfl
@[simp] theorem Hw.wr_hdma (h : Hw) (r : Nat) (v : Word) : (h.wr r v).hdma = h.hdma := rfl
@[simp] theorem Hw.wr_mbx (h : Hw) (r : Nat) (v : Word) : (h.wr r v).mbx = h.mbx := rfl
@[simp] theorem Hw.wr_evq (h : Hw) (r : Nat) (v : Word) : (h.wr r v).evq = h.evq := rfl
@[simp] theorem Hw.wr_own (h : Hw) (r : Nat) (v : Word) : (h.wr r v).own = h.own := rfl
@[simp] theorem Hw.wr_sec (h : Hw) (r : Nat) (v : Word) : (h.wr r v).sec = h.sec := rfl
@[simp] theorem Hw.wr_mem (h : Hw) (r : Nat) (v : Word) : (h.wr r v).mem = h.mem := rfl
@[simp] theorem Hw.wr_sbb (h : Hw) (r : Nat) (v : Word) : (h.wr r v).sbb = h.sbb := rfl
@[simp] theorem Hw.wr_pwr (h : Hw) (r : Nat) (v : Word) : (h.wr r v).pwr = h.pwr := rfl
@[simp] theorem Hw.wr_sys (h : Hw) (r : Nat) (v : Word) : (h.wr r v).sys = h.sys := rfl

@[simp] theorem Hw.wn_clk (h : Hw) (r n : Nat) : (h.wn r n).clk = h.clk := rfl
@[simp] theorem Hw.wn_free (h : Hw) (r n : Nat) : (h.wn r n).free = h.free := rfl
@[simp] theorem Hw.wn_out (h : Hw) (r n : Nat) : (h.wn r n).out = h.out := rfl
@[simp] theorem Hw.wn_tasks (h : Hw) (r n : Nat) : (h.wn r n).tasks = h.tasks := rfl
@[simp] theorem Hw.wn_swc (h : Hw) (r n : Nat) : (h.wn r n).swc = h.swc := rfl
@[simp] theorem Hw.wn_fwd (h : Hw) (r n : Nat) : (h.wn r n).fwd = h.fwd := rfl
@[simp] theorem Hw.wn_tss (h : Hw) (r n : Nat) : (h.wn r n).tss = h.tss := rfl
@[simp] theorem Hw.wn_mac (h : Hw) (r n : Nat) : (h.wn r n).mac = h.mac := rfl
@[simp] theorem Hw.wn_vie (h : Hw) (r n : Nat) : (h.wn r n).vie = h.vie := rfl
@[simp] theorem Hw.wn_fbus (h : Hw) (r n : Nat) : (h.wn r n).fbus = h.fbus := rfl
@[simp] theorem Hw.wn_brg (h : Hw) (r n : Nat) : (h.wn r n).brg = h.brg := rfl
@[simp] theorem Hw.wn_tim (h : Hw) (r n : Nat) : (h.wn r n).tim = h.tim := rfl
@[simp] theorem Hw.wn_hdma (h : Hw) (r n : Nat) : (h.wn r n).hdma = h.hdma := rfl
@[simp] theorem Hw.wn_mbx (h : Hw) (r n : Nat) : (h.wn r n).mbx = h.mbx := rfl
@[simp] theorem Hw.wn_evq (h : Hw) (r n : Nat) : (h.wn r n).evq = h.evq := rfl
@[simp] theorem Hw.wn_own (h : Hw) (r n : Nat) : (h.wn r n).own = h.own := rfl
@[simp] theorem Hw.wn_sec (h : Hw) (r n : Nat) : (h.wn r n).sec = h.sec := rfl
@[simp] theorem Hw.wn_mem (h : Hw) (r n : Nat) : (h.wn r n).mem = h.mem := rfl
@[simp] theorem Hw.wn_sbb (h : Hw) (r n : Nat) : (h.wn r n).sbb = h.sbb := rfl
@[simp] theorem Hw.wn_pwr (h : Hw) (r n : Nat) : (h.wn r n).pwr = h.pwr := rfl
@[simp] theorem Hw.wn_sys (h : Hw) (r n : Nat) : (h.wn r n).sys = h.sys := rfl

@[simp] theorem Hw.setFld_clk (h : Hw) (r : Nat) (f : Field) (v : Nat) : (h.setFld r f v).clk = h.clk := rfl
@[simp] theorem Hw.setFld_free (h : Hw) (r : Nat) (f : Field) (v : Nat) : (h.setFld r f v).free = h.free := rfl
@[simp] theorem Hw.setFld_out (h : Hw) (r : Nat) (f : Field) (v : Nat) : (h.setFld r f v).out = h.out := rfl
@[simp] theorem Hw.setFld_tasks (h : Hw) (r : Nat) (f : Field) (v : Nat) : (h.setFld r f v).tasks = h.tasks := rfl
@[simp] theorem Hw.setFld_swc (h : Hw) (r : Nat) (f : Field) (v : Nat) : (h.setFld r f v).swc = h.swc := rfl
@[simp] theorem Hw.setFld_fwd (h : Hw) (r : Nat) (f : Field) (v : Nat) : (h.setFld r f v).fwd = h.fwd := rfl
@[simp] theorem Hw.setFld_tss (h : Hw) (r : Nat) (f : Field) (v : Nat) : (h.setFld r f v).tss = h.tss := rfl
@[simp] theorem Hw.setFld_mac (h : Hw) (r : Nat) (f : Field) (v : Nat) : (h.setFld r f v).mac = h.mac := rfl
@[simp] theorem Hw.setFld_vie (h : Hw) (r : Nat) (f : Field) (v : Nat) : (h.setFld r f v).vie = h.vie := rfl
@[simp] theorem Hw.setFld_fbus (h : Hw) (r : Nat) (f : Field) (v : Nat) : (h.setFld r f v).fbus = h.fbus := rfl
@[simp] theorem Hw.setFld_brg (h : Hw) (r : Nat) (f : Field) (v : Nat) : (h.setFld r f v).brg = h.brg := rfl
@[simp] theorem Hw.setFld_tim (h : Hw) (r : Nat) (f : Field) (v : Nat) : (h.setFld r f v).tim = h.tim := rfl
@[simp] theorem Hw.setFld_hdma (h : Hw) (r : Nat) (f : Field) (v : Nat) : (h.setFld r f v).hdma = h.hdma := rfl
@[simp] theorem Hw.setFld_mbx (h : Hw) (r : Nat) (f : Field) (v : Nat) : (h.setFld r f v).mbx = h.mbx := rfl
@[simp] theorem Hw.setFld_evq (h : Hw) (r : Nat) (f : Field) (v : Nat) : (h.setFld r f v).evq = h.evq := rfl
@[simp] theorem Hw.setFld_own (h : Hw) (r : Nat) (f : Field) (v : Nat) : (h.setFld r f v).own = h.own := rfl
@[simp] theorem Hw.setFld_sec (h : Hw) (r : Nat) (f : Field) (v : Nat) : (h.setFld r f v).sec = h.sec := rfl
@[simp] theorem Hw.setFld_mem (h : Hw) (r : Nat) (f : Field) (v : Nat) : (h.setFld r f v).mem = h.mem := rfl
@[simp] theorem Hw.setFld_sbb (h : Hw) (r : Nat) (f : Field) (v : Nat) : (h.setFld r f v).sbb = h.sbb := rfl
@[simp] theorem Hw.setFld_pwr (h : Hw) (r : Nat) (f : Field) (v : Nat) : (h.setFld r f v).pwr = h.pwr := rfl
@[simp] theorem Hw.setFld_sys (h : Hw) (r : Nat) (f : Field) (v : Nat) : (h.setFld r f v).sys = h.sys := rfl

@[simp] theorem Hw.add_clk (h : Hw) (r n : Nat) : (h.add r n).clk = h.clk := rfl
@[simp] theorem Hw.add_free (h : Hw) (r n : Nat) : (h.add r n).free = h.free := rfl
@[simp] theorem Hw.add_out (h : Hw) (r n : Nat) : (h.add r n).out = h.out := rfl
@[simp] theorem Hw.add_tasks (h : Hw) (r n : Nat) : (h.add r n).tasks = h.tasks := rfl
@[simp] theorem Hw.add_swc (h : Hw) (r n : Nat) : (h.add r n).swc = h.swc := rfl
@[simp] theorem Hw.add_fwd (h : Hw) (r n : Nat) : (h.add r n).fwd = h.fwd := rfl
@[simp] theorem Hw.add_tss (h : Hw) (r n : Nat) : (h.add r n).tss = h.tss := rfl
@[simp] theorem Hw.add_mac (h : Hw) (r n : Nat) : (h.add r n).mac = h.mac := rfl
@[simp] theorem Hw.add_vie (h : Hw) (r n : Nat) : (h.add r n).vie = h.vie := rfl
@[simp] theorem Hw.add_fbus (h : Hw) (r n : Nat) : (h.add r n).fbus = h.fbus := rfl
@[simp] theorem Hw.add_brg (h : Hw) (r n : Nat) : (h.add r n).brg = h.brg := rfl
@[simp] theorem Hw.add_tim (h : Hw) (r n : Nat) : (h.add r n).tim = h.tim := rfl
@[simp] theorem Hw.add_hdma (h : Hw) (r n : Nat) : (h.add r n).hdma = h.hdma := rfl
@[simp] theorem Hw.add_mbx (h : Hw) (r n : Nat) : (h.add r n).mbx = h.mbx := rfl
@[simp] theorem Hw.add_evq (h : Hw) (r n : Nat) : (h.add r n).evq = h.evq := rfl
@[simp] theorem Hw.add_own (h : Hw) (r n : Nat) : (h.add r n).own = h.own := rfl
@[simp] theorem Hw.add_sec (h : Hw) (r n : Nat) : (h.add r n).sec = h.sec := rfl
@[simp] theorem Hw.add_mem (h : Hw) (r n : Nat) : (h.add r n).mem = h.mem := rfl
@[simp] theorem Hw.add_sbb (h : Hw) (r n : Nat) : (h.add r n).sbb = h.sbb := rfl
@[simp] theorem Hw.add_pwr (h : Hw) (r n : Nat) : (h.add r n).pwr = h.pwr := rfl
@[simp] theorem Hw.add_sys (h : Hw) (r n : Nat) : (h.add r n).sys = h.sys := rfl

@[simp] theorem Hw.inc_clk (h : Hw) (r : Nat) : (h.inc r).clk = h.clk := rfl
@[simp] theorem Hw.inc_free (h : Hw) (r : Nat) : (h.inc r).free = h.free := rfl
@[simp] theorem Hw.inc_out (h : Hw) (r : Nat) : (h.inc r).out = h.out := rfl
@[simp] theorem Hw.inc_tasks (h : Hw) (r : Nat) : (h.inc r).tasks = h.tasks := rfl
@[simp] theorem Hw.inc_swc (h : Hw) (r : Nat) : (h.inc r).swc = h.swc := rfl
@[simp] theorem Hw.inc_fwd (h : Hw) (r : Nat) : (h.inc r).fwd = h.fwd := rfl
@[simp] theorem Hw.inc_tss (h : Hw) (r : Nat) : (h.inc r).tss = h.tss := rfl
@[simp] theorem Hw.inc_mac (h : Hw) (r : Nat) : (h.inc r).mac = h.mac := rfl
@[simp] theorem Hw.inc_vie (h : Hw) (r : Nat) : (h.inc r).vie = h.vie := rfl
@[simp] theorem Hw.inc_fbus (h : Hw) (r : Nat) : (h.inc r).fbus = h.fbus := rfl
@[simp] theorem Hw.inc_brg (h : Hw) (r : Nat) : (h.inc r).brg = h.brg := rfl
@[simp] theorem Hw.inc_tim (h : Hw) (r : Nat) : (h.inc r).tim = h.tim := rfl
@[simp] theorem Hw.inc_hdma (h : Hw) (r : Nat) : (h.inc r).hdma = h.hdma := rfl
@[simp] theorem Hw.inc_mbx (h : Hw) (r : Nat) : (h.inc r).mbx = h.mbx := rfl
@[simp] theorem Hw.inc_evq (h : Hw) (r : Nat) : (h.inc r).evq = h.evq := rfl
@[simp] theorem Hw.inc_own (h : Hw) (r : Nat) : (h.inc r).own = h.own := rfl
@[simp] theorem Hw.inc_sec (h : Hw) (r : Nat) : (h.inc r).sec = h.sec := rfl
@[simp] theorem Hw.inc_mem (h : Hw) (r : Nat) : (h.inc r).mem = h.mem := rfl
@[simp] theorem Hw.inc_sbb (h : Hw) (r : Nat) : (h.inc r).sbb = h.sbb := rfl
@[simp] theorem Hw.inc_pwr (h : Hw) (r : Nat) : (h.inc r).pwr = h.pwr := rfl
@[simp] theorem Hw.inc_sys (h : Hw) (r : Nat) : (h.inc r).sys = h.sys := rfl

@[simp] theorem Hw.clr_clk (h : Hw) (r : Nat) : (h.clr r).clk = h.clk := rfl
@[simp] theorem Hw.clr_free (h : Hw) (r : Nat) : (h.clr r).free = h.free := rfl
@[simp] theorem Hw.clr_out (h : Hw) (r : Nat) : (h.clr r).out = h.out := rfl
@[simp] theorem Hw.clr_tasks (h : Hw) (r : Nat) : (h.clr r).tasks = h.tasks := rfl
@[simp] theorem Hw.clr_swc (h : Hw) (r : Nat) : (h.clr r).swc = h.swc := rfl
@[simp] theorem Hw.clr_fwd (h : Hw) (r : Nat) : (h.clr r).fwd = h.fwd := rfl
@[simp] theorem Hw.clr_tss (h : Hw) (r : Nat) : (h.clr r).tss = h.tss := rfl
@[simp] theorem Hw.clr_mac (h : Hw) (r : Nat) : (h.clr r).mac = h.mac := rfl
@[simp] theorem Hw.clr_vie (h : Hw) (r : Nat) : (h.clr r).vie = h.vie := rfl
@[simp] theorem Hw.clr_fbus (h : Hw) (r : Nat) : (h.clr r).fbus = h.fbus := rfl
@[simp] theorem Hw.clr_brg (h : Hw) (r : Nat) : (h.clr r).brg = h.brg := rfl
@[simp] theorem Hw.clr_tim (h : Hw) (r : Nat) : (h.clr r).tim = h.tim := rfl
@[simp] theorem Hw.clr_hdma (h : Hw) (r : Nat) : (h.clr r).hdma = h.hdma := rfl
@[simp] theorem Hw.clr_mbx (h : Hw) (r : Nat) : (h.clr r).mbx = h.mbx := rfl
@[simp] theorem Hw.clr_evq (h : Hw) (r : Nat) : (h.clr r).evq = h.evq := rfl
@[simp] theorem Hw.clr_own (h : Hw) (r : Nat) : (h.clr r).own = h.own := rfl
@[simp] theorem Hw.clr_sec (h : Hw) (r : Nat) : (h.clr r).sec = h.sec := rfl
@[simp] theorem Hw.clr_mem (h : Hw) (r : Nat) : (h.clr r).mem = h.mem := rfl
@[simp] theorem Hw.clr_sbb (h : Hw) (r : Nat) : (h.clr r).sbb = h.sbb := rfl
@[simp] theorem Hw.clr_pwr (h : Hw) (r : Nat) : (h.clr r).pwr = h.pwr := rfl
@[simp] theorem Hw.clr_sys (h : Hw) (r : Nat) : (h.clr r).sys = h.sys := rfl

@[simp] theorem Hw.clrWhere_clk (h : Hw) (p : Nat → Bool) : (h.clrWhere p).clk = h.clk := rfl
@[simp] theorem Hw.clrWhere_free (h : Hw) (p : Nat → Bool) : (h.clrWhere p).free = h.free := rfl
@[simp] theorem Hw.clrWhere_out (h : Hw) (p : Nat → Bool) : (h.clrWhere p).out = h.out := rfl
@[simp] theorem Hw.clrWhere_tasks (h : Hw) (p : Nat → Bool) : (h.clrWhere p).tasks = h.tasks := rfl
@[simp] theorem Hw.clrWhere_swc (h : Hw) (p : Nat → Bool) : (h.clrWhere p).swc = h.swc := rfl
@[simp] theorem Hw.clrWhere_fwd (h : Hw) (p : Nat → Bool) : (h.clrWhere p).fwd = h.fwd := rfl
@[simp] theorem Hw.clrWhere_tss (h : Hw) (p : Nat → Bool) : (h.clrWhere p).tss = h.tss := rfl
@[simp] theorem Hw.clrWhere_mac (h : Hw) (p : Nat → Bool) : (h.clrWhere p).mac = h.mac := rfl
@[simp] theorem Hw.clrWhere_vie (h : Hw) (p : Nat → Bool) : (h.clrWhere p).vie = h.vie := rfl
@[simp] theorem Hw.clrWhere_fbus (h : Hw) (p : Nat → Bool) : (h.clrWhere p).fbus = h.fbus := rfl
@[simp] theorem Hw.clrWhere_brg (h : Hw) (p : Nat → Bool) : (h.clrWhere p).brg = h.brg := rfl
@[simp] theorem Hw.clrWhere_tim (h : Hw) (p : Nat → Bool) : (h.clrWhere p).tim = h.tim := rfl
@[simp] theorem Hw.clrWhere_hdma (h : Hw) (p : Nat → Bool) : (h.clrWhere p).hdma = h.hdma := rfl
@[simp] theorem Hw.clrWhere_mbx (h : Hw) (p : Nat → Bool) : (h.clrWhere p).mbx = h.mbx := rfl
@[simp] theorem Hw.clrWhere_evq (h : Hw) (p : Nat → Bool) : (h.clrWhere p).evq = h.evq := rfl
@[simp] theorem Hw.clrWhere_own (h : Hw) (p : Nat → Bool) : (h.clrWhere p).own = h.own := rfl
@[simp] theorem Hw.clrWhere_sec (h : Hw) (p : Nat → Bool) : (h.clrWhere p).sec = h.sec := rfl
@[simp] theorem Hw.clrWhere_mem (h : Hw) (p : Nat → Bool) : (h.clrWhere p).mem = h.mem := rfl
@[simp] theorem Hw.clrWhere_sbb (h : Hw) (p : Nat → Bool) : (h.clrWhere p).sbb = h.sbb := rfl
@[simp] theorem Hw.clrWhere_pwr (h : Hw) (p : Nat → Bool) : (h.clrWhere p).pwr = h.pwr := rfl
@[simp] theorem Hw.clrWhere_sys (h : Hw) (p : Nat → Bool) : (h.clrWhere p).sys = h.sys := rfl

@[simp] theorem Hw.image_clk (h : Hw) (r m v : Nat) : (h.image r m v).clk = h.clk := rfl
@[simp] theorem Hw.image_free (h : Hw) (r m v : Nat) : (h.image r m v).free = h.free := rfl
@[simp] theorem Hw.image_out (h : Hw) (r m v : Nat) : (h.image r m v).out = h.out := rfl
@[simp] theorem Hw.image_tasks (h : Hw) (r m v : Nat) : (h.image r m v).tasks = h.tasks := rfl
@[simp] theorem Hw.image_swc (h : Hw) (r m v : Nat) : (h.image r m v).swc = h.swc := rfl
@[simp] theorem Hw.image_fwd (h : Hw) (r m v : Nat) : (h.image r m v).fwd = h.fwd := rfl
@[simp] theorem Hw.image_tss (h : Hw) (r m v : Nat) : (h.image r m v).tss = h.tss := rfl
@[simp] theorem Hw.image_mac (h : Hw) (r m v : Nat) : (h.image r m v).mac = h.mac := rfl
@[simp] theorem Hw.image_vie (h : Hw) (r m v : Nat) : (h.image r m v).vie = h.vie := rfl
@[simp] theorem Hw.image_fbus (h : Hw) (r m v : Nat) : (h.image r m v).fbus = h.fbus := rfl
@[simp] theorem Hw.image_brg (h : Hw) (r m v : Nat) : (h.image r m v).brg = h.brg := rfl
@[simp] theorem Hw.image_tim (h : Hw) (r m v : Nat) : (h.image r m v).tim = h.tim := rfl
@[simp] theorem Hw.image_hdma (h : Hw) (r m v : Nat) : (h.image r m v).hdma = h.hdma := rfl
@[simp] theorem Hw.image_mbx (h : Hw) (r m v : Nat) : (h.image r m v).mbx = h.mbx := rfl
@[simp] theorem Hw.image_evq (h : Hw) (r m v : Nat) : (h.image r m v).evq = h.evq := rfl
@[simp] theorem Hw.image_own (h : Hw) (r m v : Nat) : (h.image r m v).own = h.own := rfl
@[simp] theorem Hw.image_sec (h : Hw) (r m v : Nat) : (h.image r m v).sec = h.sec := rfl
@[simp] theorem Hw.image_mem (h : Hw) (r m v : Nat) : (h.image r m v).mem = h.mem := rfl
@[simp] theorem Hw.image_sbb (h : Hw) (r m v : Nat) : (h.image r m v).sbb = h.sbb := rfl
@[simp] theorem Hw.image_pwr (h : Hw) (r m v : Nat) : (h.image r m v).pwr = h.pwr := rfl
@[simp] theorem Hw.image_sys (h : Hw) (r m v : Nat) : (h.image r m v).sys = h.sys := rfl

@[simp] theorem Hw.emit_regs (h : Hw) (o : Output) : (h.emit o).regs = h.regs := rfl
@[simp] theorem Hw.emit_clk (h : Hw) (o : Output) : (h.emit o).clk = h.clk := rfl
@[simp] theorem Hw.emit_free (h : Hw) (o : Output) : (h.emit o).free = h.free := rfl
@[simp] theorem Hw.emit_out (h : Hw) (o : Output) : (h.emit o).out = o :: h.out := rfl
@[simp] theorem Hw.emit_tasks (h : Hw) (o : Output) : (h.emit o).tasks = h.tasks := rfl
@[simp] theorem Hw.emit_swc (h : Hw) (o : Output) : (h.emit o).swc = h.swc := rfl
@[simp] theorem Hw.emit_fwd (h : Hw) (o : Output) : (h.emit o).fwd = h.fwd := rfl
@[simp] theorem Hw.emit_tss (h : Hw) (o : Output) : (h.emit o).tss = h.tss := rfl
@[simp] theorem Hw.emit_mac (h : Hw) (o : Output) : (h.emit o).mac = h.mac := rfl
@[simp] theorem Hw.emit_vie (h : Hw) (o : Output) : (h.emit o).vie = h.vie := rfl
@[simp] theorem Hw.emit_fbus (h : Hw) (o : Output) : (h.emit o).fbus = h.fbus := rfl
@[simp] theorem Hw.emit_brg (h : Hw) (o : Output) : (h.emit o).brg = h.brg := rfl
@[simp] theorem Hw.emit_tim (h : Hw) (o : Output) : (h.emit o).tim = h.tim := rfl
@[simp] theorem Hw.emit_hdma (h : Hw) (o : Output) : (h.emit o).hdma = h.hdma := rfl
@[simp] theorem Hw.emit_mbx (h : Hw) (o : Output) : (h.emit o).mbx = h.mbx := rfl
@[simp] theorem Hw.emit_evq (h : Hw) (o : Output) : (h.emit o).evq = h.evq := rfl
@[simp] theorem Hw.emit_own (h : Hw) (o : Output) : (h.emit o).own = h.own := rfl
@[simp] theorem Hw.emit_sec (h : Hw) (o : Output) : (h.emit o).sec = h.sec := rfl
@[simp] theorem Hw.emit_mem (h : Hw) (o : Output) : (h.emit o).mem = h.mem := rfl
@[simp] theorem Hw.emit_sbb (h : Hw) (o : Output) : (h.emit o).sbb = h.sbb := rfl
@[simp] theorem Hw.emit_pwr (h : Hw) (o : Output) : (h.emit o).pwr = h.pwr := rfl
@[simp] theorem Hw.emit_sys (h : Hw) (o : Output) : (h.emit o).sys = h.sys := rfl

@[simp] theorem Hw.drawn_regs (h : Hw) : (h.drawn).regs = h.regs := rfl
@[simp] theorem Hw.drawn_clk (h : Hw) : (h.drawn).clk = h.clk := rfl
@[simp] theorem Hw.drawn_free (h : Hw) : (h.drawn).free = h.free + 1 := rfl
@[simp] theorem Hw.drawn_out (h : Hw) : (h.drawn).out = h.out := rfl
@[simp] theorem Hw.drawn_tasks (h : Hw) : (h.drawn).tasks = h.tasks := rfl
@[simp] theorem Hw.drawn_swc (h : Hw) : (h.drawn).swc = h.swc := rfl
@[simp] theorem Hw.drawn_fwd (h : Hw) : (h.drawn).fwd = h.fwd := rfl
@[simp] theorem Hw.drawn_tss (h : Hw) : (h.drawn).tss = h.tss := rfl
@[simp] theorem Hw.drawn_mac (h : Hw) : (h.drawn).mac = h.mac := rfl
@[simp] theorem Hw.drawn_vie (h : Hw) : (h.drawn).vie = h.vie := rfl
@[simp] theorem Hw.drawn_fbus (h : Hw) : (h.drawn).fbus = h.fbus := rfl
@[simp] theorem Hw.drawn_brg (h : Hw) : (h.drawn).brg = h.brg := rfl
@[simp] theorem Hw.drawn_tim (h : Hw) : (h.drawn).tim = h.tim := rfl
@[simp] theorem Hw.drawn_hdma (h : Hw) : (h.drawn).hdma = h.hdma := rfl
@[simp] theorem Hw.drawn_mbx (h : Hw) : (h.drawn).mbx = h.mbx := rfl
@[simp] theorem Hw.drawn_evq (h : Hw) : (h.drawn).evq = h.evq := rfl
@[simp] theorem Hw.drawn_own (h : Hw) : (h.drawn).own = h.own := rfl
@[simp] theorem Hw.drawn_sec (h : Hw) : (h.drawn).sec = h.sec := rfl
@[simp] theorem Hw.drawn_mem (h : Hw) : (h.drawn).mem = h.mem := rfl
@[simp] theorem Hw.drawn_sbb (h : Hw) : (h.drawn).sbb = h.sbb := rfl
@[simp] theorem Hw.drawn_pwr (h : Hw) : (h.drawn).pwr = h.pwr := rfl
@[simp] theorem Hw.drawn_sys (h : Hw) : (h.drawn).sys = h.sys := rfl

end Sys2Proof.Machine
end

