-- ==== Sys2Proof/Laws/Ops.lean ====
section
/-!
SUPPORT. Laws of the shared operations: maps, fields of a word, registers, event records, readiness, the lifting of an effect.
-/
namespace Sys2Proof.Machine

/-! ### Maps -/

section
variable {β : Type}

@[simp] theorem kvGet_kvPut_same (m : Kv β) (i : Nat) (v : β) : kvGet (kvPut m i v) i = some v := by
  induction m with
  | nil => simp [kvPut, kvGet]
  | cons e m ih =>
    obtain ⟨k, w⟩ := e
    unfold kvPut
    split
    · simp [kvGet]
    · split
      · simp [kvGet]
      · next h1 h2 => simp [kvGet, h2, ih]

theorem kvGet_kvPut_ne (m : Kv β) {i j : Nat} (v : β) (h : j ≠ i) : kvGet (kvPut m i v) j = kvGet m j := by
  induction m with
  | nil => simp [kvPut, kvGet, h]
  | cons e m ih =>
    obtain ⟨k, w⟩ := e
    unfold kvPut
    split
    · simp [kvGet, h]
    · split
      · next h1 h2 => subst h2; simp [kvGet, h]
      · simp only [kvGet, ih]

@[simp] theorem kvGet_kvDel_same (m : Kv β) (i : Nat) : kvGet (kvDel m i) i = none := by
  induction m with
  | nil => rfl
  | cons e m ih =>
    obtain ⟨k, w⟩ := e
    by_cases h : k = i
    · simpa [kvDel, h] using ih
    · have : (k != i) = true := by simpa using h
      simp only [kvDel, List.filter, this, kvGet] at ih ⊢
      rw [if_neg (Ne.symm h)]; exact ih

theorem kvGet_kvDel_ne (m : Kv β) {i j : Nat} (h : j ≠ i) : kvGet (kvDel m i) j = kvGet m j := by
  induction m with
  | nil => rfl
  | cons e m ih =>
    obtain ⟨k, w⟩ := e
    by_cases hk : k = i
    · have : (k != i) = false := by simpa using hk
      simp only [kvDel, List.filter, this, kvGet] at ih ⊢
      rw [if_neg (by omega)]; exact ih
    · have : (k != i) = true := by simpa using hk
      simp only [kvDel, List.filter, this, kvGet] at ih ⊢
      split
      · rfl
      · exact ih

@[simp] theorem kvGetD_kvPut_same (m : Kv β) (i : Nat) (v d : β) : kvGetD (kvPut m i v) i d = v := by simp [kvGetD]

theorem kvGetD_kvPut_ne (m : Kv β) {i j : Nat} (v d : β) (h : j ≠ i) : kvGetD (kvPut m i v) j d = kvGetD m j d := by
  simp [kvGetD, kvGet_kvPut_ne m v h]

@[simp] theorem kvGetD_kvDel_same (m : Kv β) (i : Nat) (d : β) : kvGetD (kvDel m i) i d = d := by simp [kvGetD]

@[simp] theorem kvGetD_kvMod_same (m : Kv β) (i : Nat) (d : β) (f : β → β) : kvGetD (kvMod m i d f) i d = f (kvGetD m i d) := by
  simp [kvMod]

/-- A filter that keeps a key keeps its value. -/
theorem kvGet_filter_keep (m : Kv β) (p : Nat → Bool) (i : Nat) (h : p i = true) :
    kvGet (m.filter (fun e => p e.1)) i = kvGet m i := by
  induction m with
  | nil => rfl
  | cons e m ih =>
    obtain ⟨k, w⟩ := e
    by_cases hk : p k = true
    · simp only [List.filter, hk, kvGet, ih]
    · have hk' : p k = false := by simpa using hk
      have : i ≠ k := fun e => hk (e ▸ h)
      simp only [List.filter, hk', kvGet, ih, if_neg this]

/-- A filter that drops a key leaves none. -/
theorem kvGet_filter_drop (m : Kv β) (p : Nat → Bool) (i : Nat) (h : p i = false) :
    kvGet (m.filter (fun e => p e.1)) i = none := by
  induction m with
  | nil => rfl
  | cons e m ih =>
    obtain ⟨k, w⟩ := e
    by_cases hk : p k = true
    · have : i ≠ k := fun e => by rw [e] at h; simp [h] at hk
      simp only [List.filter, hk, kvGet, ih, if_neg this]
    · have hk' : p k = false := by simpa using hk
      simp only [List.filter, hk', ih]

end

/-! ### Fields of a word -/

/-- A bit of a word with a field replaced. -/
theorem testBit_putF (w v i : Nat) (f : Field) (hf : f.lo ≤ f.hi) :
    (putF w f v).testBit i = if f.lo ≤ i ∧ i ≤ f.hi then v.testBit (i - f.lo) else w.testBit i := by
  obtain ⟨hi, lo⟩ := f
  simp only at hf
  unfold putF
  simp only
  have e1 : v % 2 ^ (hi + 1 - lo) * 2 ^ lo + w % 2 ^ lo < 2 ^ (hi + 1) := by
    have a1 : v % 2 ^ (hi + 1 - lo) < 2 ^ (hi + 1 - lo) := Nat.mod_lt _ (by positivity)
    have a2 : w % 2 ^ lo < 2 ^ lo := Nat.mod_lt _ (by positivity)
    have a3 : 2 ^ (hi + 1) = 2 ^ (hi + 1 - lo) * 2 ^ lo := by rw [← Nat.pow_add]; congr 1; omega
    have a4 : v % 2 ^ (hi + 1 - lo) * 2 ^ lo + 2 ^ lo ≤ 2 ^ (hi + 1 - lo) * 2 ^ lo := by
      have := Nat.mul_le_mul_right (2 ^ lo) (Nat.succ_le_of_lt a1)
      rwa [Nat.succ_mul] at this
    omega
  have e2 : w / 2 ^ (hi + 1) * 2 ^ (hi + 1) + v % 2 ^ (hi + 1 - lo) * 2 ^ lo + w % 2 ^ lo
      = 2 ^ (hi + 1) * (w / 2 ^ (hi + 1)) + (2 ^ lo * (v % 2 ^ (hi + 1 - lo)) + w % 2 ^ lo) := by ring
  rw [e2, Nat.testBit_two_pow_mul_add _ (by rw [Nat.mul_comm]; exact e1)]
  rw [Nat.testBit_two_pow_mul_add _ (Nat.mod_lt _ (by positivity))]
  simp only [Nat.testBit_mod_two_pow, Nat.testBit_div_two_pow]
  by_cases h1 : i < hi + 1
  · by_cases h2 : i < lo
    · have : ¬ (lo ≤ i ∧ i ≤ hi) := by omega
      simp [h1, h2, this]
    · have h3 : lo ≤ i ∧ i ≤ hi := by omega
      have h4 : i - lo < hi + 1 - lo := by omega
      simp [h1, h2, h3, h4]
  · have : ¬ (lo ≤ i ∧ i ≤ hi) := by omega
    simp only [h1, if_false, this]
    congr 1; omega

/-- A bit of a field. -/
theorem testBit_getF (w i : Nat) (f : Field) : (getF w f).testBit i = (decide (i < f.hi + 1 - f.lo) && w.testBit (i + f.lo)) := by
  simp [getF, Nat.testBit_mod_two_pow, Nat.testBit_div_two_pow]

/-- The field just written. -/
theorem getF_putF_same (w v : Nat) (f : Field) (hf : f.lo ≤ f.hi) : getF (putF w f v) f = v % 2 ^ (f.hi + 1 - f.lo) := by
  apply Nat.eq_of_testBit_eq
  intro i
  rw [testBit_getF, testBit_putF _ _ _ _ hf, Nat.testBit_mod_two_pow]
  by_cases h : i < f.hi + 1 - f.lo
  · have : f.lo ≤ i + f.lo ∧ i + f.lo ≤ f.hi := by omega
    simp [h, this]
  · simp [h]

/-- A field apart from the one written. -/
theorem getF_putF_apart (w v : Nat) (f g : Field) (hf : f.lo ≤ f.hi) (hg : g.hi < f.lo ∨ f.hi < g.lo) :
    getF (putF w f v) g = getF w g := by
  apply Nat.eq_of_testBit_eq
  intro i
  rw [testBit_getF, testBit_getF, testBit_putF _ _ _ _ hf]
  by_cases h : i < g.hi + 1 - g.lo
  · have : ¬ (f.lo ≤ i + g.lo ∧ i + g.lo ≤ f.hi) := by omega
    simp [h, this]
  · simp [h]

/-- A word of 32 bits stays one. -/
theorem putF_lt (w v : Nat) (f : Field) (hf : f.lo ≤ f.hi) (hw : w < 2 ^ 32) (h31 : f.hi < 32) : putF w f v < 2 ^ 32 := by
  apply Nat.lt_pow_two_of_testBit
  intro i hi
  rw [testBit_putF _ _ _ _ hf]
  have : ¬ (f.lo ≤ i ∧ i ≤ f.hi) := by omega
  rw [if_neg this]
  exact Nat.testBit_lt_two_pow (Nat.lt_of_lt_of_le hw (Nat.pow_le_pow_right (by omega) hi))

/-! ### Registers -/

theorem kvGet_insReg_same (m : Kv Word) (i : Nat) (v : Word) (h : kvGet m i = none) :
    kvGet (insReg m i v) i = if v = resetVal i then none else some v := by
  induction m with
  | nil => by_cases e : v = resetVal i <;> simp [insReg, kvGet, e]
  | cons x m ih =>
    obtain ⟨k, w⟩ := x
    have hk : i ≠ k := fun e => by simp [kvGet, e] at h
    have hm : kvGet m i = none := by simpa [kvGet, hk] using h
    unfold insReg
    by_cases hl : i < k
    · by_cases e : v = resetVal i <;> simp [kvGet, hl, hk, hm, e]
    · simp only [if_neg hl, kvGet, if_neg hk]; exact ih hm

theorem kvGet_insReg_ne (m : Kv Word) {i j : Nat} (v : Word) (h : j ≠ i) : kvGet (insReg m i v) j = kvGet m j := by
  induction m with
  | nil => by_cases e : v = resetVal i <;> simp [insReg, kvGet, e, h]
  | cons x m ih =>
    obtain ⟨k, w⟩ := x
    unfold insReg
    by_cases hl : i < k
    · by_cases e : v = resetVal i <;> simp [kvGet, hl, h, e]
    · simp only [if_neg hl, kvGet, ih]

@[simp] theorem Hw.rd_wr_same (h : Hw) (r : Nat) (v : Word) : (h.wr r v).rd r = v := by
  unfold Hw.rd Hw.wr
  rw [kvGet_insReg_same _ _ _ (kvGet_kvDel_same _ _)]
  by_cases e : v = resetVal r <;> simp [e]

theorem Hw.rd_wr_ne (h : Hw) {r r' : Nat} (v : Word) (hr : r' ≠ r) : (h.wr r v).rd r' = h.rd r' := by
  unfold Hw.rd Hw.wr
  rw [kvGet_insReg_ne _ _ hr, kvGet_kvDel_ne _ hr]

/-- A register is a 32-bit number. -/
theorem Hw.rn_lt (h : Hw) (r : Nat) : h.rn r < 2 ^ 32 := (h.rd r).isLt

@[simp] theorem Hw.rn_wn_same (h : Hw) (r n : Nat) : (h.wn r n).rn r = n % 2 ^ 32 := by
  simp [Hw.rn, Hw.wn, BitVec.toNat_ofNat]

theorem Hw.rn_wn_ne (h : Hw) {r r' : Nat} (n : Nat) (hr : r' ≠ r) : (h.wn r n).rn r' = h.rn r' := by
  simp [Hw.rn, Hw.wn, Hw.rd_wr_ne _ _ hr]

theorem Hw.rn_setFld_ne (h : Hw) {r r' : Nat} (f : Field) (v : Nat) (hr : r' ≠ r) : (h.setFld r f v).rn r' = h.rn r' :=
  Hw.rn_wn_ne _ _ hr

/-- The register after a field is set. -/
theorem Hw.rn_setFld_same (h : Hw) (r v : Nat) (f : Field) (hf : f.lo ≤ f.hi) (h31 : f.hi < 32) :
    (h.setFld r f v).rn r = putF (h.rn r) f v := by
  simp only [Hw.setFld, Hw.rn_wn_same]
  exact Nat.mod_eq_of_lt (putF_lt _ _ _ hf (h.rn_lt r) h31)

/-- The field just set. -/
theorem Hw.fld_setFld_same (h : Hw) (r v : Nat) (f : Field) (hf : f.lo ≤ f.hi) (h31 : f.hi < 32) :
    (h.setFld r f v).fld r f = v % 2 ^ (f.hi + 1 - f.lo) := by
  simp only [Hw.fld, Hw.rn_setFld_same h r v f hf h31, getF_putF_same _ _ _ hf]

/-- Another field of the register. -/
theorem Hw.fld_setFld_apart (h : Hw) (r v : Nat) (f g : Field) (hf : f.lo ≤ f.hi) (h31 : f.hi < 32)
    (hg : g.hi < f.lo ∨ f.hi < g.lo) : (h.setFld r f v).fld r g = h.fld r g := by
  simp only [Hw.fld, Hw.rn_setFld_same h r v f hf h31, getF_putF_apart _ _ _ _ hf hg]

/-- A field of another register. -/
theorem Hw.fld_setFld_ne (h : Hw) {r r' : Nat} (f g : Field) (v : Nat) (hr : r' ≠ r) :
    (h.setFld r f v).fld r' g = h.fld r' g := by
  simp only [Hw.fld, Hw.rn_setFld_ne h f v hr]

/-- A counter advances and saturates (R12). -/
theorem Hw.rn_add_same (h : Hw) (r n : Nat) : (h.add r n).rn r = min (h.rn r + n) 0xFFFFFFFF := by
  simp only [Hw.add, Hw.rn_wn_same]
  exact Nat.mod_eq_of_lt (by omega)

theorem Hw.rn_add_ne (h : Hw) {r r' : Nat} (n : Nat) (hr : r' ≠ r) : (h.add r n).rn r' = h.rn r' := Hw.rn_wn_ne _ _ hr

theorem Hw.rn_inc_same (h : Hw) (r : Nat) : (h.inc r).rn r = min (h.rn r + 1) 0xFFFFFFFF := Hw.rn_add_same h r 1

theorem Hw.rn_inc_ne (h : Hw) {r r' : Nat} (hr : r' ≠ r) : (h.inc r).rn r' = h.rn r' := Hw.rn_wn_ne _ _ hr

/-- Registers depend on the register file alone. -/
theorem Hw.rn_congr {h h' : Hw} (e : h.regs = h'.regs) (r : Nat) : h.rn r = h'.rn r := by simp [Hw.rn, Hw.rd, e]

theorem Hw.fld_congr {h h' : Hw} (e : h.regs = h'.regs) (r : Nat) (f : Field) : h.fld r f = h'.fld r f := by
  simp [Hw.fld, Hw.rn_congr e]

theorem Hw.flag_congr {h h' : Hw} (e : h.regs = h'.regs) (r : Nat) (f : Field) : h.flag r f = h'.flag r f := by
  simp [Hw.flag, Hw.fld_congr e]

/-! ### Host reads -/

/-- A read with all four bytes enabled answers the word. -/
theorem selectBytes_full (v : Nat) (h : v < 2 ^ 32) : selectBytes 15 v = v := by
  have b0 : (15 : Nat).testBit 0 = true := rfl
  have b1 : (15 : Nat).testBit 1 = true := rfl
  have b2 : (15 : Nat).testBit 2 = true := rfl
  have b3 : (15 : Nat).testBit 3 = true := rfl
  have h : v < 4294967296 := h
  simp only [selectBytes, b0, b1, b2, b3, if_true]; omega

/-- Any bytes of the value 0 are 0. -/
@[simp] theorem selectBytes_zero (en : Nat) : selectBytes en 0 = 0 := by simp [selectBytes]

/-- A register access reaches that register. -/
theorem Hw.hostAt_reg {h : Hw} {fn off r : Nat} (e : h.hostReg fn off = some r) : h.hostAt fn (off / 4 * 4) = .reg r := by
  unfold Hw.hostReg at e
  split at e
  · next x hh => rw [hh]; simp_all
  · cases e

/-! ### Event records -/

@[simp] theorem Hw.loseRecord_clk (h : Hw) (o : Nat) : (h.loseRecord o).clk = h.clk := by
  simp only [Hw.loseRecord, Hw.setFld_clk, Hw.inc_clk]
@[simp] theorem Hw.loseRecord_free (h : Hw) (o : Nat) : (h.loseRecord o).free = h.free := by
  simp only [Hw.loseRecord, Hw.setFld_free, Hw.inc_free]
@[simp] theorem Hw.loseRecord_out (h : Hw) (o : Nat) : (h.loseRecord o).out = h.out := by
  simp only [Hw.loseRecord, Hw.setFld_out, Hw.inc_out]
@[simp] theorem Hw.loseRecord_tasks (h : Hw) (o : Nat) : (h.loseRecord o).tasks = h.tasks := by
  simp only [Hw.loseRecord, Hw.setFld_tasks, Hw.inc_tasks]
@[simp] theorem Hw.loseRecord_swc (h : Hw) (o : Nat) : (h.loseRecord o).swc = h.swc := by
  simp only [Hw.loseRecord, Hw.setFld_swc, Hw.inc_swc]
@[simp] theorem Hw.loseRecord_fwd (h : Hw) (o : Nat) : (h.loseRecord o).fwd = h.fwd := by
  simp only [Hw.loseRecord, Hw.setFld_fwd, Hw.inc_fwd]
@[simp] theorem Hw.loseRecord_tss (h : Hw) (o : Nat) : (h.loseRecord o).tss = h.tss := by
  simp only [Hw.loseRecord, Hw.setFld_tss, Hw.inc_tss]
@[simp] theorem Hw.loseRecord_mac (h : Hw) (o : Nat) : (h.loseRecord o).mac = h.mac := by
  simp only [Hw.loseRecord, Hw.setFld_mac, Hw.inc_mac]
@[simp] theorem Hw.loseRecord_vie (h : Hw) (o : Nat) : (h.loseRecord o).vie = h.vie := by
  simp only [Hw.loseRecord, Hw.setFld_vie, Hw.inc_vie]
@[simp] theorem Hw.loseRecord_fbus (h : Hw) (o : Nat) : (h.loseRecord o).fbus = h.fbus := by
  simp only [Hw.loseRecord, Hw.setFld_fbus, Hw.inc_fbus]
@[simp] theorem Hw.loseRecord_brg (h : Hw) (o : Nat) : (h.loseRecord o).brg = h.brg := by
  simp only [Hw.loseRecord, Hw.setFld_brg, Hw.inc_brg]
@[simp] theorem Hw.loseRecord_tim (h : Hw) (o : Nat) : (h.loseRecord o).tim = h.tim := by
  simp only [Hw.loseRecord, Hw.setFld_tim, Hw.inc_tim]
@[simp] theorem Hw.loseRecord_hdma (h : Hw) (o : Nat) : (h.loseRecord o).hdma = h.hdma := by
  simp only [Hw.loseRecord, Hw.setFld_hdma, Hw.inc_hdma]
@[simp] theorem Hw.loseRecord_mbx (h : Hw) (o : Nat) : (h.loseRecord o).mbx = h.mbx := by
  simp only [Hw.loseRecord, Hw.setFld_mbx, Hw.inc_mbx]
@[simp] theorem Hw.loseRecord_own (h : Hw) (o : Nat) : (h.loseRecord o).own = h.own := by
  simp only [Hw.loseRecord, Hw.setFld_own, Hw.inc_own]
@[simp] theorem Hw.loseRecord_sec (h : Hw) (o : Nat) : (h.loseRecord o).sec = h.sec := by
  simp only [Hw.loseRecord, Hw.setFld_sec, Hw.inc_sec]
@[simp] theorem Hw.loseRecord_mem (h : Hw) (o : Nat) : (h.loseRecord o).mem = h.mem := by
  simp only [Hw.loseRecord, Hw.setFld_mem, Hw.inc_mem]
@[simp] theorem Hw.loseRecord_sbb (h : Hw) (o : Nat) : (h.loseRecord o).sbb = h.sbb := by
  simp only [Hw.loseRecord, Hw.setFld_sbb, Hw.inc_sbb]
@[simp] theorem Hw.loseRecord_pwr (h : Hw) (o : Nat) : (h.loseRecord o).pwr = h.pwr := by
  simp only [Hw.loseRecord, Hw.setFld_pwr, Hw.inc_pwr]
@[simp] theorem Hw.loseRecord_sys (h : Hw) (o : Nat) : (h.loseRecord o).sys = h.sys := by
  simp only [Hw.loseRecord, Hw.setFld_sys, Hw.inc_sys]
@[simp] theorem Hw.loseRecord_regs (h : Hw) (o : Nat) : (h.loseRecord o).regs =
    ((h.inc (Reg.EVQ_LOST o)).setFld (Reg.EVQ_STATUS o) Fld.EVQ_STATUS_OVF_PENDING 1).regs := by
  simp only [Hw.loseRecord]

theorem Hw.post_lost (h : Hw) (o k w3 w4 w5 w6 w7 : Nat) (c : h.loses o k) : h.post o k w3 w4 w5 w6 w7 = h.loseRecord o := if_pos c

theorem Hw.post_kept (h : Hw) (o k w3 w4 w5 w6 w7 : Nat) (c : ¬ h.loses o k) : h.post o k w3 w4 w5 w6 w7 =
    { h with evq := { h.evq with staging := h.evq.staging ++
      [⟨o, k, h.tbNs (h.fld (Reg.EVQ_CTRL o) Fld.EVQ_CTRL_TB) % 2 ^ 32, w3, w4, w5, w6, w7, h.clk⟩] } } := if_neg c

/-- A property of both outcomes of a record holds of the record. -/
theorem Hw.post_ind {P : Hw → Prop} (h : Hw) (o k w3 w4 w5 w6 w7 : Nat) (h1 : P (h.loseRecord o))
    (h2 : ∀ l, P { h with evq := { h.evq with staging := l } }) : P (h.post o k w3 w4 w5 w6 w7) := by
  by_cases c : h.loses o k
  · rw [Hw.post_lost _ _ _ _ _ _ _ _ c]; exact h1
  · rw [Hw.post_kept _ _ _ _ _ _ _ _ c]; exact h2 _

@[simp] theorem Hw.post_clk (h : Hw) (o k w3 w4 w5 w6 w7 : Nat) : (h.post o k w3 w4 w5 w6 w7).clk = h.clk :=
  Hw.post_ind (P := fun x => x.clk = h.clk) h o k w3 w4 w5 w6 w7 (h.loseRecord_clk o) (fun _ => rfl)
@[simp] theorem Hw.post_free (h : Hw) (o k w3 w4 w5 w6 w7 : Nat) : (h.post o k w3 w4 w5 w6 w7).free = h.free :=
  Hw.post_ind (P := fun x => x.free = h.free) h o k w3 w4 w5 w6 w7 (h.loseRecord_free o) (fun _ => rfl)
@[simp] theorem Hw.post_out (h : Hw) (o k w3 w4 w5 w6 w7 : Nat) : (h.post o k w3 w4 w5 w6 w7).out = h.out :=
  Hw.post_ind (P := fun x => x.out = h.out) h o k w3 w4 w5 w6 w7 (h.loseRecord_out o) (fun _ => rfl)
@[simp] theorem Hw.post_tasks (h : Hw) (o k w3 w4 w5 w6 w7 : Nat) : (h.post o k w3 w4 w5 w6 w7).tasks = h.tasks :=
  Hw.post_ind (P := fun x => x.tasks = h.tasks) h o k w3 w4 w5 w6 w7 (h.loseRecord_tasks o) (fun _ => rfl)
@[simp] theorem Hw.post_swc (h : Hw) (o k w3 w4 w5 w6 w7 : Nat) : (h.post o k w3 w4 w5 w6 w7).swc = h.swc :=
  Hw.post_ind (P := fun x => x.swc = h.swc) h o k w3 w4 w5 w6 w7 (h.loseRecord_swc o) (fun _ => rfl)
@[simp] theorem Hw.post_fwd (h : Hw) (o k w3 w4 w5 w6 w7 : Nat) : (h.post o k w3 w4 w5 w6 w7).fwd = h.fwd :=
  Hw.post_ind (P := fun x => x.fwd = h.fwd) h o k w3 w4 w5 w6 w7 (h.loseRecord_fwd o) (fun _ => rfl)
@[simp] theorem Hw.post_tss (h : Hw) (o k w3 w4 w5 w6 w7 : Nat) : (h.post o k w3 w4 w5 w6 w7).tss = h.tss :=
  Hw.post_ind (P := fun x => x.tss = h.tss) h o k w3 w4 w5 w6 w7 (h.loseRecord_tss o) (fun _ => rfl)
@[simp] theorem Hw.post_mac (h : Hw) (o k w3 w4 w5 w6 w7 : Nat) : (h.post o k w3 w4 w5 w6 w7).mac = h.mac :=
  Hw.post_ind (P := fun x => x.mac = h.mac) h o k w3 w4 w5 w6 w7 (h.loseRecord_mac o) (fun _ => rfl)
@[simp] theorem Hw.post_vie (h : Hw) (o k w3 w4 w5 w6 w7 : Nat) : (h.post o k w3 w4 w5 w6 w7).vie = h.vie :=
  Hw.post_ind (P := fun x => x.vie = h.vie) h o k w3 w4 w5 w6 w7 (h.loseRecord_vie o) (fun _ => rfl)
@[simp] theorem Hw.post_fbus (h : Hw) (o k w3 w4 w5 w6 w7 : Nat) : (h.post o k w3 w4 w5 w6 w7).fbus = h.fbus :=
  Hw.post_ind (P := fun x => x.fbus = h.fbus) h o k w3 w4 w5 w6 w7 (h.loseRecord_fbus o) (fun _ => rfl)
@[simp] theorem Hw.post_brg (h : Hw) (o k w3 w4 w5 w6 w7 : Nat) : (h.post o k w3 w4 w5 w6 w7).brg = h.brg :=
  Hw.post_ind (P := fun x => x.brg = h.brg) h o k w3 w4 w5 w6 w7 (h.loseRecord_brg o) (fun _ => rfl)
@[simp] theorem Hw.post_tim (h : Hw) (o k w3 w4 w5 w6 w7 : Nat) : (h.post o k w3 w4 w5 w6 w7).tim = h.tim :=
  Hw.post_ind (P := fun x => x.tim = h.tim) h o k w3 w4 w5 w6 w7 (h.loseRecord_tim o) (fun _ => rfl)
@[simp] theorem Hw.post_hdma (h : Hw) (o k w3 w4 w5 w6 w7 : Nat) : (h.post o k w3 w4 w5 w6 w7).hdma = h.hdma :=
  Hw.post_ind (P := fun x => x.hdma = h.hdma) h o k w3 w4 w5 w6 w7 (h.loseRecord_hdma o) (fun _ => rfl)
@[simp] theorem Hw.post_mbx (h : Hw) (o k w3 w4 w5 w6 w7 : Nat) : (h.post o k w3 w4 w5 w6 w7).mbx = h.mbx :=
  Hw.post_ind (P := fun x => x.mbx = h.mbx) h o k w3 w4 w5 w6 w7 (h.loseRecord_mbx o) (fun _ => rfl)
@[simp] theorem Hw.post_own (h : Hw) (o k w3 w4 w5 w6 w7 : Nat) : (h.post o k w3 w4 w5 w6 w7).own = h.own :=
  Hw.post_ind (P := fun x => x.own = h.own) h o k w3 w4 w5 w6 w7 (h.loseRecord_own o) (fun _ => rfl)
@[simp] theorem Hw.post_sec (h : Hw) (o k w3 w4 w5 w6 w7 : Nat) : (h.post o k w3 w4 w5 w6 w7).sec = h.sec :=
  Hw.post_ind (P := fun x => x.sec = h.sec) h o k w3 w4 w5 w6 w7 (h.loseRecord_sec o) (fun _ => rfl)
@[simp] theorem Hw.post_mem (h : Hw) (o k w3 w4 w5 w6 w7 : Nat) : (h.post o k w3 w4 w5 w6 w7).mem = h.mem :=
  Hw.post_ind (P := fun x => x.mem = h.mem) h o k w3 w4 w5 w6 w7 (h.loseRecord_mem o) (fun _ => rfl)
@[simp] theorem Hw.post_sbb (h : Hw) (o k w3 w4 w5 w6 w7 : Nat) : (h.post o k w3 w4 w5 w6 w7).sbb = h.sbb :=
  Hw.post_ind (P := fun x => x.sbb = h.sbb) h o k w3 w4 w5 w6 w7 (h.loseRecord_sbb o) (fun _ => rfl)
@[simp] theorem Hw.post_pwr (h : Hw) (o k w3 w4 w5 w6 w7 : Nat) : (h.post o k w3 w4 w5 w6 w7).pwr = h.pwr :=
  Hw.post_ind (P := fun x => x.pwr = h.pwr) h o k w3 w4 w5 w6 w7 (h.loseRecord_pwr o) (fun _ => rfl)
@[simp] theorem Hw.post_sys (h : Hw) (o k w3 w4 w5 w6 w7 : Nat) : (h.post o k w3 w4 w5 w6 w7).sys = h.sys :=
  Hw.post_ind (P := fun x => x.sys = h.sys) h o k w3 w4 w5 w6 w7 (h.loseRecord_sys o) (fun _ => rfl)

@[simp] theorem Hw.postG_clk (h : Hw) (t i k w3 w4 w5 w6 w7 : Nat) : (h.postG t i k w3 w4 w5 w6 w7).clk = h.clk := by
  unfold Hw.postG; simp only; split <;> simp only [Hw.post_clk]
@[simp] theorem Hw.postG_free (h : Hw) (t i k w3 w4 w5 w6 w7 : Nat) : (h.postG t i k w3 w4 w5 w6 w7).free = h.free := by
  unfold Hw.postG; simp only; split <;> simp only [Hw.post_free]
@[simp] theorem Hw.postG_out (h : Hw) (t i k w3 w4 w5 w6 w7 : Nat) : (h.postG t i k w3 w4 w5 w6 w7).out = h.out := by
  unfold Hw.postG; simp only; split <;> simp only [Hw.post_out]
@[simp] theorem Hw.postG_tasks (h : Hw) (t i k w3 w4 w5 w6 w7 : Nat) : (h.postG t i k w3 w4 w5 w6 w7).tasks = h.tasks := by
  unfold Hw.postG; simp only; split <;> simp only [Hw.post_tasks]
@[simp] theorem Hw.postG_swc (h : Hw) (t i k w3 w4 w5 w6 w7 : Nat) : (h.postG t i k w3 w4 w5 w6 w7).swc = h.swc := by
  unfold Hw.postG; simp only; split <;> simp only [Hw.post_swc]
@[simp] theorem Hw.postG_fwd (h : Hw) (t i k w3 w4 w5 w6 w7 : Nat) : (h.postG t i k w3 w4 w5 w6 w7).fwd = h.fwd := by
  unfold Hw.postG; simp only; split <;> simp only [Hw.post_fwd]
@[simp] theorem Hw.postG_tss (h : Hw) (t i k w3 w4 w5 w6 w7 : Nat) : (h.postG t i k w3 w4 w5 w6 w7).tss = h.tss := by
  unfold Hw.postG; simp only; split <;> simp only [Hw.post_tss]
@[simp] theorem Hw.postG_mac (h : Hw) (t i k w3 w4 w5 w6 w7 : Nat) : (h.postG t i k w3 w4 w5 w6 w7).mac = h.mac := by
  unfold Hw.postG; simp only; split <;> simp only [Hw.post_mac]
@[simp] theorem Hw.postG_vie (h : Hw) (t i k w3 w4 w5 w6 w7 : Nat) : (h.postG t i k w3 w4 w5 w6 w7).vie = h.vie := by
  unfold Hw.postG; simp only; split <;> simp only [Hw.post_vie]
@[simp] theorem Hw.postG_fbus (h : Hw) (t i k w3 w4 w5 w6 w7 : Nat) : (h.postG t i k w3 w4 w5 w6 w7).fbus = h.fbus := by
  unfold Hw.postG; simp only; split <;> simp only [Hw.post_fbus]
@[simp] theorem Hw.postG_brg (h : Hw) (t i k w3 w4 w5 w6 w7 : Nat) : (h.postG t i k w3 w4 w5 w6 w7).brg = h.brg := by
  unfold Hw.postG; simp only; split <;> simp only [Hw.post_brg]
@[simp] theorem Hw.postG_tim (h : Hw) (t i k w3 w4 w5 w6 w7 : Nat) : (h.postG t i k w3 w4 w5 w6 w7).tim = h.tim := by
  unfold Hw.postG; simp only; split <;> simp only [Hw.post_tim]
@[simp] theorem Hw.postG_hdma (h : Hw) (t i k w3 w4 w5 w6 w7 : Nat) : (h.postG t i k w3 w4 w5 w6 w7).hdma = h.hdma := by
  unfold Hw.postG; simp only; split <;> simp only [Hw.post_hdma]
@[simp] theorem Hw.postG_mbx (h : Hw) (t i k w3 w4 w5 w6 w7 : Nat) : (h.postG t i k w3 w4 w5 w6 w7).mbx = h.mbx := by
  unfold Hw.postG; simp only; split <;> simp only [Hw.post_mbx]
@[simp] theorem Hw.postG_own (h : Hw) (t i k w3 w4 w5 w6 w7 : Nat) : (h.postG t i k w3 w4 w5 w6 w7).own = h.own := by
  unfold Hw.postG; simp only; split <;> simp only [Hw.post_own]
@[simp] theorem Hw.postG_sec (h : Hw) (t i k w3 w4 w5 w6 w7 : Nat) : (h.postG t i k w3 w4 w5 w6 w7).sec = h.sec := by
  unfold Hw.postG; simp only; split <;> simp only [Hw.post_sec]
@[simp] theorem Hw.postG_mem (h : Hw) (t i k w3 w4 w5 w6 w7 : Nat) : (h.postG t i k w3 w4 w5 w6 w7).mem = h.mem := by
  unfold Hw.postG; simp only; split <;> simp only [Hw.post_mem]
@[simp] theorem Hw.postG_sbb (h : Hw) (t i k w3 w4 w5 w6 w7 : Nat) : (h.postG t i k w3 w4 w5 w6 w7).sbb = h.sbb := by
  unfold Hw.postG; simp only; split <;> simp only [Hw.post_sbb]
@[simp] theorem Hw.postG_pwr (h : Hw) (t i k w3 w4 w5 w6 w7 : Nat) : (h.postG t i k w3 w4 w5 w6 w7).pwr = h.pwr := by
  unfold Hw.postG; simp only; split <;> simp only [Hw.post_pwr]
@[simp] theorem Hw.postG_sys (h : Hw) (t i k w3 w4 w5 w6 w7 : Nat) : (h.postG t i k w3 w4 w5 w6 w7).sys = h.sys := by
  unfold Hw.postG; simp only; split <;> simp only [Hw.post_sys]

@[simp] theorem Hw.postMod_clk (h : Hw) (k w3 : Nat) (a : Option Nat) : (h.postMod k w3 a).clk = h.clk := by
  unfold Hw.postMod; split <;> simp only [Hw.post_clk]
@[simp] theorem Hw.postMod_free (h : Hw) (k w3 : Nat) (a : Option Nat) : (h.postMod k w3 a).free = h.free := by
  unfold Hw.postMod; split <;> simp only [Hw.post_free]
@[simp] theorem Hw.postMod_out (h : Hw) (k w3 : Nat) (a : Option Nat) : (h.postMod k w3 a).out = h.out := by
  unfold Hw.postMod; split <;> simp only [Hw.post_out]
@[simp] theorem Hw.postMod_tasks (h : Hw) (k w3 : Nat) (a : Option Nat) : (h.postMod k w3 a).tasks = h.tasks := by
  unfold Hw.postMod; split <;> simp only [Hw.post_tasks]
@[simp] theorem Hw.postMod_swc (h : Hw) (k w3 : Nat) (a : Option Nat) : (h.postMod k w3 a).swc = h.swc := by
  unfold Hw.postMod; split <;> simp only [Hw.post_swc]
@[simp] theorem Hw.postMod_fwd (h : Hw) (k w3 : Nat) (a : Option Nat) : (h.postMod k w3 a).fwd = h.fwd := by
  unfold Hw.postMod; split <;> simp only [Hw.post_fwd]
@[simp] theorem Hw.postMod_tss (h : Hw) (k w3 : Nat) (a : Option Nat) : (h.postMod k w3 a).tss = h.tss := by
  unfold Hw.postMod; split <;> simp only [Hw.post_tss]
@[simp] theorem Hw.postMod_mac (h : Hw) (k w3 : Nat) (a : Option Nat) : (h.postMod k w3 a).mac = h.mac := by
  unfold Hw.postMod; split <;> simp only [Hw.post_mac]
@[simp] theorem Hw.postMod_vie (h : Hw) (k w3 : Nat) (a : Option Nat) : (h.postMod k w3 a).vie = h.vie := by
  unfold Hw.postMod; split <;> simp only [Hw.post_vie]
@[simp] theorem Hw.postMod_fbus (h : Hw) (k w3 : Nat) (a : Option Nat) : (h.postMod k w3 a).fbus = h.fbus := by
  unfold Hw.postMod; split <;> simp only [Hw.post_fbus]
@[simp] theorem Hw.postMod_brg (h : Hw) (k w3 : Nat) (a : Option Nat) : (h.postMod k w3 a).brg = h.brg := by
  unfold Hw.postMod; split <;> simp only [Hw.post_brg]
@[simp] theorem Hw.postMod_tim (h : Hw) (k w3 : Nat) (a : Option Nat) : (h.postMod k w3 a).tim = h.tim := by
  unfold Hw.postMod; split <;> simp only [Hw.post_tim]
@[simp] theorem Hw.postMod_hdma (h : Hw) (k w3 : Nat) (a : Option Nat) : (h.postMod k w3 a).hdma = h.hdma := by
  unfold Hw.postMod; split <;> simp only [Hw.post_hdma]
@[simp] theorem Hw.postMod_mbx (h : Hw) (k w3 : Nat) (a : Option Nat) : (h.postMod k w3 a).mbx = h.mbx := by
  unfold Hw.postMod; split <;> simp only [Hw.post_mbx]
@[simp] theorem Hw.postMod_own (h : Hw) (k w3 : Nat) (a : Option Nat) : (h.postMod k w3 a).own = h.own := by
  unfold Hw.postMod; split <;> simp only [Hw.post_own]
@[simp] theorem Hw.postMod_sec (h : Hw) (k w3 : Nat) (a : Option Nat) : (h.postMod k w3 a).sec = h.sec := by
  unfold Hw.postMod; split <;> simp only [Hw.post_sec]
@[simp] theorem Hw.postMod_mem (h : Hw) (k w3 : Nat) (a : Option Nat) : (h.postMod k w3 a).mem = h.mem := by
  unfold Hw.postMod; split <;> simp only [Hw.post_mem]
@[simp] theorem Hw.postMod_sbb (h : Hw) (k w3 : Nat) (a : Option Nat) : (h.postMod k w3 a).sbb = h.sbb := by
  unfold Hw.postMod; split <;> simp only [Hw.post_sbb]
@[simp] theorem Hw.postMod_pwr (h : Hw) (k w3 : Nat) (a : Option Nat) : (h.postMod k w3 a).pwr = h.pwr := by
  unfold Hw.postMod; split <;> simp only [Hw.post_pwr]
@[simp] theorem Hw.postMod_sys (h : Hw) (k w3 : Nat) (a : Option Nat) : (h.postMod k w3 a).sys = h.sys := by
  unfold Hw.postMod; split <;> simp only [Hw.post_sys]

/-- A record changes only the loss count and the status of its owner's event queue. -/
theorem Hw.rn_post (h : Hw) (o k w3 w4 w5 w6 w7 r : Nat) (h1 : r ≠ Reg.EVQ_LOST o) (h2 : r ≠ Reg.EVQ_STATUS o) :
    (h.post o k w3 w4 w5 w6 w7).rn r = h.rn r := by
  refine Hw.post_ind (P := fun x => x.rn r = h.rn r) h o k w3 w4 w5 w6 w7 ?_ (fun _ => rfl)
  rw [Hw.rn_congr (h.loseRecord_regs o), Hw.rn_setFld_ne _ _ _ h2, Hw.rn_inc_ne _ h1]

/-- While the staging has room and the owner is not torn down, a record is staged behind those there are (R322). -/
theorem Hw.post_staged (h : Hw) (o k w3 w4 w5 w6 w7 : Nat) (c : ¬ h.loses o k) :
    (h.post o k w3 w4 w5 w6 w7).evq.staging = h.evq.staging ++
      [⟨o, k, h.tbNs (h.fld (Reg.EVQ_CTRL o) Fld.EVQ_CTRL_TB) % 2 ^ 32, w3, w4, w5, w6, w7, h.clk⟩] := by
  rw [Hw.post_kept _ _ _ _ _ _ _ _ c]

/-! ### Lifting -/

/-- An effect on the hardware alone answers a next state with the queue and the fuses as before. -/
theorem onHw_next (s : State) (f : Hw → Hw) : onHw s f = .next { s with hw := f s.hw } := rfl

/-- An effect that also reaches the fuses answers a next state with the queue as before. -/
theorem onBoth_next (s : State) (f : Fuse → Hw → Fuse × Hw) :
    onBoth s f = .next { s with fuse := (f s.fuse s.hw).1, hw := (f s.fuse s.hw).2 } := rfl

end Sys2Proof.Machine
end

