-- ==== Sys2Proof/Laws/Gcs.lean ====
section
/-!
SUPPORT. Laws of the frame every GCS command runs in (R346 to R352): what a due command answers, by what its checks make of it.
-/
namespace Sys2Proof.Machine

/-- A due command is handed to its checks; the frame answers by their result. -/
theorem Hw.gcsRun_due {h : Hw} {o sl op : Nat} {q : Slot} (viol : Hw → List Nat) (f : Slot → Gcs) (d : h.due o sl op q) :
    h.gcsRun o sl op viol f =
      match f q with
      | .no code detail resp x => (if q.checkOnly then h else x).complete (o * 32 + sl) code detail resp
      | .wait x => if q.checkOnly then h.complete (o * 32 + sl) cOk 0 [] else x
      | .ok x resp =>
        match h.judgeNew x viol with
        | some (c, e) => (if q.checkOnly then h else if c = cBound then h.inc Reg.TSS_BOUND_REFUSED else h).complete (o * 32 + sl) c e []
        | none => (if q.checkOnly then h else Hw.settleBounds h x).complete (o * 32 + sl) cOk 0 resp := by
  obtain ⟨h1, h2, h3, h4, h5, h6, h7⟩ := d
  have e : ¬ 32 ≤ sl := by omega
  simp only [Hw.gcsRun, h2]
  rw [if_neg (by simp [e, h3, h4, h5, h6]), if_neg (by simp [h7])]
  all_goals
    cases f q with
    | no code detail resp x => cases q.checkOnly <;> simp
    | wait x => cases q.checkOnly <;> simp
    | ok x resp => dsimp only; generalize h.judgeNew x viol = j; cases j <;> cases q.checkOnly <;> simp

/-- A command that passes its checks and breaks nothing completes with OK. -/
theorem Hw.gcsRun_ok {h : Hw} {o sl op : Nat} {q : Slot} {viol : Hw → List Nat} {f : Slot → Gcs} {x : Hw} {resp : List Nat}
    (d : h.runs o sl op q) (e : f q = .ok x resp) (c : h.clean x viol) :
    h.gcsRun o sl op viol f = (Hw.settleBounds h x).complete (o * 32 + sl) cOk 0 resp := by
  rw [Hw.gcsRun_due viol f d.1, e]
  simp only
  rw [c]
  simp [d.2]

/-- A command that fails a check completes with its code and DETAIL. -/
theorem Hw.gcsRun_no {h : Hw} {o sl op : Nat} {q : Slot} {viol : Hw → List Nat} {f : Slot → Gcs} {x : Hw} {code detail : Nat}
    {resp : List Nat} (d : h.runs o sl op q) (e : f q = .no code detail resp x) :
    h.gcsRun o sl op viol f = x.complete (o * 32 + sl) code detail resp := by
  rw [Hw.gcsRun_due viol f d.1, e]
  simp [d.2]

/-- A command that completes later leaves the state its checks give. -/
theorem Hw.gcsRun_wait {h : Hw} {o sl op : Nat} {q : Slot} {viol : Hw → List Nat} {f : Slot → Gcs} {x : Hw}
    (d : h.runs o sl op q) (e : f q = .wait x) : h.gcsRun o sl op viol f = x := by
  rw [Hw.gcsRun_due viol f d.1, e]
  simp [d.2]

/-- Checks that all hold let the command through. -/
theorem Hw.vet_ok (h : Hw) (cs : List Check) (r : Gcs) (a : ∀ c ∈ cs, c.1 = false) : h.vet cs r = r := by
  have : cs.find? (fun c => c.1) = none := by
    rw [List.find?_eq_none]
    intro c hc; simp [a c hc]
  simp [Hw.vet, this]

/-- While the TRNG runs, what draws from it goes on. -/
theorem Hw.withTrng_ok {h : Hw} {r : Gcs} (a : h.flag Reg.SEC_STATUS Fld.SEC_STATUS_TRNG_FAIL = false) (b : h.sec.trngDown = false) :
    h.withTrng r = r := by
  unfold Hw.withTrng
  rw [a, b]; rfl

/-- A response buffer reaches an issuer that masters the bus or needs none. -/
theorem Hw.answerBuffer_ok {h : Hw} {o addr len : Nat} {words : List Nat}
    (b : o < 2 ∨ 257 < o ∨ (h.hdma.linkUp = true ∧ (h.pciFn o).busMaster = true)) :
    h.answerBuffer o addr len words = .ok (h.emit (.hostWrite o addr (words.take (len / 4)))) [words.length] := by
  unfold Hw.answerBuffer Hw.toBuffer
  rw [if_neg]
  rintro ⟨c, d, e⟩
  rcases b with b | b | ⟨b, g⟩
  · omega
  · omega
  · rw [b, g] at e; exact absurd e (by decide)

/-- A partial command whose elements all commit answers their number. -/
theorem Hw.partial_ok {h : Hw} {cs : List Check} {r : Nat × Option (Nat × Nat) × Hw} (a : ∀ c ∈ cs, c.1 = false) (v : r.2.1 = none) :
    noElements (h.vet cs (partialAnswer r)) = .ok r.2.2 [r.1] := by
  rw [Hw.vet_ok _ _ _ a]
  unfold partialAnswer
  rw [v]; rfl

/-- A partial command stops at the first element that fails, with its code and DETAIL; those before it stay committed. -/
theorem Hw.partial_no {h : Hw} {cs : List Check} {r : Nat × Option (Nat × Nat) × Hw} {c d : Nat} (a : ∀ c ∈ cs, c.1 = false)
    (v : r.2.1 = some (c, d)) : noElements (h.vet cs (partialAnswer r)) = .no c d [r.1] r.2.2 := by
  rw [Hw.vet_ok _ _ _ a]
  unfold partialAnswer
  rw [v]; rfl

/-- Settings of a video stream that pass their checks and break no bound are written. -/
theorem Hw.streamChange_ok {h : Hw} {k : Nat} {l : List (Nat × Nat × Nat)} {cs : Hw → List Check}
    (a : ∀ c ∈ cs (l.foldl (fun b e => b.image e.1 e.2.1 e.2.2) (h.settled k)), c.1 = false)
    (b : h.judgeNew (l.foldl (fun b e => b.image e.1 e.2.1 e.2.2) (h.settled k)) noDeadlock = none) :
    h.streamChange k l cs = .ok (h.setStream k l) [] := by
  unfold Hw.streamChange
  dsimp only
  rw [Hw.vet_ok _ _ _ a, b]

/-- The requests of a DIAG command go to a far bus: the first begins in a free slot, the others follow it there. -/
theorem Hw.farRun_go {h : Hw} {o sl : Nat} {cs : List Check} {l : List FarReq} {r : FarReq} {rs : List FarReq} {t : Nat}
    (n : h.sbb.tx.any (fun x => x.2.serves == some (o * 32 + sl)) = false)
    (a : ∀ c ∈ only1 o :: cs ++ [(!h.flag Reg.SBB_STATUS Fld.SBB_STATUS_READY, cState, 0), h.farCheck l], c.1 = false)
    (e : l = r :: rs) (f : h.freeTx = some t) :
    h.farRun o sl cs l = .wait ((h.onSbb (fun b => { b with
      seqs := kvPut b.seqs (o * 32 + sl) (rs.map (fun x => [x.addr, x.word, x.ctrl])) })).sbbGo t r.addr r.word r.ctrl r.data
        (some (o * 32 + sl))) := by
  unfold Hw.farRun
  simp only [n, Bool.false_eq_true, if_false]
  rw [Hw.vet_ok _ _ _ a, f, e]

/-- Register images are discarded where every block they name is off (R483). -/
theorem Hw.images_off (h : Hw) (l : List (Nat × Nat × Nat)) (a : ∀ e ∈ l, h.answers e.1 = false) : h.images l = h := by
  unfold Hw.images
  induction l with
  | nil => rfl
  | cons e l ih =>
    have k : h.cfg e.1 e.2.1 e.2.2 = h := if_neg (by rw [a e (List.mem_cons_self ..)]; exact Bool.false_ne_true)
    rw [List.foldl_cons, k]
    exact ih (fun x m => a x (List.mem_cons_of_mem _ m))

/-- With no admitted stream no change breaks a bound. -/
theorem Hw.clean_noAdmitted {h x : Hw} (e : x.tss.admitted = []) : h.clean x noDeadlock := by
  simp [Hw.clean, Hw.judgeNew, noDeadlock, Hw.boundBreaks, e]

@[simp] theorem Hw.putSlot_evq (h : Hw) (o s w : Nat) (vs : List Nat) : (h.putSlot o s w vs).evq = h.evq := rfl
@[simp] theorem Hw.putSlot_own (h : Hw) (o s w : Nat) (vs : List Nat) : (h.putSlot o s w vs).own = h.own := rfl

/-- One word of the mailbox RAM written. -/
theorem putWord_get (m : Kv Nat) (k v j : Nat) :
    kvGetD (if v % 2 ^ 32 = 0 then kvDel m k else kvPut m k (v % 2 ^ 32)) j 0 = if j = k then v % 2 ^ 32 else kvGetD m j 0 := by
  by_cases e : j = k
  · subst e
    rw [if_pos rfl]
    split
    · next z => rw [kvGetD_kvDel_same, z]
    · rw [kvGetD_kvPut_same]
  · rw [if_neg e]
    split
    · unfold kvGetD; rw [kvGet_kvDel_ne _ e]
    · rw [kvGetD_kvPut_ne _ _ _ e]

/-- A key no word goes to keeps its value. -/
theorem putWords_out (b : Nat) (vs : List (Nat × Nat)) (m : Kv Nat) (j : Nat) (h : ∀ p ∈ vs, j ≠ b + p.1) :
    kvGetD (vs.foldl (fun a p => if p.2 % 2 ^ 32 = 0 then kvDel a (b + p.1) else kvPut a (b + p.1) (p.2 % 2 ^ 32)) m) j 0 =
      kvGetD m j 0 := by
  induction vs generalizing m with
  | nil => rfl
  | cons p vs ih =>
    rw [List.foldl_cons, ih _ (fun x hx => h x (List.mem_cons_of_mem _ hx)), putWord_get, if_neg (h p (List.mem_cons_self ..))]

/-- A key one word goes to holds it. -/
theorem putWords_in (b : Nat) (vs : List (Nat × Nat)) (m : Kv Nat) (i v : Nat) (hm : (i, v) ∈ vs) (hu : ∀ p ∈ vs, p.1 = i → p.2 = v) :
    kvGetD (vs.foldl (fun a p => if p.2 % 2 ^ 32 = 0 then kvDel a (b + p.1) else kvPut a (b + p.1) (p.2 % 2 ^ 32)) m) (b + i) 0 =
      v % 2 ^ 32 := by
  induction vs generalizing m with
  | nil => cases hm
  | cons p vs ih =>
    rw [List.foldl_cons]
    by_cases e : (i, v) ∈ vs
    · exact ih _ e (fun x hx => hu x (List.mem_cons_of_mem _ hx))
    · have k : p = (i, v) := by
        cases hm with
        | head => rfl
        | tail _ t => exact absurd t e
      rw [putWords_out b vs _ _ (fun x hx z => e (by
        have z : x.1 = i := by omega
        have w := hu x (List.mem_cons_of_mem _ hx) z
        rw [← z, ← w]; exact hx)), putWord_get, k, if_pos rfl]

/-- A word of a slot that `putSlot` does not write. -/
theorem Hw.slotWord_putSlot_out {h : Hw} {o s w t : Nat} {vs : List Nat} (a : t < w ∨ w + vs.length ≤ t) :
    (h.putSlot o s w vs).slotWord o s t = h.slotWord o s t := by
  unfold Hw.slotWord Hw.putSlot Hw.onMbx
  refine putWords_out (o * 1024 + s * 32 + w) _ _ _ (fun p hp => ?_)
  obtain ⟨i, hi, e⟩ := List.mem_mapIdx.mp hp
  rw [← e]; simp only; omega

/-- A word of another slot. -/
theorem Hw.slotWord_putSlot_slot {h : Hw} {o s w t p : Nat} {vs : List Nat} (_a : p < 32) (b : t < 32) (_c : s < 32) (d : p ≠ s)
    (e : w + vs.length ≤ 32) : (h.putSlot o s w vs).slotWord o p t = h.slotWord o p t := by
  unfold Hw.slotWord Hw.putSlot Hw.onMbx
  refine putWords_out (o * 1024 + s * 32 + w) _ _ _ (fun x hx => ?_)
  obtain ⟨i, hi, e'⟩ := List.mem_mapIdx.mp hx
  rw [← e']; simp only; omega

/-- A word of a slot that `putSlot` writes. -/
theorem Hw.slotWord_putSlot_in {h : Hw} {o s w i : Nat} {vs : List Nat} (a : i < vs.length) (_b : w + i < 32) :
    (h.putSlot o s w vs).slotWord o s (w + i) = vs.getD i 0 % 2 ^ 32 := by
  unfold Hw.slotWord Hw.putSlot Hw.onMbx
  have k := putWords_in (o * 1024 + s * 32 + w) (vs.mapIdx (fun i v => (i, v))) h.mbx.ram i (vs.getD i 0)
    (List.mem_mapIdx.mpr ⟨i, a, by simp [List.getD_eq_getElem?_getD, a]⟩) (fun p hp z => by
      obtain ⟨j, hj, e⟩ := List.mem_mapIdx.mp hp
      rw [← e] at z ⊢
      simp only at z ⊢
      subst z
      simp [List.getD_eq_getElem?_getD, hj])
  rw [← Nat.add_assoc]
  exact k

/-- A completed command leaves its slot. -/
theorem Hw.complete_frees (h : Hw) (k code detail : Nat) (resp : List Nat) : kvGet (h.complete k code detail resp).mbx.slots k = none := by
  unfold Hw.complete
  split
  · assumption
  · next q e =>
    dsimp only
    have m : ∀ x : Hw, ((x.showMbx (k / 32)).post (k / 32) 0x0201 (q.tag * 65536 + k % 32) (q.opcode * 65536 + code % 65536) detail).mbx = x.mbx :=
      fun x => by simp only [Hw.post_mbx, Hw.showMbx, Hw.setFld_mbx, Hw.wn_mbx]
    split
    · simp only [Hw.lateResult, Hw.postMod_mbx, Hw.inc_mbx, m, Hw.onMbx_mbx, kvGet_kvDel_same]
    · simp only [m, Hw.onMbx_mbx, kvGet_kvDel_same]

/-- A command that passes its checks and breaks nothing is carried out. -/
theorem Hw.carriedOut_ok {h : Hw} {o sl op : Nat} {q : Slot} {f : Slot → Gcs} {x : Hw} {resp : List Nat}
    (d : h.runs o sl op q) (e : f q = .ok x resp) (c : h.clean x noDeadlock) :
    h.carriedOut (h.gcsRun o sl op noDeadlock f) o sl op f = some q := by
  rw [Hw.gcsRun_ok d e c]
  obtain ⟨⟨h1, h2, h3, h4, h5, h6, h7⟩, h8⟩ := d
  have c : Hw.judgeNew h x noDeadlock = none := c
  unfold Hw.carriedOut
  simp only [h2, Hw.complete_frees, h7, h8, e, c, Bool.not_true, Bool.or_self, Bool.false_eq_true, if_false, Option.isSome_none]

/-- A command that fails a check is not carried out. -/
theorem Hw.carriedOut_no {h : Hw} {o sl op : Nat} {q : Slot} {f : Slot → Gcs} {x : Hw} {code detail : Nat}
    {resp : List Nat} (d : h.runs o sl op q) (e : f q = .no code detail resp x) :
    h.carriedOut (h.gcsRun o sl op noDeadlock f) o sl op f = none := by
  rw [Hw.gcsRun_no d e]
  obtain ⟨⟨h1, h2, h3, h4, h5, h6, h7⟩, h8⟩ := d
  unfold Hw.carriedOut
  simp only [h2, Hw.complete_frees, h7, h8, e, Bool.not_true, Bool.or_self, Bool.false_eq_true, if_false]

/-- What follows a command that is carried out. -/
theorem Hw.gcsThen_ok {h : Hw} {o sl op : Nat} {q : Slot} {f : Slot → Gcs} {next : Slot → Hw → Hw} {x : Hw} {resp : List Nat}
    (d : h.runs o sl op q) (e : f q = .ok x resp) (c : h.clean x noDeadlock) :
    h.gcsThen o sl op f next = next q ((Hw.settleBounds h x).complete (o * 32 + sl) cOk 0 resp) := by
  have k := Hw.carriedOut_ok d e c
  rw [Hw.gcsRun_ok d e c] at k
  unfold Hw.gcsThen
  simp only [Hw.gcsRun_ok d e c, k]

end Sys2Proof.Machine
end

