-- ==== Sys2Proof/Laws/Host.lean ====
section
/-!
SUPPORT. Laws of host register accesses: what a plain write leaves, bit by bit (R10, R11).
-/
namespace Sys2Proof.Machine

/-- A bit of a register after a full write that hardware sets bits in. -/
theorem Hw.rn_plainWrite_bit {h : Hw} {fn r : Nat} {d : RegDesc} (val hwSet : Nat) (hf : findReg r = some d) (hd : d.hid = false)
    (hm : h.mayWrite fn r) {i : Nat} (hi : i < 32) :
    ((h.plainWrite fn r val hwSet).rn r).testBit i =
      (((if (d.w1c.testBit i && val.testBit i) = true then false
        else if d.rw.testBit i = true then val.testBit i else (h.rn r).testBit i)) || (hwSet.testBit i && d.w1c.testBit i)) := by
  have c5 : (decide (0x200D80 ≤ r) && decide (r < 0x200DE0) && !h.txtsSees fn ((r - 0x200D80) / 4)) = false := by
    by_cases x : 0x200D80 ≤ r
    · by_cases y : r < 0x200DE0
      · simp [hm x y]
      · simp [y]
    · simp [x]
  have hb : ∀ x : Nat, ((x % 2 ^ 32).testBit i) = x.testBit i := by intro x; rw [Nat.testBit_mod_two_pow]; simp [hi]
  have ho : (4294967295 : Nat).testBit i = true := by
    rw [show (4294967295 : Nat) = 2 ^ 32 - 1 from rfl, Nat.testBit_two_pow_sub_one]; simp [hi]
  simp only [Hw.plainWrite, hf, hd, c5, Bool.or_false, Bool.false_eq_true, if_false, Hw.rn_wn_same, hb]
  simp only [Nat.testBit_or, Nat.testBit_and, Nat.testBit_xor, ho]
  cases d.w1c.testBit i <;> cases d.rw.testBit i <;> cases val.testBit i <;> cases (h.rn r).testBit i <;> cases hwSet.testBit i <;> rfl

/-- Every other register is as before. -/
theorem Hw.rn_plainWrite_ne (h : Hw) {fn r r' : Nat} (val hwSet : Nat) (hr : r' ≠ r) :
    (h.plainWrite fn r val hwSet).rn r' = h.rn r' := by
  unfold Hw.plainWrite
  split
  · rfl
  · split
    · rfl
    · exact Hw.rn_wn_ne _ _ hr

/-- Only the register file changes. -/
theorem Hw.plainWrite_regs (h : Hw) (fn r val hwSet : Nat) :
    h.plainWrite fn r val hwSet = { h with regs := (h.plainWrite fn r val hwSet).regs } := by
  unfold Hw.plainWrite
  split
  · rfl
  · split
    · rfl
    · rfl

/-- A write of a register without an action of its own is a plain write. -/
theorem Hw.regWrite_plain (h : Hw) {fn r : Nat} (val hwSet : Nat) (a : ¬ actsOnWrite r) :
    h.regWrite fn r val hwSet = h.plainWrite fn r val hwSet := by
  simp only [actsOnWrite, not_or] at a
  obtain ⟨a1, a2, a3, a4⟩ := a
  unfold Hw.regWrite
  by_cases c1 : 0x10000000 ≤ r
  · rw [if_pos c1, if_neg (by omega)]
  · rw [if_neg c1]
    by_cases c2 : 0x20000 ≤ r ∧ r < 0x40000
    · rw [if_pos c2]
      dsimp only
      split
      · omega
      · omega
      · rfl
    · rw [if_neg c2, if_neg a3, if_neg (by omega)]

/-! ### Words of an access (R7) -/

/-- An access within one word touches that word alone. -/
theorem touched_word {en : Nat} (h : en < 16) : touched en = [0] := by revert en; decide

/-- A read within one aligned word is that word's read. -/
theorem Hw.hostReads_word (h : Hw) {off en : Nat} (fn incr : Nat) (a : off % 4 = 0) (b : en < 16) :
    h.hostReads fn off en incr = h.hostRead fn off en incr := by
  unfold Hw.hostReads
  rw [touched_word b]
  simp [Nat.div_mul_cancel (Nat.dvd_of_mod_eq_zero a), Nat.mod_eq_of_lt b]

/-- A write of at most one word is that word's write. -/
theorem Hw.hostWrites_word (h : Hw) {en : Nat} (fn off val : Nat) (b : en ≠ 255) :
    h.hostWrites fn off en val = h.hostWrite fn off en val 0 := by
  unfold Hw.hostWrites
  rw [if_neg b]

/-! ### Offsets that hold no register (R9) -/

/-- A register array of the block covers its words. -/
theorem findReg_array {r : Nat} {l : List RegDesc} (base : Nat) (dims : List (Nat × Nat)) (a : blockRegs r = l)
    (b : l.any (fun d => d.base == base && d.dims == dims) = true) (c : base ≤ r) (d : coversDims dims (r - base) = true) :
    (findReg r).isSome = true := by
  unfold findReg
  rw [a, List.find?_isSome]
  obtain ⟨x, m, e⟩ := List.any_eq_true.mp b
  simp only [Bool.and_eq_true, beq_iff_eq] at e
  exact ⟨x, m, by simp [RegDesc.covers, e.1, e.2, c, d]⟩

/-- Two offsets of one block have its registers. -/
theorem blockRegs_same {r base : Nat} (a : r / 0x40000 = base / 0x40000) (b : 0x20000 ≤ r) (c : 0x20000 ≤ base) (d : base < 0x10000000) :
    blockRegs r = blockRegs base := by
  unfold blockRegs
  rw [if_neg (by omega), if_neg (by omega), a, if_neg (by omega), if_neg (by omega), if_neg (by omega), if_neg (by omega)]

/-- Membership in a one-dimensional array. -/
theorem coversDims_one {n s x : Nat} (h1 : x < n * s) (h2 : x % s = 0) (h3 : 0 < s) : coversDims [(n, s)] x = true := by
  simp [coversDims, h2, (Nat.div_lt_iff_lt_mul h3).mpr h1]

/-- A word of a one-dimensional register array holds a register. -/
theorem findReg_one {r : Nat} (base n s : Nat)
    (b : (decide (0x20000 ≤ base) && decide (base < 0x10000000) && decide (0 < s) &&
      (blockRegs base).any (fun d => d.base == base && d.dims == [(n, s)])) = true)
    (a : r / 0x40000 = base / 0x40000) (c : base ≤ r) (d : r - base < n * s) (e : (r - base) % s = 0) : (findReg r).isSome = true := by
  simp only [Bool.and_eq_true, decide_eq_true_eq] at b
  obtain ⟨⟨⟨b1, b2⟩, b3⟩, b4⟩ := b
  exact findReg_array base [(n, s)] (blockRegs_same a (by omega) b1 b2) b4 c (coversDims_one d e b3)

/-- Every offset a read of which acts holds a register, doorbells apart. -/
theorem findReg_acting {r : Nat} (w : r % 4 = 0) (h : isPeak r = true ∨ isOctetsLo r = true ∨ (0x200100 ≤ r ∧ r < 0x200500 ∧ r % 0x80 = 0) ∨
    (0x200C00 ≤ r ∧ r < 0x200D80 ∧ r % 16 = 12) ∨ (0x200A00 ≤ r ∧ r < 0x200B00 ∧ r % 0x20 = 8) ∨
    (0x1B9000 ≤ r ∧ r < 0x1BA000 ∧ r % 64 = 0x3C)) : (findReg r).isSome = true := by
  rcases h with h | h | h | h | h | h
  · unfold isPeak Reg.SWC_MMQ_PEAK at h
    simp only [Bool.and_eq_true, decide_eq_true_eq] at h
    exact findReg_one 0x82600 128 4 (by decide +kernel) (by omega) (by omega) (by omega) (by omega)
  · unfold isOctetsLo at h
    simp only [Bool.and_eq_true, Bool.or_eq_true, decide_eq_true_eq, beq_iff_eq] at h
    rcases h.2 with m | m
    · exact findReg_one 0x140800 24 0x1000 (by decide +kernel) (by omega) (by omega) (by omega) (by omega)
    · exact findReg_one 0x140830 24 0x1000 (by decide +kernel) (by omega) (by omega) (by omega) (by omega)
  · exact findReg_one 0x200100 8 0x80 (by decide +kernel) (by omega) (by omega) (by omega) (by omega)
  · exact findReg_one 0x200C0C 24 16 (by decide +kernel) (by omega) (by omega) (by omega) (by omega)
  · exact findReg_one 0x200A08 8 0x20 (by decide +kernel) (by omega) (by omega) (by omega) (by omega)
  · refine findReg_array 0x1B9000 [(64, 64), (16, 4)] (blockRegs_same (base := 0x1B9000) (by omega) (by omega) (by decide) (by decide))
      (by decide +kernel) (by omega) ?_
    have e1 : (r - 0x1B9000) / 64 < 64 := by omega
    have e2 : (r - 0x1B9000) % 64 = 60 := by omega
    simp [coversDims, e1, e2]

/-- A read of an offset that holds no register answers 0 and does nothing else. -/
theorem Hw.hostRead_absent {h : Hw} {fn off r : Nat} (en incr : Nat) (a : h.hostReg fn off = some r) (w : r % 4 = 0)
    (f : findReg r = none) (d : ¬ (0x10000000 ≤ r ∧ r % 256 < 0x80)) : h.hostRead fn off en incr = h.emit (.regData off 0) := by
  have c : ∀ p : Prop, (p → (findReg r).isSome = true) → ¬ p := fun p g x => by simpa [f] using g x
  unfold Hw.hostRead
  rw [Hw.hostAt_reg a]
  simp only [if_neg d, Hw.hostValue, f, Hw.answer, selectBytes_zero, Hw.readEffect]
  rw [if_neg (c _ (fun x => findReg_acting w (.inl x))), if_neg (c _ (fun x => findReg_acting w (.inr (.inl x)))),
    if_neg (c _ (fun x => findReg_acting w (.inr (.inr (.inl x))))),
    if_neg (c _ (fun x => findReg_acting w (.inr (.inr (.inr (.inl x)))))),
    if_neg (c _ (fun x => findReg_acting w (.inr (.inr (.inr (.inr (.inl x))))))),
    if_neg (c _ (fun x => findReg_acting w (.inr (.inr (.inr (.inr (.inr x)))))))]
  split <;> rfl

/-- Every offset a write of which acts holds a register, MBX_ABORT of an owner apart. -/
theorem findReg_written {r : Nat} (h : (0x20000 ≤ r ∧ r < 0x40000 ∧ (r % 256 = 0 ∨ r % 256 = 0x14)) ∨
    (0x60000 ≤ r ∧ r < 0x80000 ∧ (r % 0x40 = 0 ∨ r % 0x40 = 4 ∨ r % 0x40 = 8 ∨ r % 0x40 = 12 ∨ r % 0x40 = 0x14 ∨ r % 0x40 = 0x18 ∨
      r % 0x40 = 0x1C ∨ r % 0x40 = 0x24)) ∨ (0x200100 ≤ r ∧ r < 0x200500 ∧ r % 0x80 = 0x44)) : (findReg r).isSome = true := by
  rcases h with ⟨h1, h2, h⟩ | ⟨h1, h2, h⟩ | h
  · rcases h with h | h
    · exact findReg_one 0x20000 512 256 (by decide +kernel) (by omega) (by omega) (by omega) (by omega)
    · exact findReg_one 0x20014 512 256 (by decide +kernel) (by omega) (by omega) (by omega) (by omega)
  · rcases h with h | h | h | h | h | h | h | h
    · exact findReg_one 0x60000 2048 0x40 (by decide +kernel) (by omega) (by omega) (by omega) (by omega)
    · exact findReg_one 0x60004 2048 0x40 (by decide +kernel) (by omega) (by omega) (by omega) (by omega)
    · exact findReg_one 0x60008 2048 0x40 (by decide +kernel) (by omega) (by omega) (by omega) (by omega)
    · exact findReg_one 0x6000C 2048 0x40 (by decide +kernel) (by omega) (by omega) (by omega) (by omega)
    · exact findReg_one 0x60014 2048 0x40 (by decide +kernel) (by omega) (by omega) (by omega) (by omega)
    · exact findReg_one 0x60018 2048 0x40 (by decide +kernel) (by omega) (by omega) (by omega) (by omega)
    · exact findReg_one 0x6001C 2048 0x40 (by decide +kernel) (by omega) (by omega) (by omega) (by omega)
    · exact findReg_one 0x60024 2048 0x40 (by decide +kernel) (by omega) (by omega) (by omega) (by omega)
  · exact findReg_one 0x200144 8 0x80 (by decide +kernel) (by omega) (by omega) (by omega) (by omega)

/-- A write to an offset that holds no register does nothing. -/
theorem Hw.hostWrite_absent {h : Hw} {fn off r : Nat} (en val hwSet : Nat) (a : h.hostReg fn off = some r) (f : findReg r = none)
    (d : ¬ (0x10000000 ≤ r ∧ r % 256 = 0x80)) : h.hostWrite fn off en val hwSet = h := by
  have c : ∀ p : Prop, (p → (findReg r).isSome = true) → ¬ p := fun p g x => by simpa [f] using g x
  have p : ∀ v, h.plainWrite fn r v hwSet = h := fun v => by simp [Hw.plainWrite, f]
  have q : ∀ v, h.regWrite fn r v hwSet = h := by
    intro v
    unfold Hw.regWrite
    split
    · next x => rw [if_neg (by omega), p]
    · split
      · next x =>
        have n := c _ (fun y => findReg_written (.inl ⟨x.1, x.2, y⟩))
        dsimp only
        split
        · omega
        · omega
        · exact p v
      · split
        · next x =>
          have n := c _ (fun y => findReg_written (.inr (.inl ⟨x.1, x.2, y⟩)))
          unfold Hw.qWrite
          dsimp only
          split <;> first | rfl | omega
        · split
          · next x => exact absurd x (c _ (fun y => findReg_written (.inr (.inr y))))
          · exact p v
  unfold Hw.hostWrite
  rw [Hw.hostAt_reg a]
  simp only [q, ite_self]

end Sys2Proof.Machine
end

