-- ==== Sys2Proof/Laws/Memory.lean ====
section
/-!
SUPPORT. Laws of the general banks' memory: read after write, every other byte unchanged, the canonical form kept.
-/
namespace Sys2Proof.Machine

/-- Every cell of a canonical memory lies above its first address. -/
theorem memWf_tail {c : Host.Cell} {m : List Host.Cell} (h : memWf (c :: m) = true) : memWf m = true := by
  cases m with
  | nil => rfl
  | cons d m => simp [memWf] at h; exact h.2

/-- The value of the first cell of a canonical memory is not 0. -/
theorem memWf_head {c : Host.Cell} {m : List Host.Cell} (h : memWf (c :: m) = true) : c.2 ≠ 0 := by
  cases m with
  | nil => simpa [memWf] using h
  | cons d m => simp [memWf] at h; exact h.1.1

/-- Addresses below the first cell of a canonical memory read 0. -/
theorem readByte_below {m : List Host.Cell} : ∀ {c : Host.Cell} {a : Nat}, memWf (c :: m) = true → a ≤ c.1 → a ≠ c.1 →
    readByte (c :: m) a = 0 := by
  induction m with
  | nil => intro c a _ _ hn; simp [readByte, Ne.symm hn]
  | cons d m ih =>
    intro c a h hl hn
    have hd : c.1 < d.1 := by simp [memWf] at h; exact h.1.2
    have := ih (c := d) (a := a) (memWf_tail h) (by omega) (by omega)
    simp only [readByte] at this ⊢
    rw [if_neg (Ne.symm hn)]
    exact this

/-- A byte just written reads back. -/
theorem readByte_writeByte_same (m : List Host.Cell) (a : Nat) (v : Byte) (h : memWf m = true) :
    readByte (writeByte m a v) a = v := by
  induction m with
  | nil => by_cases hv : v = 0#8 <;> simp [writeByte, readByte, hv]
  | cons c m ih =>
    have ht := memWf_tail h
    unfold writeByte
    split
    · next hlt =>
      split
      · next hv => rw [hv]; exact readByte_below h (by omega) (by omega)
      · simp [readByte]
    · split
      · next hlt he =>
        split
        · next hv =>
          rw [hv]
          cases m with
          | nil => rfl
          | cons d m =>
            have hd : c.1 < d.1 := by simp [memWf] at h; exact h.1.2
            exact readByte_below ht (by omega) (by omega)
        · simp [readByte]
      · next hlt hne => simp only [readByte, if_neg (Ne.symm hne)]; exact ih ht

/-- Every other byte reads as before. -/
theorem readByte_writeByte_ne (m : List Host.Cell) (a b : Nat) (v : Byte) (hb : b ≠ a) :
    readByte (writeByte m a v) b = readByte m b := by
  induction m with
  | nil => by_cases hv : v = 0#8 <;> simp [writeByte, readByte, hv, Ne.symm hb]
  | cons c m ih =>
    unfold writeByte
    split
    · split
      · rfl
      · simp [readByte, Ne.symm hb]
    · split
      · next he =>
        have hc : c.1 ≠ b := by omega
        split <;> simp [readByte, hc, Ne.symm hb]
      · simp only [readByte, ih]

/-- A cell of a written memory is the one written or one that was there. -/
theorem mem_writeByte {m : List Host.Cell} {a : Nat} {v : Byte} {c : Host.Cell} (h : c ∈ writeByte m a v) :
    c ∈ m ∨ c = (a, v) := by
  induction m with
  | nil => by_cases hv : v = 0#8 <;> simp_all [writeByte]
  | cons d m ih =>
    unfold writeByte at h
    split at h
    · split at h
      · exact .inl h
      · simp only [List.mem_cons] at h ⊢; tauto
    · split at h
      · split at h
        · exact .inl (List.mem_cons_of_mem _ h)
        · simp only [List.mem_cons] at h ⊢; tauto
      · simp only [List.mem_cons] at h ⊢
        rcases h with h | h
        · exact .inl (.inl h)
        · rcases ih h with h | h
          · exact .inl (.inr h)
          · exact .inr h

/-- The canonical form is that of a list sorted by address without a zero byte. -/
theorem memWf_iff (m : List Host.Cell) :
    memWf m = true ↔ m.Pairwise (fun c d => c.1 < d.1) ∧ ∀ c ∈ m, c.2 ≠ 0 := by
  induction m with
  | nil => simp [memWf]
  | cons c m ih =>
    cases m with
    | nil => simp [memWf]
    | cons d m =>
      have e : memWf (c :: d :: m) = (c.2 != 0 && decide (c.1 < d.1) && memWf (d :: m)) := rfl
      rw [e, Bool.and_eq_true, Bool.and_eq_true, ih]
      constructor
      · rintro ⟨⟨h1, h2⟩, h3, h4⟩
        have h2 : c.1 < d.1 := of_decide_eq_true h2
        refine ⟨List.pairwise_cons.2 ⟨?_, h3⟩, ?_⟩
        · intro x hx
          rcases List.mem_cons.1 hx with rfl | hx
          · exact h2
          · exact Nat.lt_trans h2 (List.rel_of_pairwise_cons h3 hx)
        · intro x hx
          rcases List.mem_cons.1 hx with rfl | hx
          · simpa using h1
          · exact h4 x hx
      · rintro ⟨h1, h2⟩
        have h1' := List.pairwise_cons.1 h1
        refine ⟨⟨by simpa using h2 c (by simp), decide_eq_true (h1'.1 d (by simp))⟩, h1'.2, fun x hx => h2 x (by simp [hx])⟩

/-- Writing a byte keeps the canonical form. -/
theorem memWf_writeByte (m : List Host.Cell) (a : Nat) (v : Byte) (h : memWf m = true) : memWf (writeByte m a v) = true := by
  rw [memWf_iff] at h ⊢
  obtain ⟨hs, hz⟩ := h
  induction m with
  | nil => by_cases hv : v = 0#8 <;> simp [writeByte, hv]
  | cons c m ih =>
    have hs' := List.pairwise_cons.1 hs
    have hz' : ∀ x ∈ m, x.2 ≠ 0 := fun x hx => hz x (by simp [hx])
    unfold writeByte
    split
    · next hlt =>
      split
      · exact ⟨hs, hz⟩
      · next hv =>
        refine ⟨List.pairwise_cons.2 ⟨?_, hs⟩, ?_⟩
        · intro x hx
          rcases List.mem_cons.1 hx with rfl | hx
          · exact hlt
          · exact Nat.lt_trans hlt (hs'.1 x hx)
        · intro x hx
          rcases List.mem_cons.1 hx with rfl | hx
          · exact hv
          · exact hz x hx
    · split
      · next he =>
        split
        · exact ⟨hs'.2, hz'⟩
        · next hv =>
          refine ⟨List.pairwise_cons.2 ⟨fun x hx => he ▸ hs'.1 x hx, hs'.2⟩, ?_⟩
          intro x hx
          rcases List.mem_cons.1 hx with rfl | hx
          · exact hv
          · exact hz' x hx
      · next hlt hne =>
        obtain ⟨i1, i2⟩ := ih hs'.2 hz'
        refine ⟨List.pairwise_cons.2 ⟨?_, i1⟩, ?_⟩
        · intro x hx
          rcases mem_writeByte hx with hx | rfl
          · exact hs'.1 x hx
          · simp only; omega
        · intro x hx
          rcases List.mem_cons.1 hx with rfl | hx
          · exact hz _ (by simp)
          · exact i2 x hx

/-- Writing bytes keeps the canonical form. -/
theorem memWf_writeMem (n : Nat) : ∀ (m : List Host.Cell) (a v : Nat), memWf m = true → memWf (writeMem m a n v) = true := by
  induction n with
  | zero => intro m a v h; exact h
  | succ n ih => intro m a v h; exact ih _ _ _ (memWf_writeByte m a _ h)

/-- Clearing a range keeps the canonical form. -/
theorem memWf_clearMem (m : List Host.Cell) (a n : Nat) (h : memWf m = true) : memWf (clearMem m a n) = true := by
  rw [memWf_iff] at h ⊢
  exact ⟨h.1.filter _, fun x hx => h.2 x (List.mem_of_mem_filter hx)⟩

/-- Bytes outside the written range read as before. -/
theorem readByte_writeMem_outside (n : Nat) : ∀ (m : List Host.Cell) (a v b : Nat), b < a ∨ a + n ≤ b →
    readByte (writeMem m a n v) b = readByte m b := by
  induction n with
  | zero => intros; rfl
  | succ n ih =>
    intro m a v b hb
    unfold writeMem
    rw [ih _ _ _ _ (by omega), readByte_writeByte_ne _ _ _ _ (by omega)]

/-- A value just written reads back, modulo its width. -/
theorem readMem_writeMem (n : Nat) : ∀ (m : List Host.Cell) (a v : Nat), memWf m = true →
    readMem (writeMem m a n v) a n = v % 256 ^ n := by
  induction n with
  | zero => intro m a v _; simp [readMem, Nat.mod_one]
  | succ n ih =>
    intro m a v h
    have h1 : readByte (writeMem (writeByte m a (BitVec.ofNat 8 v)) (a + 1) n (v / 256)) a = BitVec.ofNat 8 v := by
      rw [readByte_writeMem_outside _ _ _ _ _ (by omega), readByte_writeByte_same _ _ _ h]
    have h2 := ih (writeByte m a (BitVec.ofNat 8 v)) (a + 1) (v / 256) (memWf_writeByte m a _ h)
    simp only [writeMem, readMem, h1, h2, BitVec.toNat_ofNat]
    have e : v % 256 ^ (n + 1) = v % 256 + 256 * (v / 256 % 256 ^ n) := by rw [Nat.pow_succ']; exact Nat.mod_mul
    rw [e]

end Sys2Proof.Machine
end

