-- ==== Sys2Proof/Laws/Tables.lean ====
section
/-!
SUPPORT. Laws of what writes no register, and of the learning arbiter's writes: which registers a write of the exact-match table may
change (R81, R82).
-/
namespace Sys2Proof.Machine

/-! ### Updates beside the registers -/

@[simp] theorem Hw.onTime_regs (h : Hw) (f : TimeSt → TimeSt) : (h.onTime f).regs = h.regs := rfl
@[simp] theorem Hw.onEvq_regs (h : Hw) (f : Evq → Evq) : (h.onEvq f).regs = h.regs := rfl
@[simp] theorem Hw.onCan_regs (h : Hw) (c : Nat) (f : CanC → CanC) : (h.onCan c f).regs = h.regs := rfl
@[simp] theorem Hw.onLin_regs (h : Hw) (l : Nat) (f : LinC → LinC) : (h.onLin l f).regs = h.regs := rfl
@[simp] theorem Hw.onRill_regs (h : Hw) (r : Nat) (f : Rill → Rill) : (h.onRill r f).regs = h.regs := rfl
@[simp] theorem Hw.onRing_regs (h : Hw) (r : Nat) (f : RsvRing → RsvRing) : (h.onRing r f).regs = h.regs := rfl
@[simp] theorem Hw.onRingAt_regs (h : Hw) (r : Nat) (f : Ring → Ring) : (h.onRingAt r f).regs = h.regs := rfl
@[simp] theorem Hw.onFrame_regs (h : Hw) (i : Nat) (f : Frame → Frame) : (h.onFrame i f).regs = h.regs := rfl
@[simp] theorem Hw.onTx_regs (h : Hw) (t : Nat) (f : SbbTx → SbbTx) : (h.onTx t f).regs = h.regs := rfl

@[simp] theorem Hw.can_onCan_same (h : Hw) (c : Nat) (f : CanC → CanC) : (h.onCan c f).can c = f (h.can c) := by
  simp only [Hw.onCan, Hw.can, kvGetD_kvMod_same]
@[simp] theorem Hw.lin_onLin_same (h : Hw) (l : Nat) (f : LinC → LinC) : (h.onLin l f).lin l = f (h.lin l) := by
  simp only [Hw.onLin, Hw.lin, kvGetD_kvMod_same]
@[simp] theorem Hw.ringAt_onRingAt_same (h : Hw) (r : Nat) (f : Ring → Ring) : (h.onRingAt r f).ringAt r = f (h.ringAt r) := by
  simp only [Hw.onRingAt, Hw.onHdma, Hw.ringAt, kvGetD_kvMod_same]

/-- A full host write of displacement `d` of pair `r` acts on that pair. -/
theorem Hw.onQueuePair_at {h : Hw} {fn off r d : Nat} {p : Nat → Bool} {f : Nat → Nat → Hw}
    (a : h.hostReg fn off = some (0x60000 + 0x40 * r + d)) (hr : r < 2048) (hd : d < 0x40) (hp : p d = true) :
    h.onQueuePair fn off 15 p f = f (0x60000 + 0x40 * r + d) r := by
  unfold Hw.onQueuePair
  rw [a]
  have e1 : (0x60000 + 0x40 * r + d) % 0x40 = d := by omega
  have e2 : (0x60000 + 0x40 * r + d - 0x60000) / 0x40 = r := by omega
  show (if _ then _ else _) = _
  rw [e1, e2, if_pos ⟨rfl, by omega, by omega, hp⟩]

/-- Readiness bits, their records and their sources leave the host interface alone. -/
@[simp] theorem Hw.clrReady_hdma (h : Hw) (off : Nat) (f : Field) (k : Nat) : (h.clrReady off f k).hdma = h.hdma := by
  unfold Hw.clrReady
  split
  · unfold Hw.readyRecord Hw.mirror
    dsimp only
    split <;> split <;> simp
  · rfl

/-- One change record touches FWD_CHANGE_SEQ and FWD_STATUS alone (R82). -/
theorem Hw.rn_changedOne_ne (h : Hw) (c : Nat × Nat × TblVal) {r : Nat} (h1 : r ≠ Reg.FWD_STATUS) (h2 : r ≠ Reg.FWD_CHANGE_SEQ) :
    (h.changedOne c).rn r = h.rn r := by
  unfold Hw.changedOne
  dsimp only
  split
  · rw [Hw.rn_setFld_ne _ _ _ h1, Hw.rn_wn_ne _ _ h2]
  · exact (Hw.rn_congr rfl _).trans (Hw.rn_wn_ne _ _ h2)

/-- Change records touch the same two registers alone. -/
theorem Hw.rn_changed_ne (h : Hw) (l : List (Nat × Nat × TblVal)) {r : Nat} (h1 : r ≠ Reg.FWD_STATUS) (h2 : r ≠ Reg.FWD_CHANGE_SEQ) :
    (h.changed l).rn r = h.rn r := by
  unfold Hw.changed
  induction l generalizing h with
  | nil => rfl
  | cons c cs ih => exact (ih _).trans (Hw.rn_changedOne_ne h c h1 h2)

/-- A table write touches the same two registers alone. -/
theorem Hw.rn_emWrite_ne (h : Hw) (via : Option Bool) (ws : List (Nat × Option EmEntry)) {r : Nat} (h1 : r ≠ Reg.FWD_STATUS)
    (h2 : r ≠ Reg.FWD_CHANGE_SEQ) : (h.emWrite via ws).rn r = h.rn r := by
  unfold Hw.emWrite
  split
  · rfl
  · exact (Hw.rn_changed_ne _ _ h1 h2).trans (Hw.rn_congr rfl _)

end Sys2Proof.Machine
end

