-- ==== Sys2Proof/Tests/Slice0.lean ====
section
/-!
SUPPORT. The model's own tests: ill-formed commands refused, the hypotheses of every statement met, small behaviour checks.
-/
namespace Sys2Proof.Machine

set_option Elab.async false

/-- The machine after reset with its hardware changed. -/
def onReset (f : Hw → Hw) : State := { State.reset with hw := f State.reset.hw }

/-- An ill-formed host access is refused by the check. -/
theorem test_wf_bad_offset : (Instr.registerWrite 0 3 15 0).wf = false := by decide

/-- Every domain on and good, the Basin, the tables, the scheduler, the time unit and the video engine ready. -/
def tReady (h : Hw) : Hw :=
  ((((((h.setFld Reg.PWR_DOMAIN_PG_LO ⟨31, 0⟩ 0xFFFFFFFF).setFld Reg.PWR_DOMAIN_PG_HI ⟨31, 0⟩ 0xFFFFFFFF).setFld
    Reg.SWC_STATUS Fld.SWC_STATUS_READY 1).setFld Reg.FWD_STATUS Fld.FWD_STATUS_READY 1).setFld
    Reg.TSS_STATUS Fld.TSS_STATUS_READY 1).setFld Reg.TIME_STATUS Fld.TIME_STATUS_READY 1).setFld Reg.VIE_STATUS Fld.VIE_STATUS_READY 1

/-- The control firmware runs. -/
def tFw (h : Hw) : Hw := h.setFld Reg.MBX_STATUS Fld.MBX_STATUS_READY 1

/-- An ordinary frame in reception at port 3. -/
def tFrame : Frame :=
  { id := 0, cells := [], len := 64, owner := 1, keySel := 0, ingress := 3, cls := 0, arrival := 0, quota := 255, acct := 24,
    bad := none, tail := false, asked := false, looked := false, dead := false, stamps := [], copies := [], stream := none,
    vie := none, vid := 1, pcp := 0, untag := 0, edit := noEdit, tsReq := none, refund := [], sdu := none, acl := none,
    kind := 0, dest := none, sentAt := [], dests := 0, cut := false, tie := false, dei := false,
    limit := (36, 2), counted := false, heldBy := [], told := none }

/-- Frames in the Basin. -/
def tFrames (l : List Frame) (h : Hw) : Hw := h.onSwc (fun w => { w with frames := l })

/-- The PCIe link up, the function of owner 2 a bus master. -/
def tLink (h : Hw) : Hw := { h with hdma := { h.hdma with linkUp := true, fn := [(2, ⟨true, false, 512⟩)] } }

/-- A slot that holds an ACTIVE command with a payload and the host buffer it named. -/
def tSlot (op : Nat) (ws : List Nat) (buf : List Byte) : Slot :=
  ⟨2, [op, 4 * ws.length * 65536 + 7, 0, 0] ++ ws, 0, buf, false, [], false⟩

/-- The machine after reset with its hardware changed and a command ACTIVE in slot 0 of an owner. -/
def tGcs (o op : Nat) (ws : List Nat) (buf : List Byte) (f : Hw → Hw) : State :=
  onReset (fun h => (f h).onMbx (fun m => { m with slots := [(o * 32, tSlot op ws buf)] }))

/-! ### Published vectors of the cryptographic functions (R4) -/

/-- FIPS 197, appendix C.3: AES-256 of the example block. -/
theorem test_aes256 : aesEnc (aesKeys 8 0x000102030405060708090a0b0c0d0e0f101112131415161718191a1b1c1d1e1f)
    0x00112233445566778899aabbccddeeff = 0x8ea2b7ca516745bfeafc49904b496089 := by decide +kernel

/-- FIPS 180-4: SHA-384 of abc. -/
theorem test_sha384 : (sha384 [0x61, 0x62, 0x63]).toNat =
    0xcb00753f45a35e8bb5a03d699ac65007272c32ab0eded1631a8b605a43ff5bed8086072ba1e7cc2358baeca134c825a7 := by decide +kernel

/-- IEEE 1619, vector 15: AES-XTS over a part block. -/
theorem test_xts128 : xts128 true 0xfffefdfcfbfaf9f8f7f6f5f4f3f2f1f0 0xbfbebdbcbbbab9b8b7b6b5b4b3b2b1b0 0x123456789a
    ((List.range 17).map (BitVec.ofNat 8)) = toBe 17 0x6c1625db4671522d3d7599601de7ca09ed := by decide +kernel

/-- SP 800-38D's test case 2: the tag of one zero block under a zero key. -/
theorem test_gcm128 : (gcmTag128 0 (List.replicate 12 0) [] (gcmXor128 0 (List.replicate 12 0) (List.replicate 16 0))).toNat =
    0xab6e47d42cec13bdf53a67b21257bddf := by decide +kernel

/-- The double of the base point of P-384. -/
theorem test_p384 : (pubP384 2).toNat / 2 ^ 384 =
    0x08d999057ba3d2d969260045c55b97f089025959a6f434d651d207d19fb96e9e4fe0e86ebe0e64f85b96a9c75295df61 := by decide +kernel

/-- The hypotheses of `Obligations.MemAndPwrCommandsComplete` can be met (part 1). -/
theorem test_meets_MemAndPwrCommandsComplete :
  ((let s : State := tGcs 1 0x0B01 [2, 1] [] id
    let owner : Nat := 1
    let slot : Nat := 0
    let q : Slot := tSlot 0x0B01 [2, 1] []
    let h := s.hw
    let b := q.w 0
    let new := q.w 1 % 512
    let pass := bit (q.w 1) 31
    s.hw.runs owner slot 0x0B01 q ∧
    (∀ chk ∈ ([h.denyBank owner b, (pass && h.bankFld b Fld.MEM_BANK_OWNER_OWNER != owner, cDenied, resWord 8 b),
        q.reserved [15, 0x800001FF], (!h.alive new, cNoObject, new), badState (h.bankFld b Fld.MEM_BANK_OWNER_FAILED == 1) 8 b] : List Check), chk.1 = false))) ∧
  ((let s : State := tGcs 1 0x0B02 [4, 1] [] id
    let owner : Nat := 1
    let slot : Nat := 0
    let q : Slot := tSlot 0x0B02 [4, 1] []
    let h := s.hw
    let b := q.w 0
    let on := bit (q.w 1) 0
    let k := owner * 32 + slot
    let after : Hw := h.retainFw b on
    s.hw.runs owner slot 0x0B02 q ∧
    (∀ chk ∈ ([if b < 32 then only1 owner else h.denyBank owner (b - 32), q.reserved [63, 3], badAt (decide (48 ≤ b)) 0,
        (on && decide (b < 32) && h.mem.used.testBit b, cState, b)] : List Check), chk.1 = false) ∧
    (b < 32) ∧
    h.clean after noDeadlock)) ∧
  ((let s : State := tGcs 1 0x0B02 [34, 0] [] id
    let owner : Nat := 1
    let slot : Nat := 0
    let q : Slot := tSlot 0x0B02 [34, 0] []
    let h := s.hw
    let b := q.w 0
    let on := bit (q.w 1) 0
    let k := owner * 32 + slot
    let after : Hw := (h.setBank (b - 32) Fld.MEM_BANK_OWNER_AUTO_WAKE (bits (q.w 1) 1 1)).retainOff (b - 32)
    s.hw.runs owner slot 0x0B02 q ∧
    (∀ chk ∈ ([if b < 32 then only1 owner else h.denyBank owner (b - 32), q.reserved [63, 3], badAt (decide (48 ≤ b)) 0,
        (on && decide (b < 32) && h.mem.used.testBit b, cState, b)] : List Check), chk.1 = false) ∧
    (32 ≤ b) ∧
    (on = false) ∧
    h.clean after noDeadlock)) ∧
  ((let s : State := tGcs 1 0x0B02 [34, 1] [] (fun h => h.setBank 2 Fld.MEM_BANK_OWNER_RETAINED 1)
    let owner : Nat := 1
    let slot : Nat := 0
    let q : Slot := tSlot 0x0B02 [34, 1] []
    let h := s.hw
    let b := q.w 0
    let on := bit (q.w 1) 0
    let k := owner * 32 + slot
    let x := (h.setBank (b - 32) Fld.MEM_BANK_OWNER_AUTO_WAKE (bits (q.w 1) 1 1))
    let after : Hw := x
    s.hw.runs owner slot 0x0B02 q ∧
    (∀ chk ∈ ([if b < 32 then only1 owner else h.denyBank owner (b - 32), q.reserved [63, 3], badAt (decide (48 ≤ b)) 0,
        (on && decide (b < 32) && h.mem.used.testBit b, cState, b)] : List Check), chk.1 = false) ∧
    (32 ≤ b) ∧
    (on = true) ∧
    (x.bankFld (b - 32) Fld.MEM_BANK_OWNER_RETAINED = 1 ∧ x.bankFld (b - 32) Fld.MEM_BANK_OWNER_WAKING = 0) ∧
    h.clean after noDeadlock)) ∧
  ((let s : State := tGcs 1 0x0B02 [34, 1] [] id
    let owner : Nat := 1
    let slot : Nat := 0
    let q : Slot := tSlot 0x0B02 [34, 1] []
    let h := s.hw
    let b := q.w 0
    let on := bit (q.w 1) 0
    let k := owner * 32 + slot
    let x := (h.setBank (b - 32) Fld.MEM_BANK_OWNER_AUTO_WAKE (bits (q.w 1) 1 1))
    s.hw.runs owner slot 0x0B02 q ∧
    (∀ chk ∈ ([if b < 32 then only1 owner else h.denyBank owner (b - 32), q.reserved [63, 3], badAt (decide (48 ≤ b)) 0,
        (on && decide (b < 32) && h.mem.used.testBit b, cState, b)] : List Check), chk.1 = false) ∧
    (32 ≤ b) ∧
    (on = true) ∧
    (¬ (x.bankFld (b - 32) Fld.MEM_BANK_OWNER_RETAINED = 1 ∧ x.bankFld (b - 32) Fld.MEM_BANK_OWNER_WAKING = 0)))) ∧
  ((let s : State := tGcs 1 0x0B03 [1, 2, 1] [] id
    let owner : Nat := 1
    let slot : Nat := 0
    let q : Slot := tSlot 0x0B03 [1, 2, 1] []
    let h := s.hw
    let fw := bitsOf 32 (q.w 0)
    let gen := bitsOf 16 (q.w 1)
    let banks := fw ++ gen.map (32 + ·)
    let keep := bit (q.w 2) 0
    s.hw.runs owner slot 0x0B03 q ∧
    (∀ chk ∈ (([(!fw.isEmpty && owner != 1, cDenied, 0)] ++ gen.map (h.denyBank owner) ++
        [q.reserved [0xFFFFFFFF, 0xFFFF, 1], badAt banks.isEmpty 0] ++
        banks.map (fun b => (!h.marchable keep b, cState, if b < 32 then b else resWord 8 (b - 32)))) : List Check), chk.1 = false) ∧
    (h.mem.march.isSome = false))) := by
  refine ⟨?_, ?_, ?_, ?_, ?_, ?_⟩ <;> decide +kernel

/-- The hypotheses of `Obligations.MemAndPwrCommandsComplete` can be met (part 2). -/
theorem test_meets_MemAndPwrCommandsComplete_2 :
  ((let s : State := tGcs 1 0x0B03 [1, 2, 1] [] (fun h => h.onMem (fun m => { m with march := some ⟨[1], true, 0, none, 0⟩ }))
    let owner : Nat := 1
    let slot : Nat := 0
    let q : Slot := tSlot 0x0B03 [1, 2, 1] []
    let h := s.hw
    let fw := bitsOf 32 (q.w 0)
    let gen := bitsOf 16 (q.w 1)
    let banks := fw ++ gen.map (32 + ·)
    let keep := bit (q.w 2) 0
    s.hw.runs owner slot 0x0B03 q ∧
    (∀ chk ∈ (([(!fw.isEmpty && owner != 1, cDenied, 0)] ++ gen.map (h.denyBank owner) ++
        [q.reserved [0xFFFFFFFF, 0xFFFF, 1], badAt banks.isEmpty 0] ++
        banks.map (fun b => (!h.marchable keep b, cState, if b < 32 then b else resWord 8 (b - 32)))) : List Check), chk.1 = false) ∧
    (h.mem.march.isSome = true))) ∧
  ((let s : State := tGcs 1 0x0B04 [] [] id
    let owner : Nat := 1
    let slot : Nat := 0
    let q : Slot := tSlot 0x0B04 [] []
    let h := s.hw
    let after : Hw := h
    s.hw.runs owner slot 0x0B04 q ∧
    h.clean after noDeadlock)) ∧
  ((let s : State := tGcs 1 0x0B05 [] [] id
    let owner : Nat := 1
    let slot : Nat := 0
    let q : Slot := tSlot 0x0B05 [] []
    let h := s.hw
    let after : Hw := h
    s.hw.runs owner slot 0x0B05 q ∧
    h.clean after noDeadlock)) ∧
  ((let s : State := tGcs 1 0x0B06 [3, 0, 0] [] id
    let owner : Nat := 1
    let slot : Nat := 0
    let q : Slot := tSlot 0x0B06 [3, 0, 0] []
    let h := s.hw
    let i := q.w 0
    let c := q.w 1
    let n := q.w 2
    let en := getF c Fld.MEM_LPDDR_REGION_EN == 1
    let t := getF c Fld.MEM_LPDDR_REGION_TYPE
    let b := getF c Fld.MEM_LPDDR_REGION_BASE_MIB
    let o := getF c Fld.MEM_LPDDR_REGION_OWNER
    let hit := (List.range 32).find? (fun k => k != i && h.flag (Reg.MEM_LPDDR_REGION k) Fld.MEM_LPDDR_REGION_EN &&
      decide (b < h.fld (Reg.MEM_LPDDR_REGION k) Fld.MEM_LPDDR_REGION_BASE_MIB + h.rn (Reg.MEM_LPDDR_SIZE k)) &&
      decide (h.fld (Reg.MEM_LPDDR_REGION k) Fld.MEM_LPDDR_REGION_BASE_MIB < b + n))
    let after : Hw := (h.images [(Reg.MEM_LPDDR_REGION i, 0xF1FF1FFF, c), (Reg.MEM_LPDDR_SIZE i, 0x1FFF, n)])
    s.hw.runs owner slot 0x0B06 q ∧
    (∀ chk ∈ ([only1 owner, q.reserved [31, 0xF1FF1FFF, 0x1FFF], badAt (decide (3 < t)) 4,
        badAt (en && decide (min Config.lpddrMib 8192 < b + n)) 4, badAt (en && n = 0) 8,
        badAt (en && t = 2 && decide (8 < n + h.regionTotal i 2)) 8,
        (en && !h.alive o, cNoObject, o), (en && hit.isSome, cConflict, hit.getD 0)] : List Check), chk.1 = false) ∧
    h.clean after noDeadlock)) ∧
  ((let s : State := tGcs 1 0x0C01 [1, 0, 0, 0, 1] [] (fun h => h.onPwr (fun p => { p with busy := false }))
    let owner : Nat := 1
    let slot : Nat := 0
    let q : Slot := tSlot 0x0C01 [1, 0, 0, 0, 1] []
    let h := s.hw
    let goal := q.w 0
    let group := q.w 1
    let m := q.mask 2
    let armed := h.wn Reg.PWR_WAKE_ARM (q.w 4)
    let after : Hw := armed.onPwr (fun p => { p with req := some ⟨goal, 0, 0, none, h.clk + 500000⟩ })
    s.hw.runs owner slot 0x0C01 q ∧
    (∀ chk ∈ (([q.reserved [7, 7, 0xFFFFFFFF, 0x3FFFF, 0xFFFFFFFF], badAt (decide (4 < goal)) 0, badAt (decide (5 < group)) 4] ++
        (if goal = 3 then h.maskChecks m 8 (armed.domainsOf 3 m group) else [])) : List Check), chk.1 = false) ∧
    ((h.pwr.busy || h.pwr.req.isSome) = false) ∧
    (goal ≤ 1) ∧
    h.clean after noDeadlock)) ∧
  ((let s : State := tGcs 1 0x0C01 [2, 0, 0, 0, 1] [] (fun h => h.onPwr (fun p => { p with busy := false }))
    let owner : Nat := 1
    let slot : Nat := 0
    let q : Slot := tSlot 0x0C01 [2, 0, 0, 0, 1] []
    let h := s.hw
    let goal := q.w 0
    let group := q.w 1
    let m := q.mask 2
    let armed := h.wn Reg.PWR_WAKE_ARM (q.w 4)
    s.hw.runs owner slot 0x0C01 q ∧
    (∀ chk ∈ (([q.reserved [7, 7, 0xFFFFFFFF, 0x3FFFF, 0xFFFFFFFF], badAt (decide (4 < goal)) 0, badAt (decide (5 < group)) 4] ++
        (if goal = 3 then h.maskChecks m 8 (armed.domainsOf 3 m group) else [])) : List Check), chk.1 = false) ∧
    ((h.pwr.busy || h.pwr.req.isSome) = false) ∧
    (1 < goal))) := by
  refine ⟨?_, ?_, ?_, ?_, ?_, ?_⟩ <;> decide +kernel

/-- The hypotheses of `Obligations.MemAndPwrCommandsComplete` can be met (part 3). -/
theorem test_meets_MemAndPwrCommandsComplete_3 :
  ((let s : State := tGcs 1 0x0C01 [2, 0, 0, 0, 1] [] (fun h => h.onPwr (fun p => { p with busy := true }))
    let owner : Nat := 1
    let slot : Nat := 0
    let q : Slot := tSlot 0x0C01 [2, 0, 0, 0, 1] []
    let h := s.hw
    let goal := q.w 0
    let group := q.w 1
    let m := q.mask 2
    let armed := h.wn Reg.PWR_WAKE_ARM (q.w 4)
    s.hw.runs owner slot 0x0C01 q ∧
    (∀ chk ∈ (([q.reserved [7, 7, 0xFFFFFFFF, 0x3FFFF, 0xFFFFFFFF], badAt (decide (4 < goal)) 0, badAt (decide (5 < group)) 4] ++
        (if goal = 3 then h.maskChecks m 8 (armed.domainsOf 3 m group) else [])) : List Check), chk.1 = false) ∧
    ((h.pwr.busy || h.pwr.req.isSome) = true))) ∧
  ((let s : State := tGcs 1 0x0C02 [] [] id
    let owner : Nat := 1
    let slot : Nat := 0
    let q : Slot := tSlot 0x0C02 [] []
    let h := s.hw
    let after : Hw := h
    s.hw.runs owner slot 0x0C02 q ∧
    h.clean after noDeadlock)) ∧
  ((let s : State := tGcs 1 0x0C03 [0, 0, 0, 0] [] (fun h => (((h.onPwr (fun p => { p with busy := false })).setFld Reg.PWR_STATUS Fld.PWR_STATUS_STATE 3).setFld Reg.PWR_DOMAIN_ON_LO ⟨31, 0⟩ 0xFFFFFFFF).setFld Reg.PWR_DOMAIN_ON_HI ⟨31, 0⟩ 0x3FFFF)
    let owner : Nat := 1
    let slot : Nat := 0
    let q : Slot := tSlot 0x0C03 [0, 0, 0, 0] []
    let h := s.hw
    let now := maskOf ((List.range 50).filter h.domOn)
    let sel := q.mask 2
    let m := (q.mask 0 &&& sel) ||| (now &&& (2 ^ 50 - 1 - sel))
    s.hw.runs owner slot 0x0C03 q ∧
    (∀ chk ∈ (([q.reserved [0xFFFFFFFF, 0x3FFFF, 0xFFFFFFFF, 0x3FFFF],
        (h.fld Reg.PWR_STATUS Fld.PWR_STATUS_STATE != 3, cState, 0)] ++ h.maskChecks m 0 (h.domainsOf 3 m 0)) : List Check), chk.1 = false) ∧
    ((h.pwr.busy || h.pwr.req.isSome) = false))) ∧
  ((let s : State := tGcs 1 0x0C04 [1, 0, 0, 1073741824] [] (fun h => h.onPwr (fun p => { p with busy := false }))
    let owner : Nat := 1
    let slot : Nat := 0
    let q : Slot := tSlot 0x0C04 [1, 0, 0, 1073741824] []
    let h := s.hw
    let c := q.w 3
    let t := getF c Fld.PWR_WAKE_CFG_TARGET
    let after : Hw := (h.images [(Reg.PWR_WAKE_ARM, 0xFFFFFFFF, q.w 0), (Reg.PWR_WAKE_ARM_ETH, 0xFFFFF, q.w 1),
        (Reg.PWR_WAKE_ARM_LIN, 0xFFFF, q.w 2), (Reg.PWR_WAKE_CFG, 0xF700FFFF, c)]).followArmed
    s.hw.runs owner slot 0x0C04 q ∧
    (∀ chk ∈ ([only1 owner, q.reserved [0xFFFFFFFF, 0xFFFFF, 0xFFFF, 0xF700FFFF], badAt (t != 2 && t != 4) 15,
        badAt (decide (5 < getF c Fld.PWR_WAKE_CFG_LISTEN_GROUP)) 15] : List Check), chk.1 = false) ∧
    (h.pwr.busy = false) ∧
    h.clean after noDeadlock)) ∧
  ((let s : State := tGcs 1 0x0C05 [2, 4128768, 0, 0] [] id
    let owner : Nat := 1
    let slot : Nat := 0
    let q : Slot := tSlot 0x0C05 [2, 4128768, 0, 0] []
    let h := s.hw
    let r := q.w 0
    let c := q.w 1
    let f := q.w 2
    let on := bit (q.w 3) 0
    let d := getF c Fld.PWR_RAIL_SEQ_DOMAIN
    let auto := getF c Fld.PWR_RAIL_SEQ_AUTO == 1
    let cfg : Nat := 0x03FFFFFF
    let after : Hw := (
        let x := h.images [(Reg.PWR_RAIL_SEQ r, 0xFE3FFFFF, c), (Reg.SBB_RAIL_CFG r, cfg, f)]
        if auto || !x.pg 48 then x
        else if on && !x.railIsOn r then x.railOn r
        else if !on && x.railIsOn r then x.railOff r
        else x)
    s.hw.runs owner slot 0x0C05 q ∧
    (∀ chk ∈ ([only1 owner, q.reserved [15, 0xFE3FFFFF, cfg, 1], badAt (decide (12 ≤ r)) 0, badAt (d != 63 && decide (50 ≤ d)) 6,
        badAt (auto && on) 12, (!auto && on && d != 63 && !h.pg d, cState, 0),
        (decide (250 ≤ railBudget f), cBudget, railBudget f * 1000)] : List Check), chk.1 = false) ∧
    h.clean after noDeadlock)) ∧
  ((let s : State := tGcs 1 0x0C06 [] [] id
    let owner : Nat := 1
    let slot : Nat := 0
    let q : Slot := tSlot 0x0C06 [] []
    let h := s.hw
    let l := [Reg.PWR_WAKE_CAUSE, Reg.PWR_WAKE_CAUSE_ETH, Reg.PWR_WAKE_CAUSE_LIN, Reg.PWR_WAKE_FIRST]
    let after : Hw := l.foldl Hw.clr h
    s.hw.runs owner slot 0x0C06 q ∧
    (owner = 1) ∧
    h.clean after noDeadlock)) := by
  refine ⟨?_, ?_, ?_, ?_, ?_, ?_⟩ <;> decide +kernel

/-- The hypotheses of `Obligations.MemAndPwrCommandsComplete` can be met (part 4). -/
theorem test_meets_MemAndPwrCommandsComplete_4 :
  ((let s : State := tGcs 1 0x0C07 [] [] id
    let owner : Nat := 1
    let slot : Nat := 0
    let q : Slot := tSlot 0x0C07 [] []
    let h := s.hw
    let after : Hw := h
    s.hw.runs owner slot 0x0C07 q ∧
    h.clean after noDeadlock)) := by decide +kernel

/-- The hypotheses of `Obligations.DiagCommandsComplete` can be met (part 1). -/
theorem test_meets_DiagCommandsComplete :
  ((let s : State := tGcs 1 0x0D01 [117440514] [] id
    let owner : Nat := 1
    let slot : Nat := 0
    let q : Slot := tSlot 0x0D01 [117440514] []
    let h := s.hw
    let k := q.w 0 / 2 ^ 24
    let i := q.w 0 % 2 ^ 24
    let after : Hw := (h.resetUnit k i)
    s.hw.runs owner slot 0x0D01 q ∧
    (∀ chk ∈ ([h.denyUnits owner [unitRes k i], badAt (decide (unitCount.getD k 0 ≤ i)) 0] : List Check), chk.1 = false) ∧
    h.clean after noDeadlock)) ∧
  ((let s : State := tGcs 1 0x0D02 [1] [] id
    let owner : Nat := 1
    let slot : Nat := 0
    let q : Slot := tSlot 0x0D02 [1] []
    let h := s.hw
    let k := q.w 0 / 2 ^ 24
    let i := q.w 0 % 2 ^ 24
    let after : Hw := (h.resetGroup k i)
    s.hw.runs owner slot 0x0D02 q ∧
    (∀ chk ∈ ([h.denyUnits owner ((groupUnits k i).map (fun u => unitRes u.1 u.2)), badAt (decide (groupCount.getD k 0 ≤ i)) 0] : List Check), chk.1 = false) ∧
    h.clean after noDeadlock)) ∧
  ((let s : State := tGcs 1 0x0D03 [3, 1] [] id
    let owner : Nat := 1
    let slot : Nat := 0
    let q : Slot := tSlot 0x0D03 [3, 1] []
    let h := s.hw
    let m := q.w 0
    let v := q.w 1
    let after : Hw := (
        let was := (kvGet h.mac.loopback m).isSome
        let x := h.onMac (fun a => { a with loopback := if v = 0 then kvDel a.loopback m else kvPut a.loopback m v })
        if v = 0 then (if was then x.lineLoss m [] else x)
        else x.onMac (fun a => { a with lineGood := insertNew a.lineGood m }))
    s.hw.runs owner slot 0x0D03 q ∧
    (∀ chk ∈ ([h.deny owner 1 m, q.reserved [31, 3], badAt (decide (24 ≤ m)) 0, badAt (v == 3 || (v == 2 && decide (20 ≤ m))) 4] : List Check), chk.1 = false) ∧
    h.clean after noDeadlock)) ∧
  ((let s : State := tGcs 1 0x0D04 [1, 5] [] id
    let owner : Nat := 1
    let slot : Nat := 0
    let q : Slot := tSlot 0x0D04 [1, 5] []
    let h := s.hw
    let after : Hw := { h with sys := { h.sys with testgen := if bit (q.w 0) 0 then q.payload else [] } }
    s.hw.runs owner slot 0x0D04 q ∧
    (∀ chk ∈ ([h.deny owner 1 30, q.reserved [1]] : List Check), chk.1 = false) ∧
    h.clean after noDeadlock)) ∧
  ((let s : State := tGcs 1 0x0D05 [16, 0] [] (fun h => h.setFld Reg.SBB_STATUS Fld.SBB_STATUS_READY 1)
    let owner : Nat := 1
    let slot : Nat := 0
    let q : Slot := tSlot 0x0D05 [16, 0] []
    let h := s.hw
    let n := getF (q.w 1) Fld.SBB_REQ_CTRL_LEN + 1
    let k := owner * 32 + slot
    let l : List FarReq := [⟨q.w 0, 0, farCtrl (q.w 1) 0 false, []⟩]
    let r : FarReq := l.headD ⟨0, 0, 0, []⟩
    let rs : List FarReq := l.drop 1
    let t : Nat := 0
    s.hw.runs owner slot 0x0D05 q ∧
    (∀ chk ∈ ((only1 owner :: [q.reserved [farAddrMask, farCtrlMask], badAt (getF (q.w 1) Fld.SBB_REQ_CTRL_OP != 0) 7,
        badAt (decide (104 < n) && decide (q.w 4 < n)) 16] ++ [(!h.flag Reg.SBB_STATUS Fld.SBB_STATUS_READY, cState, 0), h.farCheck l]) : List Check), chk.1 = false) ∧
    (l = r :: rs) ∧
    (h.sbb.tx.any (fun t => t.2.serves == some k) = false) ∧
    (h.freeTx = some t))) ∧
  ((let s : State := tGcs 1 0x0D06 [16, putF 0 Fld.SBB_REQ_CTRL_OP 1, 5] [] (fun h => h.setFld Reg.SBB_STATUS Fld.SBB_STATUS_READY 1)
    let owner : Nat := 1
    let slot : Nat := 0
    let q : Slot := tSlot 0x0D06 [16, putF 0 Fld.SBB_REQ_CTRL_OP 1, 5] []
    let h := s.hw
    let n := getF (q.w 1) Fld.SBB_REQ_CTRL_LEN + 1
    let op := getF (q.w 1) Fld.SBB_REQ_CTRL_OP
    let data := if op = 2 then [] else if 104 < n then q.buf.take n else (bytesOf (q.payload.drop 2)).take n
    let k := owner * 32 + slot
    let l : List FarReq := [⟨q.w 0, q.w 2, farCtrl (q.w 1) op false, data⟩]
    let r : FarReq := l.headD ⟨0, 0, 0, []⟩
    let rs : List FarReq := l.drop 1
    let t : Nat := 0
    s.hw.runs owner slot 0x0D06 q ∧
    (∀ chk ∈ ((only1 owner :: [q.reserved [farAddrMask, farCtrlMask], badAt (op != 1 && op != 2) 7,
        badAt (op == 1 && data.length != n) 8] ++ [(!h.flag Reg.SBB_STATUS Fld.SBB_STATUS_READY, cState, 0), h.farCheck l]) : List Check), chk.1 = false) ∧
    (l = r :: rs) ∧
    (h.sbb.tx.any (fun t => t.2.serves == some k) = false) ∧
    (h.freeTx = some t))) := by
  refine ⟨?_, ?_, ?_, ?_, ?_, ?_⟩ <;> decide +kernel

/-- The hypotheses of `Obligations.DiagCommandsComplete` can be met (part 2). -/
theorem test_meets_DiagCommandsComplete_2 :
  ((let s : State := tGcs 1 0x0D07 [1, 16, 0, 0] [] (fun h => h.setFld Reg.SBB_STATUS Fld.SBB_STATUS_READY 1)
    let owner : Nat := 1
    let slot : Nat := 0
    let q : Slot := tSlot 0x0D07 [1, 16, 0, 0] []
    let h := s.hw
    let n := q.w 0
    let ctrl (i : Nat) : Nat := q.w (2 + 3 * i)
    let req (i : Nat) : FarReq :=
      ⟨q.w (1 + 3 * i), q.w (3 + 3 * i), farCtrl (ctrl i) (getF (ctrl i) Fld.SBB_REQ_CTRL_OP) (decide (i + 1 < n)),
       (toLe 4 (q.w (3 + 3 * i))).take (getF (ctrl i) Fld.SBB_REQ_CTRL_LEN + 1)⟩
    let is := List.range (min n 9)
    let k := owner * 32 + slot
    let l : List FarReq := (is.map req)
    let r : FarReq := l.headD ⟨0, 0, 0, []⟩
    let rs : List FarReq := l.drop 1
    let t : Nat := 0
    s.hw.runs owner slot 0x0D07 q ∧
    (∀ chk ∈ ((only1 owner :: ([badAt (n = 0 || q.payload.length != 3 * n + 1) 0,
        q.reserved (0xF :: (is.map (fun _ => [farAddrMask, farCtrlMask, 0xFFFFFFFF])).flatten)] ++
        is.map (fun i => badAt (decide (3 < getF (ctrl i) Fld.SBB_REQ_CTRL_LEN) ||
          getF (ctrl i) Fld.SBB_REQ_CTRL_CHANNEL != getF (ctrl 0) Fld.SBB_REQ_CTRL_CHANNEL) (8 + 12 * i))) ++ [(!h.flag Reg.SBB_STATUS Fld.SBB_STATUS_READY, cState, 0), h.farCheck l]) : List Check), chk.1 = false) ∧
    (l = r :: rs) ∧
    (h.sbb.tx.any (fun t => t.2.serves == some k) = false) ∧
    (h.freeTx = some t))) ∧
  ((let s : State := tGcs 1 0x0D08 [5, 1610612736] [] (fun h => (h.setFld (Reg.SBB_GPIO_CFG 5) Fld.SBB_GPIO_CFG_HOST_SET 1).setFld Reg.SBB_STATUS Fld.SBB_STATUS_READY 1)
    let owner : Nat := 1
    let slot : Nat := 0
    let q : Slot := tSlot 0x0D08 [5, 1610612736] []
    let h := s.hw
    let n := q.w 0
    let d := bits (q.w 1) 31 30
    let after : Hw := ((h.setFld (Reg.SBB_GPIO_CFG n) Fld.SBB_GPIO_CFG_DIR d).gpioDrive n (some (bit (q.w 1) 29)))
    s.hw.runs owner slot 0x0D08 q ∧
    (∀ chk ∈ ([(decide (48 ≤ n) || !h.flag (Reg.SBB_GPIO_CFG n) Fld.SBB_GPIO_CFG_HOST_SET, cDenied, n), q.reserved [63, 0xE0000000],
        badAt (d == 3) 7, (!h.flag Reg.SBB_STATUS Fld.SBB_STATUS_READY, cState, n)] : List Check), chk.1 = false) ∧
    h.clean after noDeadlock)) ∧
  ((let s : State := tGcs 1 0x0D09 [Reg.GLB_ID] [] id
    let owner : Nat := 1
    let slot : Nat := 0
    let q : Slot := tSlot 0x0D09 [Reg.GLB_ID] []
    let h := s.hw
    let r := q.w 0
    let rd : RegDesc := (findReg Reg.GLB_ID).getD ⟨0, [], 0, false, 0, false, 0, 0⟩
    let after : Hw := h
    s.hw.runs owner slot 0x0D09 q ∧
    (∀ chk ∈ ([only1 owner, (r / 0x40000 == 9, cDenied, r), badAt (r % 4 != 0) 0] : List Check), chk.1 = false) ∧
    (findReg r).isSome = true ∧
    h.clean after noDeadlock)) ∧
  ((let s : State := tGcs 1 0x0D09 [1073741808] [] id
    let owner : Nat := 1
    let slot : Nat := 0
    let q : Slot := tSlot 0x0D09 [1073741808] []
    let h := s.hw
    let r := q.w 0
    let after : Hw := h.drawn
    s.hw.runs owner slot 0x0D09 q ∧
    (∀ chk ∈ ([only1 owner, (r / 0x40000 == 9, cDenied, r), badAt (r % 4 != 0) 0] : List Check), chk.1 = false) ∧
    (findReg r).isNone = true ∧
    h.clean after noDeadlock)) ∧
  ((let s : State := tGcs 1 0x0D0A [16, 100, 1] [] id
    let owner : Nat := 1
    let slot : Nat := 0
    let q : Slot := tSlot 0x0D0A [16, 100, 1] []
    let h := s.hw
    let t := q.w 0
    let i := q.w 1
    let after : Hw := (h.inject t i (q.w 2))
    s.hw.runs owner slot 0x0D0A q ∧
    (∀ chk ∈ ([only1 owner, q.reserved [31, 0xFFFFFFFF, 3], badAt (decide (17 < t) || (decide (6 < t) && decide (t < 16))) 0,
        badAt ((t == 0 || t == 17) && decide (131072 ≤ i)) 4, badAt (t == 16 && decide (524288 ≤ i)) 4] : List Check), chk.1 = false) ∧
    h.clean after noDeadlock)) := by
  refine ⟨?_, ?_, ?_, ?_, ?_⟩ <;> decide +kernel

/-- The hypotheses of `Obligations.IdleStepPassesOneCycle` can be met. -/
theorem test_meets_IdleStepPassesOneCycle :
  (State.reset.pending = []) := by decide +kernel

/-- The hypotheses of `Obligations.GcsFrameJudgesAndCompletes` can be met (part 1). -/
theorem test_meets_GcsFrameJudgesAndCompletes :
  (kvGet State.reset.hw.mbx.slots (1 * 32 + 0) = none) ∧
  ((let s := tGcs 5 0x0201 [300] [] id
    let q := tSlot 0x0201 [300] []
    kvGet s.hw.mbx.slots (5 * 32 + 0) = some q ∧ q.st = 2 ∧ q.opcode = 0x0201 ∧ q.committed = false ∧ s.hw.oldestOf (5 * 32 + 0) q = true ∧ issuerOk 0x0201 5 = false)) ∧
  ((let s := tGcs 1 0x0201 [5] [] id
    s.hw.due 1 0 0x0201 (tSlot 0x0201 [5] []))) ∧
  ((let s := tGcs 1 0x0B03 [1, 2, 1] [] id
    s.hw.due 1 0 0x0B03 (tSlot 0x0B03 [1, 2, 1] []))) ∧
  ((∀ x ∈ ([badAt false 0] : List Check), x.1 = false) ∧ (badAt true 4).1 = true) ∧
  ((let s := tGcs 1 0x0102 [] [] id
    s.hw.due 1 0 0x0102 (tSlot 0x0102 [] []) ∧ s.hw.judgeNew s.hw noDeadlock = none)) := by
  refine ⟨?_, ?_, ?_, ?_, ?_, ?_⟩ <;> decide +kernel

/-- The hypotheses of `Obligations.GcsFrameJudgesAndCompletes` can be met (part 2). -/
theorem test_meets_GcsFrameJudgesAndCompletes_2 :
  (State.reset.hw.judgeNew State.reset.hw (fun _ => []) = none ∧
    (let h := State.reset.hw
    let x := h.onTss (fun t => { t with admitted := [(5, ⟨1000, 3, 6, 100, 2, none⟩)] })
    h.judgeNew x noDeadlock = some (cBound, 2 ^ 31 + 1 * 2 ^ 16 + 5))) ∧
  ((let s := tGcs 1 0x0102 [] [] id
    (kvGet s.hw.mbx.slots 32).map (·.aborted) = some false ∧ ¬ s.hw.loses 1 0x0201)) := by
  refine ⟨?_, ?_⟩ <;> decide +kernel

/-- The hypotheses of `Obligations.AbsentOffsetsReadZero` can be met. -/
theorem test_meets_AbsentOffsetsReadZero :
  ((touched 0xFFC = [0, 1, 2] ∧ ∀ k ∈ touched 0xFFC, State.reset.hw.hostAt 0 (0x12000 / 4 * 4 + 4 * k) = .nowhere)) ∧
  ((∀ k ∈ touched 255, State.reset.hw.hostAt 0 (0x12000 / 4 * 4 + 4 * k) = .nowhere)) ∧
  ((let s := onReset (fun h => h.setFld Reg.PWR_DOMAIN_PG_LO ⟨25, 25⟩ 1)
    s.hw.hostReg 0 0x80024 = some 0x80024 ∧ 0x80024 % 4 = 0 ∧ findReg 0x80024 = none ∧ ¬ (0x10000000 ≤ 0x80024 ∧ 0x80024 % 256 < 0x80))) ∧
  ((let s := onReset (fun h => h.setFld Reg.PWR_DOMAIN_PG_LO ⟨25, 25⟩ 1)
    (15 : Nat) ≠ 255 ∧ s.hw.hostReg 0 0x80024 = some 0x80024 ∧ findReg 0x80024 = none ∧ ¬ (0x10000000 ≤ 0x80024 ∧ 0x80024 % 256 = 0x80))) := by
  refine ⟨?_, ?_, ?_, ?_⟩ <;> decide +kernel

/-- The hypotheses of `Obligations.RegisterWritesFollowAccessCodes` can be met. -/
theorem test_meets_RegisterWritesFollowAccessCodes :
  ((let s := onReset (fun h => h.setFld Reg.PWR_DOMAIN_PG_HI ⟨14, 14⟩ 1)
    s.hw.hostReg 0 0x20208 = some 0x20208 ∧ (findReg 0x20208).isSome ∧ ((findReg 0x20208).map (·.hid)) = some false ∧
      ¬ actsOnWrite 0x20208 ∧ s.hw.mayWrite 0 0x20208)) ∧
  (((0xFF0 : Nat) ≠ 15 ∧ (0xFF0 : Nat) ≠ 255)) := by
  refine ⟨?_, ?_⟩ <;> decide +kernel

/-- The hypotheses of `Obligations.W1cBitSetInTheSameCycleStays` can be met. -/
theorem test_meets_W1cBitSetInTheSameCycleStays :
  ((let s := onReset (fun h => h.setFld Reg.PWR_DOMAIN_PG_HI ⟨14, 14⟩ 1)
    s.hw.hostReg 0 0x1608C = some (Reg.MBX_COLLIDE 2) ∧
      (findReg (Reg.MBX_COLLIDE 2)).map (fun d => (d.hid, d.w1c != 0)) = some (false, true) ∧ s.hw.mayWrite 0 (Reg.MBX_COLLIDE 2))) := by decide +kernel

/-- The hypotheses of `Obligations.ReadsThatClearLoseNothing` can be met. -/
theorem test_meets_ReadsThatClearLoseNothing :
  ((let s := onReset (fun h => h.setFld Reg.PWR_DOMAIN_PG_LO ⟨25, 25⟩ 1)
    s.hw.hostReg 0 0x80118 = some 0x80118 ∧ (findReg 0x80118).map (fun d => (d.hid, d.rc)) = some (false, true) ∧
      s.hw.viewReg 0 0x80118 = none ∧ ¬ actsOnRead 0x80118)) ∧
  ((let s := onReset (fun h => h.setFld Reg.PWR_DOMAIN_PG_LO ⟨25, 25⟩ 1)
    127 < 128 ∧ s.hw.hostReg 0 (Reg.SWC_MMQ_PEAK 127) = some (Reg.SWC_MMQ_PEAK 127))) ∧
  ((let s := onReset (fun h => h.setFld Reg.PWR_DOMAIN_PG_LO ⟨31, 31⟩ 1)
    0 < 24 ∧ s.hw.hostReg 0 (Reg.MAC_RX_OCTETS_LO 0) = some (Reg.MAC_RX_OCTETS_LO 0))) ∧
  ((let s := onReset (fun h => h.setFld Reg.PWR_DOMAIN_PG_LO ⟨31, 31⟩ 1)
    0 < 24 ∧ s.hw.hostReg 0 (Reg.MAC_TX_OCTETS_LO 0) = some (Reg.MAC_TX_OCTETS_LO 0))) := by
  refine ⟨?_, ?_, ?_, ?_⟩ <;> decide +kernel

/-- The hypotheses of `Obligations.FunctionsBecomeReady` can be met (part 1). -/
theorem test_meets_FunctionsBecomeReady :
  ((let s := onReset (fun h => h.setFld Reg.PWR_DOMAIN_PG_LO ⟨31, 0⟩ 0xFFFFFFFF)
    s.hw.pg 25 = true ∧ 15 < 16 ∧ s.hw.pg (7 + 15) = true)) ∧
  ((let s := onReset (fun h => h.setFld Reg.PWR_DOMAIN_PG_LO ⟨31, 0⟩ 0xFFFFFFFF)
    s.hw.pg 23 = true ∧ s.hw.pg 24 = true ∧ s.hw.flag Reg.FWD_STATUS Fld.FWD_STATUS_READY = false)) ∧
  ((onReset (fun h => h.setFld Reg.PWR_DOMAIN_PG_HI ⟨31, 0⟩ 0xFFFFFFFF)).hw.pg 44 = true) ∧
  (5 < 6 ∧ (onReset (fun h => h.setFld Reg.PWR_DOMAIN_PG_HI ⟨31, 0⟩ 0xFFFFFFFF)).hw.pg (37 + 5) = true) ∧
  ((onReset (fun h => h.setFld Reg.PWR_DOMAIN_PG_HI ⟨31, 0⟩ 0xFFFFFFFF)).hw.pg 43 = true) ∧
  ((onReset (fun h => h.setFld Reg.PWR_DOMAIN_PG_HI ⟨31, 0⟩ 0xFFFFFFFF)).hw.pg 37 = true) := by
  refine ⟨?_, ?_, ?_, ?_, ?_, ?_⟩ <;> decide +kernel

/-- The hypotheses of `Obligations.FunctionsBecomeReady` can be met (part 2). -/
theorem test_meets_FunctionsBecomeReady_2 :
  ((let s := onReset (fun h => h.setFld Reg.PWR_DOMAIN_PG_HI ⟨31, 0⟩ 0xFFFFFFFF)
    s.hw.pg 49 = true ∧ s.hw.flag Reg.TIME_STATUS Fld.TIME_STATUS_READY = false)) ∧
  (4 < 5 ∧ (onReset (fun h => h.setFld Reg.PWR_DOMAIN_PG_LO ⟨31, 0⟩ 0xFFFFFFFF)).hw.pg (26 + 4) = true) ∧
  ((let s := onReset (fun h => (h.setFld Reg.PWR_DOMAIN_PG_HI ⟨31, 0⟩ 0xFFFFFFFF).setFld (Reg.SQ_STATUS 4) Fld.SQ_STATUS_READY 1)
    19 < 24 ∧ s.hw.pg (31 + 19 / 4) = true ∧ (19 < 20 → s.hw.flag (Reg.SQ_STATUS (19 / 4)) Fld.SQ_STATUS_READY = true))) ∧
  ((onReset (fun h => h.setFld Reg.PWR_DOMAIN_PG_HI ⟨31, 0⟩ 0xFFFFFFFF)).hw.pg 48 = true) ∧
  ((onReset (fun h => h.setFld Reg.PWR_DOMAIN_PG_LO ⟨31, 0⟩ 0xFFFFFFFF)).hw.pg 5 = true) := by
  refine ⟨?_, ?_, ?_, ?_, ?_⟩ <;> decide +kernel

/-- The hypotheses of `Obligations.ReadyBitIsMirroredAndReported` can be met. -/
theorem test_meets_ReadyBitIsMirroredAndReported :
  ((let s := onReset (fun h => h.setFld Reg.PWR_DOMAIN_PG_LO ⟨31, 0⟩ 0xFFFFFFFF)
    s.hw.pg 25 = true ∧ s.hw.flag Reg.TSS_STATUS Fld.TSS_STATUS_READY = false ∧ s.hw.flag Reg.EVF_STATUS Fld.EVF_STATUS_READY = false ∧
      ¬ s.hw.loses 1 0x0D01 ∧ s.hw.flag (Reg.EVQ_CTRL 2) Fld.EVQ_CTRL_EN = false)) ∧
  ((onReset (fun h => h.setFld Reg.TSS_STATUS Fld.TSS_STATUS_READY 1)).hw.flag Reg.TSS_STATUS Fld.TSS_STATUS_READY = true) := by
  refine ⟨?_, ?_⟩ <;> decide +kernel

/-- The hypotheses of `Obligations.FramesEnterAndAreLookedUp` can be met (part 1). -/
theorem test_meets_FramesEnterAndAreLookedUp :
  ((let s := onReset (fun h => ((tReady h).setFld (Reg.MAC_STATUS 3) Fld.MAC_STATUS_LINK_UP 1))
    let head := List.replicate 64 (1 : Byte)
    let k := s.hw.classify 3 head none none none
    3 < 32 ∧ kvGet s.hw.swc.rx 3 = none ∧ head ≠ [] ∧ s.hw.linkUp 3 = true ∧
      s.hw.macsecOn 3 = false ∧ (parseHdr head).etype ≠ 0x8808 ∧ s.hw.mustWait 3 k 1 = false ∧
      (s.hw.admitTest 3 k).1 = true)) ∧
  ((let s := onReset (fun h => ((tReady h).wn (Reg.SWC_VOQ_THR 208) 0).wn (Reg.SWC_VOQ_THR 209) 0)
    let head := List.replicate 64 (1 : Byte)
    kvGet s.hw.swc.rx 26 = none ∧ s.hw.macsecOn 26 = false ∧
      s.hw.mustWait 26 (s.hw.classify 26 head (some 1) none none) 1 = true)) ∧
  ((let s := onReset (fun h => (h.setFld (Reg.MAC_STATUS 3) Fld.MAC_STATUS_LINK_UP 1))
    let head := List.replicate 64 (1 : Byte)
    3 < 24 ∧ kvGet s.hw.swc.rx 3 = none ∧ head ≠ [] ∧ s.hw.linkUp 3 = true ∧ s.hw.macsecOn 3 = false ∧
      (parseHdr head).etype ≠ 0x8808 ∧ s.hw.mustWait 3 (s.hw.classify 3 head none none none) 1 = false ∧
      (s.hw.admitTest 3 (s.hw.classify 3 head none none none)).1 = false)) ∧
  ((let s := onReset (tFrames [{ tFrame with len := 128 }])
    (s.hw.unlooked 3 false).map (·.len) = some 128)) ∧
  (((onReset (tFrames [{ tFrame with asked := true }])).hw.unlooked 3 true).isSome = true) ∧
  ((let s := onReset (fun h => { tFrames [{ tFrame with asked := true }] h with fwd := { h.fwd with vlan := [(1, ⟨56, 0, false, 0, 0⟩)] } })
    let r := s.hw.tableLookup 3 (s.hw.readFrame { tFrame with asked := true })
    (s.hw.unlooked 3 true) = some { tFrame with asked := true } ∧ s.hw.frame? 0 = some { tFrame with asked := true } ∧
      r.1.drop = false ∧ r.1.stream = none ∧ r.1.entry = none ∧ r.1.dests ≠ 0 ∧ r.1.cls ≠ 7 ∧ r.2 = s.hw)) := by
  refine ⟨?_, ?_, ?_, ?_, ?_, ?_⟩ <;> decide +kernel

/-- The hypotheses of `Obligations.FramesEnterAndAreLookedUp` can be met (part 2). -/
theorem test_meets_FramesEnterAndAreLookedUp_2 :
  ((let s := onReset (fun h => h.setRx 3 ⟨List.replicate 64 0, some 0, none, [], none, false⟩)
    (kvGet s.hw.swc.rx 3).map (fun r => (r.frame, r.sec, decide (64 ≤ (r.raw ++ []).length))) = some (some 0, none, true))) ∧
  ((let s := onReset (fun h => (tFrames [tFrame] h).setRx 3 ⟨List.replicate 60 0, some 0, none, [], none, false⟩)
    3 < 24 ∧ (kvGet s.hw.swc.rx 3).map (fun r => (r.frame, decide ((r.raw ++ []).length < 64))) = some (some 0, true) ∧
      (s.hw.frame? 0).map (·.counted) = some false)) := by
  refine ⟨?_, ?_⟩ <;> decide +kernel

/-- The hypotheses of `Obligations.FramesAreMatchedAndSent` can be met (part 1). -/
theorem test_meets_FramesAreMatchedAndSent :
  ((let s := onReset (fun h => tFrames [{ tFrame with looked := true, tail := true, copies := [⟨5, .waiting⟩] }] (tReady h))
    let h := (List.range 32).foldl Hw.countShaped ((List.range 24).foldl Hw.withdraw s.hw)
    s.hw.flag Reg.SWC_STATUS Fld.SWC_STATUS_READY = true ∧ h.offers.map (fun o => (o.egress, o.frame.ingress)) = [(5, 3)] ∧
      h.slotsUsed 3 < 2)) ∧
  ((let f := { tFrame with looked := true, tail := true, copies := [⟨5, .granted⟩] }
    let s := onReset (fun h => tFrames [f] { (tReady h).setFld (Reg.MAC_STATUS 5) Fld.MAC_STATUS_LINK_UP 1 with own := { h.own with keys := [(2, 5), (3, 5), (1, 5), (0, 5)] } })
    5 < 32 ∧ s.hw.plca 5 = false ∧ s.hw.grantedAt 5 = some f ∧ s.hw.keyless f = false ∧ kvGetD s.hw.swc.pauseQ 5 [] = [] ∧ s.hw.mayStart 5 f = true ∧
      s.hw.protects 5 (s.hw.readFrame f) = false)) ∧
  ((let f := { tFrame with looked := true, tail := true, copies := [⟨5, .sending⟩] }
    let s := onReset (fun h => (tFrames [f] (tReady h)).onSwc (fun w => { w with tx := [(5, [⟨0, [], true, none, 0, 0, false⟩])] }))
    5 < 24 ∧ kvGetD s.hw.swc.tx 5 [] = [⟨0, [], true, none, 0, 0, false⟩] ∧ s.hw.frame? 0 = some f ∧ ((s.hw.basinEcc 0 0).discardBad 0).frame? 0 = some f)) ∧
  ((let s := onReset (fun h => (h.onSwc (fun w => { w with holdAt := [(7, 0)] })).wn (Reg.SWC_PC_USED 7) 5000)
    (kvGet s.hw.swc.holdAt 7).isSome = true ∧ s.hw.xon 7 ≤ s.hw.pcUsed 7)) ∧
  ((let f : SrcFrame := { bytes := [], owner := 1, tsReq := none, cls := some 0, canSrc := some 3, dest := none, kind := 0, vie := none, told := none, at_ := 0 }
    let s := onReset (fun h => h.onSwc (fun w => { w with srcWait := [(25, [f])] }))
    kvGetD s.hw.swc.srcWait 25 [] = [f] ∧ s.hw.hasCredit 25 f = true)) ∧
  ((let f : SrcFrame := { bytes := List.replicate 64 0, owner := 1, tsReq := none, cls := some 0, canSrc := none, dest := none, kind := 0, vie := none, told := none, at_ := 0 }
    let s := onReset (fun h => (h.onSwc (fun w => { w with srcWait := [(25, [f])] })).wn (Reg.SWC_VOQ_THR 200) 0)
    kvGetD s.hw.swc.srcWait 25 [] = [f] ∧ s.hw.hasCredit 25 f = false)) := by
  refine ⟨?_, ?_, ?_, ?_, ?_, ?_⟩ <;> decide +kernel

/-- The hypotheses of `Obligations.FramesAreMatchedAndSent` can be met (part 2). -/
theorem test_meets_FramesAreMatchedAndSent_2 :
  ((let s := onReset (fun h => { tFrames [tFrame] h with clk := 600000000 })
    s.hw.frame? 0 = some tFrame ∧
      s.hw.fld Reg.SWC_MAX_SOJOURN Fld.SWC_MAX_SOJOURN_LIMIT_MS * 500000 < s.hw.waited tFrame.arrival)) := by decide +kernel

/-- The hypotheses of `Obligations.BasinAuditReclaimsLostCells` can be met. -/
theorem test_meets_BasinAuditReclaimsLostCells :
  ((let s := onReset (fun h => (tReady h).setFld Reg.SWC_CFG Fld.SWC_CFG_AUDIT_EN 1)
    s.hw.flag Reg.SWC_CFG Fld.SWC_CFG_AUDIT_EN = true ∧ s.hw.flag Reg.SWC_STATUS Fld.SWC_STATUS_AUDIT_BUSY = false ∧
      s.hw.flag Reg.SWC_STATUS Fld.SWC_STATUS_READY = true)) ∧
  ((let s := onReset (fun h => h.setFld Reg.SWC_STATUS Fld.SWC_STATUS_AUDIT_BUSY 1)
    s.hw.flag Reg.SWC_STATUS Fld.SWC_STATUS_AUDIT_BUSY = true ∧ s.hw.swc.leaked = [])) ∧
  ((let s := onReset (fun h => (h.setFld Reg.SWC_STATUS Fld.SWC_STATUS_AUDIT_BUSY 1).onSwc (fun w => { w with leaked := [9], suspect := [9] }))
    s.hw.flag Reg.SWC_STATUS Fld.SWC_STATUS_AUDIT_BUSY = true ∧ s.hw.swc.leaked = [9] ∧ s.hw.swc.touched.contains 9 = false ∧
      s.hw.swc.suspect = [9] ∧ ¬ s.hw.loses 1 0x0304)) ∧
  (((onReset (fun h => { h with evq := { h.evq with modr := [⟨0x0302, 3, 4, none⟩] } })).hw.evq.modr.find?
      (fun m => m.kind == 0x0302 && m.w3 == 3)).isSome = true) := by
  refine ⟨?_, ?_, ?_, ?_⟩ <;> decide +kernel

/-- The hypotheses of `Obligations.LearningArbiterServesRequests` can be met (part 1). -/
theorem test_meets_LearningArbiterServesRequests :
  (takeReq true (onReset (fun h => h.onFwd (fun f => { f with learnQ := [⟨true, 7, 30, 30, 0, false, none⟩] }))).hw.fwd.learnQ = (some ⟨true, 7, 30, 30, 0, false, none⟩, [])) ∧
  ((takeReq true State.reset.hw.fwd.learnQ).1 = none) ∧
  ((let r : LearnReq := ⟨true, keyOf 0x020000000001 1, 3, 3, 0, false, none⟩
    let s := onReset (fun h => h.onFwd (fun f => { f with learnQ := [r] }))
    takeReq true s.hw.fwd.learnQ = (some r, []) ∧ s.hw.emAt 0 r.key = none ∧
      s.hw.fld (Reg.FWD_PORT_CFG 3) Fld.FWD_PORT_CFG_LEARN_LIMIT = 0 ∧
      ((s.hw.onFwd (fun f => { f with learnQ := [] })).insertEntry (viaOf r) ⟨false, 0, r.key, s.hw.ageNow, 3, none, 0, none, none, none, none⟩).1 = true)) ∧
  ((let r : LearnReq := ⟨true, keyOf 0x020000000001 1, 3, 3, 0, false, none⟩
    let e : EmEntry := ⟨false, 0, 7, 0, 3, none, 0, none, none, none, none⟩
    let s := onReset (fun h => (h.onFwd (fun f => { f with learnQ := [r], em := [(0, e)] })).setFld (Reg.FWD_PORT_CFG 3) Fld.FWD_PORT_CFG_LEARN_LIMIT 1)
    takeReq true s.hw.fwd.learnQ = (some r, []) ∧ s.hw.emAt 0 r.key = none ∧
      s.hw.fld (Reg.FWD_PORT_CFG 3) Fld.FWD_PORT_CFG_LEARN_LIMIT ≠ 0 ∧
      s.hw.fld (Reg.FWD_PORT_CFG 3) Fld.FWD_PORT_CFG_LEARN_LIMIT ≤ s.hw.portLearned 3)) ∧
  ((let r : LearnReq := ⟨true, 7, 3, 3, 0, false, none⟩
    let e : EmEntry := ⟨true, 0, 7, 0, 9, none, 0, none, none, none, none⟩
    let s := onReset (fun h => h.onFwd (fun f => { f with learnQ := [r], em := [(0, e)] }))
    takeReq true s.hw.fwd.learnQ = (some r, []) ∧ s.hw.emAt 0 r.key = some (0, e) ∧ e.static = true ∧ ¬ (e.group = none ∧ e.port = 3))) ∧
  ((let r : LearnReq := ⟨true, 7, 3, 3, 0, false, none⟩
    let e : EmEntry := ⟨false, 0, 7, 0, 3, none, 0, none, none, none, none⟩
    let s := onReset (fun h => h.onFwd (fun f => { f with learnQ := [r], em := [(0, e)] }))
    takeReq true s.hw.fwd.learnQ = (some r, []) ∧ s.hw.emAt 0 r.key = some (0, e))) := by
  refine ⟨?_, ?_, ?_, ?_, ?_, ?_⟩ <;> decide +kernel

/-- The hypotheses of `Obligations.LearningArbiterServesRequests` can be met (part 2). -/
theorem test_meets_LearningArbiterServesRequests_2 :
  ((let r : LearnReq := ⟨true, 7, 3, 3, 0, false, none⟩
    let e : EmEntry := ⟨false, 0, 7, 0, 9, none, 0, none, none, none, none⟩
    let s := onReset (fun h => h.onFwd (fun f => { f with learnQ := [r], em := [(0, e)] }))
    takeReq true s.hw.fwd.learnQ = (some r, []) ∧ s.hw.emAt 0 r.key = some (0, e) ∧ s.hw.isCascade 3 = false ∧ kvGet s.hw.fwd.recent 7 = none)) ∧
  ((let r : LearnReq := ⟨false, 7, 3, 3, 0, false, none⟩
    let e : EmEntry := ⟨false, 0, 7, 5, 3, none, 0, none, none, none, none⟩
    let s := onReset (fun h => h.onFwd (fun f => { f with learnQ := [r], em := [(0, e)] }))
    (takeReq true s.hw.fwd.learnQ).1 = none ∧ takeReq false s.hw.fwd.learnQ = (some r, []) ∧ s.hw.emAt 0 r.key = some (0, e) ∧
      e.age ≠ s.hw.ageNow)) ∧
  ((let r : LearnReq := ⟨false, 7, 3, 3, 0, false, none⟩
    let s := onReset (fun h => h.onFwd (fun f => { f with learnQ := [r] }))
    (takeReq true s.hw.fwd.learnQ).1 = none ∧ takeReq false s.hw.fwd.learnQ = (some r, []) ∧ s.hw.emAt 0 r.key = none)) ∧
  ((takeReq false State.reset.hw.fwd.learnQ).1 = none) ∧
  ((kvGet (onReset (fun h => h.onFwd (fun f => { f with recent := [(7, ⟨3, 3, 0, false, false, true⟩)] }))).hw.fwd.recent 7).map
      (fun x => x.said) = some true) ∧
  (kvGet State.reset.hw.fwd.recent 7 = none) := by
  refine ⟨?_, ?_, ?_, ?_, ?_, ?_⟩ <;> decide +kernel

/-- The hypotheses of `Obligations.CascadeSharesLearning` can be met (part 1). -/
theorem test_meets_CascadeSharesLearning :
  ((let s := onReset (fun h => (h.onFwd (fun f => { f with batch := [(0, ⟨1, false, 1, 2, 0, 3, 0, 0⟩)] })).setFld (Reg.FWD_CASCADE_PATH 1) Fld.FWD_CASCADE_PATH_VALID 1)
    s.hw.fwd.batch ≠ [] ∧ s.hw.cascadeMembers = [1])) ∧
  (State.reset.hw.fwd.batch = []) ∧
  ((let f := { tFrame with tail := true, looked := true, cells := [5], len := 64, copies := [⟨26, .granted⟩] }
    let s := onReset (fun h => { (tFrames [f] h).onSwc (fun w => { w with cells := [(5, ⟨0, cellCrypt 5 h.sec.nonce 0 5 (List.replicate 12 0 ++ [0x88, 0xB5] ++ List.replicate 50 0)⟩)] }) with own := { h.own with keys := [(2, 5)] } })
    (s.hw.copyAt 26 (fun f => (parseHdr (s.hw.readFrame f)).etype == 0x88B5)).isSome = true)) ∧
  ((let s := onReset (fun h => (((({ h with sys := { h.sys with authed := 0 } } : Hw).setFld Reg.MBX_STATUS Fld.MBX_STATUS_READY 1).setFld (Reg.FWD_PORT_CFG 3) Fld.FWD_PORT_CFG_CASCADE 1).setFld (Reg.MAC_STATUS 3) Fld.MAC_STATUS_LINK_UP 1).setFld
      Reg.GLB_TOPOLOGY Fld.GLB_TOPOLOGY_CASCADE_SIZE 3)
    3 ≠ s.hw.devIndex ∧ s.hw.isCascade 3 = true ∧ s.hw.linkUp 3 = true ∧ s.hw.inCascade = true ∧ s.hw.fwRuns = true)) ∧
  ((let s := onReset (fun h => (((({ h with sys := { h.sys with authed := 8 } } : Hw).setFld Reg.MBX_STATUS Fld.MBX_STATUS_READY 1).setFld (Reg.FWD_PORT_CFG 3) Fld.FWD_PORT_CFG_CASCADE 1).setFld (Reg.MAC_STATUS 3) Fld.MAC_STATUS_LINK_UP 1).setFld
      Reg.GLB_TOPOLOGY Fld.GLB_TOPOLOGY_CASCADE_SIZE 3)
    3 ≠ s.hw.devIndex ∧ s.hw.isCascade 3 = true ∧ s.hw.linkUp 3 = true ∧ s.hw.inCascade = true ∧ s.hw.fwRuns = true ∧ s.hw.sys.authed.testBit 3 = true)) ∧
  ((let s := onReset (fun h => (((({ h with sys := { h.sys with authed := 8 } } : Hw).setFld Reg.MBX_STATUS Fld.MBX_STATUS_READY 1).setFld (Reg.FWD_PORT_CFG 3) Fld.FWD_PORT_CFG_CASCADE 1).setFld (Reg.MAC_STATUS 3) Fld.MAC_STATUS_LINK_UP 1).setFld
      Reg.GLB_TOPOLOGY Fld.GLB_TOPOLOGY_CASCADE_SIZE 3)
    3 ≠ s.hw.devIndex ∧ s.hw.isCascade 3 = true ∧ s.hw.linkUp 3 = true ∧ s.hw.inCascade = true ∧ s.hw.fwRuns = true ∧ s.hw.sys.authed.testBit 3 = true)) := by
  refine ⟨?_, ?_, ?_, ?_, ?_, ?_⟩ <;> decide +kernel

/-- The hypotheses of `Obligations.CascadeSharesLearning` can be met (part 2). -/
theorem test_meets_CascadeSharesLearning_2 :
  ((let s := onReset (fun h => (((({ h with sys := { h.sys with authed := 8 } } : Hw).setFld Reg.MBX_STATUS Fld.MBX_STATUS_READY 1).setFld (Reg.FWD_PORT_CFG 3) Fld.FWD_PORT_CFG_CASCADE 1).setFld (Reg.MAC_STATUS 3) Fld.MAC_STATUS_LINK_UP 1).setFld
      Reg.GLB_TOPOLOGY Fld.GLB_TOPOLOGY_CASCADE_SIZE 3)
    3 ≠ s.hw.devIndex ∧ s.hw.isCascade 3 = true ∧ s.hw.linkUp 3 = true ∧ s.hw.inCascade = true ∧ s.hw.fwRuns = true ∧ s.hw.sys.authed.testBit 3 = true)) := by decide +kernel

/-- The hypotheses of `Obligations.ScrubberRepairsTables` can be met (part 1). -/
theorem test_meets_ScrubberRepairsTables :
  ((let s := onReset (fun h => h.onFwd (fun f => { f with badUe := [(0, 5, true)] }))
    s.hw.fwd.badUe.getLast? = some (0, 5, true) ∧ s.hw.logLost = false ∧ s.hw.fwd.changes = [])) ∧
  ((let s := onReset (fun h => h.onFwd (fun f => { f with badUe := [(0, 5, true)] }))
    s.hw.fwd.badUe.getLast? = some (0, 5, true) ∧ s.hw.logLost = false ∧ s.hw.fwd.changes = [])) ∧
  (State.reset.hw.fwd.badUe = []) ∧
  ((let s := onReset (fun h => (tReady h).setFld Reg.FWD_CFG Fld.FWD_CFG_SCRUB_EN 1)
    s.hw.flag Reg.FWD_CFG Fld.FWD_CFG_SCRUB_EN = true ∧ s.hw.fwdReady = true ∧ s.hw.fwd.recheck = [] ∧ s.hw.repairFirst = false)) ∧
  ((let s := onReset (fun h => (tReady h).setFld Reg.FWD_CFG Fld.FWD_CFG_SCRUB_EN 1)
    s.hw.flag Reg.FWD_CFG Fld.FWD_CFG_SCRUB_EN = true ∧ s.hw.fwdReady = true ∧ s.hw.fwd.recheck = [] ∧ s.hw.repairFirst = false ∧ s.hw.mismatches = [])) ∧
  (State.reset.hw.fwdReady = false) := by
  refine ⟨?_, ?_, ?_, ?_, ?_, ?_⟩ <;> decide +kernel

/-- The hypotheses of `Obligations.ScrubberRepairsTables` can be met (part 2). -/
theorem test_meets_ScrubberRepairsTables_2 :
  ((let s := onReset (fun h => h.onFwd (fun f => { f with recheck := [⟨2, 5, true, 0⟩] }))
    s.hw.fwd.recheck.find? (fun x => x.table == 2 && x.index == 5 && x.pipeB == true) = some ⟨2, 5, true, 0⟩ ∧ s.hw.shadowReached 0 = true ∧
      s.hw.repairFirst = false ∧ (s.hw.dropRecheck 2 5 true).differs true 2 5 = false)) ∧
  ((let s := onReset (fun h => h.onFwd (fun f => { f with recheck := [⟨2, 5, true, 0⟩], struck := [(2, 5, true)] }))
    s.hw.fwd.recheck.find? (fun x => x.table == 2 && x.index == 5 && x.pipeB == true) = some ⟨2, 5, true, 0⟩ ∧ s.hw.shadowReached 0 = true ∧
      s.hw.repairFirst = false ∧ (s.hw.dropRecheck 2 5 true).differs true 2 5 = true)) ∧
  ((let s := onReset (fun h => h.onFwd (fun f => { f with recheck := [⟨2, 5, true, 0⟩] }))
    s.hw.fwd.recheck.find? (fun x => x.table == 2 && x.index == 5 && x.pipeB == true) = some ⟨2, 5, true, 0⟩ ∧ s.hw.shadowReached 0 = true ∧
      s.hw.repairFirst = false ∧ (s.hw.dropRecheck 2 5 true).differs true 2 5 = false)) ∧
  ((let s := onReset (fun h => (h.setFld Reg.FWD_STATUS Fld.FWD_STATUS_LOG_LOST 1).setFld Reg.MBX_STATUS Fld.MBX_STATUS_READY 1)
    s.hw.logLost = true ∧ s.hw.fwRuns = true)) := by
  refine ⟨?_, ?_, ?_, ?_⟩ <;> decide +kernel

/-- The hypotheses of `Obligations.ReceivedPausesStopClasses` can be met. -/
theorem test_meets_ReceivedPausesStopClasses :
  ((let s := onReset (fun h => (h.setFld (Reg.MAC_STATUS 23) Fld.MAC_STATUS_LINK_UP 1).setFld (Reg.TSS_PORT_CFG 23) Fld.TSS_PORT_CFG_PFC_HONOUR 0x80)
    23 < 24 ∧ s.hw.linkUp 23 = true ∧ (7 < 8 ∧ (0xFF).testBit 7 = true ∧
      (s.hw.fld (Reg.TSS_PORT_CFG 23) Fld.TSS_PORT_CFG_PFC_HONOUR).testBit 7 = true))) ∧
  ((let s := onReset (fun h => h.setFld (Reg.MAC_STATUS 23) Fld.MAC_STATUS_LINK_UP 1)
    s.hw.linkUp 23 = true ∧ bitsOf 8 (255 &&& s.hw.fld (Reg.TSS_PORT_CFG 23) Fld.TSS_PORT_CFG_PFC_HONOUR) = [])) ∧
  (State.reset.hw.linkUp 3 = false) ∧
  ((let s := onReset (fun h => h.onTss (fun t => { t with pauseRx := [(191, 0)] }))
    kvGetD s.hw.tss.pauseRx (23 * 8 + 7) 0 ≤ s.hw.clk)) ∧
  ((let s := onReset (fun h => h.onTss (fun t => { t with pauseRx := [(191, 5)] }))
    s.hw.clk < kvGetD s.hw.tss.pauseRx (23 * 8 + 7) 0)) := by
  refine ⟨?_, ?_, ?_, ?_, ?_⟩ <;> decide +kernel

/-- The hypotheses of `Obligations.GateListsAdvanceSwitchAndRestart` can be met (part 1). -/
theorem test_meets_GateListsAdvanceSwitchAndRestart :
  ((let l : GateList := ⟨[0xFF000010, 0x80000010], 0, 1000, 0, 0, 0⟩
    let s := onReset (fun h => (h.onTss (fun t => { t with lists := [(46, l)] })).setFld (Reg.TSS_GCL_CTRL 23) Fld.TSS_GCL_CTRL_EN 1)
    23 < 24 ∧ s.hw.listOf 23 = some l ∧ s.hw.flag (Reg.TSS_GCL_CTRL 23) Fld.TSS_GCL_CTRL_EN = true ∧ s.hw.tss.restart.contains 23 = false)) ∧
  ((let l : GateList := ⟨[0xFF000010, 0x80000010], 0, 1000, 0, 0, 0⟩
    let s := onReset (fun h => (h.onTss (fun t => { t with lists := [(46, l)] })).setFld (Reg.TSS_GCL_CTRL 23) Fld.TSS_GCL_CTRL_EN 1)
    23 < 24 ∧ s.hw.listOf 23 = some l ∧ s.hw.flag (Reg.TSS_GCL_CTRL 23) Fld.TSS_GCL_CTRL_EN = true ∧ s.hw.tss.restart.contains 23 = false ∧
    s.hw.rn (Reg.TSS_GCL_ENTRY_NOW 23) < 1024 ∧
    ((segments egressDur l.cycle 0 l.entries).map (fun x => x.2.2))[s.hw.rn (Reg.TSS_GCL_ENTRY_NOW 23) + 1]? = some 0x80000010)) ∧
  (State.reset.hw.listOf 3 = none) ∧
  ((let l : GateList := ⟨[0xFF000010, 0x80000010], 0, 1000, 0, 0, 0⟩
    let s := onReset (fun h => (h.onTss (fun t => { t with lists := [(47, l)], swS := [(23, 0)] })).setFld (Reg.TSS_GCL_CTRL 23) Fld.TSS_GCL_CTRL_PENDING 1)
    23 < 24 ∧ s.hw.pendingList 23 = some l ∧ s.hw.switchDue 23 l.tb = true ∧ s.hw.tss.pendOff.contains 23 = false)) ∧
  ((let l : GateList := ⟨[0xFF000010, 0x80000010], 0, 1000, 0, 0, 0⟩
    let s := onReset (fun h => (h.onTss (fun t => { t with lists := [(47, l)], swS := [(23, 0)], pendOff := [23] })).setFld (Reg.TSS_GCL_CTRL 23) Fld.TSS_GCL_CTRL_PENDING 1)
    23 < 24 ∧ s.hw.pendingList 23 = some l ∧ s.hw.switchDue 23 l.tb = true ∧ s.hw.tss.pendOff.contains 23 = true)) ∧
  (State.reset.hw.pendingList 23 = none) := by
  refine ⟨?_, ?_, ?_, ?_, ?_, ?_⟩ <;> decide +kernel

/-- The hypotheses of `Obligations.GateListsAdvanceSwitchAndRestart` can be met (part 2). -/
theorem test_meets_GateListsAdvanceSwitchAndRestart_2 :
  ((let l : GateList := ⟨[0xFF000010, 0x80000010], 0, 1000, 0, 0, 0⟩
    let s := onReset (fun h => h.onTss (fun t => { t with lists := [(46, l)], restart := [23] }))
    23 < 24 ∧ s.hw.tss.restart.contains 23 = true ∧ s.hw.listOf 23 = some l)) ∧
  ((let l : GateList := ⟨[16, 0x80000010], 0, 1000, 0, 0, 0⟩
    let s := onReset (fun h => h.onTss (fun t => { t with lists := [(610, l)], restart := [511] }))
    s.hw.tss.restart.contains (256 + 255) = true ∧ s.hw.sluiceList 255 = some l)) ∧
  ((let l : GateList := ⟨[16, 0x80000010], 0, 1000, 0, 0, 0⟩
    let s := onReset (fun h => (h.onTss (fun t => { t with lists := [(610, l)] })).setFld (Reg.TSS_SLUICE_GATE_CTRL 255) Fld.TSS_SLUICE_GATE_CTRL_EN 1)
    s.hw.sluiceList 255 = some l ∧ s.hw.flag (Reg.TSS_SLUICE_GATE_CTRL 255) Fld.TSS_SLUICE_GATE_CTRL_EN = true ∧
      s.hw.tss.restart.contains (256 + 255) = false)) ∧
  ((let l : GateList := ⟨[16, 0x80000010], 0, 1000, 0, 0, 0⟩
    let s := onReset (fun h => h.onTss (fun t => { t with lists := [(611, l)], sPend := [255], swS := [(511, 0)] }))
    255 < 256 ∧ kvGet s.hw.tss.lists (100 + 255 * 2 + (1 - kvGetD s.hw.tss.sBank 255 0)) = some l ∧ s.hw.switchDue (256 + 255) l.tb = true)) := by
  refine ⟨?_, ?_, ?_, ?_⟩ <;> decide +kernel

/-- The hypotheses of `Obligations.PreemptionAndEliminationEvents` can be met (part 1). -/
theorem test_meets_PreemptionAndEliminationEvents :
  ((let s := onReset (fun h => h.onTss (fun t => { t with notice := [(3, [(1, 0)])] }))
    kvGetD s.hw.tss.notice 3 [] = [(1, 0)] ∧ 0 ≤ s.hw.clk)) ∧
  (kvGetD State.reset.hw.tss.notice 3 [] = []) ∧
  ((onReset (fun h => h.setFld (Reg.TSS_FRER_CFG 63) Fld.TSS_FRER_CFG_EN 1)).hw.eliminating 63 = true) ∧
  ((let f : Frer := ⟨0, 0, 0, true, 100, 2⟩
    let s := onReset (fun h => (h.onTss (fun t => { t with frer := [(63, f)] })).setFld (Reg.TSS_FRER_CFG 63) Fld.TSS_FRER_CFG_EN 1)
    s.hw.eliminating 63 = true ∧ 98 = max ((s.hw.frerOf 63).passed - (s.hw.frerOf 63).discarded) ((s.hw.frerOf 63).discarded - (s.hw.frerOf 63).passed) ∧
    2 * s.hw.fld (Reg.TSS_FRER_CFG 63) Fld.TSS_FRER_CFG_HISTORY < 98)) ∧
  (State.reset.hw.eliminating 63 = false) ∧
  ((let s := onReset (fun h => tLink ((h.setFld (Reg.TSS_QS_CFG 3) Fld.TSS_QS_CFG_EN 1).onRingAt 0 (fun x => { x with rxStop := true })))
    3 < 4 ∧ s.hw.flag (Reg.TSS_QS_CFG 3) Fld.TSS_QS_CFG_EN = true ∧ s.hw.sweepDue 3 = true)) := by
  refine ⟨?_, ?_, ?_, ?_, ?_, ?_⟩ <;> decide +kernel

/-- The hypotheses of `Obligations.PreemptionAndEliminationEvents` can be met (part 2). -/
theorem test_meets_PreemptionAndEliminationEvents_2 :
  (State.reset.hw.fld (Reg.TSS_QS_CFG 3) Fld.TSS_QS_CFG_EN = 0) := by decide +kernel

/-- The hypotheses of `Obligations.VideoFramesAreObservedAndJudged` can be met (part 1). -/
theorem test_meets_VideoFramesAreObservedAndJudged :
  ((let f := { tFrame with tail := true, looked := true, copies := [⟨28, .waiting⟩] }
    let s := onReset (tFrames [f])
    s.hw.vieHead = some f ∧ ((s.hw.basinEcc 0 0).discardBad 0).frame? 0 = some f ∧ f.vie = none)) ∧
  ((let f := { tFrame with tail := true, looked := true, copies := [⟨28, .waiting⟩], vie := some 3 }
    let s := onReset (tFrames [f])
    s.hw.vieHead = some f ∧ ((s.hw.basinEcc 0 0).discardBad 0).frame? 0 = some f ∧ s.hw.vcfg 3 Fld.VIE_S_CFG_EN = 0)) ∧
  ((let f := { tFrame with tail := true, looked := true, copies := [⟨28, .waiting⟩], vie := some 3, bad := some 2 }
    let s := onReset (fun h => tReady { (tFrames [f] h).setVie 3 VieS.init |>.setFld (Reg.VIE_S_CFG 3) Fld.VIE_S_CFG_EN 1 with own := { h.own with keys := [(2, 5)] } })
    s.hw.vieHead = some f ∧ ((s.hw.basinEcc 0 0).discardBad 0).frame? 0 = some f ∧ s.hw.keyless f = false ∧ s.hw.vcfg 3 Fld.VIE_S_CFG_EN ≠ 0 ∧ s.hw.flag Reg.VIE_STATUS Fld.VIE_STATUS_READY = true)) ∧
  ((let f := { tFrame with tail := true, looked := true, copies := [⟨28, .waiting⟩], vie := some 3 }
    let s := onReset (fun h => tReady { (tFrames [f] h).setVie 3 VieS.init |>.setFld (Reg.VIE_S_CFG 3) Fld.VIE_S_CFG_EN 1 with own := { h.own with keys := [(2, 5)] } })
    s.hw.vieHead = some f ∧ ((s.hw.basinEcc 0 0).discardBad 0).frame? 0 = some f ∧ s.hw.keyless f = false ∧ s.hw.vcfg 3 Fld.VIE_S_CFG_EN ≠ 0 ∧ s.hw.flag Reg.VIE_STATUS Fld.VIE_STATUS_READY = true)) ∧
  (State.reset.hw.vieHead = none) ∧
  ((let w : VieFrame := ⟨false, none, 0, 0, 0, false, 0, 0, none, 0, none, false⟩
    let s := onReset (fun h => h.setVie 63 { VieS.init with wait := [w] })
    kvGet s.hw.vie.s 63 = some { VieS.init with wait := [w] } ∧ s.hw.awaitsDisplay 63 w = false)) := by
  refine ⟨?_, ?_, ?_, ?_, ?_, ?_⟩ <;> decide +kernel

/-- The hypotheses of `Obligations.VideoFramesAreObservedAndJudged` can be met (part 2). -/
theorem test_meets_VideoFramesAreObservedAndJudged_2 :
  ((let w : VieFrame := ⟨false, none, 0, 0, 0, false, 0, 0, none, 0, none, false⟩
    let s := onReset (fun h => h.setVie 63 { VieS.init with wait := [w] })
    kvGet s.hw.vie.s 63 = some { VieS.init with wait := [w] } ∧ s.hw.awaitsDisplay 63 w = false ∧ s.hw.vcfg 63 Fld.VIE_S_CFG_VERDICT_EN = 0)) ∧
  (kvGet State.reset.hw.vie.s 63 = none) ∧
  (kvGet (onReset (fun h => h.setVie 63 { VieS.init with armed := some (1, 0) })).hw.vie.s 63 = some { VieS.init with armed := some (1, 0) }) ∧
  (kvGet State.reset.hw.vie.s 63 = none) ∧
  ((let s := onReset (fun h => (h.setVie 63 VieS.init).setFld Reg.VIE_NOTICE_CFG Fld.VIE_NOTICE_CFG_HEARTBEAT_MS 100)
    s.hw.fld Reg.VIE_NOTICE_CFG Fld.VIE_NOTICE_CFG_HEARTBEAT_MS ≠ 0 ∧ kvGet s.hw.vie.s 63 = some VieS.init)) := by
  refine ⟨?_, ?_, ?_, ?_, ?_⟩ <;> decide +kernel

/-- The hypotheses of `Obligations.VideoAlarmsAct` can be met (part 1). -/
theorem test_meets_VideoAlarmsAct :
  ((onReset (fun h => { h with tasks := [⟨0, [1], 8, 0⟩] })).hw.taskRun? 0 = some ⟨0, [1], 8, 0⟩) ∧
  ((onReset (fun h => { h with tasks := [⟨1, [1], 8, 0⟩] })).hw.taskRun? 1 = some ⟨1, [1], 8, 0⟩) ∧
  ((onReset (fun h => { h with tasks := [⟨2, [1], 8, 0⟩] })).hw.taskRun? 2 = some ⟨2, [1], 8, 0⟩) ∧
  ((onReset (fun h => { h with tasks := [⟨3, [1], 8, 0⟩] })).hw.taskRun? 3 = some ⟨3, [1], 8, 0⟩) ∧
  (State.reset.hw.tasks = []) ∧
  (3 < 4 ∧ (onReset (fun h => { h with tasks := [⟨7, [1], 8, 0⟩] })).hw.taskRun? (4 + 3) = some ⟨7, [1], 8, 0⟩) := by
  refine ⟨?_, ?_, ?_, ?_, ?_, ?_⟩ <;> decide +kernel

/-- The hypotheses of `Obligations.VideoAlarmsAct` can be met (part 2). -/
theorem test_meets_VideoAlarmsAct_2 :
  ((let s := onReset (fun h => { ((h.setFld (Reg.RSV_RING_STATE 15) Fld.RSV_RING_STATE_STATE 1).wn (Reg.RSV_TRIG_MASK 3) 0x8000).onVie (fun v => { v with ring := [(15, RsvRing.empty)] }) with tasks := [⟨7, [1], 8, 0⟩] })
    s.hw.taskRun? (4 + 3) = some ⟨7, [1], 8, 0⟩ ∧ s.hw.clk = 0 ∧ bitsOf 16 (s.hw.rn (Reg.RSV_TRIG_MASK 3)) = [15] ∧ s.hw.fld (Reg.RSV_RING_STATE 15) Fld.RSV_RING_STATE_STATE = 1 ∧
    s.hw.flag (Reg.EVF_TASK_CFG (4 + 3)) Fld.EVF_TASK_CFG_RECORD = false ∧ kvGet s.hw.vie.ring 15 = some RsvRing.empty ∧ RsvRing.empty.trig = [])) ∧
  ((let s := onReset (fun h => h.setFld (Reg.RSV_RING_STATE 15) Fld.RSV_RING_STATE_STATE 2)
    s.hw.fld (Reg.RSV_RING_STATE 15) Fld.RSV_RING_STATE_STATE = 2 ∧ (kvGetD s.hw.vie.ring 15 RsvRing.empty).postEnd ≤ s.hw.clk)) ∧
  (State.reset.hw.fld (Reg.RSV_RING_STATE 15) Fld.RSV_RING_STATE_STATE ≠ 2) := by
  refine ⟨?_, ?_, ?_⟩ <;> decide +kernel

/-- The hypotheses of `Obligations.LinksFallAndRise` can be met. -/
theorem test_meets_LinksFallAndRise :
  (23 < 24 ∧ kvGet State.reset.hw.mac.loopback 23 = none ∧ (kvGet State.reset.hw.swc.rx 23).isNone = true) ∧
  (23 < 24) ∧
  (23 < 24 ∧ State.reset.hw.mac.lineGood.contains 23 = false) ∧
  (State.reset.hw.linkUp 23 = false) ∧
  ((let s := onReset (fun h => (((h.setFld (Reg.SQ_STATUS 4) Fld.SQ_STATUS_PLLB_LOCK 1).setFld (Reg.MAC_CFG 19) Fld.MAC_CFG_EN 1).setFld (Reg.MAC_CFG 19) Fld.MAC_CFG_MODE 5))
    s.hw.flag (Reg.SQ_STATUS 4) Fld.SQ_STATUS_PLLB_LOCK = true ∧ s.hw.pllLanes 4 1 = [19])) := by
  refine ⟨?_, ?_, ?_, ?_, ?_⟩ <;> decide +kernel

/-- The hypotheses of `Obligations.MixingSegmentsShareTheLine` can be met. -/
theorem test_meets_MixingSegmentsShareTheLine :
  ((let f := { tFrame with tail := true, looked := true, copies := [⟨23, .granted⟩] }
    let s := onReset (fun h => tFrames [f] ((h.setFld (Reg.MAC_STATUS 23) Fld.MAC_STATUS_LINK_UP 1).setFld (Reg.MAC_PLCA_STATUS 23) Fld.MAC_PLCA_STATUS_ACTIVE 1))
    s.hw.plca 23 = true ∧ s.hw.txBusy 23 = false ∧ (s.hw.opportunity 23 false).grantedAt 23 = some f)) ∧
  ((let f := { tFrame with tail := true, looked := true, copies := [⟨23, .waiting⟩] }
    let s := onReset (fun h => tFrames [f] ((tReady h).setFld (Reg.MAC_STATUS 23) Fld.MAC_STATUS_LINK_UP 1 |>.setFld (Reg.MAC_STATUS 23) Fld.MAC_STATUS_RATE 1 |>.setFld (Reg.MAC_PLCA_STATUS 23) Fld.MAC_PLCA_STATUS_ACTIVE 1))
    let h := s.hw.opportunity 23 false
    s.hw.plca 23 = true ∧ s.hw.txBusy 23 = false ∧ h.grantedAt 23 = none ∧ (h.select 23).isSome = true)) ∧
  ((let s := onReset (fun h => (h.setFld (Reg.MAC_STATUS 23) Fld.MAC_STATUS_LINK_UP 1).setFld (Reg.MAC_PLCA_STATUS 23) Fld.MAC_PLCA_STATUS_ACTIVE 1)
    let h := s.hw.opportunity 23 false
    s.hw.plca 23 = true ∧ s.hw.txBusy 23 = false ∧ h.grantedAt 23 = none ∧ (h.select 23).isNone = true)) ∧
  (State.reset.hw.plca 23 = false) ∧
  ((let s := onReset (fun h => ((tFrames [tFrame] h).onSwc (fun w => { w with tx := [(23, [⟨0, [], false, none, 0, 0, false⟩])] })).onMac (fun m => { m with attempts := [] }))
    let h := (((s.hw.inc (Reg.MAC_COLLISIONS 23)).countCut 23)).onSwc (fun w => { w with tx := kvDel w.tx 23 })
    (kvGetD s.hw.swc.tx 23 []).length = 1 ∧ (h.frame? 0).isSome = true ∧ (if s.hw.retrying 23 0 then (kvGetD s.hw.mac.attempts 23 (0, 0)).2 else 0) + 1 < 16)) ∧
  ((let s := onReset (fun h => ((tFrames [tFrame] h).onSwc (fun w => { w with tx := [(23, [⟨0, [], false, none, 0, 0, false⟩])] })).onMac (fun m => { m with attempts := [(23, (0, 15))] }))
    let h := (((s.hw.inc (Reg.MAC_COLLISIONS 23)).countCut 23)).onSwc (fun w => { w with tx := kvDel w.tx 23 })
    (kvGetD s.hw.swc.tx 23 []).length = 1 ∧ (h.frame? 0).isSome = true ∧ 16 ≤ (if s.hw.retrying 23 0 then (kvGetD s.hw.mac.attempts 23 (0, 0)).2 else 0) + 1)) := by
  refine ⟨?_, ?_, ?_, ?_, ?_, ?_⟩ <;> decide +kernel

/-- The hypotheses of `Obligations.IdleLinksSleepAndWake` can be met. -/
theorem test_meets_IdleLinksSleepAndWake :
  ((let s := onReset (fun h => (h.setFld (Reg.MAC_STATUS 19) Fld.MAC_STATUS_LINK_UP 1).setFld (Reg.MAC_EEE_CFG 19) Fld.MAC_EEE_CFG_EN 1)
    s.hw.linkUp 19 = true ∧ s.hw.flag (Reg.MAC_EEE_CFG 19) Fld.MAC_EEE_CFG_EN = true ∧ s.hw.lpi 19 = false ∧ s.hw.hasCopies 19 = false ∧ kvGetD s.hw.swc.pauseQ 19 [] = [])) ∧
  (State.reset.hw.linkUp 3 = false) ∧
  ((let s := onReset (fun h => h.setFld Reg.PWR_DOMAIN_PG_LO ⟨2, 2⟩ 1)
    s.hw.domOn (31 + 19 / 4) = false ∧ s.hw.pg 2 = true)) ∧
  ((let b := List.replicate 60 0 ++ fcsOf (List.replicate 60 0)
    let s := onReset (fun h => (h.setFld Reg.PWR_DOMAIN_PG_LO ⟨2, 2⟩ 1).wn (Reg.MAC_WAKE_PAT_EN 23) 8)
    s.hw.domOn 36 = false ∧ s.hw.pg 2 = true ∧ fcsGood b = true ∧ s.hw.wakeMatch 23 3 b = true)) ∧
  ((onReset (fun h => h.setFld Reg.PWR_DOMAIN_ON_HI ⟨3, 3⟩ 1)).hw.domOn (31 + 19 / 4) = true) := by
  refine ⟨?_, ?_, ?_, ?_, ?_⟩ <;> decide +kernel

/-- The hypotheses of `Obligations.CanControllersReceiveAndCountErrors` can be met (part 1). -/
theorem test_meets_CanControllersReceiveAndCountErrors :
  ((let s := onReset (fun h => (h.setFld (Reg.CAN_CFG 47) Fld.CAN_CFG_EN 1).setFld Reg.FBUS_STATUS ⟨5, 5⟩ 1)
    47 < 48 ∧ s.hw.flag (Reg.CAN_CFG 47) Fld.CAN_CFG_EN = true ∧ s.hw.flag Reg.FBUS_STATUS ⟨47 / 8, 47 / 8⟩ = true ∧ s.hw.flag (Reg.CAN_STATUS 47) Fld.CAN_STATUS_SYNC = false)) ∧
  (State.reset.hw.flag (Reg.CAN_CFG 47) Fld.CAN_CFG_EN = false) ∧
  ((let s := (onReset (fun h => (h.setFld (Reg.CAN_CFG 47) Fld.CAN_CFG_EN 1).setFld (Reg.CAN_STATUS 47) Fld.CAN_STATUS_SYNC 1))
    s.hw.canOn 47 = true ∧ s.hw.canMode 47 ≠ 2)) ∧
  ((let s := (onReset (fun h => (h.setFld (Reg.CAN_CFG 47) Fld.CAN_CFG_EN 1).setFld (Reg.CAN_STATUS 47) Fld.CAN_STATUS_SYNC 1))
    s.hw.canOn 47 = true ∧ s.hw.canMode 47 ≠ 2 ∧ ((Hw.goodRx (s.hw.onCan 47 (fun x => { x with erring := false })) 47).filterOf 47 0 (5 % 2 ^ 29) ((0).testBit 21)).1 = 3)) ∧
  ((let s := (onReset (fun h => (h.setFld (Reg.CAN_CFG 47) Fld.CAN_CFG_EN 1).setFld (Reg.CAN_STATUS 47) Fld.CAN_STATUS_SYNC 1))
    s.hw.canOn 47 = true ∧ s.hw.canMode 47 ≠ 2 ∧ s.hw.canCfg 47 Fld.CAN_CFG_XL_EN = 0)) ∧
  (State.reset.hw.canOn 47 = false) := by
  refine ⟨?_, ?_, ?_, ?_, ?_, ?_⟩ <;> decide +kernel

/-- The hypotheses of `Obligations.CanControllersReceiveAndCountErrors` can be met (part 2). -/
theorem test_meets_CanControllersReceiveAndCountErrors_2 :
  ((let s := onReset (fun h => (h.setFld (Reg.CAN_CFG 47) Fld.CAN_CFG_RXQ1_DIRECT 1).onCan 47 (fun x => { x with rx1 := [(0, [0, 1, 2, 3, 4])] }))
    s.hw.flag (Reg.CAN_CFG 47) Fld.CAN_CFG_RXQ1_DIRECT = true ∧ (s.hw.can 47).rx 1 = [(0, [0, 1, 2, 3, 4])])) ∧
  ((let s := onReset (fun h => (h.setFld (Reg.CAN_CFG 47) Fld.CAN_CFG_RXQ1_DIRECT 1).onCan 47 (fun x => { x with rx1 := [(0, [0, 1, 2, 3, 4])] }))
    s.hw.flag (Reg.CAN_CFG 47) Fld.CAN_CFG_RXQ1_DIRECT = true ∧ (s.hw.can 47).rx 1 = [(0, [0, 1, 2, 3, 4])])) ∧
  (((onReset (fun h => h.onCan 47 (fun x => { x with conf := [(0, [1])] }))).hw.can 47).conf = [(0, [1])]) ∧
  (((onReset (fun h => h.onCan 47 (fun x => { x with errq := [(0, [1])] }))).hw.can 47).errq = [(0, [1])]) ∧
  ((State.reset.hw.can 47).rx 1 = [] ∧ (State.reset.hw.can 47).conf = [] ∧ (State.reset.hw.can 47).errq = []) ∧
  ((let s := onReset (fun h => (h.setErr 47 256 0).setFld (Reg.CAN_CFG 47) Fld.CAN_CFG_AUTO_RECOVER 1)
    s.hw.canErr 47 = 2 ∧ s.hw.flag (Reg.CAN_CFG 47) Fld.CAN_CFG_AUTO_RECOVER = true)) := by
  refine ⟨?_, ?_, ?_, ?_, ?_, ?_⟩ <;> decide +kernel

/-- The hypotheses of `Obligations.CanControllersReceiveAndCountErrors` can be met (part 3). -/
theorem test_meets_CanControllersReceiveAndCountErrors_3 :
  (State.reset.hw.canErr 47 ≠ 2) := by decide +kernel

/-- The hypotheses of `Obligations.CanControllersSend` can be met (part 1). -/
theorem test_meets_CanControllersSend :
  ((onReset tReady).hw.pg (37 + 47 / 8) = true ∧ recKind [0, 5, 0] < 3 ∧ (onReset tReady).hw.canFormat 47 (recKind [0, 5, 0]) = true ∧ ((onReset tReady).hw.can 47).txq.length < 32) ∧
  ((let s := onReset (fun h => (tReady h).onCan 47 (fun x => { x with txq := List.replicate 32 ⟨[], 0, none, 0, false⟩ }))
    s.hw.pg (37 + 47 / 8) = true ∧ s.hw.canFormat 47 0 = true ∧ 32 ≤ (s.hw.can 47).txq.length)) ∧
  (State.reset.hw.pg (37 + 47 / 8) = false ∧ State.reset.hw.canFormat 47 2 = false) ∧
  ((let s := onReset (fun h => ((h.setFld (Reg.CAN_CFG 47) Fld.CAN_CFG_EN 1).setFld (Reg.CAN_STATUS 47) Fld.CAN_STATUS_SYNC 1).onCan 47 (fun x => { x with txq := [⟨[0, 5, 0], 0, none, 0, false⟩] }))
    s.hw.canOn 47 = true ∧ s.hw.canMode 47 ≠ 1 ∧ (s.hw.can 47).sending = none ∧ ((s.hw.onCan 47 (fun x => { x with erring := false })).offerFresh 47 33).1 = some ⟨[0, 5, 0], 0, none, 0, false⟩)) ∧
  ((let s := (onReset (fun h => (h.setFld (Reg.CAN_CFG 47) Fld.CAN_CFG_EN 1).setFld (Reg.CAN_STATUS 47) Fld.CAN_STATUS_SYNC 1))
    s.hw.canOn 47 = true ∧ s.hw.canMode 47 ≠ 1 ∧ (s.hw.can 47).sending = none ∧ (s.hw.onCan 47 (fun x => { x with erring := false })).canOffer 47 = none)) ∧
  (State.reset.hw.canOn 47 = false) := by
  refine ⟨?_, ?_, ?_, ?_, ?_, ?_⟩ <;> decide +kernel

/-- The hypotheses of `Obligations.CanControllersSend` can be met (part 2). -/
theorem test_meets_CanControllersSend_2 :
  (((onReset (fun h => h.onCan 47 (fun x => { x with sending := some ⟨[0, 5, 0], 0, none, 0, false⟩ }))).hw.can 47).sending = some ⟨[0, 5, 0], 0, none, 0, false⟩) ∧
  (((onReset (fun h => h.onCan 47 (fun x => { x with sending := some ⟨[0, 5, 0], 0, none, 0, false⟩ }))).hw.can 47).sending = some ⟨[0, 5, 0], 0, none, 0, false⟩) ∧
  ((State.reset.hw.can 47).sending = none) ∧
  ((let s := onReset (fun h => (h.setFld (Reg.CAN_SCHED_CFG 47) Fld.CAN_SCHED_CFG_EN 1).onCan 47 (fun x => { x with cycle := some (0, 0) }))
    s.hw.schedOn 47 = true ∧ (s.hw.can 47).stepped = false ∧ s.hw.nextCycle 47 = some (0, 0))) ∧
  (State.reset.hw.schedOn 47 = false) ∧
  ((let s := onReset (fun h => ((h.setFld (Reg.CAN_SCHED_CFG 47) Fld.CAN_SCHED_CFG_EN 1).wn (Reg.CAN_SCHED_SLOT 47 63) 0x80000000).onCan 47 (fun x => { x with cycle := some (0, 0) }))
    s.hw.schedOn 47 = true ∧ (s.hw.rn (Reg.CAN_SCHED_SLOT 47 63)).testBit 31 = true ∧ (s.hw.can 47).cycle = some (0, 0) ∧ 0 + s.hw.rn (Reg.CAN_SCHED_SLOT 47 63) % 2 ^ 30 ≤ s.hw.schedRun 47)) := by
  refine ⟨?_, ?_, ?_, ?_, ?_, ?_⟩ <;> decide +kernel

/-- The hypotheses of `Obligations.CanControllersSend` can be met (part 3). -/
theorem test_meets_CanControllersSend_3 :
  (State.reset.hw.schedOn 47 = false) ∧
  ((let s := onReset (fun h => h.onCan 47 (fun x => { x with live := [⟨[0, 5, 0], 0, some 63, 0, false⟩] }))
    (s.hw.can 47).live.any (fun l => l.slot == some 63 && decide (l.until_ ≤ s.hw.schedRun 47)) = true ∧ (s.hw.can 47).sending = none)) ∧
  ((let s := onReset (fun h => h.onCan 47 (fun x => { x with live := [⟨[0, 5, 0], 0, some 63, 0, false⟩], sending := some ⟨[0, 5, 0], 0, some 63, 0, true⟩ }))
    (s.hw.can 47).live.any (fun l => l.slot == some 63 && decide (l.until_ ≤ s.hw.schedRun 47)) = true)) ∧
  ((State.reset.hw.can 47).live = []) := by
  refine ⟨?_, ?_, ?_, ?_⟩ <;> decide +kernel

/-- The hypotheses of `Obligations.LinControllersAndWakeDetectors` can be met (part 1). -/
theorem test_meets_LinControllersAndWakeDetectors :
  ((let s := onReset (fun h => (h.setFld (Reg.LIN_CFG 15) Fld.LIN_CFG_EN 1).setFld Reg.FBUS_STATUS Fld.FBUS_STATUS_LIN_READY 1 |>.onLin 15 (fun x => { x with await := some 63 }))
    s.hw.linOn 15 = true ∧ (s.hw.lin 15).sent = none ∧ (s.hw.lin 15).await = some 63)) ∧
  ((let s := onReset (fun h => (h.setFld (Reg.LIN_CFG 15) Fld.LIN_CFG_EN 1).setFld Reg.FBUS_STATUS Fld.FBUS_STATUS_LIN_READY 1 |>.onLin 15 (fun x => { x with sent := some 63, pub := [(63, ([], true))] }))
    s.hw.linOn 15 = true ∧ (s.hw.lin 15).sent = some 63 ∧ kvGet (s.hw.lin 15).pub 63 = some ([], true))) ∧
  ((let s := onReset (fun h => (h.setFld (Reg.LIN_CFG 15) Fld.LIN_CFG_EN 1).setFld Reg.FBUS_STATUS Fld.FBUS_STATUS_LIN_READY 1 |>.onLin 15 (fun x => { x with sent := some 63 }))
    s.hw.linOn 15 = true ∧ (s.hw.lin 15).sent = some 63)) ∧
  (State.reset.hw.linOn 15 = false) ∧
  ((let s := onReset (fun h => h.onLin 15 (fun x => { x with await := some 63 }))
    (s.hw.lin 15).await = some 63)) ∧
  ((State.reset.hw.lin 15).await = none) := by
  refine ⟨?_, ?_, ?_, ?_, ?_, ?_⟩ <;> decide +kernel

/-- The hypotheses of `Obligations.LinControllersAndWakeDetectors` can be met (part 2). -/
theorem test_meets_LinControllersAndWakeDetectors_2 :
  ((let s := onReset (fun h => (h.setFld (Reg.CANW_CFG 7) Fld.CANW_CFG_EN 1).setFld Reg.PWR_DOMAIN_PG_LO ⟨1, 1⟩ 1 |>.setFld (Reg.CANW_CFG 7) Fld.CANW_CFG_IDE 1)
    s.hw.canwOn 7 = true ∧ (s.hw.setFld (Reg.CANW_STATUS 7) Fld.CANW_STATUS_ERRORS (s.hw.fld (Reg.CANW_STATUS 7) Fld.CANW_STATUS_ERRORS - 1)).canwMatches 7 5 false 0 [] = false)) ∧
  ((let s := onReset (fun h => (h.setFld (Reg.CANW_CFG 7) Fld.CANW_CFG_EN 1).setFld Reg.PWR_DOMAIN_PG_LO ⟨1, 1⟩ 1)
    s.hw.canwOn 7 = true ∧ (s.hw.setFld (Reg.CANW_STATUS 7) Fld.CANW_STATUS_ERRORS (s.hw.fld (Reg.CANW_STATUS 7) Fld.CANW_STATUS_ERRORS - 1)).canwMatches 7 0 false 0 [] = true)) ∧
  (State.reset.hw.canwOn 7 = false) ∧
  ((let s := onReset (fun h => (h.setFld (Reg.CANW_CFG 7) Fld.CANW_CFG_EN 1).setFld Reg.PWR_DOMAIN_PG_LO ⟨1, 1⟩ 1 |>.setFld (Reg.CANW_STATUS 7) Fld.CANW_STATUS_ERRORS 31)
    s.hw.canwOn 7 = true ∧ min (s.hw.fld (Reg.CANW_STATUS 7) Fld.CANW_STATUS_ERRORS + 1) 63 = 32)) ∧
  ((onReset (fun h => h.setFld (Reg.CANW_CFG 7) Fld.CANW_CFG_FD_PASSIVE 1)).hw.flag (Reg.CANW_CFG 7) Fld.CANW_CFG_FD_PASSIVE = true) := by
  refine ⟨?_, ?_, ?_, ?_, ?_⟩ <;> decide +kernel

/-- The hypotheses of `Obligations.BridgeDispatchesAndComposes` can be met (part 1). -/
theorem test_meets_BridgeDispatchesAndComposes :
  ((let s := onReset (fun h => ((((h.setFld Reg.BRG_STATUS Fld.BRG_STATUS_READY 1).setFld Reg.BRG_CFG Fld.BRG_CFG_EN 1).setFld (Reg.BRG_SRC_CFG 47) Fld.BRG_SRC_CFG_EN 1).onCan 47 (fun x => { x with rx0 := [(0, [0, 5, 0, 0, 0])] })))
    s.hw.flag Reg.BRG_STATUS Fld.BRG_STATUS_READY = true ∧ s.hw.flag Reg.BRG_CFG Fld.BRG_CFG_EN = true ∧ s.hw.brgNext true = some 47 ∧
    s.hw.brgHead true 47 = some (0, [0, 5, 0, 0, 0]))) ∧
  ((let s := onReset (fun h => ((((h.setFld Reg.BRG_STATUS Fld.BRG_STATUS_READY 1).setFld Reg.BRG_CFG Fld.BRG_CFG_EN 1).setFld (Reg.BRG_SRC_CFG 95) Fld.BRG_SRC_CFG_EN 1).onBrg (fun x => { x with acf := [(95, [(0, [0, 5, 0, 0, 0])])] })))
    s.hw.flag Reg.BRG_STATUS Fld.BRG_STATUS_READY = true ∧ s.hw.flag Reg.BRG_CFG Fld.BRG_CFG_EN = true ∧ s.hw.brgNext true = none ∧ s.hw.brgNext false = some 95 ∧
    s.hw.brgHead false 95 = some (0, [0, 5, 0, 0, 0]))) ∧
  ((onReset (fun h => ((((h.setFld Reg.BRG_STATUS Fld.BRG_STATUS_READY 1).setFld Reg.BRG_CFG Fld.BRG_CFG_EN 1).setFld (Reg.BRG_SRC_CFG 47) Fld.BRG_SRC_CFG_EN 1).onCan 47 (fun x => { x with rx0 := [(0, [0, 5, 0, 0, 0])] })))).hw.brgNext true = some 47) ∧
  (State.reset.hw.brgNext true = none ∧ State.reset.hw.brgNext false = none) ∧
  ((onReset (fun h => h.onBrg (fun b => { b with sig := [(0, [0, 5, 0, 0, 0], [(1, 0)])] }))).hw.brg.sig = [(0, [0, 5, 0, 0, 0], [(1, 0)])]) ∧
  (State.reset.hw.brg.sig = []) := by
  refine ⟨?_, ?_, ?_, ?_, ?_, ?_⟩ <;> decide +kernel

/-- The hypotheses of `Obligations.BridgeDispatchesAndComposes` can be met (part 2). -/
theorem test_meets_BridgeDispatchesAndComposes_2 :
  (kvGet (onReset (fun h => h.onBrg (fun b => { b with bufs := [(7, ⟨8, 0, 5, 0, 2, 10, 0, [], 0, 0⟩)] }))).hw.brg.bufs 7 = some ⟨8, 0, 5, 0, 2, 10, 0, [], 0, 0⟩) ∧
  (kvGet State.reset.hw.brg.bufs 7 = none) ∧
  ((let m : SigMap := ⟨0, 8, false, 7, 0, false, 15, 0, false⟩
    let b : AsmBuf := ⟨8, 0, 5, 0, 2, 10, 0, [0], 0, 0⟩
    let s := onReset (fun h => { (h.onBrg (fun x => { x with bufs := [(7, b)], maps := [(3, m)] })).setFld (Reg.BRG_SIG_TMO 15) Fld.BRG_SIG_TMO_TMO_MS 5 with clk := 2500000 })
    kvGet s.hw.brg.maps 3 = some m ∧ s.hw.mapLate m = true ∧ kvGet s.hw.brg.bufs m.buf = some b)) ∧
  ((let m : SigMap := ⟨0, 8, false, 7, 0, false, 15, 0, false⟩
    let s := onReset (fun h => { (h.onBrg (fun x => { x with maps := [(3, m)] })).setFld (Reg.BRG_SIG_TMO 15) Fld.BRG_SIG_TMO_TMO_MS 5 with clk := 2500000 })
    kvGet s.hw.brg.maps 3 = some m ∧ s.hw.mapLate m = true ∧ kvGet s.hw.brg.bufs m.buf = none)) ∧
  (kvGet State.reset.hw.brg.maps 7 = none) ∧
  ((let x : TpSess := ⟨1, 2, 3, false, 20, 1, 3, [], [], 6, 0, 0, 0, 0, 0, 0⟩
    (onReset (fun h => h.onBrg (fun b => { b with sess := [x] }))).hw.sess? 1 2 3 = some x)) := by
  refine ⟨?_, ?_, ?_, ?_, ?_, ?_⟩ <;> decide +kernel

/-- The hypotheses of `Obligations.BridgeDispatchesAndComposes` can be met (part 3). -/
theorem test_meets_BridgeDispatchesAndComposes_3 :
  (State.reset.hw.sess? 1 2 3 = none) ∧
  (kvGet (onReset (fun h => h.onBrg (fun b => { b with batch := [(31, ⟨[], 1, 2, none, 0, 0⟩)] }))).hw.brg.batch 31 = some ⟨[], 1, 2, none, 0, 0⟩) ∧
  (State.reset.hw.copyAt 25 (fun _ => true) = none) ∧
  ((let f := { tFrame with tail := true, looked := true, copies := [⟨25, .granted⟩] }
    (onReset (tFrames [f])).hw.copyAt 25 (fun _ => true) = some f ∧ (parseHdr ((onReset (tFrames [f])).hw.readFrame f)).etype ≠ 0x22F0)) ∧
  ((let f := { tFrame with tail := true, looked := true, copies := [⟨25, .granted⟩], cells := [5] }
    let b := toBe 6 1 ++ toBe 6 2 ++ toBe 2 0x22F0 ++ [0x82, 0x80, 0, 1] ++ toBe 8 0 ++ List.replicate 38 0
    let s := onReset (fun h => { (((tFrames [f] h).onSwc (fun w => { w with cells := [(5, ⟨0, cellCrypt 5 0 0 5 b⟩)] })).setFld (Reg.BRG_RXTUN_CFG 31) Fld.BRG_RXTUN_CFG_EN 1)
      with own := { h.own with keys := [(2, 5)] }, sec := { h.sec with nonce := 0 } })
    let p := (parseHdr (s.hw.readFrame f)).body
    s.hw.copyAt 25 (fun _ => true) = some f ∧ (parseHdr (s.hw.readFrame f)).etype = 0x22F0 ∧ be (sub p 0 1) = 0x82 ∧ s.hw.rxTunnel (be (sub p 4 8)) = some 31)) := by
  refine ⟨?_, ?_, ?_, ?_, ?_⟩ <;> decide +kernel

/-- The hypotheses of `Obligations.RillFifosDeliverPackets` can be met (part 1). -/
theorem test_meets_RillFifosDeliverPackets :
  ((let s := onReset (fun h => (h.onRill 63 (fun y => { y with pkts := [[1]] })).setFld (Reg.FBUS_RILL_CFG 63) Fld.FBUS_RILL_CFG_QUEUE 8208)
    s.hw.flag (Reg.FBUS_RILL_CFG 63) Fld.FBUS_RILL_CFG_DIRECT = false ∧ s.hw.rillRing 63 = some 0 ∧ (s.hw.rill 63).pkts = [[1]] ∧ (s.hw.rill 63).moving = false)) ∧
  ((let s := onReset (fun h => tLink { (h.onRill 63 (fun y => { y with pkts := [[1]], moving := true })).setFld (Reg.FBUS_RILL_CFG 63) Fld.FBUS_RILL_CFG_QUEUE 8208
      |>.onRingAt 0 (fun x => { x with rxStop := true }) |>.wn (Reg.HDMA_RXQ_TAIL 0) 1 with own := { h.own with active := [1, 2] } })
    s.hw.flag (Reg.FBUS_RILL_CFG 63) Fld.FBUS_RILL_CFG_DIRECT = false ∧ s.hw.rillRing 63 = some 0 ∧ (s.hw.rill 63).pkts = [[1]] ∧ (s.hw.rill 63).moving = true ∧
    (s.hw.rxWrite 0 1 0 ⟨bytesOf [1], 0, 0, 0, 0⟩ [[0, 0, 256, 0]]).isSome = true)) ∧
  ((State.reset.hw.rill 63).pkts = []) ∧
  ((let s := onReset (fun h => tReady ((h.onRill 63 (fun y => { y with pkts := [List.replicate 17 9] })).setFld (Reg.FBUS_RILL_CFG 63) Fld.FBUS_RILL_CFG_DIRECT 1))
    s.hw.hostReg 0 (0x1B9000 + 64 * 63 + 0x3C) = some (0x1B9000 + 64 * 63 + 0x3C) ∧
    s.hw.flag (Reg.FBUS_RILL_CFG 63) Fld.FBUS_RILL_CFG_DIRECT = true ∧ (s.hw.rill 63).pkts = [List.replicate 17 9] ∧ 16 * (s.hw.rill 63).read + 16 < 17)) ∧
  ((let s := onReset (fun h => tReady ((h.onRill 63 (fun y => { y with pkts := [List.replicate 16 9] })).setFld (Reg.FBUS_RILL_CFG 63) Fld.FBUS_RILL_CFG_DIRECT 1))
    s.hw.hostReg 0 (0x1B9000 + 64 * 63 + 0x3C) = some (0x1B9000 + 64 * 63 + 0x3C) ∧
    s.hw.flag (Reg.FBUS_RILL_CFG 63) Fld.FBUS_RILL_CFG_DIRECT = true ∧ (s.hw.rill 63).pkts = [List.replicate 16 9] ∧ 16 ≤ 16 * (s.hw.rill 63).read + 16)) ∧
  ((onReset tReady).hw.hostReg 0 (0x1B9000 + 64 * 63 + 0x3C) = some (0x1B9000 + 64 * 63 + 0x3C) ∧ ((onReset tReady).hw.rill 63).pkts = []) := by
  refine ⟨?_, ?_, ?_, ?_, ?_, ?_⟩ <;> decide +kernel

/-- The hypotheses of `Obligations.RillFifosDeliverPackets` can be met (part 2). -/
theorem test_meets_RillFifosDeliverPackets_2 :
  (State.reset.hw.hostReg 0 0 = some 0) ∧
  ((State.reset.hw.rill 63).moving = false) ∧
  ((let s := onReset (fun h => (h.onRill 63 (fun y => { y with pkts := [[1]], moving := true })).setFld (Reg.FBUS_RILL_CFG 63) Fld.FBUS_RILL_CFG_QUEUE 8208)
    s.hw.rillRing 63 = some 0 ∧ (s.hw.rill 63).moving = true)) ∧
  ((let s := onReset (fun h => h.onRill 63 (fun y => { y with pkts := [[1]], moving := true }))
    s.hw.rillRing 63 = none ∧ (s.hw.rill 63).moving = true)) := by
  refine ⟨?_, ?_, ?_, ?_⟩ <;> decide +kernel

/-- The hypotheses of `Obligations.TimeCommandsWaitAndCommit` can be met (part 1). -/
theorem test_meets_TimeCommandsWaitAndCommit :
  ((let s := onReset tReady
    s.hw.hostReg 0 (Reg.TIME_TB_CMD 7) = some (Reg.TIME_TB_CMD 7) ∧ s.hw.flag (Reg.TIME_TB_CMD_STATUS 7) Fld.TIME_TB_CMD_STATUS_BUSY = false)) ∧
  ((onReset (fun h => h.setFld (Reg.TIME_TB_CMD_STATUS 7) Fld.TIME_TB_CMD_STATUS_BUSY 1)).hw.flag (Reg.TIME_TB_CMD_STATUS 7) Fld.TIME_TB_CMD_STATUS_BUSY = true) ∧
  (State.reset.hw.hostReg 0 (Reg.TIME_TB_CMD 7) ≠ some (Reg.TIME_TB_CMD 7)) ∧
  ((let s := onReset (fun h => (tReady h).onTime (fun t => { t with hostOp := [(7, ⟨4, false, 0, 0, 0, true, none⟩)] }))
    s.hw.pg 49 = true ∧ kvGet s.hw.tim.fwOp 7 = none ∧ (kvGet s.hw.tim.hostOp 7).isSome = true)) ∧
  ((let s := onReset (fun h => (tReady h).onTime (fun t => { t with fwOp := [(7, ⟨4, false, 0, 0, 0, true, none⟩)] }))
    s.hw.pg 49 = true ∧ (kvGet s.hw.tim.fwOp 7).map (·.slot) = some none)) ∧
  (kvGet State.reset.hw.tim.fwOp 7 = none ∧ kvGet State.reset.hw.tim.hostOp 7 = none) := by
  refine ⟨?_, ?_, ?_, ?_, ?_, ?_⟩ <;> decide +kernel

/-- The hypotheses of `Obligations.TimeCommandsWaitAndCommit` can be met (part 2). -/
theorem test_meets_TimeCommandsWaitAndCommit_2 :
  ((let s := onReset (fun h => ((tReady h).setFld (Reg.TIME_TB_STATE 7) Fld.TIME_TB_STATE_STATE 2).onTime (fun t => { t with hostOp := [(7, ⟨2, false, 0, 0, 0, true, none⟩)] }))
    s.hw.pg 49 = true ∧ kvGet s.hw.tim.fwOp 7 = none ∧ (kvGet s.hw.tim.hostOp 7).map (fun o => (o.access, o.op)) = some (true, 2) ∧ 2 ≤ s.hw.tbState 7)) ∧
  ((let s := onReset (fun h => ((tReady h).setFld (Reg.TIME_TB_STATE 7) Fld.TIME_TB_STATE_STATE 1).onTime (fun t => { t with hostOp := [(7, ⟨4, false, 0, 0, 0, true, none⟩)] }))
    s.hw.pg 49 = true ∧ kvGet s.hw.tim.fwOp 7 = none ∧ (kvGet s.hw.tim.hostOp 7).map (fun o => (o.access, o.op)) = some (true, 4) ∧ s.hw.tbState 7 = 1)) := by
  refine ⟨?_, ?_⟩ <;> decide +kernel

/-- The hypotheses of `Obligations.TimeReadsPulsesAndCaptures` can be met (part 1). -/
theorem test_meets_TimeReadsPulsesAndCaptures :
  ((onReset tReady).hw.hostReg 0 (Reg.TIME_TB_NS 7) = some (Reg.TIME_TB_NS 7)) ∧
  (State.reset.hw.hostReg 0 0 = some 0) ∧
  ((let s := onReset (fun h => (tReady h).onTime (fun t => { t with txts := [(23, [⟨false, 0, 1, 5, 6, 0⟩])] }))
    s.hw.hostReg 0 (0x200C00 + 16 * 23 + 12) = some (0x200C00 + 16 * 23 + 12) ∧ s.hw.txtsSees 0 23 = true ∧ (kvGetD s.hw.tim.txts 23 []).length = 1)) ∧
  ((let s := onReset tReady
    s.hw.hostReg 0 (0x200C00 + 16 * 23 + 12) = some (0x200C00 + 16 * 23 + 12) ∧ (s.hw.txtsHead 0 23).isNone = true)) ∧
  (State.reset.hw.hostReg 0 0 = some 0) ∧
  ((onReset tReady).hw.hostReg 0 (Reg.TIME_CAP_NS 7) = some (Reg.TIME_CAP_NS 7)) := by
  refine ⟨?_, ?_, ?_, ?_, ?_, ?_⟩ <;> decide +kernel

/-- The hypotheses of `Obligations.TimeReadsPulsesAndCaptures` can be met (part 2). -/
theorem test_meets_TimeReadsPulsesAndCaptures_2 :
  (State.reset.hw.hostReg 0 0 = some 0) ∧
  ((let s := onReset (fun h => h.setFld (Reg.TIME_PULSE_CFG 7) Fld.TIME_PULSE_CFG_EN 1)
    s.hw.flag (Reg.TIME_PULSE_CFG 7) Fld.TIME_PULSE_CFG_EN = true ∧ s.hw.pulse 7 = ⟨false, false, none, 0, 0⟩ ∧ 0 ≤ s.hw.tbNs (s.hw.pulseTb 7))) ∧
  ((let s := onReset (fun h => h.setFld (Reg.TIME_PULSE_CFG 7) Fld.TIME_PULSE_CFG_EN 1)
    s.hw.flag (Reg.TIME_PULSE_CFG 7) Fld.TIME_PULSE_CFG_EN = true ∧ (s.hw.pulse 7).asserted = false ∧ (s.hw.pulse 7).due ≤ s.hw.tbNs (s.hw.pulseTb 7))) ∧
  ((let s := onReset (fun h => (h.setFld (Reg.TIME_PULSE_CFG 7) Fld.TIME_PULSE_CFG_EN 1).setPulse 7 ⟨true, true, none, 0, 0⟩)
    s.hw.flag (Reg.TIME_PULSE_CFG 7) Fld.TIME_PULSE_CFG_EN = true ∧ s.hw.pulse 7 = ⟨true, true, none, 0, 0⟩)) ∧
  ((let s := onReset (fun h => (h.setFld (Reg.TIME_PULSE_CFG 7) Fld.TIME_PULSE_CFG_EN 1).setPulse 7 ⟨true, true, some [1, 2, 3, 4, 5], 0, 0⟩)
    s.hw.flag (Reg.TIME_PULSE_CFG 7) Fld.TIME_PULSE_CFG_EN = true ∧ s.hw.pulse 7 = ⟨true, true, some [1, 2, 3, 4, 5], 0, 0⟩)) ∧
  (State.reset.hw.flag (Reg.TIME_PULSE_CFG 7) Fld.TIME_PULSE_CFG_EN = false) := by
  refine ⟨?_, ?_, ?_, ?_, ?_, ?_⟩ <;> decide +kernel

/-- The hypotheses of `Obligations.TimeReadsPulsesAndCaptures` can be met (part 3). -/
theorem test_meets_TimeReadsPulsesAndCaptures_3 :
  ((let s := onReset (fun h => (h.setFld (Reg.TIME_CAP_CFG 7) Fld.TIME_CAP_CFG_EN 1).setFld (Reg.TIME_CAP_CFG 7) Fld.TIME_CAP_CFG_EDGE 3)
    s.hw.flag (Reg.TIME_CAP_CFG 7) Fld.TIME_CAP_CFG_EN = true ∧ (s.hw.fld (Reg.TIME_CAP_CFG 7) Fld.TIME_CAP_CFG_EDGE).testBit 0 = true ∧
    (s.hw.fld (Reg.TIME_CAP_CFG 7) Fld.TIME_CAP_CFG_EDGE).testBit 1 = true ∧ kvGet s.hw.tim.capLast 7 = none)) ∧
  ((let s := onReset (fun h => (((h.setFld (Reg.TIME_CAP_CFG 7) Fld.TIME_CAP_CFG_EN 1).setFld (Reg.TIME_CAP_CFG 7) Fld.TIME_CAP_CFG_EDGE 3).onTime (fun t => { t with capLast := [(7, 0)] })))
    s.hw.flag (Reg.TIME_CAP_CFG 7) Fld.TIME_CAP_CFG_EN = true ∧ (s.hw.fld (Reg.TIME_CAP_CFG 7) Fld.TIME_CAP_CFG_EDGE).testBit 1 = true ∧ kvGet s.hw.tim.capLast 7 = some 0 ∧ s.hw.clk < 0 + 8)) ∧
  (State.reset.hw.fld (Reg.TIME_CAP_CFG 7) Fld.TIME_CAP_CFG_EN = 0) ∧
  ((let s := onReset (fun h => ((h.setFld (Reg.TIME_CAP_CFG 7) Fld.TIME_CAP_CFG_EN 1).setFld (Reg.TIME_CAP_CFG 7) Fld.TIME_CAP_CFG_EDGE 3).onTime (fun t => { t with cap := [(7, List.replicate 16 (0, 0))] }))
    s.hw.flag (Reg.TIME_CAP_CFG 7) Fld.TIME_CAP_CFG_EN = true ∧ (s.hw.fld (Reg.TIME_CAP_CFG 7) Fld.TIME_CAP_CFG_EDGE).testBit 1 = true ∧ kvGet s.hw.tim.capLast 7 = none ∧ 16 ≤ (s.hw.capFifo 7).length)) ∧
  ((onReset (fun h => { h with tasks := [⟨31, [1], 8, 0⟩] })).hw.taskRun? (24 + 7) = some ⟨31, [1], 8, 0⟩) ∧
  ((onReset (fun h => { h with tasks := [⟨39, [1], 8, 0⟩] })).hw.taskRun? (32 + 7) = some ⟨39, [1], 8, 0⟩) := by
  refine ⟨?_, ?_, ?_, ?_, ?_, ?_⟩ <;> decide +kernel

/-- The hypotheses of `Obligations.TimeReadsPulsesAndCaptures` can be met (part 4). -/
theorem test_meets_TimeReadsPulsesAndCaptures_4 :
  ((let s := onReset (fun h => { h.setFld (Reg.EVF_TASK_CFG 103) Fld.EVF_TASK_CFG_OWNER 1 with tasks := [⟨103, [1], 8, 0⟩] })
    s.hw.taskRun? (40 + 63) = some ⟨103, [1], 8, 0⟩ ∧ s.hw.fld (Reg.EVF_TASK_CFG (40 + 63)) Fld.EVF_TASK_CFG_OWNER = 1)) ∧
  ((onReset (fun h => { h with tasks := [⟨103, [1], 8, 0⟩] })).hw.taskRun? (40 + 63) = some ⟨103, [1], 8, 0⟩) ∧
  (State.reset.hw.tasks = []) := by
  refine ⟨?_, ?_, ?_⟩ <;> decide +kernel

/-- The hypotheses of `Obligations.SupervisorHoldsOverAndSlews` can be met (part 1). -/
theorem test_meets_SupervisorHoldsOverAndSlews :
  ((let s := onReset (fun h => (tFw h).setFld (Reg.TIME_TB_STATE 7) Fld.TIME_TB_STATE_STATE 2)
    s.hw.tbState 7 = 2 ∧ s.hw.fwRuns = true ∧ s.hw.sampleDue 7 = true ∧ suspectCause ((adjInt (s.hw.adj 7) :: s.hw.samples 7).take 65) = 0)) ∧
  ((let s := onReset (fun h => (((tFw h).setFld (Reg.TIME_TB_STATE 7) Fld.TIME_TB_STATE_STATE 2).wn (Reg.TIME_TB_ADJ_LO 7) 0xFFFFFFFF).wn (Reg.TIME_TB_ADJ_HI 7) 20 |>.onTime (fun t => { t with corr := [(7, List.replicate 64 0)] }))
    s.hw.tbState 7 = 2 ∧ s.hw.fwRuns = true ∧ s.hw.sampleDue 7 = true ∧ suspectCause ((adjInt (s.hw.adj 7) :: s.hw.samples 7).take 65) = 0 + 1)) ∧
  (State.reset.hw.tbState 7 ≠ 2) ∧
  ((onReset (fun h => (tFw h).setFld (Reg.TIME_TB_STATE 7) Fld.TIME_TB_STATE_STATE 2)).hw.tbState 7 = 2 ∧ (onReset tFw).hw.fwRuns = true) ∧
  ((onReset (fun h => (tFw h).setFld (Reg.TIME_TB_STATE 7) Fld.TIME_TB_STATE_STATE 4)).hw.tbState 7 = 4 ∧ (onReset tFw).hw.fwRuns = true) ∧
  (State.reset.hw.tbState 7 = 0) := by
  refine ⟨?_, ?_, ?_, ?_, ?_, ?_⟩ <;> decide +kernel

/-- The hypotheses of `Obligations.SupervisorHoldsOverAndSlews` can be met (part 2). -/
theorem test_meets_SupervisorHoldsOverAndSlews_2 :
  ((let s := onReset (fun h => (tFw h).setFld (Reg.TIME_TB_STATE 7) Fld.TIME_TB_STATE_STATE 3)
    s.hw.tbState 7 = 3 ∧ s.hw.fwRuns = true ∧ s.hw.tim.blocked.contains 7 = false ∧ (100 : Int).natAbs ≤ s.hw.rn (Reg.TIME_TB_SLEW_LIMIT 7))) ∧
  ((let s := onReset (fun h => (tFw h).setFld (Reg.TIME_TB_STATE 7) Fld.TIME_TB_STATE_STATE 3)
    s.hw.tbState 7 = 3 ∧ s.hw.fwRuns = true ∧ s.hw.tim.blocked.contains 7 = false ∧ s.hw.rn (Reg.TIME_TB_SLEW_LIMIT 7) < (1000001 : Int).natAbs)) ∧
  ((onReset (fun h => (tFw h).setFld (Reg.TIME_TB_STATE 7) Fld.TIME_TB_STATE_STATE 4)).hw.tbState 7 = 4 ∧ (onReset tFw).hw.fwRuns = true) ∧
  (State.reset.hw.tbState 7 = 0) ∧
  ((let s := onReset (fun h => { ((tFw h).setFld (Reg.TIME_TB_STATE 7) Fld.TIME_TB_STATE_STATE 4).onTime (fun t => { t with nearAt := [(7, 0)] }) with clk := 8000000000 })
    s.hw.tbState 7 = 4 ∧ s.hw.fwRuns = true ∧ kvGet s.hw.tim.nearAt 7 = some 0 ∧ 0 + 8000000000 ≤ s.hw.clk)) ∧
  (State.reset.hw.tbState 7 ≠ 4) := by
  refine ⟨?_, ?_, ?_, ?_, ?_, ?_⟩ <;> decide +kernel

/-- The hypotheses of `Obligations.HostFunctionsComeAndGo` can be met (part 1). -/
theorem test_meets_HostFunctionsComeAndGo :
  ((let s := onReset (fun h => tLink (tReady h))
    s.hw.pg 46 = true ∧ s.hw.hdma.linkUp = true ∧ kvGet s.hw.own.tear 2 = none)) ∧
  (State.reset.hw.pg 46 = false) ∧
  ((onReset tLink).hw.hdma.linkUp = true) ∧
  (State.reset.hw.hdma.linkUp = false) ∧
  ((let s := onReset (fun h => tLink { tFw h with own := { h.own with active := [2] } })
    let x := (s.hw.keepVfs 0).onHdma (fun d => { d with fn := [] })
    s.hw.hdma.linkUp = true ∧ x.fwLife = true ∧ x.own.active.contains 2 = true ∧ kvGet x.own.tear 2 = none ∧ (x.inFlight 2).isEmpty = true)) ∧
  ((onReset tLink).hw.hdma.linkUp = true) := by
  refine ⟨?_, ?_, ?_, ?_, ?_, ?_⟩ <;> decide +kernel

/-- The hypotheses of `Obligations.HostFunctionsComeAndGo` can be met (part 2). -/
theorem test_meets_HostFunctionsComeAndGo_2 :
  ((let s := onReset (fun h => tLink { tFw h with own := { h.own with active := [257] }, hdma := { h.hdma with numVfs := 255 } })
    255 ≤ s.hw.hdma.numVfs ∧ s.hw.fwLife = true ∧ s.hw.own.active.contains (255 + 2) = true ∧ kvGet s.hw.own.tear (255 + 2) = none ∧ (s.hw.inFlight (255 + 2)).isEmpty = true)) ∧
  ((let s := onReset (fun h => tLink (h.wn Reg.HDMA_MSIX_ALLOC (8 * 65536 + 8)))
    s.hw.hdma.linkUp = true ∧ 7 ≤ s.hw.totalVfs)) ∧
  (State.reset.hw.hdma.linkUp = false) ∧
  ((onReset tLink).hw.hdma.linkUp = true) ∧
  (State.reset.hw.hdma.linkUp = false) ∧
  ((let s := onReset (fun h => { (h.wn Reg.HDMA_MSIX_ALLOC (8 * 65536 + 8)) with hdma := { h.hdma with msixPba := [(2 * 2048 + 7, true)] } })
    7 < s.hw.vectorCount (fnOwner 0) ∧ kvGetD s.hw.hdma.msixPba (fnOwner 0 * 2048 + 7) false = true)) := by
  refine ⟨?_, ?_, ?_, ?_, ?_, ?_⟩ <;> decide +kernel

/-- The hypotheses of `Obligations.HostRingsAreCommandedAndStop` can be met (part 1). -/
theorem test_meets_HostRingsAreCommandedAndStop :
  ((let s := onReset (fun h => tLink (tReady (h.wn (Reg.HDMA_Q_CTRL 7) (2 ^ 28 + 2 ^ 24))))
    s.hw.hostReg 0 (0x60000 + 0x40 * 7 + 0x0C) = some (0x60000 + 0x40 * 7 + 0x0C) ∧ ringWork (s.hw.txHead 7) (2 % 65536) ≤ 2 ^ s.hw.fld (Reg.HDMA_Q_CTRL 7) Fld.HDMA_Q_CTRL_TX_LOG2 ∧
    ringWork (s.hw.txHead 7) (s.hw.txTail 7) ≤ ringWork (s.hw.txHead 7) (2 % 65536))) ∧
  ((let s := onReset (fun h => tLink (tReady (h.wn (Reg.HDMA_Q_CTRL 7) (2 ^ 28 + 2 ^ 24))))
    let h := s.hw.holdExpire 7
    s.hw.hostReg 0 (0x60000 + 0x40 * 7 + 0x1C) = some (0x60000 + 0x40 * 7 + 0x1C) ∧ ringWork (h.rxHead 7) (1 % 65536) ≤ 2 ^ h.fld (Reg.HDMA_Q_CTRL 7) Fld.HDMA_Q_CTRL_RX_LOG2 ∧
    ringWork (h.rxHead 7) (h.rxTail16 7) ≤ ringWork (h.rxHead 7) (1 % 65536))) ∧
  ((let s := onReset (fun h => tLink (tReady h))
    s.hw.hostReg 0 (0x60000 + 0x40 * 7) = some (0x60000 + 0x40 * 7) ∧ 4 ≤ getF 0xD1000000 Fld.HDMA_Q_CTRL_TX_LOG2 ∧ 4 ≤ getF 0xD1000000 Fld.HDMA_Q_CTRL_RX_LOG2)) ∧
  ((let s := onReset (fun h => tLink (tReady h))
    s.hw.hostReg 0 (0x60000 + 0x40 * 7) = some (0x60000 + 0x40 * 7) ∧ getF 0xC0000000 Fld.HDMA_Q_CTRL_TX_LOG2 < 4)) ∧
  (State.reset.hw.hostReg 0 0x70004 = none) ∧
  ((let s := onReset (fun h => tLink (h.onRingAt 7 (fun y => { y with txStop := true })))
    (s.hw.ringAt 7).txStop = true ∧ (s.hw.ringAt 7).reading.isNone = true ∧ s.hw.mayMaster 7 = true ∧
    ((((s.hw.txFlush 7).onRingAt 7 (fun y => { y with txStop := false })).post (ringOwner 7) 0x0104 (ringQueue 7)).ringAt 7).rxStop = false)) := by
  refine ⟨?_, ?_, ?_, ?_, ?_, ?_⟩ <;> decide +kernel

/-- The hypotheses of `Obligations.HostRingsAreCommandedAndStop` can be met (part 2). -/
theorem test_meets_HostRingsAreCommandedAndStop_2 :
  ((let s := onReset (fun h => tLink (h.onRingAt 7 (fun y => { y with rxStop := true })))
    (s.hw.ringAt 7).txStop = false ∧ (s.hw.ringAt 7).rxStop = true)) := by decide +kernel

/-- The hypotheses of `Obligations.HostRingsMoveFrames` can be met (part 1). -/
theorem test_meets_HostRingsMoveFrames :
  ((let s := onReset (fun h => tLink ((h.wn (Reg.HDMA_Q_CTRL 7) (2 ^ 31 + 2 ^ 28)).wn (Reg.HDMA_TXQ_TAIL 7) 1 |>.onRingAt 7 id))
    s.hw.outstanding 7 0 = [])) ∧
  ((let s := onReset (fun h => { h with hdma := { h.hdma with linkUp := true, fn := [(2, ⟨true, false, 512⟩)], flight := [⟨7, 0, 0x1000, 64⟩] }, own := { h.own with active := [2] } }
      |>.setFld (Reg.HDMA_Q_CTRL 7) Fld.HDMA_Q_CTRL_TX_EN 1)
    ((s.hw.outstanding 7 0).map (·.bytes)).sum / 64 = [[0, 0, 0, 0]].length ∧ s.hw.txServes 7 = true ∧ s.hw.allIssued 7 0 = true)) ∧
  ((let s := onReset (fun h => { h with hdma := { h.hdma with flight := [⟨7, 0, 0x1000, 64⟩] } })
    ((s.hw.outstanding 7 0).map (·.bytes)).sum / 64 ≠ 0 ∧ s.hw.txServes 7 = false)) ∧
  ((let fr : TxFrame := ⟨1, 3, [0, 0, 0, 0], false⟩
    let s := onReset (fun h => tLink (h.onRingAt 7 (fun x => { x with reading := some fr })))
    (s.hw.ringAt 7).reading = some fr ∧ s.hw.allIssued 7 1 = true ∧ s.hw.mayMaster 7 = true)) ∧
  ((State.reset.hw.ringAt 7).reading = none) ∧
  ((let s := onReset (fun h => { h with hdma := { h.hdma with linkUp := true, fn := [(2, ⟨true, false, 512⟩)], waiting := [⟨7, 0, 0x1000, 64⟩] } })
    s.hw.nextRead = some ⟨7, 0, 0x1000, 64⟩)) := by
  refine ⟨?_, ?_, ?_, ?_, ?_, ?_⟩ <;> decide +kernel

/-- The hypotheses of `Obligations.HostRingsMoveFrames` can be met (part 2). -/
theorem test_meets_HostRingsMoveFrames_2 :
  (State.reset.hw.hdma.waiting = []) ∧
  ((let f := { tFrame with tail := true, looked := true, copies := [⟨24, .granted⟩] }
    (onReset (tFrames [f])).hw.copyAt 24 (fun _ => true) = some f)) ∧
  ((State.reset.hw.rxEn 7) = false) ∧
  (State.reset.hw.copyAt 24 (fun _ => true) = none) ∧
  (7 % 8 ≠ 0) ∧
  ((let s := onReset (fun h => { h with vie := { h.vie with s := [(3, { VieS.init with recs := [(0, [1, 2])] })] }, own := { h.own with conf := [(resWord 3 3, 2)] } })
    let w := s.hw.drainPend 0 ((s.hw.ringAt 0).pend.length + (s.hw.ringAt 0).head.length) [[0, 0, 256, 0]]
    ((w.1.showRing 0).ringAt 0).pend.isEmpty = true ∧ ((w.1.showRing 0).sideItem (ringOwner 0)).map (fun x => (x.1, x.2.1)) = some (4, [1, 2]))) := by
  refine ⟨?_, ?_, ?_, ?_, ?_, ?_⟩ <;> decide +kernel

/-- The hypotheses of `Obligations.HostRingsMoveFrames` can be met (part 3). -/
theorem test_meets_HostRingsMoveFrames_3 :
  ((onReset (fun h => { h.onRingAt 7 (fun x => { x with timer := some 0 }) with clk := 100000000 })).hw.holdDue 7 = true) ∧
  (State.reset.hw.holdDue 7 = false) ∧
  ((let s := onReset (fun h => { h.onRingAt 7 (fun x => { x with txAnn := 1, rxAnn := 2 }) with clk := 100000000 })
    (s.hw.ringAt 7).txAnn ≠ 0 ∧ s.hw.coalDue 7 true = true ∧ (s.hw.ringAt 7).rxAnn ≠ 0 ∧ s.hw.coalDue 7 false = true)) ∧
  (State.reset.hw.ringAt 7 = Ring.init) := by
  refine ⟨?_, ?_, ?_, ?_⟩ <;> decide +kernel

/-- The hypotheses of `Obligations.EventQueuesWriteEnableAndConsume` can be met (part 1). -/
theorem test_meets_EventQueuesWriteEnableAndConsume :
  (State.reset.hw.evq.staging = []) ∧
  ((let s := onReset (fun h => { ((h.setFld (Reg.EVQ_CTRL 511) Fld.EVQ_CTRL_EN 1).setFld (Reg.EVQ_CTRL 511) Fld.EVQ_CTRL_LOG2 6) with
      evq := { h.evq with staging := [⟨511, 0x0201, 0, 0, 0, 0, 0, 0, 0⟩] } })
    s.hw.evq.staging.length = 1 ∧ s.hw.evqEn 511 = true ∧ s.hw.takes 511 = true ∧ s.hw.flag (Reg.EVQ_STATUS 511) Fld.EVQ_STATUS_OVF_PENDING = false ∧ 0 < s.hw.evqFree 511)) ∧
  ((511 < 512 ∧ 0x0F02 < 16384 ∧ 0x0F02 ≠ 0x0901)) ∧
  ((let s := onReset (fun h => { h with evq := { h.evq with staging := [⟨511, 0x0201, 0, 0, 0, 0, 0, 0, 0⟩] } })
    s.hw.evq.staging.length = 1 ∧ s.hw.evqEn 511 = false)) ∧
  ((let s := onReset (fun h => { (((h.setFld (Reg.EVQ_CTRL 511) Fld.EVQ_CTRL_EN 1).setFld (Reg.EVQ_CTRL 511) Fld.EVQ_CTRL_LOG2 6).wn (Reg.EVQ_PROD 511) 64) with
      evq := { h.evq with staging := [⟨511, 0x0201, 0, 0, 0, 0, 0, 0, 0⟩] } })
    s.hw.evq.staging.length = 1 ∧ s.hw.evqEn 511 = true ∧ s.hw.takes 511 = true ∧ s.hw.evqFree 511 = 0)) ∧
  ((let s := onReset (fun h => tReady { h with own := { h.own with active := [257] } })
    let v := 2 ^ 31 + 16 * 2 ^ 22
    s.hw.hostReg 255 0x1000 = some (0x20000 + 0x100 * 257) ∧ getF v Fld.EVQ_CTRL_EN = 1 ∧ getF v Fld.EVQ_CTRL_LOG2 = 16 ∧
    s.hw.evqEn 257 = false ∧ (s.hw.wn (Reg.EVQ_CTRL 257) (v / 1024 * 1024)).evqEn 257 = true)) := by
  refine ⟨?_, ?_, ?_, ?_, ?_, ?_⟩ <;> decide +kernel

/-- The hypotheses of `Obligations.EventQueuesWriteEnableAndConsume` can be met (part 2). -/
theorem test_meets_EventQueuesWriteEnableAndConsume_2 :
  (511 ≠ 2) ∧
  (State.reset.hw.hostReg 0 0x70004 = none) ∧
  ((onReset tReady).hw.hostReg 0 (0x20000 + 0x100 * 2 + 0x14) = some (0x20000 + 0x100 * 2 + 0x14)) ∧
  (State.reset.hw.hostReg 0 0x70004 = none) ∧
  ((let s := onReset (fun h => { ((h.setFld (Reg.EVQ_CTRL 257) Fld.EVQ_CTRL_VEC_EN 1).setFld (Reg.EVQ_STATUS 257) Fld.EVQ_STATUS_ARMED 1) with clk := 5000000000, evq := { h.evq with sinceRec := [(257, 0)] } })
    kvGet s.hw.evq.sinceRec 257 = some 0 ∧ 0 + s.hw.fld (Reg.EVQ_MOD 257) Fld.EVQ_MOD_MOD_US * 500 ≤ s.hw.clk ∧ evqInternal 257 = false ∧
    s.hw.flag (Reg.EVQ_CTRL 257) Fld.EVQ_CTRL_VEC_EN = true ∧ s.hw.flag (Reg.EVQ_STATUS 257) Fld.EVQ_STATUS_ARMED = true)) ∧
  (State.reset.hw.modDue 257 = false) := by
  refine ⟨?_, ?_, ?_, ?_, ?_, ?_⟩ <;> decide +kernel

/-- The hypotheses of `Obligations.EventQueuesWriteEnableAndConsume` can be met (part 3). -/
theorem test_meets_EventQueuesWriteEnableAndConsume_3 :
  ((let s := onReset (fun h => { (h.wn (Reg.EVQ_PROD 2) 1) with clk := 5000000000, evq := { h.evq with lateTimer := [2], lateAt := [(2, 0)] } })
    s.hw.evq.lateTimer.contains 2 = true ∧ s.hw.evq.lateDone.contains 2 = false ∧ s.hw.evqUsed 2 ≠ 0 ∧
    kvGetD s.hw.evq.lateAt 2 s.hw.clk + s.hw.fld (Reg.EVF_SVC_BOUND 2) Fld.EVF_SVC_BOUND_BOUND_MS * 500000 ≤ s.hw.clk)) ∧
  (State.reset.hw.evqUsed 2 = 0) := by
  refine ⟨?_, ?_⟩ <;> decide +kernel

/-- The hypotheses of `Obligations.MailboxesRingRunAbortAndRestart` can be met (part 1). -/
theorem test_meets_MailboxesRingRunAbortAndRestart :
  ((let s := onReset (fun h => tReady { h with own := { h.own with active := [511] } })
    s.hw.hostReg 1511 (0x6000 + 4 * 31) = some (0x10000000 + 0x100 * 511 + 4 * 31) ∧ (kvGet s.hw.mbx.slots (511 * 32 + 31)).isNone = true)) ∧
  (State.reset.hw.hostReg 0 0x70004 = none) ∧
  ((let s := onReset (fun h => { tReady h with own := { h.own with active := [511] }, mbx := { h.mbx with slots := [(511 * 32 + 31, ⟨2, [0x0101], 0, [], false, [], false⟩)] } })
    s.hw.hostReg 1511 0x6080 = some (0x10000000 + 0x100 * 511 + 0x80) ∧ (kvGet s.hw.mbx.slots (511 * 32 + 0xFFFFFFFF % 32)).map (·.committed) = some false)) ∧
  (((onReset tReady).hw.hostReg 0 0x16080 = some (0x10000000 + 0x100 * 2 + 0x80) ∧ (kvGet (onReset tReady).hw.mbx.slots (2 * 32 + 31)).isNone = true)) ∧
  (State.reset.hw.hostReg 0 0x70004 = none) ∧
  ((onReset tReady).hw.hostAt 0 (0x10FFF / 4 * 4) = .slotRam 0xFFC) := by
  refine ⟨?_, ?_, ?_, ?_, ?_, ?_⟩ <;> decide +kernel

/-- The hypotheses of `Obligations.MailboxesRingRunAbortAndRestart` can be met (part 2). -/
theorem test_meets_MailboxesRingRunAbortAndRestart_2 :
  (15 ≠ 7) ∧
  ((let q : Slot := ⟨1, [0x0101, 0x00080007, 0, 0, 2, 1], 0, [], false, [], false⟩
    let s := onReset (fun h => { ((tReady h).setFld Reg.MBX_STATUS Fld.MBX_STATUS_READY 1) with mbx := { h.mbx with slots := [(95, q)] } })
    s.hw.flag Reg.MBX_STATUS Fld.MBX_STATUS_READY = true ∧ s.hw.flag Reg.MBX_STATUS Fld.MBX_STATUS_SAFE_SET = false ∧ (s.hw.nextCommand).map (·.1) = some 95)) ∧
  (State.reset.hw.nextCommand.isNone = true) ∧
  ((onReset (fun h => h.setFld Reg.MBX_STATUS Fld.MBX_STATUS_READY 1)).hw.flag Reg.MBX_STATUS Fld.MBX_STATUS_READY = true) ∧
  (State.reset.hw.flag Reg.MBX_STATUS Fld.MBX_STATUS_READY = false) ∧
  ((let s := onReset (fun h => { tFw h with own := { h.own with tear := [(257, ⟨0, 0, false, false⟩)] } })
    s.hw.own.tear = [(257, ⟨0, 0, false, false⟩)] ∧ s.hw.fwLife = true)) := by
  refine ⟨?_, ?_, ?_, ?_, ?_, ?_⟩ <;> decide +kernel

/-- The hypotheses of `Obligations.MailboxesRingRunAbortAndRestart` can be met (part 3). -/
theorem test_meets_MailboxesRingRunAbortAndRestart_3 :
  (State.reset.hw.fwLife = false) ∧
  ((let s := onReset (fun h => { tFw h with own := { h.own with tear := [(2, ⟨0, 0, true, true⟩)], active := [2] } })
    s.hw.own.tear = [(2, ⟨0, 0, true, true⟩)] ∧ s.hw.clearsDone 2 = true ∧ s.hw.fwLife = true)) ∧
  (State.reset.hw.fwLife = false) ∧
  ((onReset (fun h => { h with own := { h.own with retiring := [(257, 1)] } })).hw.own.retiring = [(257, 1)]) ∧
  ((kvGet State.reset.hw.own.retiring 257).isNone = true) := by
  refine ⟨?_, ?_, ?_, ?_, ?_⟩ <;> decide +kernel

/-- The hypotheses of `Obligations.StartUpRunsImagesAndTamperErases` can be met (part 1). -/
theorem test_meets_StartUpRunsImagesAndTamperErases :
  ((let s : State := { onReset (fun h => (tReady h).onPwr (fun p => { p with boot := true })) with fuse := { Fuse.reset with life := 0 } }
    s.hw.pwr.boot = true ∧ s.hw.pg 4 = true ∧ s.fuse.boots = false)) ∧
  ((let s := onReset (fun h => ((tReady h).onPwr (fun p => { p with boot := true })).setFld Reg.MEM_STATUS Fld.MEM_STATUS_READY 1)
    s.hw.pwr.boot = true ∧ s.hw.pg 4 = true ∧ s.fuse.boots = true ∧ s.hw.pg 5 = true ∧ s.hw.pg 6 = true ∧ s.hw.flag Reg.MEM_STATUS Fld.MEM_STATUS_READY = true ∧
    s.hw.flag Reg.SEC_STATUS Fld.SEC_STATUS_TRNG_FAIL = false ∧ s.hw.sec.trngDown = false)) ∧
  (State.reset.hw.pg 4 = false) ∧
  ((pairCause 0 none none ≠ 0 ∧ pairCause 0 none none = 1)) ∧
  ((let c : ImageCopy := { magic := 0, type := 1, length := 0, block := [], bytes := [], vendorKey := [], vendorSig := [], oemKey := [], oemSig := [], svn := 0, raise := false, epoch := 7, version := 9, steppings := [], peers := [] }
    let s := onReset (fun h => { tReady h with sys := { h.sys with imgS := some c } })
    s.hw.sys.imgS.isSome = true ∧ s.hw.pg 4 = true ∧ s.hw.sec.latch = false ∧ s.hw.flag Reg.SEC_STATUS Fld.SEC_STATUS_READY = false)) ∧
  (State.reset.hw.pg 4 = false) := by
  refine ⟨?_, ?_, ?_, ?_, ?_, ?_⟩ <;> decide +kernel

/-- The hypotheses of `Obligations.StartUpRunsImagesAndTamperErases` can be met (part 2). -/
theorem test_meets_StartUpRunsImagesAndTamperErases_2 :
  ((let c : ImageCopy := { magic := 0, type := 2, length := 0, block := [], bytes := [], vendorKey := [], vendorSig := [], oemKey := [], oemSig := [], svn := 64, raise := true, epoch := 7, version := 9, steppings := [], peers := [] }
    let s := onReset (fun h => { tReady h with sys := { h.sys with imgC := some c, pair := 0 } })
    s.hw.sys.imgC.isSome = true ∧ s.hw.pg 5 = true ∧ s.hw.flag Reg.MBX_STATUS Fld.MBX_STATUS_READY = false ∧ s.hw.flag Reg.MBX_STATUS Fld.MBX_STATUS_SAFE_SET = false ∧ s.hw.sec.latch = false)) ∧
  (State.reset.hw.pg 5 = false) ∧
  ((onReset tReady).hw.pg 4 = true) ∧
  (State.reset.hw.pg 4 = false) ∧
  ((let s : State := { onReset tReady with fuse := { Fuse.reset with life := 3 } }
    s.hw.tamperOn s.fuse 31 = 31 ∧ s.hw.pg 4 = true ∧ s.fuse.boots = true ∧ s.hw.sec.tamper = 0)) ∧
  (State.reset.hw.tamperOn State.reset.fuse 0 = 0) := by
  refine ⟨?_, ?_, ?_, ?_, ?_, ?_⟩ <;> decide +kernel

/-- The hypotheses of `Obligations.StartUpRunsImagesAndTamperErases` can be met (part 3). -/
theorem test_meets_StartUpRunsImagesAndTamperErases_3 :
  ((onReset (fun h => h.onSec (fun x => { x with tamper := 1 }))).hw.sec.tamper = 1) ∧
  ((onReset (fun h => h.onSec (fun x => { x with tamper := 2 }))).hw.sec.tamper = 2) ∧
  ((onReset (fun h => h.onSec (fun x => { x with tamper := 3 }))).hw.sec.tamper = 3) ∧
  ((onReset (fun h => h.onSec (fun x => { x with tamper := 4 }))).hw.sec.tamper = 4) ∧
  (State.reset.hw.sec.tamper ≠ 1) ∧
  ((let s := onReset (fun h => h.setFld Reg.PWR_DOMAIN_ON_LO ⟨31, 0⟩ 0xFFFFFFFF)
    s.hw.domOn 4 = true ∧ 3 ≤ debugMax s.fuse.life ∧ s.hw.sec.trngDown = false ∧ s.hw.flag Reg.SEC_STATUS Fld.SEC_STATUS_TRNG_FAIL = false)) := by
  refine ⟨?_, ?_, ?_, ?_, ?_, ?_⟩ <;> decide +kernel

/-- The hypotheses of `Obligations.StartUpRunsImagesAndTamperErases` can be met (part 4). -/
theorem test_meets_StartUpRunsImagesAndTamperErases_4 :
  (State.reset.hw.domOn 4 = false) ∧
  ((State.reset.hw.mbx.slots.isEmpty = true)) := by
  refine ⟨?_, ?_⟩ <;> decide +kernel

/-- The hypotheses of `Obligations.JobsTakeSlotsAndEnd` can be met (part 1). -/
theorem test_meets_JobsTakeSlotsAndEnd :
  ((let f : Frame := { tFrame with id := 3, ingress := 24, owner := 2, cells := [5], tail := true, copies := [⟨27, .granted⟩] }
    let s := onReset (fun h => { tFrames [f] h with swc := { (tFrames [f] h).swc with cells := [(5, ⟨0, List.replicate 64 0⟩)] } })
    (s.hw.copyAt 27 (fun f => !s.hw.jobBlocked f && !s.hw.jobHeld f.owner (segOf (parseHdr (s.hw.jobBytes f)).body))).map (·.id) = some 3 ∧
    s.hw.isJobFrame f (parseHdr (s.hw.jobBytes f)) = false)) ∧
  ((let b : List Byte := [0, 0, 0, 0, 0, 0, 0, 0, 0, 0, 0, 1, 0x88, 0xB6, 1, 1] ++ List.replicate 48 0
    let f : Frame := { tFrame with id := 3, ingress := 24, owner := 2, cells := [5], tail := true, copies := [⟨27, .granted⟩] }
    let s := onReset (fun h => { ((tFrames [f] h).setFld Reg.SEC_JOB_CFG Fld.SEC_JOB_CFG_EN 1) with own := { h.own with keys := [(4, 5)] }, swc := { (tFrames [f] h).swc with cells := [(5, ⟨0, cellCrypt 5 0 0 5 b⟩)] } })
    (s.hw.copyAt 27 (fun f => !s.hw.jobBlocked f && !s.hw.jobHeld f.owner (segOf (parseHdr (s.hw.jobBytes f)).body))).map (·.id) = some 3 ∧
    s.hw.isJobFrame f (parseHdr (s.hw.jobBytes f)) = true ∧ (segOf (parseHdr (s.hw.jobBytes f)).body).first = true ∧ (s.hw.jobOf 2 0).isNone = true)) ∧
  ((State.reset.hw.copyAt 27 (fun f => !State.reset.hw.jobBlocked f && !State.reset.hw.jobHeld f.owner (segOf (parseHdr (State.reset.hw.jobBytes f)).body))).isNone = true) ∧
  ((State.reset.hw.jobsOf 2 < (onReset (fun h => h.setFld Reg.SEC_JOB_CFG Fld.SEC_JOB_CFG_OWNER_MAX 16)).hw.fld Reg.SEC_JOB_CFG Fld.SEC_JOB_CFG_OWNER_MAX ∧ State.reset.hw.jobQueue = [] ∧ State.reset.hw.freeJobSlot = some 0)) ∧
  ((let f : Frame := { tFrame with id := 3, ingress := 24, owner := 2, cells := [5], tail := true, copies := [⟨27, .granted⟩] }
    let s := onReset (fun h => { ((tFrames [f] h).onSec (fun x => { x with waiting := [3] })) with swc := { (tFrames [f] h).swc with cells := [(5, ⟨0, List.replicate 64 0⟩)] } })
    let x := s.hw.onSec (fun x => { x with waiting := s.hw.jobQueue })
    x.sec.waiting = [3] ∧ x.freeJobSlot = some 0 ∧ (x.copyAt 27 (fun f => f.id == 3)).map (·.id) = some 3 ∧ x.jobHeld f.owner (segOf (parseHdr (x.jobBytes f)).body) = false)) ∧
  (State.reset.hw.sec.waiting = [] ∧ State.reset.hw.jobQueue = []) := by
  refine ⟨?_, ?_, ?_, ?_, ?_, ?_⟩ <;> decide +kernel

/-- The hypotheses of `Obligations.JobsTakeSlotsAndEnd` can be met (part 2). -/
theorem test_meets_JobsTakeSlotsAndEnd_2 :
  (State.reset.hw.sec.waiting = []) ∧
  ((let s := onReset (fun h => { h.onSec (fun x => { x with jobs := [(255, ⟨2, 0, 7, [], 0, 0, 0, 0, [], [], [], 0, 0, 0, 0, 24, 0, 0⟩)] }) with clk := 5000000000 })
    (kvGet s.hw.sec.jobs 255).map (·.owner) = some 2 ∧ 0 + s.hw.fld Reg.SEC_JOB_CFG Fld.SEC_JOB_CFG_IDLE_US * 500 ≤ s.hw.clk)) ∧
  ((kvGet State.reset.hw.sec.jobs 255).isNone = true) := by
  refine ⟨?_, ?_, ?_⟩ <;> decide +kernel

/-- The hypotheses of `Obligations.GeneralBanksReadWhatWasWritten` can be met (part 1). -/
theorem test_meets_GeneralBanksReadWhatWasWritten :
  ((let s := onReset (fun h => (tReady h).setBank 15 Fld.MEM_BANK_OWNER_OWNER 2)
    0x3FFF8 + 8 ≤ bankBytes ∧ s.hw.pg 6 = true ∧ presented 3 0 = 2 ∧ s.hw.bankFld 15 Fld.MEM_BANK_OWNER_OWNER = 2 ∧ s.hw.mem.off.contains (32 + 15) = false ∧ s.hw.bankFld 15 Fld.MEM_BANK_OWNER_RETAINED = 0 ∧
    s.hw.bankFld 15 Fld.MEM_BANK_OWNER_CLEARING = 0 ∧ s.hw.marchHolds 15 0x3FFF8 = false ∧ s.hw.bankTaken 15 = false ∧ (kvGetD s.hw.mem.wait 15 []).isEmpty = true ∧
    s.hw.mem.bad.contains ((15 * bankBytes + 0x3FFF8) / 8) = false ∧ memWf s.hw.mem.ram = true)) ∧
  ((let s := onReset (fun h => (tReady h).setBank 15 Fld.MEM_BANK_OWNER_OWNER 2)
    0x3FFF8 % 8 = 0 ∧ 0x3FFF8 + 8 ≤ bankBytes ∧ s.hw.pg 6 = true ∧ presented 3 0 = 2 ∧ s.hw.bankFld 15 Fld.MEM_BANK_OWNER_OWNER = 2 ∧ s.hw.mem.off.contains (32 + 15) = false ∧ s.hw.bankFld 15 Fld.MEM_BANK_OWNER_RETAINED = 0 ∧
    s.hw.bankFld 15 Fld.MEM_BANK_OWNER_CLEARING = 0 ∧ s.hw.marchHolds 15 0x3FFF8 = false ∧ s.hw.bankTaken 15 = false ∧ (kvGetD s.hw.mem.wait 15 []).isEmpty = true ∧
    s.hw.mem.bad.contains ((15 * bankBytes + 0x3FFF8) / 8) = false)) ∧
  ((0x3FFF8 + 8 ≤ bankBytes ∧ (onReset tReady).hw.pg 6 = true)) ∧
  (State.reset.hw.pg 6 = false) ∧
  (State.reset.hw.bankFld 15 Fld.MEM_BANK_OWNER_OWNER ≠ 2) ∧
  (((onReset (fun h => h.setBank 15 Fld.MEM_BANK_OWNER_CLEARING 1)).hw.bankFld 15 Fld.MEM_BANK_OWNER_CLEARING = 1 ∧ State.reset.hw.bankFld 15 Fld.MEM_BANK_OWNER_OWNER = 1 ∧
    State.reset.hw.mem.off.contains (32 + 15) = false ∧ State.reset.hw.bankFld 15 Fld.MEM_BANK_OWNER_RETAINED = 0)) := by
  refine ⟨?_, ?_, ?_, ?_, ?_, ?_⟩ <;> decide +kernel

/-- The hypotheses of `Obligations.GeneralBanksReadWhatWasWritten` can be met (part 2). -/
theorem test_meets_GeneralBanksReadWhatWasWritten_2 :
  (((onReset tReady).hw.hostAt 0 0x2AFFFC = .aperture 1 0x7FFC ∧ (onReset tReady).hw.hostAt 0 0x2B7FFC = .aperture 2 0x7FFC)) ∧
  (State.reset.hw.hostReg 0 0x70004 = none) := by
  refine ⟨?_, ?_⟩ <;> decide +kernel

/-- The hypotheses of `Obligations.BanksClearWakeAndAreTested` can be met (part 1). -/
theorem test_meets_BanksClearWakeAndAreTested :
  ((let s := onReset (fun h => { h.setBank 15 Fld.MEM_BANK_OWNER_CLEARING 1 with clk := 32768 })
    s.hw.bankFld 15 Fld.MEM_BANK_OWNER_CLEARING = 1 ∧ (kvGetD s.hw.mem.old 15 (1, 0)).2 + 32768 ≤ s.hw.clk)) ∧
  (State.reset.hw.bankFld 15 Fld.MEM_BANK_OWNER_CLEARING ≠ 1) ∧
  ((kvGetD State.reset.hw.mem.pend 15 []).isEmpty = true) ∧
  ((memWf [(bankBytes - 1, 7), (bankBytes, 8)] = true ∧ readByte (clearMem [(bankBytes - 1, 7), (bankBytes, 8)] (0 * bankBytes) bankBytes) bankBytes = 8)) ∧
  ((let s := onReset (fun h => { h.setBank 15 Fld.MEM_BANK_OWNER_WAKING 1 with clk := 20000 })
    s.hw.bankFld 15 Fld.MEM_BANK_OWNER_WAKING = 1 ∧ kvGetD s.hw.mem.wakeAt 15 0 + 20000 ≤ s.hw.clk)) ∧
  (State.reset.hw.bankFld 15 Fld.MEM_BANK_OWNER_WAKING ≠ 1) := by
  refine ⟨?_, ?_, ?_, ?_, ?_, ?_⟩ <;> decide +kernel

/-- The hypotheses of `Obligations.BanksClearWakeAndAreTested` can be met (part 2). -/
theorem test_meets_BanksClearWakeAndAreTested_2 :
  ((let m : March := ⟨[32, 33, 34, 35, 36], true, 511, none, 0⟩
    let s := onReset (fun h => { h.onMem (fun x => { x with march := some m }) with clk := 768 })
    s.hw.mem.march = some m ∧ m.from_ + 768 ≤ s.hw.clk)) ∧
  (State.reset.hw.mem.march.isNone = true) ∧
  ((let m : March := ⟨[32, 33, 34, 35], true, 512, none, 0⟩
    (onReset (fun h => h.onMem (fun x => { x with march := some m }))).hw.mem.march = some m)) ∧
  ((let m : March := ⟨[32, 33, 34, 35], false, 0, none, 0⟩
    let s := onReset (fun h => { h.onMem (fun x => { x with march := some m }) with clk := 327680 })
    s.hw.mem.march = some m ∧ m.from_ + (m.banks.length + 3) / 4 * 327680 ≤ s.hw.clk)) ∧
  (State.reset.hw.mem.march.isNone = true) ∧
  ((onReset tReady).hw.pg 47 = true) := by
  refine ⟨?_, ?_, ?_, ?_, ?_, ?_⟩ <;> decide +kernel

/-- The hypotheses of `Obligations.BanksClearWakeAndAreTested` can be met (part 3). -/
theorem test_meets_BanksClearWakeAndAreTested_3 :
  (State.reset.hw.pg 47 = false) := by decide +kernel

/-- The hypotheses of `Obligations.SidebandTransactionsRunToTheirResponse` can be met (part 1). -/
theorem test_meets_SidebandTransactionsRunToTheirResponse :
  ((onReset tReady).hw.pg 48 = true) ∧
  (State.reset.hw.pg 48 = false) ∧
  ((kvGet (onReset (fun h => h.onSbb (fun b => { b with tx := [(15, ⟨0, 0, 0, [], [], 1, 0, [], 0, 0, none, none, 0, none, 0⟩)] }))).hw.sbb.tx 15).isSome = true) ∧
  ((kvGet State.reset.hw.sbb.tx 15).isNone = true) ∧
  ((let t : SbbTx := ⟨0, 0, 0, [], [], 1, 0, [], 1, 0, none, none, 0, none, 0⟩
    let s := onReset (fun h => h.onSbb (fun b => { b with tx := [(15, t)] }))
    kvGet s.hw.sbb.tx 15 = some t ∧ t.phase = 1)) ∧
  (((kvGet State.reset.hw.sbb.tx 15).isNone = true ∧ State.reset.hw.sbb.lock.filter (fun l => l.2.1 == 15) = [])) := by
  refine ⟨?_, ?_, ?_, ?_, ?_, ?_⟩ <;> decide +kernel

/-- The hypotheses of `Obligations.SidebandTransactionsRunToTheirResponse` can be met (part 2). -/
theorem test_meets_SidebandTransactionsRunToTheirResponse_2 :
  ((let t : SbbTx := ⟨0, 0, 0, [], [], 1, 0, [], 4, 0, none, none, 0, none, 0⟩
    let s := onReset (fun h => h.onSbb (fun b => { b with tx := [(15, t)] }))
    kvGet s.hw.sbb.tx 15 = some t ∧ t.phase = 4 ∧ t.serves = none)) ∧
  ((let t : SbbTx := ⟨0, 0, 0, [], [], 1, 0, [], 4, 0, none, none, 0, none, 0⟩
    let s := onReset (fun h => h.onSbb (fun b => { b with tx := [(15, t)] }))
    kvGet s.hw.sbb.tx 15 = some t ∧ t.phase = 4)) ∧
  ((let t : SbbTx := ⟨0, 0, 0, [], [], 1, 0, [], 1, 0, some 0, none, 0, none, 0⟩
    let s := onReset (fun h => { h.onSbb (fun b => { b with tx := [(15, t)] }) with clk := 2000 })
    kvGet s.hw.sbb.tx 15 = some t ∧ t.hold = some 0 ∧ 0 + 2000 ≤ s.hw.clk)) ∧
  ((kvGet State.reset.hw.sbb.tx 15).isNone = true) ∧
  ((let t : SbbTx := ⟨0, 0, 4 * 2 ^ 23, [], [], 1, 0, [], 1, 0, none, none, 0, none, 0⟩
    let s := onReset (fun h => h.onSbb (fun b => { b with tx := [(15, t)] }))
    kvGet s.hw.sbb.tx 15 = some t ∧ t.phase = 1 ∧ t.cancel.isNone = true)) ∧
  (isI2c 4 = true ∧ (1 : Nat) ≠ 0) := by
  refine ⟨?_, ?_, ?_, ?_, ?_, ?_⟩ <;> decide +kernel

/-- The hypotheses of `Obligations.SidebandTransactionsRunToTheirResponse` can be met (part 3). -/
theorem test_meets_SidebandTransactionsRunToTheirResponse_3 :
  ((let t : SbbTx := ⟨0, 0, 0, [], [], 1, 0, [], 2, 0, none, none, 0, none, 0⟩
    let s := onReset (fun h => h.onSbb (fun b => { b with tx := [(15, t)] }))
    kvGet s.hw.sbb.tx 15 = some t ∧ t.phase ≠ 1 ∧ t.phase ≠ 3)) ∧
  ((let t : SbbTx := ⟨0, 0, 0, [], [], 1, 0, [], 2, 0, none, none, 0, none, 0⟩
    let s := onReset (fun h => { h.onSbb (fun b => { b with tx := [(15, t)] }) with clk := 5000000000 })
    kvGet s.hw.sbb.tx 15 = some t ∧ t.phase = 2 ∧ t.since + s.hw.fld (Reg.SBB_CHAN_TIMING t.chan) Fld.SBB_CHAN_TIMING_RETRY_GAP_US * 500 ≤ s.hw.clk)) ∧
  ((let t : SbbTx := ⟨0, 0, 0, [], [], 1, 0, [], 3, 0, none, none, 0, none, 0⟩
    let s := onReset (fun h => { h.onSbb (fun b => { b with tx := [(15, t)] }) with clk := 5000000000 })
    kvGet s.hw.sbb.tx 15 = some t ∧ t.phase = 3 ∧ t.since + s.hw.fld (Reg.SBB_CHAN_TIMING t.chan) Fld.SBB_CHAN_TIMING_WR_CYCLE_MS * 500000 ≤ s.hw.clk)) ∧
  ((kvGet (onReset (fun h => h.onSbb (fun b => { b with lock := [(11, (15, 0))] }))).hw.sbb.lock 11 = some (15, 0))) ∧
  ((kvGet State.reset.hw.sbb.lock 11).isNone = true) ∧
  ((onReset tReady).hw.pg 48 = true) := by
  refine ⟨?_, ?_, ?_, ?_, ?_, ?_⟩ <;> decide +kernel

/-- The hypotheses of `Obligations.SidebandTransactionsRunToTheirResponse` can be met (part 4). -/
theorem test_meets_SidebandTransactionsRunToTheirResponse_4 :
  (State.reset.hw.pg 48 = false) := by decide +kernel

/-- The hypotheses of `Obligations.LinesAndRailsAct` can be met (part 1). -/
theorem test_meets_LinesAndRailsAct :
  ((onReset tReady).hw.pg 48 = true) ∧
  ((State.reset.hw.pg 48 = false ∧ State.reset.hw.domOn 48 = false)) ∧
  (State.reset.hw.pg 48 = false) ∧
  ((let s := onReset (fun h => { ((h.wn (Reg.SBB_GPIO_TASK 15) 0).setFld (Reg.SBB_GPIO_TASK 15) Fld.SBB_GPIO_TASK_EN 1 |>.setFld Reg.SBB_STATUS Fld.SBB_STATUS_READY 1) with tasks := [⟨23, [0], 0, 0⟩] })
    (s.hw.taskRun? 23).isSome = true ∧ s.hw.flag (Reg.SBB_GPIO_TASK 15) Fld.SBB_GPIO_TASK_EN = true ∧ s.hw.fld (Reg.SBB_GPIO_TASK 15) Fld.SBB_GPIO_TASK_LINE < 48 ∧
    s.hw.flag Reg.SBB_STATUS Fld.SBB_STATUS_READY = true ∧ s.hw.fld (Reg.SBB_GPIO_TASK 15) Fld.SBB_GPIO_TASK_ACTION = 0)) ∧
  ((State.reset.hw.fld (Reg.SBB_GPIO_TASK 15) Fld.SBB_GPIO_TASK_EN ≠ 1)) ∧
  ((State.reset.hw.taskRun? 23).isNone = true) := by
  refine ⟨?_, ?_, ?_, ?_, ?_, ?_⟩ <;> decide +kernel

/-- The hypotheses of `Obligations.LinesAndRailsAct` can be met (part 2). -/
theorem test_meets_LinesAndRailsAct_2 :
  ((let s := onReset (fun h => (h.setFld (Reg.SBB_RAIL_CFG 11) Fld.SBB_RAIL_CFG_ON 1).setFld (Reg.SBB_RAIL_CFG 11) Fld.SBB_RAIL_CFG_PG 1)
    s.hw.flag (Reg.SBB_RAIL_CFG 11) Fld.SBB_RAIL_CFG_ON = true ∧ s.hw.flag (Reg.SBB_RAIL_CFG 11) Fld.SBB_RAIL_CFG_PG = true)) ∧
  (State.reset.hw.flag (Reg.SBB_RAIL_CFG 11) Fld.SBB_RAIL_CFG_ON = false) ∧
  ((let s := onReset (fun h => { h.onSbb (fun b => { b with railTry := [(11, (1, 0))] }) with clk := 5000000000 })
    kvGet s.hw.sbb.railTry 11 = some (1, 0) ∧ 0 + s.hw.fld (Reg.SBB_RAIL_CFG 11) Fld.SBB_RAIL_CFG_RETRY_MS * 500000 ≤ s.hw.clk ∧
    s.hw.flag (Reg.SBB_RAIL_CFG 11) Fld.SBB_RAIL_CFG_ON = false ∧ s.hw.flag (Reg.SBB_RAIL_CFG 11) Fld.SBB_RAIL_CFG_FAULT = false)) ∧
  ((kvGet State.reset.hw.sbb.railTry 11).isNone = true) ∧
  ((onReset tReady).hw.pg 48 = true) ∧
  (State.reset.hw.pg 48 = false) := by
  refine ⟨?_, ?_, ?_, ?_, ?_, ?_⟩ <;> decide +kernel

/-- The hypotheses of `Obligations.ResetsAndRegulatorsFollowTheirOrder` can be met (part 1). -/
theorem test_meets_ResetsAndRegulatorsFollowTheirOrder :
  ((let s := onReset (fun h => { h with pwr := { h.pwr with powered := true, rstLow := false, busy := false } })
    s.hw.pwr.powered = true ∧ s.hw.pwr.rstLow = false ∧ s.hw.pwr.thermOff = false ∧ s.hw.pwr.busy = false ∧ s.hw.powerState = 0)) ∧
  ((onReset (fun h => { h with pwr := { h.pwr with rstLow := true } })).hw.pwr.rstLow = true) ∧
  ((let s := onReset (fun h => { h with pwr := { h.pwr with powered := true, busy := true } })
    s.hw.pwr.powered = true ∧ s.hw.pwr.busy = true)) ∧
  ((onReset (fun h => { h with pwr := { h.pwr with powered := false } })).hw.pwr.powered = false) ∧
  ((onReset (fun h => { h with pwr := { h.pwr with rstLow := true } })).hw.pwr.rstLow = true) ∧
  ((let s := onReset (fun h => { tReady h with clk := 500000, sys := { h.sys with resetReq := some 0 } })
    s.hw.pg 4 = true ∧ s.hw.pg 5 = true ∧ s.hw.sys.resetReq = some 0 ∧ 0 + 500000 ≤ s.hw.clk)) := by
  refine ⟨?_, ?_, ?_, ?_, ?_, ?_⟩ <;> decide +kernel

/-- The hypotheses of `Obligations.ResetsAndRegulatorsFollowTheirOrder` can be met (part 2). -/
theorem test_meets_ResetsAndRegulatorsFollowTheirOrder_2 :
  ((let s := onReset (fun h => { h with clk := 5000000000, pwr := { h.pwr with regUp := some 5 } })
    s.hw.pwr.regUp = some 5 ∧ s.hw.regOn 5 = false ∧ s.hw.pwr.regAt + s.hw.msLeast (s.hw.fld (Reg.PWR_REG_CFG 5) Fld.PWR_REG_CFG_DELAY_MS) ≤ s.hw.clk)) ∧
  ((let s := onReset (fun h => { (h.setReg 5 true) with pwr := { h.pwr with regUp := some 5 } })
    s.hw.regOn 5 = true ∧ s.hw.regPg 5 = false ∧ s.hw.pwr.regUp = some 5)) ∧
  (State.reset.hw.regOn 5 = false) ∧
  ((let s := onReset (fun h => { (h.setReg 5 true) with clk := 5000000000, pwr := { h.pwr with regUp := some 5 } })
    s.hw.regOn 5 = true ∧ s.hw.regPg 5 = false ∧ s.hw.pwr.regUp = some 5 ∧ s.hw.pwr.startUp = true ∧
    s.hw.pwr.regAt + s.hw.msLeast (s.hw.fld (Reg.PWR_REG_CFG 5) Fld.PWR_REG_CFG_PG_TIMEOUT_MS) ≤ s.hw.clk)) ∧
  (State.reset.hw.regOn 5 = false) ∧
  ((let s := onReset (fun h => (h.setReg 5 true).setFld (Reg.PWR_REG_CFG 5) Fld.PWR_REG_CFG_PG 1)
    s.hw.regOn 5 = true ∧ s.hw.regPg 5 = true)) := by
  refine ⟨?_, ?_, ?_, ?_, ?_, ?_⟩ <;> decide +kernel

/-- The hypotheses of `Obligations.ResetsAndRegulatorsFollowTheirOrder` can be met (part 3). -/
theorem test_meets_ResetsAndRegulatorsFollowTheirOrder_3 :
  (State.reset.hw.regOn 5 = false) ∧
  ((let s := onReset (fun h => { h with clk := 5000000000, pwr := { h.pwr with retry := true } })
    s.hw.pwr.retry = true ∧ s.hw.pwr.fails.getLastD 0 + s.hw.msLeast 10 ≤ s.hw.clk ∧ (List.range 6).any s.hw.regOn = false)) ∧
  ((let s := onReset (fun h => { (h.setReg 5 true) with clk := 5000000000, pwr := { h.pwr with regDown := some 4 } })
    s.hw.pwr.regDown = some 4 ∧ s.hw.pwr.offAt + s.hw.msLeast 1 ≤ s.hw.clk ∧ ((List.range 6).filter (fun n => decide (4 ≤ n) && s.hw.regOn n)).getLast? = some 5)) ∧
  (State.reset.hw.pwr.regDown.isNone = true) := by
  refine ⟨?_, ?_, ?_, ?_⟩ <;> decide +kernel

/-- The hypotheses of `Obligations.PowerStatesClocksAndHeat` can be met (part 1). -/
theorem test_meets_PowerStatesClocksAndHeat :
  ((let s := onReset (fun h => { h with pwr := { h.pwr with req := some ⟨2, 0, 5, none, 0⟩, busy := false, rstLow := false } })
    s.hw.pwr.req = some ⟨2, 0, 5, none, 0⟩ ∧ s.hw.pwr.busy = false ∧ s.hw.pwr.rstLow = false)) ∧
  (State.reset.hw.pwr.req.isNone = true) ∧
  ((let s := onReset (fun h => { h with pwr := { h.pwr with busy := true, startUp := false, rstLow := false, toOff := [49] } })
    s.hw.pwr.busy = true ∧ s.hw.pwr.rails ≠ 2 ∧ s.hw.pwr.rstLow = false ∧ s.hw.pwr.startUp = false ∧ s.hw.pwr.ramping = [] ∧ s.hw.sinceRound = false ∧ s.hw.pwr.toOff ≠ [])) ∧
  ((onReset (fun h => { h with pwr := { h.pwr with busy := false } })).hw.pwr.busy = false) ∧
  ((onReset (fun h => { h with pwr := { h.pwr with ramping := [49] } })).hw.pwr.ramping.contains 49 = true) ∧
  (State.reset.hw.pwr.ramping.contains 49 = false) := by
  refine ⟨?_, ?_, ?_, ?_, ?_, ?_⟩ <;> decide +kernel

/-- The hypotheses of `Obligations.PowerStatesClocksAndHeat` can be met (part 2). -/
theorem test_meets_PowerStatesClocksAndHeat_2 :
  ((onReset (fun h => { h with pwr := { h.pwr with ramping := [49] } })).hw.pwr.ramping.contains 49 = true
    ∧ State.reset.hw.sinceRound = false) ∧
  ((onReset (fun h => { h with pwr := { h.pwr with ramping := [22] } })).hw.pwr.ramping.contains 22 = true
    ∧ State.reset.hw.sinceRound = false) ∧
  ((onReset (fun h => { h with pwr := { h.pwr with roundAt := some 0 } })).hw.sinceRound = true) ∧
  ((let s := onReset (fun h => { h with pwr := { h.pwr with busy := true, rails := 2 } })
    s.hw.pwr.busy = true ∧ s.hw.pwr.rails = 2)) ∧
  ((let s := onReset (fun h => { (tReady h).wn (Reg.PWR_RAIL_SEQ 11) 0xFFFFFFFF with pwr := { h.pwr with busy := true, rails := 1, goal := 4 } })
    s.hw.pwr.busy = true ∧ s.hw.pwr.rails = 1 ∧ s.hw.railsSettled = true ∧ s.hw.stagesLeft.length = 1)) ∧
  ((let s := onReset (fun h => { h with pwr := { h.pwr with busy := true, rails := 1 } })
    s.hw.pwr.busy = true ∧ s.hw.pwr.rails = 1 ∧ s.hw.railsSettled = true ∧ s.hw.stagesLeft = [])) := by
  refine ⟨?_, ?_, ?_, ?_, ?_, ?_⟩ <;> decide +kernel

/-- The hypotheses of `Obligations.PowerStatesClocksAndHeat` can be met (part 3). -/
theorem test_meets_PowerStatesClocksAndHeat_3 :
  ((onReset (fun h => { h with pwr := { h.pwr with busy := false } })).hw.pwr.busy = false) ∧
  ((let s := onReset (fun h => { (h.setFld Reg.PWR_STATUS Fld.PWR_STATUS_STATE 1) with clk := 5000000000, pwr := { h.pwr with busy := false, latched := [20] } })
    s.hw.powerState = 1 ∧ s.hw.pwr.busy = false ∧ s.hw.pwr.latched ≠ [] ∧ s.hw.pwr.thermOff = false ∧ s.hw.pwr.offAt + s.hw.msLeast 2 ≤ s.hw.clk)) ∧
  ((let s := onReset (fun h => { (h.setFld Reg.PWR_STATUS Fld.PWR_STATUS_STATE 2) with pwr := { h.pwr with busy := false, latched := [64 + 15] } })
    2 ≤ s.hw.powerState ∧ s.hw.pwr.busy = false ∧ s.hw.pwr.latched.contains (64 + 15) = true)) ∧
  (State.reset.hw.powerState < 2) ∧
  ((let s := onReset (fun h => { (h.setFld Reg.PWR_STATUS Fld.PWR_STATUS_STATE 1).setFld Reg.PWR_WAKE_CFG Fld.PWR_WAKE_CFG_TIMER_S 1 with clk := 5000000000 })
    s.hw.powerState = 1 ∧ s.hw.fld Reg.PWR_WAKE_CFG Fld.PWR_WAKE_CFG_TIMER_S ≠ 0 ∧ s.hw.pwr.standbyAt + s.hw.fld Reg.PWR_WAKE_CFG Fld.PWR_WAKE_CFG_TIMER_S * 499975000 ≤ s.hw.clk)) ∧
  ((let s := onReset (fun h => { h with pwr := { h.pwr with busy := true } })
    s.hw.pwr.busy = true ∧ 1000 * ppmUnit < ((-1000000 * ppmUnit : Int).natAbs : Int) ∧ s.hw.flag Reg.PWR_CLK_STATUS Fld.PWR_CLK_STATUS_AO_XTAL_FAIL = false)) := by
  refine ⟨?_, ?_, ?_, ?_, ?_, ?_⟩ <;> decide +kernel

/-- The hypotheses of `Obligations.PowerStatesClocksAndHeat` can be met (part 4). -/
theorem test_meets_PowerStatesClocksAndHeat_4 :
  (State.reset.hw.powerState < 2) ∧
  ((onReset (fun h => { h with pwr := { h.pwr with busy := true } })).hw.pwr.busy = true) ∧
  ((let s := onReset (fun h => { (h.setFld Reg.PWR_CLK_STATUS Fld.PWR_CLK_STATUS_PLL_LOCK 1) with pwr := { h.pwr with powered := true } })
    s.hw.flag Reg.PWR_CLK_STATUS Fld.PWR_CLK_STATUS_PLL_LOCK = true ∧ s.hw.pwr.powered = true)) ∧
  ((onReset (fun h => h.setFld Reg.PWR_CLK_STATUS Fld.PWR_CLK_STATUS_RELOCKING 1)).hw.flag Reg.PWR_CLK_STATUS Fld.PWR_CLK_STATUS_RELOCKING = true) ∧
  ((let s := onReset (fun h => { ((h.setFld Reg.PWR_STATUS Fld.PWR_STATUS_THERM_WARN 1).setReg 0 true) with pwr := { h.pwr with powered := true } })
    s.hw.pwr.powered = true ∧ (s.hw.setFld Reg.PWR_THERM Fld.PWR_THERM_TEMP (twos 16 520)).flag Reg.PWR_STATUS Fld.PWR_STATUS_THERM_WARN = true ∧
    (((s.hw.setFld Reg.PWR_THERM Fld.PWR_THERM_TEMP (twos 16 520)).fld Reg.PWR_THERM Fld.PWR_THERM_WARN_C * 4 : Nat) : Int) ≤ 520 ∧ (List.range 6).any s.hw.regOn = true)) ∧
  ((onReset (fun h => { h with pwr := { h.pwr with powered := false } })).hw.pwr.powered = false) := by
  refine ⟨?_, ?_, ?_, ?_, ?_, ?_⟩ <;> decide +kernel

/-- The hypotheses of `Obligations.PowerStatesClocksAndHeat` can be met (part 5). -/
theorem test_meets_PowerStatesClocksAndHeat_5 :
  ((let s := onReset (fun h => { h with pwr := { h.pwr with thermOff := true } })
    s.hw.pwr.thermOff = true ∧ signed 16 (s.hw.fld Reg.PWR_THERM Fld.PWR_THERM_TEMP) < 440 ∧ (List.range 6).any s.hw.regOn = false ∧ s.hw.pwr.thermAt.isNone = true)) ∧
  ((onReset (fun h => { h with pwr := { h.pwr with thermOff := false } })).hw.pwr.thermOff = false) := by
  refine ⟨?_, ?_⟩ <;> decide +kernel

/-- The hypotheses of `Obligations.SysCommandsComplete` can be met (part 1). -/
theorem test_meets_SysCommandsComplete :
  ((let s : State := tGcs 1 0x0101 [196613] [] id
    let owner : Nat := 1
    let slot : Nat := 0
    let q : Slot := tSlot 0x0101 [196613] []
    let h := s.hw
    let major := bits (q.w 0) 31 16
    let minor := min (bits (q.w 0) 15 0) 2
    let r := Reg.MBX_OWNER_STATUS owner
    let after : Hw := (h.setFld r Fld.MBX_OWNER_STATUS_NEGOTIATED 1).setFld r Fld.MBX_OWNER_STATUS_GCS_MINOR minor
    s.hw.runs owner slot 0x0101 q ∧
    (major = 3) ∧
    h.clean after noDeadlock)) ∧
  ((let s : State := tGcs 1 0x0101 [131072] [] id
    let owner : Nat := 1
    let slot : Nat := 0
    let q : Slot := tSlot 0x0101 [131072] []
    let h := s.hw
    s.hw.runs owner slot 0x0101 q ∧
    (bits (q.w 0) 31 16 ≠ 3))) ∧
  ((let s : State := tGcs 1 0x0102 [] [] id
    let owner : Nat := 1
    let slot : Nat := 0
    let q : Slot := tSlot 0x0102 [] []
    let h := s.hw
    let after : Hw := h
    s.hw.runs owner slot 0x0102 q ∧
    h.clean after noDeadlock)) ∧
  ((let s : State := tGcs 1 0x0103 [] [] id
    let owner : Nat := 1
    let slot : Nat := 0
    let q : Slot := tSlot 0x0103 [] []
    let h := s.hw
    let after : Hw := h
    s.hw.runs owner slot 0x0103 q ∧
    h.clean after noDeadlock)) ∧
  ((let s : State := tGcs 1 0x0104 [1, 4096] [] id
    let owner : Nat := 1
    let slot : Nat := 0
    let q : Slot := tSlot 0x0104 [1, 4096] []
    let h := s.hw
    let n := q.w 0
    let r : Nat × Option (Nat × Nat) × Hw := runElements noDeadlock (fun a i x =>
        if x % 4096 ≠ 0 ∨ flashBytes ≤ x then (some (cBadParam, 4 * (i + 1)), a)
        else (none, a.emit (.flash x (List.replicate 4096 255)))) (q.payload.drop 1) 0 h
    let after : Hw := r.2.2
    s.hw.runs owner slot 0x0104 q ∧
    (∀ chk ∈ ([badAt (n = 0 || q.payload.length != n + 1) 0] : List Check), chk.1 = false) ∧
    (r.2.1 = none) ∧
    h.clean after noDeadlock)) ∧
  ((let s : State := tGcs 1 0x0104 [2, 4096, 8193] [] id
    let owner : Nat := 1
    let slot : Nat := 0
    let q : Slot := tSlot 0x0104 [2, 4096, 8193] []
    let h := s.hw
    let n := q.w 0
    let r : Nat × Option (Nat × Nat) × Hw := runElements noDeadlock (fun a i x =>
        if x % 4096 ≠ 0 ∨ flashBytes ≤ x then (some (cBadParam, 4 * (i + 1)), a)
        else (none, a.emit (.flash x (List.replicate 4096 255)))) (q.payload.drop 1) 0 h
    let code : Nat := cBadParam
    let detail : Nat := 8
    s.hw.runs owner slot 0x0104 q ∧
    (∀ chk ∈ ([badAt (n = 0 || q.payload.length != n + 1) 0] : List Check), chk.1 = false) ∧
    (r.2.1 = some (code, detail)))) := by
  refine ⟨?_, ?_, ?_, ?_, ?_, ?_⟩ <;> decide +kernel

/-- The hypotheses of `Obligations.SysCommandsComplete` can be met (part 2). -/
theorem test_meets_SysCommandsComplete_2 :
  ((let s : State := tGcs 1 0x0105 [4096, 0, 0, 256] (List.replicate 256 7) id
    let owner : Nat := 1
    let slot : Nat := 0
    let q : Slot := tSlot 0x0105 [4096, 0, 0, 256] (List.replicate 256 7)
    let h := s.hw
    let at_ := q.w 0
    let len := q.w 3
    let r : Nat × Option (Nat × Nat) × Hw := runElements noDeadlock (fun a _ p =>
        if flashBytes ≤ at_ + 256 * p then (some (cBadParam, 12), a)
        else (none, a.emit (.flash (at_ + 256 * p) (sub q.buf (256 * p) 256)))) (List.range (len / 256)) 0 h
    let after : Hw := r.2.2
    s.hw.runs owner slot 0x0105 q ∧
    (∀ chk ∈ ([badAt (at_ % 256 != 0 || decide (flashBytes ≤ at_)) 0, badAt (len = 0 || len % 256 != 0) 12] : List Check), chk.1 = false) ∧
    (r.2.1 = none) ∧
    h.clean after noDeadlock)) ∧
  ((let s : State := tGcs 1 0x0106 [] [] id
    let owner : Nat := 1
    let slot : Nat := 0
    let q : Slot := tSlot 0x0106 [] []
    let h := s.hw
    let after : Hw := { h with sys := { h.sys with resetReq := some h.clk } }
    s.hw.runs owner slot 0x0106 q ∧
    h.clean after noDeadlock)) ∧
  ((let s : State := tGcs 1 0x0107 [0, 4096, 0, 64] [] (fun h => { h with sys := { h.sys with early := some ⟨⟨0, 3, 0, [], [1, 2], [], [], [], [], 0, false, 0, 0, [], []⟩, [], [], [], []⟩ } })
    let owner : Nat := 1
    let slot : Nat := 0
    let q : Slot := tSlot 0x0107 [0, 4096, 0, 64] []
    let h := s.hw
    let e : EarlySet := ⟨⟨0, 3, 0, [], [1, 2], [], [], [], [], 0, false, 0, 0, [], []⟩, [], [], [], []⟩
    let after : Hw := h.emit (.hostWrite owner (q.w64 1) ((wordsOf ((e.copy.bytes.length + 3) / 4) (e.copy.bytes ++ [0, 0, 0])).take (q.w 3 / 4)))
    s.hw.runs owner slot 0x0107 q ∧
    (h.sys.early = some e) ∧
    (owner < 2 ∨ 257 < owner ∨ (h.hdma.linkUp = true ∧ (h.pciFn owner).busMaster = true)) ∧
    h.clean after noDeadlock)) ∧
  ((let s : State := tGcs 1 0x0107 [0, 4096, 0, 64] [] (fun h => { h with sys := { h.sys with early := none } })
    let owner : Nat := 1
    let slot : Nat := 0
    let q : Slot := tSlot 0x0107 [0, 4096, 0, 64] []
    let h := s.hw
    s.hw.runs owner slot 0x0107 q ∧
    (h.sys.early = none))) ∧
  ((let s : State := tGcs 1 0x0108 [0, 0, 0, 64] (List.replicate 64 0) id
    let owner : Nat := 1
    let slot : Nat := 0
    let q : Slot := tSlot 0x0108 [0, 0, 0, 64] (List.replicate 64 0)
    let copy : ImageCopy := ⟨0, 3, 0, [], [1, 2], [], [], [], [], 0, false, 0, 0, [], []⟩
    let h := s.hw
    let after : Hw := h.drawn.emit (.flash (h.draw % flashBytes) (copy.block ++ copy.bytes))
    s.hw.runs owner slot 0x0108 q ∧
    h.clean after noDeadlock)) ∧
  ((let s : State := tGcs 1 0x0109 [10, 1, 0, 0, 0, 0, 0, 0, 0] [] id
    let owner : Nat := 1
    let slot : Nat := 0
    let q : Slot := tSlot 0x0109 [10, 1, 0, 0, 0, 0, 0, 0, 0] []
    let h := s.hw
    let t := q.w 0
    let mask := (List.range 8).map (fun i => q.w (1 + i))
    let others := decide (t < 4) && (decide (65536 ≤ mask.getD 0 0) || (mask.drop 1).any (fun x => x != 0))
    let cfgMask := 2 ^ Fld.EVF_TASK_CFG_RECORD.lo ||| (511 * 2 ^ Fld.EVF_TASK_CFG_OWNER.lo)
    let after : Hw := (let x := h.images ((mask.mapIdx (fun i v => (i, v))).map (fun p => (Reg.EVF_ROUTE t p.1, 0xFFFFFFFF, p.2)))
            if q.payload.length = 10 then x.cfg (Reg.EVF_TASK_CFG t) cfgMask (q.w 9) else x)
    s.hw.runs owner slot 0x0109 q ∧
    (∀ chk ∈ ([badAt (decide (104 ≤ t)) 0, badAt others 4, q.reserved ([127] ++ List.replicate 8 0xFFFFFFFF ++ [cfgMask])] : List Check), chk.1 = false) ∧
    h.clean after noDeadlock)) := by
  refine ⟨?_, ?_, ?_, ?_, ?_, ?_⟩ <;> decide +kernel

/-- The hypotheses of `Obligations.SysCommandsComplete` can be met (part 3). -/
theorem test_meets_SysCommandsComplete_3 :
  ((let s : State := tGcs 1 0x010A [272, 1, 0, 2, 0, 0, 0, 0, 0, 2147483905, 0, 0, 0] [] (fun h => (h.setFld (Reg.MAC_SEC_CFG 0) Fld.MAC_SEC_CFG_EN 1).setFld (Reg.MAC_CFG 0) Fld.MAC_CFG_MODE 1)
    let owner : Nat := 1
    let slot : Nat := 0
    let q : Slot := tSlot 0x010A [272, 1, 0, 2, 0, 0, 0, 0, 0, 2147483905, 0, 0, 0] []
    let auth : Bool := true
    let h := s.hw
    let w := q.w 0
    let idx := bits w 1 0
    let size := bits w 5 4
    let links := (List.range 4).filter (fun p => bit w (8 + p))
    let members := (List.range 4).filter (fun k => decide (k ≤ size) && k != idx)
    let after : Hw := (
        let x := ((h.setFld Reg.GLB_TOPOLOGY Fld.GLB_TOPOLOGY_DEV_INDEX idx).setFld Reg.GLB_TOPOLOGY Fld.GLB_TOPOLOGY_CASCADE_SIZE size)
        let x := (List.range 4).foldl (fun a p => a.setCascade p (links.contains p)) x
        let macs := (idx :: members).map (fun k => (k, [q.w64 (1 + 2 * k)]))
        let ends := links.filterMap (fun p =>
          if bit (q.w (9 + p)) 31 then some (16 + p, [bits (q.w (9 + p)) 1 0, bits (q.w (9 + p)) 12 8]) else none)
        let x := { x with sys := { x.sys with
          peers := (macs ++ ends).foldl (fun (m : Kv (List Nat)) (e : Nat × List Nat) => kvPut m e.1 e.2) [], authed := maskOf members, edges := [] } }
        let x := x.setFld Reg.GLB_TOPOLOGY Fld.GLB_TOPOLOGY_MEMBERS_SEEN 0
        let x := links.foldl (fun a p => if a.linkUp p then a.seeMembers p true else a) x
        members.foldl (fun a k => a.emit (.cpu 14874 (toBe 1 k))) x)
    s.hw.runs owner slot 0x010A q ∧
    (∀ chk ∈ (([h.denyAny owner (links.map (fun p => (1, p))),
        q.reserved ([0xF33] ++ (List.replicate 4 [0xFFFFFFFF, 0xFFFF]).flatten ++ List.replicate 4 0x80001F03),
        badAt (decide (size < idx)) 0] ++
        links.map (fun p => badAt (!h.macsecOn p) 1) ++
        links.map (fun p => badState (h.fld (Reg.MAC_CFG p) Fld.MAC_CFG_MODE != 1) 1 p) ++ [(!auth, cAuth, 0)]) : List Check), chk.1 = false) ∧
    h.clean after Hw.deadlocks)) ∧
  ((let s : State := tGcs 1 0x010B [1] [] (fun h => { h with sys := { h.sys with authed := 2 } })
    let owner : Nat := 1
    let slot : Nat := 0
    let q : Slot := tSlot 0x010B [1] []
    let h := s.hw
    let k := q.w 0
    let after : Hw := (h.emit (.cpu 14874 (toBe 1 k)))
    s.hw.runs owner slot 0x010B q ∧
    (∀ chk ∈ ([q.reserved [3], (!h.sys.authed.testBit k, cNoObject, 0)] : List Check), chk.1 = false) ∧
    h.clean after noDeadlock)) ∧
  ((let s : State := tGcs 1 0x010C [] [] id
    let owner : Nat := 1
    let slot : Nat := 0
    let q : Slot := tSlot 0x010C [] []
    let h := s.hw
    let after : Hw := h
    s.hw.runs owner slot 0x010C q ∧
    h.clean after noDeadlock)) := by
  refine ⟨?_, ?_, ?_⟩ <;> decide +kernel

/-- The hypotheses of `Obligations.OwnCommandsComplete` can be met (part 1). -/
theorem test_meets_OwnCommandsComplete :
  ((let s : State := tGcs 1 0x0201 [300] [] id
    let owner : Nat := 1
    let slot : Nat := 0
    let q : Slot := tSlot 0x0201 [300] []
    let h := s.hw
    let o := q.w 0
    let after : Hw := h.createOwner o
    s.hw.runs owner slot 0x0201 q ∧
    (∀ chk ∈ ([badAt (decide (o < 258) || decide (511 < o)) 0, (h.own.active.contains o || h.keysBarred, cState, o)] : List Check), chk.1 = false) ∧
    (h.flag Reg.SEC_STATUS Fld.SEC_STATUS_TRNG_FAIL = false) ∧
    (h.sec.trngDown = false) ∧
    h.clean after noDeadlock)) ∧
  ((let s : State := tGcs 1 0x0202 [300] [] (fun h => h.onOwn (fun o => { o with active := [0, 1, 300] }))
    let owner : Nat := 1
    let slot : Nat := 0
    let q : Slot := tSlot 0x0202 [300] []
    let h := s.hw
    let o := q.w 0
    let erased := match kvGet h.own.tear o with | some t => t.erased | none => false
    s.hw.runs owner slot 0x0202 q ∧
    (∀ chk ∈ ([badAt (decide (o < 3) || decide (511 < o)) 0, (!h.own.active.contains o, cNoObject, o), (erased, cState, o)] : List Check), chk.1 = false))) ∧
  ((let s : State := tGcs 1 0x0203 [196610, 1, 16777219] [] (fun h => h.onOwn (fun o => { o with active := [0, 1, 2] }))
    let owner : Nat := 1
    let slot : Nat := 0
    let q : Slot := tSlot 0x0203 [196610, 1, 16777219] []
    let h := s.hw
    let access := bits (q.w 0) 17 16
    let o := q.grantee
    let held (w : Nat) : Bool := match kvGet h.own.conf w with | some x => x != 1 && x != o | none => false
    let after : Hw := (q.resources.foldl (fun a w => a.grantRes o (access == 3) w) h)
    s.hw.runs owner slot 0x0203 q ∧
    (∀ chk ∈ ((badAt (access != 1 && access != 3) 2 :: h.grantChecks q ++ (!h.alive o, cState, o) ::
        q.resources.map (fun w => (access == 3 && held w, cConflict, w))) : List Check), chk.1 = false) ∧
    h.clean after noDeadlock)) ∧
  ((let s : State := tGcs 1 0x0204 [2, 1, 16777219] [] (fun h => h.onOwn (fun o => { o with active := [0, 1, 2], conf := [(16777219, 2)] }))
    let owner : Nat := 1
    let slot : Nat := 0
    let q : Slot := tSlot 0x0204 [2, 1, 16777219] []
    let h := s.hw
    let after : Hw := (q.resources.foldl (fun a w => a.revokeRes q.grantee w) h)
    s.hw.runs owner slot 0x0204 q ∧
    (∀ chk ∈ ((h.grantChecks q ++ q.resources.map (fun w => (!h.holds q.grantee w, cNoObject, w))) : List Check), chk.1 = false) ∧
    h.clean after noDeadlock)) ∧
  ((let s : State := tGcs 1 0x0205 [1, 4096, 0, 64] [] id
    let owner : Nat := 1
    let slot : Nat := 0
    let q : Slot := tSlot 0x0205 [1, 4096, 0, 64] []
    let h := s.hw
    let o := q.w 0
    let after : Hw := h.emit (.hostWrite owner (q.w64 1) ((h.policyWords o).take (q.w 3 / 4)))
    s.hw.runs owner slot 0x0205 q ∧
    (∀ chk ∈ ([(owner != 1 && o != owner, cDenied, o), badAt (decide (511 < o)) 0, (!h.own.active.contains o, cNoObject, o)] : List Check), chk.1 = false) ∧
    (owner < 2 ∨ 257 < owner ∨ (h.hdma.linkUp = true ∧ (h.pciFn owner).busMaster = true)) ∧
    h.clean after noDeadlock)) ∧
  ((let s : State := tGcs 1 0x0206 [2, 100, 10, 10, 10, 10, 10, 10, 10, 10] [] (fun h => h.onOwn (fun o => { o with active := [0, 1, 2] }))
    let owner : Nat := 1
    let slot : Nat := 0
    let q : Slot := tSlot 0x0206 [2, 100, 10, 10, 10, 10, 10, 10, 10, 10] []
    let h := s.hw
    let o := q.w 0
    let pairs := if 2 ≤ o ∧ o ≤ 257 then List.range 8 else []
    let after : Hw := (pairs.foldl (fun a i => a.setFld (Reg.HDMA_Q_CTRL ((o - 2) * 8 + i)) Fld.HDMA_Q_CTRL_HOLD (q.w (2 + i)))
        (h.wn (Reg.EVF_SVC_BOUND o) (q.w 1)))
    s.hw.runs owner slot 0x0206 q ∧
    (∀ chk ∈ (([badAt (decide (511 < o)) 0, badAt (q.w 1 = 0 || decide (10000 < q.w 1)) 4] ++
        pairs.map (fun i => badAt (q.w (2 + i) = 0 || decide (100 < q.w (2 + i))) (8 + 4 * i)) ++
        [(!h.own.active.contains o, cNoObject, o)]) : List Check), chk.1 = false) ∧
    h.clean after noDeadlock)) := by
  refine ⟨?_, ?_, ?_, ?_, ?_, ?_⟩ <;> decide +kernel

/-- The hypotheses of `Obligations.OwnCommandsComplete` can be met (part 2). -/
theorem test_meets_OwnCommandsComplete_2 :
  ((let s : State := tGcs 1 0x0207 [0] [] id
    let owner : Nat := 1
    let slot : Nat := 0
    let q : Slot := tSlot 0x0207 [0] []
    let h := s.hw
    let l := (List.range 512).filter h.own.active.contains
    let after : Hw := h
    s.hw.runs owner slot 0x0207 q ∧
    h.clean after noDeadlock)) := by decide +kernel

/-- The hypotheses of `Obligations.PortCommandsComplete` can be met (part 1). -/
theorem test_meets_PortCommandsComplete :
  ((let s : State := tGcs 1 0x0301 [3, 0, 655360, 0, 0, 65537] [] (fun h => tReady h)
    let owner : Nat := 1
    let slot : Nat := 0
    let q : Slot := tSlot 0x0301 [3, 0, 655360, 0, 0, 65537] []
    let h := s.hw
        let m := q.w 0
    let c := q.w 1
    let old := h.rn (Reg.MAC_CFG m)
    let mode := getF c Fld.MAC_CFG_MODE
    let en := getF c Fld.MAC_CFG_EN == 1
    let rate := getF c Fld.MAC_CFG_RATE
    let an := getF c Fld.MAC_CFG_AN_EN == 1 && (mode == 3 || mode == 5)
    let vid := bits (q.w 5) 27 16
    let own := bits (q.w 5) 8 0
    let us := bits (q.w 2) 25 16
    let clash := h.q0Clash m mode
    let link : Nat := 0x4FC  -- MODE, RATE, AN_EN and the inversion bits
    let relink := old &&& (link ||| 0x300) != c &&& (link ||| 0x300) || (getF old Fld.MAC_CFG_EN == 1 && !en)
    let x := h.images ([(Reg.MAC_CFG m, 0x7FFD, c), (Reg.MAC_LINK_CFG m, 0x3FF00FF, q.w 2)] ++
      (if m < 20 then [(Reg.MAC_RX_PHY_LAT m, 0xFFFFFFFF, q.w 3), (Reg.MAC_TX_PHY_LAT m, 0xFFFFFFFF, q.w 4)] else []))
    let x := { x with fwd := { x.fwd with defVid := kvPut x.fwd.defVid m vid, defOwner := kvPut x.fwd.defOwner m own } }
    -- the bounds at the rate the port would run at
    let y := if an || !h.linkUp m then h else h.setFld (Reg.MAC_STATUS m) Fld.MAC_STATUS_RATE rate
    let after : Hw := if relink then x.takeDown m else x
    s.hw.runs owner slot 0x0301 q ∧
    (∀ chk ∈ ([h.deny owner 1 m, denyOwner owner own, q.reserved [31, 0x7FFD, 0x3FF00FF, 0xFFFFFFFF, 0xFFFFFFFF, 0x0FFF01FF],
      badAt (decide (24 ≤ m)) 0, badAt (if mode = 0 then en || decide (20 ≤ m) else !(macModes m).contains mode) 4,
      badAt (mode != 0 && !an && !(modeRates mode).contains rate) 5, badAt (us = 0 || decide (1000 < us)) 10,
      (!h.alive own, cNoObject, own), badState (!en && h.carries m) 1 m,
      badState (h.isCascade m && mode != 1) 1 m, conflict (mode != 0 && !h.pllFits m mode) 1 m,
      conflict clash.isSome 1 (clash.getD 0), x.quotaCheck] : List Check), chk.1 = false) ∧
    (Hw.boundBreaks h y = none) ∧
    h.clean after noDeadlock)) ∧
  ((let s : State := tGcs 1 0x0302 [3] [] id
    let owner : Nat := 1
    let slot : Nat := 0
    let q : Slot := tSlot 0x0302 [3] []
    let h := s.hw
    let m := q.w 0
    let after : Hw := h
    s.hw.runs owner slot 0x0302 q ∧
    (∀ chk ∈ ([h.denyRead owner 1 m, q.reserved [31], badAt (decide (24 ≤ m)) 0] : List Check), chk.1 = false) ∧
    h.clean after noDeadlock)) ∧
  ((let s : State := tGcs 1 0x0303 [0, 1] [] id
    let owner : Nat := 1
    let slot : Nat := 0
    let q : Slot := tSlot 0x0303 [0, 1] []
    let h := s.hw
    let k := q.w 0
    let v := q.w 1 % 2
    let macs := (List.range 4).map (fun l => 4 * k + l)
    let lanes := macs.filter (fun m => h.macMode m == 1 || h.macMode m == 2 || h.macMode m == 3)
    let clash := if k = 0 then lanes.find? (fun m => (h.macMode m == 1) != (v == 1)) else none
    let after : Hw := (if h.fld (Reg.SQ_CFG k) Fld.SQ_CFG_PLLA_RATE = v then h
        else lanes.foldl Hw.takeDown (h.cfg (Reg.SQ_CFG k) 1 v))
    s.hw.runs owner slot 0x0303 q ∧
    (∀ chk ∈ (([h.denyAny owner (macs.map (fun m => (1, m))), q.reserved [7, 1], badAt (decide (5 ≤ k)) 0, badAt (k != 0 && v == 1) 4] ++
        macs.map (fun m => badState (h.carries m) 1 m) ++ [conflict clash.isSome 1 (clash.getD 0)]) : List Check), chk.1 = false) ∧
    h.clean after noDeadlock)) ∧
  ((let s : State := tGcs 1 0x0304 [3, 16] [] id
    let owner : Nat := 1
    let slot : Nat := 0
    let q : Slot := tSlot 0x0304 [3, 16] []
    let h := s.hw
    let m := q.w 0
    let after : Hw := (h.cfg (Reg.SQ_LANE_EQ (m / 4) (m % 4)) 0x1FFF1F (q.w 1))
    s.hw.runs owner slot 0x0304 q ∧
    (∀ chk ∈ ([h.deny owner 1 m, q.reserved [31, 0x1FFF1F], badAt (decide (20 ≤ m)) 0] : List Check), chk.1 = false) ∧
    h.clean after noDeadlock)) ∧
  ((let s : State := tGcs 1 0x0305 [515, 5, 35063] [] id
    let owner : Nat := 1
    let slot : Nat := 0
    let q : Slot := tSlot 0x0305 [515, 5, 35063] []
    let h := s.hw
    let m := q.w 0 % 32
    let i := bits (q.w 0) 12 8
    let after : Hw := (h.images [(Reg.MAC_STEER m i, 0xFFF00FFF, q.w 1), (Reg.MAC_STEER_TYPE m i, 0xFFFF, q.w 2)])
    s.hw.runs owner slot 0x0305 q ∧
    (∀ chk ∈ ([h.deny owner 1 m, q.reserved [0x1F1F, 0xFFF00FFF, 0xFFFF], badAt (decide (24 ≤ m)) 0] : List Check), chk.1 = false) ∧
    h.clean after noDeadlock)) ∧
  ((let s : State := tGcs 1 0x0306 [3, 655365] [] id
    let owner : Nat := 1
    let slot : Nat := 0
    let q : Slot := tSlot 0x0306 [3, 655365] []
    let h := s.hw
    let m := q.w 0
    let c := q.w 1
    let tw := getF c Fld.MAC_EEE_CFG_TW_US
    let after : Hw := (h.cfg (Reg.MAC_EEE_CFG m) 0x83FF03FF c)
    s.hw.runs owner slot 0x0306 q ∧
    (∀ chk ∈ ([h.deny owner 1 m, q.reserved [31, 0x83FF03FF], badAt (decide (20 ≤ m)) 0, badAt (tw = 0) 4,
        badAt (getF c Fld.MAC_EEE_CFG_IDLE_US = 0) 6, badAt (getF c Fld.MAC_EEE_CFG_EN == 1 && h.eeeShort m tw) 4] : List Check), chk.1 = false) ∧
    h.clean after noDeadlock)) := by
  refine ⟨?_, ?_, ?_, ?_, ?_, ?_⟩ <;> decide +kernel

/-- The hypotheses of `Obligations.PortCommandsComplete` can be met (part 2). -/
theorem test_meets_PortCommandsComplete_2 :
  ((let s : State := tGcs 1 0x0307 [20, 131072, 0] [] id
    let owner : Nat := 1
    let slot : Nat := 0
    let q : Slot := tSlot 0x0307 [20, 131072, 0] []
    let h := s.hw
    let m := q.w 0
    let c := q.w 1
    let n := getF c Fld.MAC_PLCA_CFG_NODE_COUNT
    let after : Hw := (
        let x := h.images [(Reg.MAC_PLCA_CFG m, 0x870FFFFF, c), (Reg.MAC_PLCA_LIMIT m, 0x3FFF00FF, q.w 2)]
        if getF c Fld.MAC_PLCA_CFG_EN = 0 then x.setFld (Reg.MAC_PLCA_STATUS m) Fld.MAC_PLCA_STATUS_ACTIVE 0
        else if getF c Fld.MAC_PLCA_CFG_ID = 0 ∧ h.linkUp m then x.setFld (Reg.MAC_PLCA_STATUS m) Fld.MAC_PLCA_STATUS_ACTIVE 1
        else x)
    s.hw.runs owner slot 0x0307 q ∧
    (∀ chk ∈ ([h.deny owner 1 m, q.reserved [31, 0x870FFFFF, 0x3FFF00FF], badAt (decide (m < 20) || decide (24 ≤ m)) 0,
        badAt (n = 0 || decide (8 < n)) 6] : List Check), chk.1 = false) ∧
    h.clean after noDeadlock)) ∧
  ((let s : State := tGcs 1 0x0308 [3, 2048] [] id
    let owner : Nat := 1
    let slot : Nat := 0
    let q : Slot := tSlot 0x0308 [3, 2048] []
    let h := s.hw
    let m := q.w 0
    let pat := q.w 4 = 512
    let after : Hw := (
        if m < 20 then (h.cfg (Reg.MAC_CFG m) 0x800 (q.w 1)).onMac (fun a => { a with
          wakePol := if bit (q.w 1) 11 then insertNew a.wakePol m else without a.wakePol m })
        else
          let x := h.cfg (Reg.MAC_WAKE_PAT_EN m) 15 (q.w 1)
          if pat then x.images (((q.bufWords 128).mapIdx (fun i v => (i, v))).map (fun p => (Reg.MAC_WAKE_PAT m p.1, 0xFFFFFFFF, p.2)))
          else x)
    s.hw.runs owner slot 0x0308 q ∧
    (∀ chk ∈ ([h.deny owner 1 m, q.reserved [31, if m < 20 then 0x800 else 15], badAt (decide (24 ≤ m)) 0,
        badAt (q.w 4 != 0 && (!pat || decide (m < 20))) 16] : List Check), chk.1 = false) ∧
    h.clean after noDeadlock)) ∧
  ((let s : State := tGcs 1 0x0309 [3, 0, 16] [] id
    let owner : Nat := 1
    let slot : Nat := 0
    let q : Slot := tSlot 0x0309 [3, 0, 16] []
    let h := s.hw
    let m := q.w 0
    let c := q.w 1
    let en := getF c Fld.MAC_SEC_CFG_EN
    let after : Hw := (
        let x := h.images ([(Reg.MAC_SEC_CFG m, 0xFF000003, c), (Reg.MAC_SEC_REPLAY_WINDOW m, 0xFFFFFFFF, q.w 2)] ++
          (List.range 4).map (fun i => (Reg.MAC_SEC_BYPASS m i, 0xFFFFFFFF, q.w (3 + i))))
        x.setFld (Reg.MAC_STATUS m) Fld.MAC_STATUS_MACSEC_ACTIVE (if x.macsecOn m && h.linkUp m then 1 else 0))
    s.hw.runs owner slot 0x0309 q ∧
    (∀ chk ∈ ([h.deny owner 1 m, q.reserved [31, 0xFF000003], badAt (decide (20 ≤ m)) 0,
        badAt (getF c Fld.MAC_SEC_CFG_VALIDATE = 3) 7, badAt (getF c Fld.MAC_SEC_CFG_CONF_OFFSET = 3) 7,
        badAt (h.isCascade m && en == 0) 7] : List Check), chk.1 = false) ∧
    h.clean after noDeadlock)) ∧
  ((let s : State := tGcs 1 0x030A [0] [] id
    let owner : Nat := 1
    let slot : Nat := 0
    let q : Slot := tSlot 0x030A [0] []
    let h := s.hw
    let g := q.w 0
    let macs := (List.range 4).map (fun i => 4 * g + i)
    let ds := (31 + g) :: (if g < 5 then [26 + g] else [])
    let after : Hw := (ds.foldl (fun a d => if a.domOn d then a.domainOff d else a) (h.onPwr (fun p => { p with
        toOn := p.toOn.filter (fun d => !ds.contains d), ramping := p.ramping.filter (fun d => !ds.contains d) })))
    s.hw.runs owner slot 0x030A q ∧
    (∀ chk ∈ (([h.denyAny owner (macs.map (fun m => (1, m))), badAt (decide (6 ≤ g)) 0] ++ macs.map (fun m => badState (h.carries m) 1 m)) : List Check), chk.1 = false) ∧
    h.clean after noDeadlock)) := by
  refine ⟨?_, ?_, ?_, ?_⟩ <;> decide +kernel

/-- The hypotheses of `Obligations.FwdCommandsComplete` can be met (part 1). -/
theorem test_meets_FwdCommandsComplete :
  ((let s : State := tGcs 1 0x0401 [256, 573785173, 655377, 0, 3, 0, 0] [] (fun h => h.wn Reg.FWD_SHADOW_SEQ 1)
    let owner : Nat := 1
    let slot : Nat := 0
    let q : Slot := tSlot 0x0401 [256, 573785173, 655377, 0, 3, 0, 0] []
    let h := s.hw
    let e := emOfPayload h.ageNow q.payload
    let r := h.emPut e
    let evicted : Bool := false
    let after : Hw := r.2
    s.hw.runs owner slot 0x0401 q ∧
    (∀ chk ∈ ((h.emChecks owner q.payload) : List Check), chk.1 = false) ∧
    (r.1 = some evicted) ∧
    h.clean after Hw.deadlocks)) ∧
  ((let s : State := tGcs 1 0x0402 [0, 5, 0, 0] [] (fun h => (h.wn Reg.FWD_SHADOW_SEQ 1).onFwd (fun f => { f with em := [(0, ⟨true, 0, 5, 0, 3, none, 0, none, none, none, none⟩)] }))
    let owner : Nat := 1
    let slot : Nat := 0
    let q : Slot := tSlot 0x0402 [0, 5, 0, 0] []
    let h := s.hw
    let t := q.w 0 % 16
    let e : Nat × EmEntry := (0, ⟨true, 0, 5, 0, 3, none, 0, none, none, none, none⟩)
    let after : Hw := h.emRemove none [e.1]
    s.hw.runs owner slot 0x0402 q ∧
    (∀ chk ∈ ([h.denyEntry owner e.2 [], q.reserved [15, 0xFFFFFFFF, 0xFFFFFFFF, 15]] : List Check), chk.1 = false) ∧
    (h.emAt t (keyWords (q.w 1) (q.w 2) (q.w 3)) = some e) ∧
    h.clean after noDeadlock)) ∧
  ((let s : State := tGcs 1 0x0403 [1, 0, 0, 28] (toLe 4 0x100 ++ toLe 4 0x22334455 ++ toLe 4 0x000A0011 ++ toLe 4 0 ++ toLe 4 3 ++ toLe 4 0 ++ toLe 4 0) (fun h => h.wn Reg.FWD_SHADOW_SEQ 1)
    let owner : Nat := 1
    let slot : Nat := 0
    let q : Slot := tSlot 0x0403 [1, 0, 0, 28] (toLe 4 0x100 ++ toLe 4 0x22334455 ++ toLe 4 0x000A0011 ++ toLe 4 0 ++ toLe 4 3 ++ toLe 4 0 ++ toLe 4 0)
    let h := s.hw
    let n := q.w 0
    let ws := q.bufWords (7 * n)
    let r : Nat × Option (Nat × Nat) × Hw := runElements Hw.deadlocks (fun a i (_ : Nat) =>
        match a.emAdd owner ((ws.drop (7 * i)).take 7) with
        | .ok x _ => (none, x)
        | .wait x => (none, x)
        | .no c d _ x => (some (c, if c = cBadParam then 28 * i + d else d), x)) (List.range n) 0 h
    let after : Hw := r.2.2
    s.hw.runs owner slot 0x0403 q ∧
    (∀ chk ∈ ([q.reserved [0x7FF], badAt (n = 0 || decide (1024 < n)) 0, badAt (q.w 3 != 28 * n) 12] : List Check), chk.1 = false) ∧
    (r.2.1 = none) ∧
    h.clean after Hw.deadlocks)) ∧
  ((let s : State := tGcs 1 0x0403 [1, 0, 0, 28] (toLe 4 4 ++ List.replicate 24 0) id
    let owner : Nat := 1
    let slot : Nat := 0
    let q : Slot := tSlot 0x0403 [1, 0, 0, 28] (toLe 4 4 ++ List.replicate 24 0)
    let h := s.hw
    let n := q.w 0
    let ws := q.bufWords (7 * n)
    let r : Nat × Option (Nat × Nat) × Hw := runElements Hw.deadlocks (fun a i (_ : Nat) =>
        match a.emAdd owner ((ws.drop (7 * i)).take 7) with
        | .ok x _ => (none, x)
        | .wait x => (none, x)
        | .no c d _ x => (some (c, if c = cBadParam then 28 * i + d else d), x)) (List.range n) 0 h
    let code : Nat := cBadParam
    let detail : Nat := 0
    s.hw.runs owner slot 0x0403 q ∧
    (∀ chk ∈ ([q.reserved [0x7FF], badAt (n = 0 || decide (1024 < n)) 0, badAt (q.w 3 != 28 * n) 12] : List Check), chk.1 = false) ∧
    (r.2.1 = some (code, detail)))) ∧
  ((let s : State := tGcs 1 0x0404 [0, 5, 0, 0] [] (fun h => h.onFwd (fun f => { f with em := [(0, ⟨true, 0, 5, 0, 3, none, 0, none, none, none, none⟩)] }))
    let owner : Nat := 1
    let slot : Nat := 0
    let q : Slot := tSlot 0x0404 [0, 5, 0, 0] []
    let h := s.hw
    let x := if bit (q.w 0) 31 then (kvGet h.fwd.em (posOfWord (q.w 1))).map (fun e => (posOfWord (q.w 1), e))
      else h.emAt (q.w 0 % 16) (keyWords (q.w 1) (q.w 2) (q.w 3))
    let p : Nat := 0
    let e : EmEntry := ⟨true, 0, 5, 0, 3, none, 0, none, none, none, none⟩
    let after : Hw := h
    s.hw.runs owner slot 0x0404 q ∧
    (∀ chk ∈ ([h.denyLook owner e, q.reserved [0x8000000F]] : List Check), chk.1 = false) ∧
    (x = some (p, e)) ∧
    h.clean after noDeadlock)) ∧
  ((let s : State := tGcs 1 0x0405 [1073807360] [] id
    let owner : Nat := 1
    let slot : Nat := 0
    let q : Slot := tSlot 0x0405 [1073807360] []
    let h := s.hw
    let w := q.w 0
    let byP := bit w 31
    let byV := bit w 30
    let r := h.emRemoveAll true (fun e => !e.static && e.type == 0 && (!byP || (e.group.isNone && e.port == bits w 4 0)) &&
      (!byV || e.key / 2 ^ 48 % 4096 == bits w 27 16))
    let after : Hw := r.2
    s.hw.runs owner slot 0x0405 q ∧
    (∀ chk ∈ ([if byP then h.deny owner 1 (bits w 4 0) else only1 owner, q.reserved [0xCFFF001F], badAt (!byP && !byV) 3] : List Check), chk.1 = false) ∧
    h.clean after noDeadlock)) := by
  refine ⟨?_, ?_, ?_, ?_, ?_, ?_⟩ <;> decide +kernel

/-- The hypotheses of `Obligations.FwdCommandsComplete` can be met (part 2). -/
theorem test_meets_FwdCommandsComplete_2 :
  ((let s : State := tGcs 1 0x0406 [65536, 458776, 0, 0, 0, 167772160] [] (fun h => (h.wn Reg.FWD_SHADOW_SEQ 1).onFwd (fun f => { f with nhop := [(7, ⟨3, 5, 10⟩)] }))
    let owner : Nat := 1
    let slot : Nat := 0
    let q : Slot := tSlot 0x0406 [65536, 458776, 0, 0, 0, 167772160] []
    let h := s.hw
    let p := q.route
    let nh := bits (q.w 1) 27 16
    let new : LpmEntry := ⟨p.1, p.2.1, p.2.2, nh⟩
    let ws : List (Nat × Option LpmEntry) := (lpmInsert h.fwd.lpm new).getD []
    let after : Hw := h.lpmWrite ws
    s.hw.runs owner slot 0x0406 q ∧
    (∀ chk ∈ (([only1 owner] ++ q.routeChecks ++ [((kvGet h.fwd.nhop nh).isNone, cNoObject, 0), ((h.lpmAt p.1 p.2.1).isSome, cConflict, 0)]) : List Check), chk.1 = false) ∧
    (lpmInsert h.fwd.lpm new = some ws) ∧
    h.clean after Hw.deadlocks)) ∧
  ((let s : State := tGcs 1 0x0407 [65536, 458776, 0, 0, 0, 167772160] [] (fun h => (h.wn Reg.FWD_SHADOW_SEQ 1).onFwd (fun f => { f with lpm := [(3, ⟨1 * 2 ^ 158 + 0x0A000000 * 2 ^ 96, 2 ^ 160 - 2 ^ 104, 24, 7⟩)] }))
    let owner : Nat := 1
    let slot : Nat := 0
    let q : Slot := tSlot 0x0407 [65536, 458776, 0, 0, 0, 167772160] []
    let h := s.hw
    let e : Nat × LpmEntry := (3, ⟨1 * 2 ^ 158 + 0x0A000000 * 2 ^ 96, 2 ^ 160 - 2 ^ 104, 24, 7⟩)
    let after : Hw := h.lpmWrite [(e.1, none)]
    s.hw.runs owner slot 0x0407 q ∧
    (∀ chk ∈ ((only1 owner :: q.routeChecks) : List Check), chk.1 = false) ∧
    (h.lpmAt q.route.1 q.route.2.1 = some e) ∧
    h.clean after noDeadlock)) ∧
  ((let s : State := tGcs 1 0x0408 [5, 1073741825, 0, 0, 0, 0, 0, 0, 0, 0, 0, 0, 0, 0, 0, 0, 0, 0, 0, 0, 0, 0, 0] [] (fun h => h.wn Reg.FWD_SHADOW_SEQ 1)
    let owner : Nat := 1
    let slot : Nat := 0
    let q : Slot := tSlot 0x0408 [5, 1073741825, 0, 0, 0, 0, 0, 0, 0, 0, 0, 0, 0, 0, 0, 0, 0, 0, 0, 0, 0, 0, 0] []
    let h := s.hw
    let i := q.w 0
    let w := q.w 1
    let t := bits w 27 16
    let act : AclAct := match bits w 31 30 with
      | 0 => .permit
      | 1 => .deny
      | 2 => .toPort (t % 32)
      | _ => .toGroup t
    let e : AclEntry := ⟨q.w320 3, q.w320 13, bits w 11 0, act, if bit (q.w 2) 3 then some (bits (q.w 2) 2 0) else none,
      if bit (q.w 2) 31 then some (bits (q.w 2) 27 16) else none⟩
    let after : Hw := (h.tableWrites 2 [(i, .acl (some e))] (fun f => { f with acl := kvPut f.acl i e }))
    s.hw.runs owner slot 0x0408 q ∧
    (∀ chk ∈ ([only1 owner, q.reserved [0x1FFF, 0xCFFF0FFF, 0x8FFF000F], badAt (bits w 31 30 = 2 && decide (32 ≤ t)) 6] : List Check), chk.1 = false) ∧
    h.clean after Hw.deadlocks)) ∧
  ((let s : State := tGcs 1 0x0409 [5] [] (fun h => (h.wn Reg.FWD_SHADOW_SEQ 1).onFwd (fun f => { f with acl := [(5, ⟨0, 0, 1, .permit, none, none⟩)] }))
    let owner : Nat := 1
    let slot : Nat := 0
    let q : Slot := tSlot 0x0409 [5] []
    let h := s.hw
    let i := q.w 0
    let after : Hw := (h.tableWrites 2 [(i, .acl none)] (fun f => { f with acl := kvDel f.acl i }))
    s.hw.runs owner slot 0x0409 q ∧
    (∀ chk ∈ ([only1 owner, q.reserved [0x1FFF], ((kvGet h.fwd.acl i).isNone, cNoObject, 0)] : List Check), chk.1 = false) ∧
    h.clean after noDeadlock)) ∧
  ((let s : State := tGcs 1 0x040A [10, 15, 0, 0] [] (fun h => h.wn Reg.FWD_SHADOW_SEQ 1)
    let owner : Nat := 1
    let slot : Nat := 0
    let q : Slot := tSlot 0x040A [10, 15, 0, 0] []
    let h := s.hw
    let v := q.w 0
    let was := match kvGet h.fwd.vlan v with | some e => e.member | none => 0
    let e : VlanEntry := ⟨q.w 1, q.w 2, bit (q.w 3) 31, bits (q.w 3) 11 0, bits (q.w 3) 27 16⟩
    let after : Hw := (h.tableWrites 3 [(v, .vlan (some e))] (fun f => { f with vlan := kvPut f.vlan v e }))
    s.hw.runs owner slot 0x040A q ∧
    (∀ chk ∈ ([h.denyAny owner (portsOf (q.w 1 ||| was)), q.reserved [4095, 0xFFFFFFFF, 0xFFFFFFFF, 0x8FFF0FFF]] : List Check), chk.1 = false) ∧
    h.clean after Hw.deadlocks)) ∧
  ((let s : State := tGcs 1 0x040B [7, 15] [] (fun h => h.wn Reg.FWD_SHADOW_SEQ 1)
    let owner : Nat := 1
    let slot : Nat := 0
    let q : Slot := tSlot 0x040B [7, 15] []
    let h := s.hw
    let g := q.w 0
    let after : Hw := (h.tableWrites 4 [(g, .group (q.w 1))] (fun f => { f with mcast := kvPut f.mcast g (q.w 1) }))
    s.hw.runs owner slot 0x040B q ∧
    (∀ chk ∈ ([h.denyAny owner (portsOf (q.w 1 ||| h.groupMask g)), q.reserved [4095]] : List Check), chk.1 = false) ∧
    h.clean after Hw.deadlocks)) := by
  refine ⟨?_, ?_, ?_, ?_, ?_, ?_⟩ <;> decide +kernel

/-- The hypotheses of `Obligations.FwdCommandsComplete` can be met (part 3). -/
theorem test_meets_FwdCommandsComplete_3 :
  ((let s : State := tGcs 1 0x040C [9, 65539, 5, 0] [] (fun h => h.wn Reg.FWD_SHADOW_SEQ 1)
    let owner : Nat := 1
    let slot : Nat := 0
    let q : Slot := tSlot 0x040C [9, 65539, 5, 0] []
    let h := s.hw
    let i := q.w 0
    let e : Nhop := ⟨q.w 1 % 32, q.w64 2, bits (q.w 1) 27 16⟩
    let after : Hw := (h.tableWrites 5 [(i, .nhop (some e))] (fun f => { f with nhop := kvPut f.nhop i e }))
    s.hw.runs owner slot 0x040C q ∧
    (∀ chk ∈ ([h.denyAny owner ((1, q.w 1 % 32) :: (match kvGet h.fwd.nhop i with | some n => [(1, n.port)] | none => [])),
        q.reserved [4095, 0x0FFF001F, 0xFFFFFFFF, 0xFFFF]] : List Check), chk.1 = false) ∧
    h.clean after Hw.deadlocks)) ∧
  ((let s : State := tGcs 1 0x040D [0, 327681] [] id
    let owner : Nat := 1
    let slot : Nat := 0
    let q : Slot := tSlot 0x040D [0, 327681] []
    let h := s.hw
    let after : Hw := (h.cfg Reg.FWD_AGE_CFG 0x7FFF000F (q.w 1))
    s.hw.runs owner slot 0x040D q ∧
    (∀ chk ∈ ([only1 owner, q.reserved [0, 0x7FFF000F], badAt (getF (q.w 1) Fld.FWD_AGE_CFG_LIMIT = 0) 6] : List Check), chk.1 = false) ∧
    h.clean after noDeadlock)) ∧
  ((let s : State := tGcs 1 0x040E [3, 8, 6553601] [] id
    let owner : Nat := 1
    let slot : Nat := 0
    let q : Slot := tSlot 0x040E [3, 8, 6553601] []
    let h := s.hw
    let p := q.w 0 % 32
    let cas := getF (q.w 1) Fld.FWD_PORT_CFG_CASCADE == 1
    let all := q.payload.length = 3
    let hold := getF (q.w 2) Fld.FWD_LEARN_CFG_MOVE_HOLD_MS
    let after : Hw := (
        let x := h.cfg (Reg.FWD_PORT_CFG p) 0xFFFFC00F (q.w 1)
        let x := if p < 4 then x.setCascade p cas else x
        if all then x.cfg Reg.FWD_LEARN_CFG 0x03FF0007 (q.w 2) else x)
    s.hw.runs owner slot 0x040E q ∧
    (∀ chk ∈ ([h.deny owner 1 p, (all && q.w 2 != h.rn Reg.FWD_LEARN_CFG && owner != 1, cDenied, 0),
        q.reserved [31, 0xFFFFC00F, 0x03FF0007], badAt (cas && (decide (4 ≤ p) || !h.macsecOn p)) 4,
        badState (cas && h.fld (Reg.MAC_CFG p) Fld.MAC_CFG_MODE != 1) 1 p,
        badAt (all && (hold = 0 || decide (1000 < hold))) 10] : List Check), chk.1 = false) ∧
    h.clean after Hw.deadlocks)) ∧
  ((let s : State := tGcs 1 0x040F [0, 3] [] id
    let owner : Nat := 1
    let slot : Nat := 0
    let q : Slot := tSlot 0x040F [0, 3] []
    let h := s.hw
    let after : Hw := (h.cfg Reg.FWD_CFG 15 (q.w 1))
    s.hw.runs owner slot 0x040F q ∧
    (∀ chk ∈ ([only1 owner, q.reserved [0, 15]] : List Check), chk.1 = false) ∧
    h.clean after noDeadlock)) ∧
  ((let s : State := tGcs 1 0x0410 [5, 16, 196608] [] id
    let owner : Nat := 1
    let slot : Nat := 0
    let q : Slot := tSlot 0x0410 [5, 16, 196608] []
    let h := s.hw
    let k := q.w 0 % 64
    let t := getF (q.w 2) Fld.SWC_SMP_POINT_TYPE
    let i := getF (q.w 2) Fld.SWC_SMP_POINT_INDEX
    let after : Hw := ((h.images [(Reg.SWC_SMP_CFG k, 0x3FFFF, q.w 1), (Reg.SWC_SMP_POINT k, 0x1FFF0003, q.w 2)]).onSwc (fun x => { x with
        smpCount := kvDel x.smpCount k }))
    s.hw.runs owner slot 0x0410 q ∧
    (∀ chk ∈ ([h.deny owner 9 k, if t = 2 then only1 owner else h.denyRead owner 1 i,
        (h.uncovered (h.holder 9 k) t i, cDenied, resWord 9 k), q.reserved [63, 0x3FFFF, 0x1FFF0003],
        badAt (t = 3) 8, badAt (t != 2 && decide (32 ≤ i)) 10] : List Check), chk.1 = false) ∧
    h.clean after noDeadlock)) ∧
  ((let s : State := tGcs 1 0x0411 [1, 2] [] id
    let owner : Nat := 1
    let slot : Nat := 0
    let q : Slot := tSlot 0x0411 [1, 2] []
    let h := s.hw
    let p := q.w 1 % 32
    let after : Hw := (h.cfg (Reg.FWD_CASCADE_PATH (q.w 0 % 4)) 0x8000001F (q.w 1))
    s.hw.runs owner slot 0x0411 q ∧
    (∀ chk ∈ ([only1 owner, q.reserved [3, 0x8000001F], badAt (decide (4 ≤ p)) 4, noObj (bit (q.w 1) 31 && !h.isCascade p) 1 p] : List Check), chk.1 = false) ∧
    h.clean after Hw.deadlocks)) := by
  refine ⟨?_, ?_, ?_, ?_, ?_, ?_⟩ <;> decide +kernel

/-- The hypotheses of `Obligations.QosCommandsComplete` can be met (part 1). -/
theorem test_meets_QosCommandsComplete :
  ((let s : State := tGcs 1 0x0501 [3, 0, 0, 49153518, 49153518, 49153518, 49153518, 49153518, 49153518, 49153518, 49153518] [] id
    let owner : Nat := 1
    let slot : Nat := 0
    let q : Slot := tSlot 0x0501 [3, 0, 0, 49153518, 49153518, 49153518, 49153518, 49153518, 49153518, 49153518, 49153518] []
    let h := s.hw
    let p := q.w 0 % 32
    let cls := List.range 8
    let len (c : Nat) : Nat := bits (q.w (3 + c)) 13 0
    let quantum (c : Nat) : Nat := bits (q.w (3 + c)) 30 14
    let burst (c : Nat) : Nat := h.rn (Reg.TSS_WEIR_BURST (pcOf p c))
    let after : Hw := (
        let x := h.images [(Reg.TSS_PCP_MAP p, 0x07FFFFFF, q.w 1), (Reg.TSS_PORT_CFG p, 0xFFFF000F, q.w 2 + bits (q.w 0) 27 24)]
        cls.foldl (fun a c => a.images [(Reg.TSS_DWRR_QUANTUM (pcOf p c), 0x1FFFF, quantum c),
          (Reg.TSS_CLASS_MAXLEN (pcOf p c), 0x3FFF, len c)]) x)
    s.hw.runs owner slot 0x0501 q ∧
    (∀ chk ∈ (([h.deny owner 1 p, q.reserved ([0x0F00001F, 0x07FFFFFF, 0xFFFF0000] ++ List.replicate 8 0x7FFFFFFF),
        badAt (decide (8 < bits (q.w 0) 27 24)) 3] ++
        cls.map (fun c => badAt (decide (len c < 64) || decide (9216 < len c) || (h.weirOn (pcOf p c) && decide (burst c < len c))) (12 + 4 * c)) ++
        cls.map (fun c => badAt (decide (quantum c < len c)) (13 + 4 * c))) : List Check), chk.1 = false) ∧
    h.clean after Hw.serviceRules)) ∧
  ((let s : State := tGcs 1 0x0502 [3, 0, 0, 0, 0, 0, 0] [] id
    let owner : Nat := 1
    let slot : Nat := 0
    let q : Slot := tSlot 0x0502 [3, 0, 0, 0, 0, 0, 0] []
    let h := s.hw
        let m := q.w 0 % 32
    let en := bit (q.w 0) 16
    let n := q.w 7
    let ws := q.bufWords n
    let base := (q.w 1 + q.w 2 * 2 ^ 32) * 1000000000 + q.w 3
    let l : GateList := ⟨if en then ws else [], base, q.w 4, q.w 5, bits (q.w 0) 10 8, q.w 6⟩
    let running := h.flag (Reg.TSS_GCL_CTRL m) Fld.TSS_GCL_CTRL_EN
    let pre := h.flag (Reg.TSS_PORT_CFG m) Fld.TSS_PORT_CFG_PREEMPT_EN
    let bank := 1 - h.fld (Reg.TSS_GCL_CTRL m) Fld.TSS_GCL_CTRL_BANK
    let y := if en then (h.onTss (fun t => { t with lists := kvPut t.lists (m * 2 + bank) l })).showGcl m bank l else h.stopGcl m
    let common := [h.deny owner 1 m, q.reserved [0x1071F, 0xFFFFFFFF, 0xFFFF, 0xFFFFFFFF, 0xFFFFFFFF, 0xFFFFFFFF, 0x3FF],
      badAt (decide (24 ≤ m)) 0, badAt (decide (1000000000 ≤ q.w 3)) 12]
    let cyc := badAt (decide (q.w 4 < 1000) || decide (1000000000 < q.w 4)) 16
    let after : Hw := h
    s.hw.runs owner slot 0x0502 q ∧
    (∀ chk ∈ (common : List Check), chk.1 = false) ∧
    ((!en && !running) = true) ∧
    h.clean after noDeadlock)) ∧
  ((let s : State := tGcs 1 0x0502 [3, 0, 0, 0, 1000, 0, 0] [] (fun h => h.setFld (Reg.TSS_GCL_CTRL 3) Fld.TSS_GCL_CTRL_EN 1)
    let owner : Nat := 1
    let slot : Nat := 0
    let q : Slot := tSlot 0x0502 [3, 0, 0, 0, 1000, 0, 0] []
    let h := s.hw
        let m := q.w 0 % 32
    let en := bit (q.w 0) 16
    let n := q.w 7
    let ws := q.bufWords n
    let base := (q.w 1 + q.w 2 * 2 ^ 32) * 1000000000 + q.w 3
    let l : GateList := ⟨if en then ws else [], base, q.w 4, q.w 5, bits (q.w 0) 10 8, q.w 6⟩
    let running := h.flag (Reg.TSS_GCL_CTRL m) Fld.TSS_GCL_CTRL_EN
    let pre := h.flag (Reg.TSS_PORT_CFG m) Fld.TSS_PORT_CFG_PREEMPT_EN
    let bank := 1 - h.fld (Reg.TSS_GCL_CTRL m) Fld.TSS_GCL_CTRL_BANK
    let y := if en then (h.onTss (fun t => { t with lists := kvPut t.lists (m * 2 + bank) l })).showGcl m bank l else h.stopGcl m
    let common := [h.deny owner 1 m, q.reserved [0x1071F, 0xFFFFFFFF, 0xFFFF, 0xFFFFFFFF, 0xFFFFFFFF, 0xFFFFFFFF, 0x3FF],
      badAt (decide (24 ≤ m)) 0, badAt (decide (1000000000 ≤ q.w 3)) 12]
    let cyc := badAt (decide (q.w 4 < 1000) || decide (1000000000 < q.w 4)) 16
    let after : Hw := h.pendGcl m l true
    s.hw.runs owner slot 0x0502 q ∧
    (∀ chk ∈ ((common ++ [cyc]) : List Check), chk.1 = false) ∧
    (en = false) ∧
    (running = true) ∧
    (h.clean y Hw.serviceRules) ∧
    h.clean after noDeadlock)) ∧
  ((let s : State := tGcs 1 0x0502 [65539, 0, 0, 0, 1000, 0, 0, 1, 0, 0, 4] [1, 0, 0, 0] id
    let owner : Nat := 1
    let slot : Nat := 0
    let q : Slot := tSlot 0x0502 [65539, 0, 0, 0, 1000, 0, 0, 1, 0, 0, 4] [1, 0, 0, 0]
    let h := s.hw
        let m := q.w 0 % 32
    let en := bit (q.w 0) 16
    let n := q.w 7
    let ws := q.bufWords n
    let base := (q.w 1 + q.w 2 * 2 ^ 32) * 1000000000 + q.w 3
    let l : GateList := ⟨if en then ws else [], base, q.w 4, q.w 5, bits (q.w 0) 10 8, q.w 6⟩
    let running := h.flag (Reg.TSS_GCL_CTRL m) Fld.TSS_GCL_CTRL_EN
    let pre := h.flag (Reg.TSS_PORT_CFG m) Fld.TSS_PORT_CFG_PREEMPT_EN
    let bank := 1 - h.fld (Reg.TSS_GCL_CTRL m) Fld.TSS_GCL_CTRL_BANK
    let y := if en then (h.onTss (fun t => { t with lists := kvPut t.lists (m * 2 + bank) l })).showGcl m bank l else h.stopGcl m
    let common := [h.deny owner 1 m, q.reserved [0x1071F, 0xFFFFFFFF, 0xFFFF, 0xFFFFFFFF, 0xFFFFFFFF, 0xFFFFFFFF, 0x3FF],
      badAt (decide (24 ≤ m)) 0, badAt (decide (1000000000 ≤ q.w 3)) 12]
    let cyc := badAt (decide (q.w 4 < 1000) || decide (1000000000 < q.w 4)) 16
    let after : Hw := h.pendGcl m l false
    s.hw.runs owner slot 0x0502 q ∧
    (∀ chk ∈ ((common ++ [cyc, badAt (n = 0 || decide (1024 < n)) 28, badAt (q.w 10 != 4 * n) 40,
      badEntry ws (fun e => bits e 21 0 == 0 || bits e 23 22 == 3 || (!pre && bits e 23 22 != 0))]) : List Check), chk.1 = false) ∧
    (en = true) ∧
    ((Hw.serviceRules y).find? (fun d => !(Hw.serviceRules h).contains d) = none) ∧
    (Hw.boundBreaks h (h.pendGcl m l false) = none) ∧
    h.clean after noDeadlock)) ∧
  ((let s : State := tGcs 1 0x0503 [1283, 0, 0] [] id
    let owner : Nat := 1
    let slot : Nat := 0
    let q : Slot := tSlot 0x0503 [1283, 0, 0] []
    let h := s.hw
    let m := q.w 0 % 32
    let c := bits (q.w 0) 10 8
    let k := m * 2 + (c - 5)
    let other := h.rn (Reg.TSS_CBS_IDLE (m * 2 + (6 - c)))
    let slope (w : Nat) : Nat := if getF w Fld.TSS_CBS_IDLE_EN = 1 then getF w Fld.TSS_CBS_IDLE_IDLE_SLOPE else 0
    let after : Hw := (
        let x := h.images [(Reg.TSS_CBS_IDLE k, 0x81FFFFFF, q.w 1), (Reg.TSS_CBS_HICREDIT k, 0xFFFFFFFF, q.w 2)]
        if getF (q.w 1) Fld.TSS_CBS_IDLE_EN = 0 then x.onTss (fun t => { t with credit := kvDel t.credit k }) else x)
    s.hw.runs owner slot 0x0503 q ∧
    (∀ chk ∈ ([h.deny owner 1 m, q.reserved [0x71F, 0x81FFFFFF, 0xFFFFFFFF], badAt (decide (24 ≤ m)) 0, badAt (c != 5 && c != 6) 1,
        badAt (slope (q.w 1) != 0 && decide (3 * h.rateOf m < 4 * (slope (q.w 1) + slope other))) 4] : List Check), chk.1 = false) ∧
    h.clean after Hw.serviceRules)) ∧
  ((let s : State := tGcs 1 0x0504 [3, 128] [] id
    let owner : Nat := 1
    let slot : Nat := 0
    let q : Slot := tSlot 0x0504 [3, 128] []
    let h := s.hw
    let m := q.w 0 % 32
    let r := Reg.TSS_PORT_CFG m
    let en := getF (q.w 1) Fld.TSS_PORT_CFG_PREEMPT_EN == 1
    let ver := getF (q.w 1) Fld.TSS_PORT_CFG_VERIFY_EN == 1
    let same := h.flag r Fld.TSS_PORT_CFG_PREEMPT_EN == en && h.flag r Fld.TSS_PORT_CFG_VERIFY_EN == ver
    let after : Hw := (
        let x := h.cfg r 0xE80 (q.w 1)
        if same then x else x.setFld r Fld.TSS_PORT_CFG_PREEMPT_ACTIVE (en && !ver && h.linkUp m).toNat)
    s.hw.runs owner slot 0x0504 q ∧
    (∀ chk ∈ ([h.deny owner 1 m, q.reserved [31, 0xE80], badAt (decide (20 ≤ m)) 0] : List Check), chk.1 = false) ∧
    h.clean after noDeadlock)) := by
  refine ⟨?_, ?_, ?_, ?_, ?_, ?_⟩ <;> decide +kernel

/-- The hypotheses of `Obligations.QosCommandsComplete` can be met (part 2). -/
theorem test_meets_QosCommandsComplete_2 :
  ((let s : State := tGcs 1 0x0505 [10, 2147484648, 20000] [] id
    let owner : Nat := 1
    let slot : Nat := 0
    let q : Slot := tSlot 0x0505 [10, 2147484648, 20000] []
    let h := s.hw
    let b := q.w 0
    let c := q.w 1
    let en := getF c Fld.TSS_WEIR_RATE_EN == 1
    let rate := getF c Fld.TSS_WEIR_RATE_RATE
    let burst := q.w 2
    let same := h.weirOn b == en && h.fld (Reg.TSS_WEIR_RATE b) Fld.TSS_WEIR_RATE_RATE == rate && h.rn (Reg.TSS_WEIR_BURST b) == burst
    let after : Hw := (
        let x := h.images [(Reg.TSS_WEIR_RATE b, 0xFFFFFFFF, c), (Reg.TSS_WEIR_BURST b, 0x01FFFFFF, burst)]
        if same then x.setTokens b (h.tokens b) else x.setTokens b (if b < 768 then 0 else burst * tokenUnit))
    s.hw.runs owner slot 0x0505 q ∧
    (∀ chk ∈ ([h.deny owner 7 b, q.reserved [0x1FFF, 0xFFFFFFFF, 0x01FFFFFF], badAt (decide (4864 ≤ b)) 0,
        badAt (decide (25000000 < rate) || (en && rate = 0)) 4, badAt (getF c Fld.TSS_WEIR_RATE_ACTION = 3) 7,
        badAt (decide (768 ≤ b) && getF c Fld.TSS_WEIR_RATE_ACTION == 1 && (h.ratedBy (b - 768)).isSome) 7,
        badAt (decide (burst < 64) || decide (2 ^ 24 < burst) || decide (burst < h.largestCharge b)) 8,
        badState (!en && h.metered b) 7 b] : List Check), chk.1 = false) ∧
    h.clean after Hw.serviceRules)) ∧
  ((let s : State := tGcs 1 0x0506 [5, 256] [] id
    let owner : Nat := 1
    let slot : Nat := 0
    let q : Slot := tSlot 0x0506 [5, 256] []
    let h := s.hw
    let k := q.w 0
    let c := q.w 1
    let en := getF c Fld.TSS_SLUICE_FILTER_EN == 1
    let meter := getF c Fld.TSS_SLUICE_FILTER_METER_EN == 1
    let after : Hw := (h.cfg (Reg.TSS_SLUICE_FILTER k) 0xDFF83FFF c)
    s.hw.runs owner slot 0x0506 q ∧
    (∀ chk ∈ ([h.denyAny owner ((2, k) :: (if getF c Fld.TSS_SLUICE_FILTER_GATE_EN = 1 then [(18, getF c Fld.TSS_SLUICE_FILTER_GATE)] else [])),
        q.reserved [4095, 0xFFF83FFF],
        badAt (en && meter && decide (h.rn (Reg.TSS_WEIR_BURST (768 + k)) < getF c Fld.TSS_SLUICE_FILTER_MAX_SDU)) 4,
        noObj (meter && !h.weirOn (768 + k)) 7 (768 + k),
        conflict (en && (h.ratedBy k).isSome) 16 ((h.ratedBy k).getD 0 / 256)] : List Check), chk.1 = false) ∧
    h.clean after noDeadlock)) ∧
  ((let s : State := tGcs 1 0x0507 [5, 2147483648, 0, 0, 0, 1000, 0, 0, 4] [1, 0, 0, 0] id
    let owner : Nat := 1
    let slot : Nat := 0
    let q : Slot := tSlot 0x0507 [5, 2147483648, 0, 0, 0, 1000, 0, 0, 4] [1, 0, 0, 0]
    let h := s.hw
    let g := q.w 0
    let c := q.w 1
    let en := getF c Fld.TSS_SLUICE_GATE_CTRL_EN == 1
    let n := getF c Fld.TSS_SLUICE_GATE_CTRL_LIST_LEN + 1
    let ws := q.bufWords n
    let l : GateList := ⟨if en then ws else [], (q.w 2 + q.w 3 * 2 ^ 32) * 1000000000 + q.w 4, q.w 5,
      getF c Fld.TSS_SLUICE_GATE_CTRL_INVALID_CLOSE,
      getF c Fld.TSS_SLUICE_GATE_CTRL_TB, 0⟩
    let running := h.flag (Reg.TSS_SLUICE_GATE_CTRL g) Fld.TSS_SLUICE_GATE_CTRL_EN
    let after : Hw := (if en || running then h.pendSluice g l (!en) else h)
    s.hw.runs owner slot 0x0507 q ∧
    (∀ chk ∈ (([h.deny owner 18 g, q.reserved [255, 0xDC00003F, 0xFFFFFFFF, 0xFFFF, 0xFFFFFFFF],
        badAt (decide (1000000000 ≤ q.w 4)) 16, badAt (q.w 5 = 0) 20] ++
        (if en then [badAt (q.w 8 != 4 * n) 32, badEntry ws (fun e => bits e 26 0 == 0)] else [])) : List Check), chk.1 = false) ∧
    h.clean after noDeadlock)) ∧
  ((let s : State := tGcs 1 0x0508 [5] [] id
    let owner : Nat := 1
    let slot : Nat := 0
    let q : Slot := tSlot 0x0508 [5] []
    let h := s.hw
    let gate := bit (q.w 0) 31
    let k := q.w 0 % 4096
    let after : Hw := ((if gate then h.setFld (Reg.TSS_SLUICE_GATE_CTRL k) Fld.TSS_SLUICE_GATE_CTRL_CLOSED_INVALID 0
        else h.setFld (Reg.TSS_SLUICE_FILTER k) Fld.TSS_SLUICE_FILTER_BLOCKED 0).onTss (fun t => { t with
          unblockLog := t.unblockLog ++ [(owner, q.w 0)] }))
    s.hw.runs owner slot 0x0508 q ∧
    (∀ chk ∈ ([if gate then h.deny owner 18 k else h.deny owner 2 k, q.reserved [0x80000FFF], badAt (gate && decide (256 ≤ k)) 0] : List Check), chk.1 = false) ∧
    h.clean after noDeadlock)) ∧
  ((let s : State := tGcs 1 0x0509 [3, 33554532, 5, 6] [] id
    let owner : Nat := 1
    let slot : Nat := 0
    let q : Slot := tSlot 0x0509 [3, 33554532, 5, 6] []
    let h := s.hw
    let n := q.w 0
    let c := q.w 1
    let hist := getF c Fld.TSS_FRER_CFG_HISTORY
    let ms := getF c Fld.TSS_FRER_CFG_RESET_MS
    let handles := [(2, bits (q.w 2) 11 0), (2, bits (q.w 3) 11 0)] ++ (if bit c 30 then [(2, bits (q.w 2) 27 16)] else [])
    let kept := bits (h.rn (Reg.TSS_FRER_CFG n)) 31 30 == bits c 31 30 && h.rn (Reg.TSS_FRER_HANDLE0 n) == q.w 2 &&
      h.rn (Reg.TSS_FRER_HANDLE1 n) == q.w 3
    let after : Hw := (
        let x := h.images [(Reg.TSS_FRER_CFG n, 0xFFC00FFF, c), (Reg.TSS_FRER_HANDLE0 n, 0x0FFF0FFF, q.w 2), (Reg.TSS_FRER_HANDLE1 n, 0xFFF, q.w 3)]
        if kept then x else x.onTss (fun t => { t with frer := kvDel t.frer n }))
    s.hw.runs owner slot 0x0509 q ∧
    (∀ chk ∈ ([h.denyAny owner ((19, n) :: handles), q.reserved [63, 0xFFC00FFF, 0x0FFF0FFF, 0xFFF], badAt (bits c 29 28 = 3) 7,
        badAt (decide (hist < 2) || decide (32 < hist)) 6, badAt (ms = 0 || decide (1000 < ms)) 4] : List Check), chk.1 = false) ∧
    h.clean after noDeadlock)) ∧
  ((let s : State := tGcs 1 0x050A [5, 1000000, 67502180, 33554432] [] (fun h => (h.setFld (Reg.TSS_WEIR_RATE 773) Fld.TSS_WEIR_RATE_EN 1).onFwd (fun f => { f with em := [(0, ⟨true, 1, 5, 0, 3, none, 5, none, none, none, none⟩)] }))
    let owner : Nat := 1
    let slot : Nat := 0
    let q : Slot := tSlot 0x050A [5, 1000000, 67502180, 33554432] []
    let h := s.hw
    let k := q.w 0
    let w := q.w 2
    let adm : Admitted := ⟨q.w 1, bits w 28 24, bits w 18 16, bits w 13 0, q.w 3, none⟩
    let x := (h.onTss (fun t => { t with admitted := kvPut t.admitted k adm })).wn (Reg.TSS_STREAM_DECLARED k) adm.declared
    let b := x.streamBound k adm
    let after : Hw := x
    s.hw.runs owner slot 0x050A q ∧
    (∀ chk ∈ ([h.denyAny owner ((2, k) :: (1, adm.ingress) :: portsOf adm.egress), q.reserved [4095, 0xFFFFFFFF, 0x1F073FFF],
        badAt (adm.declared = 0 || adm.declared = 0xFFFFFFFF) 4, badAt (decide (adm.maxlen < 64) || decide (9216 < adm.maxlen)) 8,
        badAt (adm.egress = 0) 12, noObj (!h.fwd.em.any (fun e => e.2.isStream && e.2.stream == k)) 2 k,
        badState (kvGet h.tss.admitted k).isSome 2 k] : List Check), chk.1 = false) ∧
    (h.weirOn (768 + k) = true) ∧
    h.clean after Hw.serviceRules)) := by
  refine ⟨?_, ?_, ?_, ?_, ?_, ?_⟩ <;> decide +kernel

/-- The hypotheses of `Obligations.QosCommandsComplete` can be met (part 3). -/
theorem test_meets_QosCommandsComplete_3 :
  ((let s : State := tGcs 1 0x050A [5, 1000000, 67502180, 33554432] [] (fun h => h.onFwd (fun f => { f with em := [(0, ⟨true, 1, 5, 0, 3, none, 5, none, none, none, none⟩)] }))
    let owner : Nat := 1
    let slot : Nat := 0
    let q : Slot := tSlot 0x050A [5, 1000000, 67502180, 33554432] []
    let h := s.hw
    let k := q.w 0
    let w := q.w 2
    let adm : Admitted := ⟨q.w 1, bits w 28 24, bits w 18 16, bits w 13 0, q.w 3, none⟩
    let x := (h.onTss (fun t => { t with admitted := kvPut t.admitted k adm })).wn (Reg.TSS_STREAM_DECLARED k) adm.declared
    let b := x.streamBound k adm
    s.hw.runs owner slot 0x050A q ∧
    (∀ chk ∈ ([h.denyAny owner ((2, k) :: (1, adm.ingress) :: portsOf adm.egress), q.reserved [4095, 0xFFFFFFFF, 0x1F073FFF],
        badAt (adm.declared = 0 || adm.declared = 0xFFFFFFFF) 4, badAt (decide (adm.maxlen < 64) || decide (9216 < adm.maxlen)) 8,
        badAt (adm.egress = 0) 12, noObj (!h.fwd.em.any (fun e => e.2.isStream && e.2.stream == k)) 2 k,
        badState (kvGet h.tss.admitted k).isSome 2 k] : List Check), chk.1 = false) ∧
    (h.weirOn (768 + k) = false))) ∧
  ((let s : State := tGcs 1 0x050B [5] [] (fun h => h.onTss (fun t => { t with admitted := [(5, ⟨1000, 3, 6, 100, 4, none⟩)] }))
    let owner : Nat := 1
    let slot : Nat := 0
    let q : Slot := tSlot 0x050B [5] []
    let h := s.hw
    let k := q.w 0
    let after : Hw := (((h.onTss (fun t => { t with admitted := kvDel t.admitted k })).wn (Reg.TSS_STREAM_BOUND k) 0xFFFFFFFF).wn
        (Reg.TSS_STREAM_DECLARED k) 0xFFFFFFFF).countBroken
    s.hw.runs owner slot 0x050B q ∧
    (∀ chk ∈ ([h.deny owner 2 k, q.reserved [4095], noObj (kvGet h.tss.admitted k).isNone 2 k] : List Check), chk.1 = false) ∧
    h.clean after noDeadlock)) ∧
  ((let s : State := tGcs 1 0x050C [5] [] (fun h => h.onTss (fun t => { t with admitted := [(5, ⟨1000, 3, 6, 100, 4, some 1⟩)] }))
    let owner : Nat := 1
    let slot : Nat := 0
    let q : Slot := tSlot 0x050C [5] []
    let h := s.hw
    let k := q.w 0
    let adm : Admitted := ⟨1000, 3, 6, 100, 4, some 1⟩
    let after : Hw := h
    s.hw.runs owner slot 0x050C q ∧
    (∀ chk ∈ ([h.denyRead owner 2 k, q.reserved [4095]] : List Check), chk.1 = false) ∧
    (kvGet h.tss.admitted k = some adm) ∧
    h.clean after noDeadlock)) ∧
  ((let s : State := tGcs 1 0x050D [200, 0, 1310730, 0] [] (fun h => tReady h)
    let owner : Nat := 1
    let slot : Nat := 0
    let q : Slot := tSlot 0x050D [200, 0, 1310730, 0] []
    let h := s.hw
    let pc := q.w 0
    let c := q.w 1
    let dq := getF c Fld.SWC_VOQ_CFG_DEFAULT_QUOTA
    let modeM := getF c Fld.SWC_VOQ_CFG_MODE == 1
    let x := h.images [(Reg.SWC_VOQ_CFG pc, 0x7F03, c), (Reg.SWC_VOQ_THR pc, 0xFFFFFFFF, q.w 2), (Reg.SWC_VOQ_HDRM pc, 0xFFFF, q.w 3)]
    let after : Hw := (x.rehold [pc])
    s.hw.runs owner slot 0x050D q ∧
    (∀ chk ∈ ([h.denyAny owner ((1, pc / 8) :: (if modeM then [(20, dq)] else [])), q.reserved [255, 0x7F03, 0xFFFFFFFF, 0xFFFF],
        badAt (modeM && decide (64 ≤ dq) && decide (dq < 112)) 5,
        badAt (decide (pc < 160) && h.flag (Reg.MAC_EEE_CFG (pc / 8)) Fld.MAC_EEE_CFG_EN &&
          x.eeeShort (pc / 8) (h.fld (Reg.MAC_EEE_CFG (pc / 8)) Fld.MAC_EEE_CFG_TW_US)) 12, x.quotaCheck, (x.voqBroken pc, cDeadlock, ruleCode (pc / 8) (pc % 8))] : List Check), chk.1 = false) ∧
    h.clean after Hw.deadlocks)) ∧
  ((let s : State := tGcs 1 0x050E [5, 0] [] (fun h => tReady h)
    let owner : Nat := 1
    let slot : Nat := 0
    let q : Slot := tSlot 0x050E [5, 0] []
    let h := s.hw
    let k := q.w 0
    let c := q.w 1
    let n := getF c Fld.SWC_MMQ_CFG_MAX_FRAME_CELLS
    let x := h.cfg (Reg.SWC_MMQ_CFG k) 0x80FFFFFF c
    let after : Hw := x
    s.hw.runs owner slot 0x050E q ∧
    (∀ chk ∈ ([h.deny owner 20 k, q.reserved [127, 0x80FFFFFF], badAt (getF c Fld.SWC_MMQ_CFG_EN = 1 && (n = 0 || decide (36 < n))) 6,
        x.quotaCheck] : List Check), chk.1 = false) ∧
    h.clean after Hw.deadlocks)) ∧
  ((let s : State := tGcs 1 0x050F [0, 100, 100] [] (fun h => tReady h)
    let owner : Nat := 1
    let slot : Nat := 0
    let q : Slot := tSlot 0x050F [0, 100, 100] []
    let h := s.hw
    let x := h.images ([(Reg.SWC_SHARED_CFG, 0x3FFFF, q.w 1), (Reg.SWC_MAX_SOJOURN, 0xFFFF, q.w 2)] ++
      (if 4 ≤ q.payload.length then [(Reg.SWC_CFG, 7, q.w 3)] else []))
    let after : Hw := (x.rehold [0])
    s.hw.runs owner slot 0x050F q ∧
    (∀ chk ∈ ([only1 owner, q.reserved [0, 0x3FFFF, 0xFFFF, 7], badAt (q.w 2 = 0 || decide (2000 < q.w 2)) 8, x.quotaCheck] : List Check), chk.1 = false) ∧
    h.clean after Hw.serviceRules)) := by
  refine ⟨?_, ?_, ?_, ?_, ?_, ?_⟩ <;> decide +kernel

/-- The hypotheses of `Obligations.QosCommandsComplete` can be met (part 4). -/
theorem test_meets_QosCommandsComplete_4 :
  ((let s : State := tGcs 1 0x0510 [1, 2155888650, 1, 0, 0, 4] [5, 0, 0, 0] id
    let owner : Nat := 1
    let slot : Nat := 0
    let q : Slot := tSlot 0x0510 [1, 2155888650, 1, 0, 0, 4] [5, 0, 0, 0]
    let h := s.hw
    let k := q.w 0
    let c := q.w 1
    let en := getF c Fld.TSS_QS_CFG_EN == 1
    let n := if en then q.w 2 else 0
    let ws := q.bufWords n
    let iv := getF c Fld.TSS_QS_CFG_INTERVAL
    let dst := getF c Fld.TSS_QS_CFG_DEST
    let after : Hw := (
        let x := h.cfg (Reg.TSS_QS_CFG k) 0xF0FFFFFF c
        let x := x.onTss (fun t => { t with sweepAt := kvDel t.sweepAt k })
        if en then x.images ((List.range 256).map (fun i =>
          (Reg.TSS_QS_LIST k i, 0x80003FFF, if i < n then 2 ^ 31 + ws.getD i 0 else 0)))
        else x)
    s.hw.runs owner slot 0x0510 q ∧
    (∀ chk ∈ ([h.deny owner 15 k, (en && owner != 1 && (dst - 8192) / 8 != owner, cDenied, resWord 15 k),
        (ws.any (fun w => !h.maySample owner (w % 16384)), cDenied, resWord 15 k), q.reserved [3, 0xF0FFFFFF],
        badAt (en && (iv = 0 || decide (1000 < iv))) 4, badAt (en && (decide (dst < 8208) || decide (10256 ≤ dst))) 5,
        badAt (en && (n = 0 || decide (256 < n))) 8, badAt (en && q.w 5 != 4 * n) 20, badEntry ws (fun w => decide (16384 ≤ w))] : List Check), chk.1 = false) ∧
    h.clean after noDeadlock)) := by decide +kernel

/-- The hypotheses of `Obligations.VidCommandsComplete` can be met (part 1). -/
theorem test_meets_VidCommandsComplete :
  ((let s : State := tGcs 1 0x0601 [3, 0, 33000000, 0, 0, 8, 0, 0, 0] [] id
    let owner : Nat := 1
    let slot : Nat := 0
    let q : Slot := tSlot 0x0601 [3, 0, 33000000, 0, 0, 8, 0, 0, 0] []
    let h := s.hw
    let v := q.w 0
    let c := q.w 1
    let crc := getF c Fld.VIE_S_CFG_CRC_MODE
    let pix := getF (q.w 5) Fld.VIE_S_PIXEL_PIX_BITS
    let l : List (Nat × Nat × Nat) := [(Reg.VIE_S_CFG v, 0x7FFF8000, c), (Reg.VIE_S_NOMINAL v, 0xFFFFFFFF, q.w 2), (Reg.VIE_S_TIMING v, 0xFFFFFFFF, q.w 3),
        (Reg.VIE_S_FRAME v, 0xFFFFFF00, q.w 4), (Reg.VIE_S_PIXEL v, 0xFFFF011F, q.w 5), (Reg.VIE_S_COUNTER v, 0xFF030FFF, q.w 6),
        (Reg.VIE_S_AGE_MAX v, 0xFFFFFFFF, q.w 7), (Reg.VIE_S_TS_OFFSET v, 0xFFFFFFFF, q.w 8)]
    let x : Hw := l.foldl (fun b e => b.image e.1 e.2.1 e.2.2) (h.settled v)
    let after : Hw := h.setStream v l
    s.hw.runs owner slot 0x0601 q ∧
    (∀ chk ∈ ([h.denyAny owner ((3, v) :: (if getF c Fld.VIE_S_CFG_SYNC_EN = 1 then [(14, getF c Fld.VIE_S_CFG_SYNC)] else [])),
        q.reserved [63, 0xFFFFFF00, 0xFFFFFFFF, 0xFFFFFFFF, 0xFFFFFF00, 0xFFFF011F, 0xFF030FFF],
        badAt (crc = 1 || crc = 3 || decide (23 < getF c Fld.VIE_S_CFG_AGE_PORT)) 6, badAt (x.syncBad v) 8,
        badAt (decide (q.w 2 < getF (q.w 3) Fld.VIE_S_TIMING_SLACK_US * 1000)) 14,
        badAt (getF c Fld.VIE_S_CFG_FORMAT = 0 && (decide (pix < 8) || decide (16 < pix))) 20, badAt (x.latticeBad v) 24] : List Check), chk.1 = false) ∧
    (h.clean x noDeadlock) ∧
    h.clean after noDeadlock)) ∧
  ((let s : State := tGcs 1 0x0602 [3, 256] [] id
    let owner : Nat := 1
    let slot : Nat := 0
    let q : Slot := tSlot 0x0602 [3, 256] []
    let h := s.hw
    let v := q.w 0
    let c := bits (q.w 1) 14 8
    let after : Hw := (
        let x := h.cfg (Reg.VIE_S_CFG v) 0x80007F00 (2 ^ 31 + q.w 1)
        if x.answers (Reg.VIE_S_CFG v) then x.vieEnable v else x)
    s.hw.runs owner slot 0x0602 q ∧
    (∀ chk ∈ ([h.deny owner 3 v, q.reserved [63, 0x7F00], badAt (c.testBit 4 && !c.testBit 3) 5,
        badState (h.vcfg v Fld.VIE_S_CFG_EN = 1) 3 v] : List Check), chk.1 = false) ∧
    h.clean after noDeadlock)) ∧
  ((let s : State := tGcs 1 0x0603 [3] [] id
    let owner : Nat := 1
    let slot : Nat := 0
    let q : Slot := tSlot 0x0603 [3] []
    let h := s.hw
    let v := q.w 0
    let after : Hw := (if h.vcfg v Fld.VIE_S_CFG_EN = 1 then
          let x := (((kvGet h.vie.s v).bind (·.pend)).getD []).foldl (fun (a : Hw) w => a.wn w.1 w.2) h
          (x.vieDisable v).setFld (Reg.VIE_S_CFG v) Fld.VIE_S_CFG_EN 0
        else h)
    s.hw.runs owner slot 0x0603 q ∧
    (∀ chk ∈ ([h.deny owner 3 v, q.reserved [63]] : List Check), chk.1 = false) ∧
    h.clean after noDeadlock)) ∧
  ((let s : State := tGcs 1 0x0604 [3, 0, 0, 0] [] id
    let owner : Nat := 1
    let slot : Nat := 0
    let q : Slot := tSlot 0x0604 [3, 0, 0, 0] []
    let h := s.hw
    let v := q.w 0
    let l : List (Nat × Nat × Nat) := [(Reg.VIE_S_LAT_ORG v, 0xFFFFFFFF, q.w 1), (Reg.VIE_S_LAT_STEP v, 0xFFFFFFFF, q.w 2),
        (Reg.VIE_S_LAT_COUNT v, 0x1FFF1FFF, q.w 3)]
    let x : Hw := l.foldl (fun b e => b.image e.1 e.2.1 e.2.2) (h.settled v)
    let after : Hw := h.setStream v l
    s.hw.runs owner slot 0x0604 q ∧
    (∀ chk ∈ ([h.deny owner 3 v, q.reserved [63, 0xFFFFFFFF, 0xFFFFFFFF, 0x1FFF1FFF], badAt (x.latticeBad v) 12] : List Check), chk.1 = false) ∧
    (h.clean x noDeadlock) ∧
    h.clean after noDeadlock)) ∧
  ((let s : State := tGcs 1 0x0605 [3, 0, 0, 256, 0] [] id
    let owner : Nat := 1
    let slot : Nat := 0
    let q : Slot := tSlot 0x0605 [3, 0, 0, 256, 0] []
    let h := s.hw
    let v := q.w 0
    let f := q.w 4
    let fb := getF f Fld.VIE_S_FALLBACK_FB_STREAM
    let fbEn := getF f Fld.VIE_S_FALLBACK_FB_EN == 1
    let frEn := getF f Fld.VIE_S_FALLBACK_FRER_EN == 1
    let l : List (Nat × Nat × Nat) := [(Reg.VIE_S_THRESH v, 0x0FFFFFFF, q.w 1), (Reg.VIE_S_ACT v, 0x0FFFFFFF, q.w 2), (Reg.VIE_S_HYST v, 0xFFFFFF0F, q.w 3),
        (Reg.VIE_S_FALLBACK v, 0xBFF0003F, f)]
    let x : Hw := l.foldl (fun b e => b.image e.1 e.2.1 e.2.2) (h.settled v)
    let after : Hw := h.setStream v l
    s.hw.runs owner slot 0x0605 q ∧
    (∀ chk ∈ ([h.denyAny owner ((3, v) :: (if fbEn then [(3, fb)] else []) ++ (if frEn then [(19, getF f Fld.VIE_S_FALLBACK_FRER_PAIR)] else [])),
        q.reserved [63, 0x0FFFFFFF, 0x0FFFFFFF, 0xFFFFFF0F, 0xBFF0003F], badAt (getF (q.w 3) Fld.VIE_S_HYST_CLEAR_N = 0) 13,
        badAt (frEn && getF f Fld.VIE_S_FALLBACK_FRER_FORCE = 3) 18, badAt (fbEn && fb = v) 19] : List Check), chk.1 = false) ∧
    (h.clean x noDeadlock) ∧
    h.clean after noDeadlock)) ∧
  ((let s : State := tGcs 1 0x0606 [3, 0, 0] [] id
    let owner : Nat := 1
    let slot : Nat := 0
    let q : Slot := tSlot 0x0606 [3, 0, 0] []
    let h := s.hw
    let v := q.w 0
    let n := q.w 1
    let all := q.payload.length = 4
    let cfg := if all then q.w 3 else h.rn Reg.VIE_NOTICE_CFG
    let key := getF n Fld.VIE_S_NOTICE_NOTICE_VID * 2 ^ 48 + getF n Fld.VIE_S_NOTICE_NOTICE_DA_HI * 2 ^ 32 + q.w 2
    let x := h.setStream v [(Reg.VIE_S_NOTICE v, 0x8FFFFFFF, n), (Reg.VIE_S_NOTICE_DA v, 0xFFFFFFFF, q.w 2)]
    let x := if all then x.images [(Reg.VIE_NOTICE_CFG, 0x03FF00FF, cfg)] else x
    let after : Hw := x
    s.hw.runs owner slot 0x0606 q ∧
    (∀ chk ∈ ([h.deny owner 3 v, (cfg != h.rn Reg.VIE_NOTICE_CFG && owner != 1, cDenied, 0), q.reserved [63, 0x8FFFFFFF, 0xFFFFFFFF, 0x03FF00FF],
        badAt (decide (1000 < getF cfg Fld.VIE_NOTICE_CFG_HEARTBEAT_MS)) 14,
        badAt (bit n 31 && getF cfg Fld.VIE_NOTICE_CFG_SUBTYPE = 0) 12] : List Check), chk.1 = false) ∧
    (bit n 31 = false) ∧
    h.clean after noDeadlock)) := by
  refine ⟨?_, ?_, ?_, ?_, ?_, ?_⟩ <;> decide +kernel

/-- The hypotheses of `Obligations.VidCommandsComplete` can be met (part 2). -/
theorem test_meets_VidCommandsComplete_2 :
  ((let s : State := tGcs 1 0x0606 [3, 2148139008, 5, 65537] [] (fun h => h.wn Reg.FWD_SHADOW_SEQ 1)
    let owner : Nat := 1
    let slot : Nat := 0
    let q : Slot := tSlot 0x0606 [3, 2148139008, 5, 65537] []
    let h := s.hw
    let v := q.w 0
    let n := q.w 1
    let all := q.payload.length = 4
    let cfg := if all then q.w 3 else h.rn Reg.VIE_NOTICE_CFG
    let key := getF n Fld.VIE_S_NOTICE_NOTICE_VID * 2 ^ 48 + getF n Fld.VIE_S_NOTICE_NOTICE_DA_HI * 2 ^ 32 + q.w 2
    let x := h.setStream v [(Reg.VIE_S_NOTICE v, 0x8FFFFFFF, n), (Reg.VIE_S_NOTICE_DA v, 0xFFFFFFFF, q.w 2)]
    let x := if all then x.images [(Reg.VIE_NOTICE_CFG, 0x03FF00FF, cfg)] else x
    let y : Hw := (x.noticeEntry key).getD h
    let after : Hw := y
    s.hw.runs owner slot 0x0606 q ∧
    (∀ chk ∈ ([h.deny owner 3 v, (cfg != h.rn Reg.VIE_NOTICE_CFG && owner != 1, cDenied, 0), q.reserved [63, 0x8FFFFFFF, 0xFFFFFFFF, 0x03FF00FF],
        badAt (decide (1000 < getF cfg Fld.VIE_NOTICE_CFG_HEARTBEAT_MS)) 14,
        badAt (bit n 31 && getF cfg Fld.VIE_NOTICE_CFG_SUBTYPE = 0) 12] : List Check), chk.1 = false) ∧
    (bit n 31 = true) ∧
    (x.noticeEntry key).isSome = true ∧
    h.clean after noDeadlock)) ∧
  ((let s : State := tGcs 1 0x0607 [2, 2147483648, 0] [] (fun h => (h.wn (Reg.TIME_PULSE_PERIOD 0) 1000000).wn (Reg.TIME_PULSE_WIDTH 0) 100)
    let owner : Nat := 1
    let slot : Nat := 0
    let q : Slot := tSlot 0x0607 [2, 2147483648, 0] []
    let h := s.hw
    let g := q.w 0
    let c := q.w 1
    let en := getF c Fld.VIE_SYNC_CFG_EN == 1
    let p := getF c Fld.VIE_SYNC_CFG_PULSE
    let tb := getF c Fld.VIE_SYNC_CFG_TB
    let old := h.rn (Reg.VIE_SYNC_CFG g)
    let oldP := getF old Fld.VIE_SYNC_CFG_PULSE
    let ms := (List.range 64).filter (fun v => (h.settled v).vcfg v Fld.VIE_S_CFG_SYNC_EN == 1 && (h.settled v).vcfg v Fld.VIE_S_CFG_SYNC == g)
    let per := match ms with
      | v :: _ => (h.settled v).rn (Reg.VIE_S_NOMINAL v)
      | [] => h.rn (Reg.TIME_PULSE_PERIOD p)
    let other := (List.range 8).find? (fun k => k != g && h.flag (Reg.VIE_SYNC_CFG k) Fld.VIE_SYNC_CFG_EN &&
      h.fld (Reg.VIE_SYNC_CFG k) Fld.VIE_SYNC_CFG_PULSE == p)
    let w := h.rn (Reg.TIME_PULSE_WIDTH p)
    let wOk := 8 ≤ w && w + 8 ≤ per
    let width := if wOk then w else 8 + h.draw % (per - 15)
    let after : Hw := (
        let x := h.images [(Reg.VIE_SYNC_CFG g, 0xFE0FFFFF, c), (Reg.VIE_SYNC_PHASE g, 0xFFFFFFFF, q.w 2)]
        let off (a : Hw) (n : Nat) : Hw := a.pulseSet n [0, a.rn (Reg.TIME_PULSE_START_S n), a.rn (Reg.TIME_PULSE_START_NS n),
          a.rn (Reg.TIME_PULSE_PERIOD n), a.rn (Reg.TIME_PULSE_WIDTH n)]
        let x := if getF old Fld.VIE_SYNC_CFG_EN = 1 && (!en || oldP != p) then off x oldP else x
        if en then
          let pol := if h.flag (Reg.TIME_PULSE_CFG p) Fld.TIME_PULSE_CFG_POL then 2 ^ 29 else 0
          (if wOk then x else x.drawn).pulseSet p [2 ^ 31 + 2 ^ 30 + pol + 2 ^ 28 + tb * 2 ^ 25, q.w 2 / 1000000000, q.w 2 % 1000000000, per, width]
        else x)
    s.hw.runs owner slot 0x0607 q ∧
    (∀ chk ∈ ([h.deny owner 14 g, q.reserved [7, 0xFE0FFFFF], badAt (en && ms.any (fun v => (h.settled v).vcfg v Fld.VIE_S_CFG_TB != tb)) 7,
        badAt (en && (ms.any (fun v => (h.settled v).rn (Reg.VIE_S_NOMINAL v) != per) || decide (per < 1000) || decide (4000000000 < per))) 4,
        conflict (en && other.isSome) 14 (other.getD 0)] : List Check), chk.1 = false) ∧
    h.clean after noDeadlock)) ∧
  ((let s : State := tGcs 1 0x0608 [3] [] id
    let owner : Nat := 1
    let slot : Nat := 0
    let q : Slot := tSlot 0x0608 [3] []
    let h := s.hw
    let v := q.w 0
    let after : Hw := h
    s.hw.runs owner slot 0x0608 q ∧
    (∀ chk ∈ ([h.denyRead owner 3 v, q.reserved [63]] : List Check), chk.1 = false) ∧
    h.clean after noDeadlock)) ∧
  ((let s : State := tGcs 1 0x0609 [3, 0, 0, 0, 0] [] id
    let owner : Nat := 1
    let slot : Nat := 0
    let q : Slot := tSlot 0x0609 [3, 0, 0, 0, 0] []
    let h := s.hw
    let r := q.w 0
    let c := q.w 1
    let en := getF c Fld.RSV_RING_CFG_EN == 1
    let was := h.flag (Reg.RSV_RING_CFG r) Fld.RSV_RING_CFG_EN
    let v := getF c Fld.RSV_RING_CFG_STREAM
    let b := q.w 2
    let n := q.w 3
    let on (k : Nat) : Bool := k != r && h.flag (Reg.RSV_RING_CFG k) Fld.RSV_RING_CFG_EN
    let moved := h.fld (Reg.RSV_RING_CFG r) Fld.RSV_RING_CFG_STREAM != v || h.rn (Reg.RSV_RING_BASE r) != b || h.rn (Reg.RSV_RING_SIZE r) != n
    let other := (List.range 16).find? (fun k => on k && (h.fld (Reg.RSV_RING_CFG k) Fld.RSV_RING_CFG_STREAM == v ||
      overlaps b n (h.rn (Reg.RSV_RING_BASE k)) (h.rn (Reg.RSV_RING_SIZE k))))
    let region (i : Nat) : Bool := h.flag (Reg.MEM_LPDDR_REGION i) Fld.MEM_LPDDR_REGION_EN
    let base (i : Nat) : Nat := h.fld (Reg.MEM_LPDDR_REGION i) Fld.MEM_LPDDR_REGION_BASE_MIB
    let size (i : Nat) : Nat := h.rn (Reg.MEM_LPDDR_SIZE i)
    let isRsv (i : Nat) : Bool := h.fld (Reg.MEM_LPDDR_REGION i) Fld.MEM_LPDDR_REGION_TYPE == 3
    let foreign := (List.range 32).any (fun i => region i && !isRsv i && overlaps b n (base i) (size i))
    let inside := (List.range 32).any (fun i => region i && isRsv i && decide (base i ≤ b) && decide (b + n ≤ base i + size i))
    let after : Hw := (
        let x := h.images ([(Reg.RSV_RING_CFG r, 0xFF00FFFF, c), (Reg.RSV_RING_BASE r, 0x1FFF, b), (Reg.RSV_RING_SIZE r, 0x1FFF, n)] ++
          (List.range 4).map (fun k => (Reg.RSV_TRIG_MASK k, 2 ^ r, if bit (q.w 4) k then 2 ^ r else 0)))
        if en && was then x
        else (((x.onVie (fun w => { w with ring := kvDel w.ring r })).wn (Reg.RSV_RING_FILL r) 0).wn (Reg.RSV_RING_STATE r) en.toNat))
    s.hw.runs owner slot 0x0609 q ∧
    (∀ chk ∈ ([h.deny owner 11 r, h.denyRead owner 3 v, q.reserved [15, 0xFF00FFFF, 0x1FFF, 0x1FFF, 15],
        badAt (decide (60000 < getF c Fld.RSV_RING_CFG_POST_MS)) 4, badAt (en && n = 0) 12,
        noObj (en && !inside && !foreign) 11 r, badState (en && was && moved) 11 r, (en && foreign, cConflict, 0),
        conflict (en && other.isSome) 11 (other.getD 0)] : List Check), chk.1 = false) ∧
    h.clean after noDeadlock)) ∧
  ((let s : State := tGcs 1 0x060A [3] [] (fun h => h.wn (Reg.RSV_RING_STATE 3) 3)
    let owner : Nat := 1
    let slot : Nat := 0
    let q : Slot := tSlot 0x060A [3] []
    let h := s.hw
    let r := q.w 0
    let after : Hw := ((h.onRing r (fun x => { x with trig := [], trigAt := none, postEnd := 0 })).wn (Reg.RSV_RING_STATE r) 1)
    s.hw.runs owner slot 0x060A q ∧
    (∀ chk ∈ ([h.deny owner 11 r, q.reserved [15], badState (h.fld (Reg.RSV_RING_STATE r) Fld.RSV_RING_STATE_STATE != 3) 11 r] : List Check), chk.1 = false) ∧
    h.clean after noDeadlock)) ∧
  ((let s : State := tGcs 2 0x060B [2, 8208] [] (fun h => ((((h.setFld Reg.PWR_DOMAIN_PG_HI ⟨31, 0⟩ 0xFFFFFFFF).setFld Reg.PWR_READY ⟨11, 11⟩ 1).onVie (fun w => { w with ring := [(2, ⟨[⟨0, 0, [3], List.replicate 64 0⟩], [], [], [], 0, false, 0, [], none, some 7⟩)] })).onSec (fun x => { x with mo := [(1, 7)] })).onOwn (fun o => { o with active := [0, 1, 2], conf := [(184549378, 2)] }))
    let owner : Nat := 2
    let slot : Nat := 0
    let q : Slot := tSlot 0x060B [2, 8208] []
    let h := s.hw
    let r := q.w 0
    let dst := q.w 1
    let own := 8208 ≤ dst && dst < 10256 && (dst - 8192) / 8 == owner
    let l : List (List Byte) := (h.ringData r).getD []
    let after : Hw := (h.onRingAt (dst - 8208) (fun x => { x with pend := x.pend ++ l.map (fun b => ⟨none, 5, b, h.clk⟩) })).showRing (dst - 8208)
    s.hw.runs owner slot 0x060B q ∧
    (∀ chk ∈ ([h.denyRead owner 11 r, (!own, cDenied, resWord 11 r), q.reserved [15, 0x3FFF], noObj (kvGet h.vie.ring r).isNone 11 r] : List Check), chk.1 = false) ∧
    (h.ringData r).isSome = true ∧
    h.clean after noDeadlock)) := by
  refine ⟨?_, ?_, ?_, ?_, ?_, ?_⟩ <;> decide +kernel

/-- The hypotheses of `Obligations.VidCommandsComplete` can be met (part 3). -/
theorem test_meets_VidCommandsComplete_3 :
  ((let s : State := tGcs 1 0x060C [2, 4096, 0, 64] [] (fun h => (((h.setFld Reg.PWR_DOMAIN_PG_HI ⟨31, 0⟩ 0xFFFFFFFF).setFld Reg.PWR_READY ⟨11, 11⟩ 1).onVie (fun w => { w with ring := [(2, ⟨[⟨0, 0, [3], List.replicate 64 0⟩], [], [], [], 0, false, 0, [], none, some 7⟩)] })).onSec (fun x => { x with mo := [(1, 7)], pubs := [(1, [1])] }))
    let owner : Nat := 1
    let slot : Nat := 0
    let q : Slot := tSlot 0x060C [2, 4096, 0, 64] []
    let h := s.hw
    let r := q.w 0
    let kt : BitVec 256 := (h.transportKey s.fuse owner).getD 0
    let l : List (List Byte) := (h.ringData r).getD []
    let k := kdfKey kt lbXprt (toBe 1 r)
    let iv := toBe 12 h.draw
    let ct := gcmXor k iv l.flatten
    let out := iv ++ ct ++ toBe 16 (gcmTag k iv (toLe 4 r) ct).toNat
    let after : Hw := h.drawn.emit (.hostWrite owner (q.w64 1) ((wordsOf ((out.length + 3) / 4) out).take (q.w 3 / 4)))
    s.hw.runs owner slot 0x060C q ∧
    (∀ chk ∈ ([h.denyRead owner 11 r, q.reserved [15], noObj (kvGet h.vie.ring r).isNone 11 r] : List Check), chk.1 = false) ∧
    (h.transportKey s.fuse owner).isSome = true ∧
    (h.ringData r).isSome = true ∧
    (owner < 2 ∨ 257 < owner ∨ (h.hdma.linkUp = true ∧ (h.pciFn owner).busMaster = true)) ∧
    h.clean after noDeadlock)) ∧
  ((let s : State := tGcs 1 0x060D [0] [] id
    let owner : Nat := 1
    let slot : Nat := 0
    let q : Slot := tSlot 0x060D [0] []
    let h := s.hw
    let k := q.w 0
    let after : Hw := (h.runTask (4 + k) [])
    s.hw.runs owner slot 0x060D q ∧
    (∀ chk ∈ ([h.denyAny owner ((bitsOf 16 (h.rn (Reg.RSV_TRIG_MASK k))).map (fun r => (11, r))), badAt (decide (4 ≤ k)) 0] : List Check), chk.1 = false) ∧
    h.clean after noDeadlock)) := by
  refine ⟨?_, ?_⟩ <;> decide +kernel

/-- The hypotheses of `Obligations.FbusCommandsComplete` can be met (part 1). -/
theorem test_meets_FbusCommandsComplete :
  ((let s : State := tGcs 1 0x0701 [3, 0, 10424079, 918275, 0] [] id
    let owner : Nat := 1
    let slot : Nat := 0
    let q : Slot := tSlot 0x0701 [3, 0, 10424079, 918275, 0] []
    let h := s.hw
    let c := q.w 0
    let cfg := q.w 1
    let en := getF cfg Fld.CAN_CFG_EN == 1
    let was := h.flag (Reg.CAN_CFG c) Fld.CAN_CFG_EN
    let tms := getF cfg Fld.CAN_CFG_XL_TMS == 1
    let moved := h.rn (Reg.CAN_NBT c) != q.w 2 || h.rn (Reg.CAN_DBT c) != q.w 3
    let x := h.images [(Reg.CAN_CFG c, 0xFFFF8000, cfg), (Reg.CAN_NBT c, 0xFFFFFF7F, q.w 2), (Reg.CAN_DBT c, 0x1F3F1F1F, q.w 3),
      (Reg.CAN_XL_PWM c, 0xFFFFFF, q.w 4)]
    let after : Hw := (if en != was then x.canToggle c else x)
    s.hw.runs owner slot 0x0701 q ∧
    (∀ chk ∈ (([h.deny owner 4 c, q.reserved [0x3F, 0xFFFF8000, 0xFFFFFF7F, 0x1F3F1F1F, 0xFFFFFF], badAt (decide (48 ≤ c)) 0,
        badAt (getF cfg Fld.CAN_CFG_NOMATCH = 3) 6, badAt (getF cfg Fld.CAN_CFG_MODE = 3) 7] ++
        timingChecks (q.w 2) (q.w 3) (getF cfg Fld.CAN_CFG_FD_EN == 1) (getF cfg Fld.CAN_CFG_XL_EN == 1) ++
        [badAt (h.flag (Reg.CAN_TDC c) Fld.CAN_TDC_EN && decide (datBit (q.w 3) < 8) && !tms) 15] ++
        (List.range 3).map (fun i => badAt (tms && bits (q.w 4) (8 * i + 7) (8 * i) = 0) (16 + i)) ++
        [badAt (en && x.schedBad c && !(was && h.schedBad c)) 8, badState (was && moved) 4 c]) : List Check), chk.1 = false) ∧
    h.clean after Hw.deadlocks)) ∧
  ((let s : State := tGcs 1 0x0702 [3, 20] [] id
    let owner : Nat := 1
    let slot : Nat := 0
    let q : Slot := tSlot 0x0702 [3, 20] []
    let h := s.hw
    let c := q.w 0
    let after : Hw := (h.cfg (Reg.CAN_TDC c) 0x800000FF (q.w 1))
    s.hw.runs owner slot 0x0702 q ∧
    (∀ chk ∈ ([h.deny owner 4 c, q.reserved [0x3F, 0x800000FF], badAt (decide (48 ≤ c)) 0,
        badAt (bit (q.w 1) 31 && decide (datBit (h.rn (Reg.CAN_DBT c)) < 8) && !h.flag (Reg.CAN_CFG c) Fld.CAN_CFG_XL_TMS) 7] : List Check), chk.1 = false) ∧
    h.clean after noDeadlock)) ∧
  ((let s : State := tGcs 1 0x0703 [66051, 0, 0, 8] [1, 0, 0, 0, 255, 0, 0, 0] id
    let owner : Nat := 1
    let slot : Nat := 0
    let q : Slot := tSlot 0x0703 [66051, 0, 0, 8] [1, 0, 0, 0, 255, 0, 0, 0]
    let h := s.hw
    let c := q.w 0 % 64
    let first := bits (q.w 0) 13 8
    let n := bits (q.w 0) 22 16
    let ws := q.bufWords (2 * n)
    let after : Hw := (h.onCan c (fun x => { x with filt := x.filt ++ (List.range n).flatMap (fun i =>
        [(Reg.CAN_FILT_VAL c (first + i), ws.getD (2 * i) 0), (Reg.CAN_FILT_MASK c (first + i), ws.getD (2 * i + 1) 0)]) }))
    s.hw.runs owner slot 0x0703 q ∧
    (∀ chk ∈ ([h.deny owner 4 c, q.reserved [0x7F3F3F], badAt (decide (48 ≤ c)) 0, badAt (n = 0 || decide (64 < first + n)) 2,
        badAt (q.w 3 != 8 * n) 12] : List Check), chk.1 = false) ∧
    h.clean after noDeadlock)) ∧
  ((let s : State := tGcs 1 0x0704 [3, 1, 5] [] id
    let owner : Nat := 1
    let slot : Nat := 0
    let q : Slot := tSlot 0x0704 [3, 1, 5] []
    let h := s.hw
    let c := q.w 0
    let after : Hw := (h.images [(Reg.CAN_RXQ_CFG c, 0xC000000F, q.w 1), (Reg.CAN_TXQ_CFG c, 0xFFFF, q.w 2)])
    s.hw.runs owner slot 0x0704 q ∧
    (∀ chk ∈ ([h.deny owner 4 c, q.reserved [0x3F, 0xC000000F, 0xFFFF], badAt (decide (48 ≤ c)) 0, badAt (q.w 1 % 16 = 0) 4] : List Check), chk.1 = false) ∧
    h.clean after noDeadlock)) ∧
  ((let s : State := tGcs 1 0x0705 [3] [] (fun h => h.setFld (Reg.CAN_STATUS 3) Fld.CAN_STATUS_ERR_STATE 2)
    let owner : Nat := 1
    let slot : Nat := 0
    let q : Slot := tSlot 0x0705 [3] []
    let h := s.hw
    let c := q.w 0
    let after : Hw := (h.onCan c (fun x => { x with recover := true }))
    s.hw.runs owner slot 0x0705 q ∧
    (∀ chk ∈ ([h.deny owner 4 c, q.reserved [0x3F], badAt (decide (48 ≤ c)) 0, badState (h.canErr c != 2) 4 c] : List Check), chk.1 = false) ∧
    h.clean after noDeadlock)) ∧
  ((let s : State := tGcs 1 0x0706 [3, 0] [] id
    let owner : Nat := 1
    let slot : Nat := 0
    let q : Slot := tSlot 0x0706 [3, 0] []
    let h := s.hw
    let c := q.w 0
    let en := bit (q.w 1) 31
    let ws := q.bufWords 384
    let writes := schedWrites c ws
    let x := h.images [(Reg.CAN_SCHED_CFG c, 0xF7001FFF, q.w 1), (Reg.CAN_SCHED_CYCLE_NS c, 0xFFFFFFFF, q.w 2),
      (Reg.CAN_SCHED_BASE_S c, 0xFFFFFFFF, q.w 3), (Reg.CAN_SCHED_BASE_NS c, 0xFFFFFFFF, q.w 4)]
    let same := h.flag (Reg.CAN_SCHED_CFG c) Fld.CAN_SCHED_CFG_EN && bits (q.w 1) 30 24 == bits (h.rn (Reg.CAN_SCHED_CFG c)) 30 24 &&
      h.cycNs c == q.w 2 && h.rn (Reg.CAN_SCHED_BASE_S c) == q.w 3 && h.rn (Reg.CAN_SCHED_BASE_NS c) == q.w 4
    let y := (x.onCan c (fun k => { k with sched := [] })).images (writes.map (fun w => (w.1, 0xFFFFFFFF, w.2)))
    let common := [h.deny owner 4 c, q.reserved [0x3F, 0xF7001FFF], badAt (decide (48 ≤ c)) 0]
    let after : Hw := (h.cfg (Reg.CAN_SCHED_CFG c) 0xF7001FFF (q.w 1)).onCan c (fun k => { k with cycle := none, live := [], stepped := false, startAt := none })
    s.hw.runs owner slot 0x0706 q ∧
    (∀ chk ∈ (common : List Check), chk.1 = false) ∧
    (en = false) ∧
    h.clean after noDeadlock)) := by
  refine ⟨?_, ?_, ?_, ?_, ?_, ?_⟩ <;> decide +kernel

/-- The hypotheses of `Obligations.FbusCommandsComplete` can be met (part 2). -/
theorem test_meets_FbusCommandsComplete_2 :
  ((let s : State := tGcs 1 0x0707 [259, 4, 291, 0, 43707] [] id
    let owner : Nat := 1
    let slot : Nat := 0
    let q : Slot := tSlot 0x0707 [259, 4, 291, 0, 43707] []
    let h := s.hw
    let c := q.w 0 % 64
    let b := bits (q.w 0) 13 8
    let msg := messageFor c (q.payload.drop 1)
    let x := h.bufferWrite c b msg
    let after : Hw := x
    s.hw.runs owner slot 0x0707 q ∧
    (∀ chk ∈ ([h.deny owner 4 c, q.reserved [0x3F3F, 0xFFFE0FFF], badAt (decide (48 ≤ c)) 0, badAt (h.badMessage c msg 64) 4,
        badAt (x.schedBad c && !h.schedBad c) 4] : List Check), chk.1 = false) ∧
    h.clean after noDeadlock)) ∧
  ((let s : State := tGcs 1 0x0708 [3, 4, 291, 0, 43707] [] id
    let owner : Nat := 1
    let slot : Nat := 0
    let q : Slot := tSlot 0x0708 [3, 4, 291, 0, 43707] []
    let h := s.hw
    let c := q.w 0 % 64
    let far := bit (q.w 0) 31
    let msg := messageFor c (if far then q.bufWords (q.w 3 / 4) else q.payload.drop 1)
    let r := h.canRequest c msg
    let after : Hw := r.2
    s.hw.runs owner slot 0x0708 q ∧
    (∀ chk ∈ ([h.deny owner 4 c, q.reserved [0x8000003F], badAt (decide (48 ≤ c)) 0, badAt (h.badMessage c msg 2048) (if far then 0 else 4)] : List Check), chk.1 = false) ∧
    (r.1 = true) ∧
    h.clean after noDeadlock)) ∧
  ((let s : State := tGcs 1 0x0708 [3, 4, 291, 0, 43707] [] (fun h => h.onCan 3 (fun k => { k with txq := List.replicate 32 ⟨[4, 0, 0, 0], 0, none, 0, false⟩ }))
    let owner : Nat := 1
    let slot : Nat := 0
    let q : Slot := tSlot 0x0708 [3, 4, 291, 0, 43707] []
    let h := s.hw
    let c := q.w 0 % 64
    let far := bit (q.w 0) 31
    let msg := messageFor c (if far then q.bufWords (q.w 3 / 4) else q.payload.drop 1)
    let r := h.canRequest c msg
    s.hw.runs owner slot 0x0708 q ∧
    (∀ chk ∈ ([h.deny owner 4 c, q.reserved [0x8000003F], badAt (decide (48 ≤ c)) 0, badAt (h.badMessage c msg 2048) (if far then 0 else 4)] : List Check), chk.1 = false) ∧
    (r.1 = false))) ∧
  ((let s : State := tGcs 1 0x0709 [2, 2147483648, 10000, 65536270] [] id
    let owner : Nat := 1
    let slot : Nat := 0
    let q : Slot := tSlot 0x0709 [2, 2147483648, 10000, 65536270] []
    let h := s.hw
    let l := q.w 0
    let t := q.w 3
    let x := h.images [(Reg.LIN_CFG l, 0xF8000000, q.w 1), (Reg.LIN_RATE l, 0xFFFF, q.w 2), (Reg.LIN_TIMING l, 0xFFFFFF1F, t)]
    let stop := !bit (q.w 1) 31 || bit (q.w 1) 30 != h.linResponder l
    let after : Hw := (if stop then (x.setFld (Reg.LIN_STATUS l) Fld.LIN_STATUS_BUS_ACTIVE 0).onLin l (fun k => { k with
        await := none, sent := none, coll := none, collNext := none, running := false }) else x)
    s.hw.runs owner slot 0x0709 q ∧
    (∀ chk ∈ ([h.deny owner 5 l, q.reserved [15, 0xF8000000, 0xFFFF, 0xFFFFFF1F], badAt (decide (q.w 2 < 1000) || decide (20000 < q.w 2)) 8,
        badAt (!x.delaysFit l && h.delaysFit l) 8, badAt (decide (t % 32 < 13) || decide (26 < t % 32)) 12,
        badAt (bits t 11 8 = 0 || decide (4 < bits t 11 8) || decide (6 < bits t 15 12)) 13,
        badAt (decide (bits t 31 16 < 250) || decide (5000 < bits t 31 16)) 14] : List Check), chk.1 = false) ∧
    h.clean after noDeadlock)) ∧
  ((let s : State := tGcs 1 0x070A [1026, 0, 0, 256] (List.replicate 256 0) id
    let owner : Nat := 1
    let slot : Nat := 0
    let q : Slot := tSlot 0x070A [1026, 0, 0, 256] (List.replicate 256 0)
    let h := s.hw
    let l := q.w 0 % 16
    let k := bits (q.w 0) 10 8
    let n := if k = 5 then 16 else 64
    let ws := q.bufWords n
    let x := h.images ((List.range n).map (fun i =>
      (if k < 4 then Reg.LIN_SCHED l k i else if k = 4 then Reg.LIN_FRAME l i else Reg.LIN_SPORADIC l i, 0xFFFFFFFF, ws.getD i 0)))
    let after : Hw := x
    s.hw.runs owner slot 0x070A q ∧
    (∀ chk ∈ ([h.deny owner 5 l, q.reserved [0x70F], badAt (decide (5 < k)) 1, badAt (q.w 3 != 4 * n) 12,
        reservedIn ws (List.replicate n (if k < 4 then 0xFC3FFFFF else if k = 4 then 0x7F else 0xBFBFBFBF)),
        badEntry ws (fun e => if k < 4 then decide (4 < bits e 30 28) else k == 4 &&
          (e % 4 == 3 || (e % 4 != 0 && (bits e 5 2 == 0 || decide (8 < bits e 5 2))))),
        badEntry ws (fun e => decide (k < 4) && !delayFits (h.linLen l) (h.sporadicIds l) (h.rn (Reg.LIN_RATE l) % 65536) e),
        badAt (decide (4 ≤ k) && !x.delaysFit l && h.delaysFit l) 0] : List Check), chk.1 = false) ∧
    h.clean after noDeadlock)) ∧
  ((let s : State := tGcs 1 0x070B [2, 2147483649] [] id
    let owner : Nat := 1
    let slot : Nat := 0
    let q : Slot := tSlot 0x070B [2, 2147483649] []
    let h := s.hw
    let l := q.w 0
    let after : Hw := (
        let x := h.cfg (Reg.LIN_SCHED_CTRL l) 0x80000003 (q.w 1)
        if bit (q.w 1) 31 then x else x.onLin l (fun k => { k with running := false, coll := none, collNext := none }))
    s.hw.runs owner slot 0x070B q ∧
    (∀ chk ∈ ([h.deny owner 5 l, q.reserved [15, 0x80000003]] : List Check), chk.1 = false) ∧
    h.clean after noDeadlock)) := by
  refine ⟨?_, ?_, ?_, ?_, ?_, ?_⟩ <;> decide +kernel

/-- The hypotheses of `Obligations.FbusCommandsComplete` can be met (part 3). -/
theorem test_meets_FbusCommandsComplete_3 :
  ((let s : State := tGcs 1 0x070C [2] [] (fun h => (h.setFld Reg.FBUS_STATUS Fld.FBUS_STATUS_LIN_READY 1).setFld (Reg.LIN_CFG 2) Fld.LIN_CFG_EN 1)
    let owner : Nat := 1
    let slot : Nat := 0
    let q : Slot := tSlot 0x070C [2] []
    let h := s.hw
    let l := q.w 0
    let after : Hw := ((h.onLin l (fun k => { k with waking := some (h.clk + h.fld (Reg.LIN_TIMING l) Fld.LIN_TIMING_WAKE_US * 500) })).emit (.pin (.linTx l) (some false)))
    s.hw.runs owner slot 0x070C q ∧
    (∀ chk ∈ ([h.deny owner 5 l, q.reserved [15], noObj (!h.linOn l) 5 l] : List Check), chk.1 = false) ∧
    h.clean after noDeadlock)) ∧
  ((let s : State := tGcs 1 0x070D [2, 2147483648, 291, 2047, 0, 0, 0, 0] [] id
    let owner : Nat := 1
    let slot : Nat := 0
    let q : Slot := tSlot 0x070D [2, 2147483648, 291, 2047, 0, 0, 0, 0] []
    let h := s.hw
    let w := q.w 0
    let after : Hw := (h.images [(Reg.CANW_CFG w, 0xFE00000F, q.w 1), (Reg.CANW_ID w, 0x1FFFFFFF, q.w 2), (Reg.CANW_ID_MASK w, 0x1FFFFFFF, q.w 3),
        (Reg.CANW_DATA_LO w, 0xFFFFFFFF, q.w 4), (Reg.CANW_DATA_HI w, 0xFFFFFFFF, q.w 5), (Reg.CANW_DMASK_LO w, 0xFFFFFFFF, q.w 6),
        (Reg.CANW_DMASK_HI w, 0xFFFFFFFF, q.w 7)])
    s.hw.runs owner slot 0x070D q ∧
    (∀ chk ∈ ([h.deny owner 4 w, q.reserved [7, 0xFE00000F, 0x1FFFFFFF, 0x1FFFFFFF]] : List Check), chk.1 = false) ∧
    h.clean after noDeadlock)) ∧
  ((let s : State := tGcs 1 0x070E [5, 2147491856] [] (fun h => h.onOwn (fun o => { o with active := [0, 1, 2] }))
    let owner : Nat := 1
    let slot : Nat := 0
    let q : Slot := tSlot 0x070E [5, 2147491856] []
    let h := s.hw
    let f := q.w 0
    let dst := q.w 1 % 2 ^ 14
    let en := bit (q.w 1) 31 && !bit (q.w 1) 30
    let after : Hw := (h.cfg (Reg.FBUS_RILL_CFG f) 0xC0003FFF (q.w 1))
    s.hw.runs owner slot 0x070E q ∧
    (∀ chk ∈ ([h.deny owner 10 f, (en && owner != 1 && (dst - 8192) / 8 != owner, cDenied, resWord 10 f), q.reserved [63, 0xC0003FFF],
        badAt (en && (decide (dst < 8208) || decide (8208 + 2048 ≤ dst))) 4,
        (en && !h.own.active.contains ((dst - 8192) / 8), cNoObject, resWord 10 f)] : List Check), chk.1 = false) ∧
    h.clean after noDeadlock)) := by
  refine ⟨?_, ?_, ?_⟩ <;> decide +kernel

/-- The hypotheses of `Obligations.GwyCommandsComplete` can be met (part 1). -/
theorem test_meets_GwyCommandsComplete :
  ((let s : State := tGcs 1 0x0801 [65535, 2147483939, 0, 0, 281018368, 0, 0, 0, 0] [] id
    let owner : Nat := 1
    let slot : Nat := 0
    let q : Slot := tSlot 0x0801 [65535, 2147483939, 0, 0, 281018368, 0, 0, 0, 0] []
    let h := s.hw
        let r := ruleOf q.payload
    let chained := bit (q.payload.getD 0 0) 16
    let i := q.payload.getD 0 0 % 65536
    let upd := i != 65535
    let old := kvGet h.brg.rules i
    let keep := upd && (match old with | some p => ruleKey p == ruleKey r | none => false)
    let place := if keep then some i else h.freeRule owner
    let x := h.onBrg (fun b => { b with rules := kvPut (if upd then kvDel b.rules i else b.rules) (place.getD 65536) r })
    let w2 := r.getD 2 0
    let handle := w2 % 4096
    let rated := ruleHead r && bit w2 15
    let dup := h.brg.rules.find? (fun e => !(upd && e.1 == i) && ruleHead e.2 && ruleHead r && ruleKey e.2 == ruleKey r)
    let mixed := firstNew Hw.tunnelsMixed h x
    let next := r.getD 7 0 % 65536
    let used := x.fwd.em.any (fun e => e.2.isStream && e.2.stream == handle) ||
      h.flag (Reg.TSS_SLUICE_FILTER handle) Fld.TSS_SLUICE_FILTER_EN
    let p : Nat := place.getD 7
    let after : Hw := x
    s.hw.runs owner slot 0x0801 q ∧
    (∀ chk ∈ (([if upd then h.deny owner 16 (i / 256) else ((List.range 256).all (fun b => !h.mayConf owner 16 b), cDenied, resWord 16 0),
        h.denyAny owner (ruleNames r), (if bit w2 31 then denyOwner owner (bits w2 24 16) else (false, 0, 0)),
        reservedIn q.payload ([0x1FFFF] ++ (if chained then [0xFFFFFFFF, 0xFFFFFFFF, 0xFFFFFFFF] else [0xDFFFFFFF, 0xFFF00FFF, 0x81FF8FFF]) ++
          ((q.payload.drop 4).take 4).map destMask ++ [0x8FFFFFFF])] ++ ruleChecks r ++
        [badAt (firstNew (fun a => a.headsWith (fun b e => decide (4 < b.chainLen 5 e))) h x).isSome 35,
         badAt (firstNew (fun a => a.headsWith Hw.formatBad) h x).isSome 18,
         badAt (firstNew (fun a => a.headsWith Hw.authBad) h x).isSome 8,
         badAt (rated && h.fld (Reg.TSS_WEIR_RATE (768 + handle)) Fld.TSS_WEIR_RATE_ACTION = 1) 13,
         badAt (firstNew Hw.guardsShort h x).isSome 16,
         noObj (upd && old.isNone) 16 (i / 256), noObj (bit (r.getD 7 0) 31 && (kvGet x.brg.rules next).isNone) 16 (next / 256),
         (bit w2 31 && !h.alive (bits w2 24 16), cNoObject, bits w2 24 16),
         (match dup with | some e => (true, cConflict, resWord 16 (e.1 / 256)) | none => (false, 0, 0)),
         conflict (rated && used) 2 handle, conflict mixed.isSome 12 (mixed.getD 0), loopCheck h x]) : List Check), chk.1 = false) ∧
    (place = some p) ∧
    h.clean after Hw.deadlocks)) ∧
  ((let s : State := tGcs 1 0x0802 [5] [] (fun h => h.onBrg (fun b => { b with rules := [(5, [0x80000123, 0, 0, 0, 0, 0, 0, 0])] }))
    let owner : Nat := 1
    let slot : Nat := 0
    let q : Slot := tSlot 0x0802 [5] []
    let h := s.hw
    let i := q.w 0 % 65536
    let x := if bit (q.w 0) 16 then h.ruleAt (bits (q.w 2) 31 25) (bits (q.w 2) 24 23) (bit (q.w 1) 30) (q.w 1 % 2 ^ 29)
      else (kvGet h.brg.rules i).map (fun r => (i, r))
    let masks := [0x1FFFF, 0x5FFFFFFF, 0xFF800000]
    let k : Nat := 5
    let r : List Nat := [0x80000123, 0, 0, 0, 0, 0, 0, 0]
    let after : Hw := h
    s.hw.runs owner slot 0x0802 q ∧
    (∀ chk ∈ ([h.denyRead owner 16 (k / 256), q.reserved masks] : List Check), chk.1 = false) ∧
    (x = some (k, r)) ∧
    h.clean after noDeadlock)) ∧
  ((let s : State := tGcs 1 0x0803 [5] [] (fun h => h.onBrg (fun b => { b with rules := [(5, [0x80000123, 0, 0, 0, 0, 0, 0, 0])] }))
    let owner : Nat := 1
    let slot : Nat := 0
    let q : Slot := tSlot 0x0803 [5] []
    let h := s.hw
    let i := q.w 0
    let x := h.onBrg (fun b => { b with rules := kvDel b.rules i })
    let after : Hw := x
    s.hw.runs owner slot 0x0803 q ∧
    (∀ chk ∈ ([h.deny owner 16 (i / 256), q.reserved [0xFFFF], noObj (kvGet h.brg.rules i).isNone 16 (i / 256), loopCheck h x] : List Check), chk.1 = false) ∧
    h.clean after noDeadlock)) ∧
  ((let s : State := tGcs 1 0x0804 [1, 0, 0, 36] (toLe 4 0xFFFF ++ toLe 4 0x80000123 ++ List.replicate 8 0 ++ toLe 4 0x10C00000 ++ List.replicate 16 0) id
    let owner : Nat := 1
    let slot : Nat := 0
    let q : Slot := tSlot 0x0804 [1, 0, 0, 36] (toLe 4 0xFFFF ++ toLe 4 0x80000123 ++ List.replicate 8 0 ++ toLe 4 0x10C00000 ++ List.replicate 16 0)
    let h := s.hw
    let n := q.w 0
    let ws := q.bufWords (9 * n)
    let r : Nat × Option (Nat × Nat) × Hw := runElements Hw.deadlocks (fun a i (_ : Nat) =>
        match a.ruleAdd owner ((ws.drop (9 * i)).take 9) with
        | .ok x _ => (none, x)
        | .wait x => (none, x)
        | .no c d _ x => (some (c, if c = cBadParam then 36 * i + d else d), x)) (List.range n) 0 h
    let after : Hw := r.2.2
    s.hw.runs owner slot 0x0804 q ∧
    (∀ chk ∈ ([q.reserved [0x3FF], badAt (n = 0 || decide (512 < n)) 0, badAt (q.w 3 != 36 * n) 12] : List Check), chk.1 = false) ∧
    (r.2.1 = none) ∧
    h.clean after Hw.deadlocks)) ∧
  ((let s : State := tGcs 1 0x0805 [3, 2147483648, 2147485695, 0, 0, 0] [] id
    let owner : Nat := 1
    let slot : Nat := 0
    let q : Slot := tSlot 0x0805 [3, 2147483648, 2147485695, 0, 0, 0] []
    let h := s.hw
    let k := q.w 0
    let x := h.images ((Reg.BRG_SRC_CFG k, 0xF0000000, q.w 1) ::
      (List.range 4).map (fun m => (Reg.BRG_SRC_MASK k m, 0x9FFFFFFF, q.w (2 + m))))
    let x := if bit (q.w 1) 29 then x
      else x.onBrg (fun b => { b with claims := b.claims.filter (fun (e : Nat × Nat × Nat) => e.1 / 256 != k) })
    let after : Hw := x
    s.hw.runs owner slot 0x0805 q ∧
    (∀ chk ∈ ([h.denyAny owner [srcRes k], q.reserved [127, 0xF0000000, 0x9FFFFFFF, 0x9FFFFFFF, 0x9FFFFFFF, 0x9FFFFFFF],
        badAt (decide (96 ≤ k)) 0, loopCheck h x] : List Check), chk.1 = false) ∧
    h.clean after noDeadlock)) ∧
  ((let s : State := tGcs 1 0x0806 [10, 291] [] id
    let owner : Nat := 1
    let slot : Nat := 0
    let q : Slot := tSlot 0x0806 [10, 291] []
    let h := s.hw
    let ws := q.payload.drop 1
    let x := h.onBrg (fun b => { b with rewr := (ws.mapIdx (fun i w => (q.w 0 + i, w))).foldl (fun m e => kvPut m e.1 e.2) b.rewr })
    let after : Hw := x
    s.hw.runs owner slot 0x0806 q ∧
    (∀ chk ∈ ([only1 owner, q.reserved (0xFFF :: ws.map (fun _ => 0x5FFFFFFF)), badAt (decide (4096 < q.w 0 + ws.length)) 0,
        badAt (firstNew Hw.guardsShort h x).isSome 4, loopCheck h x] : List Check), chk.1 = false) ∧
    h.clean after noDeadlock)) := by
  refine ⟨?_, ?_, ?_, ?_, ?_, ?_⟩ <;> decide +kernel

/-- The hypotheses of `Obligations.GwyCommandsComplete` can be met (part 2). -/
theorem test_meets_GwyCommandsComplete_2 :
  ((let s : State := tGcs 1 0x0807 [5, 2147483648, 268435456] [] (fun h => h.onBrg (fun b => { b with bufs := [(0, ⟨8, 8, 0, 0, 0, 0, 0, [], 0, 0⟩)] }))
    let owner : Nat := 1
    let slot : Nat := 0
    let q : Slot := tSlot 0x0807 [5, 2147483648, 268435456] []
    let h := s.hw
    let n := (q.payload.length - 1) / 2
    let ks := List.range n
    let a (i : Nat) : Nat := q.w (1 + 2 * i)
    let m (i : Nat) : SigMap := mapOf (a i) (q.w (2 + 2 * i)) h.clk
    let maps := ks.foldl (fun l i => if bit (a i) 31 then kvPut l (q.w 0 + i) (m i) else kvDel l (q.w 0 + i)) h.brg.maps
    let len (i : Nat) : Nat := match kvGet h.brg.bufs (m i).buf with | some b => b.len | none => 0
    let after : Hw := (h.onBrg (fun b => { b with maps := maps }))
    s.hw.runs owner slot 0x0807 q ∧
    (∀ chk ∈ (([only1 owner, q.reserved (0x1FFF :: ks.flatMap (fun _ => [0xFF0001FF, 0xFFFF01FF])),
        badAt (decide (8192 < q.w 0 + n)) 0, badAt (q.payload.length != 1 + 2 * n) 0] ++
        ks.map (fun i => badAt (bit (a i) 31 && ((m i).len = 0 || decide (64 < (m i).len))) (8 * i + 11)) ++
        ks.map (fun i => badAt (bit (a i) 31 && (m i).dstBits.any (fun p => decide (8 * len i ≤ p))) (8 * i + 8)) ++
        ks.map (fun i => (bit (a i) 31 && maps.any (fun e => e.1 != q.w 0 + i && clash e.2 (m i)), cConflict, 0))) : List Check), chk.1 = false) ∧
    h.clean after noDeadlock)) ∧
  ((let s : State := tGcs 1 0x0808 [2147483648, 8, 291, 281018368, 65536, 0] [] id
    let owner : Nat := 1
    let slot : Nat := 0
    let q : Slot := tSlot 0x0808 [2147483648, 8, 291, 281018368, 65536, 0] []
    let h := s.hw
    let i := q.w 0 % 512
    let valid := bit (q.w 0) 31
    let n := recLen [q.w 1]
    let d := q.w 3
    let t := bits d 31 28
    let send := bits (q.w 4) 17 16
    let data := match kvGet h.brg.bufs i with
      | some b => b.data.take n ++ List.replicate (n - b.data.length) 0
      | none => List.replicate n 0
    let new : AsmBuf := ⟨n, q.w 1, q.w 2, d, send, q.w 4 % 65536, q.w 5, data, h.clk, h.clk + q.w 4 % 65536 * 500000⟩
    let x := h.onBrg (fun b => { b with bufs := if valid then kvPut b.bufs i new else kvDel b.bufs i })
    let fixed := h.brg.maps.any (fun e => e.2.buf == i && e.2.dstBits.any (fun p => decide (8 * n ≤ p)))
    let after : Hw := x
    s.hw.runs owner slot 0x0808 q ∧
    (∀ chk ∈ ([only1 owner, q.reserved [0x800001FF, 0xF03E0FFF, 0xFFFFFFFF,
          [0, 0xFFF80000, 0xFF00003F, 0xFFC0003F].getD t 0, 0x3FFFF, 0xFFFF],
        badAt (valid && (n = 0 || decide (64 < n) || fixed || decide (2 < recKind [q.w 1]) || (recKind [q.w 1] = 0 && decide (8 < n)))) 4,
        badAt (valid && (t = 0 || decide (3 < t))) 15, badAt (valid && t != 2 && decide (48 ≤ bits d 27 22)) 14,
        badAt (valid && t = 2 && decide (8 < n)) 4, badAt (valid && decide (2 ≤ send) && q.w 4 % 65536 = 0) 16,
        badAt (firstNew Hw.guardsShort h x).isSome 4] : List Check), chk.1 = false) ∧
    h.clean after noDeadlock)) ∧
  ((let s : State := tGcs 1 0x0809 [3, 2147484648, 1, 2, 3, 4, 5, 6, 0] [] id
    let owner : Nat := 1
    let slot : Nat := 0
    let q : Slot := tSlot 0x0809 [3, 2147484648, 1, 2, 3, 4, 5, 6, 0] []
    let h := s.hw
    let t := q.w 0
    let c := q.w 1
    let en := getF c Fld.BRG_TUNNEL_CFG_EN == 1
    let max_ := getF c Fld.BRG_TUNNEL_CFG_MAX_BYTES
    let after : Hw := (h.images [(Reg.BRG_TUNNEL_CFG t, 0xFFFFF7FF, c), (Reg.BRG_TUNNEL_SID_HI t, 0xFFFFFFFF, q.w 2),
        (Reg.BRG_TUNNEL_SID_LO t, 0xFFFFFFFF, q.w 3), (Reg.BRG_TUNNEL_DA_HI t, 0xFFFF, q.w 4), (Reg.BRG_TUNNEL_DA_LO t, 0xFFFFFFFF, q.w 5),
        (Reg.BRG_TUNNEL_TMO t, 0xFFFF, q.w 6), (Reg.BRG_TUNNEL_MTT t, 0xFFFFFFFF, q.w 7), (Reg.BRG_TUNNEL_TB t, 7, q.w 8)])
    s.hw.runs owner slot 0x0809 q ∧
    (∀ chk ∈ ([h.deny owner 12 t, q.reserved [31, 0xFFFFF7FF, 0xFFFFFFFF, 0xFFFFFFFF, 0xFFFF, 0xFFFFFFFF, 0xFFFF, 0xFFFFFFFF, 7],
        badAt (decide (max_ < 64) || decide ((if getF c Fld.BRG_TUNNEL_CFG_TSCF = 1 then 1476 else 1488) < max_)) 4,
        badAt (en && q.w 6 = 0) 24] : List Check), chk.1 = false) ∧
    h.clean after Hw.deadlocks)) ∧
  ((let s : State := tGcs 1 0x080A [3, 2147483648, 1, 2] [] id
    let owner : Nat := 1
    let slot : Nat := 0
    let q : Slot := tSlot 0x080A [3, 2147483648, 1, 2] []
    let h := s.hw
    let t := q.w 0
    let after : Hw := (h.images [(Reg.BRG_RXTUN_CFG t, 0x80000000, q.w 1), (Reg.BRG_RXTUN_SID_HI t, 0xFFFFFFFF, q.w 2),
        (Reg.BRG_RXTUN_SID_LO t, 0xFFFFFFFF, q.w 3)])
    s.hw.runs owner slot 0x080A q ∧
    (∀ chk ∈ ([h.deny owner 12 (256 + t), q.reserved [31, 0x80000000]] : List Check), chk.1 = false) ∧
    h.clean after noDeadlock)) ∧
  ((let s : State := tGcs 1 0x080B [5, 16794632] [] id
    let owner : Nat := 1
    let slot : Nat := 0
    let q : Slot := tSlot 0x080B [5, 16794632] []
    let h := s.hw
    let i := q.w 0
    let w := q.w 1
    let a : Auth := kvGetD h.brg.auth i ⟨none, 1, 0, 0, 0, true, 0, 0, false, 0, kvGetD h.sec.fresh i 0⟩
    let x := h.onBrg (fun b => { b with auth := kvPut b.auth i { a with
      len := bits w 5 0, fv := bits w 11 8, mac := bits w 16 12, strict := bit w 20, resync := bits w 31 24 } })
    let after : Hw := x
    s.hw.runs owner slot 0x080B q ∧
    (∀ chk ∈ ([h.deny owner 17 i, q.reserved [4095, 0xFF11FF3F], badAt (decide (60 < bits w 5 0)) 4, badAt (decide (8 < bits w 11 8)) 5,
        badAt (decide (bits w 16 12 < 3) || decide (16 < bits w 16 12)) 5, badAt (bits w 31 24 = 0) 7,
        badAt (firstNew (fun b => b.headsWith Hw.authBad) h x).isSome 4] : List Check), chk.1 = false) ∧
    h.clean after noDeadlock)) ∧
  ((let s : State := tGcs 1 0x080C [5, 1, 0] [] (fun h => h.onBrg (fun b => { b with auth := [(5, ⟨none, 1, 0, 0, 0, true, 0, 0, false, 0, 0⟩)] }))
    let owner : Nat := 1
    let slot : Nat := 0
    let q : Slot := tSlot 0x080C [5, 1, 0] []
    let h := s.hw
    let i := q.w 0
    let after : Hw := (h.onBrg (fun b => { b with auth := match kvGet b.auth i with
        | some a => kvPut b.auth i { a with l := q.w64 1, fails := 0, wait := false }
        | none => b.auth }))
    s.hw.runs owner slot 0x080C q ∧
    (∀ chk ∈ ([h.deny owner 17 i, q.reserved [4095], noObj (kvGet h.brg.auth i).isNone 17 i] : List Check), chk.1 = false) ∧
    h.clean after noDeadlock)) := by
  refine ⟨?_, ?_, ?_, ?_, ?_, ?_⟩ <;> decide +kernel

/-- The hypotheses of `Obligations.GwyCommandsComplete` can be met (part 3). -/
theorem test_meets_GwyCommandsComplete_3 :
  ((let s : State := tGcs 1 0x080D [3] [] id
    let owner : Nat := 1
    let slot : Nat := 0
    let q : Slot := tSlot 0x080D [3] []
    let h := s.hw
    let k := q.w 0 % 128
    let l := h.brg.claims.filter (fun e => e.1 / 256 == k && decide (bits (q.w 0) 15 8 ≤ e.1 % 256))
    let after : Hw := h
    s.hw.runs owner slot 0x080D q ∧
    (∀ chk ∈ ([(!h.mayRead owner (srcRes k).1 (srcRes k).2, cDenied, resWord (srcRes k).1 (srcRes k).2), q.reserved [0xFF7F],
        badAt (decide (96 ≤ k)) 0] : List Check), chk.1 = false) ∧
    h.clean after noDeadlock)) ∧
  ((let s : State := tGcs 1 0x080E [3] [] id
    let owner : Nat := 1
    let slot : Nat := 0
    let q : Slot := tSlot 0x080E [3] []
    let h := s.hw
    let after : Hw := (h.cfg Reg.BRG_CFG 3 (q.w 0))
    s.hw.runs owner slot 0x080E q ∧
    (∀ chk ∈ ([only1 owner, q.reserved [3]] : List Check), chk.1 = false) ∧
    h.clean after noDeadlock)) := by
  refine ⟨?_, ?_⟩ <;> decide +kernel

/-- The hypotheses of `Obligations.TimeCommandsComplete` can be met (part 1). -/
theorem test_meets_TimeCommandsComplete :
  ((let s : State := tGcs 1 0x0901 [257, 0, 5, 0, 0, 0] [] id
    let owner : Nat := 1
    let slot : Nat := 0
    let q : Slot := tSlot 0x0901 [257, 0, 5, 0, 0, 0] []
    let h := s.hw
    let k := owner * 32 + slot
    let b := q.w 0 % 8
    let op := bits (q.w 0) 10 8
    let o : TbOp := ⟨op, bit (q.w 0) 16, q.w 1 * 2 ^ 32 + q.w 2, q.w 3, q.w 5 * 2 ^ 32 + q.w 4, true, some k⟩
    let r := h.tbResult b o
    s.hw.runs owner slot 0x0901 q ∧
    (∀ chk ∈ ([h.deny owner 6 b, q.reserved [0x10707, 0xFFFF, 0xFFFFFFFF, 0x3FFFFFFF, 0xFFFFFFFF, 0xFF], badAt (op = 0 || decide (5 < op)) 1] : List Check), chk.1 = false) ∧
    ((kvGet h.tim.fwOp b).isSome = false))) ∧
  ((let s : State := tGcs 1 0x0901 [257, 0, 5, 0, 0, 0] [] (fun h => h.onTime (fun t => { t with fwOp := [(1, ⟨1, false, 5, 0, 0, true, none⟩)] }))
    let owner : Nat := 1
    let slot : Nat := 0
    let q : Slot := tSlot 0x0901 [257, 0, 5, 0, 0, 0] []
    let h := s.hw
    let k := owner * 32 + slot
    let b := q.w 0 % 8
    let op := bits (q.w 0) 10 8
    let o : TbOp := ⟨op, bit (q.w 0) 16, q.w 1 * 2 ^ 32 + q.w 2, q.w 3, q.w 5 * 2 ^ 32 + q.w 4, true, some k⟩
    let r := h.tbResult b o
    s.hw.runs owner slot 0x0901 q ∧
    (∀ chk ∈ ([h.deny owner 6 b, q.reserved [0x10707, 0xFFFF, 0xFFFFFFFF, 0x3FFFFFFF, 0xFFFFFFFF, 0xFF], badAt (op = 0 || decide (5 < op)) 1] : List Check), chk.1 = false) ∧
    ((kvGet h.tim.fwOp b).isSome = true))) ∧
  ((let s : State := tGcs 1 0x0902 [2] [] id
    let owner : Nat := 1
    let slot : Nat := 0
    let q : Slot := tSlot 0x0902 [2] []
    let h := s.hw
    let b := q.w 0
    let ns := h.tbNs b
    let after : Hw := h
    s.hw.runs owner slot 0x0902 q ∧
    (∀ chk ∈ ([h.denyRead owner 6 b, q.reserved [7]] : List Check), chk.1 = false) ∧
    h.clean after noDeadlock)) ∧
  ((let s : State := tGcs 1 0x0903 [2, 2147483649, 100, 1000] [] id
    let owner : Nat := 1
    let slot : Nat := 0
    let q : Slot := tSlot 0x0903 [2, 2147483649, 100, 1000] []
    let h := s.hw
    let b := q.w 0
    let after : Hw := (
        let x := (h.setFld (Reg.TIME_TB_CTRL b) Fld.TIME_TB_CTRL_SLEW_PPM (q.w 2)).wn (Reg.TIME_TB_SLEW_LIMIT b) (q.w 3)
        x.onTime (fun t => { t with alt := if bit (q.w 1) 31 then kvPut t.alt b (q.w 1 % 2 ^ 31) else kvDel t.alt b }))
    s.hw.runs owner slot 0x0903 q ∧
    (∀ chk ∈ ([h.deny owner 6 b, q.reserved [7, 0x801F0007, 0x1FF], badAt (q.w 2 = 0 || decide (100 < q.w 2)) 8] : List Check), chk.1 = false) ∧
    h.clean after noDeadlock)) ∧
  ((let s : State := tGcs 1 0x0904 [2, 2147483648, 0] [] id
    let owner : Nat := 1
    let slot : Nat := 0
    let q : Slot := tSlot 0x0904 [2, 2147483648, 0] []
    let h := s.hw
    let d := q.w 0
    let o := q.w 2
    let after : Hw := ((h.cfg (Reg.TIME_DOM_CFG d) 0xFF800FFF (q.w 1)).onTime (fun t => { t with
        domOwner := if o = 0 then kvDel t.domOwner d else kvPut t.domOwner d o }))
    s.hw.runs owner slot 0x0904 q ∧
    (∀ chk ∈ ([only1 owner, q.reserved [7, 0xFF800FFF, 0x1FF], (o != 0 && !h.own.active.contains o, cNoObject, o)] : List Check), chk.1 = false) ∧
    h.clean after noDeadlock)) ∧
  ((let s : State := tGcs 1 0x0905 [3, 500] [] id
    let owner : Nat := 1
    let slot : Nat := 0
    let q : Slot := tSlot 0x0905 [3, 500] []
    let h := s.hw
    let m := q.w 0
    let after : Hw := (h.cfg (Reg.TIME_PORT_LINK_DELAY m) 0xFFFFFFFF (q.w 1))
    s.hw.runs owner slot 0x0905 q ∧
    (∀ chk ∈ ([h.deny owner 1 m, q.reserved [31], badAt (decide (24 ≤ m)) 0] : List Check), chk.1 = false) ∧
    h.clean after noDeadlock)) := by
  refine ⟨?_, ?_, ?_, ?_, ?_, ?_⟩ <;> decide +kernel

/-- The hypotheses of `Obligations.TimeCommandsComplete` can be met (part 2). -/
theorem test_meets_TimeCommandsComplete_2 :
  ((let s : State := tGcs 1 0x0906 [1, 3221225472, 1, 0, 1000000, 100] [] id
    let owner : Nat := 1
    let slot : Nat := 0
    let q : Slot := tSlot 0x0906 [1, 3221225472, 1, 0, 1000000, 100] []
    let h := s.hw
    let p := q.w 0
    let c := q.w 1
    let en := bit c 31
    let per := bit c 30
    let after : Hw := (h.pulseSet p [c, q.w 2, q.w 3, q.w 4, q.w 5])
    s.hw.runs owner slot 0x0906 q ∧
    (∀ chk ∈ ([only1 owner, q.reserved [7, 0xEE000000, 0xFFFFFFFF, 0x3FFFFFFF, 0xFFFFFFFF, 0xFFFFFFFF],
        badAt (decide (1000000000 ≤ q.w 3)) 12,
        badAt (en && per && (decide (q.w 4 < 1000) || decide (4000000000 < q.w 4))) 16,
        badAt (en && (decide (q.w 5 < 8) || decide (4000000000 < q.w 5) || (per && decide (q.w 4 < q.w 5 + 8)))) 20,
        (h.flag (Reg.TIME_PULSE_CFG p) Fld.TIME_PULSE_CFG_VIE_OWNED, cState, 0)] : List Check), chk.1 = false) ∧
    h.clean after noDeadlock)) ∧
  ((let s : State := tGcs 1 0x0907 [1, 2684354560] [] id
    let owner : Nat := 1
    let slot : Nat := 0
    let q : Slot := tSlot 0x0907 [1, 2684354560] []
    let h := s.hw
    let c := q.w 0
    let after : Hw := (h.cfg (Reg.TIME_CAP_CFG c) 0xFE000000 (q.w 1))
    s.hw.runs owner slot 0x0907 q ∧
    (∀ chk ∈ ([only1 owner, q.reserved [7, 0xFE000000], badAt (bit (q.w 1) 31 && bits (q.w 1) 30 29 = 0) 7] : List Check), chk.1 = false) ∧
    h.clean after noDeadlock)) ∧
  ((let s : State := tGcs 1 0x0908 [2] [] id
    let owner : Nat := 1
    let slot : Nat := 0
    let q : Slot := tSlot 0x0908 [2] []
    let h := s.hw
    let b := q.w 0
    let after : Hw := ((h.epochQueues b).foldl (fun a o => a.postEpoch o b) h)
    s.hw.runs owner slot 0x0908 q ∧
    (∀ chk ∈ ([h.denyRead owner 6 b, q.reserved [7]] : List Check), chk.1 = false) ∧
    h.clean after noDeadlock)) := by
  refine ⟨?_, ?_, ?_⟩ <;> decide +kernel

/-- The hypotheses of `Obligations.SecCommandsComplete` can be met (part 1). -/
theorem test_meets_SecCommandsComplete :
  ((let s : State := tGcs 1 0x0A01 [] [] id
    let owner : Nat := 1
    let slot : Nat := 0
    let q : Slot := tSlot 0x0A01 [] []
    let h := s.hw
    let c := h.challenge
    let after : Hw := c.2.onSec (fun x => { x with chal := some c.1 })
    s.hw.runs owner slot 0x0A01 q ∧
    (h.flag Reg.SEC_STATUS Fld.SEC_STATUS_TRNG_FAIL = false) ∧
    (h.sec.trngDown = false) ∧
    h.clean after noDeadlock)) ∧
  ((let s : State := tGcs 1 0x0A03 [1] [] (fun h => h.onSec (fun x => { x with mo := [(1, 7)] }))
    let owner : Nat := 1
    let slot : Nat := 0
    let q : Slot := tSlot 0x0A03 [1] []
    let h := s.hw
    let o := q.w 0
    let sel := kvGetD h.own.keySel o 0
    let n := kvGetD h.sec.rot o 0 + 1
    let mo : BitVec 256 := 7
    let after : Hw := (h.onSec (fun x => { x with rot := kvPut x.rot o n })).onOwn (fun w => { w with
            keys := kvPut w.keys (o * 2 + (1 - sel)) (basinKey mo n), keySel := kvPut w.keySel o (1 - sel),
            retiring := kvPut w.retiring o sel })
    s.hw.runs owner slot 0x0A03 q ∧
    (∀ chk ∈ ([(owner != 1 && o != owner, cDenied, o), q.reserved [0x1FF],
        (!h.own.active.contains o || (kvGet h.own.tear o).isSome || o == 0, cNoObject, o),
        ((kvGet h.own.retiring o).isSome || (h.master o).isNone, cState, o)] : List Check), chk.1 = false) ∧
    (h.master o = some mo) ∧
    h.clean after noDeadlock)) ∧
  ((let s : State := tGcs 1 0x0A05 [3, 1] [] (fun h => h.onMac (fun m => { m with sa := [(saOfWord 3, ⟨0, 0, 0, 0, 0, false, false, 1⟩)] }))
    let owner : Nat := 1
    let slot : Nat := 0
    let q : Slot := tSlot 0x0A05 [3, 1] []
    let h := s.hw
    let w := q.w 0
    let m := w % 32
    let after : Hw := (h.onMac (fun x => { x with sa := match kvGet x.sa (saOfWord w) with
        | some sa => kvPut x.sa (saOfWord w) { sa with en := bit (q.w 1) 0 }
        | none => x.sa }))
    s.hw.runs owner slot 0x0A05 q ∧
    (∀ chk ∈ ([h.deny owner 1 m, q.reserved [0xFD1F, 1], badAt (decide (20 ≤ m)) 0, noObj (kvGet h.mac.sa (saOfWord w)).isNone 1 m] : List Check), chk.1 = false) ∧
    h.clean after noDeadlock)) ∧
  ((let s : State := tGcs 1 0x0A06 [3] [] (fun h => h.onMac (fun m => { m with sa := [(saOfWord 3, ⟨0, 0, 0, 0, 0, false, false, 1⟩)] }))
    let owner : Nat := 1
    let slot : Nat := 0
    let q : Slot := tSlot 0x0A06 [3] []
    let h := s.hw
    let w := q.w 0
    let m := w % 32
    let after : Hw := (h.onMac (fun x => { x with sa := kvDel x.sa (saOfWord w) }))
    s.hw.runs owner slot 0x0A06 q ∧
    (∀ chk ∈ ([h.deny owner 1 m, q.reserved [0xFD1F], badAt (decide (20 ≤ m)) 0, noObj (kvGet h.mac.sa (saOfWord w)).isNone 1 m] : List Check), chk.1 = false) ∧
    h.clean after noDeadlock)) ∧
  ((let s : State := tGcs 1 0x0A08 [300, 1, 1, 1, 1, 1, 1, 1, 1, 1, 1, 1, 1, 1, 1, 1, 1, 1, 1, 1, 1, 1, 1, 1, 1] [] (fun h => h.setFld Reg.SEC_STATUS Fld.SEC_STATUS_READY 1)
    let owner : Nat := 1
    let slot : Nat := 0
    let q : Slot := tSlot 0x0A08 [300, 1, 1, 1, 1, 1, 1, 1, 1, 1, 1, 1, 1, 1, 1, 1, 1, 1, 1, 1, 1, 1, 1, 1, 1] []
    let h := s.hw
    let o := q.w 0
    let after : Hw := ((h.createOwner o).onSec (fun k => { k with pubs := kvPut k.pubs o ((bytesOf (q.payload.drop 1)).take 96) })).onOwn (fun w => { w with
          session := kvPut w.session o owner })
    s.hw.runs owner slot 0x0A08 q ∧
    (∀ chk ∈ ([q.reserved [0x1FF], badAt (decide (o < 258)) 0,
        (h.own.active.contains o || !h.flag Reg.SEC_STATUS Fld.SEC_STATUS_READY || h.sec.latch || h.keysBarred, cState, o)] : List Check), chk.1 = false) ∧
    (h.flag Reg.SEC_STATUS Fld.SEC_STATUS_TRNG_FAIL = false) ∧
    (h.sec.trngDown = false) ∧
    h.clean after noDeadlock)) ∧
  ((let s : State := tGcs 1 0x0A09 [300] [] (fun h => h.onOwn (fun o => { o with active := [0, 1, 300], session := [(300, 1)] }))
    let owner : Nat := 1
    let slot : Nat := 0
    let q : Slot := tSlot 0x0A09 [300] []
    let h := s.hw
    let o := q.w 0
    let by_ := kvGet h.own.session o
    let after : Hw := (h.tearStart o false)
    s.hw.runs owner slot 0x0A09 q ∧
    (∀ chk ∈ ([(owner != 1 && by_.isSome && by_ != some owner, cDenied, o), q.reserved [0x1FF], (by_.isNone, cNoObject, o)] : List Check), chk.1 = false) ∧
    h.clean after noDeadlock)) := by
  refine ⟨?_, ?_, ?_, ?_, ?_, ?_⟩ <;> decide +kernel

/-- The hypotheses of `Obligations.SecCommandsComplete` can be met (part 2). -/
theorem test_meets_SecCommandsComplete_2 :
  ((let s : State := tGcs 1 0x0A0A [2] [] (fun h => h)
    let s : State := { s with fuse := { s.fuse with life := 1 } }
    let owner : Nat := 1
    let slot : Nat := 0
    let q : Slot := tSlot 0x0A0A [2] []
    let h := s.hw
    let level := q.w 0 % 4
    let two := bit (q.w 0) 8
    let after : Hw := h.challenge.2.onSec (fun x => { x with dbgChal := some h.challenge.1 })
    s.hw.runs owner slot 0x0A0A q ∧ (∀ chk ∈ ([q.reserved [0x103], badAt (decide (level < 2)) 0, badAt (two && q.w 3 != 192) 12,
          (decide (debugMax s.fuse.life < level), cLifecycle, s.fuse.life)] : List Check), chk.1 = false) ∧
    (two = false) ∧ (h.flag Reg.SEC_STATUS Fld.SEC_STATUS_TRNG_FAIL = false) ∧ (h.sec.trngDown = false) ∧ h.clean after noDeadlock)) ∧
  ((let s : State := tGcs 1 0x0A0A [0x102, 0, 0, 192] (List.replicate 192 0) (fun h => h)
    let s : State := { s with fuse := { s.fuse with life := 0 } }
    let owner : Nat := 1
    let slot : Nat := 0
    let q : Slot := tSlot 0x0A0A [0x102, 0, 0, 192] (List.replicate 192 0)
    let h := s.hw
    let level := q.w 0 % 4
    let two := bit (q.w 0) 8
    let after : Hw := h
    s.hw.runs owner slot 0x0A0A q ∧ (∀ chk ∈ ([q.reserved [0x103], badAt (decide (level < 2)) 0, badAt (two && q.w 3 != 192) 12,
          (decide (debugMax s.fuse.life < level), cLifecycle, s.fuse.life)] : List Check), chk.1 = false) ∧
    (two = true) ∧ (s.fuse.debugProof level h.sec.dbgChal (sub q.buf 0 96) (sub q.buf 96 96) = true) ∧ h.clean after noDeadlock)) ∧
  ((let s : State := tGcs 1 0x0A0B [] [] id
    let owner : Nat := 1
    let slot : Nat := 0
    let q : Slot := tSlot 0x0A0B [] []
    let h := s.hw
    let after : Hw := h
    s.hw.runs owner slot 0x0A0B q ∧
    h.clean after noDeadlock)) ∧
  ((let s : State := tGcs 1 0x0A0C [768, 1] [] id
    let owner : Nat := 1
    let slot : Nat := 0
    let q : Slot := tSlot 0x0A0C [768, 1] []
    let h := s.hw
    let after : Hw := (
        let x := h.cfg Reg.SEC_TAMPER_CFG 0x31F (q.w 0)
        if bit (q.w 1) 0 then x.clr Reg.SEC_TAMPER_LOG else x)
    s.hw.runs owner slot 0x0A0C q ∧
    (∀ chk ∈ ([q.reserved [0x31F, 1]] : List Check), chk.1 = false) ∧
    h.clean after noDeadlock)) := by
  refine ⟨?_, ?_, ?_, ?_⟩ <;> decide +kernel

/-- The premises of `Obligations.FusesOnlyRatchet` can be met. -/
theorem test_meets_FusesOnlyRatchet : Fuse.reset.keeps State.reset.fuse ∧ step State.reset = .next (State.reset.on State.reset.hw.tick) :=
  ⟨⟨Nat.le_refl _, fun _ => Nat.le_refl _, rfl, rfl, fun _ => rfl, fun _ => ⟨rfl, rfl⟩⟩, rfl⟩

/-- The premises of the 64-bit write can be met. -/
theorem test_meets_write_64 : ∃ t, exec (.registerWrite 0 0x20208 15 (5 % 2 ^ 32)) State.reset = .next t := ⟨_, rfl⟩

/-- The premises of the 64-bit read can be met. -/
theorem test_meets_read_64 : ∃ t, exec (.rcCounterRead 0 0x20208 15 0) State.reset = .next t := ⟨_, rfl⟩

/-- The state of the witness of `fbusSchedLoad`. -/
def tFbusSchedLoadS : State := tGcs 1 0x0706 [3, 2147483648, 1000000, 0, 0, 0, 0, 1536] [] id
/-- The command of the witness of `fbusSchedLoad`. -/
def tFbusSchedLoadQ : Slot := tSlot 0x0706 [3, 2147483648, 1000000, 0, 0, 0, 0, 1536] []
/-- The registers of a controller that is off do not change. -/
theorem tFbusSchedLoad_off :
    let owner : Nat := 1
    let slot : Nat := 0
    let q : Slot := tFbusSchedLoadQ
    let h := tFbusSchedLoadS.hw
    let c := q.w 0
    let en := bit (q.w 1) 31
    let ws := q.bufWords 384
    let writes := schedWrites c ws
    let x := h.images [(Reg.CAN_SCHED_CFG c, 0xF7001FFF, q.w 1), (Reg.CAN_SCHED_CYCLE_NS c, 0xFFFFFFFF, q.w 2),
      (Reg.CAN_SCHED_BASE_S c, 0xFFFFFFFF, q.w 3), (Reg.CAN_SCHED_BASE_NS c, 0xFFFFFFFF, q.w 4)]
    let same := h.flag (Reg.CAN_SCHED_CFG c) Fld.CAN_SCHED_CFG_EN && bits (q.w 1) 30 24 == bits (h.rn (Reg.CAN_SCHED_CFG c)) 30 24 &&
      h.cycNs c == q.w 2 && h.rn (Reg.CAN_SCHED_BASE_S c) == q.w 3 && h.rn (Reg.CAN_SCHED_BASE_NS c) == q.w 4
    let y := (x.onCan c (fun k => { k with sched := [] })).images (writes.map (fun w => (w.1, 0xFFFFFFFF, w.2)))
    let common := [h.deny owner 4 c, q.reserved [0x3F, 0xF7001FFF], badAt (decide (48 ≤ c)) 0]
    y = x.onCan c (fun k => { k with sched := [] }) := Hw.images_off _ _ (by decide +kernel)
/-- The hypotheses of the clause can be met. -/
theorem test_meets_FbusSchedLoad :
    let s : State := tFbusSchedLoadS
    let owner : Nat := 1
    let slot : Nat := 0
    let q : Slot := tFbusSchedLoadQ
    let h := s.hw
    let c := q.w 0
    let en := bit (q.w 1) 31
    let ws := q.bufWords 384
    let writes := schedWrites c ws
    let x := h.images [(Reg.CAN_SCHED_CFG c, 0xF7001FFF, q.w 1), (Reg.CAN_SCHED_CYCLE_NS c, 0xFFFFFFFF, q.w 2),
      (Reg.CAN_SCHED_BASE_S c, 0xFFFFFFFF, q.w 3), (Reg.CAN_SCHED_BASE_NS c, 0xFFFFFFFF, q.w 4)]
    let same := h.flag (Reg.CAN_SCHED_CFG c) Fld.CAN_SCHED_CFG_EN && bits (q.w 1) 30 24 == bits (h.rn (Reg.CAN_SCHED_CFG c)) 30 24 &&
      h.cycNs c == q.w 2 && h.rn (Reg.CAN_SCHED_BASE_S c) == q.w 3 && h.rn (Reg.CAN_SCHED_BASE_NS c) == q.w 4
    let y := (x.onCan c (fun k => { k with sched := [] })).images (writes.map (fun w => (w.1, 0xFFFFFFFF, w.2)))
    let common := [h.deny owner 4 c, q.reserved [0x3F, 0xF7001FFF], badAt (decide (48 ≤ c)) 0]
    let after : Hw := if same then x.onCan c (fun k => { k with sched := writes })
        else y.onCan c (fun k => { k with cycle := none, live := [], stepped := false, startAt := some (y.matrixStart c) })
    s.hw.runs owner slot 0x0706 q ∧ (∀ chk ∈ ((common ++ [badAt (decide (4 < bits (q.w 1) 26 24)) 7, badAt (decide (q.w 2 < 100000) || decide (1000000000 < q.w 2)) 8,
        badAt (decide (1000000000 ≤ q.w 4)) 16, badAt (q.w 7 != 1536) 28,
        reservedIn ws ((List.range 64).flatMap (fun _ => [0xFFFFFFFF, 0x3FFFFFFF]) ++ List.replicate 256 0xBFBFBFBF)] ++
        (List.range 64).map (fun i => badAt (bit (ws.getD (2 * i) 0) 31 && decide (q.w 2 ≤ ws.getD (2 * i) 0 % 2 ^ 30)) (8 * i)) ++
        [badAt (y.narrowSlot c).isSome (8 * (y.narrowSlot c).getD 0 + 4), badAt (y.exclOverlap c) 0, badAt (y.guardShort c) 4]) : List Check), chk.1 = false) ∧ (en = true) ∧ h.clean after noDeadlock := by
  have e := tFbusSchedLoad_off
  dsimp only at e ⊢
  rw [e]
  decide +kernel

/-- The hypotheses of the clause can be met: no stream is admitted. -/
theorem test_meets_LifecycleAdvance :
    let s : State := tGcs 1 0x0A02 [3, 0, 0, 192] [] (fun h => h)
    let s : State := { s with fuse := { s.fuse with life := 2 } }
    let owner : Nat := 1
    let slot : Nat := 0
    let q : Slot := tSlot 0x0A02 [3, 0, 0, 192] []
    let h := s.hw
    let t := q.w 0
    let spent := h.onSec (fun x => { x with chal := none })
    let after (fu : Fuse) : Hw := { (spent.setFld Reg.SEC_STATUS Fld.SEC_STATUS_LIFECYCLE fu.life) with
      sys := { h.sys with resetReq := if 4 ≤ t then some h.clk else h.sys.resetReq } }
    s.hw.runs owner slot 0x0A02 q ∧
      (∀ chk ∈ ([q.reserved [7], badAt (q.w 3 != (if t = 2 then 288 else 192)) 12, (!advances s.fuse.life t, cLifecycle, s.fuse.life)] : List Check), chk.1 = false) ∧
      (∀ fu, s.fuse.advance t h.sec.chal q.buf = some fu → h.clean (after fu) noDeadlock) :=
  ⟨by decide +kernel, by decide +kernel, fun _ _ => Hw.clean_noAdmitted rfl⟩

/-- The hypotheses of the clause can be met: no stream is admitted. -/
theorem test_meets_SaInstall :
    let s : State := tGcs 1 0x0A04 [3, 0, 0, 0, 0, 0, 0, 0, 0, 0, 0, 0, 0, 0, 0, 0, 0, 0, 0, 0, 0, 0, 0, 0] [] (fun h => (h.setFld Reg.SEC_STATUS Fld.SEC_STATUS_READY 1).onSec (fun x => { x with pubs := [(1, [1])], latch := false }))
    let owner : Nat := 1
    let slot : Nat := 0
    let q : Slot := tSlot 0x0A04 [3, 0, 0, 0, 0, 0, 0, 0, 0, 0, 0, 0, 0, 0, 0, 0, 0, 0, 0, 0, 0, 0, 0, 0] []
    let h := s.hw
    let w := q.w 0
    let m := w % 32
    let after (t : List Byte) : Hw := h.onMac (fun x => { x with sa := kvPut x.sa (saOfWord w) ⟨BitVec.ofNat 256 (be (t.take 32)), be (sub t 32 12), q.w 5, q.w64 1, q.w64 3, false, false, owner⟩ })
    s.hw.runs owner slot 0x0A04 q ∧ (∀ chk ∈ (([h.deny owner 1 m, q.reserved [0xFD1F], badAt (decide (20 ≤ m)) 0] ++ h.blobChecks s.fuse owner 1 m ++
        [badState (h.saInForce w) 1 m]) : List Check), chk.1 = false) ∧
      (∀ t, h.blobText s.fuse owner 6 72 q = some t → h.clean (after t) noDeadlock) :=
  ⟨by decide +kernel, by decide +kernel, fun _ _ => Hw.clean_noAdmitted rfl⟩

/-- The hypotheses of the clause can be met: no stream is admitted. -/
theorem test_meets_CmacKeyInstall :
    let s : State := tGcs 1 0x0A07 [5, 0, 0, 0, 0, 0, 0, 0, 0, 0, 0, 0, 0, 0, 0, 0] [] (fun h => (h.setFld Reg.SEC_STATUS Fld.SEC_STATUS_READY 1).onSec (fun x => { x with pubs := [(1, [1])], latch := false }))
    let owner : Nat := 1
    let slot : Nat := 0
    let q : Slot := tSlot 0x0A07 [5, 0, 0, 0, 0, 0, 0, 0, 0, 0, 0, 0, 0, 0, 0, 0] []
    let h := s.hw
    let i := q.w 0
    let after (t : List Byte) : Hw := { h with brg := { h.brg with auth := kvPut h.brg.auth i { (kvGetD h.brg.auth i
        ⟨none, owner, 0, 0, 3, true, 255, 0, false, 0, kvGetD h.sec.fresh i 0⟩ : Auth) with key := some (BitVec.ofNat 256 (be t)), by_ := owner } } }
    s.hw.runs owner slot 0x0A07 q ∧ (∀ chk ∈ (([h.deny owner 17 i, q.reserved [4095]] ++ h.blobChecks s.fuse owner 17 i) : List Check), chk.1 = false) ∧
      (∀ t, h.blobText s.fuse owner 1 60 q = some t → h.clean (after t) noDeadlock) :=
  ⟨by decide +kernel, by decide +kernel, fun _ _ => Hw.clean_noAdmitted rfl⟩

end Sys2Proof.Machine
end

section
/-!
PROOFS of 00_scope.md: offsets that hold no register (R9) and W1C bits that hardware sets in the cycle of the clearing write (R11).
-/
namespace Sys2Proof.Machine

/-! ### Accesses that reach nothing (R9) -/

/-- An answer on its way to the host does not change what later accesses reach. -/
@[simp] theorem Hw.hostAt_emit (h : Hw) (o : Output) (fn off : Nat) : (h.emit o).hostAt fn off = h.hostAt fn off := rfl

/-- A read of a word at which nothing stands answers 0 and does nothing else. -/
theorem Hw.hostRead_nowhere {h : Hw} {fn off : Nat} (en incr : Nat) (a : h.hostAt fn (off / 4 * 4) = .nowhere) :
    h.hostRead fn off en incr = h.emit (.regData off 0) := by
  simp only [Hw.hostRead, a, Hw.answer, selectBytes_zero]

/-- Reads of several words answer 0 for each in turn: an answer leaves the words still to come as they were. -/
theorem Hw.foldl_hostRead_nowhere (fn w : Nat) (en incr : Nat → Nat) (ks : List Nat) (h : Hw)
    (a : ∀ k ∈ ks, h.hostAt fn (w * 4 + 4 * k) = .nowhere) :
    ks.foldl (fun x k => x.hostRead fn (w * 4 + 4 * k) (en k) (incr k)) h =
      ks.foldl (fun x k => x.emit (.regData (w * 4 + 4 * k) 0)) h := by
  induction ks generalizing h with
  | nil => rfl
  | cons k ks ih =>
    have aligned : (w * 4 + 4 * k) / 4 * 4 = w * 4 + 4 * k := by omega
    have head : h.hostRead fn (w * 4 + 4 * k) (en k) (incr k) = h.emit (.regData (w * 4 + 4 * k) 0) :=
      Hw.hostRead_nowhere _ _ (aligned.symm ▸ a k List.mem_cons_self)
    rw [List.foldl_cons, List.foldl_cons, head]
    exact ih _ (fun j hj => by rw [Hw.hostAt_emit]; exact a j (List.mem_cons_of_mem k hj))

/-- A read of any width answers 0 for each word where nothing stands at any of them. -/
theorem Hw.hostReads_nowhere {h : Hw} {fn off en : Nat} (incr : Nat)
    (a : ∀ k ∈ touched en, h.hostAt fn (off / 4 * 4 + 4 * k) = .nowhere) :
    h.hostReads fn off en incr = (touched en).foldl (fun x k => x.emit (.regData (off / 4 * 4 + 4 * k) 0)) h :=
  Hw.foldl_hostRead_nowhere fn (off / 4) (fun k => en / 16 ^ k % 16) (fun k => if k = 0 then incr else 0) (touched en) h a

/-- A partial write of a word does nothing (R7). -/
theorem Hw.hostWrite_partial (h : Hw) {en : Nat} (fn off val hwSet : Nat) (b : en ≠ 15) : h.hostWrite fn off en val hwSet = h :=
  if_pos b

/-- A write of a word at which nothing stands does nothing. -/
theorem Hw.hostWrite_nowhere {h : Hw} {fn off : Nat} (en val hwSet : Nat) (a : h.hostAt fn (off / 4 * 4) = .nowhere) :
    h.hostWrite fn off en val hwSet = h := by
  simp only [Hw.hostWrite, a, ite_self]

/-- A 64-bit write is the write of its two words in ascending order. -/
theorem Hw.hostWrites_double (h : Hw) (fn off val : Nat) :
    h.hostWrites fn off 255 val =
      (h.hostWrite fn off 15 (val % 2 ^ 32) 0).hostWrite fn (off / 4 * 4 + 4) 15 (val / 2 ^ 32) 0 := if_pos rfl

/-- A write of any width does nothing where nothing stands at any word it touches. -/
theorem Hw.hostWrites_nowhere {h : Hw} {fn off en : Nat} (val : Nat)
    (a : ∀ k ∈ touched en, h.hostAt fn (off / 4 * 4 + 4 * k) = .nowhere) : h.hostWrites fn off en val = h := by
  by_cases double : en = 255
  · subst double
    have first : h.hostAt fn (off / 4 * 4) = .nowhere := a 0 (by decide)
    have second : h.hostAt fn ((off / 4 * 4 + 4) / 4 * 4) = .nowhere := by
      rw [show (off / 4 * 4 + 4) / 4 * 4 = off / 4 * 4 + 4 * 1 by omega]
      exact a 1 (by decide)
    rw [Hw.hostWrites_double, Hw.hostWrite_nowhere _ _ _ first, Hw.hostWrite_nowhere _ _ _ second]
  · rw [Hw.hostWrites_word h fn off val double]
    by_cases full : en = 15
    · subst full
      exact Hw.hostWrite_nowhere _ _ _ (a 0 (by decide))
    · exact Hw.hostWrite_partial h fn off val 0 full

/-- A host read runs its word reads on the hardware. -/
theorem exec_rcCounterRead_on (fn off en incr : Nat) (s : State) :
    exec (.rcCounterRead fn off en incr) s = .next (s.on (s.hw.hostReads fn off en incr)) := rfl

/-- A host write that leaves the hardware as it is leaves the machine as it is. -/
theorem exec_registerWrite_discarded {fn off en val : Nat} {s : State} (e : s.hw.hostWrites fn off en val = s.hw) :
    exec (.registerWrite fn off en val) s = .next s := by
  rw [exec_registerWrite, execRegisterWrite, onHw_next, e]

/-- Settles O10: an access of which every touched word reaches nothing answers 0 word by word or is discarded, and the offsets of the
register file that no definition covers hold no register with an action (R9; an access that marks no byte reads its word, log entry 33). -/
theorem absentOffsetsReadZero : Obligations.AbsentOffsetsReadZero := by
  unfold Obligations.AbsentOffsetsReadZero
  refine ⟨?readNowhere, ?writeNowhere, ?readAbsent, ?writeAbsent⟩
  case readNowhere =>
    intro s fn off en incr nowhere
    rw [exec_rcCounterRead_on, Hw.hostReads_nowhere incr nowhere]
  case writeNowhere =>
    intro s fn off en val nowhere
    exact exec_registerWrite_discarded (Hw.hostWrites_nowhere val nowhere)
  case readAbsent =>
    intro s fn off en incr r aligned oneWord reached wordOffset absent notDoorbell
    rw [exec_rcCounterRead_on, Hw.hostReads_word _ fn incr aligned oneWord,
      Hw.hostRead_absent en incr reached wordOffset absent notDoorbell]
  case writeAbsent =>
    intro s fn off en val r oneWord reached absent notAbort
    exact exec_registerWrite_discarded
      ((Hw.hostWrites_word _ fn off val oneWord).trans (Hw.hostWrite_absent en val 0 reached absent notAbort))

/-! ### W1C bits (R11) -/

/-- A full write of a register with W1C bits is a plain write with the bits that hardware sets in the same cycle. -/
theorem exec_w1cWrite_full {s : State} {fn off r : Nat} {d : RegDesc} (val hwSet : Nat) (reached : s.hw.hostReg fn off = some r)
    (found : findReg r = some d) (hasW1c : d.w1c ≠ 0) :
    exec (.w1cWrite fn off 15 val hwSet) s = .next (s.on (s.hw.plainWrite fn r (val % 2 ^ 32) hwSet)) := by
  simp only [exec_w1cWrite, execW1cWrite, onHw_next, reached, found, if_pos hasW1c, if_true, State.on]

/-- A W1C bit that hardware sets in the cycle of the write is 1 after it, whatever was written. -/
theorem Hw.rn_plainWrite_w1c_set {h : Hw} {fn r : Nat} {d : RegDesc} (val : Nat) {hwSet : Nat} (found : findReg r = some d)
    (shown : d.hid = false) (may : h.mayWrite fn r) {i : Nat} (hi : i < 32) (w1c : d.w1c.testBit i = true)
    (sets : hwSet.testBit i = true) : ((h.plainWrite fn r val hwSet).rn r).testBit i = true := by
  rw [Hw.rn_plainWrite_bit val hwSet found shown may hi, sets, w1c, Bool.and_self, Bool.or_true]

/-- A W1C bit that is written 1 and that hardware does not set is 0 after the write. -/
theorem Hw.rn_plainWrite_w1c_cleared {h : Hw} {fn r : Nat} {d : RegDesc} {val hwSet : Nat} (found : findReg r = some d)
    (shown : d.hid = false) (may : h.mayWrite fn r) {i : Nat} (hi : i < 32) (w1c : d.w1c.testBit i = true)
    (unset : hwSet.testBit i = false) (one : val.testBit i = true) : ((h.plainWrite fn r val hwSet).rn r).testBit i = false := by
  rw [Hw.rn_plainWrite_bit val hwSet found shown may hi, w1c, one, unset, Bool.and_self, if_pos rfl, Bool.false_and, Bool.or_false]

/-- Settles O12: of the bits of a full write, those that hardware sets win over those the host clears (R11). -/
theorem w1cBitSetInTheSameCycleStays : Obligations.W1cBitSetInTheSameCycleStays := by
  unfold Obligations.W1cBitSetInTheSameCycleStays
  intro s fn off val hwSet r d reached found shown hasW1c may
  refine ⟨_, exec_w1cWrite_full val hwSet reached found hasW1c, ?hardwareSets, ?cleared, ?others, ?frame⟩
  case hardwareSets =>
    intro i hi w1c sets
    exact Hw.rn_plainWrite_w1c_set _ found shown may hi w1c sets
  case cleared =>
    intro i hi w1c unset one
    have low : (val % 2 ^ 32).testBit i = true := by
      rw [Nat.testBit_mod_two_pow, one, decide_eq_true hi, Bool.and_self]
    exact Hw.rn_plainWrite_w1c_cleared found shown may hi w1c unset low
  case others =>
    intro r' other
    exact Hw.rn_plainWrite_ne _ _ _ other
  case frame => exact congrArg s.on (Hw.plainWrite_regs _ _ _ _ _)

end Sys2Proof.Machine
end

section
/-!
PROOFS of 13_security.md and 95_what_each_step_holds.md: every command goes on, what a step runs, fuses that are only raised.
-/
namespace Sys2Proof.Machine

/-! ### One step -/

/-- Settles O9: the front command runs on the state with the queue's rest. -/
theorem stepRunsFrontCommand : Obligations.StepRunsFrontCommand := by
  intro c l s
  rfl

/-- On an empty queue a step is one tick of the clock. -/
theorem step_idle {s : State} (e : s.pending = []) : step s = .next (s.on s.hw.tick) := by
  obtain ⟨pending, fuse, hw⟩ := s
  obtain rfl := e
  rfl

/-- With a command in front a step is that command on the rest of the queue. -/
theorem step_front {s : State} {c : Instr} {l : List Instr} (e : s.pending = c :: l) :
    step s = exec c { s with pending := l } := by
  unfold step
  rw [e]

/-- Settles O3: with no command waiting a step passes one cycle (log entry 4). -/
theorem idleStepPassesOneCycle : Obligations.IdleStepPassesOneCycle := fun _ e => step_idle e

/-- A register that no write has reached reads its reset value. -/
theorem Hw.rd_of_absent {h : Hw} {r : Nat} (e : kvGet h.regs r = none) : h.rd r = resetVal r := by
  simp only [Hw.rd, e, Option.getD_none]

/-- Settles O4: the register file starts empty, so every register reads its reset value; the other parts are those of `State.reset`. -/
theorem resetShowsResetValues : Obligations.ResetShowsResetValues :=
  ⟨rfl, fun _ => Hw.rd_of_absent rfl, rfl, rfl, rfl, rfl, rfl, rfl⟩

/-! ### Fuses -/

/-- Fuses keep what they hold. -/
theorem Fuse.keeps_refl (f : Fuse) : f.keeps f :=
  ⟨Nat.le_refl _, fun _ => Nat.le_refl _, rfl, rfl, fun _ => rfl, fun _ => ⟨rfl, rfl⟩⟩

/-- Keeping is transitive. -/
theorem Fuse.keeps_trans {f g k : Fuse} (a : f.keeps g) (b : g.keeps k) : f.keeps k := by
  obtain ⟨lifeA, svnA, devA, vendorA, rootA, oemA⟩ := a
  obtain ⟨lifeB, svnB, devB, vendorB, rootB, oemB⟩ := b
  refine ⟨lifeA.trans lifeB, fun i => (svnA i).trans (svnB i), devB.trans devA, vendorB.trans vendorA, fun alive => ?_, fun sealed => ?_⟩
  · exact (rootB alive).trans (rootA (lifeB.trans_lt alive))
  · exact ⟨(oemB (sealed.trans lifeA)).1.trans (oemA sealed).1, (oemB (sealed.trans lifeA)).2.trans (oemA sealed).2⟩

/-- Settles O7: the fuses as shipped keep themselves. -/
theorem fusesAtResetKeepTheirFloor : Obligations.FusesAtResetKeepTheirFloor := Fuse.keeps_refl _

/-- A transition that R365 names raises the lifecycle by its table. -/
theorem advances_iff {life target : Nat} : advances life target = true ↔
    (life = 1 ∧ target = 2) ∨ (life = 2 ∧ target = 3) ∨ (life = 3 ∧ target = 4) ∨ (1 ≤ life ∧ life ≤ 4 ∧ target = 5) := by
  simp only [advances, Bool.or_eq_true, Bool.and_eq_true, beq_iff_eq, decide_eq_true_eq]
  omega

/-- An advance that R365 names keeps what the fuses held: only PROVISIONED writes the OEM hashes, only SCRAPPED the root key. -/
theorem Fuse.keeps_advance {fu fu' : Fuse} {target : Nat} {chal : Option Nat} {buf : List Byte} (named : advances fu.life target = true)
    (proved : fu.advance target chal buf = some fu') : fu.keeps fu' := by
  have table := advances_iff.mp named
  cases chal with
  | none => cases proved
  | some c =>
    simp only [Fuse.advance, Option.ite_none_left_eq_some] at proved
    obtain ⟨_, programmed⟩ := proved
    split at programmed
    · next provisioned =>
      obtain rfl := Option.some.inj programmed
      exact ⟨by dsimp only; omega, fun _ => Nat.le_refl _, rfl, rfl, fun _ => rfl, fun _ => by omega⟩
    · split at programmed
      · next scrapped =>
        obtain rfl := Option.some.inj programmed
        exact ⟨by dsimp only; omega, fun _ => Nat.le_refl _, rfl, rfl, fun alive => absurd alive (Nat.lt_irrefl _), fun _ => ⟨rfl, rfl⟩⟩
      · obtain rfl := Option.some.inj programmed
        exact ⟨by dsimp only; omega, fun _ => Nat.le_refl _, rfl, rfl, fun _ => rfl, fun _ => ⟨rfl, rfl⟩⟩

/-- A judgement let through met every check. -/
theorem Hw.checks_of_vet_ok {h y : Hw} {cs : List Check} {r : Gcs} {resp : List Nat} (e : h.vet cs r = .ok y resp) :
    ∀ c ∈ cs, c.1 = false := by
  unfold Hw.vet at e
  split at e
  · cases e
  · next none => simpa [List.find?_eq_none] using none

/-- SEC_LIFECYCLE_ADVANCE is let through for a transition of R365 alone. -/
theorem Hw.advances_of_gcsAdvance_ok {h y : Hw} {fu : Fuse} {q : Slot} {resp : List Nat} (e : h.gcsAdvance fu q = .ok y resp) :
    advances fu.life (q.w 0) = true := by
  have named := Hw.checks_of_vet_ok e (!advances fu.life (q.w 0), cLifecycle, fu.life) (by simp)
  simpa using named

/-- The fuses after an advance that was let through keep what they held, whether the proof was good or not. -/
theorem Fuse.keeps_advanced {h y : Hw} {fu : Fuse} {q : Slot} {resp : List Nat} (e : h.gcsAdvance fu q = .ok y resp) (chal : Option Nat) :
    fu.keeps ((fu.advance (q.w 0) chal q.buf).getD fu) := by
  cases proved : fu.advance (q.w 0) chal q.buf with
  | none => exact fu.keeps_refl
  | some fu' => exact Fuse.keeps_advance (Hw.advances_of_gcsAdvance_ok e) proved

/-- A command that was carried out was let through. -/
theorem Hw.ok_of_carriedOut {h x : Hw} {o slot op : Nat} {f : Slot → Gcs} {q : Slot} (e : h.carriedOut x o slot op f = some q) :
    ∃ y resp, f q = .ok y resp := by
  unfold Hw.carriedOut at e
  split at e
  · split at e
    · cases e
    · split at e
      · next judged =>
        split at e
        · cases e
        · obtain rfl := Option.some.inj e
          exact ⟨_, _, judged⟩
      · cases e
  · cases e

/-- SVN minima with one entry raised are none lower. -/
theorem getD_le_getD_set_max (m : List Nat) (k v i : Nat) : m.getD i 0 ≤ (m.set k (max (m.getD k 0) v)).getD i 0 := by
  simp only [List.getD_eq_getElem?_getD, List.getElem?_set]
  split
  · next same =>
    subst same
    split
    · exact Nat.le_max_left _ _
    · next out => simp [List.getElem?_eq_none (Nat.le_of_not_lt out)]
  · exact Nat.le_refl _

/-- R378: a boot of pair 0 raises SVN minima and does nothing else to the fuses. -/
theorem Fuse.keeps_raiseSvn (fu : Fuse) (l : List (Nat × Option ImageCopy)) : fu.keeps (fu.raiseSvn l) := by
  refine ⟨Nat.le_refl _, fun i => ?_, rfl, rfl, fun _ => rfl, fun _ => ⟨rfl, rfl⟩⟩
  unfold Fuse.raiseSvn
  dsimp only
  generalize fu.svn = m
  induction l generalizing m with
  | nil => exact Nat.le_refl _
  | cons p l ih =>
    refine Nat.le_trans ?_ (ih _)
    dsimp only
    split
    · split
      · exact getD_le_getD_set_max m _ _ i
      · exact Nat.le_refl _
    · exact Nat.le_refl _

/-! ### What a command does to the fuses -/

/-- Every command answers a next state with the queue as it was; but for three of them the fuses stay. -/
theorem exec_goes_on (c : Instr) (s : State) : ∃ t, exec c s = .next t ∧ t.pending = s.pending ∧
    (t.fuse = s.fuse ∨ c = .cImageReady ∨ (∃ p, c = .powerLoss p) ∨ (∃ owner slot, c = .secLifecycleAdvance owner slot)) := by
  cases c with
  | cImageReady => exact ⟨_, rfl, rfl, .inr (.inl rfl)⟩
  | powerLoss p => exact ⟨_, rfl, rfl, .inr (.inr (.inl ⟨p, rfl⟩))⟩
  | secLifecycleAdvance owner slot => exact ⟨_, rfl, rfl, .inr (.inr (.inr ⟨owner, slot, rfl⟩))⟩
  | _ => exact ⟨_, rfl, rfl, .inl rfl⟩

/-- The C-image raises SVN minima alone. -/
theorem cImageReady_keeps_fuses {s t : State} (e : exec .cImageReady s = .next t) : s.fuse.keeps t.fuse := by
  rw [exec_cImageReady, execCImageReady, onBoth_next] at e
  obtain rfl := Host.Outcome.next.inj e
  dsimp only
  split
  · exact Fuse.keeps_refl _
  · split
    · exact Fuse.keeps_refl _
    · dsimp only
      split
      · exact Fuse.keeps_raiseSvn _ _
      · exact Fuse.keeps_refl _

/-- Power that falls programs the fuses of an advance in progress that was let through, or leaves them. -/
theorem powerLoss_keeps_fuses {programmed : Bool} {s t : State} (e : exec (.powerLoss programmed) s = .next t) : s.fuse.keeps t.fuse := by
  rw [exec_powerLoss, execPowerLoss, onBoth_next] at e
  obtain rfl := Host.Outcome.next.inj e
  dsimp only
  split
  · split
    · next judged => exact Fuse.keeps_advanced judged _
    · exact Fuse.keeps_refl _
  · exact Fuse.keeps_refl _

/-- SEC_LIFECYCLE_ADVANCE programs the fuses when it is carried out alone. -/
theorem secLifecycleAdvance_keeps_fuses {owner slot : Nat} {s t : State} (e : exec (.secLifecycleAdvance owner slot) s = .next t) :
    s.fuse.keeps t.fuse := by
  rw [exec_secLifecycleAdvance, execSecLifecycleAdvance, onBoth_next] at e
  obtain rfl := Host.Outcome.next.inj e
  dsimp only
  split
  · next carried =>
    obtain ⟨y, resp, judged⟩ := Hw.ok_of_carriedOut carried
    exact Fuse.keeps_advanced judged _
  · exact Fuse.keeps_refl _

/-- Every command keeps what the fuses hold. -/
theorem exec_keeps_fuses {c : Instr} {s t : State} (e : exec c s = .next t) : s.fuse.keeps t.fuse := by
  obtain ⟨t', e', _, fuses⟩ := exec_goes_on c s
  obtain rfl := Host.Outcome.next.inj (e.symm.trans e')
  rcases fuses with same | rfl | ⟨p, rfl⟩ | ⟨owner, slot, rfl⟩
  · exact same ▸ Fuse.keeps_refl _
  · exact cImageReady_keeps_fuses e
  · exact powerLoss_keeps_fuses e
  · exact secLifecycleAdvance_keeps_fuses e

/-- Settles O5: every command but the three of `exec_goes_on` is an effect on the hardware alone, and a step is a command or a tick. -/
theorem everyCommandGoesOn : Obligations.EveryCommandGoesOn := by
  refine ⟨exec_goes_on, fun s => ?_⟩
  cases queue : s.pending with
  | nil => exact ⟨_, step_idle queue⟩
  | cons c l =>
    obtain ⟨t, e, _⟩ := exec_goes_on c { s with pending := l }
    exact ⟨t, (step_front queue).trans e⟩

/-- Settles O6: a tick leaves the fuses, and every command keeps what they hold. -/
theorem fusesOnlyRatchet : Obligations.FusesOnlyRatchet := by
  intro f s t floor stepped
  cases queue : s.pending with
  | nil =>
    rw [step_idle queue] at stepped
    obtain rfl := Host.Outcome.next.inj stepped
    exact floor
  | cons c l =>
    rw [step_front queue] at stepped
    have kept := exec_keeps_fuses stepped
    exact Fuse.keeps_trans floor kept

end Sys2Proof.Machine
end

section
/-!
PROOFS of 00_scope.md: full and partial writes (R7, R10), reads that clear, restart or copy (R12, R202, R513); of 16_power_clocks_startup.md:
functions that become ready (R454).
-/
namespace Sys2Proof.Machine

/-! ### Writes (R7, R10) -/

/-- A word's write within a host access does not depend on the offset's two low bits. -/
theorem Hw.hostWrite_aligned (h : Hw) (fn off en val hwSet : Nat) : h.hostWrite fn (off / 4 * 4) en val hwSet = h.hostWrite fn off en val hwSet := by
  unfold Hw.hostWrite
  rw [Nat.mul_div_cancel _ (by decide : 0 < 4)]

/-- A full write of a register without an action of its own is a plain write. -/
theorem Hw.hostWrites_plain {h : Hw} {fn off r : Nat} (val : Nat) (reached : h.hostReg fn off = some r) (plain : ¬ actsOnWrite r) :
    h.hostWrites fn off 15 val = h.plainWrite fn r (val % 2 ^ 32) 0 := by
  rw [Hw.hostWrites_word h fn off val (by decide), Hw.hostWrite, if_neg (by decide), Hw.hostAt_reg reached]
  exact Hw.regWrite_plain h _ _ plain

/-- A host write runs its word writes on the hardware. -/
theorem exec_registerWrite_on (fn off en val : Nat) (s : State) :
    exec (.registerWrite fn off en val) s = .next (s.on (s.hw.hostWrites fn off en val)) := rfl

/-- A bit of a register after a full plain write: W1C bits written 1 clear, RW bits take the value, the others keep theirs. -/
theorem Hw.rn_plainWrite_code {h : Hw} {fn r : Nat} {d : RegDesc} (val : Nat) (found : findReg r = some d) (shown : d.hid = false)
    (may : h.mayWrite fn r) {i : Nat} (hi : i < 32) :
    ((h.plainWrite fn r (val % 2 ^ 32) 0).rn r).testBit i = if (d.w1c.testBit i && val.testBit i) = true then false
      else if d.rw.testBit i = true then val.testBit i else (h.rn r).testBit i := by
  have low : (val % 2 ^ 32).testBit i = val.testBit i := by
    rw [Nat.testBit_mod_two_pow, decide_eq_true hi, Bool.true_and]
  rw [Hw.rn_plainWrite_bit _ _ found shown may hi, low, Nat.zero_testBit, Bool.false_and, Bool.or_false]

/-- A 64-bit read is the read of its two words in ascending order. -/
theorem Hw.hostReads_double (h : Hw) {off : Nat} (fn incr : Nat) (aligned : off % 4 = 0) :
    h.hostReads fn off 255 incr = (h.hostReads fn off 15 incr).hostReads fn (off + 4) 15 0 := by
  have words : touched 255 = [0, 1] := by decide
  have start : off / 4 * 4 = off := Nat.div_mul_cancel (Nat.dvd_of_mod_eq_zero aligned)
  rw [Hw.hostReads_word _ fn 0 (by omega) (by decide : 15 < 16), Hw.hostReads_word h fn incr aligned (by decide : 15 < 16),
    Hw.hostReads, words, start]
  rfl

/-- Settles O11: by the access codes of the word written, and by the words of an access. -/
theorem registerWritesFollowAccessCodes : Obligations.RegisterWritesFollowAccessCodes := by
  refine ⟨?fullWrite, ?doubleWrite, ?doubleRead, ?partialWrite⟩
  case fullWrite =>
    intro s fn off val r d reached found shown plain may
    refine ⟨_, exec_registerWrite_on fn off 15 val s, ?_⟩
    rw [Hw.hostWrites_plain val reached plain]
    refine ⟨fun i hi => Hw.rn_plainWrite_code val found shown may hi, fun r' other => Hw.rn_plainWrite_ne _ _ _ other, ?_⟩
    exact congrArg s.on (Hw.plainWrite_regs _ _ _ _ _)
  case doubleWrite =>
    intro s t fn off val aligned lower
    rw [exec_registerWrite_on, Hw.hostWrites_word _ _ _ _ (by decide)] at lower
    obtain rfl := Host.Outcome.next.inj lower
    rw [exec_registerWrite_on, exec_registerWrite_on, Hw.hostWrites_double, Hw.hostWrites_word _ _ _ _ (by decide),
      Nat.div_mul_cancel (Nat.dvd_of_mod_eq_zero aligned)]
    rfl
  case doubleRead =>
    intro s t fn off incr aligned lower
    obtain rfl := Host.Outcome.next.inj lower
    rw [exec_rcCounterRead_on, Hw.hostReads_double _ fn incr aligned]
    rfl
  case partialWrite =>
    intro s fn off en val notWord notDouble
    rw [exec_registerWrite_on, Hw.hostWrites_word _ _ _ _ notDouble, Hw.hostWrite, if_pos notWord]
    rfl

/-! ### Reads that clear (R12, R202, R513) -/

/-- A full answer puts the word read on its way to the host. -/
theorem Hw.answer_full (h : Hw) (off : Nat) {v : Nat} (word : v < 2 ^ 32) : h.answer off 15 v = h.emit (.regData off v) := by
  rw [Hw.answer, selectBytes_full v word]

/-- A register that computes nothing shows the word it holds. -/
theorem Hw.hostValue_held {h : Hw} {fn r : Nat} {d : RegDesc} (found : findReg r = some d) (shown : d.hid = false)
    (held : h.viewReg fn r = none) : h.hostValue fn r = h.rn r := by
  simp only [Hw.hostValue, found, shown, held, Bool.false_eq_true, if_false, Option.getD_none]

/-- The read of a plain RC counter restarts it at what hardware adds in the cycle. -/
theorem Hw.readEffect_rc {h : Hw} {fn r : Nat} {d : RegDesc} (incr : Nat) (found : findReg r = some d) (counter : d.rc = true)
    (plain : ¬ actsOnRead r) : h.readEffect fn r incr = h.wn r incr := by
  simp only [actsOnRead, not_or] at plain
  obtain ⟨_, notPeak, notOctets, notTime, notRill⟩ := plain
  rw [Hw.readEffect, if_neg notPeak, if_neg notOctets, if_neg (by omega), if_neg (by omega), if_neg (by omega), if_neg (by omega),
    if_neg (by omega), found]
  exact if_pos counter

/-- A full read of a plain RC counter answers the word held and restarts it. -/
theorem Hw.hostReads_rc {h : Hw} {fn off r : Nat} {d : RegDesc} (incr : Nat) (aligned : off % 4 = 0) (reached : h.hostReg fn off = some r)
    (found : findReg r = some d) (shown : d.hid = false) (counter : d.rc = true) (held : h.viewReg fn r = none) (plain : ¬ actsOnRead r) :
    h.hostReads fn off 15 incr = (h.emit (.regData off (h.rn r))).wn r incr := by
  have notDoorbell : ¬ (0x10000000 ≤ r ∧ r % 256 < 0x80) := fun ring => plain (.inl ring)
  rw [Hw.hostReads_word h fn incr aligned (by decide), Hw.hostRead, Hw.hostAt_reg reached]
  dsimp only
  rw [if_neg notDoorbell, Hw.hostValue_held found shown held, Hw.answer_full h off (h.rn_lt r), Hw.readEffect_rc incr found counter plain]

/-- The quotas' peaks lie one word apart. -/
theorem isPeak_mmqPeak {q : Nat} (hq : q < 128) : isPeak (Reg.SWC_MMQ_PEAK q) = true := by
  unfold isPeak Reg.SWC_MMQ_PEAK
  simp only [Bool.and_eq_true, decide_eq_true_eq]
  omega

/-- A read of a quota's peak restarts it at the quota's USED. -/
theorem Hw.peakRead_mmqPeak (h : Hw) (q : Nat) : h.peakRead (Reg.SWC_MMQ_PEAK q) = h.wn (Reg.SWC_MMQ_PEAK q) (h.mmqUsed q) := by
  have index : (Reg.SWC_MMQ_PEAK q - Reg.SWC_MMQ_PEAK 0) / 4 = q := by simp only [Reg.SWC_MMQ_PEAK]; omega
  rw [Hw.peakRead, index]

/-- The octet counters of every MAC stand in the register map and are shown. -/
theorem octets_shown : ∀ m < 24, (findReg (Reg.MAC_RX_OCTETS_LO m)).map (·.hid) = some false ∧
    (findReg (Reg.MAC_TX_OCTETS_LO m)).map (·.hid) = some false := by decide +kernel

/-- A shown register that computes its value shows it. -/
theorem Hw.hostValue_computed {h : Hw} {fn r v : Nat} (shown : (findReg r).map (·.hid) = some false) (view : h.viewReg fn r = some v) :
    h.hostValue fn r = v := by
  obtain ⟨d, found, visible⟩ := Option.map_eq_some_iff.mp shown
  simp only [Hw.hostValue, found, view, visible, Bool.false_eq_true, if_false, Option.getD_some]

/-- The LO words show bits 31:0 of the octet counters. -/
theorem Hw.viewReg_rxOctets (h : Hw) (fn : Nat) {m : Nat} (hm : m < 24) :
    h.viewReg fn (Reg.MAC_RX_OCTETS_LO m) = some (kvGetD h.mac.rxOct m 0 % 2 ^ 32) := by
  have block : Reg.MAC_RX_OCTETS_LO m / 0x40000 = 5 := by simp only [Reg.MAC_RX_OCTETS_LO]; omega
  have place : Reg.MAC_RX_OCTETS_LO m % 0x1000 = 0x800 ∧ Reg.MAC_RX_OCTETS_LO m < 0x158000 := by simp only [Reg.MAC_RX_OCTETS_LO]; omega
  have index : (Reg.MAC_RX_OCTETS_LO m - 0x140000) / 0x1000 = m := by simp only [Reg.MAC_RX_OCTETS_LO]; omega
  simp only [Hw.viewReg, block, index]
  exact if_pos place

theorem Hw.viewReg_txOctets (h : Hw) (fn : Nat) {m : Nat} (hm : m < 24) :
    h.viewReg fn (Reg.MAC_TX_OCTETS_LO m) = some (kvGetD h.mac.txOct m 0 % 2 ^ 32) := by
  have block : Reg.MAC_TX_OCTETS_LO m / 0x40000 = 5 := by simp only [Reg.MAC_TX_OCTETS_LO]; omega
  have other : ¬ (Reg.MAC_TX_OCTETS_LO m % 0x1000 = 0x800 ∧ Reg.MAC_TX_OCTETS_LO m < 0x158000) := by simp only [Reg.MAC_TX_OCTETS_LO]; omega
  have place : Reg.MAC_TX_OCTETS_LO m % 0x1000 = 0x830 ∧ Reg.MAC_TX_OCTETS_LO m < 0x158000 := by simp only [Reg.MAC_TX_OCTETS_LO]; omega
  have index : (Reg.MAC_TX_OCTETS_LO m - 0x140000) / 0x1000 = m := by simp only [Reg.MAC_TX_OCTETS_LO]; omega
  simp only [Hw.viewReg, block, index]
  exact (if_neg other).trans (if_pos place)

/-- The LO words are those a read of which copies and clears. -/
theorem isOctetsLo_octets {m : Nat} (hm : m < 24) :
    isOctetsLo (Reg.MAC_RX_OCTETS_LO m) = true ∧ isOctetsLo (Reg.MAC_TX_OCTETS_LO m) = true := by
  unfold isOctetsLo Reg.MAC_RX_OCTETS_LO Reg.MAC_TX_OCTETS_LO
  simp only [Bool.and_eq_true, Bool.or_eq_true, decide_eq_true_eq, beq_iff_eq]
  omega

/-- What a LO read of a receive counter does: HI takes bits 63:32, the counter restarts. -/
theorem Hw.octetsRead_rx (h : Hw) (incr m : Nat) :
    h.octetsRead (Reg.MAC_RX_OCTETS_LO m) incr = (h.wn (Reg.MAC_RX_OCTETS_HI m) (kvGetD h.mac.rxOct m 0 / 2 ^ 32)).onMac
      (fun x => { x with rxOct := kvPut x.rxOct m incr }) := by
  have index : (Reg.MAC_RX_OCTETS_LO m - 0x140000) / 0x1000 = m := by simp only [Reg.MAC_RX_OCTETS_LO]; omega
  have rx : (Reg.MAC_RX_OCTETS_LO m % 0x1000 == 0x800) = true := by simp only [Reg.MAC_RX_OCTETS_LO, beq_iff_eq]; omega
  have hi : Reg.MAC_RX_OCTETS_LO m + 4 = Reg.MAC_RX_OCTETS_HI m := by simp only [Reg.MAC_RX_OCTETS_LO, Reg.MAC_RX_OCTETS_HI]; omega
  simp only [Hw.octetsRead, index, rx, hi, if_true]

/-- What a LO read of a transmit counter does. -/
theorem Hw.octetsRead_tx (h : Hw) (incr m : Nat) :
    h.octetsRead (Reg.MAC_TX_OCTETS_LO m) incr = (h.wn (Reg.MAC_TX_OCTETS_HI m) (kvGetD h.mac.txOct m 0 / 2 ^ 32)).onMac
      (fun x => { x with txOct := kvPut x.txOct m incr }) := by
  have index : (Reg.MAC_TX_OCTETS_LO m - 0x140000) / 0x1000 = m := by simp only [Reg.MAC_TX_OCTETS_LO]; omega
  have tx : (Reg.MAC_TX_OCTETS_LO m % 0x1000 == 0x800) = false := by simp only [Reg.MAC_TX_OCTETS_LO, beq_eq_false_iff_ne]; omega
  have hi : Reg.MAC_TX_OCTETS_LO m + 4 = Reg.MAC_TX_OCTETS_HI m := by simp only [Reg.MAC_TX_OCTETS_LO, Reg.MAC_TX_OCTETS_HI]; omega
  simp only [Hw.octetsRead, index, tx, hi, Bool.false_eq_true, if_false]

/-- MMQ_PEAK_READ of a quota's peak. -/
theorem exec_mmqPeakRead_full {s : State} {fn off q : Nat} (hq : q < 128) (reached : s.hw.hostReg fn off = some (Reg.SWC_MMQ_PEAK q)) :
    exec (.mmqPeakRead fn off 15) s =
      .next (s.on ((s.hw.emit (.regData off (s.hw.rn (Reg.SWC_MMQ_PEAK q)))).wn (Reg.SWC_MMQ_PEAK q) (s.hw.mmqUsed q))) := by
  simp only [exec_mmqPeakRead, execMmqPeakRead, onHw_next, reached, isPeak_mmqPeak hq, if_true, Hw.peakRead_mmqPeak,
    Hw.answer_full _ _ (s.hw.rn_lt _), State.on]
  rfl

/-- OCTETS_LO_READ of a shown LO word. -/
theorem exec_octetsLoRead_full {s : State} {fn off r v : Nat} (reached : s.hw.hostReg fn off = some r) (lo : isOctetsLo r = true)
    (shown : (findReg r).map (·.hid) = some false) (view : s.hw.viewReg fn r = some (v % 2 ^ 32)) :
    exec (.octetsLoRead fn off 15) s = .next (s.on ((s.hw.emit (.regData off (v % 2 ^ 32))).octetsRead r 0)) := by
  simp only [exec_octetsLoRead, execOctetsLoRead, onHw_next, reached, lo, if_true, Hw.hostValue_computed shown view,
    Hw.answer_full _ _ (Nat.mod_lt v (by decide : 0 < 2 ^ 32)), State.on]

/-- Settles O13: an RC counter restarts at what hardware adds, a peak at USED, an octet counter at 0 with its upper half in HI. -/
theorem readsThatClearLoseNothing : Obligations.ReadsThatClearLoseNothing := by
  refine ⟨?rcCounter, ?peak, ?rxOctets, ?txOctets⟩
  case rcCounter =>
    intro s fn off incr r d aligned reached found shown counter held plain
    rw [exec_rcCounterRead_on, Hw.hostReads_rc incr aligned reached found shown counter held plain]
  case peak =>
    intro s fn off q hq reached
    exact ⟨_, exec_mmqPeakRead_full hq reached, rfl, Hw.rn_wn_same _ _ _, fun r' other => Hw.rn_wn_ne _ _ other, rfl⟩
  case rxOctets =>
    intro s fn off m hm reached
    refine ⟨_, exec_octetsLoRead_full reached (isOctetsLo_octets hm).1 (octets_shown m hm).1 (s.hw.viewReg_rxOctets fn hm), ?_⟩
    rw [Hw.octetsRead_rx]
    exact ⟨rfl, Hw.rn_wn_same _ _ _, kvGetD_kvPut_same _ _ _ _, rfl, fun r' other => Hw.rn_wn_ne _ _ other, rfl⟩
  case txOctets =>
    intro s fn off m hm reached
    refine ⟨_, exec_octetsLoRead_full reached (isOctetsLo_octets hm).2 (octets_shown m hm).2 (s.hw.viewReg_txOctets fn hm), ?_⟩
    rw [Hw.octetsRead_tx]
    exact ⟨rfl, Hw.rn_wn_same _ _ _, kvGetD_kvPut_same _ _ _ _, rfl, fun r' other => Hw.rn_wn_ne _ _ other, rfl⟩

/-! ### Readiness (R454) -/

/-- A function that is ready stays so, and nothing else changes. -/
theorem Hw.setReady_already {h : Hw} {off : Nat} {f : Field} (k : Nat) (ready : h.flag off f = true) : h.setReady off f k = h := if_pos ready

/-- A function that becomes ready: its bit, its mirror, its source, its record. -/
theorem Hw.setReady_rises {h : Hw} {off : Nat} {f : Field} (k : Nat) (unready : h.flag off f = false) :
    h.setReady off f k = (((h.setFld off f 1).mirror k 1).fire [192 + k]).readyRecord := if_neg (by rw [unready]; decide)

/-- A fabric that is not ready routes nothing (R468). -/
theorem Hw.fire_unready {h : Hw} (srcs : List Nat) (off : h.flag Reg.EVF_STATUS Fld.EVF_STATUS_READY = false) : h.fire srcs = h :=
  if_neg (by rw [off]; decide)

/-- While owner 2's queue is not enabled, a change of readiness is recorded for owner 1 alone. -/
theorem Hw.readyRecord_owner1 {h : Hw} (off : h.flag (Reg.EVQ_CTRL 2) Fld.EVQ_CTRL_EN = false) :
    h.readyRecord = h.post 1 0x0D01 0 (h.rn Reg.PWR_READY) (h.rn Reg.PWR_READY_PORTS) := by
  simp only [Hw.readyRecord, off, Bool.false_eq_true, if_false]

/-- A field of a register apart from two that are set. -/
theorem Hw.fld_setFld_setFld_ne (h : Hw) {a b r : Nat} (f g k : Field) (v w : Nat) (ha : r ≠ a) (hb : r ≠ b) :
    ((h.setFld a f v).setFld b g w).fld r k = h.fld r k := by
  rw [Hw.fld_setFld_ne _ _ _ _ hb, Hw.fld_setFld_ne _ _ _ _ ha]

/-- TSS_READY in PD_FABRIC. -/
theorem exec_tssReady_on {s : State} (on : s.hw.pg 25 = true) :
    exec .tssReady s = .next (s.on (s.hw.setReady Reg.TSS_STATUS Fld.TSS_STATUS_READY 4)) := by
  rw [exec_tssReady, execTssReady, onHw_next, if_pos on]
  rfl

/-- The scheduling unit once its bit and its mirror are set. -/
def Hw.tssUp (h : Hw) : Hw := (h.setFld Reg.TSS_STATUS Fld.TSS_STATUS_READY 1).setFld Reg.PWR_READY ⟨4, 4⟩ 1

/-- Registers apart from TSS_STATUS and PWR_READY do not show the scheduling unit's readiness. -/
theorem Hw.flag_tssUp (h : Hw) {r : Nat} (f : Field) (ht : r ≠ Reg.TSS_STATUS) (hp : r ≠ Reg.PWR_READY) : h.tssUp.flag r f = h.flag r f := by
  rw [Hw.flag, Hw.tssUp, Hw.fld_setFld_setFld_ne _ _ _ _ _ _ ht hp]
  rfl

/-- What READY of the scheduling unit leaves while the fabric and owner 2's queue are off: one record, for owner 1. -/
theorem Hw.setReady_tss {h : Hw} (unready : h.flag Reg.TSS_STATUS Fld.TSS_STATUS_READY = false)
    (fabric : h.flag Reg.EVF_STATUS Fld.EVF_STATUS_READY = false) (queue2 : h.flag (Reg.EVQ_CTRL 2) Fld.EVQ_CTRL_EN = false) :
    h.setReady Reg.TSS_STATUS Fld.TSS_STATUS_READY 4 =
      h.tssUp.post 1 0x0D01 0 (h.tssUp.rn Reg.PWR_READY) (h.tssUp.rn Reg.PWR_READY_PORTS) := by
  have mirrored : (h.setFld Reg.TSS_STATUS Fld.TSS_STATUS_READY 1).mirror 4 1 = h.tssUp := if_pos (by decide)
  have fabric' : h.tssUp.flag Reg.EVF_STATUS Fld.EVF_STATUS_READY = false := (h.flag_tssUp _ (by decide) (by decide)).trans fabric
  have queue2' : h.tssUp.flag (Reg.EVQ_CTRL 2) Fld.EVQ_CTRL_EN = false := (h.flag_tssUp _ (by decide) (by decide)).trans queue2
  rw [Hw.setReady_rises 4 unready, mirrored, Hw.fire_unready _ fabric', Hw.readyRecord_owner1 queue2']

/-- Settles O15: READY of the scheduling unit is mirrored and recorded once, with the mirrors after the change. -/
theorem readyBitIsMirroredAndReported : Obligations.ReadyBitIsMirroredAndReported := by
  refine ⟨?rises, ?already⟩
  case rises =>
    intro s on unready fabric kept queue2
    have kept' : ¬ s.hw.tssUp.loses 1 0x0D01 := kept
    have base : s.hw.tssUp.fld (Reg.EVQ_CTRL 1) Fld.EVQ_CTRL_TB = s.hw.fld (Reg.EVQ_CTRL 1) Fld.EVQ_CTRL_TB :=
      Hw.fld_setFld_setFld_ne _ _ _ _ _ _ (by decide) (by decide)
    have ready : s.hw.tssUp.fld Reg.TSS_STATUS Fld.TSS_STATUS_READY = 1 :=
      (Hw.fld_setFld_ne _ _ _ _ (by decide)).trans (Hw.fld_setFld_same _ _ _ _ (by decide) (by decide))
    have mirror : (s.hw.tssUp.rn Reg.PWR_READY).testBit 4 = true := by
      rw [Hw.tssUp, Hw.rn_setFld_same _ _ _ _ (by decide) (by decide), testBit_putF _ _ _ _ (by decide), if_pos (by decide)]
      decide
    refine ⟨_, exec_tssReady_on on, ?_⟩
    rw [Hw.setReady_tss unready fabric queue2, Hw.post_kept _ _ _ _ _ _ _ _ kept', base]
    refine ⟨ready, mirror, rfl, fun r ht hp => ?_, rfl⟩
    exact (Hw.rn_setFld_ne _ _ _ hp).trans (Hw.rn_setFld_ne _ _ _ ht)
  case already =>
    intro s ready
    rw [exec_tssReady, execTssReady, onHw_next, Hw.setReady_already 4 ready, ite_self]

/-- Settles O14: each readiness command, its domains good, is its function's setReady behind the emptied tables. -/
theorem functionsBecomeReady : Obligations.FunctionsBecomeReady := by
  refine ⟨?basin, ?fwd, ?vie, ?canGroup, ?lin, ?bridge, ?time, ?quad, ?mac, ?sideband, ?fabric⟩
  case basin =>
    intro s g fabric hg group
    have some : (List.range 16).any (fun g => s.hw.pg (7 + g)) = true := List.any_eq_true.mpr ⟨g, List.mem_range.mpr hg, group⟩
    rw [exec_basinReady, execBasinReady, onHw_next, if_pos (by rw [fabric, some]; rfl)]
    rfl
  case fwd =>
    intro s pipeA pipeB unready
    rw [exec_fwdReady, execFwdReady, onHw_next, if_pos (by rw [pipeA, pipeB, unready]; rfl)]
    rfl
  case vie =>
    intro s on
    rw [exec_vieReady, execVieReady, onHw_next, if_pos on]
    rfl
  case canGroup =>
    intro s g hg on
    rw [exec_canGroupReady, execCanGroupReady, onHw_next, if_pos (by rw [on, decide_eq_true hg]; rfl)]
    rfl
  case lin =>
    intro s on
    rw [exec_canGroupReady, execCanGroupReady, onHw_next, if_neg (by simp), if_pos (by rw [on]; rfl)]
    rfl
  case bridge =>
    intro s on
    rw [exec_brgReady, execBrgReady, onHw_next, if_pos on]
    rfl
  case time =>
    intro s on unready
    rw [exec_timeReady, execTimeReady, onHw_next, if_pos (by rw [on, unready]; rfl)]
    rfl
  case quad =>
    intro s q hq on
    rw [exec_sqReady, execSqReady, onHw_next, if_pos (by rw [on, decide_eq_true hq]; rfl)]
    rfl
  case mac =>
    intro s m hm on quad
    have serves : (decide (20 ≤ m) || s.hw.flag (Reg.SQ_STATUS (m / 4)) Fld.SQ_STATUS_READY) = true := by
      by_cases own : m < 20
      · rw [quad own, Bool.or_true]
      · rw [decide_eq_true (Nat.le_of_not_lt own), Bool.true_or]
    rw [exec_macReady, execMacReady, onHw_next, if_pos (by rw [on, decide_eq_true hm, serves]; rfl)]
    rfl
  case sideband =>
    intro s on
    rw [exec_sbbReady, execSbbReady, onHw_next, if_pos on]
    rfl
  case fabric =>
    intro s on
    rw [exec_evfReady, execEvfReady, onHw_next, if_pos on]
    rfl

end Sys2Proof.Machine
end

section
/-!
PROOFS of 11_mailboxes_and_firmware.md and 12_command_set.md: the frame every GCS command runs in (R331, R332, R346, R347, R352), and what
a command's proof needs of it.
-/
namespace Sys2Proof.Machine

/-! ### The judgement -/

/-- A slot that is empty, or holds no command of this opcode that firmware carries out next, is left alone. -/
theorem Hw.gcsRun_not_due {h : Hw} {o sl op : Nat} (viol : Hw → List Nat) (f : Slot → Gcs)
    (idle : kvGet h.mbx.slots (o * 32 + sl) = none ∨ ∃ q, kvGet h.mbx.slots (o * 32 + sl) = some q ∧
      (q.st ≠ 2 ∨ q.opcode ≠ op ∨ q.committed = true ∨ h.oldestOf (o * 32 + sl) q = false)) : h.gcsRun o sl op viol f = h := by
  rcases idle with empty | ⟨q, held, other⟩
  · simp only [Hw.gcsRun, empty]
  · have skipped : (decide (32 ≤ sl) || q.st != 2 || q.opcode != op || q.committed || !h.oldestOf (o * 32 + sl) q) = true := by
      simp only [Bool.or_eq_true, bne_iff_ne, decide_eq_true_eq, Bool.not_eq_true']
      tauto
    simp only [Hw.gcsRun, held]
    exact if_pos skipped

/-- An issuer without the command is answered DENIED. -/
theorem Hw.gcsRun_denied {h : Hw} {o sl op : Nat} {q : Slot} (viol : Hw → List Nat) (f : Slot → Gcs) (hs : sl < 32)
    (held : kvGet h.mbx.slots (o * 32 + sl) = some q) (active : q.st = 2) (named : q.opcode = op) (open_ : q.committed = false)
    (first : h.oldestOf (o * 32 + sl) q = true) (issuer : issuerOk op o = false) :
    h.gcsRun o sl op viol f = h.complete (o * 32 + sl) cDenied (q.payload.getD 0 0) [] := by
  have judged : ¬ (decide (32 ≤ sl) || q.st != 2 || q.opcode != op || q.committed || !h.oldestOf (o * 32 + sl) q) = true := by
    simp only [Bool.or_eq_true, bne_iff_ne, decide_eq_true_eq, Bool.not_eq_true', active, named, open_, first, ne_eq,
      not_true_eq_false, Bool.true_eq_false, Bool.false_eq_true, or_false]
    omega
  simp only [Hw.gcsRun, held]
  rw [if_neg judged, issuer]
  exact if_pos rfl

/-- The first check that fails gives the answer. -/
theorem Hw.vet_fails {h : Hw} {l m : List Check} {c : Check} (r : Gcs) (before : ∀ x ∈ l, x.1 = false) (fails : c.1 = true) :
    h.vet (l ++ c :: m) r = h.refuse c.2.1 c.2.2 := by
  have skipped : l.find? (fun c => c.1) = none := by
    simpa [List.find?_eq_none] using before
  simp only [Hw.vet, List.find?_append, skipped, Option.none_or, List.find?_cons_of_pos (p := fun c : Check => c.1) fails]

/-- The codes of the judgement of what a command leaves. -/
theorem Hw.judgeNew_code {h x : Hw} {viol : Hw → List Nat} {j : Nat × Nat} (e : h.judgeNew x viol = some j) :
    j.1 = cDeadlock ∨ j.1 = cBound := by
  unfold Hw.judgeNew at e
  split at e
  · exact .inl (congrArg Prod.fst (Option.some.inj e)).symm
  · obtain ⟨d, _, rfl⟩ := Option.map_eq_some_iff.mp e
    exact .inr rfl

/-! ### The completion (R332) -/

/-- The slot as a completion writes it: response, DETAIL, RESP_LEN beside the tag word, DONE with CODE. -/
def Hw.putCompletion (h : Hw) (o n code detail tagWord : Nat) (resp : List Nat) : Hw :=
  (((h.putSlot o n 4 resp).putSlot o n 3 [detail]).putSlot o n 1 [resp.length * 4 * 2 ^ 24 + tagWord % 2 ^ 24]).putSlot o n 2
    [3 * 2 ^ 30 + code % 65536]

/-- The hardware of a completion just before its record: the slot written and freed, the counts shown. -/
def Hw.freed (h : Hw) (k code detail tagWord : Nat) (resp : List Nat) : Hw :=
  ((h.putCompletion (k / 32) (k % 32) code detail tagWord resp).onMbx (fun m => { m with slots := kvDel m.slots k })).showMbx (k / 32)

/-- A completion that no abort went before is the slot written and freed, and MBX_DONE. -/
theorem Hw.complete_held {h : Hw} {k : Nat} {q : Slot} (code detail : Nat) (resp : List Nat) (held : kvGet h.mbx.slots k = some q)
    (timely : q.aborted = false) : h.complete k code detail resp = (h.freed k code detail (q.copy.getD 1 0) resp).post (k / 32) 0x0201
      (q.tag * 65536 + k % 32) (q.opcode * 65536 + code % 65536) detail := by
  simp only [Hw.complete, held, timely, Bool.false_eq_true, if_false]
  rfl

/-- Slot words depend on the mailbox RAM alone. -/
theorem Hw.slotWord_congr {h x : Hw} (e : x.mbx.ram = h.mbx.ram) (o s w : Nat) : x.slotWord o s w = h.slotWord o s w := by
  simp only [Hw.slotWord, e]

/-- The words of the mailbox RAM after a completion are those written. -/
theorem Hw.slotWord_complete {h : Hw} {k : Nat} {q : Slot} (code detail : Nat) (resp : List Nat) (held : kvGet h.mbx.slots k = some q)
    (timely : q.aborted = false) (o n w : Nat) : (h.complete k code detail resp).slotWord o n w =
      (h.putCompletion (k / 32) (k % 32) code detail (q.copy.getD 1 0) resp).slotWord o n w := by
  refine Hw.slotWord_congr ?_ o n w
  rw [Hw.complete_held code detail resp held timely, Hw.post_mbx]
  rfl

/-- A word that one of several writes of a slot goes past. -/
theorem Hw.slotWord_putOne_ne (h : Hw) (o n v : Nat) {w t : Nat} (other : t ≠ w) : (h.putSlot o n w [v]).slotWord o n t = h.slotWord o n t :=
  Hw.slotWord_putSlot_out (by simp only [List.length_singleton]; omega)

/-- A word written alone. -/
theorem Hw.slotWord_putOne (h : Hw) (o n v : Nat) {w : Nat} (hw : w < 32) : (h.putSlot o n w [v]).slotWord o n w = v % 2 ^ 32 :=
  Hw.slotWord_putSlot_in (i := 0) (by simp) hw

/-- Word 2 of a completed slot: DONE and CODE. -/
theorem Hw.slotWord_putCompletion_status (h : Hw) (o n detail tagWord : Nat) (resp : List Nat) {code : Nat} (hc : code < 2 ^ 16) :
    (h.putCompletion o n code detail tagWord resp).slotWord o n 2 = 3 * 2 ^ 30 + code := by
  rw [Hw.putCompletion, Hw.slotWord_putOne _ _ _ _ (by decide)]
  omega

/-- Word 3 of a completed slot: DETAIL. -/
theorem Hw.slotWord_putCompletion_detail (h : Hw) (o n code detail tagWord : Nat) (resp : List Nat) :
    (h.putCompletion o n code detail tagWord resp).slotWord o n 3 = detail % 2 ^ 32 := by
  rw [Hw.putCompletion, Hw.slotWord_putOne_ne _ _ _ _ (by decide), Hw.slotWord_putOne_ne _ _ _ _ (by decide),
    Hw.slotWord_putOne _ _ _ _ (by decide)]

/-- The response stands from word 4 on. -/
theorem Hw.slotWord_putCompletion_response (h : Hw) (o n code detail tagWord : Nat) {resp : List Nat} (short : resp.length ≤ 28) {i : Nat}
    (hi : i < resp.length) : (h.putCompletion o n code detail tagWord resp).slotWord o n (4 + i) = resp.getD i 0 % 2 ^ 32 := by
  rw [Hw.putCompletion, Hw.slotWord_putOne_ne _ _ _ _ (by omega), Hw.slotWord_putOne_ne _ _ _ _ (by omega),
    Hw.slotWord_putOne_ne _ _ _ _ (by omega), Hw.slotWord_putSlot_in hi (by omega)]

/-- A completion writes no other slot. -/
theorem Hw.slotWord_putCompletion_other (h : Hw) (o code detail tagWord : Nat) {resp : List Nat} (short : resp.length ≤ 28) {n m w : Nat}
    (hn : n < 32) (hm : m < 32) (hw : w < 32) (other : m ≠ n) :
    (h.putCompletion o n code detail tagWord resp).slotWord o m w = h.slotWord o m w := by
  have one : ∀ {x : Hw} {t v : Nat}, t < 4 → (x.putSlot o n t [v]).slotWord o m w = x.slotWord o m w := fun ht =>
    Hw.slotWord_putSlot_slot hm hw hn other (by simp only [List.length_singleton]; omega)
  rw [Hw.putCompletion, one (by decide), one (by decide), one (by decide), Hw.slotWord_putSlot_slot hm hw hn other (by omega)]

/-- Showing the commands in flight touches no event queue. -/
theorem Hw.showMbx_evq (h : Hw) (o : Nat) : (h.showMbx o).evq = h.evq := rfl

/-- Showing the commands in flight touches no owner. -/
theorem Hw.showMbx_own (h : Hw) (o : Nat) : (h.showMbx o).own = h.own := rfl

/-- A completion's words touch no event queue. -/
theorem Hw.putCompletion_evq (h : Hw) (o n code detail tagWord : Nat) (resp : List Nat) :
    (h.putCompletion o n code detail tagWord resp).evq = h.evq := by
  rw [Hw.putCompletion, Hw.putSlot_evq, Hw.putSlot_evq, Hw.putSlot_evq, Hw.putSlot_evq]

/-- A completion's words touch no owner. -/
theorem Hw.putCompletion_own (h : Hw) (o n code detail tagWord : Nat) (resp : List Nat) :
    (h.putCompletion o n code detail tagWord resp).own = h.own := by
  rw [Hw.putCompletion, Hw.putSlot_own, Hw.putSlot_own, Hw.putSlot_own, Hw.putSlot_own]

/-- Freeing a slot touches no event queue. -/
theorem Hw.freed_evq (h : Hw) (k code detail tagWord : Nat) (resp : List Nat) : (h.freed k code detail tagWord resp).evq = h.evq := by
  rw [Hw.freed, Hw.showMbx_evq, Hw.onMbx_evq, Hw.putCompletion_evq]

/-- Freeing a slot touches no owner. -/
theorem Hw.freed_own (h : Hw) (k code detail tagWord : Nat) (resp : List Nat) : (h.freed k code detail tagWord resp).own = h.own := by
  rw [Hw.freed, Hw.showMbx_own, Hw.onMbx_own, Hw.putCompletion_own]

/-- A record is lost after a slot is freed exactly where it was lost before. -/
theorem Hw.freed_loses (h : Hw) (k code detail tagWord : Nat) (resp : List Nat) (o kind : Nat) :
    (h.freed k code detail tagWord resp).loses o kind ↔ h.loses o kind := by
  simp only [Hw.loses, Hw.deaf, Hw.freed_evq, Hw.freed_own]

/-- The staging behind a completion's record. -/
theorem Hw.staging_complete {h : Hw} {k : Nat} {q : Slot} (code detail : Nat) (resp : List Nat) (held : kvGet h.mbx.slots k = some q)
    (timely : q.aborted = false) (kept : ¬ h.loses (k / 32) 0x0201) :
    ∃ r, (h.complete k code detail resp).evq.staging = h.evq.staging ++ [r] ∧ r.owner = k / 32 ∧ r.kind = 0x0201 ∧
      r.w3 = q.tag * 65536 + k % 32 ∧ r.w4 = q.opcode * 65536 + code % 65536 ∧ r.w5 = detail := by
  have kept' := mt (h.freed_loses k code detail (q.copy.getD 1 0) resp (k / 32) 0x0201).mp kept
  rw [Hw.complete_held code detail resp held timely, Hw.post_staged _ _ _ _ _ _ _ _ kept', Hw.freed_evq]
  exact ⟨_, rfl, rfl, rfl, rfl, rfl, rfl⟩

/-- Settles O8: the frame by what a slot holds, the judgement by its result, the completion by the words it writes. -/
theorem gcsFrameJudgesAndCompletes : Obligations.GcsFrameJudgesAndCompletes := by
  refine ⟨?notDue, ?denied, ?refused, ?waits, ?firstFailing, ?judged, ?codes, ?completion⟩
  case notDue => exact fun h o sl op viol f idle => Hw.gcsRun_not_due viol f idle
  case denied =>
    exact fun h o sl op viol f q hs held active named open_ first issuer =>
      Hw.gcsRun_denied viol f hs held active named open_ first issuer
  case refused =>
    intro h x o sl op code detail resp viol f q due refused
    rw [Hw.gcsRun_due viol f due, refused]
  case waits =>
    intro h x o sl op viol f q due begun
    rw [Hw.gcsRun_due viol f due, begun]
  case firstFailing => exact fun h l m c r before fails => Hw.vet_fails r before fails
  case judged =>
    intro h x o sl op resp viol f q due passed
    rw [Hw.gcsRun_due viol f due, passed]
    refine ⟨fun clean => ?_, fun e deadlock => ?_, fun e bound => ?_⟩
    · simp only [clean]
    · simp only [deadlock, if_neg (show ¬ cDeadlock = cBound by decide), ite_self]
    · simp only [bound, if_true]
  case codes => exact fun h x viol j broken => Hw.judgeNew_code broken
  case completion =>
    intro h k code detail resp q held timely short hc o n x
    have hn : n < 32 := Nat.mod_lt _ (by decide)
    have word := Hw.slotWord_complete code detail resp held timely
    refine ⟨Hw.complete_frees _ _ _ _ _, ?_, ?_, fun i hi => ?_, fun m w hm hw other => ?_, fun kept => ?_⟩
    · exact (word o n 2).trans (Hw.slotWord_putCompletion_status _ _ _ _ _ _ hc)
    · exact (word o n 3).trans (Hw.slotWord_putCompletion_detail _ _ _ _ _ _ _)
    · exact (word o n (4 + i)).trans (Hw.slotWord_putCompletion_response _ _ _ _ _ _ short hi)
    · exact (word o m w).trans (Hw.slotWord_putCompletion_other _ _ _ _ _ short hn hm hw other)
    · have record := Hw.staging_complete code detail resp held timely kept
      rwa [show code % 65536 = code from Nat.mod_eq_of_lt hc] at record

/-! ### A command firmware carries out next -/

/-- A command whose checks let it through and that breaks nothing completes with OK. -/
theorem gcs_done {s : State} {o sl op : Nat} {q : Slot} {viol : Hw → List Nat} {f : Hw → Slot → Gcs} {x : Hw} {resp : List Nat} {r : Res}
    (meaning : r = onHw s (fun h => h.gcsRun o sl op viol (f h))) (runs : s.hw.runs o sl op q) (passed : f s.hw q = .ok x resp)
    (clean : s.hw.clean x viol) : r = .next (s.done o sl x resp) := by
  rw [meaning, onHw_next, Hw.gcsRun_ok runs passed clean]
  rfl

/-- A command that is refused completes with its code. -/
theorem gcs_closed {s : State} {o sl op : Nat} {q : Slot} {viol : Hw → List Nat} {f : Hw → Slot → Gcs} {x : Hw} {code detail : Nat}
    {resp : List Nat} {r : Res} (meaning : r = onHw s (fun h => h.gcsRun o sl op viol (f h))) (runs : s.hw.runs o sl op q)
    (refused : f s.hw q = .no code detail resp x) : r = .next (s.closed o sl x code detail resp) := by
  rw [meaning, onHw_next, Hw.gcsRun_no runs refused]
  rfl

/-- A command that is begun, or waits, leaves what its meaning gives. -/
theorem gcs_left {s : State} {o sl op : Nat} {q : Slot} {viol : Hw → List Nat} {f : Hw → Slot → Gcs} {x : Hw} {r : Res}
    (meaning : r = onHw s (fun h => h.gcsRun o sl op viol (f h))) (runs : s.hw.runs o sl op q) (begun : f s.hw q = .wait x) :
    r = .next (s.on x) := by
  rw [meaning, onHw_next, Hw.gcsRun_wait runs begun]
  rfl

/-- A Boolean guard that is off. -/
theorem ite_off {α : Type} {b : Bool} {x y : α} (off : b = false) : (if b = true then x else y) = y := if_neg (by rw [off]; decide)

end Sys2Proof.Machine
end

section
/-!
PROOFS of 12_command_set.md, groups SYS, OWN, PORT, MEM, PWR and DIAG: each command past its checks completes with what it leaves.
-/
namespace Sys2Proof.Machine

/-- Settles O51: each SYS command past its checks; the flash commands by what became of their elements. -/
theorem sysCommandsComplete : Obligations.SysCommandsComplete := by
  refine ⟨?hello, ?helloOtherMajor, ?info, ?bootReport, ?flashErased, ?flashEraseStops, ?flashWritten, ?reset, ?earlyRead, ?earlyAbsent,
    ?earlyWrite, ?evfRoute, ?cascadeForm, ?cascadeResync, ?cascadeStatus⟩
  case hello =>
    intro s owner slot q runs h major minor r after major3 clean
    exact gcs_done (exec_sysHello owner slot s) runs (if_pos major3) clean
  case helloOtherMajor =>
    intro s owner slot q runs h after other
    exact gcs_closed (exec_sysHello owner slot s) runs (if_neg other)
  case info =>
    intro s owner slot q runs h after clean
    exact gcs_done (exec_sysInfo owner slot s) runs rfl clean
  case bootReport =>
    intro s owner slot q runs h after clean
    exact gcs_done (exec_sysBootReport owner slot s) runs rfl clean
  case flashErased =>
    intro s owner slot q runs h n r after checks whole clean
    exact gcs_done (exec_sysFlashErase owner slot s) runs (Hw.partial_ok checks whole) clean
  case flashEraseStops =>
    intro s owner slot q runs h n r code detail after checks stopped
    exact gcs_closed (exec_sysFlashErase owner slot s) runs (Hw.partial_no checks stopped)
  case flashWritten =>
    intro s owner slot q runs h at_ len r after checks whole clean
    exact gcs_done (exec_sysFlashWrite owner slot s) runs (Hw.partial_ok checks whole) clean
  case reset =>
    intro s owner slot q runs h after clean
    exact gcs_done (exec_sysReset owner slot s) runs rfl clean
  case earlyRead =>
    intro s owner slot q runs h e after inForce reachable clean
    exact gcs_done (exec_sysEarlyRead owner slot s) runs
      (by simp only [show s.hw.sys.early = some e from inForce]; exact Hw.answerBuffer_ok reachable) clean
  case earlyAbsent =>
    intro s owner slot q runs h after absent
    exact gcs_closed (exec_sysEarlyRead owner slot s) runs (by simp only [show s.hw.sys.early = none from absent]; rfl)
  case earlyWrite =>
    intro s owner slot copy q runs h after clean
    split
    · next verified => exact gcs_done (exec_sysEarlyWrite owner slot copy s) runs (if_pos verified) clean
    · next forged => exact gcs_closed (exec_sysEarlyWrite owner slot copy s) runs (if_neg forged)
  case evfRoute =>
    intro s owner slot q runs h t mask others cfgMask after checks clean
    exact gcs_done (exec_sysEvfRoute owner slot s) runs (Hw.vet_ok _ _ _ checks) clean
  case cascadeForm =>
    intro s owner slot auth q runs h w idx size links members after checks clean
    exact gcs_done (exec_sysCascadeForm owner slot auth s) runs (Hw.vet_ok _ _ _ checks) clean
  case cascadeResync =>
    intro s owner slot q runs h k after checks clean
    exact gcs_done (exec_sysCascadeResync owner slot s) runs (Hw.vet_ok _ _ _ checks) clean
  case cascadeStatus =>
    intro s owner slot q runs h after clean
    exact gcs_done (exec_sysCascadeStatus owner slot s) runs rfl clean

/-- Settles O52: each OWN command past its checks. -/
theorem ownCommandsComplete : Obligations.OwnCommandsComplete := by
  refine ⟨?create, ?teardown, ?grant, ?revoke, ?policyRead, ?setLimits, ?list⟩
  case create =>
    intro s owner slot q runs h o after checks running up clean
    exact gcs_done (exec_ownCreate owner slot s) runs ((Hw.vet_ok _ _ _ checks).trans (Hw.withTrng_ok running up)) clean
  case teardown =>
    intro s owner slot q runs h o erased after checks
    exact gcs_left (exec_ownTeardown owner slot s) runs (Hw.vet_ok _ _ _ checks)
  case grant =>
    intro s owner slot q runs h access o held after checks clean
    exact gcs_done (exec_ownGrant owner slot s) runs (Hw.vet_ok _ _ _ checks) clean
  case revoke =>
    intro s owner slot q runs h after checks clean
    exact gcs_done (exec_ownRevoke owner slot s) runs (Hw.vet_ok _ _ _ checks) clean
  case policyRead =>
    intro s owner slot q runs h o after checks reachable clean
    exact gcs_done (exec_ownPolicyRead owner slot s) runs ((Hw.vet_ok _ _ _ checks).trans (Hw.answerBuffer_ok reachable)) clean
  case setLimits =>
    intro s owner slot q runs h o pairs after checks clean
    exact gcs_done (exec_ownSetLimits owner slot s) runs (Hw.vet_ok _ _ _ checks) clean
  case list =>
    intro s owner slot q runs h l after clean
    exact gcs_done (exec_ownList owner slot s) runs rfl clean

/-- Settles O53: each PORT command past its checks; PORT_SET also judges the bounds at the rate the port would run at. -/
theorem portCommandsComplete : Obligations.PortCommandsComplete := by
  refine ⟨?set, ?get, ?quadSet, ?eqSet, ?steerSet, ?eeeSet, ?plcaSet, ?wakeSet, ?macsecSet, ?sleep⟩
  case set =>
    intro s owner slot q runs h m c old mode en rate an vid own us clash link relink x x y after checks bounded clean
    have within : s.hw.boundBreaks y = none := bounded
    exact gcs_done (exec_portSet owner slot s) runs
      (by simp only [Hw.gcsPortSet]; rw [show Hw.boundBreaks s.hw y = none from within]; exact Hw.vet_ok _ _ _ checks) clean
  case get =>
    intro s owner slot q runs h m after checks clean
    exact gcs_done (exec_portGet owner slot s) runs (Hw.vet_ok _ _ _ checks) clean
  case quadSet =>
    intro s owner slot q runs h k v macs lanes clash after checks clean
    exact gcs_done (exec_portQuadSet owner slot s) runs (Hw.vet_ok _ _ _ checks) clean
  case eqSet =>
    intro s owner slot q runs h m after checks clean
    exact gcs_done (exec_portEqSet owner slot s) runs (Hw.vet_ok _ _ _ checks) clean
  case steerSet =>
    intro s owner slot q runs h m i after checks clean
    exact gcs_done (exec_portSteerSet owner slot s) runs (Hw.vet_ok _ _ _ checks) clean
  case eeeSet =>
    intro s owner slot q runs h m c tw after checks clean
    exact gcs_done (exec_portEeeSet owner slot s) runs (Hw.vet_ok _ _ _ checks) clean
  case plcaSet =>
    intro s owner slot q runs h m c n after checks clean
    exact gcs_done (exec_portPlcaSet owner slot s) runs (Hw.vet_ok _ _ _ checks) clean
  case wakeSet =>
    intro s owner slot q runs h m pat after checks clean
    exact gcs_done (exec_portWakeSet owner slot s) runs (Hw.vet_ok _ _ _ checks) clean
  case macsecSet =>
    intro s owner slot q runs h m c en after checks clean
    exact gcs_done (exec_portMacsecSet owner slot s) runs (Hw.vet_ok _ _ _ checks) clean
  case sleep =>
    intro s owner slot q runs h g macs ds after checks clean
    exact gcs_done (exec_portSleep owner slot s) runs (Hw.vet_ok _ _ _ checks) clean

/-- Settles O1: each MEM and PWR command past its checks, by the branch its payload and the state of the device select. -/
theorem memAndPwrCommandsComplete : Obligations.MemAndPwrCommandsComplete := by
  refine ⟨?grant, ?retainFirmware, ?retainOff, ?retainedAlready, ?retainEnters, ?marchBegins, ?marchWaits, ?marchResult, ?conflictRead,
    ?lpddrRegion, ?stateOffOrStandby, ?stateRequested, ?stateWaits, ?stateRead, ?domainSet, ?wakeSet, ?railSet, ?wakeCauseRead,
    ?clockStatus⟩
  case grant =>
    intro s owner slot q runs h b new pass after checks
    exact gcs_left (exec_memBankGrant owner slot s) runs (Hw.vet_ok _ _ _ checks)
  case retainFirmware =>
    intro s owner slot q runs h b on k after checks firmware clean
    exact gcs_done (exec_memBankRetain owner slot s) runs ((Hw.vet_ok _ _ _ checks).trans (if_pos firmware)) clean
  case retainOff =>
    intro s owner slot q runs h b on k after checks general off clean
    exact gcs_done (exec_memBankRetain owner slot s) runs
      ((Hw.vet_ok _ _ _ checks).trans ((if_neg general.not_gt).trans (if_pos (congrArg (!·) off)))) clean
  case retainedAlready =>
    intro s owner slot q runs h b on k x after checks general on_ retained clean
    exact gcs_done (exec_memBankRetain owner slot s) runs
      ((Hw.vet_ok _ _ _ checks).trans ((if_neg general.not_gt).trans ((ite_off (congrArg (!·) on_)).trans (if_pos retained)))) clean
  case retainEnters =>
    intro s owner slot q runs h b on k x after checks general on_ awake
    exact gcs_left (exec_memBankRetain owner slot s) runs
      ((Hw.vet_ok _ _ _ checks).trans ((if_neg general.not_gt).trans ((ite_off (congrArg (!·) on_)).trans (if_neg awake))))
  case marchBegins =>
    intro s owner slot q runs h fw gen banks keep after checks idle
    exact gcs_left (exec_memMarchRun owner slot s) runs ((Hw.vet_ok _ _ _ checks).trans (ite_off idle))
  case marchWaits =>
    intro s owner slot q runs h fw gen banks keep after checks running
    exact gcs_left (exec_memMarchRun owner slot s) runs ((Hw.vet_ok _ _ _ checks).trans (if_pos running))
  case marchResult =>
    intro s owner slot q runs h after clean
    exact gcs_done (exec_memMarchResult owner slot s) runs rfl clean
  case conflictRead =>
    intro s owner slot q runs h after clean
    exact gcs_done (exec_memConflictRead owner slot s) runs rfl clean
  case lpddrRegion =>
    intro s owner slot q runs h i c n en t b o hit after checks clean
    exact gcs_done (exec_memLpddrRegion owner slot s) runs (Hw.vet_ok _ _ _ checks) clean
  case stateOffOrStandby =>
    intro s owner slot q runs h goal group m armed after checks idle deep clean
    exact gcs_done (exec_pwrStateSet owner slot s) runs ((Hw.vet_ok _ _ _ checks).trans ((ite_off idle).trans (if_pos deep))) clean
  case stateRequested =>
    intro s owner slot q runs h goal group m armed after checks idle shallow
    exact gcs_left (exec_pwrStateSet owner slot s) runs ((Hw.vet_ok _ _ _ checks).trans ((ite_off idle).trans (if_neg shallow.not_ge)))
  case stateWaits =>
    intro s owner slot q runs h goal group m armed after checks busy
    exact gcs_left (exec_pwrStateSet owner slot s) runs ((Hw.vet_ok _ _ _ checks).trans (if_pos busy))
  case stateRead =>
    intro s owner slot q runs h after clean
    exact gcs_done (exec_pwrStateRead owner slot s) runs rfl clean
  case domainSet =>
    intro s owner slot q runs h now sel m after checks idle
    exact gcs_left (exec_pwrDomainSet owner slot s) runs ((Hw.vet_ok _ _ _ checks).trans (ite_off idle))
  case wakeSet =>
    intro s owner slot q runs h c t after checks idle clean
    exact gcs_done (exec_pwrWakeSet owner slot s) runs ((Hw.vet_ok _ _ _ checks).trans (ite_off idle)) clean
  case railSet =>
    intro s owner slot q runs h r c f on d auto cfg after checks clean
    exact gcs_done (exec_pwrRailSet owner slot s) runs (Hw.vet_ok _ _ _ checks) clean
  case wakeCauseRead =>
    intro s owner slot q runs h l after owner1 clean
    exact gcs_done (exec_pwrWakeCauseRead owner slot s) runs (if_neg (by simp [owner1])) clean
  case clockStatus =>
    intro s owner slot q runs h after clean
    exact gcs_done (exec_pwrClockStatus owner slot s) runs rfl clean

/-- Settles O2: each DIAG command past its checks; those for a far bus begin their first request in the free slot. -/
theorem diagCommandsComplete : Obligations.DiagCommandsComplete := by
  refine ⟨?unitReset, ?groupReset, ?loopback, ?testgen, ?farRead, ?farWrite, ?farSequence, ?gpioSet, ?registerRead, ?undescribedRead,
    ?inject⟩
  case unitReset =>
    intro s owner slot q runs h k i after checks clean
    exact gcs_done (exec_diagUnitReset owner slot s) runs (Hw.vet_ok _ _ _ checks) clean
  case groupReset =>
    intro s owner slot q runs h k i after checks clean
    exact gcs_done (exec_diagGroupReset owner slot s) runs (Hw.vet_ok _ _ _ checks) clean
  case loopback =>
    intro s owner slot q runs h m v after checks clean
    exact gcs_done (exec_diagLoopback owner slot s) runs (Hw.vet_ok _ _ _ checks) clean
  case testgen =>
    intro s owner slot q runs h after checks clean
    exact gcs_done (exec_diagTestgen owner slot s) runs (Hw.vet_ok _ _ _ checks) clean
  case farRead =>
    intro s owner slot q runs h n k l r rs t after checks requests fresh free
    exact gcs_left (exec_diagSbbRead owner slot s) runs (Hw.farRun_go fresh checks requests free)
  case farWrite =>
    intro s owner slot q runs h n op data k l r rs t after checks requests fresh free
    exact gcs_left (exec_diagSbbWrite owner slot s) runs (Hw.farRun_go fresh checks requests free)
  case farSequence =>
    intro s owner slot q runs h n ctrl req is k l r rs t after checks requests fresh free
    exact gcs_left (exec_diagSbbSeq owner slot s) runs (Hw.farRun_go fresh checks requests free)
  case gpioSet =>
    intro s owner slot q runs h n d after checks clean
    exact gcs_done (exec_diagGpioSet owner slot s) runs (Hw.vet_ok _ _ _ checks) clean
  case registerRead =>
    intro s owner slot q runs h r rd after checks found clean
    exact gcs_done (exec_diagRegRead owner slot s) runs ((Hw.vet_ok _ _ _ checks).trans (by rw [found]; rfl)) clean
  case undescribedRead =>
    intro s owner slot q runs h r after checks absent clean
    exact gcs_done (exec_diagRegRead owner slot s) runs ((Hw.vet_ok _ _ _ checks).trans (by rw [absent])) clean
  case inject =>
    intro s owner slot q runs h t i after checks clean
    exact gcs_done (exec_diagInject owner slot s) runs (Hw.vet_ok _ _ _ checks) clean

end Sys2Proof.Machine
end

section
/-!
PROOFS of 12_command_set.md, groups FWD, QOS and VID: each command past its checks completes with what it leaves.
-/
namespace Sys2Proof.Machine

/-- Settles O54: each FWD command past its checks; additions by the room the table has, bulk additions by what became of their entries. -/
theorem fwdCommandsComplete : Obligations.FwdCommandsComplete := by
  refine ⟨?emAdd, ?emDel, ?emBulkAdded, ?emBulkStops, ?emRead, ?flush, ?lpmAdd, ?lpmDel, ?aclWrite, ?aclDel, ?vlanSet, ?mcastSet,
    ?nhopSet, ?ageSet, ?learnSet, ?cfgSet, ?samplerSet, ?cascadePath⟩
  case emAdd =>
    intro s owner slot q runs h e r evicted after checks written clean
    have placed : s.hw.emPut (emOfPayload s.hw.ageNow q.payload) = (some evicted, r.2) := Prod.ext written rfl
    exact gcs_done (exec_fwdEmAdd owner slot s) runs ((Hw.vet_ok _ _ _ checks).trans (by rw [placed])) clean
  case emDel =>
    intro s owner slot q runs h t e after checks held clean
    exact gcs_done (exec_fwdEmDel owner slot s) runs
      (by simp only [show s.hw.emAt (q.w 0 % 16) (keyWords (q.w 1) (q.w 2) (q.w 3)) = some e from held]; exact Hw.vet_ok _ _ _ checks) clean
  case emBulkAdded =>
    intro s owner slot q runs h n ws r after checks whole clean
    exact gcs_done (exec_fwdEmAddBulk owner slot s) runs (Hw.partial_ok checks whole) clean
  case emBulkStops =>
    intro s owner slot q runs h n ws r code detail after checks stopped
    exact gcs_closed (exec_fwdEmAddBulk owner slot s) runs (Hw.partial_no checks stopped)
  case emRead =>
    intro s owner slot q runs h x p e after checks held clean
    exact gcs_done (exec_fwdEmRead owner slot s) runs
      (by dsimp only; rw [show (if bit (q.w 0) 31 = true then _ else _) = _ from held]; exact Hw.vet_ok _ _ _ checks) clean
  case flush =>
    intro s owner slot q runs h w byP byV r after checks clean
    exact gcs_done (exec_fwdFlush owner slot s) runs (Hw.vet_ok _ _ _ checks) clean
  case lpmAdd =>
    intro s owner slot q runs h p nh new ws after checks placed clean
    exact gcs_done (exec_fwdLpmAdd owner slot s) runs
      ((Hw.vet_ok _ _ _ checks).trans (by rw [show lpmInsert s.hw.fwd.lpm new = some ws from placed])) clean
  case lpmDel =>
    intro s owner slot q runs h e after checks held clean
    exact gcs_done (exec_fwdLpmDel owner slot s) runs
      ((Hw.vet_ok _ _ _ checks).trans (by rw [show s.hw.lpmAt q.route.1 q.route.2.1 = some e from held])) clean
  case aclWrite =>
    intro s owner slot q runs h i w t act e after checks clean
    exact gcs_done (exec_fwdAclWrite owner slot s) runs (Hw.vet_ok _ _ _ checks) clean
  case aclDel =>
    intro s owner slot q runs h i after checks clean
    exact gcs_done (exec_fwdAclDel owner slot s) runs (Hw.vet_ok _ _ _ checks) clean
  case vlanSet =>
    intro s owner slot q runs h v was e after checks clean
    exact gcs_done (exec_fwdVlanSet owner slot s) runs (Hw.vet_ok _ _ _ checks) clean
  case mcastSet =>
    intro s owner slot q runs h g after checks clean
    exact gcs_done (exec_fwdMcastSet owner slot s) runs (Hw.vet_ok _ _ _ checks) clean
  case nhopSet =>
    intro s owner slot q runs h i e after checks clean
    exact gcs_done (exec_fwdNhopSet owner slot s) runs (Hw.vet_ok _ _ _ checks) clean
  case ageSet =>
    intro s owner slot q runs h after checks clean
    exact gcs_done (exec_fwdAgeSet owner slot s) runs (Hw.vet_ok _ _ _ checks) clean
  case learnSet =>
    intro s owner slot q runs h p cas all hold after checks clean
    exact gcs_done (exec_fwdLearnSet owner slot s) runs (Hw.vet_ok _ _ _ checks) clean
  case cfgSet =>
    intro s owner slot q runs h after checks clean
    exact gcs_done (exec_fwdCfgSet owner slot s) runs (Hw.vet_ok _ _ _ checks) clean
  case samplerSet =>
    intro s owner slot q runs h k t i after checks clean
    exact gcs_done (exec_fwdSamplerSet owner slot s) runs (Hw.vet_ok _ _ _ checks) clean
  case cascadePath =>
    intro s owner slot q runs h p after checks clean
    exact gcs_done (exec_fwdCascadePath owner slot s) runs (Hw.vet_ok _ _ _ checks) clean

/-- Settles O55: each QOS command past its checks; a gate list by what runs and what it asks for, an admission by its policer. -/
theorem qosCommandsComplete : Obligations.QosCommandsComplete := by
  refine ⟨?classSet, ?gclNothing, ?gclStop, ?gclPend, ?cbsSet, ?preemptSet, ?weirSet, ?sluiceFilterSet, ?sluiceGateLoad, ?sluiceUnblock,
    ?frerSet, ?streamAdmit, ?streamUnlimited, ?streamWithdraw, ?boundRead, ?voqSet, ?quotaSet, ?sharedSet, ?qsamplerSet⟩
  case classSet =>
    intro s owner slot q runs h p cls len quantum burst after checks clean
    exact gcs_done (exec_qosClassSet owner slot s) runs (Hw.vet_ok _ _ _ checks) clean
  case gclNothing =>
    intro s owner slot q runs h m en n ws base l running pre bank y common cyc after checks idle clean
    exact gcs_done (exec_qosGclLoad owner slot s) runs ((if_pos idle).trans (Hw.vet_ok _ _ _ checks)) clean
  case gclStop =>
    intro s owner slot q runs h m en n ws base l running pre bank y common cyc after checks off on_ served clean
    have noList : ¬ (!en && !running) = true := by rw [off, on_]; decide
    exact gcs_done (exec_qosGclLoad owner slot s) runs
      ((if_neg noList).trans ((if_pos (congrArg (!·) off)).trans ((Hw.vet_ok _ _ _ checks).trans (by rw [show s.hw.judgeNew y Hw.serviceRules = none from served])))) clean
  case gclPend =>
    intro s owner slot q runs h m en n ws base l running pre bank y common cyc after checks on_ served bounded clean
    have asked : ¬ (!en && !running) = true := by rw [on_]; simp
    exact gcs_done (exec_qosGclLoad owner slot s) runs
      ((if_neg asked).trans ((ite_off (congrArg (!·) on_)).trans ((Hw.vet_ok _ _ _ checks).trans (by rw [served, bounded])))) clean
  case cbsSet =>
    intro s owner slot q runs h m c k other slope after checks clean
    exact gcs_done (exec_qosCbsSet owner slot s) runs (Hw.vet_ok _ _ _ checks) clean
  case preemptSet =>
    intro s owner slot q runs h m r en ver same after checks clean
    exact gcs_done (exec_qosPreemptSet owner slot s) runs (Hw.vet_ok _ _ _ checks) clean
  case weirSet =>
    intro s owner slot q runs h b c en rate burst same after checks clean
    exact gcs_done (exec_qosWeirSet owner slot s) runs (Hw.vet_ok _ _ _ checks) clean
  case sluiceFilterSet =>
    intro s owner slot q runs h k c en meter after checks clean
    exact gcs_done (exec_qosSluiceFilterSet owner slot s) runs (Hw.vet_ok _ _ _ checks) clean
  case sluiceGateLoad =>
    intro s owner slot q runs h g c en n ws l running after checks clean
    exact gcs_done (exec_qosSluiceGateLoad owner slot s) runs (Hw.vet_ok _ _ _ checks) clean
  case sluiceUnblock =>
    intro s owner slot q runs h gate k after checks clean
    exact gcs_done (exec_qosSluiceUnblock owner slot s) runs (Hw.vet_ok _ _ _ checks) clean
  case frerSet =>
    intro s owner slot q runs h n c hist ms handles kept after checks clean
    exact gcs_done (exec_qosFrerSet owner slot s) runs (Hw.vet_ok _ _ _ checks) clean
  case streamAdmit =>
    intro s owner slot q runs h k w adm x b after checks limited clean
    exact gcs_done (exec_qosStreamAdmit owner slot s) runs
      ((Hw.vet_ok _ _ _ checks).trans (by rw [if_pos (show s.hw.weirOn (768 + k) = true from limited), show s.hw.judgeNew x Hw.serviceRules = none from clean])) clean
  case streamUnlimited =>
    intro s owner slot q runs h k w adm x b after checks unlimited
    have foreign : (decide ((2 ^ 31 + 7 * 2 ^ 16 + k) % 4096 = k) && decide (2 ^ 31 + 7 * 2 ^ 16 + k < 2 ^ 31)) = false := by
      rw [decide_eq_false (show ¬ 2 ^ 31 + 7 * 2 ^ 16 + k < 2 ^ 31 by omega), Bool.and_false]
    exact gcs_closed (exec_qosStreamAdmit owner slot s) runs
      ((Hw.vet_ok _ _ _ checks).trans (by rw [ite_off (show s.hw.weirOn (768 + k) = false from unlimited)]; dsimp only; rw [if_pos rfl, foreign]; rfl))
  case streamWithdraw =>
    intro s owner slot q runs h k after checks clean
    exact gcs_done (exec_qosStreamWithdraw owner slot s) runs (Hw.vet_ok _ _ _ checks) clean
  case boundRead =>
    intro s owner slot q runs h k adm after checks admitted clean
    exact gcs_done (exec_qosBoundRead owner slot s) runs
      (by dsimp only; rw [show kvGet s.hw.tss.admitted (q.w 0) = some adm from admitted]; exact Hw.vet_ok _ _ _ checks) clean
  case voqSet =>
    intro s owner slot q runs h pc c dq modeM x after checks clean
    exact gcs_done (exec_qosVoqSet owner slot s) runs (Hw.vet_ok _ _ _ checks) clean
  case quotaSet =>
    intro s owner slot q runs h k c n x after checks clean
    exact gcs_done (exec_qosQuotaSet owner slot s) runs (Hw.vet_ok _ _ _ checks) clean
  case sharedSet =>
    intro s owner slot q runs h x after checks clean
    exact gcs_done (exec_qosSharedSet owner slot s) runs (Hw.vet_ok _ _ _ checks) clean
  case qsamplerSet =>
    intro s owner slot q runs h k c en n ws iv dst after checks clean
    exact gcs_done (exec_qosQsamplerSet owner slot s) runs (Hw.vet_ok _ _ _ checks) clean

/-- Settles O56: each VID command past its checks; stream settings by `Hw.streamChange_ok`. -/
theorem vidCommandsComplete : Obligations.VidCommandsComplete := by
  refine ⟨?streamSet, ?streamEnable, ?streamDisable, ?latticeSet, ?actionSet, ?noticeOff, ?noticeOn, ?syncSet, ?stateRead, ?ringSet,
    ?ringRelease, ?ringRead, ?ringExport, ?trigger⟩
  case streamSet =>
    intro s owner slot q runs h v c crc pix l x after checks served clean
    exact gcs_done (exec_vidStreamSet owner slot s) runs (Hw.streamChange_ok checks served) clean
  case streamEnable =>
    intro s owner slot q runs h v c after checks clean
    exact gcs_done (exec_vidStreamEnable owner slot s) runs (Hw.vet_ok _ _ _ checks) clean
  case streamDisable =>
    intro s owner slot q runs h v after checks clean
    exact gcs_done (exec_vidStreamDisable owner slot s) runs (Hw.vet_ok _ _ _ checks) clean
  case latticeSet =>
    intro s owner slot q runs h v l x after checks served clean
    exact gcs_done (exec_vidLatticeSet owner slot s) runs (Hw.streamChange_ok checks served) clean
  case actionSet =>
    intro s owner slot q runs h v f fb fbEn frEn l x after checks served clean
    exact gcs_done (exec_vidActionSet owner slot s) runs (Hw.streamChange_ok checks served) clean
  case noticeOff =>
    intro s owner slot q runs h v n all cfg key x x after checks off clean
    exact gcs_done (exec_vidNoticeSet owner slot s) runs ((Hw.vet_ok _ _ _ checks).trans (ite_off off)) clean
  case noticeOn =>
    intro s owner slot q runs h v n all cfg key x x y after checks on_ placed clean
    exact gcs_done (exec_vidNoticeSet owner slot s) runs
      ((Hw.vet_ok _ _ _ checks).trans ((if_pos on_).trans (by rw [show Hw.noticeEntry _ _ = some y from placed]))) clean
  case syncSet =>
    intro s owner slot q runs h g c en p tb old oldP ms per other w wOk width after checks clean
    exact gcs_done (exec_vidSyncSet owner slot s) runs (Hw.vet_ok _ _ _ checks) clean
  case stateRead =>
    intro s owner slot q runs h v after checks clean
    exact gcs_done (exec_vidStateRead owner slot s) runs (Hw.vet_ok _ _ _ checks) clean
  case ringSet =>
    intro s owner slot q runs h r c en was v b n on moved other region base size isRsv foreign inside after checks clean
    exact gcs_done (exec_vidRingSet owner slot s) runs (Hw.vet_ok _ _ _ checks) clean
  case ringRelease =>
    intro s owner slot q runs h r after checks clean
    exact gcs_done (exec_vidRingRelease owner slot s) runs (Hw.vet_ok _ _ _ checks) clean
  case ringRead =>
    intro s owner slot q runs h r dst own l after checks recorded clean
    exact gcs_done (exec_vidRingRead owner slot s) runs
      ((Hw.vet_ok _ _ _ checks).trans (by rw [show s.hw.ringData (q.w 0) = some l from recorded])) clean
  case ringExport =>
    intro s owner slot q runs h r kt l k iv ct out after checks keyed recorded reachable clean
    exact gcs_done (exec_vidRingExport owner slot s) runs
      ((Hw.vet_ok _ _ _ checks).trans (by rw [show s.hw.transportKey s.fuse owner = some kt from keyed, show s.hw.ringData (q.w 0) = some l from recorded]; exact Hw.answerBuffer_ok reachable)) clean
  case trigger =>
    intro s owner slot q runs h k after checks clean
    exact gcs_done (exec_vidTrigger owner slot s) runs (Hw.vet_ok _ _ _ checks) clean

end Sys2Proof.Machine
end

section
/-!
PROOFS of 12_command_set.md, groups FBUS, GWY, TIME and SEC: each command past its checks completes with what it leaves.
-/
namespace Sys2Proof.Machine

/-- Settles O57: each FBUS command past its checks; a schedule by whether it is switched on, a request by whether its queue takes it. -/
theorem fbusCommandsComplete : Obligations.FbusCommandsComplete := by
  refine ⟨?canSet, ?canTdcSet, ?filterWrite, ?rxqSet, ?canRecover, ?schedOff, ?schedOn, ?msgbufWrite, ?txQueued, ?txFull, ?linSet,
    ?linTableLoad, ?linSchedSelect, ?linWake, ?wakeDetSet, ?rillSet⟩
  case canSet =>
    intro s owner slot q runs h c cfg en was tms moved x after checks clean
    exact gcs_done (exec_fbusCanSet owner slot s) runs (Hw.vet_ok _ _ _ checks) clean
  case canTdcSet =>
    intro s owner slot q runs h c after checks clean
    exact gcs_done (exec_fbusCanTdcSet owner slot s) runs (Hw.vet_ok _ _ _ checks) clean
  case filterWrite =>
    intro s owner slot q runs h c first n ws after checks clean
    exact gcs_done (exec_fbusFilterWrite owner slot s) runs (Hw.vet_ok _ _ _ checks) clean
  case rxqSet =>
    intro s owner slot q runs h c after checks clean
    exact gcs_done (exec_fbusRxqSet owner slot s) runs (Hw.vet_ok _ _ _ checks) clean
  case canRecover =>
    intro s owner slot q runs h c after checks clean
    exact gcs_done (exec_fbusCanRecover owner slot s) runs (Hw.vet_ok _ _ _ checks) clean
  case schedOff =>
    intro s owner slot q runs h c en ws writes x same y common after checks off clean
    exact gcs_done (exec_fbusSchedLoad owner slot s) runs ((if_pos (congrArg (!·) off)).trans (Hw.vet_ok _ _ _ checks)) clean
  case schedOn =>
    intro s owner slot q runs h c en ws writes x same y common after checks on_ clean
    exact gcs_done (exec_fbusSchedLoad owner slot s) runs ((ite_off (congrArg (!·) on_)).trans (Hw.vet_ok _ _ _ checks)) clean
  case msgbufWrite =>
    intro s owner slot q runs h c b msg x after checks clean
    exact gcs_done (exec_fbusMsgbufWrite owner slot s) runs (Hw.vet_ok _ _ _ checks) clean
  case txQueued =>
    intro s owner slot q runs
    dsimp only
    intro checks queued clean
    exact gcs_done (exec_fbusTx owner slot s) runs ((Hw.vet_ok _ _ _ checks).trans (if_pos queued)) clean
  case txFull =>
    intro s owner slot q runs
    dsimp only
    intro checks full
    exact gcs_closed (exec_fbusTx owner slot s) runs ((Hw.vet_ok _ _ _ checks).trans (ite_off full))
  case linSet =>
    intro s owner slot q runs h l t x stop after checks clean
    exact gcs_done (exec_fbusLinSet owner slot s) runs (Hw.vet_ok _ _ _ checks) clean
  case linTableLoad =>
    intro s owner slot q runs h l k n ws x after checks clean
    exact gcs_done (exec_fbusLinTableLoad owner slot s) runs (Hw.vet_ok _ _ _ checks) clean
  case linSchedSelect =>
    intro s owner slot q runs h l after checks clean
    exact gcs_done (exec_fbusLinSchedSelect owner slot s) runs (Hw.vet_ok _ _ _ checks) clean
  case linWake =>
    intro s owner slot q runs h l after checks clean
    exact gcs_done (exec_fbusLinWake owner slot s) runs (Hw.vet_ok _ _ _ checks) clean
  case wakeDetSet =>
    intro s owner slot q runs h w after checks clean
    exact gcs_done (exec_fbusWakeDetSet owner slot s) runs (Hw.vet_ok _ _ _ checks) clean
  case rillSet =>
    intro s owner slot q runs h f dst en after checks clean
    exact gcs_done (exec_fbusRillSet owner slot s) runs (Hw.vet_ok _ _ _ checks) clean

/-- A rule that has a place is put there. -/
theorem rulePlaced {place : Option Nat} {p : Nat} {x : Hw} {full : Gcs} (placed : place = some p) :
    (match place with | some p => Gcs.ok x [p] | none => full) = .ok x [p] := by rw [placed]

/-- Settles O58: each GWY command past its checks; a rule by the place it has, bulk rules by what became of their elements. -/
theorem gwyCommandsComplete : Obligations.GwyCommandsComplete := by
  refine ⟨?ruleWrite, ?ruleRead, ?ruleDel, ?ruleBulk, ?srcSet, ?rewriteSet, ?sigMapSet, ?sigBufSet, ?tunnelSet, ?rxtunnelSet, ?authSet,
    ?authFreshSet, ?j1939Read, ?enable⟩
  case ruleWrite =>
    intro s owner slot q runs h r chained i upd old keep place x w2 handle rated dup mixed next used p after checks placed clean
    exact gcs_done (exec_gwyRuleWrite owner slot s) runs ((Hw.vet_ok _ _ _ checks).trans (rulePlaced placed)) clean
  case ruleRead =>
    intro s owner slot q runs h i x masks k r after checks held clean
    exact gcs_done (exec_gwyRuleRead owner slot s) runs
      (by dsimp only; rw [show (if bit (q.w 0) 16 = true then _ else _) = _ from held]; exact Hw.vet_ok _ _ _ checks) clean
  case ruleDel =>
    intro s owner slot q runs h i x after checks clean
    exact gcs_done (exec_gwyRuleDel owner slot s) runs (Hw.vet_ok _ _ _ checks) clean
  case ruleBulk =>
    intro s owner slot q runs h n ws r after checks whole clean
    exact gcs_done (exec_gwyRuleBulk owner slot s) runs (Hw.partial_ok checks whole) clean
  case srcSet =>
    intro s owner slot q runs h k x x after checks clean
    exact gcs_done (exec_gwySrcSet owner slot s) runs (Hw.vet_ok _ _ _ checks) clean
  case rewriteSet =>
    intro s owner slot q runs h ws x after checks clean
    exact gcs_done (exec_gwyRewriteSet owner slot s) runs (Hw.vet_ok _ _ _ checks) clean
  case sigMapSet =>
    intro s owner slot q runs h n ks a m maps len after checks clean
    exact gcs_done (exec_gwySigMapSet owner slot s) runs (Hw.vet_ok _ _ _ checks) clean
  case sigBufSet =>
    intro s owner slot q runs h i valid n d t send data new x fixed after checks clean
    exact gcs_done (exec_gwySigBufSet owner slot s) runs (Hw.vet_ok _ _ _ checks) clean
  case tunnelSet =>
    intro s owner slot q runs h t c en max_ after checks clean
    exact gcs_done (exec_gwyTunnelSet owner slot s) runs (Hw.vet_ok _ _ _ checks) clean
  case rxtunnelSet =>
    intro s owner slot q runs h t after checks clean
    exact gcs_done (exec_gwyRxtunnelSet owner slot s) runs (Hw.vet_ok _ _ _ checks) clean
  case authSet =>
    intro s owner slot q runs h i w a x after checks clean
    exact gcs_done (exec_gwyAuthSet owner slot s) runs (Hw.vet_ok _ _ _ checks) clean
  case authFreshSet =>
    intro s owner slot q runs h i after checks clean
    exact gcs_done (exec_gwyAuthFreshSet owner slot s) runs (Hw.vet_ok _ _ _ checks) clean
  case j1939Read =>
    intro s owner slot q runs h k l after checks clean
    exact gcs_done (exec_gwyJ1939Read owner slot s) runs (Hw.vet_ok _ _ _ checks) clean
  case enable =>
    intro s owner slot q runs h after checks clean
    exact gcs_done (exec_gwyEnable owner slot s) runs (Hw.vet_ok _ _ _ checks) clean

/-- Settles O59: each TIME command past its checks; an operation by whether firmware's staging set is free. -/
theorem timeCommandsComplete : Obligations.TimeCommandsComplete := by
  refine ⟨?baseOpStaged, ?baseOpWaits, ?baseRead, ?superviseSet, ?domainSet, ?linkDelaySet, ?pulseSet, ?captureSet, ?epochReq⟩
  case baseOpStaged =>
    intro s owner slot q runs h k b op o r after checks free
    exact gcs_left (exec_timeBaseOp owner slot s) runs ((Hw.vet_ok _ _ _ checks).trans ((ite_off runs.2).trans (ite_off free)))
  case baseOpWaits =>
    intro s owner slot q runs h k b op o r after checks taken
    exact gcs_left (exec_timeBaseOp owner slot s) runs ((Hw.vet_ok _ _ _ checks).trans ((ite_off runs.2).trans (if_pos taken)))
  case baseRead =>
    intro s owner slot q runs h b ns after checks clean
    exact gcs_done (exec_timeBaseRead owner slot s) runs (Hw.vet_ok _ _ _ checks) clean
  case superviseSet =>
    intro s owner slot q runs h b after checks clean
    exact gcs_done (exec_timeSuperviseSet owner slot s) runs (Hw.vet_ok _ _ _ checks) clean
  case domainSet =>
    intro s owner slot q runs h d o after checks clean
    exact gcs_done (exec_timeDomainSet owner slot s) runs (Hw.vet_ok _ _ _ checks) clean
  case linkDelaySet =>
    intro s owner slot q runs h m after checks clean
    exact gcs_done (exec_timeLinkDelaySet owner slot s) runs (Hw.vet_ok _ _ _ checks) clean
  case pulseSet =>
    intro s owner slot q runs h p c en per after checks clean
    exact gcs_done (exec_timePulseSet owner slot s) runs (Hw.vet_ok _ _ _ checks) clean
  case captureSet =>
    intro s owner slot q runs h c after checks clean
    exact gcs_done (exec_timeCaptureSet owner slot s) runs (Hw.vet_ok _ _ _ checks) clean
  case epochReq =>
    intro s owner slot q runs h b after checks clean
    exact gcs_done (exec_timeEpochReq owner slot s) runs (Hw.vet_ok _ _ _ checks) clean

/-- The device after an advance of the lifecycle by fuses `g`: the challenge is spent, RETURNED and SCRAPPED ask for a reset. -/
def Hw.advancedTo (h : Hw) (target : Nat) (g : Fuse) : Hw :=
  { ((h.onSec (fun x => { x with chal := none })).setFld Reg.SEC_STATUS Fld.SEC_STATUS_LIFECYCLE g.life) with
    sys := { h.sys with resetReq := if 4 ≤ target then some h.clk else h.sys.resetReq } }

/-- The checks of SEC_DEBUG_UNLOCK. -/
def Fuse.debugChecks (fu : Fuse) (q : Slot) : List Check :=
  [q.reserved [0x103], badAt (decide (q.w 0 % 4 < 2)) 0, badAt (bit (q.w 0) 8 && q.w 3 != 192) 12,
    (decide (debugMax fu.life < q.w 0 % 4), cLifecycle, fu.life)]

/-- A lifecycle advance past its checks, by whether its buffer proves it. -/
theorem Hw.gcsAdvance_passed {h : Hw} {fu : Fuse} {q : Slot}
    (checks : ∀ chk ∈ ([q.reserved [7], badAt (q.w 3 != (if q.w 0 = 2 then 288 else 192)) 12,
      (!advances fu.life (q.w 0), cLifecycle, fu.life)] : List Check), chk.1 = false) :
    h.gcsAdvance fu q = match fu.advance (q.w 0) h.sec.chal q.buf with
      | none => .no cAuth 0 [] (h.onSec (fun x => { x with chal := none }))
      | some g => .ok (h.advancedTo (q.w 0) g) [] :=
  Hw.vet_ok _ _ _ checks

/-- What follows of a lifecycle advance: the fuses are programmed, and RETURNED tears every owner but 0 down. -/
theorem secLifecycleAdvance_done {s : State} {owner slot : Nat} {q : Slot} (runs : s.hw.runs owner slot 0x0A02 q)
    (checks : ∀ chk ∈ ([q.reserved [7], badAt (q.w 3 != (if q.w 0 = 2 then 288 else 192)) 12,
      (!advances s.fuse.life (q.w 0), cLifecycle, s.fuse.life)] : List Check), chk.1 = false)
    (clean : ∀ fu, s.fuse.advance (q.w 0) s.hw.sec.chal q.buf = some fu → s.hw.clean (s.hw.advancedTo (q.w 0) fu) noDeadlock) :
    exec (.secLifecycleAdvance owner slot) s = .next (match s.fuse.advance (q.w 0) s.hw.sec.chal q.buf with
      | some fu =>
        let x := (s.done owner slot (s.hw.advancedTo (q.w 0) fu) []).hw
        { s with fuse := fu, hw := if q.w 0 = 4 then (x.own.active.filter (· != 0)).foldl (fun b o => b.tearStart o false) x else x }
      | none => s.closed owner slot (s.hw.onSec (fun x => { x with chal := none })) cAuth 0 []) := by
  have judged := Hw.gcsAdvance_passed (h := s.hw) checks
  rw [exec_secLifecycleAdvance, execSecLifecycleAdvance, onBoth_next]
  dsimp only
  cases proved : s.fuse.advance (q.w 0) s.hw.sec.chal q.buf with
  | none =>
    rw [proved] at judged
    rw [Hw.carriedOut_no runs judged, Hw.gcsRun_no runs judged]
    rfl
  | some fu =>
    rw [proved] at judged
    rw [Hw.carriedOut_ok runs judged (clean fu proved), Hw.gcsRun_ok runs judged (clean fu proved)]
    dsimp only
    rw [proved]
    rfl

/-- Phase 1 of a debug unlock answers a challenge. -/
theorem secDebugUnlock_challenges {s : State} {owner slot : Nat} {q : Slot} (runs : s.hw.runs owner slot 0x0A0A q)
    (checks : ∀ chk ∈ s.fuse.debugChecks q, chk.1 = false) (one : bit (q.w 0) 8 = false)
    (running : s.hw.flag Reg.SEC_STATUS Fld.SEC_STATUS_TRNG_FAIL = false) (up : s.hw.sec.trngDown = false)
    (clean : s.hw.clean (s.hw.challenge.2.onSec (fun x => { x with dbgChal := some s.hw.challenge.1 })) noDeadlock) :
    exec (.secDebugUnlock owner slot) s = .next (s.done owner slot
      (s.hw.challenge.2.onSec (fun x => { x with dbgChal := some s.hw.challenge.1 })) (bytesAsWords (toBe 32 s.hw.challenge.1))) := by
  rw [exec_secDebugUnlock, execSecDebugUnlock, onHw_next,
    Hw.gcsThen_ok runs ((Hw.vet_ok _ _ _ checks).trans ((if_pos (congrArg (!·) one)).trans (Hw.withTrng_ok running up))) clean, ite_off one]
  rfl

/-- Phase 2 of a debug unlock opens the level its signature proves. -/
theorem secDebugUnlock_opens {s : State} {owner slot : Nat} {q : Slot} (runs : s.hw.runs owner slot 0x0A0A q)
    (checks : ∀ chk ∈ s.fuse.debugChecks q, chk.1 = false) (two : bit (q.w 0) 8 = true)
    (proved : s.fuse.debugProof (q.w 0 % 4) s.hw.sec.dbgChal (sub q.buf 0 96) (sub q.buf 96 96) = true)
    (clean : s.hw.clean s.hw noDeadlock) :
    exec (.secDebugUnlock owner slot) s = .next (s.on ((s.done owner slot s.hw []).hw.debugGrant (q.w 0 % 4))) := by
  rw [exec_secDebugUnlock, execSecDebugUnlock, onHw_next,
    Hw.gcsThen_ok runs ((Hw.vet_ok _ _ _ checks).trans ((ite_off (congrArg (!·) two)).trans (if_pos proved))) clean, if_pos two]
  rfl

/-- Settles O60: each SEC command past its checks; what needs the TRNG while it runs, what needs a blob or a proof by whether it is good. -/
theorem secCommandsComplete : Obligations.SecCommandsComplete := by
  refine ⟨?lifecycleRead, ?lifecycleAdvance, ?keyRotate, ?saInstall, ?saEnable, ?saDelete, ?cmacKeyInstall, ?sessionOpen, ?sessionClose,
    ?debugChallenge, ?debugProof, ?tamperStatus, ?tamperSet⟩
  case lifecycleRead =>
    intro s owner slot q runs h c after running up clean
    exact gcs_done (exec_secLifecycleRead owner slot s) runs (Hw.withTrng_ok running up) clean
  case lifecycleAdvance =>
    intro s owner slot q runs h t spent after checks clean
    exact secLifecycleAdvance_done runs checks clean
  case keyRotate =>
    intro s owner slot q runs h o sel n mo after checks held clean
    exact gcs_done (exec_secKeyRotate owner slot s) runs
      ((Hw.vet_ok _ _ _ checks).trans (by rw [show s.hw.master (q.w 0) = some mo from held])) clean
  case saInstall =>
    intro s owner slot q runs h w m after checks clean
    cases opened : s.hw.blobText s.fuse owner 6 72 q with
    | none => exact gcs_closed (exec_secMacsecSaInstall owner slot s) runs ((Hw.vet_ok _ _ _ checks).trans (by rw [opened]; rfl))
    | some t => exact gcs_done (exec_secMacsecSaInstall owner slot s) runs ((Hw.vet_ok _ _ _ checks).trans (by rw [opened])) (clean t opened)
  case saEnable =>
    intro s owner slot q runs h w m after checks clean
    exact gcs_done (exec_secMacsecSaEnable owner slot s) runs (Hw.vet_ok _ _ _ checks) clean
  case saDelete =>
    intro s owner slot q runs h w m after checks clean
    exact gcs_done (exec_secMacsecSaDelete owner slot s) runs (Hw.vet_ok _ _ _ checks) clean
  case cmacKeyInstall =>
    intro s owner slot q runs h i after checks clean
    cases opened : s.hw.blobText s.fuse owner 1 60 q with
    | none => exact gcs_closed (exec_secCmacKeyInstall owner slot s) runs ((Hw.vet_ok _ _ _ checks).trans (by rw [opened]; rfl))
    | some t => exact gcs_done (exec_secCmacKeyInstall owner slot s) runs ((Hw.vet_ok _ _ _ checks).trans (by rw [opened])) (clean t opened)
  case sessionOpen =>
    intro s owner slot q runs h o after checks running up clean
    exact gcs_done (exec_secSessionOpen owner slot s) runs ((Hw.vet_ok _ _ _ checks).trans (Hw.withTrng_ok running up)) clean
  case sessionClose =>
    intro s owner slot q runs h o by_ after checks clean
    exact gcs_done (exec_secSessionClose owner slot s) runs (Hw.vet_ok _ _ _ checks) clean
  case debugChallenge =>
    intro s owner slot q runs h level two after checks one running up clean
    exact secDebugUnlock_challenges runs checks one running up clean
  case debugProof =>
    intro s owner slot q runs h level two after checks two_ proved clean
    exact secDebugUnlock_opens runs checks two_ proved clean
  case tamperStatus =>
    intro s owner slot q runs h after clean
    exact gcs_done (exec_secTamperStatus owner slot s) runs rfl clean
  case tamperSet =>
    intro s owner slot q runs h after checks clean
    exact gcs_done (exec_secTamperSet owner slot s) runs (Hw.vet_ok _ _ _ checks) clean

end Sys2Proof.Machine
end

section
/-!
PROOFS of 02_basin_and_switch_core.md, 03_forwarding_tables.md and 06_ethernet_ports.md: frames enter, are looked up, matched and sent.
-/
namespace Sys2Proof.Machine

/-- A command whose effect on the hardware is known goes on from it. -/
theorem goes_on {s : State} {f : Hw → Hw} {x : Hw} {r : Res} (meaning : r = onHw s f) (effect : f s.hw = x) : r = .next (s.on x) := by
  rw [meaning, onHw_next, effect]
  rfl

/-- A command without an effect on the hardware leaves the state. -/
theorem stays {s : State} {f : Hw → Hw} {r : Res} (meaning : r = onHw s f) (effect : f s.hw = s.hw) : r = .next s := by
  rw [meaning, onHw_next, effect]

/-- A flag of another register. -/
theorem Hw.flag_setFld_ne (h : Hw) {r r' : Nat} (f g : Field) (v : Nat) (other : r' ≠ r) : (h.setFld r f v).flag r' g = h.flag r' g :=
  congrArg (· == 1) (Hw.fld_setFld_ne h f g v other)

/-! ### First cells -/

/-- With MACsec off a frame is taken as it stands. -/
theorem Hw.macsecRx_off {h : Hw} {mac : Nat} (head : List Byte) (off : h.macsecOn mac = false) : h.macsecRx mac head = (.plain, h) := by
  rw [Hw.macsecRx]
  exact if_pos (by rw [off]; rfl)

/-- The first cell of a frame that a receiving port takes without MACsec: it waits, enters, or is refused. -/
theorem Hw.firstCell_plain {h : Hw} {port : Nat} {head : List Byte} (age owner ecc : Nat) (idle : kvGet h.swc.rx port = none)
    (some_ : head ≠ []) (up : port < 24 → h.linkUp port = true) (source : 24 ≤ port → port = 26 ∨ (port = 30 ∧ h.sys.testgen ≠ []))
    (off : h.macsecOn port = false) (data : (parseHdr head).etype ≠ 0x8808 ∨ 24 ≤ port) :
    h.firstCell port head age owner ecc =
      let k := h.classify port head (if port = 26 then some owner else none) none none
      if h.mustWait port k (cellsFor head.length) then h.stall port
      else
        let t := h.admitTest port k
        let b := t.2.beginFrame port k head (h.rxStamps port age) false 0 none none
        if t.1 then (b.2.setRx port ⟨head, some b.1, none, h.rxStamps port age, none, false⟩).basinEcc b.1 ecc
        else t.2.setRx port ⟨head, none, none, h.rxStamps port age, none, h.flag Reg.SWC_STATUS Fld.SWC_STATUS_READY⟩ := by
  have taken : ((kvGet h.swc.rx port).isSome || head.isEmpty || (decide (port < 24) && !h.linkUp port)
      || (decide (24 ≤ port) && port != 26 && (port != 30 || h.sys.testgen.isEmpty))) = false := by
    have short : head.isEmpty = false := by simpa using some_
    rw [idle, short]
    by_cases mac : port < 24
    · simp [mac, up mac, show ¬ 24 ≤ port by omega]
    · rcases source (by omega) with rfl | ⟨rfl, gen⟩ <;> simp_all
  have plain : ((parseHdr head).etype = 0x8808 && decide (port < 24)) = false := by
    rcases data with other | internal
    · simp [other]
    · simp [show ¬ port < 24 by omega]
  unfold Hw.firstCell
  rw [ite_off taken, Hw.macsecRx_off head off]
  exact ite_off plain

/-- Marking a frame bad leaves the receivers. -/
theorem Hw.markBad_rx (h : Hw) (id cause : Nat) : (h.markBad id cause).swc.rx = h.swc.rx := by
  unfold Hw.markBad
  split
  · rfl
  · split
    · rfl
    · dsimp only
      split
      · rfl
      · rw [Hw.inc_swc]
        rfl

/-- Retiring a cell leaves the receivers. -/
theorem Hw.retireCell_rx (h : Hw) (c : Nat) : (h.retireCell c).swc.rx = h.swc.rx := by
  unfold Hw.retireCell
  split
  · rfl
  · rw [Hw.wn_swc]
    rfl

/-- An error of a Basin cell leaves the receivers. -/
theorem Hw.basinEcc_rx (h : Hw) (id ecc : Nat) : (h.basinEcc id ecc).swc.rx = h.swc.rx := by
  have counted : ((h.inc Reg.SWC_BASIN_UE).markBad id 4).swc.rx = h.swc.rx := by rw [Hw.markBad_rx, Hw.inc_swc]
  unfold Hw.basinEcc
  split
  · rfl
  · rw [Hw.inc_swc]
  · exact counted
  · dsimp only
    split
    · split
      · rw [Hw.retireCell_rx, counted]
      · exact counted
    · exact counted

/-- A cell that is admitted changes nothing by itself. -/
theorem Hw.admitTest_passed {h : Hw} {port : Nat} {k : Classed} (passed : (h.admitTest port k).1 = true) : (h.admitTest port k).2 = h := by
  unfold Hw.admitTest at passed ⊢
  split at passed
  · exact absurd passed Bool.false_ne_true
  · next ready =>
    rw [if_neg ready]
    split at passed
    · next room => rw [if_pos room]
    · exact absurd passed Bool.false_ne_true

/-! ### Lookups and tails -/

/-- A descriptor after a change that keeps its number. -/
theorem Hw.frame?_onFrame {h : Hw} {id : Nat} {f : Frame} (g : Frame → Frame) (keeps : ∀ x, (g x).id = x.id)
    (held : h.frame? id = some f) : (h.onFrame id g).frame? id = some (g f) := by
  have named : (fun x : Frame => x.id == id) ∘ (fun x => if x.id == id then g x else x) = fun x => x.id == id := by
    funext x
    dsimp only [Function.comp]
    split
    · rw [keeps]
    · rfl
  have own : f.id == id := by simpa using List.find?_some held
  simp only [Hw.frame?, Hw.onFrame, Hw.onSwc, List.find?_map]
  rw [show List.find? ((fun x : Frame => x.id == id) ∘ fun x => if x.id == id then g x else x) h.swc.frames = some f from
    (congrArg (List.find? · h.swc.frames) named).trans held]
  exact congrArg some (if_pos own)

/-- A lookup that forwards an ordinary frame: its class and a waiting copy for each destination. -/
theorem Hw.lookupDone_forwards {h : Hw} {f : Frame} (early : f.tail = false) (sound : f.bad = none) (network : f.kind = 0)
    (held : h.frame? f.id = some f) {l : Looked} (looked : h.tableLookup f.ingress (h.readFrame f) = (l, h)) (goes : l.drop = false)
    (streamless : l.stream = none) (unknown : l.entry = none) (somewhere : l.dests ≠ 0) (ordinary : l.cls ≠ 7) :
    h.lookupDone f [] = h.onFrame f.id (fun x => { x with
      looked := true, cls := l.cls,
      copies := (bitsOf 32 l.dests).map (fun e => (⟨e, .waiting⟩ : Copy)), stream := none, vie := none, untag := l.untag, edit := l.edit,
      refund := [], sdu := none, acl := l.acl, dest := if x.dest.isSome then x.dest else l.dest, tie := l.tie, dei := false,
      dests := l.dests, counted := x.counted || false }) := by
  have found := fun g keeps => Hw.frame?_onFrame (h := h) (id := f.id) (f := f) g keeps held
  have undirected : decide (100 ≤ f.kind) = false := by rw [network]; rfl
  have nowhere : (l.dests == 0) = false := by simpa using somewhere
  have plainCls : (l.cls != 7) = true := by simpa using ordinary
  unfold Hw.lookupDone
  simp only [Hw.tableEcc, List.foldl_nil, undirected, Bool.false_eq_true, if_false, looked, goes, Hw.perStream, streamless, unknown,
    Option.filter_none, nowhere, Bool.or_self, early]
  rw [found _ ?keeps]
  case keeps => exact fun _ => rfl
  simp only [Hw.expressNotice, plainCls, if_true, Hw.discardBad]
  rw [found _ ?keeps]
  case keeps => exact fun _ => rfl
  simp only [sound, Option.isNone_none, if_true]

/-- A tail of at least 64 bytes is no runt. -/
theorem rxClass_long {protected_ symErr : Bool} {raw : List Byte} (long : 64 ≤ raw.length) : rxClass protected_ raw symErr ≠ 1 := by
  unfold rxClass
  rw [if_neg (by omega)]
  split_ifs <;> decide

/-- The tail of an unprotected frame that is no runt ends it with the cause of its class. -/
theorem Hw.rxTail_whole {h : Hw} {port id : Nat} {rest : List Byte} (symErr : Option Nat) (ecc : Nat) {r : Rx}
    (receiving : kvGet h.swc.rx port = some r) (framed : r.frame = some id) (plain : r.sec = none) (long : 64 ≤ (r.raw ++ rest).length) :
    h.rxTail port rest symErr ecc =
      let c := rxClass (decide (port < 24) && (h.clrRx port).macsecOn port) (r.raw ++ rest) symErr.isSome
      (if port < 24 then (h.clrRx port).countRx port c (r.raw ++ rest) else h.clrRx port).endTail id (r.raw ++ rest)
        (symErr.map (plainPos none (r.raw ++ rest))) (causeOfClass c) ecc := by
  unfold Hw.rxTail
  rw [receiving]
  dsimp only
  rw [if_neg (rxClass_long long), framed, plain]
  simp only [decide_eq_true_eq]

/-- A runt of a MAC is counted and dropped. -/
theorem Hw.rxTail_runt {h : Hw} {port id : Nat} {rest : List Byte} (symErr : Option Nat) (ecc : Nat) {r : Rx} {f : Frame} (mac : port < 24)
    (receiving : kvGet h.swc.rx port = some r) (framed : r.frame = some id) (held : h.frame? id = some f) (fresh : f.counted = false)
    (short : (r.raw ++ rest).length < 64) :
    h.rxTail port rest symErr ecc =
      (((((h.clrRx port).addRxOctets port (r.raw ++ rest).length).inc (Reg.MAC_RX_RUNT port)).inc Reg.SWC_RUNT).onFrame f.id
        (fun x => { x with tail := true })).dropFrame f.id := by
  have runt : ∀ p b, rxClass p (r.raw ++ rest) b = 1 := fun p b => if_pos short
  have still : (((h.clrRx port).addRxOctets port (r.raw ++ rest).length).inc (Reg.MAC_RX_RUNT port)).frame? id = some f := held
  unfold Hw.rxTail
  rw [receiving]
  simp only [runt, Hw.countRx, framed, Option.bind_some, decide_eq_true_eq, if_pos mac, if_true, still, fresh, Bool.false_eq_true, if_false]

/-- Settles O16: the first cell by what the port makes of it, the lookup by what the tables say, the tail by its length. -/
theorem framesEnterAndAreLookedUp : Obligations.FramesEnterAndAreLookedUp := by
  refine ⟨?admitted, ?waits, ?refused, ?lookupStarts, ?lookupEnds, ?forwarded, ?whole, ?runt⟩
  case admitted =>
    intro s port age owner ecc head port32 idle some_ up source off data k free passed
    refine ⟨_, goes_on (exec_frameFirstCell port head age owner ecc s) ((if_pos port32).trans
      ((Hw.firstCell_plain age owner ecc idle some_ up source off data).trans ((ite_off free).trans (if_pos passed)))), ?_⟩
    rw [State.on_hw, Hw.basinEcc_rx, show s.hw.admitTest port k = (true, s.hw) from Prod.ext passed (Hw.admitTest_passed passed)]
    exact kvGet_kvPut_same _ _ _
  case waits =>
    intro s port age owner ecc head port32 idle some_ up source off data k full
    exact goes_on (exec_frameFirstCell port head age owner ecc s) ((if_pos port32).trans
      ((Hw.firstCell_plain age owner ecc idle some_ up source off data).trans (if_pos full)))
  case refused =>
    intro s port age owner ecc head port32 idle some_ up source off data k free failed
    exact goes_on (exec_frameFirstCell port head age owner ecc s) ((if_pos port32).trans
      ((Hw.firstCell_plain age owner ecc idle some_ up source off data).trans ((ite_off free).trans (ite_off failed))))
  case lookupStarts =>
    intro s port f waiting enough
    exact goes_on (exec_frameLookupStart port s) (by rw [waiting]; exact if_pos (by simpa using enough))
  case lookupEnds =>
    intro s port f ecc waiting
    exact goes_on (exec_frameLookupDone port ecc s) (by rw [waiting])
  case forwarded =>
    intro s port f waiting early sound network held r goes streamless unknown somewhere ordinary untouched
    refine goes_on (exec_frameLookupDone port [] s) ?_
    simp only [waiting]
    exact Hw.lookupDone_forwards early sound network held (Prod.ext rfl untouched) goes streamless unknown somewhere ordinary
  case whole =>
    intro s port id ecc rest symErr r receiving framed plain long c
    exact goes_on (exec_frameTail port rest symErr ecc s) (Hw.rxTail_whole symErr ecc receiving framed plain long)
  case runt =>
    intro s port id ecc rest symErr r f mac receiving framed held fresh short
    exact goes_on (exec_frameTail port rest symErr ecc s) (Hw.rxTail_runt symErr ecc mac receiving framed held fresh short)

end Sys2Proof.Machine
end

section
/-!
PROOFS of 02_basin_and_switch_core.md and 04_scheduling_and_latency.md: frames are matched, start and end (R56 to R69, R120).
-/
namespace Sys2Proof.Machine

/-- What both branches of a choice share. -/
theorem ite_shared {α β : Type} (p : α → β) {c : Prop} [Decidable c] {x y : α} {t : β} (yes : p x = t) (no : p y = t) :
    p (if c then x else y) = t := by
  split
  · exact yes
  · exact no

/-! ### Arbitration -/

/-- An ingress without an offer is passed over. -/
theorem Hw.accept_none (h : Hw) (i n : Nat) : h.accept i n [] = h := by
  cases n <;> rfl

/-- A lone offer of an ingress with a free slot is granted. -/
theorem Hw.accept_one (h : Hw) (i n : Nat) (o : Offer) : h.accept i (n + 1) [o] = h.grant o := by
  simp only [Hw.accept, Hw.bestOffer, List.foldl_cons, List.foldl_nil, List.filter_cons, bne_self_eq_false, Bool.false_eq_true, if_false,
    List.filter_nil, Hw.accept_none]

/-- A fold over the ingresses that acts for one of them alone. -/
theorem foldl_acts_once {f : Hw → Nat → Hw} {h x : Hw} {j : Nat} (acts : f h j = x) (others : ∀ a i, i ≠ j → f a i = a) :
    ∀ l : List Nat, l.Nodup → j ∈ l → l.foldl f h = x
  | [], _, there => absurd there List.not_mem_nil
  | i :: l, distinct, there => by
    obtain ⟨gone, distinct⟩ := List.nodup_cons.mp distinct
    have idle : ∀ (m : List Nat) (a : Hw), j ∉ m → m.foldl f a = a := by
      intro m
      induction m with
      | nil => exact fun _ _ => rfl
      | cons k m ih =>
        intro a absent
        obtain ⟨other, absent⟩ := not_or.mp (mt List.mem_cons.mpr absent)
        rw [List.foldl_cons, others a k (Ne.symm other)]
        exact ih a absent
    rw [List.foldl_cons]
    by_cases mine : i = j
    · subst mine
      rw [acts]
      exact idle l x gone
    · rw [others h i mine]
      exact foldl_acts_once acts others l distinct ((List.mem_cons.mp there).resolve_left (Ne.symm mine))

/-- A lone offer of an ingress with a free transfer slot is granted. -/
theorem Hw.arbitrate_lone {s : Hw} {o : Offer} (lone : ((List.range 32).foldl Hw.countShaped ((List.range 24).foldl Hw.withdraw s)).offers = [o])
    (port : o.frame.ingress < 32)
    (free : ((List.range 32).foldl Hw.countShaped ((List.range 24).foldl Hw.withdraw s)).slotsUsed o.frame.ingress < 2) :
    s.arbitrate = ((List.range 32).foldl Hw.countShaped ((List.range 24).foldl Hw.withdraw s)).grant o := by
  unfold Hw.arbitrate
  dsimp only
  rw [lone]
  refine foldl_acts_once ?_ ?_ _ List.nodup_range (List.mem_range.mpr port)
  · obtain ⟨n, left⟩ := Nat.exists_eq_add_of_lt free
    rw [show 2 - _ = n + 1 by omega, List.filter_cons, if_pos (beq_self_eq_true _), List.filter_nil, Hw.accept_one]
  · intro a i other
    rw [List.filter_cons, ite_off (beq_eq_false_iff_ne.mpr (Ne.symm other)), List.filter_nil, Hw.accept_none]

/-! ### Starts -/

/-- A charge of a shaper leaves the transmitters. -/
theorem Hw.chargeShaper_tx (h : Hw) (e : Nat) (f : Frame) : (h.chargeShaper e f).swc.tx = h.swc.tx := by
  have taken : ∀ b n, (h.weirTake b n).swc.tx = h.swc.tx := fun _ _ => rfl
  unfold Hw.chargeShaper
  dsimp only
  split_ifs <;> rfl

/-- A charge of a shaper takes no time. -/
theorem Hw.chargeShaper_clk (h : Hw) (e : Nat) (f : Frame) : (h.chargeShaper e f).clk = h.clk := by
  unfold Hw.chargeShaper
  dsimp only
  split_ifs <;> rfl

/-- A suspension takes no time. -/
theorem Hw.suspend_clk (h : Hw) (e : Nat) : (h.suspend e).clk = h.clk := by
  unfold Hw.suspend
  split
  · split <;> rfl
  · rfl

/-- A notice that goes out leaves the transmitters. -/
theorem Hw.noticeOut_tx (h : Hw) (f : Frame) (e : Nat) : (h.noticeOut f e).swc.tx = h.swc.tx := by
  unfold Hw.noticeOut
  split
  · rfl
  · split
    · rfl
    · exact ite_shared (fun x : Hw => x.swc.tx) rfl rfl

/-- The count of saturated corrections leaves the transmitters. -/
theorem Hw.countCfSat_tx (h : Hw) (e : Nat) (f : Frame) (b : List Byte) (stamps : List Nat) : (h.countCfSat e f b stamps).swc.tx = h.swc.tx := by
  unfold Hw.countCfSat
  split
  · split <;> rfl
  · rfl

/-- A frame that starts without protection is put at the head of its transmitter. -/
theorem Hw.txBegin_head {h : Hw} {e : Nat} {f : Frame} (plain : e < 24 → h.protects e (h.readFrame f) = false) :
    ∃ x, kvGetD (h.txBegin e f).swc.tx e [] = ⟨f.id, h.txStamps e, x, none, h.clk, 0, false⟩ :: kvGetD (h.suspend e).swc.tx e [] := by
  have bare : (decide (e < 24) && h.protects e (h.readFrame f)) = false := by
    by_cases mac : e < 24
    · rw [plain mac, Bool.and_false]
    · rw [decide_eq_false mac, Bool.false_and]
  unfold Hw.txBegin
  dsimp only
  rw [ite_off bare]
  have tx : (if (h.suspend e).retrying e f.id then h.suspend e else (h.suspend e).chargeShaper e f).swc.tx = (h.suspend e).swc.tx :=
    ite_shared (fun x : Hw => x.swc.tx) rfl (Hw.chargeShaper_tx _ _ _)
  have clk : (if (h.suspend e).retrying e f.id then h.suspend e else (h.suspend e).chargeShaper e f).clk = h.clk :=
    ite_shared (fun x : Hw => x.clk) (Hw.suspend_clk _ _) ((Hw.chargeShaper_clk _ _ _).trans (Hw.suspend_clk _ _))
  generalize (if (h.suspend e).retrying e f.id then h.suspend e else (h.suspend e).chargeShaper e f) = a at tx clk
  rw [← tx, ← clk]
  refine ⟨((a.setCopy f.id e .sending).onFrame f.id (fun x => { x with cut := x.cut || !x.tail })).expressF e f,
    ite_shared (fun x : Hw => kvGetD x.swc.tx e []) ?_ ?_⟩
  · rw [Hw.noticeOut_tx]
    exact kvGetD_kvMod_same _ _ _ _
  · rw [Hw.countCfSat_tx, Hw.noticeOut_tx]
    exact kvGetD_kvMod_same _ _ _ _

/-- Only waiting pauses are sent. -/
theorem Hw.sendPauses_none {h : Hw} {e : Nat} (none_ : kvGetD h.swc.pauseQ e [] = []) : h.sendPauses e = h := by
  unfold Hw.sendPauses
  rw [none_]
  rfl

/-- A granted frame whose key stands and that may start begins. -/
theorem Hw.txStart_begins {h : Hw} {e : Nat} {f : Frame} (granted : h.grantedAt e = some f) (keyed : h.keyless f = false)
    (unpaused : kvGetD h.swc.pauseQ e [] = []) (may : h.mayStart e f = true) : h.txStart e = h.txBegin e f := by
  unfold Hw.txStart
  rw [granted]
  dsimp only
  rw [ite_off keyed, Hw.sendPauses_none unpaused, ite_self, if_pos may]

/-- The end of a frame whose tail is in, at a MAC. -/
theorem Hw.txEnd_mac {h : Hw} {e ecc : Nat} {x : TxCur} {rest : List TxCur} {f0 f : Frame} (mac : e < 24)
    (sending : kvGetD h.swc.tx e [] = x :: rest) (held : h.frame? x.frame = some f0) (whole : f0.tail = true)
    (on_ : (x.susp && h.preemptHeld e) = false) (there : ((h.basinEcc f0.id ecc).discardBad f0.id).frame? f0.id = some f) :
    h.txEnd e ecc =
      let a := (((((h.basinEcc f0.id ecc).discardBad f0.id).macEnd e f x).popTx e).release f.id e).reap f.id
      if a.txBusy e then a else a.sendPauses e := by
  have goes : (!f0.tail || x.susp && h.preemptHeld e) = false := by rw [whole, on_]; rfl
  unfold Hw.txEnd
  rw [sending]
  dsimp only
  rw [held]
  dsimp only
  rw [ite_off goes, there]
  simp only [if_pos mac, decide_eq_true mac, Bool.true_and]
  cases Hw.txBusy _ e <;> rfl

/-- Settles O17: one arbitration, start, end, repetition, source and age-out at a time. -/
theorem framesAreMatchedAndSent : Obligations.FramesAreMatchedAndSent := by
  refine ⟨?granted, ?started, ?ended, ?repeated, ?entered, ?stalled, ?aged⟩
  case granted =>
    intro s o ready h lone port free
    exact goes_on (exec_arbiterIteration s) ((if_pos ready).trans (Hw.arbitrate_lone lone port free))
  case started =>
    intro s e f port line granted keyed unpaused may plain
    refine ⟨_, goes_on (exec_egressTxStart e s) ((if_neg (by omega)).trans ((ite_off line).trans
      (Hw.txStart_begins granted keyed unpaused may))), ?_⟩
    exact Hw.txBegin_head plain
  case ended =>
    intro s e ecc x rest f0 f mac sending held whole on_ h there a
    exact goes_on (exec_egressFrameEnd e ecc s) (Hw.txEnd_mac mac sending held whole on_ there)
  case repeated =>
    intro s pc held excess
    exact goes_on (exec_pauseRepeat pc s) (if_pos (by simpa [held] using excess))
  case entered =>
    intro s p f rest low high waiting credit
    exact goes_on (exec_internalSourceStart p s) ((if_neg (by omega)).trans (by rw [waiting]; exact if_pos credit))
  case stalled =>
    intro s p f rest low high waiting short
    exact goes_on (exec_internalSourceStart p s) ((if_neg (by omega)).trans (by rw [waiting]; exact ite_off short))
  case aged =>
    intro s id f held alive fresh old idle h
    have late : (f.dead || decide (s.hw.waited f.arrival ≤ s.hw.fld Reg.SWC_MAX_SOJOURN Fld.SWC_MAX_SOJOURN_LIMIT_MS * 500000)) = false := by
      rw [alive, decide_eq_false (by omega)]
      rfl
    have all : f.copies.filter (fun c => c.st != CopyState.sending) = f.copies := by
      simpa [List.filter_eq_self] using idle
    refine goes_on (exec_sojournAgeout id s) ?_
    rw [held]
    dsimp only
    rw [ite_off late, ite_off idle, ite_off fresh, all]

end Sys2Proof.Machine
end

section
/-!
PROOFS of 02_basin_and_switch_core.md: the audit of cells (R73) and moderated records (R54).
-/
namespace Sys2Proof.Machine

/-- The registers at the end of an audit pass with `n` suspects: idle, and one pass more. -/
def Hw.auditDone (h : Hw) (n : Nat) : Hw :=
  let x := (h.setFld Reg.SWC_STATUS Fld.SWC_STATUS_AUDIT_BUSY 0).setFld Reg.SWC_AUDIT_STATUS Fld.SWC_AUDIT_STATUS_SUSPECT n
  x.setFld Reg.SWC_AUDIT_STATUS Fld.SWC_AUDIT_STATUS_PASSES (x.fld Reg.SWC_AUDIT_STATUS Fld.SWC_AUDIT_STATUS_PASSES + 1)

/-- The end of a pass touches registers alone. -/
theorem Hw.auditDone_regs (h : Hw) (n : Nat) : h.auditDone n = { h with regs := (h.auditDone n).regs } := rfl

/-- The end of a pass leaves every register but two. -/
theorem Hw.rn_auditDone_ne (h : Hw) (n : Nat) {r : Nat} (status : r ≠ Reg.SWC_STATUS) (audit : r ≠ Reg.SWC_AUDIT_STATUS) :
    (h.auditDone n).rn r = h.rn r := by
  rw [Hw.auditDone, Hw.rn_setFld_ne _ _ _ audit, Hw.rn_setFld_ne _ _ _ audit, Hw.rn_setFld_ne _ _ _ status]

/-- The audit is idle at the end of a pass. -/
theorem Hw.fld_auditDone_busy (h : Hw) (n : Nat) : (h.auditDone n).fld Reg.SWC_STATUS Fld.SWC_STATUS_AUDIT_BUSY = 0 := by
  rw [Hw.auditDone, Hw.fld_setFld_ne _ _ _ _ (by decide), Hw.fld_setFld_ne _ _ _ _ (by decide),
    Hw.fld_setFld_same _ _ _ _ (by decide) (by decide), Nat.zero_mod]

/-- The suspects shown at the end of a pass. -/
theorem Hw.fld_auditDone_suspect (h : Hw) (n : Nat) : (h.auditDone n).fld Reg.SWC_AUDIT_STATUS Fld.SWC_AUDIT_STATUS_SUSPECT =
    n % 2 ^ (Fld.SWC_AUDIT_STATUS_SUSPECT.hi + 1 - Fld.SWC_AUDIT_STATUS_SUSPECT.lo) := by
  rw [Hw.auditDone, Hw.fld_setFld_apart _ _ _ _ _ (by decide) (by decide) (by decide), Hw.fld_setFld_same _ _ _ _ (by decide) (by decide)]

/-- One pass more at the end of a pass. -/
theorem Hw.fld_auditDone_passes (h : Hw) (n : Nat) : (h.auditDone n).fld Reg.SWC_AUDIT_STATUS Fld.SWC_AUDIT_STATUS_PASSES =
    (h.fld Reg.SWC_AUDIT_STATUS Fld.SWC_AUDIT_STATUS_PASSES + 1) % 2 ^ 16 := by
  rw [Hw.auditDone, Hw.fld_setFld_same _ _ _ _ (by decide) (by decide), Hw.fld_setFld_apart _ _ _ _ _ (by decide) (by decide) (by decide),
    Hw.fld_setFld_ne _ _ _ _ (by decide)]
  rfl

/-- A pass in which nothing is lost and nothing double. -/
theorem auditPassEnd_clean {s : State} (busy : s.hw.flag Reg.SWC_STATUS Fld.SWC_STATUS_AUDIT_BUSY = true) (none_ : s.hw.swc.leaked = []) :
    exec (.auditPassEnd [] ([], [])) s = .next (s.on (({ s.hw with swc := { s.hw.swc with suspect := [] } } : Hw).auditDone 0)) := by
  rw [exec_auditPassEnd, execAuditPassEnd]
  refine goes_on rfl ?_
  rw [ite_off (congrArg (!·) busy)]
  simp only [none_, List.filter_nil, List.append_nil, List.dedup_nil, List.foldl_nil]
  rfl

/-- A pass in which one cell is found lost that the pass before suspected: it is counted, reported and returned. -/
theorem auditPassEnd_reclaims {s : State} {c : Nat} (busy : s.hw.flag Reg.SWC_STATUS Fld.SWC_STATUS_AUDIT_BUSY = true)
    (lost : s.hw.swc.leaked = [c]) (untouched : s.hw.swc.touched.contains c = false) (suspected : s.hw.swc.suspect = [c]) :
    exec (.auditPassEnd [] ([], [])) s = .next (s.on ((((s.hw.inc Reg.SWC_LEAK_RECLAIM).post 1 0x0304 c).onSwc (fun w => { w with
      leaked := [], suspect := [] })).auditDone 1)) := by
  rw [exec_auditPassEnd, execAuditPassEnd]
  refine goes_on rfl ?_
  rw [ite_off (congrArg (!·) busy)]
  have mine : [c].contains c = true := by simp
  simp only [lost, suspected, List.filter_nil, List.append_nil, List.foldl_nil, List.dedup_cons_of_notMem, List.not_mem_nil,
    not_false_eq_true, List.dedup_nil, List.filter_cons, untouched, mine, Bool.not_false, Bool.not_true, Bool.false_eq_true, if_true, if_false, List.foldl_cons]
  rfl

/-- Settles O18: passes by what they find, flushes by what was summed. -/
theorem basinAuditReclaimsLostCells : Obligations.BasinAuditReclaimsLostCells := by
  refine ⟨?starts, ?clean, ?reclaims, ?flushes⟩
  case starts =>
    intro s enabled idle ready
    exact goes_on (exec_auditPassStart s) (if_pos (by rw [enabled, idle, ready]; rfl))
  case clean =>
    intro s busy none_
    have end_ := auditPassEnd_clean busy none_
    generalize shown : ({ s.hw with swc := { s.hw.swc with suspect := [] } } : Hw) = h at end_
    have same : ∀ r, h.rn r = s.hw.rn r := fun r => Hw.rn_congr (by rw [← shown]) r
    refine ⟨_, end_, h.fld_auditDone_busy 0, (h.fld_auditDone_suspect 0).trans (Nat.zero_mod _), ?_, ?_, fun r status audit => ?_, ?_⟩
    · rw [State.on_hw, h.fld_auditDone_passes, Hw.fld, same, ← Hw.fld]
    · rw [State.on_hw, h.auditDone_regs, ← shown]
    · rw [State.on_hw, h.rn_auditDone_ne 0 status audit, same]
    · rw [State.on_hw, h.auditDone_regs, ← shown]
  case reclaims =>
    intro s c busy lost untouched suspected kept
    refine ⟨_, auditPassEnd_reclaims busy lost untouched suspected, ?_, ?_, ?_⟩
    · rw [State.on_hw, Hw.rn_auditDone_ne _ _ (by decide) (by decide), Hw.rn_congr (Hw.onSwc_regs _ _), Hw.rn_post _ _ _ _ _ _ _ _ _ (by decide) (by decide),
        Hw.rn_inc_same]
    · rw [State.on_hw, Hw.auditDone_regs, Hw.onSwc_swc]
    · rw [State.on_hw, Hw.auditDone_regs, Hw.onSwc_evq, Hw.post_kept _ _ _ _ _ _ _ _ (show ¬ (s.hw.inc Reg.SWC_LEAK_RECLAIM).loses 1 0x0304 from kept)]
      rw [show (s.hw.inc Reg.SWC_LEAK_RECLAIM).fld (Reg.EVQ_CTRL 1) Fld.EVQ_CTRL_TB = s.hw.fld (Reg.EVQ_CTRL 1) Fld.EVQ_CTRL_TB from
        congrArg (getF · _) (Hw.rn_inc_ne _ (by decide))]
      rfl
  case flushes =>
    intro s kind w3 m held h
    exact goes_on (exec_moderatedRecordFlush kind w3 s) (by rw [held])

end Sys2Proof.Machine
end

section
/-!
PROOFS of 03_forwarding_tables.md: the learning arbiter (R89 to R105), the cascade (R106 to R109) and the scrubber (R114 to R116).
-/
namespace Sys2Proof.Machine

/-! ### The learning arbiter -/

/-- A learn as the arbiter takes it: one from P24 to P30 gets this cycle's stamp. -/
def Hw.stamped (h : Hw) (r : LearnReq) : LearnReq :=
  if 24 ≤ r.port then { r with time := h.tbNs (h.fld Reg.FWD_LEARN_CFG Fld.FWD_LEARN_CFG_TB) } else r

/-- A stamp leaves the key. -/
theorem Hw.stamped_key (h : Hw) (r : LearnReq) : (h.stamped r).key = r.key := ite_shared LearnReq.key rfl rfl

/-- A stamp leaves the port. -/
theorem Hw.stamped_port (h : Hw) (r : LearnReq) : (h.stamped r).port = r.port := ite_shared LearnReq.port rfl rfl

/-- A stamp leaves where the learn comes from. -/
theorem Hw.stamped_remote (h : Hw) (r : LearnReq) : (h.stamped r).remote = r.remote := ite_shared LearnReq.remote rfl rfl

/-- The hardware without the learn the arbiter takes. -/
def Hw.learnsLeft (h : Hw) (rest : List LearnReq) : Hw := h.onFwd (fun f => { f with learnQ := rest })

/-- The oldest learn is taken. -/
theorem learnAccept_takes {s : State} {r : LearnReq} {rest : List LearnReq} (oldest : takeReq true s.hw.fwd.learnQ = (some r, rest)) :
    exec .learnAccept s = .next (s.on ((s.hw.learnsLeft rest).acceptLearn (s.hw.stamped r))) :=
  goes_on (exec_learnAccept s) (by rw [oldest]; rfl)

/-- A learn with a known effect. -/
theorem learnAccept_does {s : State} {r : LearnReq} {rest : List LearnReq} {x : Hw} (oldest : takeReq true s.hw.fwd.learnQ = (some r, rest))
    (effect : (s.hw.learnsLeft rest).acceptLearn (s.hw.stamped r) = x) : exec .learnAccept s = .next (s.on x) :=
  effect ▸ learnAccept_takes oldest

/-- A new key within its port's limit is inserted, or refused where no place is found. -/
theorem Hw.acceptLearn_new {h : Hw} {q : LearnReq} (new : h.emAt 0 q.key = none)
    (room : h.fld (Reg.FWD_PORT_CFG q.port) Fld.FWD_PORT_CFG_LEARN_LIMIT = 0 ∨
      h.portLearned q.port < h.fld (Reg.FWD_PORT_CFG q.port) Fld.FWD_PORT_CFG_LEARN_LIMIT) :
    h.acceptLearn q =
      let i := h.insertEntry (viaOf q) ⟨false, 0, q.key, h.ageNow, q.port, none, 0, none, none, none, none⟩
      let w := macVidWords q.key
      if i.1 then ((i.2.inc Reg.FWD_LEARN_APPLIED).recordLearn q.key (recentOf q false false)).notePlaced q
      else (i.2.inc Reg.FWD_INSERT_FAIL).post 1 0x0402 q.port w.1 w.2 := by
  unfold Hw.acceptLearn
  rw [new]
  refine if_neg ?_
  simp only [Bool.and_eq_true, bne_iff_ne, decide_eq_true_eq, not_and, not_le]
  omega

/-- A new key at its port's limit is counted. -/
theorem Hw.acceptLearn_limited {h : Hw} {q : LearnReq} (new : h.emAt 0 q.key = none)
    (limited : h.fld (Reg.FWD_PORT_CFG q.port) Fld.FWD_PORT_CFG_LEARN_LIMIT ≠ 0)
    (full : h.fld (Reg.FWD_PORT_CFG q.port) Fld.FWD_PORT_CFG_LEARN_LIMIT ≤ h.portLearned q.port) :
    h.acceptLearn q = h.inc Reg.FWD_LEARN_LIMITED := by
  unfold Hw.acceptLearn
  rw [new]
  exact if_pos (by simp [limited, full])

/-- A learn of a known key whose entry is static, here, or elsewhere. -/
theorem Hw.acceptLearn_known {h : Hw} {q : LearnReq} {pos : Nat} {e : EmEntry} (known : h.emAt 0 q.key = some (pos, e)) :
    h.acceptLearn q = if e.static then (if e.group = none ∧ e.port = q.port then h else h.inc Reg.FWD_STATIC_CONFLICT)
      else if e.group = none ∧ e.port = q.port then h.refreshEntry pos e q
      else if q.remote.isNone && h.isCascade q.port then h else h.stationMove pos e q := by
  unfold Hw.acceptLearn
  rw [known]
  simp only [Bool.and_eq_true, Option.isNone_iff_eq_none, beq_iff_eq]

/-- A move to a port with no recent record is written. -/
theorem Hw.stationMove_first {h : Hw} {pos : Nat} {e : EmEntry} {q : LearnReq} (first : kvGet h.fwd.recent q.key = none) :
    h.stationMove pos e q = ((h.moveEntry pos e q).recordLearn q.key (recentOf q false false)).notePlaced q := by
  unfold Hw.stationMove
  rw [first]

/-- Where no request of a kind waits, none is taken. -/
theorem takeReq_none {learn : Bool} {l : List LearnReq} (none_ : (takeReq learn l).1 = none) : (takeReq learn l).1.isSome = false := by
  rw [none_]
  rfl

/-- A refresh, served while no learn waits. -/
theorem refreshAccept_does {s : State} {r : LearnReq} {rest : List LearnReq} {x : Hw} (noLearn : (takeReq true s.hw.fwd.learnQ).1 = none)
    (oldest : takeReq false s.hw.fwd.learnQ = (some r, rest)) (effect : (s.hw.learnsLeft rest).acceptRefresh r = x) :
    exec .refreshAccept s = .next (s.on x) :=
  goes_on (exec_refreshAccept s) ((ite_off (takeReq_none noLearn)).trans (by rw [oldest]; exact effect))

/-- Settles O19: the arbiter by what the oldest request finds, the tick, messages, windows and ports by their conditions. -/
theorem learningArbiterServesRequests : Obligations.LearningArbiterServesRequests := by
  refine ⟨?taken, ?noLearn, ?newKey, ?limited, ?static, ?here, ?moved, ?refreshed, ?refreshLost, ?noRefresh, ?ticks, ?message, ?closes,
    ?notOpen, ?flushed⟩
  case taken => exact fun s r rest oldest => learnAccept_takes oldest
  case noLearn => exact fun s none_ => stays (exec_learnAccept s) (by simp only [none_])
  case newKey =>
    intro s r rest oldest h q new room i w
    have effect := Hw.acceptLearn_new (h := h) (q := s.hw.stamped r) (by rwa [s.hw.stamped_key]) (by rwa [s.hw.stamped_port])
    rw [s.hw.stamped_key, s.hw.stamped_port] at effect
    exact learnAccept_does oldest effect
  case limited =>
    intro s r rest oldest h new limited full
    exact learnAccept_does oldest (Hw.acceptLearn_limited (by rwa [s.hw.stamped_key]) (by rwa [s.hw.stamped_port])
      (by rwa [s.hw.stamped_port]))
  case static =>
    intro s r rest pos e oldest known static h
    have effect := Hw.acceptLearn_known (h := h) (q := s.hw.stamped r) (by rw [s.hw.stamped_key]; exact known)
    rw [if_pos static, s.hw.stamped_port] at effect
    exact learnAccept_does oldest effect
  case here =>
    intro s r rest pos e oldest known dynamic alone same h q
    have effect := Hw.acceptLearn_known (h := h) (q := s.hw.stamped r) (by rw [s.hw.stamped_key]; exact known)
    rw [ite_off dynamic, if_pos ⟨alone, same.trans (s.hw.stamped_port r).symm⟩] at effect
    exact learnAccept_does oldest effect
  case moved =>
    intro s r rest pos e oldest known dynamic elsewhere own first h q
    have effect := Hw.acceptLearn_known (h := h) (q := s.hw.stamped r) (by rw [s.hw.stamped_key]; exact known)
    have counts : ((s.hw.stamped r).remote.isNone && h.isCascade (s.hw.stamped r).port) = false := by
      rw [s.hw.stamped_remote, s.hw.stamped_port]
      rcases own with far | near
      · simp [far]
      · rw [show h.isCascade r.port = false from near, Bool.and_false]
    rw [ite_off dynamic, if_neg (by rwa [s.hw.stamped_port]), ite_off counts, Hw.stationMove_first (by rw [s.hw.stamped_key]; exact first),
      s.hw.stamped_key] at effect
    exact learnAccept_does oldest effect
  case refreshed =>
    intro s r rest pos e noLearn oldest known dynamic alone same h w
    refine refreshAccept_does noLearn oldest ?_
    have mine : (e.static || e.group.isSome || e.port != r.port) = false := by simp [dynamic, alone, same]
    unfold Hw.acceptRefresh
    rw [show (s.hw.learnsLeft rest).emAt 0 r.key = _ from known]
    dsimp only
    rw [ite_off mine, Hw.refreshEntry]
    simp only [beq_iff_eq]
    rfl
  case refreshLost =>
    intro s r rest noLearn oldest other
    refine refreshAccept_does noLearn oldest ?_
    unfold Hw.acceptRefresh
    rw [show (s.hw.learnsLeft rest).emAt 0 r.key = s.hw.emAt 0 r.key from rfl]
    cases found : s.hw.emAt 0 r.key with
    | none => rfl
    | some x =>
      have foreign := other x (by rw [found]; rfl)
      refine if_pos ?_
      simpa [Option.isSome_iff_ne_none, or_assoc] using foreign
  case noRefresh =>
    intro s idle
    refine stays (exec_refreshAccept s) ?_
    rcases idle with learn | none_
    · exact if_pos (Option.isSome_iff_ne_none.mpr learn)
    · simp only [none_, ite_self]
  case ticks =>
    intro s h r
    refine goes_on (exec_ageTick s) ?_
    have ready : h.fwdReady = s.hw.fwdReady := Hw.flag_setFld_ne _ _ _ _ (by decide)
    dsimp only
    rw [show (s.hw.setFld Reg.FWD_AGE_NOW Fld.FWD_AGE_NOW_NOW (s.hw.ageNow + 1)).fwdReady = s.hw.fwdReady from ready]
    cases s.hw.fwdReady with
    | false => rfl
    | true => rfl
  case message => exact fun s b => goes_on (exec_learnMessageReceive b s) rfl
  case closes =>
    intro s key x recent h
    exact goes_on (exec_moveWindowClose key s) (by rw [recent]; rfl)
  case notOpen => exact fun s key none_ => stays (exec_moveWindowClose key s) (by rw [none_])
  case flushed =>
    intro s p
    refine goes_on (exec_portFlushOnDown p s) ?_
    simp only [Bool.and_eq_true, decide_eq_true_eq, Bool.not_eq_true', and_assoc]

/-! ### The cascade -/

/-- Control messages of another member over a link that is up are heard while the control firmware runs. -/
theorem cascadeControl_heard {s : State} {p k : Nat} (kind : Nat) (edges : List (Nat × Nat)) {x : Hw} (member : k < 4)
    (other : k ≠ s.hw.devIndex) (link : s.hw.isCascade p = true) (up : s.hw.linkUp p = true) (formed : s.hw.inCascade = true)
    (runs : s.hw.fwRuns = true)
    (effect : (let put (e : Kv (List (Nat × Nat))) (a : Nat) : Hw := { s.hw with sys := { s.hw.sys with edges := e, authed := a } }
      if kind = 2 then (put s.hw.sys.edges (s.hw.sys.authed ||| 2 ^ k)).seeMembers p true
      else if !s.hw.sys.authed.testBit k then s.hw
      else match kind with
        | 0 => s.hw.resendLearn
        | 1 => put (kvPut s.hw.sys.edges k (edges.filter (fun (e : Nat × Nat) => decide (e.1 < 2048) && decide (e.2 < 2048)))) s.hw.sys.authed
        | 3 => put (kvDel s.hw.sys.edges k) s.hw.sys.authed
        | _ => s.hw) = x) :
    exec (.cascadeControlReceive p k kind edges) s = .next (s.on x) := by
  refine goes_on (exec_cascadeControlReceive p k kind edges s) ((if_neg ?_).trans effect)
  simp only [runs, link, up, formed, other, Bool.not_true, Bool.false_eq_true, false_or, or_false, not_le]
  exact member

/-- Settles O20: messages by what waits, withdrawals by the link, control messages by their kind. -/
theorem cascadeSharesLearning : Obligations.CascadeSharesLearning := by
  refine ⟨?sent, ?nothing, ?received, ?withdrawn, ?authenticated, ?edgesTold, ?edgesForgotten, ?asked⟩
  case sent =>
    intro s waiting recs h body frameTo
    exact goes_on (exec_cascadeLearnSend s) (ite_off (by simpa using waiting))
  case nothing => exact fun s none_ => stays (exec_cascadeLearnSend s) (if_pos (by rw [none_]; rfl))
  case received =>
    intro s f waiting
    exact goes_on (exec_cascadeLearnReceive s) (by rw [waiting])
  case withdrawn =>
    intro s p r
    refine goes_on (exec_cascadeWithdraw p s) ?_
    simp only [Bool.and_eq_true, Bool.not_eq_true']
    rfl
  case authenticated =>
    exact fun s p k edges member other link up formed runs => cascadeControl_heard 2 edges member other link up formed runs (if_pos rfl)
  case edgesTold =>
    exact fun s p k edges member other link up formed runs authed => cascadeControl_heard 1 edges member other link up formed runs
      (ite_off (congrArg (!·) authed))
  case edgesForgotten =>
    exact fun s p k edges member other link up formed runs authed => cascadeControl_heard 3 edges member other link up formed runs
      (ite_off (congrArg (!·) authed))
  case asked =>
    exact fun s p k edges member other link up formed runs authed => cascadeControl_heard 0 edges member other link up formed runs
      (ite_off (congrArg (!·) authed))

/-! ### The scrubber -/

/-- A shadow line that fails authentication is counted and reported. -/
theorem Hw.shadowAuthFail_eq (h : Hw) : h.shadowAuthFail =
    (((h.inc Reg.FWD_SHADOW_AUTH).inc Reg.SEC_LPDDR_AUTH_FAIL).post 1 0x0B03 h.draw).drawn := rfl

/-- The oldest uncorrectable entry is repaired while the change log is whole and no change to it waits. -/
theorem tableUeRepair_served {s : State} {x : Nat × Nat × Bool} (authFail : Bool) (oldest : s.hw.fwd.badUe.getLast? = some x)
    (whole : s.hw.logLost = false) (settled : s.hw.fwd.changes.any (fun c => c.table == x.1 && c.index == x.2.1) = false) :
    exec (.tableUeRepair authFail) s = .next (s.on (if authFail then s.hw.shadowAuthFail
      else (s.hw.writeTable x.1 x.2.1 (s.hw.fwd.shadow.val x.1 x.2.1)).inc (Reg.FWD_SCRUB_REPAIR x.1))) := by
  refine goes_on (exec_tableUeRepair authFail s) ?_
  rw [oldest]
  exact ite_off (by rw [whole, settled]; rfl)

/-- A recheck that the shadow has reached, with no uncorrectable entry waiting. -/
theorem scrubRecheck_served {s : State} {t i : Nat} {b : Bool} {x : Recheck} (still authFail : Bool)
    (listed : s.hw.fwd.recheck.find? (fun x => x.table == t && x.index == i && x.pipeB == b) = some x)
    (reached : s.hw.shadowReached x.seq = true) (free : s.hw.repairFirst = false) {h : Hw}
    (kept : (if still then s.hw.dropRecheck t i b else (s.hw.dropRecheck t i b).onFwd (fun f => { f with
      struck := f.struck.filter (fun y => y != (t, i, b)) })) = h) :
    exec (.scrubRecheck t i b still authFail) s = .next (s.on (
      if authFail then h.shadowAuthFail
      else if !h.differs b t i then h
      else if (h.post 1 0x0406 t i b.toNat).logLost then h.post 1 0x0406 t i b.toNat
      else ((h.post 1 0x0406 t i b.toNat).writeTable t i ((h.post 1 0x0406 t i b.toNat).fwd.shadow.val t i)).inc (Reg.FWD_SCRUB_REPAIR t)).scrubEnd) := by
  subst kept
  refine goes_on (exec_scrubRecheck t i b still authFail s) ?_
  rw [listed]
  exact ite_off (by rw [reached, free]; rfl)

/-- A pass with nothing left to recheck is complete. -/
theorem Hw.scrubEnd_done {h : Hw} (none_ : h.fwd.recheck = []) :
    h.scrubEnd = (h.setFld Reg.FWD_STATUS Fld.FWD_STATUS_SCRUB_BUSY 0).wn Reg.FWD_SCRUB_PASSES (h.rn Reg.FWD_SCRUB_PASSES + 1) :=
  if_pos (by rw [none_]; rfl)

/-- A pass, when scrubbing is enabled and nothing waits. -/
theorem scrubPass_runs {s : State} (wrong : List (Nat × Nat × Bool)) (auth : List Nat)
    (enabled : s.hw.flag Reg.FWD_CFG Fld.FWD_CFG_SCRUB_EN = true) (ready : s.hw.fwdReady = true) (none_ : s.hw.fwd.recheck = [])
    (free : s.hw.repairFirst = false) :
    exec (.scrubPass wrong auth) s = .next (s.on (
      let h := (auth.foldl (fun a _ => a.shadowAuthFail) s.hw).onFwd (fun f => { f with
        struck := f.struck ++ wrong.filter (fun x => !f.struck.contains x) })
      (h.onFwd (fun f => { f with recheck := h.mismatches.map (fun m => ⟨m.1, m.2.1, m.2.2, h.rn Reg.FWD_CHANGE_SEQ⟩) })).scrubEnd)) :=
  goes_on (exec_scrubPass wrong auth s) (if_pos (by rw [enabled, ready, none_, free]; rfl))

/-- A pass that finds no mismatch changes registers alone. -/
theorem scrubPass_clean {s : State} (enabled : s.hw.flag Reg.FWD_CFG Fld.FWD_CFG_SCRUB_EN = true) (ready : s.hw.fwdReady = true)
    (none_ : s.hw.fwd.recheck = []) (free : s.hw.repairFirst = false) (same : s.hw.mismatches = []) :
    exec (.scrubPass [] []) s = .next (s.on ((s.hw.setFld Reg.FWD_STATUS Fld.FWD_STATUS_SCRUB_BUSY 0).wn Reg.FWD_SCRUB_PASSES
      (s.hw.rn Reg.FWD_SCRUB_PASSES + 1))) := by
  have unstruck : s.hw.onFwd (fun f => { f with struck := f.struck ++ [] }) = s.hw := by simp only [List.append_nil]; rfl
  have unlisted : s.hw.onFwd (fun f => { f with recheck := [] }) = s.hw := by rw [Hw.onFwd, ← none_]
  rw [scrubPass_runs [] [] enabled ready none_ free]
  simp only [List.foldl_nil, List.filter_nil, unstruck, same, List.map_nil, unlisted, Hw.scrubEnd_done none_]

/-- Settles O21: repairs, passes, rechecks, deferrals and rebuilds by what waits for them. -/
theorem scrubberRepairsTables : Obligations.ScrubberRepairsTables := by
  refine ⟨?repaired, ?forged, ?noRepair, ?passes, ?clean, ?noPass, ?agrees, ?differs, ?recheckForged, ?deferred, ?rebuilt⟩
  case repaired => exact fun s x oldest whole settled => tableUeRepair_served false oldest whole settled
  case forged => exact fun s x oldest whole settled => tableUeRepair_served true oldest whole settled
  case noRepair =>
    intro s a idle
    refine stays (exec_tableUeRepair a s) ?_
    rcases idle with none_ | lost
    · rw [none_]
      rfl
    · cases s.hw.fwd.badUe.getLast? with
      | none => rfl
      | some x => exact if_pos (by rw [lost]; rfl)
  case passes => exact fun s wrong auth enabled ready none_ free => scrubPass_runs wrong auth enabled ready none_ free
  case clean =>
    intro s enabled ready none_ free same
    refine ⟨_, scrubPass_clean enabled ready none_ free same, Hw.rn_wn_same _ _ _, ?_, fun r status passes => ?_, rfl⟩
    · rw [State.on_hw, Hw.fld, Hw.rn_wn_ne _ _ (by decide), ← Hw.fld, Hw.fld_setFld_same _ _ _ _ (by decide) (by decide), Nat.zero_mod]
    · rw [State.on_hw, Hw.rn_wn_ne _ _ passes, Hw.rn_setFld_ne _ _ _ status]
  case noPass =>
    intro s wrong auth off
    refine stays (exec_scrubPass wrong auth s) (ite_off ?_)
    rcases off with disabled | unready
    · rw [disabled]
      rfl
    · rw [unready, Bool.and_false]
      rfl
  case agrees =>
    intro s t i b x listed reached free h same
    rw [scrubRecheck_served false false listed reached free (h := h) rfl, if_neg (by decide),
      if_pos (show (!h.differs b t i) = true from congrArg (!·) same)]
  case differs =>
    intro s t i b x listed reached free h other p
    rw [scrubRecheck_served true false listed reached free (h := h) rfl, if_neg (by decide), ite_off (congrArg (!·) other)]
  case recheckForged =>
    exact fun s t i b x listed reached free => scrubRecheck_served true true listed reached free rfl
  case deferred => exact fun s t i b => goes_on (exec_scrubDefer t i b s) rfl
  case rebuilt =>
    intro s lost runs
    refine ⟨_, goes_on (exec_shadowRebuild s) (if_pos (by rw [lost, runs]; rfl)), ?_, ?_, fun r seq status => ?_, rfl⟩
    · rw [State.on_hw, Hw.rn_setFld_ne _ _ _ (by decide), Hw.rn_wn_same, Nat.mod_eq_of_lt (Hw.rn_lt _ _)]
    · exact (Hw.fld_setFld_same _ _ _ _ (by decide) (by decide)).trans (Nat.zero_mod _)
    · rw [State.on_hw, Hw.rn_setFld_ne _ _ _ status, Hw.rn_wn_ne _ _ seq, Hw.rn_congr (Hw.onFwd_regs _ _)]

end Sys2Proof.Machine
end

section
/-!
PROOFS of 04_scheduling_and_latency.md: received pauses (R510, R185), gate lists (R122 to R126), preemption, elimination and sweeps.
-/
namespace Sys2Proof.Machine

/-! ### Received pauses -/

/-- The bits of a mask. -/
theorem mem_bitsOf {n w i : Nat} : i ∈ bitsOf n w ↔ i < n ∧ w.testBit i = true := by
  simp [bitsOf]

/-- The pauses after class `c` of a received pause frame. -/
def Hw.pausedBy (h : Hw) (mac : Nat) (quanta : List Nat) (m : Kv Nat) (c : Nat) : Kv Nat :=
  if quanta.getD c 0 % 65536 = 0 then kvDel m (mac * 8 + c) else kvPut m (mac * 8 + c) (h.pauseEnd mac (quanta.getD c 0 % 65536))

/-- What honouring some classes does to the pauses; nothing else changes. -/
theorem Hw.honour_all (mac : Nat) (quanta : List Nat) : ∀ (cs : List Nat) (h : Hw),
    cs.foldl (fun a c => a.honour mac c (quanta.getD c 0 % 65536)) h =
      h.onTss (fun t => { t with pauseRx := cs.foldl (h.pausedBy mac quanta) t.pauseRx })
  | [], _ => rfl
  | c :: cs, h => by
    have one : h.honour mac c (quanta.getD c 0 % 65536) = h.onTss (fun t => { t with pauseRx := h.pausedBy mac quanta t.pauseRx c }) := by
      unfold Hw.honour Hw.pausedBy
      split <;> rfl
    rw [List.foldl_cons, one, Hw.honour_all mac quanta cs]
    rfl

/-- Classes that are not named keep their pause. -/
theorem Hw.pausedBy_other (h : Hw) (mac : Nat) (quanta : List Nat) {k : Nat} : ∀ (cs : List Nat) (m : Kv Nat), (∀ c ∈ cs, k ≠ mac * 8 + c) →
    kvGet (cs.foldl (h.pausedBy mac quanta) m) k = kvGet m k
  | [], _, _ => rfl
  | c :: cs, m, others => by
    have other := others c List.mem_cons_self
    rw [List.foldl_cons, Hw.pausedBy_other h mac quanta cs _ (fun x hx => others x (List.mem_cons_of_mem _ hx)), Hw.pausedBy]
    split
    · exact kvGet_kvDel_ne _ other
    · exact kvGet_kvPut_ne _ _ other

/-- A class that is named is paused for its quanta. -/
theorem Hw.pausedBy_named (h : Hw) (mac : Nat) (quanta : List Nat) {c : Nat} : ∀ (cs : List Nat) (m : Kv Nat), c ∈ cs →
    kvGet (cs.foldl (h.pausedBy mac quanta) m) (mac * 8 + c) =
      if quanta.getD c 0 % 65536 = 0 then none else some (h.pauseEnd mac (quanta.getD c 0 % 65536))
  | [], _, absent => absurd absent List.not_mem_nil
  | x :: cs, m, named => by
    rw [List.foldl_cons]
    by_cases later : c ∈ cs
    · exact Hw.pausedBy_named h mac quanta cs _ later
    · have here : c = x := (List.mem_cons.mp named).resolve_right later
      subst here
      rw [Hw.pausedBy_other h mac quanta cs _ (fun x hx same => later (by rwa [show c = x by omega])), Hw.pausedBy]
      split
      · exact kvGet_kvDel_same _ _
      · exact kvGet_kvPut_same _ _ _

/-- A pause frame as the MAC counts it, before its classes act. -/
def Hw.pauseCounted (h : Hw) (mac : Nat) : Hw := (h.addRxOctets mac 64).inc (Reg.MAC_RX_PAUSE mac)

/-- Counting a pause frame leaves the classes a port honours. -/
theorem Hw.honoured_pauseCounted (h : Hw) {mac : Nat} (port : mac < 24) :
    (h.pauseCounted mac).fld (Reg.TSS_PORT_CFG mac) Fld.TSS_PORT_CFG_PFC_HONOUR =
      h.fld (Reg.TSS_PORT_CFG mac) Fld.TSS_PORT_CFG_PFC_HONOUR :=
  congrArg (getF · _) (Hw.rn_inc_ne (h.addRxOctets mac 64) (by unfold Reg.TSS_PORT_CFG Reg.MAC_RX_PAUSE; omega))

/-- Counting a pause frame leaves the rate of the port. -/
theorem Hw.pauseEnd_counted (h : Hw) {mac : Nat} (port : mac < 24) (q : Nat) :
    ((h.pauseCounted mac).inc (Reg.TSS_PFC_RX mac)).pauseEnd mac q = h.pauseEnd mac q := by
  have rate : ((h.pauseCounted mac).inc (Reg.TSS_PFC_RX mac)).portRate mac = h.portRate mac :=
    congrArg (fun n => rateKbps (getF n _)) ((Hw.rn_inc_ne _ (by unfold Reg.MAC_STATUS Reg.TSS_PFC_RX; omega)).trans
      (Hw.rn_inc_ne (h.addRxOctets mac 64) (by unfold Reg.MAC_STATUS Reg.MAC_RX_PAUSE; omega)))
  unfold Hw.pauseEnd
  rw [rate]
  rfl

/-- A pause frame of a MAC whose link is up. -/
theorem pfcFrameReceive_up {s : State} {mac en : Nat} {quanta : List Nat} (port : mac < 24) (up : s.hw.linkUp mac = true) :
    exec (.pfcFrameReceive mac en quanta) s = .next (s.on (
      let cs := bitsOf 8 (en &&& s.hw.fld (Reg.TSS_PORT_CFG mac) Fld.TSS_PORT_CFG_PFC_HONOUR)
      if cs.isEmpty then s.hw.pauseCounted mac
      else cs.foldl (fun a c => a.honour mac c (quanta.getD c 0 % 65536)) ((s.hw.pauseCounted mac).inc (Reg.TSS_PFC_RX mac)))) := by
  refine goes_on (exec_pfcFrameReceive mac en quanta s) ((ite_off ?_).trans ?_)
  · rw [up, decide_eq_false (by omega)]
    rfl
  · rw [← s.hw.honoured_pauseCounted port]
    rfl

/-- Settles O22: the classes both enabled and honoured, one after the other; an expiry by its instant. -/
theorem receivedPausesStopClasses : Obligations.ReceivedPausesStopClasses := by
  refine ⟨?stops, ?ignored, ?down, ?expires, ?runs⟩
  case stops =>
    rintro s mac en quanta port up ⟨c0, hc0, enabled0, honoured0⟩
    have named : ∀ c, c ∈ bitsOf 8 (en &&& s.hw.fld (Reg.TSS_PORT_CFG mac) Fld.TSS_PORT_CFG_PFC_HONOUR) ↔
        c < 8 ∧ en.testBit c = true ∧ (s.hw.fld (Reg.TSS_PORT_CFG mac) Fld.TSS_PORT_CFG_PFC_HONOUR).testBit c = true := fun c => by
      rw [mem_bitsOf, Nat.testBit_and, Bool.and_eq_true]
    have some_ := (named c0).mpr ⟨hc0, enabled0, honoured0⟩
    refine ⟨_, (pfcFrameReceive_up port up).trans (congrArg (fun x => Host.Outcome.next (s.on x)) ((if_neg ?_).trans
      (Hw.honour_all mac quanta _ _))), ?_, ?_, rfl⟩
    · intro none_
      rw [List.isEmpty_iff.mp none_] at some_
      exact List.not_mem_nil some_
    · intro c hc enabled honoured
      refine (Hw.pausedBy_named _ mac quanta _ _ ((named c).mpr ⟨hc, enabled, honoured⟩)).trans ?_
      rw [s.hw.pauseEnd_counted port]
    · intro k other
      refine Hw.pausedBy_other _ mac quanta _ _ (fun c hc same => other ⟨c, ?_⟩)
      obtain ⟨small, enabled, honoured⟩ := (named c).mp hc
      exact ⟨small, same, enabled, honoured⟩
  case ignored =>
    intro s mac en quanta port up none_
    rw [pfcFrameReceive_up port up]
    dsimp only
    rw [none_]
    rfl
  case down =>
    intro s mac en quanta down
    exact stays (exec_pfcFrameReceive mac en quanta s) (if_pos (by rw [down, Bool.not_false, Bool.or_true]))
  case expires =>
    intro s mac cls over_
    exact ⟨_, goes_on (exec_pfcPauseExpire mac cls s) (if_pos over_), kvGet_kvDel_same _ _, fun k other => kvGet_kvDel_ne _ other, rfl⟩
  case runs => exact fun s mac cls on_ => stays (exec_pfcPauseExpire mac cls s) (if_neg (by omega))

/-! ### Gate lists -/

/-- An element put into a list is there. -/
theorem mem_insertNew (l : List Nat) (x : Nat) : x ∈ insertNew l x := by
  unfold insertNew
  split
  · next there => exact List.contains_iff_mem.mp there
  · exact List.mem_append_right l (List.mem_singleton_self x)

/-- An element taken out of a list is gone. -/
theorem not_mem_without (l : List Nat) (x : Nat) : x ∉ without l x := by
  simp [without]

/-- Overruns of gates change their counter alone. -/
theorem Hw.countOverrun_regs (h : Hw) (mac old new : Nat) : h.countOverrun mac old new = { h with regs := (h.countOverrun mac old new).regs } ∧
    ∀ r, r ≠ Reg.TSS_GATE_OVERRUN mac → (h.countOverrun mac old new).rn r = h.rn r := by
  suffices all : ∀ (l : List TxCur) (a : Hw), a = { h with regs := a.regs } → (∀ r, r ≠ Reg.TSS_GATE_OVERRUN mac → a.rn r = h.rn r) →
      (let x := l.foldl (fun a t => match h.frame? t.frame with
          | some f => if old.testBit f.cls && !new.testBit f.cls then a.inc (Reg.TSS_GATE_OVERRUN mac) else a
          | none => a) a
       x = { h with regs := x.regs } ∧ ∀ r, r ≠ Reg.TSS_GATE_OVERRUN mac → x.rn r = h.rn r) from
    all _ h rfl (fun _ _ => rfl)
  intro l
  induction l with
  | nil => exact fun a frame others => ⟨frame, others⟩
  | cons t l ih =>
    intro a frame others
    rw [List.foldl_cons]
    cases h.frame? t.frame with
    | none => exact ih a frame others
    | some f =>
      dsimp only
      split
      · refine ih _ ?_ (fun r other => (Hw.rn_inc_ne _ other).trans (others r other))
        rw [frame]
        rfl
      · exact ih a frame others

/-- A transmission that goes on changes the transmitters alone. -/
theorem Hw.resume_frame (h : Hw) (e : Nat) : h.resume e = { h with swc := { h.swc with tx := (h.resume e).swc.tx } } := by
  unfold Hw.resume
  split
  · split <;> rfl
  · rfl

/-- What applying an entry leaves: the gates and holds of its words, its index, and otherwise only overruns and transmitters. -/
theorem Hw.applyGclEntry_frame (h : Hw) (mac idx entry : Nat) : h.applyGclEntry mac idx entry =
    { h with regs := (h.applyGclEntry mac idx entry).regs,
             tss := { h.tss with gates := kvPut h.tss.gates mac (gatesOf entry), hold := (h.applyGclEntry mac idx entry).tss.hold },
             swc := { h.swc with tx := (h.applyGclEntry mac idx entry).swc.tx } } := by
  unfold Hw.applyGclEntry
  dsimp only
  rw [Hw.resume_frame, (h.countOverrun_regs _ _ _).1]
  rfl

/-- Whether an entry holds back preemptable frames. -/
theorem Hw.applyGclEntry_hold (h : Hw) (mac idx entry : Nat) : (h.applyGclEntry mac idx entry).tss.hold =
    match bits entry 23 22 with | 1 => insertNew h.tss.hold mac | 2 => without h.tss.hold mac | _ => h.tss.hold := by
  unfold Hw.applyGclEntry
  dsimp only
  rw [Hw.resume_frame, (h.countOverrun_regs _ _ _).1]
  rfl

/-- The registers after an entry is applied. -/
theorem Hw.rn_applyGclEntry (h : Hw) (mac idx entry r : Nat) : (h.applyGclEntry mac idx entry).rn r =
    ((h.countOverrun mac (kvGetD h.tss.gates mac 255) (gatesOf entry)).wn (Reg.TSS_GCL_ENTRY_NOW mac) idx).rn r := by
  unfold Hw.applyGclEntry
  dsimp only
  rw [Hw.resume_frame]
  rfl

/-- The next entry of a list in force. -/
theorem gclEntryAdvance_runs {s : State} {mac : Nat} {l : GateList} (port : mac < 24) (list : s.hw.listOf mac = some l)
    (enabled : s.hw.flag (Reg.TSS_GCL_CTRL mac) Fld.TSS_GCL_CTRL_EN = true) (on_ : s.hw.tss.restart.contains mac = false) :
    exec (.gclEntryAdvance mac) s = .next (s.on (
      let es := (segments egressDur l.cycle 0 l.entries).map (fun x => x.2.2)
      let i := s.hw.rn (Reg.TSS_GCL_ENTRY_NOW mac) + 1
      if i < es.length then s.hw.applyGclEntry mac i (es.getD i (255 * 2 ^ 24))
      else if s.hw.heldLast mac l (s.hw.pendingList mac) then s.hw
      else s.hw.applyGclEntry mac 0 (es.getD 0 (255 * 2 ^ 24)))) := by
  refine goes_on (exec_gclEntryAdvance mac s) ?_
  rw [list]
  exact ite_off (by rw [enabled, on_, decide_eq_false (by omega)]; rfl)

/-- What a switch leaves of a list that is to stop. -/
theorem Hw.stopGcl_frame (h : Hw) (mac : Nat) : h.stopGcl mac = { h with regs := (h.stopGcl mac).regs, tss := (h.stopGcl mac).tss } := rfl

/-- A switch of an egress list. -/
theorem gclSwitch_port {s : State} {mac : Nat} (port : mac < 24) : exec (.gclSwitch mac) s = .next (s.on (s.hw.gclSwitch mac)) :=
  goes_on (exec_gclSwitch mac s) ((if_neg (by omega)).trans ((if_neg (by omega)).trans (if_neg (by omega))))

/-- A list that is to stop leaves nothing in force: no list, no pending one, no gate closed, nothing held. -/
theorem Hw.stopGcl_off (h : Hw) {mac : Nat} (port : mac < 24) :
    (h.stopGcl mac).fld (Reg.TSS_GCL_CTRL mac) Fld.TSS_GCL_CTRL_EN = 0 ∧ (h.stopGcl mac).fld (Reg.TSS_GCL_CTRL mac) Fld.TSS_GCL_CTRL_PENDING = 0 ∧
      (h.stopGcl mac).gateEn mac = false ∧ kvGet (h.stopGcl mac).tss.gates mac = none ∧ mac ∉ (h.stopGcl mac).tss.hold ∧
      ∀ r, r ≠ Reg.TSS_GCL_CTRL mac → r ≠ Reg.TSS_PORT_CFG mac → (h.stopGcl mac).rn r = h.rn r := by
  have apart : Reg.TSS_GCL_CTRL mac ≠ Reg.TSS_PORT_CFG mac := by unfold Reg.TSS_GCL_CTRL Reg.TSS_PORT_CFG; omega
  have shown : ∀ r, (h.stopGcl mac).rn r = (((h.setFld (Reg.TSS_GCL_CTRL mac) Fld.TSS_GCL_CTRL_EN 0).setFld (Reg.TSS_GCL_CTRL mac)
    Fld.TSS_GCL_CTRL_PENDING 0).setFld (Reg.TSS_PORT_CFG mac) Fld.TSS_PORT_CFG_GATE_EN 0).rn r := fun r => by
    unfold Hw.stopGcl Hw.endSwitch
    exact Hw.rn_congr ((Hw.onTss_regs _ _).trans (Hw.onTss_regs _ _)) r
  refine ⟨?_, ?_, ?_, kvGet_kvDel_same _ _, not_mem_without _ _, fun r ctrl cfg => ?_⟩
  · rw [Hw.fld, shown, ← Hw.fld, Hw.fld_setFld_ne _ _ _ _ apart, Hw.fld_setFld_apart _ _ _ _ _ (by decide) (by decide) (by decide),
      Hw.fld_setFld_same _ _ _ _ (by decide) (by decide), Nat.zero_mod]
  · rw [Hw.fld, shown, ← Hw.fld, Hw.fld_setFld_ne _ _ _ _ apart, Hw.fld_setFld_same _ _ _ _ (by decide) (by decide), Nat.zero_mod]
  · rw [Hw.gateEn, Hw.flag, Hw.fld, shown, ← Hw.fld, Hw.fld_setFld_same _ _ _ _ (by decide) (by decide), Nat.zero_mod]
    exact Bool.and_false _
  · rw [shown, Hw.rn_setFld_ne _ _ _ cfg, Hw.rn_setFld_ne _ _ _ ctrl, Hw.rn_setFld_ne _ _ _ ctrl]

/-- Settles O23: an advance by what follows, a switch by what is pending and due, a restart by whose list it is. -/
theorem gateListsAdvanceSwitchAndRestart : Obligations.GateListsAdvanceSwitchAndRestart := by
  refine ⟨?advances, ?applied, ?idle, ?switches, ?stops, ?early, ?restarts, ?sluiceRestarts, ?sluiceAdvances, ?sluiceSwitches, ?sluiceStops⟩
  case advances => exact fun s mac l port list enabled on_ => gclEntryAdvance_runs port list enabled on_
  case applied =>
    intro s mac l e port list enabled on_ small next_
    obtain ⟨inside, here⟩ := List.getElem?_eq_some_iff.mp next_
    have entry : ((segments egressDur l.cycle 0 l.entries).map (fun x => x.2.2)).getD (s.hw.rn (Reg.TSS_GCL_ENTRY_NOW mac) + 1)
        (255 * 2 ^ 24) = e := by rw [List.getD_eq_getElem?_getD, next_, Option.getD_some]
    have run := gclEntryAdvance_runs port list enabled on_
    dsimp only at run
    rw [if_pos inside, entry] at run
    have holds := s.hw.applyGclEntry_hold mac (s.hw.rn (Reg.TSS_GCL_ENTRY_NOW mac) + 1) e
    refine ⟨_, run, ?_, fun held => ?_, fun released => ?_, fun kept => ?_, ?_, fun r now overrun => ?_, ?_⟩
    · rw [State.on_hw, Hw.applyGclEntry_frame]
      exact kvGet_kvPut_same _ _ _
    · rw [State.on_hw, holds, held]
      exact mem_insertNew _ _
    · rw [State.on_hw, holds, released]
      exact not_mem_without _ _
    · rw [State.on_hw, holds, kept]
      rfl
    · rw [State.on_hw, Hw.rn_applyGclEntry, Hw.rn_wn_same, Nat.mod_eq_of_lt (by omega)]
    · rw [State.on_hw, Hw.rn_applyGclEntry, Hw.rn_wn_ne _ _ now, (s.hw.countOverrun_regs _ _ _).2 r overrun]
    · rw [State.on_hw]
      refine congrArg s.on ((Hw.applyGclEntry_frame _ _ _ _).trans ?_)
      rw [show (s.hw.applyGclEntry mac (s.hw.rn (Reg.TSS_GCL_ENTRY_NOW mac) + 1) e).tss.gates = kvPut s.hw.tss.gates mac (gatesOf e) by
        rw [Hw.applyGclEntry_frame]]
  case idle =>
    intro s mac off
    refine stays (exec_gclEntryAdvance mac s) ?_
    cases list : s.hw.listOf mac with
    | none => rfl
    | some l =>
      refine if_pos ?_
      rcases off with none_ | disabled | restarting
      · exact absurd (list.symm.trans none_) (by simp)
      · rw [disabled, Bool.not_false, Bool.or_true, Bool.true_or]
      · rw [restarting, Bool.or_true]
  case switches =>
    intro s mac l port pending due on_ bank x
    rw [gclSwitch_port port, Hw.gclSwitch, pending]
    dsimp only
    rw [ite_off (congrArg (!·) due), ite_off on_]
  case stops =>
    intro s mac l port pending due off
    refine ⟨s.hw.stopGcl mac, ?_, ?_⟩
    · rw [gclSwitch_port port, Hw.gclSwitch, pending]
      dsimp only
      rw [ite_off (congrArg (!·) due), if_pos off]
    · obtain ⟨en, pend, gates, open_, held, others⟩ := s.hw.stopGcl_off port
      exact ⟨en, pend, gates, open_, held, others, s.hw.stopGcl_frame mac⟩
  case early =>
    intro s mac port early
    rw [gclSwitch_port port, Hw.gclSwitch]
    cases pending : s.hw.pendingList mac with
    | none => rfl
    | some l =>
      dsimp only
      rw [if_pos (show (!s.hw.switchDue mac l.tb) = true from congrArg (!·) (early l pending))]
      rfl
  case restarts =>
    intro s mac l port stepped list
    refine goes_on (exec_gclRestart mac s) ((ite_off (congrArg (!·) stepped)).trans ((if_neg (by omega)).trans ?_))
    rw [show (s.hw.onTss (fun t => { t with restart := without t.restart mac })).listOf mac = some l from list]
  case sluiceRestarts =>
    intro s g l stepped list
    refine goes_on (exec_gclRestart (256 + g) s) ((ite_off (congrArg (!·) stepped)).trans ((if_pos (by omega)).trans ?_))
    rw [Nat.add_sub_cancel_left,
      show (s.hw.onTss (fun t => { t with restart := without t.restart (256 + g) })).sluiceList g = some l from list]
  case sluiceAdvances =>
    intro s g l list enabled on_ es i
    refine goes_on (exec_sluiceGateAdvance g s) ?_
    rw [list]
    exact ite_off (by rw [enabled, on_]; rfl)
  case sluiceSwitches =>
    intro s g l gate bank loaded
    refine goes_on (exec_gclSwitch (256 + g) s) ((if_neg (by omega)).trans ((if_pos (by omega)).trans ?_))
    rw [Nat.add_sub_cancel_left, Hw.sluiceSwitch]
    rw [show kvGet s.hw.tss.lists (100 + g * 2 + (1 - kvGetD s.hw.tss.sBank g 0)) = some l from loaded]
    cases due : s.hw.switchDue (256 + g) l.tb <;> simp [due, bank]
  case sluiceStops => exact fun s g => rfl

/-! ### Preemption, elimination and sweeps -/

/-- Settles O24: verification, notices, elimination and sweeps by their conditions. -/
theorem preemptionAndEliminationEvents : Obligations.PreemptionAndEliminationEvents := by
  refine ⟨?verified, ?noticeEnds, ?noticeRuns, ?resets, ?latent, ?notEliminating, ?sweeps, ?noSweep⟩
  case verified =>
    intro s mac
    refine goes_on (exec_preemptVerifyDone mac s) ?_
    simp only [Bool.and_eq_true, decide_eq_true_eq, Bool.not_eq_true', and_assoc]
  case noticeEnds =>
    intro s mac n rest waiting due
    refine ⟨(s.hw.onTss (fun t => { t with notice := if rest.isEmpty then kvDel t.notice mac else kvPut t.notice mac rest })).inc
      (Reg.TSS_NOTICE_EXPIRED mac), goes_on (exec_noticeExpire mac s) ?_, ?_, Hw.rn_inc_same _ _, rfl⟩
    · rw [waiting]
      exact if_pos due
    · rw [Hw.inc_tss, Hw.onTss_tss]
      dsimp only
      split
      · next none_ => rw [kvGetD_kvDel_same, List.isEmpty_iff.mp none_]
      · exact kvGetD_kvPut_same _ _ _ _
  case noticeRuns =>
    intro s mac early
    refine stays (exec_noticeExpire mac s) ?_
    cases waiting : kvGetD s.hw.tss.notice mac [] with
    | nil => rfl
    | cons n rest => exact if_neg (Nat.not_le.mpr (early n (by rw [waiting]; rfl)))
  case resets =>
    intro s p on_
    have put : ((s.hw.setFrer p { s.hw.frerOf p with takeAny := true, history := 0 }).inc (Reg.TSS_FRER_RESETS p)).frerOf p =
        { s.hw.frerOf p with takeAny := true, history := 0 } := kvGetD_kvPut_same _ _ _ _
    exact ⟨_, goes_on (exec_frerRecoveryReset p s) (if_pos on_), congrArg Frer.takeAny put, congrArg Frer.history put, Hw.rn_inc_same _ _, rfl⟩
  case latent =>
    intro s p on_ d h
    refine goes_on (exec_frerLatentCheck p s) ((if_pos on_).trans ?_)
    have apart : (if (s.hw.frerOf p).passed < (s.hw.frerOf p).discarded then (s.hw.frerOf p).discarded - (s.hw.frerOf p).passed
        else (s.hw.frerOf p).passed - (s.hw.frerOf p).discarded) = d := by
      simp only [d]
      split <;> omega
    dsimp only
    rw [apart]
    rfl
  case notEliminating =>
    exact fun s p off => ⟨stays (exec_frerRecoveryReset p s) (ite_off off), stays (exec_frerLatentCheck p s) (ite_off off)⟩
  case sweeps =>
    intro s list descs known enabled due start n recs h ring
    refine goes_on (exec_qsamplerSweep list descs s) ((if_neg ?_).trans rfl)
    have on_ : getF (s.hw.rn (Reg.TSS_QS_CFG list)) Fld.TSS_QS_CFG_EN = 1 := beq_iff_eq.mp enabled
    rw [on_, due]
    simp only [one_ne_zero, Bool.true_eq_false, or_false, not_le]
    exact known
  case noSweep =>
    intro s list descs off
    exact stays (exec_qsamplerSweep list descs s) (if_pos (.inr off))

end Sys2Proof.Machine
end

section
/-!
PROOFS of 05_video_integrity.md: packets, verdicts and notices (R150 to R175), alarm tasks and triggers (R164 to R173).
-/
namespace Sys2Proof.Machine

/-! ### Packets and verdicts -/

/-- The oldest packet at P28, behind its Basin errors. -/
def Hw.packetRead (h : Hw) (ecc : Nat) (f0 : Frame) : Hw := (h.basinEcc f0.id ecc).discardBad f0.id

/-- A packet of no watched stream, or whose key is destroyed, is taken away alone. -/
theorem viePacketObserve_unwatched {s : State} (b : Bool) {ecc : Nat} {f0 f : Frame} (oldest : s.hw.vieHead = some f0)
    (held : (s.hw.packetRead ecc f0).frame? f0.id = some f) (none_ : f.vie = none ∨ (s.hw.packetRead ecc f0).keyless f = true) :
    exec (.viePacketObserve (b, ecc)) s = .next (s.on ((s.hw.packetRead ecc f0).takeAt 28 f)) := by
  rw [exec_viePacketObserve, execViePacketObserve]
  refine goes_on rfl ?_
  rw [oldest]
  dsimp only
  rw [show ((s.hw.basinEcc f0.id ecc).discardBad f0.id).frame? f0.id = some f from held]
  dsimp only
  rcases none_ with unnamed | keyless
  · rw [unnamed]
    rfl
  · cases f.vie with
    | none => rfl
    | some v => exact congrArg (Hw.takeAt · 28 f) (if_pos keyless)

/-- A packet of a stream, whose key stands, is observed and taken away. -/
theorem viePacketObserve_read {s : State} {b : Bool} {ecc v : Nat} {f0 f : Frame} {x : Hw} (oldest : s.hw.vieHead = some f0)
    (held : (s.hw.packetRead ecc f0).frame? f0.id = some f) (named : f.vie = some v) (keyed : (s.hw.packetRead ecc f0).keyless f = false)
    (effect : (s.hw.packetRead ecc f0).observe v f b = x) : exec (.viePacketObserve (b, ecc)) s = .next (s.on (x.takeAt 28 f)) := by
  rw [exec_viePacketObserve, execViePacketObserve]
  refine goes_on rfl ?_
  rw [oldest]
  dsimp only
  rw [show ((s.hw.basinEcc f0.id ecc).discardBad f0.id).frame? f0.id = some f from held]
  dsimp only
  rw [named]
  exact congrArg (Hw.takeAt · 28 f) ((ite_off keyed).trans effect)

/-- What a packet of an enabled stream does. -/
theorem Hw.observe_enabled {h : Hw} {v : Nat} (f : Frame) (b : Bool) (enabled : h.vcfg v Fld.VIE_S_CFG_EN ≠ 0)
    (ready : h.flag Reg.VIE_STATUS Fld.VIE_STATUS_READY = true) :
    h.observe v f b =
      let x := if (kvGet h.vie.s v).isNone then h.vieEnable v else h
      if f.bad.isSome then x.recordPacket v f (h.readFrame f) b
      else
        let r := x.viePacket v (kvGetD x.vie.s v VieS.init) f (h.readFrame f) b
        (r.1.setVie v r.2).showVie v := by
  refine if_neg ?_
  rw [decide_eq_false enabled, ready]
  decide

/-- A frame that is judged. -/
theorem vieVerdict_of {s : State} {st : Nat} {v : VieS} {w : VieFrame} {ws : List VieFrame} (watched : kvGet s.hw.vie.s st = some v)
    (closed : v.wait = w :: ws) : exec (.vieVerdict st) s = .next (s.on (if s.hw.awaitsDisplay st w then s.hw else
      s.hw.judge st { v with wait := ws } w)) :=
  goes_on (exec_vieVerdict st s) (by rw [watched]; dsimp only; rw [closed])

/-- An incomplete frame counts as missed, fails check 1 alone and leaves its record. -/
theorem Hw.judge_short {h : Hw} {st : Nat} {v : VieS} {w : VieFrame} (short : w.complete = false) (untimed : w.ts = none)
    (unset_ : w.cfg = none) (known : w.fresh = false) (silent : h.vcfg st Fld.VIE_S_CFG_VERDICT_EN = 0) :
    h.judge st v w = (h.recordVerdict st w.no (frameRecord w 0 (2 &&& h.checkEn st))).score h st { v with missed := v.missed + 1 } 2 2 false
      (if (h.checkEn st).testBit 5 then w.disp.getD w.close else w.close) := by
  have closed : h.asClosed w = h := by
    unfold Hw.asClosed
    rw [unset_]
    rfl
  unfold Hw.judge Hw.judgeShort Hw.verdictRecord
  simp only [closed, short, untimed, known, silent, Option.isSome_none, Bool.false_eq_true, if_false, if_true]

/-- Settles O25: the oldest packet by its stream, the oldest closed frame by its completeness, watchdogs and heartbeats. -/
theorem videoFramesAreObservedAndJudged : Obligations.VideoFramesAreObservedAndJudged := by
  refine ⟨?unwatched, ?disabled, ?bad, ?good, ?noPacket, ?verdict, ?short, ?noFrame, ?missing, ?unarmed, ?heartbeat⟩
  case unwatched =>
    intro s b ecc f0 f oldest h held none_
    exact viePacketObserve_unwatched b oldest held none_
  case disabled =>
    intro s b ecc f0 f v oldest h held named off
    cases keyless : h.keyless f with
    | true => exact viePacketObserve_unwatched b oldest held (.inr keyless)
    | false =>
      refine viePacketObserve_read oldest held named keyless (if_pos ?_)
      rcases off with disabled | unready
      · rw [show (s.hw.packetRead ecc f0).vcfg v Fld.VIE_S_CFG_EN = 0 from disabled]
        rfl
      · rw [show (s.hw.packetRead ecc f0).flag Reg.VIE_STATUS Fld.VIE_STATUS_READY = false from unready, Bool.not_false, Bool.or_true]
  case bad =>
    intro s b ecc f0 f v oldest h held named keyed enabled ready x bad
    exact viePacketObserve_read oldest held named keyed ((Hw.observe_enabled f b enabled ready).trans (if_pos bad))
  case good =>
    intro s b ecc f0 f v oldest h held named keyed enabled ready x good r
    exact viePacketObserve_read oldest held named keyed ((Hw.observe_enabled f b enabled ready).trans (ite_off good))
  case noPacket =>
    intro s b ecc none_
    rw [exec_viePacketObserve, execViePacketObserve]
    exact stays rfl (by rw [none_])
  case verdict => exact fun s st v w ws watched closed => vieVerdict_of watched closed
  case short =>
    intro s st v w ws watched closed ready short untimed unset_ known silent
    rw [vieVerdict_of watched closed, ite_off ready, Hw.judge_short short untimed unset_ known silent]
  case noFrame =>
    intro s st none_
    refine stays (exec_vieVerdict st s) ?_
    cases watched : kvGet s.hw.vie.s st with
    | none => rfl
    | some v =>
      dsimp only
      rw [none_ v watched]
  case missing =>
    intro s st c n v watched armed
    exact goes_on (exec_vieMissingExpire st s) (by rw [watched]; dsimp only; rw [armed])
  case unarmed =>
    intro s st none_
    refine stays (exec_vieMissingExpire st s) ?_
    cases watched : kvGet s.hw.vie.s st with
    | none => rfl
    | some v =>
      dsimp only
      rw [none_ v watched]
  case heartbeat =>
    intro s st v watched
    refine goes_on (exec_vieHeartbeat st s) ?_
    rw [Hw.noticeNow, watched]

/-! ### Alarm tasks -/

/-- A waiting run of a task is served and recorded. -/
theorem Hw.serveTask_runs {h : Hw} {t : Nat} {r : TaskRun} (eff : Hw → TaskRun → Hw) (waiting : h.taskRun? t = some r) :
    h.serveTask t eff = (eff { h with tasks := dropRun h.tasks t } r).taskRecord r := by
  unfold Hw.serveTask
  rw [waiting]

/-- A task without a waiting run does nothing. -/
theorem Hw.serveTask_idle {h : Hw} (t : Nat) (eff : Hw → TaskRun → Hw) (none_ : h.tasks = []) : h.serveTask t eff = h := by
  unfold Hw.serveTask Hw.taskRun?
  rw [none_]
  rfl

/-- A run of a trigger task. -/
theorem rsvTriggerTask_runs {s : State} {k : Nat} {r : TaskRun} (task : k < 4) (waiting : s.hw.taskRun? (4 + k) = some r) :
    exec (.rsvTriggerTask k) s = .next (s.on (
      let h : Hw := { s.hw with tasks := dropRun s.hw.tasks (4 + k) }
      ((bitsOf 16 (h.rn (Reg.RSV_TRIG_MASK k))).foldl (fun a x => (a.triggerRing x r.at_ (maskOf r.cause)).lateBy r 1000) h).taskRecord r)) :=
  goes_on (exec_rsvTriggerTask k s) ((if_neg (by omega)).trans (Hw.serveTask_runs _ waiting))

/-- A run is not late in its own cycle. -/
theorem Hw.lateBy_now {h : Hw} {r : TaskRun} (cycles : Nat) (now : r.at_ = h.clk) : h.lateBy r cycles = h :=
  if_neg (by rw [now, decide_eq_false (by omega), Bool.and_false]; decide)

/-- A task outside the recorded ones whose record is off leaves none. -/
theorem Hw.taskRecord_off {h : Hw} {r : TaskRun} (task : r.task < 40)
    (off : h.flag (Reg.EVF_TASK_CFG r.task) Fld.EVF_TASK_CFG_RECORD = false) : h.taskRecord r = h :=
  (if_neg (by omega)).trans (ite_off off)

/-- The first trigger of a ring is logged. -/
theorem Hw.logTrigger_first {h : Hw} {x : Nat} (at_ cause : Nat) (none_ : (kvGetD h.vie.ring x RsvRing.empty).trig = []) :
    h.logTrigger x at_ cause = (h.onRing x (fun g => { g with trig := [(at_, cause)], trigAt := some at_ })).setFld (Reg.RSV_RING_STATE x)
      Fld.RSV_RING_STATE_LOGGED 1 := by
  unfold Hw.logTrigger
  dsimp only
  rw [none_]
  rfl

/-- A trigger at a ring that records: its post time begins and the trigger is logged. -/
theorem Hw.triggerRing_recording {h : Hw} {x : Nat} {g : RsvRing} (at_ cause : Nat)
    (recording : h.fld (Reg.RSV_RING_STATE x) Fld.RSV_RING_STATE_STATE = 1) (ring : kvGet h.vie.ring x = some g) (none_ : g.trig = []) :
    h.triggerRing x at_ cause =
      (((h.setFld (Reg.RSV_RING_STATE x) Fld.RSV_RING_STATE_STATE 2).onRing x (fun g => { g with
        postEnd := h.clk + h.fld (Reg.RSV_RING_CFG x) Fld.RSV_RING_CFG_POST_MS * 500000 })).onRing x (fun g => { g with
        trig := [(at_, cause)], trigAt := some at_ })).setFld (Reg.RSV_RING_STATE x) Fld.RSV_RING_STATE_LOGGED 1 := by
  unfold Hw.triggerRing
  rw [recording]
  refine Hw.logTrigger_first at_ cause ?_
  simp only [Hw.onRing, Hw.onVie, kvGetD_kvMod_same]
  rw [show kvGetD (h.setFld (Reg.RSV_RING_STATE x) Fld.RSV_RING_STATE_STATE 2).vie.ring x RsvRing.empty = g from
    congrArg (Option.getD · RsvRing.empty) ring]
  exact none_

/-- What such a trigger leaves. -/
theorem Hw.triggered_ring (h : Hw) (x e at_ cause : Nat) {g : RsvRing} (ring : kvGet h.vie.ring x = some g) :
    kvGet (((h.onRing x (fun g => { g with postEnd := e })).onRing x (fun g => { g with trig := [(at_, cause)], trigAt := some at_ })).vie.ring) x =
      some { g with postEnd := e, trig := [(at_, cause)], trigAt := some at_ } := by
  have held : kvGetD h.vie.ring x RsvRing.empty = g := congrArg (Option.getD · RsvRing.empty) ring
  simp only [Hw.onRing, Hw.onVie, kvMod, kvGet_kvPut_same, kvGetD_kvPut_same, held]

/-- A run in this cycle of a trigger task that names one recording ring and leaves no record. -/
theorem rsvTriggerTask_now {s : State} {k x : Nat} {r : TaskRun} {g : RsvRing} (task : k < 4) (waiting : s.hw.taskRun? (4 + k) = some r)
    (now : r.at_ = s.hw.clk) (named : bitsOf 16 (s.hw.rn (Reg.RSV_TRIG_MASK k)) = [x])
    (recording : s.hw.fld (Reg.RSV_RING_STATE x) Fld.RSV_RING_STATE_STATE = 1) (ringIx : x < 16)
    (silent : s.hw.flag (Reg.EVF_TASK_CFG (4 + k)) Fld.EVF_TASK_CFG_RECORD = false) (ring : kvGet s.hw.vie.ring x = some g)
    (none_ : g.trig = []) :
    exec (.rsvTriggerTask k) s = .next (s.on (((((({ s.hw with tasks := dropRun s.hw.tasks (4 + k) } : Hw).setFld (Reg.RSV_RING_STATE x)
      Fld.RSV_RING_STATE_STATE 2).onRing x (fun g => { g with
        postEnd := s.hw.clk + s.hw.fld (Reg.RSV_RING_CFG x) Fld.RSV_RING_CFG_POST_MS * 500000 })).onRing x (fun g => { g with
        trig := [(s.hw.clk, maskOf r.cause)], trigAt := some s.hw.clk })).setFld (Reg.RSV_RING_STATE x) Fld.RSV_RING_STATE_LOGGED 1))) := by
  have mine : r.task = 4 + k := by simpa using List.find?_some waiting
  rw [rsvTriggerTask_runs task waiting]
  dsimp only
  rw [show ({ s.hw with tasks := dropRun s.hw.tasks (4 + k) } : Hw).rn (Reg.RSV_TRIG_MASK k) = s.hw.rn (Reg.RSV_TRIG_MASK k) from rfl, named,
    List.foldl_cons, List.foldl_nil, Hw.triggerRing_recording r.at_ (maskOf r.cause) (show ({ s.hw with
      tasks := dropRun s.hw.tasks (4 + k) } : Hw).fld (Reg.RSV_RING_STATE x) Fld.RSV_RING_STATE_STATE = 1 from recording) ring none_, now,
    Hw.lateBy_now 1000 (by rw [now]; rfl), Hw.taskRecord_off (by omega)]
  · rfl
  · rw [mine]
    have apart : Reg.EVF_TASK_CFG (4 + k) ≠ Reg.RSV_RING_STATE x := by unfold Reg.EVF_TASK_CFG Reg.RSV_RING_STATE; omega
    exact (Hw.flag_setFld_ne _ _ _ _ apart).trans ((Hw.flag_setFld_ne _ _ _ _ apart).trans silent)

/-- Settles O26: each task by its waiting run, a trigger by what its ring does, the end of a post time by its instant. -/
theorem videoAlarmsAct : Obligations.VideoAlarmsAct := by
  refine ⟨?notices, ?fallbacks, ?frer, ?host, ?idle, ?triggers, ?recording, ?freezes, ?noFreeze⟩
  case notices => exact fun s r waiting => goes_on (exec_vieNoticeTask s) (Hw.serveTask_runs _ waiting)
  case fallbacks => exact fun s r waiting => goes_on (exec_vieFallbackTask s) (Hw.serveTask_runs _ waiting)
  case frer => exact fun s r waiting => goes_on (exec_vieFrerTask s) (Hw.serveTask_runs _ waiting)
  case host => exact fun s r waiting => goes_on (exec_vieHostTask s) (Hw.serveTask_runs _ waiting)
  case idle =>
    intro s none_
    refine ⟨stays (exec_vieNoticeTask s) (Hw.serveTask_idle _ _ none_), stays (exec_vieFallbackTask s) (Hw.serveTask_idle _ _ none_),
      stays (exec_vieFrerTask s) (Hw.serveTask_idle _ _ none_), stays (exec_vieHostTask s) (Hw.serveTask_idle _ _ none_), fun k => ?_⟩
    exact stays (exec_rsvTriggerTask k s) (ite_shared id rfl (Hw.serveTask_idle _ _ none_))
  case triggers => exact fun s k r task waiting => rsvTriggerTask_runs task waiting
  case recording =>
    intro s k x r g task waiting now ringIx named recording silent ring none_
    refine ⟨_, rsvTriggerTask_now task waiting now named recording ringIx silent ring none_, ?_, ?_, ?_, fun q other => ?_, rfl⟩
    · rw [State.on_hw, Hw.fld_setFld_apart _ _ _ _ _ (by decide) (by decide) (by decide)]
      exact (Hw.fld_setFld_same _ _ _ _ (by decide) (by decide))
    · rw [State.on_hw, Hw.fld_setFld_same _ _ _ _ (by decide) (by decide)]
      rfl
    · exact Hw.triggered_ring _ x _ _ _ ring
    · exact (Hw.rn_setFld_ne _ _ _ other).trans (Hw.rn_setFld_ne _ _ _ other)
  case freezes =>
    intro s x post over_ h
    exact goes_on (exec_rsvPostExpire x s) (if_pos ⟨post, over_⟩)
  case noFreeze =>
    intro s x off
    refine stays (exec_rsvPostExpire x s) (if_neg ?_)
    rintro ⟨post, over_⟩
    rcases off with other | early
    · exact other post
    · omega

end Sys2Proof.Machine
end

section
/-!
PROOFS of 06_ethernet_ports.md: lines and links (R178 to R184), mixing segments (R186 to R188), low-power idle and wakes (R192 to R195).
-/
namespace Sys2Proof.Machine

/-! ### Lines and links -/

/-- The signal of a lane changes registers alone. -/
theorem Hw.laneSignal_frame (h : Hw) (m : Nat) (on_ : Bool) : h.laneSignal m on_ = { h with regs := (h.laneSignal m on_).regs } := by
  unfold Hw.laneSignal
  split <;> rfl

/-- The signal of a lane leaves the MACs. -/
theorem Hw.laneSignal_mac (h : Hw) (m : Nat) (on_ : Bool) : (h.laneSignal m on_).mac = h.mac := by rw [Hw.laneSignal_frame]

/-- The signal of a lane leaves every register but two. -/
theorem Hw.rn_laneSignal_ne (h : Hw) (m : Nat) (on_ : Bool) {r : Nat} (status : r ≠ Reg.SQ_STATUS (m / 4))
    (eq_ : r ≠ Reg.SQ_LANE_EQ (m / 4) (m % 4)) : (h.laneSignal m on_).rn r = h.rn r := by
  unfold Hw.laneSignal
  split
  · rw [Hw.rn_setFld_ne _ _ _ eq_, Hw.rn_setFld_ne _ _ _ status]
  · rfl

/-- The signal of a lane is shown. -/
theorem Hw.fld_laneSignal (h : Hw) {m : Nat} (on_ : Bool) (lane : m < 20) :
    (h.laneSignal m on_).fld (Reg.SQ_STATUS (m / 4)) ⟨4 + m % 4, 4 + m % 4⟩ = on_.toNat := by
  have apart : Reg.SQ_STATUS (m / 4) ≠ Reg.SQ_LANE_EQ (m / 4) (m % 4) := by unfold Reg.SQ_STATUS Reg.SQ_LANE_EQ; omega
  unfold Hw.laneSignal
  rw [if_pos lane, Hw.fld_setFld_ne _ _ _ _ apart, Hw.fld_setFld_same _ _ _ _ (le_refl _) (show 4 + m % 4 < 32 by omega)]
  rw [show 4 + m % 4 + 1 - (4 + m % 4) = 1 by omega]
  cases on_ <;> rfl

/-- A port that receives nothing has no frame to cut. -/
theorem Hw.cutRx_idle {h : Hw} {m : Nat} (rest : List Byte) (idle : kvGet h.swc.rx m = none) : h.cutRx m rest = h := by
  unfold Hw.cutRx
  rw [idle]

/-- A line that is lost while nothing is received. -/
theorem Hw.lineLoss_idle {h : Hw} {m : Nat} (rest : List Byte) (idle : kvGet h.swc.rx m = none) :
    h.lineLoss m rest = (h.onMac (fun x => { x with lineGood := without x.lineGood m })).laneSignal m false := by
  refine Hw.cutRx_idle rest ?_
  rw [Hw.laneSignal_frame]
  exact idle

/-- The lane's lock of a PLL. -/
theorem sqPllUnlock_of {s : State} {q p : Nat} {f : Field} (quad : q < 5) (pll : p < 2)
    (field : (if p = 0 then Fld.SQ_STATUS_PLLA_LOCK else Fld.SQ_STATUS_PLLB_LOCK) = f) :
    exec (.sqPllUnlock q p) s = .next (s.on (if s.hw.flag (Reg.SQ_STATUS q) f = false then s.hw
      else
        let x := (s.hw.pllLanes q p).foldl (fun a m => (a.lineLoss m []).linkDown m)
          (((s.hw.setFld (Reg.SQ_STATUS q) f 0).inc (Reg.SQ_PLL_UNLOCK q)).post 1 0x0602 q p)
        if s.hw.pllLanes q p = [] then x else x.clrReady (Reg.SQ_STATUS q) Fld.SQ_STATUS_READY (56 + q))) := by
  subst field
  refine goes_on (exec_sqPllUnlock q p s) ?_
  simp only [show ¬ 5 ≤ q by omega, show ¬ 2 ≤ p by omega, false_or, List.isEmpty_iff]

/-- Settles O27: losses, restorations, link-down and link-up by their conditions, a PLL by its lock. -/
theorem linksFallAndRise : Obligations.LinksFallAndRise := by
  refine ⟨?lost, ?lostIdle, ?restored, ?falls, ?stands, ?rises, ?rate, ?unlocks⟩
  case lost => exact fun s m rest => goes_on (exec_lineLoss m rest s) rfl
  case lostIdle =>
    intro s m rest port unlooped idle
    refine ⟨_, goes_on (exec_lineLoss m rest s) ((if_pos ⟨port, by rw [unlooped]; rfl⟩).trans (Hw.lineLoss_idle rest idle)), ?_,
      fun lane => Hw.fld_laneSignal _ false lane, ?_, fun r status eq_ => Hw.rn_laneSignal_ne _ _ _ status eq_⟩
    · rw [State.on_hw, Hw.laneSignal_frame]
      exact not_mem_without _ _
    · rw [State.on_hw]
      exact congrArg s.on (Hw.laneSignal_frame _ _ _)
  case restored =>
    intro s m port
    refine ⟨_, goes_on (exec_lineRestored m s) (if_pos port), ?_, ?_⟩
    · rw [State.on_hw, Hw.laneSignal_frame]
      exact mem_insertNew _ _
    · rw [State.on_hw, Hw.laneSignal_mac, Hw.onMac_mac]
      rfl
  case falls =>
    intro s m port lost
    exact goes_on (exec_linkDown m s) (if_pos (by rw [decide_eq_true port, lost]; rfl))
  case stands =>
    intro s m stands
    refine stays (exec_linkDown m s) ?_
    rcases stands with good | down
    · exact ite_off (by rw [good, Bool.not_true, Bool.and_false])
    · exact ite_shared id (if_pos (congrArg (!·) down)) rfl
  case rises =>
    intro s m n
    refine goes_on (exec_linkUp m n s) ?_
    simp only [Bool.and_eq_true, decide_eq_true_eq, Bool.not_eq_true', and_assoc]
  case rate =>
    intro s m n
    unfold Hw.rateUp
    simp only [Bool.and_eq_true, Bool.or_eq_true, beq_iff_eq]
  case unlocks =>
    rintro s q p f quad (⟨rfl, rfl⟩ | ⟨rfl, rfl⟩) h x
    · exact sqPllUnlock_of quad (by decide) rfl
    · exact sqPllUnlock_of quad (by decide) rfl

/-! ### Mixing segments -/

/-- An opportunity of a port whose line is free. -/
theorem plcaOpportunity_runs {s : State} {m : Nat} {more : Bool} (on_ : s.hw.plca m = true) (free : s.hw.txBusy m = false)
    (burst : more = true → s.hw.burstLeft m = true) {x : Hw}
    (effect : (match (s.hw.opportunity m more).grantedAt m with
      | some f => if (s.hw.opportunity m more).fits m f.cls ((s.hw.opportunity m more).chargeLen f m)
          then (s.hw.opportunity m more).burstStart m else (s.hw.opportunity m more).inc (Reg.MAC_PLCA_YIELD m)
      | none => match (s.hw.opportunity m more).select m with
        | some x => if (s.hw.opportunity m more).slotsUsed x.2.1.ingress < 2
            then ((s.hw.opportunity m more).grant ⟨m, x.1, x.2.1, x.2.2⟩).burstStart m else s.hw.opportunity m more
        | none => if (s.hw.opportunity m more).gateBlocked m then (s.hw.opportunity m more).inc (Reg.MAC_PLCA_YIELD m)
            else (s.hw.opportunity m more).txStart m) = x) :
    exec (.plcaOpportunity (m, more)) s = .next (s.on x) := by
  rw [exec_plcaOpportunity, execPlcaOpportunity]
  refine goes_on rfl ((ite_off ?_).trans effect)
  rw [on_, free]
  cases more with
  | false => rfl
  | true => rw [burst rfl]; rfl

/-- A collision on a mixing segment, with a frame on the line. -/
theorem t1sCollision_of {s : State} {m : Nat} {x : TxCur} {xs : List TxCur} {f : Frame} {y : Hw} (low : 20 ≤ m) (high : m < 24)
    (sending : kvGetD s.hw.swc.tx m [] = x :: xs)
    (held : (((s.hw.inc (Reg.MAC_COLLISIONS m)).countCut m).onSwc (fun w => { w with tx := kvDel w.tx m })).frame? x.frame = some f)
    (effect : (let h := ((s.hw.inc (Reg.MAC_COLLISIONS m)).countCut m).onSwc (fun w => { w with tx := kvDel w.tx m })
      let n := (if s.hw.retrying m x.frame then (kvGetD s.hw.mac.attempts m (0, 0)).2 else 0) + 1
      if 16 ≤ n then (((h.onMac (fun m' => { m' with attempts := kvDel m'.attempts m, backoff := without m'.backoff m })).inc
        (Reg.MAC_TX_EXCESS_COLL m)).abandon f m).reap f.id
      else (h.setCopy f.id m .granted).onMac (fun m' => { m' with
        attempts := kvPut m'.attempts m (f.id, n), backoff := insertNew m'.backoff m })) = y) :
    exec (.t1sCollision m) s = .next (s.on y) := by
  refine goes_on (exec_t1sCollision m s) ((if_neg (by omega)).trans ?_)
  rw [sending]
  dsimp only
  rw [held]
  exact effect

/-- Settles O28: an opportunity by what is granted or selected, beacons, collisions by their count, a backoff by PLCA. -/
theorem mixingSegmentsShareTheLine : Obligations.MixingSegmentsShareTheLine := by
  refine ⟨?granted, ?selected, ?nothing, ?none_, ?beaconLoss, ?beaconHeard, ?retried, ?abandoned, ?backoff⟩
  case granted =>
    intro s m more f on_ free burst h granted
    exact plcaOpportunity_runs on_ free burst (by rw [show (s.hw.opportunity m more).grantedAt m = some f from granted])
  case selected =>
    intro s m more x on_ free burst h ungranted selected
    exact plcaOpportunity_runs on_ free burst (by
      rw [show (s.hw.opportunity m more).grantedAt m = none from ungranted]
      dsimp only
      rw [show (s.hw.opportunity m more).select m = some x from selected])
  case nothing =>
    intro s m more on_ free burst h ungranted unselected
    exact plcaOpportunity_runs on_ free burst (by
      rw [show (s.hw.opportunity m more).grantedAt m = none from ungranted]
      dsimp only
      rw [show (s.hw.opportunity m more).select m = none from unselected])
  case none_ =>
    intro s m more none_
    rw [exec_plcaOpportunity, execPlcaOpportunity]
    refine stays rfl (if_pos ?_)
    rcases none_ with off | busy | ⟨rfl, spent⟩
    · rw [off]
      rfl
    · rw [busy, Bool.or_true, Bool.true_or]
    · rw [spent]
      exact Bool.or_true _
  case beaconLoss =>
    intro s m
    refine goes_on (exec_plcaBeaconLoss m s) ?_
    simp only [Bool.and_eq_true, bne_iff_ne, and_assoc]
  case beaconHeard =>
    intro s m
    refine goes_on (exec_plcaBeaconHeard m s) ?_
    simp only [Bool.and_eq_true, Bool.not_eq_true']
  case retried =>
    intro s m x xs f low high sending h held n few
    exact t1sCollision_of low high sending held (if_neg (by omega))
  case abandoned =>
    intro s m x xs f low high sending h held n many
    exact t1sCollision_of low high sending held (if_pos many)
  case backoff => exact fun s m => goes_on (exec_t1sBackoffExpire m s) rfl

/-! ### Low-power idle and wakes -/

/-- Settles O29: entries, exits and wakes by their conditions. -/
theorem idleLinksSleepAndWake : Obligations.IdleLinksSleepAndWake := by
  refine ⟨?enters, ?awake, ?exits, ?woken, ?partner, ?pinWake, ?frameWake, ?noWake⟩
  case enters =>
    intro s m port up enabled awake empty unpaused
    have apart : Reg.MAC_STATUS m ≠ Reg.MAC_TX_LPI_ENTRIES m := by unfold Reg.MAC_STATUS Reg.MAC_TX_LPI_ENTRIES; omega
    refine ⟨_, goes_on (exec_eeeLpiEnter m s) (if_pos ?_), ?_, ?_, fun r status entries => ?_, rfl⟩
    · rw [decide_eq_true port, up, enabled, awake, empty, unpaused]
      rfl
    · rw [State.on_hw, Hw.fld, Hw.rn_inc_ne _ apart, ← Hw.fld, Hw.fld_setFld_same _ _ _ _ (by decide) (by decide)]
      rfl
    · rw [State.on_hw, Hw.rn_inc_same, Hw.rn_setFld_ne _ _ _ (Ne.symm apart)]
    · rw [State.on_hw, Hw.rn_inc_ne _ entries, Hw.rn_setFld_ne _ _ _ status]
  case awake =>
    intro s m busy
    refine stays (exec_eeeLpiEnter m s) (if_neg ?_)
    simp only [Bool.and_eq_true, decide_eq_true_eq, Bool.not_eq_true', List.isEmpty_iff]
    rintro ⟨⟨⟨⟨⟨port, up⟩, enabled⟩, awake⟩, empty⟩, unpaused⟩
    simp only [up, enabled, awake, empty, unpaused, Bool.true_eq_false, Bool.false_eq_true, ne_eq, not_true_eq_false, or_false] at busy
    omega
  case exits =>
    intro s m
    refine goes_on (exec_eeeLpiExit m s) ?_
    simp only [Bool.and_eq_true, decide_eq_true_eq, and_assoc]
  case woken => exact fun s m => goes_on (exec_eeeWakeDone m s) rfl
  case partner =>
    intro s m on_
    refine goes_on (exec_partnerLpiChange m on_ s) ?_
    simp only [Bool.and_eq_true, decide_eq_true_eq, bne_iff_ne, and_assoc]
    cases on_ <;> rfl
  case pinWake =>
    intro s m level b port off watched
    rw [exec_ethWakeDetect, execEthWakeDetect]
    refine goes_on rfl ((if_neg ?_).trans ((if_pos port).trans ?_))
    · rw [off, watched]
      simp only [Bool.false_eq_true, Bool.not_true, or_false, not_le]
      omega
    · simp only [beq_iff_eq]
  case frameWake =>
    intro s m level b low high off watched
    rw [exec_ethWakeDetect, execEthWakeDetect]
    refine goes_on rfl ((if_neg ?_).trans ((if_neg (by omega)).trans ?_))
    · rw [show 31 + m / 4 = 36 by omega, off, watched]
      simp only [Bool.false_eq_true, Bool.not_true, or_false, not_le]
      exact high
    · simp only [List.any_eq_true, List.mem_range]
  case noWake =>
    intro s m level b none_
    rw [exec_ethWakeDetect, execEthWakeDetect]
    exact stays rfl (if_pos (by simpa using none_))

end Sys2Proof.Machine
end

section
/-!
PROOFS of 07_can_and_lin.md: CAN controllers receive and count errors (R206, R207, R213 to R219).
-/
namespace Sys2Proof.Machine

/-! ### Controllers -/

/-- A field is smaller than its width allows. -/
theorem getF_lt (w : Nat) (f : Field) : getF w f < 2 ^ (f.hi + 1 - f.lo) := Nat.mod_lt _ (Nat.two_pow_pos _)

/-- A change of one controller leaves the others. -/
theorem Hw.can_onCan_ne (h : Hw) {c d : Nat} (f : CanC → CanC) (other : d ≠ c) : (h.onCan c f).can d = h.can d :=
  kvGetD_kvPut_ne _ _ _ other

/-- Status and configuration of a controller are different registers. -/
theorem canCfg_ne_canStatus (c : Nat) : Reg.CAN_CFG c ≠ Reg.CAN_STATUS c := by unfold Reg.CAN_CFG Reg.CAN_STATUS; omega

/-- A locked queue keeps its records. -/
theorem CanC.rx_setLock (x : CanC) (p q : Nat) (b : Bool) : (x.setLock p b).rx q = x.rx q := by
  unfold CanC.setLock CanC.rx
  by_cases zero : p = 0
  · simp [zero]
  · simp [zero]

/-- A lock that is set. -/
theorem CanC.lock_setLock (x : CanC) (q : Nat) (b : Bool) : (x.setLock q b).lock q = b := by
  unfold CanC.setLock CanC.lock
  by_cases zero : q = 0
  · simp [zero]
  · simp [zero]

/-- Records put into a queue. -/
theorem CanC.rx_setRx (x : CanC) (q : Nat) (l : List (Nat × List Nat)) : (x.setRx q l).rx q = l := by
  unfold CanC.setRx CanC.rx
  by_cases zero : q = 0
  · simp [zero]
  · simp [zero]

/-! ### Reception -/

/-- A controller integrated: SYNC set, no protocol exception, the mode as configured. -/
def Hw.integrated (h : Hw) (c : Nat) : Hw :=
  let x := (h.setFld (Reg.CAN_STATUS c) Fld.CAN_STATUS_SYNC 1).setFld (Reg.CAN_STATUS c) Fld.CAN_STATUS_PEX_ACTIVE 0
  x.setFld (Reg.CAN_STATUS c) Fld.CAN_STATUS_MODE_NOW (x.canCfg c Fld.CAN_CFG_MODE)

/-- Integration leaves every other register. -/
theorem Hw.rn_integrated_ne (h : Hw) (c : Nat) {r : Nat} (other : r ≠ Reg.CAN_STATUS c) : (h.integrated c).rn r = h.rn r := by
  rw [Hw.integrated, Hw.rn_setFld_ne _ _ _ other, Hw.rn_setFld_ne _ _ _ other, Hw.rn_setFld_ne _ _ _ other]

/-- What an integrated controller shows. -/
theorem Hw.integrated_shows (h : Hw) (c : Nat) : (h.integrated c).flag (Reg.CAN_STATUS c) Fld.CAN_STATUS_SYNC = true ∧
    (h.integrated c).flag (Reg.CAN_STATUS c) Fld.CAN_STATUS_PEX_ACTIVE = false ∧ (h.integrated c).canMode c = h.canCfg c Fld.CAN_CFG_MODE := by
  have cfg : ((h.setFld (Reg.CAN_STATUS c) Fld.CAN_STATUS_SYNC 1).setFld (Reg.CAN_STATUS c) Fld.CAN_STATUS_PEX_ACTIVE 0).canCfg c Fld.CAN_CFG_MODE =
      h.canCfg c Fld.CAN_CFG_MODE := by
    rw [Hw.canCfg, Hw.fld_setFld_ne _ _ _ _ (canCfg_ne_canStatus c), Hw.fld_setFld_ne _ _ _ _ (canCfg_ne_canStatus c), ← Hw.canCfg]
  refine ⟨?_, ?_, ?_⟩
  · rw [Hw.integrated, Hw.flag, Hw.fld_setFld_apart _ _ _ _ _ (by decide) (by decide) (by decide),
      Hw.fld_setFld_apart _ _ _ _ _ (by decide) (by decide) (by decide), Hw.fld_setFld_same _ _ _ _ (by decide) (by decide)]
    rfl
  · rw [Hw.integrated, Hw.flag, Hw.fld_setFld_apart _ _ _ _ _ (by decide) (by decide) (by decide),
      Hw.fld_setFld_same _ _ _ _ (by decide) (by decide)]
    rfl
  · rw [Hw.integrated, Hw.canMode, Hw.fld_setFld_same _ _ _ _ (by decide) (by decide), cfg]
    exact Nat.mod_eq_of_lt (getF_lt _ Fld.CAN_CFG_MODE)

/-- A controller at the start of a frame: no error under way. -/
def Hw.frameStart (h : Hw) (c : Nat) : Hw := h.onCan c (fun x => { x with erring := false })

/-- A frame on the bus of a controller in LOOPBACK, or off the bus, is not received. -/
theorem canFrameReceive_deaf {s : State} {c : Nat} (fmt w0 w1 w2 age : Nat) (d : List Byte) (deaf : s.hw.canOn c = false ∨ s.hw.canMode c = 2) :
    exec (.canFrameReceive c fmt w0 w1 w2 d age) s = .next (s.on (if c < 48 then s.hw.frameStart c else s.hw)) := by
  refine goes_on (exec_canFrameReceive c fmt w0 w1 w2 d age s) (if_pos ?_)
  have on_ : (if c < 48 then s.hw.onCan c (fun x => { x with erring := false }) else s.hw).canOn c = s.hw.canOn c :=
    ite_shared (fun x : Hw => x.canOn c) rfl rfl
  have mode : (if c < 48 then s.hw.onCan c (fun x => { x with erring := false }) else s.hw).canMode c = s.hw.canMode c :=
    ite_shared (fun x : Hw => x.canMode c) rfl rfl
  rw [on_, mode]
  simpa using deaf

/-- A controller on its bus is one of the 48. -/
theorem Hw.canOn_lt {h : Hw} {c : Nat} (on_ : h.canOn c = true) : c < 48 := by
  simp only [Hw.canOn, Bool.and_eq_true, decide_eq_true_eq] at on_
  exact on_.1.1.1

/-- A frame on the bus of a controller that takes part in it, by its format. -/
theorem canFrameReceive_heard {s : State} {c : Nat} (fmt w0 w1 w2 age : Nat) (d : List Byte) (on_ : s.hw.canOn c = true)
    (mode : s.hw.canMode c ≠ 2) :
    exec (.canFrameReceive c fmt w0 w1 w2 d age) s = .next (s.on (
      if (fmt = 1 ∧ s.hw.canCfg c Fld.CAN_CFG_FD_EN = 0) ∨ (fmt = 2 ∧ s.hw.canCfg c Fld.CAN_CFG_XL_EN = 0) then (s.hw.frameStart c).offFormat c age
      else ((s.hw.frameStart c).goodRx c).canAccept c fmt w0 w1 w2 d age)) := by
  refine goes_on (exec_canFrameReceive c fmt w0 w1 w2 d age s) ?_
  rw [if_pos (Hw.canOn_lt on_)]
  refine ite_off ?_
  rw [show (s.hw.onCan c (fun x => { x with erring := false })).canOn c = true from on_,
    show (s.hw.onCan c (fun x => { x with erring := false })).canMode c = s.hw.canMode c from rfl, beq_eq_false_iff_ne.mpr mode]
  rfl

/-- A frame that the filters reject is counted. -/
theorem Hw.canAccept_rejected {h : Hw} {c w0 w1 i : Nat} (w2 age : Nat) (d : List Byte)
    (rejected : h.filterOf c 0 (w1 % 2 ^ 29) (w0.testBit 21) = (3, i)) : h.canAccept c 0 w0 w1 w2 d age = h.inc (Reg.CAN_RX_REJECT c) :=
  if_pos (congrArg Prod.fst rejected)

/-! ### Queues read by the CPU -/

/-- An output leaves the controllers. -/
theorem Hw.can_emit (h : Hw) (o : Output) (c : Nat) : (h.emit o).can c = h.can c := rfl

/-- A queue that is no receive queue of a direct consumer. -/
theorem canRxqPop_of {s : State} {c q : Nat} (read next : Bool) (port : c < 48) (rx : q < 2)
    (direct : s.hw.flag (Reg.CAN_CFG c) (if q = 0 then Fld.CAN_CFG_RXQ0_DIRECT else Fld.CAN_CFG_RXQ1_DIRECT) = true) {x : Hw}
    (effect : (if read then s.hw.rxLook c q else match s.hw.rxPop c q with
      | (none, h) => h
      | (some ws, h) => (h.emit (.cpu (canQueue c q) (bytesOf ws))).onCan c (fun x => x.setLock q (next && !(x.rx q).isEmpty))) = x) :
    exec (.canRxqPop c q (read, next)) s = .next (s.on x) := by
  rw [exec_canRxqPop, execCanRxqPop]
  refine goes_on rfl ((if_neg (by omega)).trans ((if_neg (by omega)).trans ((if_neg (by omega)).trans ((if_neg ?_).trans effect))))
  rw [direct]
  simp only [Bool.true_eq_false, or_false, not_le]
  exact rx

/-- The head of a receive queue is looked at. -/
theorem Hw.rxLook_head {h : Hw} {c q : Nat} {e : Nat × List Nat} {es : List (Nat × List Nat)} (held : (h.can c).rx q = e :: es) :
    h.rxLook c q = (h.emit (.cpu (canQueue c q) (bytesOf e.2))).onCan c (fun x => x.setLock q true) := by
  unfold Hw.rxLook
  rw [held]

/-- The head of a receive queue is taken. -/
theorem Hw.rxPop_head {h : Hw} {c q : Nat} {e : Nat × List Nat} {es : List (Nat × List Nat)} (held : (h.can c).rx q = e :: es) :
    h.rxPop c q = (some e.2, h.onCan c (fun x => (x.setRx q es).setLock q false)) := by
  unfold Hw.rxPop
  rw [held]

/-- An empty receive queue gives nothing. -/
theorem Hw.rx_empty {h : Hw} {c q : Nat} (none_ : (h.can c).rx q = []) : h.rxLook c q = h ∧ h.rxPop c q = (none, h) := by
  unfold Hw.rxLook Hw.rxPop
  rw [none_]
  exact ⟨rfl, rfl⟩

/-- The head of a direct receive queue is looked at: it stays and is locked. -/
theorem canRxqPop_look {s : State} {c q : Nat} (next : Bool) (port : c < 48) (rx : q < 2)
    (direct : s.hw.flag (Reg.CAN_CFG c) (if q = 0 then Fld.CAN_CFG_RXQ0_DIRECT else Fld.CAN_CFG_RXQ1_DIRECT) = true)
    {e : Nat × List Nat} {es : List (Nat × List Nat)} (held : (s.hw.can c).rx q = e :: es) :
    exec (.canRxqPop c q (true, next)) s =
      .next (s.on ((s.hw.emit (.cpu (canQueue c q) (bytesOf e.2))).onCan c (fun x => x.setLock q true))) :=
  canRxqPop_of true next port rx direct ((if_pos rfl).trans (Hw.rxLook_head held))

/-- The head of a direct receive queue is taken. -/
theorem canRxqPop_take {s : State} {c q : Nat} (next : Bool) (port : c < 48) (rx : q < 2)
    (direct : s.hw.flag (Reg.CAN_CFG c) (if q = 0 then Fld.CAN_CFG_RXQ0_DIRECT else Fld.CAN_CFG_RXQ1_DIRECT) = true)
    {e : Nat × List Nat} {es : List (Nat × List Nat)} (held : (s.hw.can c).rx q = e :: es) :
    exec (.canRxqPop c q (false, next)) s = .next (s.on (
      ((s.hw.onCan c (fun x => (x.setRx q es).setLock q false)).emit (.cpu (canQueue c q) (bytesOf e.2))).onCan c
        (fun x => x.setLock q (next && !(x.rx q).isEmpty)))) := by
  refine canRxqPop_of false next port rx direct ((if_neg Bool.false_ne_true).trans ?_)
  rw [Hw.rxPop_head held]

/-- Where a CPU finds nothing, or may not look, nothing is read. -/
theorem canRxqPop_nothing {s : State} {c q : Nat} (rd nx : Bool)
    (gone : 48 ≤ c ∨ (q = 3 ∧ (s.hw.can c).conf = []) ∨ (q = 4 ∧ (s.hw.can c).errq = []) ∨ (2 ≤ q ∧ q ≠ 3 ∧ q ≠ 4) ∨
      (q < 2 ∧ (s.hw.flag (Reg.CAN_CFG c) (if q = 0 then Fld.CAN_CFG_RXQ0_DIRECT else Fld.CAN_CFG_RXQ1_DIRECT) = false ∨ (s.hw.can c).rx q = []))) :
    exec (.canRxqPop c q (rd, nx)) s = .next s := by
  rw [exec_canRxqPop, execCanRxqPop]
  refine stays rfl ?_
  by_cases port : 48 ≤ c
  · exact if_pos port
  refine (if_neg port).trans ?_
  obtain far | ⟨rfl, none_⟩ | ⟨rfl, none_⟩ | ⟨two, three, four⟩ | ⟨rx, closed⟩ := gone
  · exact absurd far port
  · refine (if_pos rfl).trans ?_
    rw [none_]
  · refine (if_neg (by decide)).trans ((if_pos rfl).trans ?_)
    rw [none_]
  · exact (if_neg three).trans ((if_neg four).trans (if_pos (Or.inl two)))
  · refine (if_neg (by omega)).trans ((if_neg (by omega)).trans ?_)
    obtain indirect | none_ := closed
    · exact if_pos (.inr indirect)
    · rw [(Hw.rx_empty none_).1, (Hw.rx_empty none_).2, ite_self]
      exact ite_self _

/-! ### Fault confinement -/

/-- With both counters 0 a controller is error active. -/
theorem Hw.canErr_setErr_zero (h : Hw) (c : Nat) : (h.setErr c 0 0).canErr c = 0 := by
  unfold Hw.canErr Hw.setErr
  exact Hw.fld_setFld_same _ _ _ _ (by decide) (by decide)

/-- A status register of a controller is no register of an event queue. -/
theorem canStatus_ne_evq (c o : Nat) (port : c < 48) (one : o = 1) : Reg.CAN_STATUS c ≠ Reg.EVQ_LOST o ∧ Reg.CAN_STATUS c ≠ Reg.EVQ_STATUS o := by
  subst one
  unfold Reg.CAN_STATUS Reg.EVQ_LOST Reg.EVQ_STATUS
  omega

/-- A change of a controller's queues leaves the error states. -/
theorem Hw.canErr_onCan (h : Hw) (c d : Nat) (f : CanC → CanC) : (h.onCan c f).canErr d = h.canErr d := rfl

/-- A record leaves the error states. -/
theorem Hw.canErr_post (h : Hw) {c : Nat} (k : Nat) (w : Nat) (port : c < 48) : (h.post 1 k w).canErr c = h.canErr c := by
  obtain ⟨lost, status⟩ := canStatus_ne_evq c 1 port rfl
  rw [Hw.canErr, Hw.fld, Hw.rn_post _ _ _ _ _ _ _ _ _ lost status, ← Hw.fld, ← Hw.canErr]

/-- Settles O30: for each command the branches of its row, one clause a branch. -/
theorem canControllersReceiveAndCountErrors : Obligations.CanControllersReceiveAndCountErrors := by
  unfold Obligations.CanControllersReceiveAndCountErrors
  refine ⟨?_, ?_, ?_, ?_, ?_, ?_, ?_, ?_, ?_, ?_, ?_, ?_, ?_, ?_, ?_, ?_⟩
  · intro s c port enabled ready alone
    obtain ⟨sync, pex, mode⟩ := s.hw.integrated_shows c
    refine ⟨s.on (s.hw.integrated c), goes_on (exec_canIntegrate c s) (if_pos ?_), sync, pex, mode, fun r other => Hw.rn_integrated_ne _ _ other, rfl⟩
    simp [port, enabled, ready, alone]
  · intro s c waits
    refine stays (exec_canIntegrate c s) (if_neg ?_)
    simp only [Bool.and_eq_true, decide_eq_true_eq, Bool.not_eq_true', and_assoc]
    rintro ⟨port, enabled, ready, alone⟩
    obtain far | off | unready | sync := waits
    · omega
    · simp [enabled] at off
    · simp [ready] at unready
    · simp [alone] at sync
  · intro s c fmt w0 w1 w2 age d on_ mode fd xl
    rw [canFrameReceive_heard fmt w0 w1 w2 age d on_ mode, if_neg ?_]
    · rfl
    · rintro (⟨one, off⟩ | ⟨two, off⟩)
      · exact fd one off
      · exact xl two off
  · intro s c w0 w1 w2 age i d on_ mode rejected
    rw [canFrameReceive_heard 0 w0 w1 w2 age d on_ mode, if_neg (by simp)]
    exact congrArg (fun x => Host.Outcome.next (s.on x)) (Hw.canAccept_rejected w2 age d rejected)
  · intro s c fmt w0 w1 w2 age d on_ mode off
    rw [canFrameReceive_heard fmt w0 w1 w2 age d on_ mode, if_pos off]
    rfl
  · intro s c fmt w0 w1 w2 age d deaf
    exact canFrameReceive_deaf fmt w0 w1 w2 age d deaf
  · intro s c ty age tx sev v
    rw [exec_canError, execCanError]
    refine goes_on rfl ?_
    simp only [Bool.and_eq_true, decide_eq_true_eq, Bool.or_eq_true, Bool.not_eq_true', and_assoc, or_assoc, Option.isSome_iff_ne_none]
  · intro s c q nx e es port rx direct held
    refine ⟨_, canRxqPop_look nx port rx direct held, ?_, ?_, rfl, rfl⟩
    · rw [State.on_hw, Hw.can_onCan_same, CanC.rx_setLock]
      exact held
    · rw [State.on_hw, Hw.can_onCan_same, CanC.lock_setLock]
  · intro s c q nx e es port rx direct held
    refine ⟨_, canRxqPop_take nx port rx direct held, ?_, ?_, rfl, rfl⟩
    · rw [State.on_hw, Hw.can_onCan_same, CanC.rx_setLock, Hw.can_emit, Hw.can_onCan_same, CanC.rx_setLock, CanC.rx_setRx]
    · rw [State.on_hw, Hw.can_onCan_same, CanC.lock_setLock, Hw.can_emit, Hw.can_onCan_same, CanC.rx_setLock, CanC.rx_setRx]
  · intro s c rd nx r rs port held
    rw [exec_canRxqPop, execCanRxqPop]
    refine goes_on rfl ((if_neg (by omega)).trans ((if_pos rfl).trans ?_))
    rw [held]
  · intro s c rd nx r rs port held
    rw [exec_canRxqPop, execCanRxqPop]
    refine goes_on rfl ((if_neg (by omega)).trans ((if_neg (by decide)).trans ((if_pos rfl).trans ?_)))
    rw [held]
  · intro s c q rd nx gone
    exact canRxqPop_nothing rd nx gone
  · intro s c port busOff may
    refine ⟨_, goes_on (exec_canBusRecover c s) (if_pos ?_), ?_, rfl⟩
    · simpa [port, busOff] using may
    · rw [State.on_hw, Hw.canErr_post _ _ _ port, Hw.canErr_onCan, Hw.canErr_setErr_zero]
  · intro s c waits
    refine stays (exec_canBusRecover c s) (if_neg ?_)
    simp only [Bool.and_eq_true, decide_eq_true_eq, beq_iff_eq, Bool.or_eq_true, and_assoc]
    rintro ⟨port, busOff, may⟩
    obtain far | other | ⟨auto, asked⟩ := waits
    · omega
    · exact other busOff
    · simp [auto, asked] at may
  · intro s c
    refine goes_on (exec_canModeApply c s) ?_
    simp only [Bool.and_eq_true, decide_eq_true_eq, Option.isNone_iff_eq_none, and_assoc]
  · intro s c
    refine goes_on (exec_canFilterApply c s) ?_
    simp only [Option.isSome_iff_ne_none]

end Sys2Proof.Machine
end

section
/-!
PROOFS of 07_can_and_lin.md: CAN controllers queue, offer, send and schedule (R213, R221 to R227).
-/
namespace Sys2Proof.Machine
/-! ### Sending -/

/-- A request that fits enters the event queue behind the others. -/
theorem Hw.canRequest_queued {h : Hw} {c : Nat} {m : List Nat} (format : h.canFormat c (recKind m) = true) (room : (h.can c).txq.length < 32) :
    h.canRequest c m = (true, h.onCan c (fun x => { x with txq := x.txq ++ [⟨m, h.clk, none, 0, false⟩] })) := by
  refine (if_neg (by simp [format])).trans (if_neg ?_)
  exact Nat.not_le.mpr room

/-- A full event queue refuses and counts. -/
theorem Hw.canRequest_full {h : Hw} {c : Nat} {m : List Nat} (format : h.canFormat c (recKind m) = true) (full : 32 ≤ (h.can c).txq.length) :
    h.canRequest c m = (false, h.inc (Reg.CAN_TXQ_FULL c)) :=
  (if_neg (by simp [format])).trans (if_pos full)

/-- A format that the controller takes no part in is refused. -/
theorem Hw.canRequest_format {h : Hw} {c : Nat} {m : List Nat} (format : h.canFormat c (recKind m) = false) :
    h.canRequest c m = (false, h) :=
  if_pos (by simp [format])

/-- What a transmit request does where the controller is powered. -/
theorem canTxRequest_of {s : State} {c : Nat} {m : List Nat} (port : c < 48) (power : s.hw.pg (37 + c / 8) = true) (kind : recKind m < 3)
    {b : Bool} {x : Hw} (answer : s.hw.canRequest c m = (b, x)) : exec (.canTxRequest c m) s = .next (s.on x) :=
  goes_on (exec_canTxRequest c m s) ((if_pos (by simp [port, power, kind])).trans (congrArg Prod.snd answer))

/-- A sent frame out of its queue or slot, the bus free and the transmission counted. -/
def Hw.sentFrame (h : Hw) (c : Nat) (r : CanReq) (v : Nat) : Hw :=
  let h := h.onCan c (fun x => { x with
    sending := none, txq := if r.slot.isNone then dropReq r x.txq else x.txq, live := x.live.filter (fun l => r.slot.isNone || l.slot != r.slot) })
  let h := ((h.setFld (Reg.CAN_STATUS c) Fld.CAN_STATUS_TX_BUSY 0).inc (Reg.CAN_TX_OK c)).measureTdc c (recKind r.msg) v
  h.setErr c (h.fld (Reg.CAN_ERR c) Fld.CAN_ERR_TEC - 1) (h.fld (Reg.CAN_ERR c) Fld.CAN_ERR_REC)

/-- The confirmation of a sent frame, queued. -/
def Hw.confirm (h : Hw) (c age : Nat) (msg : List Nat) : Hw :=
  h.onCan c (fun y => { y with conf := y.conf ++ [(h.clk, h.record (h.canCfg c Fld.CAN_CFG_TB) age false
    (recWord0 5 c (msg.getD 0 0) (recData 3 msg).length) (recIdent msg) 0 (recData 3 msg))] })

/-- A frame of a controller that is its own receiver, or on the bus. -/
def Hw.putOut (h : Hw) (c age : Nat) (msg : List Nat) : Hw :=
  if h.canMode c = 2 then h.canAccept c (recKind msg) (msg.getD 0 0) (msg.getD 1 0) (msg.getD 2 0) (recData 3 msg) age
  else (h.selfClaim c msg).emit (.canTx c (msg.take 3) (recData 3 msg) (h.fastMode c (recKind msg)) (h.sampleAt c (recKind msg)))

/-- A frame whose transmission ends well. -/
theorem canTxComplete_sent {s : State} {c : Nat} {r : CanReq} (age v : Nat) (on_ : (s.hw.can c).sending = some r) :
    exec (.canTxComplete c age v) s = .next (s.on (Hw.putOut (
      let d := s.hw.sentFrame c r v
      if d.flag (Reg.CAN_CFG c) Fld.CAN_CFG_TXCONF_EN && !decide (Config.queueMore (canQueue c 3) < (d.can c).conf.length)
      then d.confirm c age r.msg else d) c age r.msg)) := by
  refine goes_on (exec_canTxComplete c age v s) ?_
  dsimp only
  rw [on_]
  rfl

/-- A register field leaves the controllers' queues. -/
theorem Hw.can_setFld (h : Hw) (r v : Nat) (f : Field) (c : Nat) : (h.setFld r f v).can c = h.can c := rfl

/-- A change of a controller's queues leaves the registers. -/
theorem Hw.rn_onCan (h : Hw) (c : Nat) (f : CanC → CanC) (r : Nat) : (h.onCan c f).rn r = h.rn r := rfl

/-- A frame kept by its queue after lost arbitration. -/
theorem Hw.canUnsent_queued {h : Hw} {c : Nat} {r : CanReq} (sent : (h.can c).sending = some r) (queued : r.slot = none) :
    h.canUnsent c = (h.onCan c (fun x => { x with sending := none })).setFld (Reg.CAN_STATUS c) Fld.CAN_STATUS_TX_BUSY 0 := by
  unfold Hw.canUnsent
  rw [sent]
  dsimp only
  rw [queued]

/-- A controller that loses arbitration with a frame on the bus. -/
theorem canTxArbLost_sending {s : State} {c : Nat} {r : CanReq} (port : c < 48) (sent : (s.hw.can c).sending = some r) :
    exec (.canTxArbLost c) s = .next (s.on ((s.hw.inc (Reg.CAN_TX_ARB_LOST c)).canUnsent c)) :=
  goes_on (exec_canTxArbLost c s) (if_pos (by simp [port, sent]))

/-- The offer at bus idle. -/
theorem canBusIdleOffer_idle {s : State} {c : Nat} (on_ : s.hw.canOn c = true) (mode : s.hw.canMode c ≠ 1) (idle : (s.hw.can c).sending = none)
    {o : Option CanReq} {x y : Hw} (offer : (s.hw.onCan c (fun x => { x with erring := false })).offerFresh c 33 = (o, x))
    (effect : (match o with
      | none => x
      | some r => (x.onCan c (fun y => { y with
          sending := some r,
          live := y.live.map (fun l => if r.slot.isSome && l.slot == r.slot then { l with tried := true } else l) })).setFld
          (Reg.CAN_STATUS c) Fld.CAN_STATUS_TX_BUSY 1) = y) : exec (.canBusIdleOffer c) s = .next (s.on y) := by
  refine goes_on (exec_canBusIdleOffer c s) ((if_neg (by simp [on_, mode, idle])).trans ?_)
  rw [offer]
  rw [← effect]
  cases o <;> rfl

/-! ### Schedules -/

/-- A running schedule is one of a controller there is. -/
theorem Hw.schedOn_lt {h : Hw} {c : Nat} (on_ : h.schedOn c = true) : c < 48 := by
  simp only [Hw.schedOn, Bool.and_eq_true, decide_eq_true_eq] at on_
  exact on_.1

/-- What the start of a slot does in a basic cycle, once its START has come. -/
theorem canSchedSlotStart_due {s : State} {c slot k st : Nat} (on_ : s.hw.schedOn c = true) (slots : slot < 64)
    (valid : (s.hw.rn (Reg.CAN_SCHED_SLOT c slot)).testBit 31 = true) (cycle : (s.hw.can c).cycle = some (k, st)) {x : Hw}
    (effect : (if s.hw.schedRun c < st + s.hw.rn (Reg.CAN_SCHED_SLOT c slot) % 2 ^ 30 then s.hw
      else
        let h := s.hw.setFld (Reg.CAN_SCHED_NOW c) Fld.CAN_SCHED_NOW_SLOT slot
        match (h.cellOf c k slot).bind (h.bufferNow c) with
        | none => h
        | some m => if h.canMode c = 1 then h.inc (Reg.CAN_SCHED_SKIP c)
          else h.slotJoin c slot (st + s.hw.rn (Reg.CAN_SCHED_SLOT c slot) % 2 ^ 30 + h.rn (Reg.CAN_SCHED_WIN c slot) % 2 ^ 30) m) = x) :
    exec (.canSchedSlotStart c slot) s = .next (s.on x) := by
  refine goes_on (exec_canSchedSlotStart c slot s) ((if_neg ?_).trans ?_)
  · rw [on_, valid]
    simp [slots]
  · rw [cycle]
    exact effect

/-- A window that ends. -/
theorem canSchedWindowEnd_open {s : State} {c slot : Nat} (port : c < 48)
    (open_ : (s.hw.can c).live.any (fun l => l.slot == some slot && decide (l.until_ ≤ s.hw.schedRun c)) = true) :
    exec (.canSchedWindowEnd c slot) s = .next (s.on (
      let h := s.hw.onCan c (fun x => { x with live := x.live.filter (fun l => l.slot != some slot) })
      if (match (s.hw.can c).sending with | some r => r.slot == some slot | none => false) then h else h.schedMiss c slot)) := by
  refine goes_on (exec_canSchedWindowEnd c slot s) ((if_pos (by rw [open_]; simp [port])).trans ?_)
  dsimp only
  rw [Hw.can_onCan_same] <;> rfl

/-- Settles O31: for each command the branches of its row, one clause a branch. -/
theorem canControllersSend : Obligations.CanControllersSend := by
  unfold Obligations.CanControllersSend
  refine ⟨?_, ?_, ?_, ?_, ?_, ?_, ?_, ?_, ?_, ?_, ?_, ?_, ?_, ?_, ?_, ?_, ?_, ?_⟩
  · intro s c m port power kind format room
    refine ⟨_, canTxRequest_of port power kind (Hw.canRequest_queued format room), ?_, ?_, rfl⟩
    · rw [State.on_hw, Hw.can_onCan_same]
    · intro d other
      rw [State.on_hw, Hw.can_onCan_ne _ _ other]
  · intro s c m port power kind format full
    exact canTxRequest_of port power kind (Hw.canRequest_full format full)
  · intro s c m refused
    by_cases reached : c < 48 ∧ s.hw.pg (37 + c / 8) = true ∧ recKind m < 3
    · obtain ⟨port, power, kind⟩ := reached
      obtain far | off | noKind | format := refused
      · omega
      · simp [power] at off
      · omega
      · exact canTxRequest_of port power kind (Hw.canRequest_format format)
    · refine stays (exec_canTxRequest c m s) (if_neg ?_)
      simpa [and_assoc] using reached
  · intro s c r x on_ mode idle offer
    exact canBusIdleOffer_idle on_ mode idle offer rfl
  · intro s c x on_ mode idle offer
    exact canBusIdleOffer_idle on_ mode idle offer rfl
  · intro s c waits
    refine stays (exec_canBusIdleOffer c s) (if_pos ?_)
    obtain off | listen | sending := waits
    · simp [off]
    · simp [listen]
    · simp [Option.isSome_iff_ne_none.mpr sending]
  · intro s c r port sent queued
    have same : (s.hw.inc (Reg.CAN_TX_ARB_LOST c)).can c = s.hw.can c := rfl
    refine ⟨_, canTxArbLost_sending port sent, ?_, ?_, ?_, ?_⟩
    all_goals rw [State.on_hw, Hw.canUnsent_queued (same ▸ sent) queued]
    · rw [Hw.can_setFld, Hw.can_onCan_same]
    · rw [Hw.can_setFld, Hw.can_onCan_same, same]
    · have apart : Reg.CAN_TX_ARB_LOST c ≠ Reg.CAN_STATUS c := by unfold Reg.CAN_TX_ARB_LOST Reg.CAN_STATUS; omega
      rw [Hw.rn_setFld_ne _ _ _ apart, Hw.rn_onCan, Hw.rn_inc_same]
    · exact Hw.fld_setFld_same _ _ _ _ (by decide) (by decide)
  · intro s c
    refine goes_on (exec_canTxArbLost c s) ?_
    simp only [Bool.and_eq_true, decide_eq_true_eq, Option.isSome_iff_ne_none]
  · intro s c age v r sent
    dsimp only
    rw [canTxComplete_sent age v sent]
    simp only [Bool.and_eq_true, Bool.not_eq_true', decide_eq_false_iff_not, not_lt]
    rfl
  · intro s c age v idle
    refine stays (exec_canTxComplete c age v s) ?_
    dsimp only
    rw [idle]
  · intro s c k t on_ steady next
    refine goes_on (exec_canSchedCycleStart c s) ((if_neg (by simp [on_, steady])).trans ?_)
    rw [next]
  · intro s c waits
    refine stays (exec_canSchedCycleStart c s) ?_
    obtain off | stepped | none_ := waits
    · exact if_pos (by simp [off])
    · exact if_pos (by simp [stepped])
    · rw [none_]
      exact ite_self _
  · intro s c slot k st on_ slots valid cycle due
    exact canSchedSlotStart_due on_ slots valid cycle (if_neg (Nat.not_lt.mpr due))
  · intro s c slot waits
    by_cases there : s.hw.schedOn c = true ∧ slot < 64 ∧ (s.hw.rn (Reg.CAN_SCHED_SLOT c slot)).testBit 31 = true
    · obtain ⟨on_, slots, valid⟩ := there
      obtain off | far | invalid | none_ | ⟨k, st, cycle, early⟩ := waits
      · simp [on_] at off
      · omega
      · simp [valid] at invalid
      · refine stays (exec_canSchedSlotStart c slot s) ?_
        dsimp only
        rw [none_]
        exact ite_self _
      · exact canSchedSlotStart_due on_ slots valid cycle (if_pos early)
    · refine stays (exec_canSchedSlotStart c slot s) (if_pos ?_)
      by_contra reached
      refine there ?_
      simpa [and_assoc, and_comm, and_left_comm] using reached
  · intro s c slot port open_ idle
    rw [canSchedWindowEnd_open port open_, idle]
    rfl
  · intro s c slot r port open_ sending
    rw [canSchedWindowEnd_open port open_, sending]
    simp only [beq_iff_eq]
  · intro s c slot closed
    refine stays (exec_canSchedWindowEnd c slot s) (if_neg ?_)
    obtain far | shut := closed
    · simp [Nat.not_lt.mpr far]
    · rw [shut]
      simp
  · intro s c
    refine goes_on (exec_canSchedRestart c s) ?_
    simp only [Bool.and_eq_true, and_assoc]

end Sys2Proof.Machine
end

section
/-!
PROOFS of 07_can_and_lin.md: LIN controllers, and the wake detectors of CAN and LIN (R228 to R235).
-/
namespace Sys2Proof.Machine

/-- When the next entry of a schedule starts. -/
theorem linEntry_due (on_ responder run due : Bool) : ¬ (!on_ || responder || !run || !due) = true ↔
    on_ = true ∧ responder = false ∧ run = true ∧ due = true := by
  simp [and_assoc]

/-! ### LIN responses -/

/-- A counter leaves the LIN controllers. -/
theorem Hw.lin_inc (h : Hw) (r l : Nat) : (h.inc r).lin l = h.lin l := rfl

/-- A change of a LIN controller leaves the registers. -/
theorem Hw.rn_onLin (h : Hw) (l : Nat) (f : LinC → LinC) (r : Nat) : (h.onLin l f).rn r = h.rn r := rfl

/-- A response of the controller's own read back: a bit error, or the frame counts and its updated mark is cleared. -/
theorem linResponseReceive_own {s : State} {l id : Nat} (csum : Nat) (d : List Byte) (fr be_ : Bool) (on_ : s.hw.linOn l = true)
    (own : (s.hw.lin l).sent = some id) :
    exec (.linResponseReceive l d csum fr be_) s = .next (s.on (
      let h := s.hw.onLin l (fun x => { x with sent := none })
      if be_ then h.linBad l 1 else (h.inc (Reg.LIN_FRAMES_OK l)).onLin l (fun x => { x with
        pub := match kvGet x.pub id with | some p => kvPut x.pub id (p.1, false) | none => x.pub }))) := by
  refine goes_on (exec_linResponseReceive l d csum fr be_ s) ((if_neg (by simp [on_])).trans ?_)
  rw [own] <;> rfl

/-- A response awaited from another node: a framing error, a checksum error, or a good response. -/
theorem linResponseReceive_awaited {s : State} {l id : Nat} (csum : Nat) (d : List Byte) (fr be_ : Bool) (on_ : s.hw.linOn l = true)
    (foreign : (s.hw.lin l).sent = none) (awaited : (s.hw.lin l).await = some id) :
    exec (.linResponseReceive l d csum fr be_) s = .next (s.on (
      let h := s.hw.onLin l (fun x => { x with await := none })
      if fr then h.linBad l 3 else if linSum (s.hw.linEnhanced l id) (linPid id) d ≠ csum then h.linBad l 2 else h.linGood l id csum d)) := by
  refine goes_on (exec_linResponseReceive l d csum fr be_ s) ((if_neg (by simp [on_])).trans ?_)
  rw [foreign, awaited]
  dsimp only
  simp only [bne_iff_ne]
  rfl

/-! ### Wake detectors -/

/-- Eight bytes are two words. -/
theorem wordsOf_two {l : List Byte} (len : l.length = 8) : wordsOf 2 l = [(wordsOf 2 l).getD 0 0, (wordsOf 2 l).getD 1 0] := by
  obtain ⟨a0, a1, a2, a3, a4, a5, a6, a7, rfl⟩ : ∃ a0 a1 a2 a3 a4 a5 a6 a7, l = [a0, a1, a2, a3, a4, a5, a6, a7] := by
    match l, len with
    | [a0, a1, a2, a3, a4, a5, a6, a7], _ => exact ⟨a0, a1, a2, a3, a4, a5, a6, a7, rfl⟩
  rfl

/-- The five words that a match latches, one after the other. -/
theorem Hw.wn_five (h : Hw) (w a0 a1 a2 a3 a4 : Nat) :
    ([a0, a1, a2, a3, a4].mapIdx (fun i x => (i, x))).foldl (fun (a : Hw) p => a.wn (Reg.CANW_LAST w p.1) p.2) h =
      ((((h.wn (Reg.CANW_LAST w 0) a0).wn (Reg.CANW_LAST w 1) a1).wn (Reg.CANW_LAST w 2) a2).wn (Reg.CANW_LAST w 3) a3).wn (Reg.CANW_LAST w 4) a4 := rfl

/-- Settles O32: for each command the branches of its row, one clause a branch. -/
theorem linControllersAndWakeDetectors : Obligations.LinControllersAndWakeDetectors := by
  unfold Obligations.LinControllersAndWakeDetectors
  refine ⟨?_, ?_, ⟨by decide, by decide, by decide⟩, ?_, ?_, ?_, ?_, ?_, ?_, ?_, ?_, ?_, ?_, ?_, ?_, ?_, ?_⟩
  · intro s l
    refine goes_on (exec_linSchedEntry l s) ?_
    by_cases due : s.hw.linOn l = true ∧ s.hw.linResponder l = false ∧ s.hw.flag (Reg.LIN_SCHED_CTRL l) Fld.LIN_SCHED_CTRL_RUN = true ∧
        s.hw.linDue l = true
    · rw [if_pos due]
      exact if_neg ((linEntry_due _ _ _ _).mpr due)
    · rw [if_neg due]
      exact if_pos (not_not.mp (mt (linEntry_due _ _ _ _).mp due))
  · intro s l pid ok stop
    refine goes_on (exec_linHeaderReceive l pid ok stop s) ?_
    simp only [Bool.or_eq_true, Bool.not_eq_true', bne_iff_ne]
  · intro s l id csum d fr be_ on_ foreign awaited
    exact linResponseReceive_awaited csum d fr be_ on_ foreign awaited
  · intro s l id csum d p u fr on_ own held
    refine ⟨_, linResponseReceive_own csum d fr false on_ own, ?_, ?_, ?_⟩
    · rw [if_neg Bool.false_ne_true, State.on_hw, Hw.pubUpdated, Hw.lin_onLin_same]
      dsimp only
      rw [Hw.lin_inc, Hw.lin_onLin_same, held]
      exact congrArg Prod.snd (kvGetD_kvPut_same _ _ _ _)
    · rw [if_neg Bool.false_ne_true, State.on_hw, Hw.rn_onLin, Hw.rn_inc_same]
      rfl
    · rw [if_neg Bool.false_ne_true, State.on_hw, Hw.lin_onLin_same, Hw.lin_inc, Hw.lin_onLin_same]
  · intro s l id csum d fr be_ on_ own
    exact linResponseReceive_own csum d fr be_ on_ own
  · intro s l csum d fr be_ waits
    refine stays (exec_linResponseReceive l d csum fr be_ s) ?_
    obtain off | ⟨foreign, none_⟩ := waits
    · exact if_pos (by simp [off])
    · rw [foreign, none_]
      exact ite_self _
  · intro s l got id awaited
    refine goes_on (exec_linResponseTimeout l got s) ?_
    rw [awaited]
    dsimp only
    by_cases subscribed : s.hw.fld (Reg.LIN_FRAME l id) Fld.LIN_FRAME_ACTION = 1
    · rw [if_pos subscribed, if_neg (by simp [subscribed])]
      split <;> rfl
    · rw [if_neg subscribed, if_pos (by simp [subscribed])]
  · intro s l got none_
    refine stays (exec_linResponseTimeout l got s) ?_
    rw [none_]
  · intro s l
    exact exec_linBusIdle l s
  · intro s l
    exact exec_linWakeSignalEnd l s
  · intro s l
    refine goes_on (exec_linWakeDetect l s) ?_
    simp only [Bool.not_eq_true']
  · intro s w id dlc ide d on_ h miss
    refine goes_on (exec_canwMatch w id ide dlc d s) ((if_neg (by simp [on_])).trans ?_)
    exact if_neg (by rw [miss]; decide)
  · intro s w id dlc ide d on_ h hit ws x
    refine goes_on (exec_canwMatch w id ide dlc d s) ((if_neg (by simp [on_])).trans ((if_pos hit).trans ?_))
    have two : wordsOf 2 ((d.take (min dlc 8) ++ List.replicate 8 0).take 8) = [ws.getD 0 0, ws.getD 1 0] := wordsOf_two (by simp)
    dsimp only
    rw [two]
    exact congrArg (fun y : Hw => (y.setFld (Reg.CANW_STATUS w) Fld.CANW_STATUS_MATCHED 1).wakeDetect w) (h.wn_five w _ _ _ _ _)
  · intro s w id dlc ide fd d off
    exact ⟨stays (exec_canwMatch w id ide dlc d s) (if_pos (by simp [off])), stays (exec_canwDecodeError w fd s) (if_pos (by simp [off]))⟩
  · intro s w fd on_ active
    refine goes_on (exec_canwDecodeError w fd s) ((if_neg ?_).trans ?_)
    · obtain rfl | active := active
      · simp [on_]
      · simp [on_, active]
    · have apart : Reg.CANW_CFG w ≠ Reg.CANW_STATUS w := by unfold Reg.CANW_CFG Reg.CANW_STATUS; omega
      dsimp only
      rw [Hw.flag_setFld_ne _ _ _ _ apart, Hw.flag_setFld_ne _ _ _ _ apart]
  · intro s w passive
    exact stays (exec_canwDecodeError w true s) (if_pos (by simp [passive]))

end Sys2Proof.Machine
end

section
/-!
PROOFS of 08_bus_gateway.md: the fieldbus bridge (R246, R256, R257, R261, R263 to R265).
-/
namespace Sys2Proof.Machine

/-- A source that is next has a message at its head. -/
theorem Hw.brgHead_of_brgNext {h : Hw} {b : Bool} {c : Nat} (next : h.brgNext b = some c) : (h.brgHead b c).isSome = true :=
  List.find?_some (p := fun s => (h.brgHead b s).isSome) next

/-- A dispatch slot of a bridge that is ready and enabled. -/
theorem bridgeDispatchSlot_of {s : State} (ready : s.hw.flag Reg.BRG_STATUS Fld.BRG_STATUS_READY = true)
    (enabled : s.hw.flag Reg.BRG_CFG Fld.BRG_CFG_EN = true) {x : Hw}
    (effect : (match s.hw.brgNext true with
      | some c => match s.hw.brgHead true c with
        | none => s.hw
        | some e =>
          let w := (s.hw.clk - e.1) * 2
          let h := if s.hw.rn Reg.BRG_HIGH_WAIT_MAX < w then s.hw.wn Reg.BRG_HIGH_WAIT_MAX (min w 0xFFFFFFFF) else s.hw
          ((h.brgTake true c).onBrg (fun b => { b with hi := (c + 1) % 48 })).dispatch c e.2
      | none => match s.hw.brgNext false with
        | none => s.hw
        | some c => match s.hw.brgHead false c with
          | none => s.hw
          | some e => ((s.hw.brgTake false c).onBrg (fun b => { b with lo := (c + 1) % 96 })).dispatch c e.2) = x) :
    exec .bridgeDispatchSlot s = .next (s.on x) := by
  refine goes_on (exec_bridgeDispatchSlot s) ((if_neg (by simp [ready, enabled])).trans ?_)
  rw [← effect] <;> rfl

/-- Two changes that do the same to the bridge as it stands. -/
theorem Hw.onBrg_congr {h : Hw} {f g : Brg → Brg} (same : f h.brg = g h.brg) : h.onBrg f = h.onBrg g :=
  congrArg (fun b => { h with brg := b }) same

/-- A mapping that is late and whose buffer is there. -/
theorem signalTimeout_late {s : State} {k : Nat} {m : SigMap} (there : kvGet s.hw.brg.maps k = some m) (late : s.hw.mapLate m = true) :
    exec (.signalTimeout k) s = .next (s.on (((s.hw.onBrg (fun b => { b with
      maps := kvPut b.maps k { m with out := true },
      bufs := match kvGet b.bufs m.buf with
        | some x => kvPut b.bufs m.buf { x with data := (sigBits m.dst m.len m.dstBe).foldl (fun a p => setBitAt a p true) x.data }
        | none => b.bufs })).inc Reg.BRG_SIG_TIMEOUT).postMod 0x0804 k)) := by
  refine goes_on (exec_signalTimeout k s) ?_
  rw [there]
  exact if_neg (by simp [late])

/-- Settles O33: for each command the branches of its row, one clause a branch. -/
theorem bridgeDispatchesAndComposes : Obligations.BridgeDispatchesAndComposes := by
  unfold Obligations.BridgeDispatchesAndComposes
  refine ⟨?_, ?_, fun h b c next => Hw.brgHead_of_brgNext next, ?_, ?_, ?_, ?_, ?_, ?_, ?_, ?_, by decide, ?_, ?_, ?_, ?_, ?_, ?_, ?_⟩
  · intro s c e ready enabled next head
    refine bridgeDispatchSlot_of ready enabled ?_
    rw [next]
    dsimp only
    rw [head]
  · intro s c e ready enabled noHigh next head
    refine bridgeDispatchSlot_of ready enabled ?_
    rw [noHigh, next]
    dsimp only
    rw [head]
  · intro s waits
    refine stays (exec_bridgeDispatchSlot s) ?_
    obtain unready | off | ⟨noHigh, noLow⟩ := waits
    · exact if_pos (by simp [unready])
    · exact if_pos (by simp [off])
    · rw [noHigh, noLow]
      exact ite_self _
  · intro s z ws l rest oldest
    refine goes_on (exec_signalMappingApply s) ?_
    rw [oldest] <;> rfl
  · intro s none_
    refine stays (exec_signalMappingApply s) ?_
    rw [none_]
  · intro s i b there
    refine goes_on (exec_signalPeriodicIssue i s) ?_
    rw [there]
  · intro s i none_
    refine stays (exec_signalPeriodicIssue i s) ?_
    rw [none_]
  · intro s k m b there late buffer
    refine (signalTimeout_late there late).trans
      (congrArg (fun x : Hw => Host.Outcome.next (s.on ((x.inc Reg.BRG_SIG_TIMEOUT).postMod 0x0804 k))) (Hw.onBrg_congr ?_))
    rw [buffer]
  · intro s k m there late none_
    refine (signalTimeout_late there late).trans
      (congrArg (fun x : Hw => Host.Outcome.next (s.on ((x.inc Reg.BRG_SIG_TIMEOUT).postMod 0x0804 k))) (Hw.onBrg_congr ?_))
    rw [none_]
  · intro s k early
    refine stays (exec_signalTimeout k s) ?_
    cases there : kvGet s.hw.brg.maps k with
    | none => rfl
    | some m =>
      rw [there] at early
      exact if_pos early
  · intro s src sa da x there
    refine goes_on (exec_j1939TpTimeout src sa da s) ?_
    rw [there]
    rfl
  · intro s src sa da none_
    refine stays (exec_j1939TpTimeout src sa da s) ?_
    rw [none_]
  · intro s t
    exact exec_acfBatchTimeout t s
  · intro s t b there due
    refine goes_on (exec_acfBatchTimeout t s) (if_pos ?_)
    rw [Hw.acfDue, there]
    simpa using due
  · intro s none_
    refine stays (exec_acfInboundFrame s) ?_
    rw [none_]
  · intro s f there
    dsimp only
    intro unknown
    refine goes_on (exec_acfInboundFrame s) ?_
    rw [there]
    dsimp only
    rw [unknown]
  · intro s f r there
    dsimp only
    intro known
    refine goes_on (exec_acfInboundFrame s) ?_
    rw [there]
    dsimp only
    rw [known]

end Sys2Proof.Machine
end

section
/-!
PROOFS of 07_can_and_lin.md: Rill FIFOs (R237 to R242).
-/
namespace Sys2Proof.Machine

/-- A step's outcome, with its state written another way. -/
theorem next_of_same {r : Res} {s : State} {x y : Hw} (before : r = .next (s.on x)) (same : x = y) : r = .next (s.on y) := same ▸ before

/-! ### Rill FIFOs -/

/-- A change of one Rill FIFO, read back. -/
theorem Hw.rill_onRill_same (h : Hw) (f : Nat) (g : Rill → Rill) : (h.onRill f g).rill f = g (h.rill f) := by
  rw [Hw.onRill, Hw.rill, kvGetD_kvMod_same, ← Hw.rill]

/-- A change of a Rill FIFO leaves the registers. -/
theorem Hw.rn_onRill (h : Hw) (f : Nat) (g : Rill → Rill) (r : Nat) : (h.onRill f g).rn r = h.rn r := rfl

/-- An answer leaves the Rill FIFOs. -/
theorem Hw.rill_answer (h : Hw) (off en v f : Nat) : (h.answer off en v).rill f = h.rill f := rfl

/-- A counter leaves the Rill FIFOs. -/
theorem Hw.rill_inc (h : Hw) (r f : Nat) : (h.inc r).rill f = h.rill f := rfl

/-- The head word of a FIFO with a packet. -/
theorem Rill.headWord_of {r : Rill} {p : List Nat} {ps : List (List Nat)} (held : r.pkts = p :: ps) :
    r.headWord = some ((p.drop (16 * r.read)).take 16, decide (p.length ≤ 16 * r.read + 16), ((p.drop (16 * r.read)).take 16).length * 4) := by
  unfold Rill.headWord
  rw [held]

/-- Within a packet a pop brings the next word to the head. -/
theorem Rill.pop_within {r : Rill} {p : List Nat} {ps : List (List Nat)} (held : r.pkts = p :: ps) (more : 16 * r.read + 16 < p.length) :
    r.pop = { r with read := r.read + 1 } := by
  unfold Rill.pop
  rw [Rill.headWord_of held, decide_eq_false (Nat.not_le.mpr more)]

/-- With the last word of a packet the packet leaves. -/
theorem Rill.pop_last {r : Rill} {p : List Nat} {ps : List (List Nat)} (held : r.pkts = p :: ps) (last : p.length ≤ 16 * r.read + 16) :
    r.pop = { r with pkts := ps, read := 0 } := by
  unfold Rill.pop
  rw [Rill.headWord_of held, decide_eq_true last, held]
  rfl

/-- A read of the last dword of a window. -/
theorem rillWinPop_at {s : State} {fn off f : Nat} (en : Nat) (fifo : f < 64) (at_ : s.hw.hostReg fn off = some (0x1B9000 + 64 * f + 0x3C)) :
    exec (.rillWinPop fn off en) s = .next (s.on ((s.hw.answer off en (s.hw.rillItem f 15)).rillPop f)) := by
  refine goes_on (exec_rillWinPop fn off en s) ?_
  rw [at_]
  dsimp only
  have index : (0x1B9000 + 64 * f + 0x3C - 0x1B9000) / 64 = f := by omega
  rw [if_pos (by omega), index]

/-- Such a read of a direct FIFO with a packet answers the item and pops the head word. -/
theorem Hw.rillPop_answer {h : Hw} {f : Nat} {p : List Nat} {ps : List (List Nat)} (off en : Nat)
    (direct : h.flag (Reg.FBUS_RILL_CFG f) Fld.FBUS_RILL_CFG_DIRECT = true) (held : (h.rill f).pkts = p :: ps) :
    (h.answer off en (h.rillItem f 15)).rillPop f =
      let a := (h.answer off en (((p.drop (16 * (h.rill f).read)).take 16).getD 15 0x1D1E1D1E)).onRill f Rill.pop
      if p.length ≤ 16 * (h.rill f).read + 16 then a.inc (Reg.FBUS_RILL_PKTS f) else a := by
  have item : h.rillItem f 15 = ((p.drop (16 * (h.rill f).read)).take 16).getD 15 0x1D1E1D1E := by
    rw [Hw.rillItem, if_pos direct, Rill.headWord_of held]
  rw [item]
  refine (if_pos direct).trans ?_
  rw [Hw.rill_answer, Rill.headWord_of held]
  simp only [decide_eq_true_eq]

/-- Of a FIFO that is not direct, or has no packet, nothing is popped. -/
theorem Hw.rillPop_nothing {h : Hw} {f : Nat} (off en : Nat)
    (none_ : h.flag (Reg.FBUS_RILL_CFG f) Fld.FBUS_RILL_CFG_DIRECT = false ∨ (h.rill f).pkts = []) :
    (h.answer off en (h.rillItem f 15)).rillPop f = h.answer off en 0x1D1E1D1E := by
  obtain indirect | empty := none_
  · have item : h.rillItem f 15 = 0x1D1E1D1E := if_neg (by simp [indirect])
    rw [item]
    exact if_neg (by rw [show (h.answer off en 0x1D1E1D1E).flag _ _ = _ from indirect]; decide)
  · have head : (h.rill f).headWord = none := by
      unfold Rill.headWord
      rw [empty]
    have item : h.rillItem f 15 = 0x1D1E1D1E := by
      rw [Hw.rillItem, head]
      exact ite_self _
    rw [item, Hw.rillPop, Hw.rill_answer, head]
    exact ite_self _

/-- Settles O34: for each command the branches of its row, one clause a branch. -/
theorem rillFifosDeliverPackets : Obligations.RillFifosDeliverPackets := by
  unfold Obligations.RillFifosDeliverPackets
  refine ⟨?_, ?_, ?_, ?_, ?_, ?_, ?_, ?_, ?_, ?_⟩
  · intro s f q descs p ps indirect ring held idle
    refine goes_on (exec_rillDmaMove f descs s) ((if_neg (by simp [indirect])).trans ?_)
    rw [held, ring]
    exact if_pos (by simp [idle])
  · intro s f q descs left p ps x indirect ring held moving taken
    refine goes_on (exec_rillDmaMove f descs s) ((if_neg (by simp [indirect])).trans ?_)
    rw [held, ring]
    refine (if_neg (by simp [moving])).trans ?_
    rw [taken]
  · intro s f descs waits
    refine stays (exec_rillDmaMove f descs s) ?_
    obtain direct | noRing | empty | ⟨q, p, ps, held, ring, moving, refused⟩ := waits
    · exact if_pos direct
    · dsimp only
      rw [noRing]
      cases (s.hw.rill f).pkts <;> exact ite_self _
    · dsimp only
      rw [empty]
      exact ite_self _
    · dsimp only
      rw [held, ring]
      refine ite_shared id rfl ((if_neg (by simp [moving])).trans ?_)
      rw [refused]
  · intro s fn off en f p ps fifo at_ direct held more
    refine ⟨_, next_of_same (rillWinPop_at en fifo at_) ((Hw.rillPop_answer off en direct held).trans (if_neg (Nat.not_le.mpr more))),
      rfl, ?_, rfl⟩
    rw [State.on_hw, Hw.rill_onRill_same, Hw.rill_answer, Rill.pop_within held more]
  · intro s fn off en f p ps fifo at_ direct held last
    refine ⟨_, next_of_same (rillWinPop_at en fifo at_) ((Hw.rillPop_answer off en direct held).trans (if_pos last)), ?_, ?_, ?_⟩
    · rw [State.on_hw, Hw.rill_inc, Hw.rill_onRill_same, Hw.rill_answer, Rill.pop_last held last]
    · rw [State.on_hw, Hw.rill_inc, Hw.rill_onRill_same, Hw.rill_answer, Rill.pop_last held last]
    · rw [State.on_hw, Hw.rn_inc_same]
      rfl
  · intro s fn off en f fifo at_ none_
    rw [rillWinPop_at en fifo at_, Hw.rillPop_nothing off en none_]
  · intro s fn off en elsewhere
    refine stays (exec_rillWinPop fn off en s) ?_
    cases at_ : s.hw.hostReg fn off with
    | none => rfl
    | some r =>
      refine if_neg ?_
      rintro ⟨low, high, last⟩
      refine elsewhere ((r - 0x1B9000) / 64) (by omega) ?_
      rw [at_]
      congr 1
      omega
  · intro s f descs idle
    refine goes_on (exec_rillPointerMismatch f descs s) ?_
    dsimp only
    rw [idle]
  · intro s f q descs moving ring
    refine goes_on (exec_rillPointerMismatch f descs s) ?_
    dsimp only
    rw [moving, ring] <;> rfl
  · intro s f descs moving noRing
    refine goes_on (exec_rillPointerMismatch f descs s) ?_
    dsimp only
    rw [moving, noRing]

end Sys2Proof.Machine
end

section
/-!
PROOFS of 09_time.md: the operations of a time base (R275 to R278).
-/
namespace Sys2Proof.Machine

/-- The operation that a write of TIME_TB_CMD stages. -/
def Hw.stagedOp (h : Hw) (b op : Nat) (neg : Bool) : TbOp :=
  ⟨op, neg, h.rn (Reg.TIME_TB_WR_SEC_HI b) % 2 ^ 16 * 2 ^ 32 + h.rn (Reg.TIME_TB_WR_SEC_LO b), h.rn (Reg.TIME_TB_WR_NS b) % 2 ^ 30,
    h.rn (Reg.TIME_TB_WR_ADJ_HI b) % 256 * 2 ^ 32 + h.rn (Reg.TIME_TB_WR_ADJ_LO b), h.flag (Reg.TIME_TB_CTRL b) Fld.TIME_TB_CTRL_HOST_WR, none⟩

/-- A write that reaches TIME_TB_CMD of a base that is not busy. -/
theorem Hw.timeHost_staged {h : Hw} {fn b op : Nat} (neg : Bool) (base : b < 8)
    (reached : h.hostReg fn (Reg.TIME_TB_CMD b) = some (Reg.TIME_TB_CMD b))
    (free : h.flag (Reg.TIME_TB_CMD_STATUS b) Fld.TIME_TB_CMD_STATUS_BUSY = false) (low : op ≠ 0) (high : op ≤ 5) :
    h.timeHost fn b op neg = (h.setFld (Reg.TIME_TB_CMD_STATUS b) Fld.TIME_TB_CMD_STATUS_BUSY 1).onTime
      (fun t => { t with hostOp := kvPut t.hostOp b (h.stagedOp b op neg) }) := by
  refine (if_pos base).trans ?_
  rw [reached]
  refine (if_pos rfl).trans (if_neg ?_)
  simp [free, low, high]

/-- A write while the base is busy. -/
theorem Hw.timeHost_busy {h : Hw} {b : Nat} (fn op : Nat) (neg : Bool) (busy : h.flag (Reg.TIME_TB_CMD_STATUS b) Fld.TIME_TB_CMD_STATUS_BUSY = true) :
    h.timeHost fn b op neg = h := by
  have kept : h.timeCmd b op neg = h := if_pos (by simp [busy])
  refine ite_shared id ?_ rfl
  cases h.hostReg fn (Reg.TIME_TB_CMD b) with
  | none => rfl
  | some r => exact ite_shared id kept rfl

/-- A write that does not reach the register. -/
theorem Hw.timeHost_elsewhere {h : Hw} {fn b : Nat} (op : Nat) (neg : Bool)
    (elsewhere : 8 ≤ b ∨ h.hostReg fn (Reg.TIME_TB_CMD b) ≠ some (Reg.TIME_TB_CMD b)) : h.timeHost fn b op neg = h := by
  obtain far | other := elsewhere
  · exact if_neg (by omega)
  · refine ite_shared id ?_ rfl
    cases reached : h.hostReg fn (Reg.TIME_TB_CMD b) with
    | none => rfl
    | some r => exact if_neg (fun same => other (by rw [reached, same]))

/-- A commit of a powered time service. -/
theorem timeTbCommit_of {s : State} {b : Nat} (base : b < 8) (power : s.hw.pg 49 = true) {x : Hw} (effect : s.hw.tbCommitted b = x) :
    exec (.timeTbCommit b) s = .next (s.on x) :=
  goes_on (exec_timeTbCommit b s) ((if_pos ⟨base, power⟩).trans effect)

/-- A commit of the host's operation, where firmware has none. -/
theorem Hw.tbCommitted_host {h : Hw} {b : Nat} {o : TbOp} (noFw : kvGet h.tim.fwOp b = none) (host : kvGet h.tim.hostOp b = some o) :
    h.tbCommitted b =
      let r := (h.onTime (fun t => { t with hostOp := kvDel t.hostOp b })).tbDo b o
      r.2.wn (Reg.TIME_TB_CMD_STATUS b) r.1 := by
  unfold Hw.tbCommitted Hw.tbCommit
  rw [noFw, host]

/-- A commit of firmware's operation. -/
theorem Hw.tbCommitted_fw {h : Hw} {b : Nat} {o : TbOp} (fw : kvGet h.tim.fwOp b = some o) :
    h.tbCommitted b =
      let r := (h.onTime (fun t => { t with fwOp := kvDel t.fwOp b })).tbDo b o
      match o.slot with
      | none => r.2
      | some k => if r.1 = 0 then r.2.complete k cOk 0 [] else r.2.complete k cTimeResult r.1 [] := by
  unfold Hw.tbCommitted Hw.tbCommit
  rw [fw]
  dsimp only
  cases o.slot <;> rfl

/-- A commit where no operation waits. -/
theorem Hw.tbCommitted_none {h : Hw} {b : Nat} (noFw : kvGet h.tim.fwOp b = none) (noHost : kvGet h.tim.hostOp b = none) :
    h.tbCommitted b = h := by
  unfold Hw.tbCommitted Hw.tbCommit
  rw [noFw, noHost]

/-- The results of an operation, in the order of R277. -/
theorem Hw.tbResult_eq (h : Hw) (b : Nat) (o : TbOp) : h.tbResult b o =
    if o.access = false then 5
    else if (o.op = 1 ∨ o.op = 2) ∧ 2 ≤ h.tbState b then 1
    else if o.op = 3 ∧ 3 ≤ h.tbState b then 3
    else if o.op = 4 ∧ h.tbState b ≠ 1 then 4
    else if (o.op = 1 ∨ o.op = 2) ∧ 1000000000 ≤ o.ns then 2
    else if o.op = 2 ∧ o.neg = true ∧ h.tbRaw b < (o.sec * 1000000000 + o.ns) * 2 ^ 47 then 2
    else if o.op = 3 ∧ 281474976710 < (adjInt o.adj).natAbs then 2 else 0 := by
  unfold Hw.tbResult
  simp only [Bool.not_eq_true']
  rfl

/-- A step of a locked base is refused and counted. -/
theorem Hw.tbDo_locked {h : Hw} {b : Nat} {o : TbOp} (access : o.access = true) (step : o.op = 1 ∨ o.op = 2) (locked : 2 ≤ h.tbState b) :
    h.tbDo b o = (1, h.inc (Reg.TIME_TB_STEP_REFUSED b)) := by
  have result : h.tbResult b o = 1 := (h.tbResult_eq b o).trans ((if_neg (by simp [access])).trans (if_pos ⟨step, locked⟩))
  unfold Hw.tbDo
  rw [result]
  exact (if_neg (by decide)).trans (by rw [if_pos step])

/-- In ACQUIRE, an operation other than SET or STEP with a rate within the limit is carried out. -/
theorem Hw.tbDo_acquire {h : Hw} {b : Nat} {o : TbOp} (access : o.access = true) (acquire : h.tbState b = 1)
    (rate : (adjInt o.adj).natAbs ≤ 281474976710) (other : 3 ≤ o.op) : h.tbDo b o = (0, h.tbCarry b o) := by
  have result : h.tbResult b o = 0 := by
    rw [Hw.tbResult_eq, if_neg (by simp [access]), if_neg (by omega), if_neg (by omega), if_neg (by omega), if_neg (by omega), if_neg (by omega),
      if_neg (by omega)]
  unfold Hw.tbDo
  rw [result]
  rfl

/-- LOCK locks. -/
theorem Hw.tbCarry_lock (h : Hw) (b : Nat) {o : TbOp} (lock : o.op = 4) : h.tbCarry b o = h.setTbState b 2 := by
  unfold Hw.tbCarry
  rw [lock]
  rfl

/-- A rate replaces ADJ. -/
theorem Hw.tbCarry_adjust (h : Hw) (b : Nat) {o : TbOp} (adjust : o.op = 3) : h.tbCarry b o = h.setAdj b o.adj := by
  unfold Hw.tbCarry
  rw [adjust]
  rfl

/-- UNLOCK of a base that is not locked does nothing. -/
theorem Hw.tbCarry_unlock {h : Hw} {b : Nat} {o : TbOp} (unlock : o.op = 5) (unlocked : h.tbState b < 2) : h.tbCarry b o = h := by
  unfold Hw.tbCarry
  rw [unlock]
  exact if_neg (Nat.not_le.mpr unlocked)

/-- Settles O35: for each command the branches of its row, one clause a branch. -/
theorem timeCommandsWaitAndCommit : Obligations.TimeCommandsWaitAndCommit := by
  unfold Obligations.TimeCommandsWaitAndCommit
  refine ⟨?_, ?_, ?_, ?_, ?_, ?_, fun h b o => h.tbResult_eq b o, ?_, ?_⟩
  · intro s fn b neg base reached free
    exact ⟨goes_on (exec_timeTbSet fn b neg s) (Hw.timeHost_staged neg base reached free (by decide) (by decide)),
      goes_on (exec_timeTbStep fn b neg s) (Hw.timeHost_staged neg base reached free (by decide) (by decide)),
      goes_on (exec_timeTbAdj fn b neg s) (Hw.timeHost_staged neg base reached free (by decide) (by decide)),
      goes_on (exec_timeTbLock fn b neg s) (Hw.timeHost_staged neg base reached free (by decide) (by decide)),
      goes_on (exec_timeTbUnlock fn b neg s) (Hw.timeHost_staged neg base reached free (by decide) (by decide))⟩
  · intro s fn b neg busy
    exact ⟨stays (exec_timeTbSet fn b neg s) (Hw.timeHost_busy fn 1 neg busy), stays (exec_timeTbStep fn b neg s) (Hw.timeHost_busy fn 2 neg busy),
      stays (exec_timeTbAdj fn b neg s) (Hw.timeHost_busy fn 3 neg busy), stays (exec_timeTbLock fn b neg s) (Hw.timeHost_busy fn 4 neg busy),
      stays (exec_timeTbUnlock fn b neg s) (Hw.timeHost_busy fn 5 neg busy)⟩
  · intro s fn b neg elsewhere
    exact ⟨stays (exec_timeTbSet fn b neg s) (Hw.timeHost_elsewhere 1 neg elsewhere),
      stays (exec_timeTbStep fn b neg s) (Hw.timeHost_elsewhere 2 neg elsewhere),
      stays (exec_timeTbAdj fn b neg s) (Hw.timeHost_elsewhere 3 neg elsewhere),
      stays (exec_timeTbLock fn b neg s) (Hw.timeHost_elsewhere 4 neg elsewhere),
      stays (exec_timeTbUnlock fn b neg s) (Hw.timeHost_elsewhere 5 neg elsewhere)⟩
  · intro s b o base power noFw host
    exact timeTbCommit_of base power (Hw.tbCommitted_host noFw host)
  · intro s b o base power fw
    exact timeTbCommit_of base power (Hw.tbCommitted_fw fw)
  · intro s b waits
    refine stays (exec_timeTbCommit b s) ?_
    obtain far | off | ⟨noFw, noHost⟩ := waits
    · exact if_neg (by omega)
    · exact if_neg (by simp [off])
    · exact ite_shared id (Hw.tbCommitted_none noFw noHost) rfl
  · intro s b o base power noFw host access step locked
    refine timeTbCommit_of base power ((Hw.tbCommitted_host noFw host).trans ?_)
    rw [Hw.tbDo_locked access step (h := s.hw.onTime (fun t => { t with hostOp := kvDel t.hostOp b })) locked]
  · intro s b o base power noFw host access acquire rate
    have carried : ∀ n, 3 ≤ n → o.op = n → exec (.timeTbCommit b) s =
        .next (s.on (((s.hw.onTime (fun t => { t with hostOp := kvDel t.hostOp b })).tbCarry b o).wn (Reg.TIME_TB_CMD_STATUS b) 0)) := by
      intro n low op
      refine timeTbCommit_of base power ((Hw.tbCommitted_host noFw host).trans ?_)
      rw [Hw.tbDo_acquire (h := s.hw.onTime (fun t => { t with hostOp := kvDel t.hostOp b })) access acquire rate (by omega)]
    refine ⟨fun lock => ?_, fun adjust => ?_, fun unlock => ?_⟩
    · rw [carried 4 (by decide) lock, Hw.tbCarry_lock _ b lock]
    · rw [carried 3 (by decide) adjust, Hw.tbCarry_adjust _ b adjust]
    · have unlocked : (s.hw.onTime (fun t => { t with hostOp := kvDel t.hostOp b })).tbState b < 2 := (acquire.trans_lt (by decide) : s.hw.tbState b < 2)
      rw [carried 5 (by decide) unlock, Hw.tbCarry_unlock unlock unlocked]

end Sys2Proof.Machine
end

section
/-!
PROOFS of 09_time.md: reads of time, pulse outputs, captures and the tasks of the event fabric (R280 to R293, R466 to R470).
-/
namespace Sys2Proof.Machine

/-! ### Reads that latch or pop -/

/-- A host read of the nanoseconds of a base. -/
theorem timeTbNsRead_at {s : State} {fn b : Nat} (en : Nat) (base : b < 8)
    (at_ : s.hw.hostReg fn (Reg.TIME_TB_NS b) = some (Reg.TIME_TB_NS b)) :
    exec (.timeTbNsRead fn (Reg.TIME_TB_NS b) en) s = .next (s.on
      ((s.hw.readTbNs fn b).2.answer (Reg.TIME_TB_NS b) en (s.hw.tbNs b % 1000000000))) := by
  refine goes_on (exec_timeTbNsRead fn (Reg.TIME_TB_NS b) en s) ?_
  rw [at_]
  have index : (Reg.TIME_TB_NS b - 0x200100) / 0x80 = b := by unfold Reg.TIME_TB_NS; omega
  refine (if_pos (by unfold Reg.TIME_TB_NS; omega)).trans ?_
  rw [index]
  rfl

/-- A host read of the last word of a timestamp queue. -/
theorem txtsW3Read_at {s : State} {fn m : Nat} (en : Nat) (mac : m < 24)
    (at_ : s.hw.hostReg fn (0x200C00 + 16 * m + 12) = some (0x200C00 + 16 * m + 12)) :
    exec (.txtsW3Read fn (0x200C00 + 16 * m + 12) en) s = .next (s.on
      ((s.hw.answer (0x200C00 + 16 * m + 12) en (s.hw.txtsWord fn m 3)).txtsPop fn m)) := by
  refine goes_on (exec_txtsW3Read fn (0x200C00 + 16 * m + 12) en s) ?_
  rw [at_]
  have index : (0x200C00 + 16 * m + 12 - 0x200C00) / 16 = m := by omega
  refine (if_pos (by omega)).trans ?_
  rw [index]

/-- The head of a queue that the function sees. -/
theorem Hw.txtsHead_of {h : Hw} {fn m : Nat} {e : TxTs} {es : List TxTs} (sees : h.txtsSees fn m = true) (held : kvGetD h.tim.txts m [] = e :: es) :
    h.txtsHead fn m = some e := by
  rw [Hw.txtsHead, if_pos sees, held]
  rfl

/-- Its last word is answered and the head popped. -/
theorem Hw.txtsPop_head {h : Hw} {fn m : Nat} {e : TxTs} (off en : Nat) (head : h.txtsHead fn m = some e) :
    (h.answer off en (h.txtsWord fn m 3)).txtsPop fn m =
      (h.answer off en (e.sec / 2 ^ 32 % 2 ^ 16)).onTime (fun t => { t with txts := kvMod t.txts m [] (·.drop 1) }) := by
  have word : h.txtsWord fn m 3 = e.sec / 2 ^ 32 % 2 ^ 16 := by
    unfold Hw.txtsWord
    rw [head]
    rfl
  rw [word]
  exact if_pos (by rw [show (h.answer off en _).txtsHead fn m = _ from head]; rfl)

/-- Without a head the word is 0 and nothing is popped. -/
theorem Hw.txtsPop_empty {h : Hw} {fn m : Nat} (off en : Nat) (none_ : h.txtsHead fn m = none) :
    (h.answer off en (h.txtsWord fn m 3)).txtsPop fn m = h.answer off en 0 := by
  have word : h.txtsWord fn m 3 = 0 := by
    unfold Hw.txtsWord
    rw [none_]
  rw [word]
  exact if_neg (by rw [show (h.answer off en 0).txtsHead fn m = _ from none_]; decide)

/-- A host read of the nanoseconds of a capture. -/
theorem capNsRead_at {s : State} {fn c : Nat} (en : Nat) (input : c < 8)
    (at_ : s.hw.hostReg fn (Reg.TIME_CAP_NS c) = some (Reg.TIME_CAP_NS c)) :
    exec (.capNsRead fn (Reg.TIME_CAP_NS c) en) s = .next (s.on
      ((s.hw.answer (Reg.TIME_CAP_NS c) en ((s.hw.capFifo c).headD (0, 0)).2).capPop c)) := by
  refine goes_on (exec_capNsRead fn (Reg.TIME_CAP_NS c) en s) ?_
  rw [at_]
  have index : (Reg.TIME_CAP_NS c - 0x200A00) / 0x20 = c := by unfold Reg.TIME_CAP_NS; omega
  refine (if_pos (by unfold Reg.TIME_CAP_NS; omega)).trans ?_
  rw [index]

/-! ### Pulse outputs -/

/-- The settings of an output that has none waiting stay at a boundary. -/
theorem Hw.pulseBoundary_none {h : Hw} {p : Nat} (none_ : (h.pulse p).next = none) : h.pulseBoundary p = h := by
  unfold Hw.pulseBoundary
  rw [none_]

/-- An enabled output whose instant has come. -/
theorem pulseEdge_due {s : State} {p : Nat} (output : p < 8) (enabled : s.hw.flag (Reg.TIME_PULSE_CFG p) Fld.TIME_PULSE_CFG_EN = true)
    (low : (s.hw.pulse p).asserted = false) (due : (s.hw.pulse p).due ≤ s.hw.tbNs (s.hw.pulseTb p)) :
    exec (.pulseEdge p) s = .next (s.on (
      let h := s.hw.pulseBoundary p
      if h.flag (Reg.TIME_PULSE_CFG p) Fld.TIME_PULSE_CFG_EN = false ∨ h.tbNs (h.pulseTb p) < (h.pulse p).due then h
      else if h.flag (Reg.TIME_PULSE_CFG p) Fld.TIME_PULSE_CFG_PERIODIC = true ∨ (h.pulse p).fired = false then h.pulseAssert p else h)) := by
  refine goes_on (exec_pulseEdge p s) ((if_neg (by simp [output, enabled])).trans ((if_neg (by simp [low])).trans
    ((if_neg (Nat.not_lt.mpr due)).trans ?_)))
  simp only [Bool.or_eq_true, Bool.not_eq_true', decide_eq_true_eq]

/-- A pulse whose width has passed. -/
theorem pulseEdge_over {s : State} {p : Nat} (output : p < 8) (enabled : s.hw.flag (Reg.TIME_PULSE_CFG p) Fld.TIME_PULSE_CFG_EN = true)
    (high : (s.hw.pulse p).asserted = true) (passed : (s.hw.pulse p).off ≤ s.hw.runRaw (s.hw.pulseTb p) / nsUnit) :
    exec (.pulseEdge p) s = .next (s.on (
      let h := (s.hw.setPulse p { s.hw.pulse p with asserted := false }).pulsePin p false
      if h.flag (Reg.TIME_PULSE_CFG p) Fld.TIME_PULSE_CFG_PERIODIC = false ∧ (s.hw.pulse p).next ≠ none then h.pulseNow p else h)) := by
  refine goes_on (exec_pulseEdge p s) ((if_neg (by simp [output, enabled])).trans ((if_pos high).trans ((if_neg (Nat.not_lt.mpr passed)).trans ?_)))
  simp only [Bool.and_eq_true, Bool.not_eq_true', Option.isSome_iff_ne_none]

/-! ### Captures -/

/-- A qualified edge of an enabled input. -/
theorem captureEdge_qualified {s : State} {c : Nat} {up : Bool} (input : c < 8)
    (enabled : s.hw.flag (Reg.TIME_CAP_CFG c) Fld.TIME_CAP_CFG_EN = true)
    (edge : (s.hw.fld (Reg.TIME_CAP_CFG c) Fld.TIME_CAP_CFG_EDGE).testBit (if up then 0 else 1) = true) :
    exec (.captureEdge c up) s = .next (s.on (
      let close := match kvGet s.hw.tim.capLast c with | some t => decide (s.hw.clk < t + 8) | none => false
      let h := s.hw.onTime (fun t => { t with capLast := kvPut t.capLast c s.hw.clk })
      if close then h else h.capture c 4)) := by
  refine goes_on (exec_captureEdge c up s) (if_neg ?_)
  have one : getF (s.hw.rn (Reg.TIME_CAP_CFG c)) Fld.TIME_CAP_CFG_EN = 1 := eq_of_beq enabled
  have kind : (getF (s.hw.rn (Reg.TIME_CAP_CFG c)) Fld.TIME_CAP_CFG_EDGE).testBit (if up then 0 else 1) = true := edge
  rw [one, kind]
  simp [input]

/-- An edge more than 16 ns after the last one is captured. -/
theorem captureEdge_apart {s : State} {c : Nat} {up : Bool} (input : c < 8)
    (enabled : s.hw.flag (Reg.TIME_CAP_CFG c) Fld.TIME_CAP_CFG_EN = true)
    (edge : (s.hw.fld (Reg.TIME_CAP_CFG c) Fld.TIME_CAP_CFG_EDGE).testBit (if up then 0 else 1) = true)
    (apart : ∀ t, kvGet s.hw.tim.capLast c = some t → t + 8 ≤ s.hw.clk) :
    exec (.captureEdge c up) s = .next (s.on ((s.hw.onTime (fun t => { t with capLast := kvPut t.capLast c s.hw.clk })).capture c 4)) := by
  refine next_of_same (captureEdge_qualified input enabled edge) (if_neg ?_)
  cases last : kvGet s.hw.tim.capLast c with
  | none => exact Bool.false_ne_true
  | some t => simpa using apart t last

/-- A full FIFO loses the capture. -/
theorem Hw.capture_full {h : Hw} {c : Nat} (ago : Nat) (full : 16 ≤ (h.capFifo c).length) :
    h.capture c ago = (h.setFld (Reg.TIME_CAP_STATUS c) Fld.TIME_CAP_STATUS_OVF 1).inc (Reg.TIME_CAP_LOST c) := if_pos full

/-! ### Tasks of the event fabric -/

/-- A run of a record task of owner 1. -/
theorem Hw.taskRecord_owner {h : Hw} {r : TaskRun} (records : 40 ≤ r.task) (owner : h.fld (Reg.EVF_TASK_CFG r.task) Fld.EVF_TASK_CFG_OWNER = 1) :
    h.taskRecord r = h.taskRecordTo 1 r :=
  (if_pos records).trans (if_pos owner)

/-- A waiting run is a run of its task. -/
theorem Hw.task_of_taskRun {h : Hw} {t : Nat} {r : TaskRun} (waiting : h.taskRun? t = some r) : r.task = t := by
  have found := List.find?_some (p := fun r : TaskRun => r.task == t) waiting
  simpa using found

/-- Settles O36: for each command the branches of its row, one clause a branch. -/
theorem timeReadsPulsesAndCaptures : Obligations.TimeReadsPulsesAndCaptures := by
  unfold Obligations.TimeReadsPulsesAndCaptures
  refine ⟨?_, ?_, ?_, ?_, ?_, ?_, ?_, ?_, ?_, ?_, ?_, ?_, ?_, ?_, ?_, ?_, ?_, ?_, ?_, ?_, ?_, ?_, ?_⟩
  · intro s fn b en base at_
    exact ⟨_, timeTbNsRead_at en base at_, rfl, kvGet_kvPut_same _ _ _, fun k other => kvGet_kvPut_ne _ _ other, rfl⟩
  · intro s fn off en elsewhere
    refine stays (exec_timeTbNsRead fn off en s) ?_
    cases at_ : s.hw.hostReg fn off with
    | none => rfl
    | some r =>
      refine if_neg ?_
      rintro ⟨low, high, first⟩
      refine elsewhere ((r - 0x200100) / 0x80) (by omega) ?_
      rw [at_, Reg.TIME_TB_NS]
      congr 1
      omega
  · intro s fn m en e es mac at_ sees held
    refine ⟨_, next_of_same (txtsW3Read_at en mac at_) (Hw.txtsPop_head _ en (Hw.txtsHead_of sees held)), ?_, rfl, rfl⟩
    refine (kvGetD_kvMod_same _ _ _ _).trans ?_
    rw [show kvGetD (s.hw.answer _ en _).tim.txts m [] = e :: es from held]
    rfl
  · intro s fn m en mac at_ none_
    exact next_of_same (txtsW3Read_at en mac at_) (Hw.txtsPop_empty _ en none_)
  · intro s fn off en elsewhere
    refine stays (exec_txtsW3Read fn off en s) ?_
    cases at_ : s.hw.hostReg fn off with
    | none => rfl
    | some r =>
      refine if_neg ?_
      rintro ⟨low, high, last⟩
      refine elsewhere ((r - 0x200C00) / 16) (by omega) ?_
      rw [at_]
      congr 1
      omega
  · intro s fn c en input at_
    exact ⟨_, capNsRead_at en input at_, kvGetD_kvMod_same _ _ _ _, rfl, rfl⟩
  · intro s fn off en elsewhere
    refine stays (exec_capNsRead fn off en s) ?_
    cases at_ : s.hw.hostReg fn off with
    | none => rfl
    | some r =>
      refine if_neg ?_
      rintro ⟨low, high, last⟩
      refine elsewhere ((r - 0x200A00) / 0x20) (by omega) ?_
      rw [at_, Reg.TIME_CAP_NS]
      congr 1
      omega
  · intro s b
    refine goes_on (exec_epochSecond b s) ?_
    by_cases due : b < 8 ∧ s.hw.secondDue b = true
    · rw [if_pos due]
      exact if_neg (by simp [due.1, due.2])
    · rw [if_neg due]
      refine if_pos ?_
      by_contra reached
      refine due ?_
      simpa using reached
  · intro s p d x output enabled state due
    have due' : (s.hw.pulse p).due ≤ s.hw.tbNs (s.hw.pulseTb p) := by rw [state]; exact due
    refine next_of_same (pulseEdge_due output enabled (by rw [state]) due') ?_
    rw [Hw.pulseBoundary_none (by rw [state])]
    refine (if_neg (by simp [enabled, due'])).trans ((if_pos (.inr (by rw [state]))).trans ?_)
    rw [Hw.pulseAssert, state]
  · intro s p output enabled low due
    exact pulseEdge_due output enabled low due
  · intro s p d x f output enabled state passed
    refine next_of_same (pulseEdge_over output enabled (by rw [state]) (by rw [state]; exact passed)) ?_
    rw [state]
    exact if_neg (by simp)
  · intro s p output enabled high passed
    exact pulseEdge_over output enabled high passed
  · intro s p waits
    refine stays (exec_pulseEdge p s) ?_
    obtain far | off | ⟨high, early⟩ | ⟨low, early⟩ := waits
    · exact if_pos (.inl far)
    · exact if_pos (.inr off)
    · exact ite_shared id rfl ((if_pos high).trans (if_pos early))
    · exact ite_shared id rfl ((if_neg (by simp [low])).trans (if_pos early))
  · intro s c up input enabled edge apart
    exact captureEdge_apart input enabled edge apart
  · intro s c up input enabled edge t last close
    refine next_of_same (captureEdge_qualified input enabled edge) ?_
    rw [last]
    exact if_pos (by simpa using close)
  · intro s c up refused
    exact stays (exec_captureEdge c up s) (if_pos refused)
  · intro s c up input enabled edge first full
    refine next_of_same (captureEdge_apart input enabled edge ?_)
      (Hw.capture_full (h := s.hw.onTime (fun t => { t with capLast := kvPut t.capLast c s.hw.clk })) 4 full)
    rw [first]
    exact fun t none_ => absurd none_ (by simp)
  · intro s p r output waiting
    exact goes_on (exec_pulseFireTask p s) ((if_pos output).trans (Hw.serveTask_runs _ waiting))
  · intro s c r input waiting
    exact goes_on (exec_captureSoftTask c s) ((if_pos input).trans (Hw.serveTask_runs _ waiting))
  · intro s k r task waiting owner
    have number := Hw.task_of_taskRun waiting
    refine goes_on (exec_recordTask k s) ((if_pos task).trans ((Hw.serveTask_runs _ waiting).trans (Hw.taskRecord_owner (by omega) ?_)))
    rw [number]
    exact owner
  · intro s k r task waiting
    exact goes_on (exec_recordTask k s) ((if_pos task).trans (Hw.serveTask_runs _ waiting))
  · intro s k none_
    exact ⟨stays (exec_pulseFireTask k s) (ite_shared id (Hw.serveTask_idle _ _ none_) rfl),
      stays (exec_captureSoftTask k s) (ite_shared id (Hw.serveTask_idle _ _ none_) rfl),
      stays (exec_recordTask k s) (ite_shared id (Hw.serveTask_idle _ _ none_) rfl)⟩
  · intro s v
    exact exec_evfSwFireWrite v s

end Sys2Proof.Machine
end

section
/-!
PROOFS of 09_time.md: the supervisor of a time base (R294 to R297).
-/
namespace Sys2Proof.Machine

/-- What a sample in LOCKED does, once a second has passed. -/
theorem supervisorSample_due {s : State} {b : Nat} (base : b < 8) (locked : s.hw.tbState b = 2) (fw : s.hw.fwRuns = true)
    (due : s.hw.sampleDue b = true) : exec (.supervisorSample b) s = .next (s.on (
      let l := (adjInt (s.hw.adj b) :: s.hw.samples b).take 65
      let h := s.hw.onTime (fun t => { t with corr := kvPut t.corr b l, supAt := kvPut t.supAt b s.hw.clk })
      match suspectCause l, l[64]? with
      | 0, _ => h
      | c, some o => h.holdover b c o
      | c, none => h.drawn.holdover b c h.freeRate)) :=
  goes_on (exec_supervisorSample b s) (if_neg (by simp [base, locked, fw, due]))

/-- A measurement while the control firmware runs. -/
theorem slewUpdate_runs {s : State} {b : Nat} (pr alt : Bool) (off fs : Int) (base : b < 8) (fw : s.hw.fwRuns = true) {x : Hw}
    (effect : (if s.hw.tbState b = 4 then s.hw.slew b off fs
      else if s.hw.tbState b ≠ 3 ∨ s.hw.tim.blocked.contains b = true then s.hw
      else if pr || (alt && (kvGet s.hw.tim.alt b).isSome) then
        if s.hw.rn (Reg.TIME_TB_SLEW_LIMIT b) < off.natAbs then
          (s.hw.onTime (fun t => { t with blocked := insertNew t.blocked b })).postG 6 b 0x0A08 b (satInt32 off)
        else
          ((s.hw.onTime (fun t => { t with onAlt := if pr then without t.onAlt b else insertNew t.onAlt b, nearAt := kvDel t.nearAt b })).setTbState
            b 4).slew b off fs
      else s.hw) = x) : exec (.slewUpdate b pr alt off fs) s = .next (s.on x) :=
  goes_on (exec_slewUpdate b pr alt off fs s) ((if_neg (by simp [base, fw])).trans effect)

/-- The measurements that a base in HOLDOVER takes: of its primary source, or of an alternate that is configured. -/
theorem slewSource {α : Type} (pr alt : Bool) (o : Option α) : (pr || (alt && o.isSome)) = true ↔ pr = true ∨ (alt = true ∧ o ≠ none) := by
  simp [Option.isSome_iff_ne_none]

/-- A base near its source for 16 s is locked again. -/
theorem timeRelock_due {s : State} {b n : Nat} (base : b < 8) (slewing : s.hw.tbState b = 4) (fw : s.hw.fwRuns = true)
    (near : kvGet s.hw.tim.nearAt b = some n) (passed : n + 8000000000 ≤ s.hw.clk) :
    exec (.timeRelock b) s = .next (s.on (
      let h := (s.hw.setTbState b 2).setFld (Reg.TIME_TB_STATE b) Fld.TIME_TB_STATE_SUSPECT 0
      (h.onTime (fun t => { t with corr := kvDel t.corr b, nearAt := kvDel t.nearAt b })).postG 6 b 0x0A07 b
        (if h.tim.onAlt.contains b then 1 else 0))) := by
  refine goes_on (exec_timeRelock b s) (if_pos ?_)
  rw [near, slewing, fw, Option.any_some, decide_eq_true passed, decide_eq_true base]
  rfl

/-- A base that is not near its source, or not long enough, is not. -/
theorem timeRelock_waits {s : State} {b : Nat} (waits : 8 ≤ b ∨ s.hw.tbState b ≠ 4 ∨ s.hw.fwRuns = false ∨
    (kvGet s.hw.tim.nearAt b).all (fun n => decide (s.hw.clk < n + 8000000000)) = true) : exec (.timeRelock b) s = .next s := by
  refine stays (exec_timeRelock b s) (if_neg ?_)
  obtain far | still | stopped | early := waits
  · simp [Nat.not_lt.mpr far]
  · simp [still]
  · simp [stopped]
  · cases near : kvGet s.hw.tim.nearAt b with
    | none => simp
    | some n =>
      rw [near, Option.all_some, decide_eq_true_eq] at early
      rw [Option.any_some, decide_eq_false (Nat.not_le.mpr early), Bool.and_false]
      exact Bool.false_ne_true

/-- Settles O37: for each command the branches of its row, one clause a branch. -/
theorem supervisorHoldsOverAndSlews : Obligations.SupervisorHoldsOverAndSlews := by
  unfold Obligations.SupervisorHoldsOverAndSlews
  refine ⟨?_, ?_, ?_, ?_, ?_, ?_, ?_, ?_, ?_, ?_, ?_, ?_, ?_⟩
  · intro s b base locked fw due fine
    refine next_of_same (supervisorSample_due base locked fw due) ?_
    dsimp only
    rw [fine]
    rfl
  · intro s b c base locked fw due suspect
    refine next_of_same (supervisorSample_due base locked fw due) ?_
    dsimp only
    rw [suspect]
    cases ((adjInt (s.hw.adj b) :: s.hw.samples b).take 65)[64]? <;> rfl
  · intro s b waits
    exact stays (exec_supervisorSample b s) (if_pos waits)
  · intro c l
    unfold suspectCause
    rw [List.getElem?_cons_succ] <;> rfl
  · intro s b base locked fw
    exact goes_on (exec_sourceLossHoldover b s) ((if_neg (by simp [base, fw])).trans (if_pos locked))
  · intro s b base slewing fw
    exact goes_on (exec_sourceLossHoldover b s) ((if_neg (by simp [base, fw])).trans ((if_neg (by omega)).trans (if_pos slewing)))
  · intro s b waits
    refine stays (exec_sourceLossHoldover b s) ?_
    obtain far | stopped | ⟨unlocked, still⟩ := waits
    · exact if_pos (by simp [far])
    · exact if_pos (by simp [stopped])
    · exact ite_shared id rfl ((if_neg unlocked).trans (if_neg still))
  · intro s b pr alt off fs base holds fw free source near
    exact slewUpdate_runs pr alt off fs base fw ((if_neg (by omega)).trans ((if_neg (not_or.mpr ⟨not_not.mpr holds, ne_true_of_eq_false free⟩)).trans
      ((if_pos ((slewSource _ _ _).mpr source)).trans (if_neg (Nat.not_lt.mpr near)))))
  · intro s b pr alt off fs base holds fw free source far
    exact slewUpdate_runs pr alt off fs base fw ((if_neg (by omega)).trans ((if_neg (not_or.mpr ⟨not_not.mpr holds, ne_true_of_eq_false free⟩)).trans
      ((if_pos ((slewSource _ _ _).mpr source)).trans (if_pos far))))
  · intro s b pr alt off fs base slewing fw
    exact slewUpdate_runs pr alt off fs base fw (if_pos slewing)
  · intro s b pr alt off fs waits
    refine stays (exec_slewUpdate b pr alt off fs s) ?_
    obtain far | stopped | ⟨notHolding, still⟩ | ⟨holds, blocked | ⟨other, none_⟩⟩ := waits
    · exact if_pos (by simp [far])
    · exact if_pos (by simp [stopped])
    · exact ite_shared id rfl ((if_neg still).trans (if_pos (.inl notHolding)))
    · exact ite_shared id rfl ((if_neg (by omega)).trans (if_pos (.inr blocked)))
    · refine ite_shared id rfl ((if_neg (by omega)).trans (ite_shared id rfl ((if_neg (mt (slewSource _ _ _).mp ?_)).trans rfl)))
      rintro (primary | ⟨alternate, configured⟩)
      · simp [other] at primary
      · obtain no | no := none_
        · simp [no] at alternate
        · exact configured no
  · intro s b n base slewing fw near passed
    exact timeRelock_due base slewing fw near passed
  · intro s b waits
    exact timeRelock_waits waits

end Sys2Proof.Machine
end

section
/-!
PROOFS of 10_host_interface.md: the functions of the host link, their owners and MSI-X vectors (R300 to R306, R457).
-/
namespace Sys2Proof.Machine

/-! ### Teardowns of owners -/

/-- What was repointed to owner 1 leaves the mailboxes. -/
theorem Hw.inFlight_stopped (h : Hw) (r v : Nat) (f : Field) (o p : Nat) : ((h.setFld r f v).repoint o).inFlight p = h.inFlight p := rfl

/-- A teardown of an active owner without commands in flight, while the firmware that keeps owners runs. -/
theorem Hw.tear_tearStart {h : Hw} {o : Nat} (again : Bool) (life : h.fwLife = true) (active : h.own.active.contains o = true)
    (fresh : kvGet h.own.tear o = none) (idle : h.inFlight o = []) : kvGet (h.tearStart o again).own.tear o = some ⟨0, 0, false, again⟩ := by
  unfold Hw.tearStart Hw.tearNow
  rw [if_pos life, fresh]
  dsimp only
  rw [if_neg (by rw [active]; decide), Hw.inFlight_stopped, idle]
  exact kvGet_kvPut_same _ _ _

/-! ### MSI-X -/

/-- The word of a vector after it was written. -/
theorem Hw.msixWord_written (h : Hw) (o w v : Nat) :
    (h.onHdma (fun d => { d with msixTbl := kvPut d.msixTbl (o * 8192 + w) v })).msixWord o w = v := kvGetD_kvPut_same _ _ _ _

/-- An even word has its mask bit clear. -/
theorem testBit_halved (v : Nat) : (v / 2 * 2).testBit 0 = false := by
  rw [Nat.testBit_zero, Nat.mul_mod_left]
  decide

/-- A vector that pends and is unmasked sends its message. -/
theorem Hw.unmask_pending {h : Hw} {o vec : Nat} (pending : kvGetD h.hdma.msixPba (o * 2048 + vec) false = true)
    (unmasked : (h.msixWord o (vec * 4 + 3)).testBit 0 = false) :
    h.unmask o vec = (h.onHdma (fun d => { d with msixPba := kvDel d.msixPba (o * 2048 + vec) })).emit (.msix o vec) :=
  if_pos (by rw [pending, unmasked]; rfl)

/-- The word of a vector counts for that vector. -/
theorem msixVector (vec : Nat) : (vec * 4 + 3) / 4 = vec := by omega

/-- What unmasking a vector writes. -/
def Hw.msixUnmasked (h : Hw) (o vec : Nat) : Hw :=
  h.onHdma (fun d => { d with msixTbl := kvPut d.msixTbl (o * 8192 + (vec * 4 + 3)) (h.msixWord o (vec * 4 + 3) / 2 * 2) })

/-- Unmasking a vector whose message pends. -/
theorem msixUnmask_pending {s : State} {fn vec : Nat} (vector : vec < s.hw.vectorCount (fnOwner fn))
    (pending : kvGetD s.hw.hdma.msixPba (fnOwner fn * 2048 + vec) false = true) :
    exec (.msixUnmask fn vec) s = .next (s.on
      (((s.hw.msixUnmasked (fnOwner fn) vec).onHdma (fun d => { d with msixPba := kvDel d.msixPba (fnOwner fn * 2048 + vec) })).emit
        (.msix (fnOwner fn) vec))) := by
  have unmasked : ((s.hw.msixUnmasked (fnOwner fn) vec).msixWord (fnOwner fn) (vec * 4 + 3)).testBit 0 = false := by
    rw [Hw.msixUnmasked, Hw.msixWord_written, testBit_halved]
  refine goes_on (exec_msixUnmask fn vec s) ?_
  unfold Hw.msixWrite
  rw [msixVector, if_pos vector]
  exact Hw.unmask_pending (h := s.hw.msixUnmasked (fnOwner fn) vec) pending unmasked

/-- Settles O38: for each command the branches of its row, one clause a branch. -/
theorem hostFunctionsComeAndGo : Obligations.HostFunctionsComeAndGo := by
  unfold Obligations.HostFunctionsComeAndGo
  refine ⟨?_, ?_, ?_, ?_, ?_, ?_, ?_, ?_, ?_, ?_, ?_, ?_, ?_, ?_, ?_, ?_, ?_⟩
  · intro s
    exact exec_perstDeassert s
  · intro s
    refine goes_on (exec_pcieLinkUp s) ?_
    simp only [Bool.and_eq_true, Bool.not_eq_true']
    rfl
  · intro s power link free
    exact goes_on (exec_hdmaReady s) (if_pos (by simp [power, link, free]))
  · intro s waits
    refine stays (exec_hdmaReady s) (if_neg ?_)
    obtain off | down | taken := waits
    · simp [off]
    · simp [down]
    · simp [taken]
  · intro s link
    refine ⟨s.hw.pcieLost, goes_on (exec_pcieLinkDown s) (if_pos link), goes_on (exec_pcieHotReset s) (if_pos link), ?_, ?_, ?_, rfl⟩
    all_goals rw [Hw.pcieLost, Hw.clrReady_hdma]; rfl
  · intro s down
    exact ⟨stays (exec_pcieLinkDown s) (ite_off down), stays (exec_pcieHotReset s) (ite_off down), stays (exec_flrPf s) (ite_off down)⟩
  · intro s link x life active fresh idle
    exact ⟨_, goes_on (exec_flrPf s) (if_pos link), rfl, Hw.tear_tearStart true life active fresh idle⟩
  · intro s link
    exact goes_on (exec_flrPf s) (if_pos link)
  · intro s vf low high life active fresh idle
    exact ⟨_, goes_on (exec_flrVf vf s) (if_pos ⟨low, high⟩), Hw.tear_tearStart true life active fresh idle, rfl⟩
  · intro s vf
    exact exec_flrVf vf s
  · intro s n link fits
    exact goes_on (exec_vfEnable n s) (if_pos (by simp [link, fits]))
  · intro s n waits
    refine stays (exec_vfEnable n s) (if_neg ?_)
    obtain down | many := waits
    · simp [down]
    · simp [Nat.not_le.mpr many]
  · intro s
    exact exec_vfDisable s
  · intro s fn mrrs tags on relaxed ari known link
    exact ⟨fun pf => goes_on (exec_busMasterChange fn mrrs tags on relaxed ari s) ((if_pos ⟨known, link⟩).trans (if_pos pf)),
      fun vf => goes_on (exec_busMasterChange fn mrrs tags on relaxed ari s) ((if_pos ⟨known, link⟩).trans (if_neg vf))⟩
  · intro s fn mrrs tags on relaxed ari waits
    refine stays (exec_busMasterChange fn mrrs tags on relaxed ari s) (if_neg ?_)
    rintro ⟨known, link⟩
    obtain far | down := waits
    · omega
    · simp [link] at down
  · intro s fn vec vector pending
    refine ⟨_, msixUnmask_pending vector pending, rfl, kvGet_kvDel_same _ _, ?_⟩
    have word := Hw.msixWord_written s.hw (fnOwner fn) (vec * 4 + 3) (s.hw.msixWord (fnOwner fn) (vec * 4 + 3) / 2 * 2)
    exact (congrArg (fun w => w.testBit 0) word).trans (testBit_halved _)
  · intro s fn vec
    exact exec_msixUnmask fn vec s

end Sys2Proof.Machine
end

section
/-!
PROOFS of 10_host_interface.md: the host commands its rings and stops them (R308, R309, R318).
-/
namespace Sys2Proof.Machine

/-- Where what a write would do is nothing, it does nothing. -/
theorem Hw.onQueuePair_nothing {h : Hw} (fn off en : Nat) (d : Nat → Bool) {f : Nat → Nat → Hw} (nothing : ∀ a r, f a r = h) :
    h.onQueuePair fn off en d f = h := by
  unfold Hw.onQueuePair
  cases h.hostReg fn off with
  | none => rfl
  | some r => exact ite_shared id (nothing _ _) rfl

/-- A write that is not full, or reaches no queue pair, does nothing. -/
theorem Hw.onQueuePair_elsewhere {h : Hw} {fn off en : Nat} (d : Nat → Bool) (f : Nat → Nat → Hw)
    (elsewhere : en ≠ 15 ∨ ∀ r, h.hostReg fn off = some r → r < 0x60000 ∨ 0x80000 ≤ r) : h.onQueuePair fn off en d f = h := by
  unfold Hw.onQueuePair
  cases at_ : h.hostReg fn off with
  | none => rfl
  | some r =>
    refine if_neg ?_
    rintro ⟨full, low, high, -⟩
    obtain partial_ | outside := elsewhere
    · exact partial_ full
    · have := outside r at_
      omega

/-- A control word that names a size below 16 is not written. -/
theorem Hw.qCtrlWrite_small {h : Hw} (r : Nat) {v : Nat} (small : getF v Fld.HDMA_Q_CTRL_TX_LOG2 < 4 ∨ getF v Fld.HDMA_Q_CTRL_RX_LOG2 < 4) :
    h.qCtrlWrite r v = h := if_pos small

/-- The four writes of a control word, by what the word does to the pair. -/
theorem qCtrlCommands {s : State} {fn off val r : Nat} (pair : r < 2048) (at_ : s.hw.hostReg fn off = some (0x60000 + 0x40 * r)) {x : Hw}
    (written : s.hw.qCtrlWrite r val = x) :
    (val.testBit 31 = true → exec (.txEnSet fn off 15 val) s = .next (s.on x)) ∧
    (val.testBit 31 = false → exec (.txEnClear fn off 15 val) s = .next (s.on x)) ∧
    (val.testBit 30 = true → exec (.rxEnSet fn off 15 val) s = .next (s.on x)) ∧
    (val.testBit 30 = false → exec (.rxEnClear fn off 15 val) s = .next (s.on x)) := by
  refine ⟨fun set => ?_, fun clear => ?_, fun set => ?_, fun clear => ?_⟩
  · exact goes_on (exec_txEnSet fn off 15 val s) ((Hw.onQueuePair_at (d := 0) at_ pair (by decide) rfl).trans ((if_pos set).trans written))
  · exact goes_on (exec_txEnClear fn off 15 val s) ((Hw.onQueuePair_at (d := 0) at_ pair (by decide) rfl).trans ((ite_off clear).trans written))
  · exact goes_on (exec_rxEnSet fn off 15 val s) ((Hw.onQueuePair_at (d := 0) at_ pair (by decide) rfl).trans ((if_pos set).trans written))
  · exact goes_on (exec_rxEnClear fn off 15 val s) ((Hw.onQueuePair_at (d := 0) at_ pair (by decide) rfl).trans ((ite_off clear).trans written))

/-- A write whose enable bit is not the one the command is about does nothing. -/
theorem qCtrlCommands_other (s : State) (fn off en val : Nat) :
    (val.testBit 31 = false → exec (.txEnSet fn off en val) s = .next s) ∧ (val.testBit 31 = true → exec (.txEnClear fn off en val) s = .next s) ∧
    (val.testBit 30 = false → exec (.rxEnSet fn off en val) s = .next s) ∧ (val.testBit 30 = true → exec (.rxEnClear fn off en val) s = .next s) :=
  ⟨fun clear => stays (exec_txEnSet fn off en val s) (Hw.onQueuePair_nothing fn off en _ (fun _ _ => ite_off clear)),
    fun set => stays (exec_txEnClear fn off en val s) (Hw.onQueuePair_nothing fn off en _ (fun _ _ => if_pos set)),
    fun clear => stays (exec_rxEnSet fn off en val s) (Hw.onQueuePair_nothing fn off en _ (fun _ _ => ite_off clear)),
    fun set => stays (exec_rxEnClear fn off en val s) (Hw.onQueuePair_nothing fn off en _ (fun _ _ => if_pos set))⟩

/-- Settles O39: for each command the branches of its row, one clause a branch. -/
theorem hostRingsAreCommandedAndStop : Obligations.HostRingsAreCommandedAndStop := by
  unfold Obligations.HostRingsAreCommandedAndStop
  refine ⟨?_, ?_, ?_, ?_, fun s fn off en val => qCtrlCommands_other s fn off en val, ?_, ?_, ?_, ?_⟩
  · intro s fn off val r pair at_ new size
    have written := goes_on (exec_txqTailWrite fn off 15 val s)
      (Hw.onQueuePair_at (p := (· == 0x0C)) (f := fun _ r => s.hw.txTailWrite r val) at_ pair (by decide) rfl)
    exact ⟨fun fits ahead => next_of_same written (if_neg (not_or.mpr ⟨Nat.not_lt.mpr fits, Nat.not_lt.mpr ahead⟩)),
      fun refused => next_of_same written (if_pos refused)⟩
  · intro s fn off val r pair at_ h new size x
    have written := goes_on (exec_rxqTailWrite fn off 15 val s)
      (Hw.onQueuePair_at (p := (· == 0x1C)) (f := fun _ r => s.hw.rxTailWrite r val) at_ pair (by decide) rfl)
    refine ⟨fun fits ahead => next_of_same written ((if_neg (not_or.mpr ⟨Nat.not_lt.mpr fits, Nat.not_lt.mpr ahead⟩)).trans ?_),
      fun refused => next_of_same written (if_pos refused)⟩
    simp only [Bool.and_eq_true, decide_eq_true_eq]
    rfl
  · intro s fn off val r pair at_ tx rx
    exact ⟨_, rfl, qCtrlCommands pair at_ rfl⟩
  · intro s fn off val r pair at_ small
    obtain ⟨txSet, txClear, rxSet, rxClear⟩ := qCtrlCommands pair at_ (Hw.qCtrlWrite_small r small)
    obtain ⟨txNot, txIs, rxNot, rxIs⟩ := qCtrlCommands_other s fn off 15 val
    refine ⟨?_, ?_, ?_, ?_⟩
    · exact (Bool.eq_false_or_eq_true _).elim txSet txNot
    · exact (Bool.eq_false_or_eq_true _).elim txIs txClear
    · exact (Bool.eq_false_or_eq_true _).elim rxSet rxNot
    · exact (Bool.eq_false_or_eq_true _).elim rxIs rxClear
  · intro s fn off en val elsewhere
    exact ⟨stays (exec_txqTailWrite fn off en val s) (Hw.onQueuePair_elsewhere _ _ elsewhere),
      stays (exec_rxqTailWrite fn off en val s) (Hw.onQueuePair_elsewhere _ _ elsewhere),
      stays (exec_txEnSet fn off en val s) (Hw.onQueuePair_elsewhere _ _ elsewhere),
      stays (exec_txEnClear fn off en val s) (Hw.onQueuePair_elsewhere _ _ elsewhere),
      stays (exec_rxEnSet fn off en val s) (Hw.onQueuePair_elsewhere _ _ elsewhere),
      stays (exec_rxEnClear fn off en val s) (Hw.onQueuePair_elsewhere _ _ elsewhere)⟩
  · intro s r descs stop idle master x rx
    refine goes_on (exec_ringStopDone r descs s) ?_
    have tx : s.hw.txStopDone r = x := if_pos (by simp [stop, idle, master])
    rw [tx]
    exact if_neg (by simp [rx])
  · intro s r descs running stop n
    refine goes_on (exec_ringStopDone r descs s) ?_
    have tx : s.hw.txStopDone r = s.hw := if_neg (by simp [running])
    rw [tx]
    exact if_pos stop
  · intro s r descs
    exact exec_ringStopDone r descs s

end Sys2Proof.Machine
end

section
/-!
PROOFS of 10_host_interface.md: descriptors, frames and reads of the host rings (R311 to R319, R509, R512).
-/
namespace Sys2Proof.Machine

/-! ### Descriptors and reads -/

/-- With reads of descriptors outstanding, they are judged once all of them came to a ring that is served. -/
theorem txDescriptorFetch_outstanding {s : State} {r : Nat} (descs : List (List Nat)) (want : ((s.hw.outstanding r 0).map (·.bytes)).sum / 64 ≠ 0) :
    exec (.txDescriptorFetch r descs) s = .next (s.on (
      if s.hw.txServes r && s.hw.allIssued r 0 && descs.length == ((s.hw.outstanding r 0).map (·.bytes)).sum / 64 then
        ((s.hw.endReads r 0).onRingAt r (fun x => { x with fetched := x.fetched ++ descs })).txJudge r 32 else s.hw)) :=
  goes_on (exec_txDescriptorFetch r descs s) (if_pos want)

/-- Without, on the ring's turn. -/
theorem txDescriptorFetch_turn {s : State} {r : Nat} (descs : List (List Nat)) (none_ : s.hw.outstanding r 0 = []) :
    exec (.txDescriptorFetch r descs) s = .next (s.on (if s.hw.txTurn = some r then s.hw.txJudge r 32 else s.hw)) := by
  refine goes_on (exec_txDescriptorFetch r descs s) (if_neg ?_)
  rw [none_]
  exact not_not.mpr rfl

/-- The request that goes out next, or what it waits for. -/
theorem Hw.readFits_iff (h : Hw) (q : ReadReq) :
    h.readFits q = true ↔ h.hdma.flight.length < h.tagSupply ∧ h.cplUsed + (q.bytes + 127) / 128 ≤ 768 := by
  simp [Hw.readFits]

/-- Without a request of a function that may master, none goes out. -/
theorem Hw.nextRead_none {h : Hw} (barred : ∀ q ∈ h.hdma.waiting, h.mayMaster q.ring = false) : h.nextRead = none :=
  List.find?_eq_none.mpr (fun q waiting => by simp [barred q waiting])

/-! ### Frames at P24 -/

/-- What a ring that is not enabled discards is counted. -/
theorem Hw.p24Live_off {h : Hw} {r : Nat} {p : RxPend} (descs : List (List Nat)) (off : h.rxEn r = false) (frame : p.frame ≠ none) :
    h.p24Live r p descs = (h.dropRef p).inc (Reg.HDMA_RX_DIVERT r) :=
  (if_pos (by simp [off])).trans (if_pos (Option.isSome_iff_ne_none.mpr frame))

/-- The oldest frame at P24. -/
theorem p24FrameArrive_of {s : State} {f : Frame} (descs : List (List Nat)) (there : s.hw.copyAt 24 (fun _ => true) = some f) {x : Hw}
    (effect : s.hw.p24 f descs = x) : exec (.p24FrameArrive descs) s = .next (s.on x) := by
  refine goes_on (exec_p24FrameArrive descs s) ?_
  rw [there]
  exact effect

/-- A frame of an owner that is not being torn down. -/
theorem Hw.p24_settled {h : Hw} {f : Frame} (descs : List (List Nat)) (settled : kvGet h.own.tear (recvOwner f) = none) :
    h.p24 f descs =
      let r := (recvOwner f - 2) * 8 + h.rxQueueOf f (h.readFrame f)
      let p : RxPend := ⟨some f.id, 0, [], h.clk⟩
      if h.own.active.contains (recvOwner f) then h.p24Live r p descs else h.rxDiscard r p := by
  unfold Hw.p24
  dsimp only
  rw [settled]

/-- A frame of an owner that is being torn down. -/
theorem Hw.p24_tearing {h : Hw} {f : Frame} {t : Tear} (descs : List (List Nat)) (tearing : kvGet h.own.tear (recvOwner f) = some t) :
    h.p24 f descs =
      if t.erased then
        { h.takeAt 24 f with
          own := { (h.takeAt 24 f).own with tear := kvPut (h.takeAt 24 f).own.tear (recvOwner f) { t with frames := t.frames + 1 } } }
      else h.p24Live ((recvOwner f - 2) * 8 + h.rxQueueOf f (h.readFrame f)) ⟨some f.id, 0, [], h.clk⟩ descs := by
  unfold Hw.p24
  dsimp only
  rw [tearing]

/-! ### Timers -/

/-- What a hold timer that is due shows: what waits discarded and the ring diverting. -/
def Hw.diverting (h : Hw) (r : Nat) : Hw :=
  (((h.discardPend r).onRingAt r (fun y => { y with
    timer := none, diverted := (framesIn ((h.ringAt r).pend ++ (h.ringAt r).head)).length })).showRing r).setFld
    (Reg.HDMA_Q_STATUS r) Fld.HDMA_Q_STATUS_DIVERT 1

/-- Something to announce is announced, by vector or by record. -/
theorem Hw.announce_some {h : Hw} {r : Nat} {tx : Bool} (some_ : (if tx then (h.ringAt r).txAnn else (h.ringAt r).rxAnn) ≠ 0) :
    h.announce r tx =
      let x := h.onRingAt r (fun y => if tx then { y with txAnn := 0 } else { y with rxAnn := 0 })
      if h.fld (Reg.HDMA_Q_COAL r) Fld.HDMA_Q_COAL_VEC_MODE = 1 then
        x.sendMsix (ringOwner r) (h.fld (Reg.HDMA_Q_COAL r) Fld.HDMA_Q_COAL_VECTOR)
      else x.post (ringOwner r) (if tx then 0x0101 else 0x0102) (ringQueue r) (if tx then x.txHead r else x.rxHead r)
        (if tx then (h.ringAt r).txAnn else (h.ringAt r).rxAnn) :=
  if_neg some_

/-- Settles O40: for each command the branches of its row, one clause a branch. -/
theorem hostRingsMoveFrames : Obligations.HostRingsMoveFrames := by
  unfold Obligations.HostRingsMoveFrames
  refine ⟨?_, ?_, ?_, ?_, ?_, ?_, ?_, fun _ _ _ => rfl, ?_, ?_, ?_, ?_, ?_, ?_, ?_, ?_, ?_, ?_, ?_⟩
  · intro s r descs none_
    exact ⟨fun turn => next_of_same (txDescriptorFetch_turn descs none_) (if_pos turn),
      fun other => next_of_same (txDescriptorFetch_turn descs none_) (if_neg other)⟩
  · intro s r descs some_ want serves issued
    have asked : ((s.hw.outstanding r 0).map (·.bytes)).sum / 64 ≠ 0 := by
      rw [want]
      simpa using some_
    exact next_of_same (txDescriptorFetch_outstanding descs asked) (if_pos (by simp [serves, issued, want]))
  · intro s r descs asked waits
    refine next_of_same (txDescriptorFetch_outstanding descs asked) (if_neg ?_)
    obtain unserved | unissued | other := waits
    · simp [unserved]
    · simp [unissued]
    · simp [other]
  · intro s r data fr reading len issued master w3 f y
    refine goes_on (exec_txDataReadDone r data s) ?_
    rw [reading]
    refine (if_neg (by simp [len, issued, master])).trans ?_
    dsimp only
    simp only [Bool.or_eq_true, Bool.not_eq_true', decide_eq_true_eq, or_assoc]
    rfl
  · intro s r data waits
    refine stays (exec_txDataReadDone r data s) ?_
    cases reading : (s.hw.ringAt r).reading with
    | none => rfl
    | some fr =>
      refine if_pos ?_
      obtain none_ | unissued | barred | ⟨fr', same, other⟩ := waits
      · simp [reading] at none_
      · simp [unissued]
      · simp [barred]
      · obtain rfl := Option.some.inj (reading.symm.trans same)
        exact .inl other
  · intro s r
    exact exec_hostReadError r true s
  · intro s r n
    exact exec_hostReadError r false s
  · intro s q next
    refine goes_on (exec_readRequestIssue s) ?_
    rw [next]
    simp only [Hw.readFits_iff]
    rfl
  · intro s barred
    refine stays (exec_readRequestIssue s) ?_
    rw [Hw.nextRead_none barred]
  · intro s descs f there o r p
    refine ⟨fun settled active => ?_, fun settled gone => ?_, fun t tearing live => ?_, fun t tearing erased => ?_⟩
    · exact p24FrameArrive_of descs there ((Hw.p24_settled descs settled).trans (if_pos active))
    · exact p24FrameArrive_of descs there ((Hw.p24_settled descs settled).trans (ite_off gone))
    · exact p24FrameArrive_of descs there ((Hw.p24_tearing descs tearing).trans (ite_off live))
    · exact p24FrameArrive_of descs there ((Hw.p24_tearing descs tearing).trans (if_pos erased))
  · intro h r p descs off frame
    exact Hw.p24Live_off descs off frame
  · intro s descs none_
    refine stays (exec_p24FrameArrive descs s) ?_
    rw [none_]
  · intro s r descs
    dsimp only
    intro waits
    refine goes_on (exec_rxFrameWrite r descs s) ?_
    dsimp only
    generalize (s.hw.drainPend r _ descs).1.showRing r = h at waits ⊢
    obtain pend | queue | none_ := waits
    · exact if_pos (by simp [pend])
    · exact if_pos (by simp [queue])
    · rw [none_]
      exact ite_self _
  · intro s r k b done descs
    dsimp only
    intro empty queue item
    refine goes_on (exec_rxFrameWrite r descs s) ((if_neg ?_).trans ?_)
    · rw [empty, queue]
      decide
    · rw [item] <;> rfl
  · intro s r due n
    refine ⟨s.hw.diverting r, rfl, goes_on (exec_holdTimerExpire r s) (if_neg (by simp [due])), ?_⟩
    exact congrArg (· == 1) (Hw.fld_setFld_same _ _ _ _ (by decide) (by decide))
  · intro s r early
    exact stays (exec_holdTimerExpire r s) (if_pos (by simp [early]))
  · intro s r
    refine ⟨?_, ?_⟩
    · intro x due some_
      exact goes_on (exec_coalesceTimer r true s) ((if_pos due).trans (Hw.announce_some (tx := true) some_))
    · intro x due some_
      exact goes_on (exec_coalesceTimer r false s) ((if_pos due).trans (Hw.announce_some (tx := false) some_))
  · intro s r tx waits
    refine stays (exec_coalesceTimer r tx s) ?_
    obtain early | none_ := waits
    · exact ite_off early
    · exact ite_shared id (if_pos none_) rfl

end Sys2Proof.Machine
end

section
/-!
PROOFS of 10_host_interface.md: event queues (R31, R320 to R323, R465).
-/
namespace Sys2Proof.Machine

/-! ### Spout -/

/-- The oldest staged record is taken. -/
theorem spoutRecordWrite_of {s : State} {r : EvRec} {rs : List EvRec} (oldest : s.hw.evq.staging = r :: rs) {x : Hw}
    (effect : (s.hw.onEvq (fun q => { q with staging := rs })).spoutTake r = x) : exec .spoutRecordWrite s = .next (s.on x) := by
  refine goes_on (exec_spoutRecordWrite s) ?_
  rw [oldest]
  exact effect

/-- A queue that is disabled, or of an owner that is not active, loses its record. -/
theorem Hw.spoutTake_closed {h : Hw} {r : EvRec} (closed : h.evqEn r.owner = false ∨ h.takes r.owner = false) :
    h.spoutTake r = h.loseRecord r.owner := by
  refine if_pos ?_
  obtain off | gone := closed
  · simp [off]
  · simp [gone]

/-- A queue without an overflow record due keeps to its records. -/
theorem Hw.overflowRecord_notDue {h : Hw} {o : Nat}
    (notDue : h.flag (Reg.EVQ_STATUS o) Fld.EVQ_STATUS_OVF_PENDING = false ∨ h.evqFree o = 0) : h.overflowRecord o = h := by
  refine if_neg ?_
  obtain none_ | full := notDue
  · simp [none_]
  · rw [full]
    split <;> simp

/-- An open queue with a free slot writes its record. -/
theorem Hw.spoutTake_free {h : Hw} {r : EvRec} (enabled : h.evqEn r.owner = true) (takes : h.takes r.owner = true)
    (notDue : h.flag (Reg.EVQ_STATUS r.owner) Fld.EVQ_STATUS_OVF_PENDING = false) (free : 0 < h.evqFree r.owner) :
    h.spoutTake r = (h.writeRecord r).evqMaybeMessage r.owner false := by
  refine (if_neg (by simp [enabled, takes])).trans ?_
  rw [Hw.overflowRecord_notDue (.inl notDue)]
  exact if_neg (by simp [notDue, Nat.ne_of_gt free])

/-- A full queue loses its record. -/
theorem Hw.spoutTake_full {h : Hw} {r : EvRec} (enabled : h.evqEn r.owner = true) (takes : h.takes r.owner = true) (full : h.evqFree r.owner = 0) :
    h.spoutTake r = h.loseRecord r.owner := by
  refine (if_neg (by simp [enabled, takes])).trans ?_
  rw [Hw.overflowRecord_notDue (.inr full)]
  exact if_pos (by simp [full])

/-- The eight words of a record, and the index and sequence number that follow. -/
theorem Hw.writeRecord_shows {h : Hw} {r : EvRec} (owner : r.owner < 512) (kind : r.kind < 16384) (inTime : r.kind ≠ 0x0901 ∨ h.clk ≤ r.at_ + 5000) :
    let i := h.rn (Reg.EVQ_PROD r.owner)
    let phase := if (i / 2 ^ h.fld (Reg.EVQ_CTRL r.owner) Fld.EVQ_CTRL_LOG2) % 2 = 0 then 1 else 0
    (h.writeRecord r).out = .evRecord r.owner i [phase * 2 ^ 31 + r.kind / 256 * 2 ^ 25 + r.owner * 2 ^ 16 + r.kind, r.w1 % 2 ^ 32,
      h.rn (Reg.EVQ_SEQ r.owner), r.w3 % 2 ^ 32, r.w4 % 2 ^ 32, r.w5 % 2 ^ 32, r.w6 % 2 ^ 32, r.w7 % 2 ^ 32] :: h.out ∧
    (h.writeRecord r).rn (Reg.EVQ_PROD r.owner) = (i + 1) % 2 ^ 32 ∧
    (h.writeRecord r).rn (Reg.EVQ_SEQ r.owner) = (h.rn (Reg.EVQ_SEQ r.owner) + 1) % 2 ^ 32 := by
  have notLate : (if r.kind = 0x0901 ∧ r.at_ + 5000 < h.clk then h.inc Reg.VIE_LATE else h) = h := if_neg (by omega)
  have source : r.kind / 256 % 64 = r.kind / 256 := Nat.mod_eq_of_lt (by omega)
  have number : r.owner % 512 = r.owner := Nat.mod_eq_of_lt owner
  have kind16 : r.kind % 2 ^ 16 = r.kind := Nat.mod_eq_of_lt (by omega)
  have apart : Reg.EVQ_PROD r.owner ≠ Reg.EVQ_SEQ r.owner := by unfold Reg.EVQ_PROD Reg.EVQ_SEQ; omega
  dsimp only
  refine ⟨?_, ?_, ?_⟩
  · unfold Hw.writeRecord
    rw [notLate]
    dsimp only
    rw [source, number, kind16]
    rfl
  · unfold Hw.writeRecord
    rw [notLate]
    exact (Hw.rn_wn_ne _ _ apart).trans (Hw.rn_wn_same _ _ _)
  · unfold Hw.writeRecord
    rw [notLate]
    exact Hw.rn_wn_same _ _ _

/-! ### Control words and consumption -/

/-- A full host write of EVQ_CTRL that sets EN. -/
theorem evqEnSet_at {s : State} {fn off val o : Nat} (queue : o < 512) (at_ : s.hw.hostReg fn off = some (0x20000 + 0x100 * o))
    (enable : getF val Fld.EVQ_CTRL_EN = 1) : exec (.evqEnSet fn off 15 val) s = .next (s.on (s.hw.evqCtrlWrite o val)) := by
  refine goes_on (exec_evqEnSet fn off 15 val s) ?_
  rw [at_]
  have index : evqOwnerOf (0x20000 + 0x100 * o) = o := by unfold evqOwnerOf; omega
  refine (if_pos ⟨rfl, by omega, by omega, by omega, enable⟩).trans ?_
  rw [index]

/-- What a control word of an admissible size does. -/
theorem Hw.evqCtrlWrite_size {h : Hw} (o : Nat) {v : Nat} (low : 6 ≤ getF v Fld.EVQ_CTRL_LOG2) (high : getF v Fld.EVQ_CTRL_LOG2 ≤ 16) :
    h.evqCtrlWrite o v =
      let x := h.wn (Reg.EVQ_CTRL o) (v / 1024 * 1024)
      if !h.evqEn o && x.evqEn o then x.evqEnable o else x := if_neg (by omega)

/-- A queue started over: nothing produced, nothing consumed, armed. -/
theorem Hw.evqEnable_shows (h : Hw) {o : Nat} (other : o ≠ 2) :
    (h.evqEnable o).rn (Reg.EVQ_PROD o) = 0 ∧ (h.evqEnable o).rn (Reg.EVQ_CONS o) = 0 ∧ (h.evqEnable o).rn (Reg.EVQ_SEQ o) = 0 ∧
      (h.evqEnable o).flag (Reg.EVQ_STATUS o) Fld.EVQ_STATUS_ARMED = true := by
  have regs : (h.evqEnable o).regs = (((((h.wn (Reg.EVQ_PROD o) 0).wn (Reg.EVQ_CONS o) 0).wn (Reg.EVQ_SEQ o) 0).setFld (Reg.EVQ_STATUS o)
      Fld.EVQ_STATUS_OVF_PENDING 0).setFld (Reg.EVQ_STATUS o) Fld.EVQ_STATUS_ARMED 1).regs := by
    unfold Hw.evqEnable
    dsimp only
    rw [if_neg (by simp [other])]
    rfl
  have prodCons : Reg.EVQ_PROD o ≠ Reg.EVQ_CONS o := by unfold Reg.EVQ_PROD Reg.EVQ_CONS; omega
  have prodSeq : Reg.EVQ_PROD o ≠ Reg.EVQ_SEQ o := by unfold Reg.EVQ_PROD Reg.EVQ_SEQ; omega
  have consSeq : Reg.EVQ_CONS o ≠ Reg.EVQ_SEQ o := by unfold Reg.EVQ_CONS Reg.EVQ_SEQ; omega
  have prodStatus : Reg.EVQ_PROD o ≠ Reg.EVQ_STATUS o := by unfold Reg.EVQ_PROD Reg.EVQ_STATUS; omega
  have consStatus : Reg.EVQ_CONS o ≠ Reg.EVQ_STATUS o := by unfold Reg.EVQ_CONS Reg.EVQ_STATUS; omega
  have seqStatus : Reg.EVQ_SEQ o ≠ Reg.EVQ_STATUS o := by unfold Reg.EVQ_SEQ Reg.EVQ_STATUS; omega
  refine ⟨?_, ?_, ?_, ?_⟩
  · rw [Hw.rn_congr regs, Hw.rn_setFld_ne _ _ _ prodStatus, Hw.rn_setFld_ne _ _ _ prodStatus, Hw.rn_wn_ne _ _ prodSeq, Hw.rn_wn_ne _ _ prodCons,
      Hw.rn_wn_same, Nat.zero_mod]
  · rw [Hw.rn_congr regs, Hw.rn_setFld_ne _ _ _ consStatus, Hw.rn_setFld_ne _ _ _ consStatus, Hw.rn_wn_ne _ _ consSeq, Hw.rn_wn_same, Nat.zero_mod]
  · rw [Hw.rn_congr regs, Hw.rn_setFld_ne _ _ _ seqStatus, Hw.rn_setFld_ne _ _ _ seqStatus, Hw.rn_wn_same, Nat.zero_mod]
  · rw [Hw.flag_congr regs, Hw.flag, Hw.fld_setFld_same _ _ _ _ (by decide) (by decide)]
    rfl

/-- A full host write of EVQ_CONS. -/
theorem evqConsWrite_at {s : State} {fn off o : Nat} (val : Nat) (queue : o < 512)
    (at_ : s.hw.hostReg fn off = some (0x20000 + 0x100 * o + 0x14)) :
    exec (.evqConsWrite fn off 15 val) s = .next (s.on (s.hw.evqConsWrite o val)) := by
  refine goes_on (exec_evqConsWrite fn off 15 val s) ?_
  rw [at_]
  have index : evqOwnerOf (0x20000 + 0x100 * o + 0x14) = o := by unfold evqOwnerOf; omega
  refine (if_pos ⟨rfl, by omega, by omega, by omega⟩).trans ?_
  rw [index]

/-! ### Timers -/

/-- A queue whose moderation timer has passed. -/
theorem Hw.modDue_of {h : Hw} {o t : Nat} (since : kvGet h.evq.sinceRec o = some t)
    (passed : t + h.fld (Reg.EVQ_MOD o) Fld.EVQ_MOD_MOD_US * 500 ≤ h.clk) : h.modDue o = true := by
  unfold Hw.modDue
  rw [since]
  exact decide_eq_true passed

/-- Settles O41: for each command the branches of its row, one clause a branch. -/
theorem eventQueuesWriteEnableAndConsume : Obligations.EventQueuesWriteEnableAndConsume := by
  unfold Obligations.EventQueuesWriteEnableAndConsume
  refine ⟨?_, ?_, ?_, ?_, ?_, ?_, ?_, ?_, ?_, ?_, ?_, ?_, ?_, ?_⟩
  · intro s none_
    refine stays (exec_spoutRecordWrite s) ?_
    rw [none_]
  · intro s r rs oldest enabled takes notDue free
    exact spoutRecordWrite_of oldest (Hw.spoutTake_free (h := s.hw.onEvq (fun q => { q with staging := rs })) enabled takes notDue free)
  · intro h r owner kind inTime
    exact Hw.writeRecord_shows owner kind inTime
  · intro s r rs oldest closed
    exact spoutRecordWrite_of oldest (Hw.spoutTake_closed (h := s.hw.onEvq (fun q => { q with staging := rs })) closed)
  · intro s r rs oldest enabled takes full
    exact spoutRecordWrite_of oldest (Hw.spoutTake_full (h := s.hw.onEvq (fun q => { q with staging := rs })) enabled takes full)
  · intro s fn off val o queue at_ enable
    have written := evqEnSet_at queue at_ enable
    refine ⟨fun size => ?_, fun low high => ⟨fun off_ on_ => ?_, fun on_ => ?_⟩⟩
    · exact next_of_same written (if_pos size)
    · exact next_of_same written ((Hw.evqCtrlWrite_size o low high).trans (if_pos (by rw [off_, on_]; rfl)))
    · exact next_of_same written ((Hw.evqCtrlWrite_size o low high).trans (if_neg (by rw [on_]; exact Bool.false_ne_true)))
  · intro h o other
    exact h.evqEnable_shows other
  · intro s fn off en val elsewhere
    refine stays (exec_evqEnSet fn off en val s) ?_
    cases at_ : s.hw.hostReg fn off with
    | none => rfl
    | some r =>
      refine if_neg ?_
      rintro ⟨full, low, high, first, enable⟩
      obtain partial_ | off_ | outside := elsewhere
      · exact partial_ full
      · omega
      · have := outside r at_
        omega
  · intro s fn off val o queue at_ adv
    have written := evqConsWrite_at val queue at_
    exact ⟨fun beyond => next_of_same written (if_pos beyond), fun fits => next_of_same written (if_neg (Nat.not_lt.mpr fits))⟩
  · intro s fn off en val elsewhere
    refine stays (exec_evqConsWrite fn off en val s) ?_
    cases at_ : s.hw.hostReg fn off with
    | none => rfl
    | some r =>
      refine if_neg ?_
      rintro ⟨full, low, high, cons⟩
      obtain partial_ | outside := elsewhere
      · exact partial_ full
      · have := outside r at_
        omega
  · intro s o t since passed external vec armed
    refine goes_on (exec_evqModTimer o s) ((if_pos (Hw.modDue_of since passed)).trans ((if_neg ?_).trans (if_pos rfl)))
    simp [external, vec, armed]
  · intro s o waits
    refine stays (exec_evqModTimer o s) ?_
    obtain early | internal | off | unarmed := waits
    · exact ite_off early
    · exact ite_shared id (if_pos (by simp [internal])) rfl
    · exact ite_shared id (if_pos (by simp [off])) rfl
    · exact ite_shared id (if_pos (by simp [unarmed])) rfl
  · intro s o host timer first used passed
    refine goes_on (exec_evqServiceLate o s) (if_neg ?_)
    rw [Hw.serviceLate, timer, first]
    simp [host, used, passed]
  · intro s o waits
    refine stays (exec_evqServiceLate o s) (if_pos ?_)
    simp only [Hw.serviceLate, Bool.not_eq_true', Bool.and_eq_false_iff, decide_eq_false_iff_not, not_le, Bool.not_eq_false', bne_eq_false_iff_eq,
      or_assoc]
    exact waits

end Sys2Proof.Machine
end

section
/-!
PROOFS of 11_mailboxes_and_firmware.md: doorbells, aborts, slot RAM, firmware's commands, restarts, owners that end (R20, R21, R327 to R345).
-/
namespace Sys2Proof.Machine

/-! ### Doorbells, aborts and slot RAM -/

/-- A doorbell read of slot `n` of an owner. -/
theorem mbxRingRead_at {s : State} {fn off o n : Nat} (en : Nat) (slot : n < 32) (at_ : s.hw.hostReg fn off = some (0x10000000 + 0x100 * o + 4 * n))
    {c : Nat} {x : Hw} (rung : s.hw.ringSlot o n = (c, x)) :
    exec (.mbxRingRead fn off en) s = .next (s.on (x.answer off en ((x.inFlight o).length * 256 + c))) := by
  refine goes_on (exec_mbxRingRead fn off en s) ?_
  rw [at_]
  have owner : (0x10000000 + 0x100 * o + 4 * n - 0x10000000) / 256 = o := by omega
  have index : (0x10000000 + 0x100 * o + 4 * n) % 256 / 4 = n := by omega
  refine (if_pos ⟨by omega, by omega⟩).trans ?_
  rw [owner, index]
  dsimp only
  rw [rung]

/-- A doorbell of an owner that is not ready. -/
theorem Hw.ringSlot_unready {h : Hw} {o : Nat} (n : Nat) (unready : h.flag (Reg.MBX_OWNER_STATUS o) Fld.MBX_OWNER_STATUS_READY = false) :
    h.ringSlot o n = (3, h) := if_pos (by simp [unready])

/-- A doorbell with 32 commands in flight. -/
theorem Hw.ringSlot_full {h : Hw} {o : Nat} (n : Nat) (ready : h.flag (Reg.MBX_OWNER_STATUS o) Fld.MBX_OWNER_STATUS_READY = true)
    (full : 32 ≤ (h.inFlight o).length) : h.ringSlot o n = (1, h.inc (Reg.MBX_RING_REFUSED o)) :=
  (if_neg (by simp [ready])).trans (if_pos full)

/-- A doorbell of a busy slot. -/
theorem Hw.ringSlot_busy {h : Hw} {o n : Nat} (ready : h.flag (Reg.MBX_OWNER_STATUS o) Fld.MBX_OWNER_STATUS_READY = true)
    (room : (h.inFlight o).length < 32) (busy : (kvGet h.mbx.slots (o * 32 + n)).isSome = true) :
    h.ringSlot o n = (2, h.inc (Reg.MBX_RING_REFUSED o)) :=
  (if_neg (by simp [ready])).trans ((if_neg (Nat.not_le.mpr room)).trans (if_pos busy))

/-- A doorbell that posts its slot, from a copy of it. -/
theorem Hw.ringSlot_posts {h : Hw} {o n : Nat} (ready : h.flag (Reg.MBX_OWNER_STATUS o) Fld.MBX_OWNER_STATUS_READY = true)
    (room : (h.inFlight o).length < 32) (free : kvGet h.mbx.slots (o * 32 + n) = none) :
    h.ringSlot o n = (0, ((h.onMbx (fun m => { m with
      slots := kvPut m.slots (o * 32 + n) ⟨1, (List.range 32).map (h.slotWord o n), m.order, [], false, [], false⟩,
      order := m.order + 1 })).putSlot o n 2 [2 ^ 30]).showMbx o) :=
  (if_neg (by simp [ready])).trans ((if_neg (Nat.not_le.mpr room)).trans (if_neg (by simp [free])))

/-- A full host write of MBX_ABORT. -/
theorem mbxAbortWrite_at {s : State} {fn off o : Nat} (val : Nat) (at_ : s.hw.hostReg fn off = some (0x10000000 + 0x100 * o + 0x80)) {x : Hw}
    (effect : s.hw.abortSlot o (val % 32) = x) : exec (.mbxAbortWrite fn off 15 val) s = .next (s.on x) := by
  refine goes_on (exec_mbxAbortWrite fn off 15 val s) ?_
  rw [at_]
  have owner : (0x10000000 + 0x100 * o + 0x80 - 0x10000000) / 256 = o := by omega
  refine (if_pos ⟨rfl, by omega, by omega⟩).trans ?_
  rw [owner]
  exact effect

/-- An abort of a slot in flight. -/
theorem Hw.abortSlot_of {h : Hw} {o n : Nat} {q : Slot} (there : kvGet h.mbx.slots (o * 32 + n) = some q) :
    h.abortSlot o n = if q.committed then h.setSlot (o * 32 + n) { q with aborted := true }
      else (h.abandonWork (o * 32 + n)).complete (o * 32 + n) cAborted 0 q.partResp := by
  unfold Hw.abortSlot
  rw [there]

/-- An abort of a slot with nothing in flight. -/
theorem Hw.abortSlot_none {h : Hw} {o n : Nat} (none_ : kvGet h.mbx.slots (o * 32 + n) = none) : h.abortSlot o n = h := by
  unfold Hw.abortSlot
  rw [none_]

/-- A full host word of the slot RAM. -/
theorem mbxSlotWrite_at {s : State} {fn off b : Nat} (val : Nat) (dev : Option Nat) (at_ : s.hw.hostAt fn (off / 4 * 4) = .slotRam b) {x : Hw}
    (effect : s.hw.slotRamWrite (fnOwner fn) (b / 4) val dev = x) : exec (.mbxSlotWrite fn off 15 val dev) s = .next (s.on x) := by
  refine goes_on (exec_mbxSlotWrite fn off 15 val dev s) ?_
  rw [at_]
  exact effect

/-! ### Firmware -/

/-- Firmware that runs, or the recovery service, takes a command while its limit is not reached. -/
theorem fwTakeCommand_next {s : State} (buf : Option (List Byte)) (ecc : Bool) {k : Nat} {q : Slot}
    (runs : s.hw.flag Reg.MBX_STATUS Fld.MBX_STATUS_READY = true ∨ s.hw.flag Reg.MBX_STATUS Fld.MBX_STATUS_SAFE_SET = true)
    (room : (s.hw.mbx.slots.filter (fun x => x.2.st == 2)).length < if s.hw.flag Reg.MBX_STATUS Fld.MBX_STATUS_SAFE_SET = true then 1 else 64)
    (next : s.hw.nextCommand = some (k, q)) {x : Hw}
    (effect : (let h := s.hw.onMbx (fun m => { m with turn := k / 32 })
      match h.headerCheck (k / 32) q ecc with
      | some c => h.complete k c 0 []
      | none => match gcsNeeds q.opcode q.payload, buf with
        | true, none => h.complete k cBufErr 0 []
        | _, _ => ((h.setSlot k { q with st := 2, buf := buf.getD [] }).putSlot (k / 32) (k % 32) 2 [2 * 2 ^ 30]).showMbx (k / 32)) = x) :
    exec (.fwTakeCommand buf ecc) s = .next (s.on x) := by
  refine goes_on (exec_fwTakeCommand buf ecc s) ((if_pos (by simpa using runs)).trans ((if_neg (Nat.not_le.mpr room)).trans ?_))
  rw [next]
  exact effect

/-- Where nothing runs, nothing waits or the limit is reached, no command is taken. -/
theorem Hw.takeCommand_none {h : Hw} (buf : Option (List Byte)) (ecc : Bool)
    (waits : h.nextCommand = none ∨
      (if h.flag Reg.MBX_STATUS Fld.MBX_STATUS_SAFE_SET = true then 1 else 64) ≤ (h.mbx.slots.filter (fun x => x.2.st == 2)).length) :
    h.takeCommand buf ecc = h := by
  obtain none_ | full := waits
  · unfold Hw.takeCommand
    rw [none_]
    exact ite_self _
  · exact if_pos full

/-! ### Owners that end -/

/-- What clears an owner's registers and queues leaves the owners. -/
theorem Hw.own_cleared (h : Hw) (o : Nat) : ((h.clearOwnerRegs o).clearOwnerQueues o).own = h.own := rfl

/-- Settles O42: for each command the branches of its row, one clause a branch. -/
theorem mailboxesRingRunAbortAndRestart : Obligations.MailboxesRingRunAbortAndRestart := by
  unfold Obligations.MailboxesRingRunAbortAndRestart
  refine ⟨?_, ?_, ?_, ?_, ?_, ?_, ?_, ?_, ?_, ?_, ?_, ?_, ?_, ?_, ?_, ?_, ?_⟩
  · intro s fn off en o n slot at_ ready copy y x busy
    exact ⟨fun unready => mbxRingRead_at en slot at_ (Hw.ringSlot_unready n unready),
      fun isReady full => mbxRingRead_at en slot at_ (Hw.ringSlot_full n isReady full),
      fun isReady room taken => mbxRingRead_at en slot at_ (Hw.ringSlot_busy isReady room taken),
      fun isReady room free => mbxRingRead_at en slot at_ (Hw.ringSlot_posts isReady room free)⟩
  · intro s fn off en elsewhere
    refine stays (exec_mbxRingRead fn off en s) ?_
    cases at_ : s.hw.hostReg fn off with
    | none => rfl
    | some r =>
      refine if_neg ?_
      rintro ⟨low, bell⟩
      have := elsewhere r at_
      omega
  · intro s fn off val o q at_ there k
    exact ⟨fun open_ => mbxAbortWrite_at val at_ ((Hw.abortSlot_of there).trans (ite_off open_)),
      fun committed => mbxAbortWrite_at val at_ ((Hw.abortSlot_of there).trans (if_pos committed))⟩
  · intro s fn off val o at_ none_
    exact mbxAbortWrite_at val at_ (Hw.abortSlot_none none_)
  · intro s fn off en val elsewhere
    refine stays (exec_mbxAbortWrite fn off en val s) ?_
    cases at_ : s.hw.hostReg fn off with
    | none => rfl
    | some r =>
      refine if_neg ?_
      rintro ⟨full, low, abort⟩
      obtain partial_ | outside := elsewhere
      · exact partial_ full
      · have := outside r at_
        omega
  · intro s fn off val b at_
    exact ⟨mbxSlotWrite_at val none at_ rfl, mbxSlotWrite_at val (some val) at_ (if_pos rfl), fun d other => mbxSlotWrite_at val (some d) at_ (if_neg other)⟩
  · intro s fn off en val dev elsewhere
    refine stays (exec_mbxSlotWrite fn off en val dev s) ?_
    cases at_ : s.hw.hostAt fn (off / 4 * 4) with
    | slotRam b =>
      refine if_neg (fun full => ?_)
      obtain partial_ | outside := elsewhere
      · exact partial_ full
      · exact outside b at_
    | _ => rfl
  · intro s buf ecc k q runs room next h
    refine ⟨fun good plain => ?_, fun b good buffer held => ?_, fun good buffer none_ => ?_, fun c bad => ?_⟩
    · refine fwTakeCommand_next buf ecc runs room next ?_
      dsimp only
      rw [good, plain]
    · refine fwTakeCommand_next buf ecc runs room next ?_
      dsimp only
      rw [good, buffer, held]
      rfl
    · refine fwTakeCommand_next buf ecc runs room next ?_
      dsimp only
      rw [good, buffer, none_]
    · refine fwTakeCommand_next buf ecc runs room next ?_
      dsimp only
      rw [bad]
  · intro s buf ecc waits
    refine stays (exec_fwTakeCommand buf ecc s) ?_
    obtain ⟨unready, unsafe_⟩ | waits := waits
    · exact if_neg (by simp [unready, unsafe_])
    · exact ite_shared id (Hw.takeCommand_none buf ecc waits) rfl
  · intro s ready
    exact goes_on (exec_fwRestart s) (if_pos ready)
  · intro s unready
    exact stays (exec_fwRestart s) (ite_off unready)
  · intro s o t tearing live life x u y
    refine goes_on (exec_teardownDrainEnd o s) ?_
    rw [tearing]
    exact if_neg (by simp [live, life])
  · intro s o waits
    refine stays (exec_teardownDrainEnd o s) ?_
    cases tearing : kvGet s.hw.own.tear o with
    | none => rfl
    | some t =>
      refine if_pos ?_
      obtain none_ | stopped | ⟨t', same, erased⟩ := waits
      · simp [tearing] at none_
      · simp [stopped]
      · obtain rfl := Option.some.inj (tearing.symm.trans same)
        simp [erased]
  · intro s o t tearing erased clears life x
    refine ⟨kvGet_kvDel_same _ _, ?_, ?_⟩
    · exact Bool.eq_false_iff.mpr (fun held => not_mem_without s.hw.own.active o (List.contains_iff_mem.mp held))
    · refine goes_on (exec_ownerNumberFree o s) ?_
      rw [tearing]
      refine (if_neg (by simp [erased, clears, life])).trans ?_
      simp only [Bool.and_eq_true]
      rfl
  · intro s o waits
    refine stays (exec_ownerNumberFree o s) ?_
    cases tearing : kvGet s.hw.own.tear o with
    | none => rfl
    | some t =>
      refine if_pos ?_
      obtain none_ | stopped | clears | ⟨t', same, live⟩ := waits
      · simp [tearing] at none_
      · simp [stopped]
      · simp [clears]
      · obtain rfl := Option.some.inj (tearing.symm.trans same)
        simp [live]
  · intro s o slot retiring used x
    refine ⟨fun busy => ?_, fun idle other => ?_, fun idle one => ?_⟩
    · refine stays (exec_keySlotRetire o s) ?_
      rw [retiring]
      exact if_pos busy
    · refine goes_on (exec_keySlotRetire o s) ?_
      rw [retiring]
      exact (ite_off idle).trans (if_neg other)
    · refine goes_on (exec_keySlotRetire o s) ?_
      rw [retiring]
      exact (ite_off idle).trans (if_pos one)
  · intro s o none_
    refine stays (exec_keySlotRetire o s) ?_
    rw [none_]

end Sys2Proof.Machine
end

section
/-!
PROOFS of 13_security.md and 16_power_clocks_startup.md: start-up of the images, tamper response, debug, loss of power.
-/
namespace Sys2Proof.Machine

/-! ### The boot ROM and the images -/

/-- What the boot ROM shows first: the flash reset, lifecycle and device id. -/
def Hw.romShown (h : Hw) (fu : Fuse) : Hw :=
  (((((h.onPwr (fun p => { p with boot := false })).emit (.pin .xspiRst (some false))).emit (.pin .xspiRst (some true))).setFld
    Reg.SEC_STATUS Fld.SEC_STATUS_LIFECYCLE fu.life).wn Reg.SEC_DEVICE_ID_LO (fu.devId % 2 ^ 32)).wn Reg.SEC_DEVICE_ID_HI (fu.devId / 2 ^ 32 % 2 ^ 32)

/-- The boot ROM of a part that boots, its domains and memory ready. -/
theorem bootRomStart_boots {s : State} (tamper : Nat) (early : Option EarlySet) (copies : List (Option ImageCopy)) (boot : s.hw.pwr.boot = true)
    (rom : s.hw.pg 4 = true) (boots : s.fuse.boots = true) (control : s.hw.pg 5 = true) (memory : s.hw.pg 6 = true)
    (tested : s.hw.flag Reg.MEM_STATUS Fld.MEM_STATUS_READY = true) :
    exec (.bootRomStart tamper early copies) s = .next (s.on (
      if s.hw.flag Reg.SEC_STATUS Fld.SEC_STATUS_TRNG_FAIL then (s.hw.romShown s.fuse).safeSet 3
      else if s.hw.sec.trngDown then s.hw
      else
        let h := s.hw.romShown s.fuse
        let r := Hw.bootSteps { h with sys := { h.sys with copies := copies.take 4 } } s.fuse tamper early
        if r.2 then r.1 else r.1.bootPair s.fuse copies)) :=
  goes_on (exec_bootRomStart tamper early copies s)
    ((if_neg (by simp [boot, rom])).trans ((if_neg (by simp [boots])).trans (if_neg (by simp [control, memory, tested]))))

/-- The trial ends with the first pair that has no cause against it. -/
theorem pairTrial_first {st k : Nat} {c0 c1 s0 s1 : Option ImageCopy}
    (first : (List.range 4).find? (fun k => pairCause st (if k < 2 then c0 else c1) (if k % 2 = 0 then s0 else s1) == 0) = some k) :
    (pairTrial st c0 c1 s0 s1).1 = k := by
  unfold pairTrial
  dsimp only
  rw [first]

/-- With a cause against all four it ends with 7. -/
theorem pairTrial_none {st : Nat} {c0 c1 s0 s1 : Option ImageCopy}
    (none_ : (List.range 4).find? (fun k => pairCause st (if k < 2 then c0 else c1) (if k % 2 = 0 then s0 else s1) == 0) = none) :
    (pairTrial st c0 c1 s0 s1).1 = 7 := by
  unfold pairTrial
  dsimp only
  rw [none_]

/-- The order of the trial. -/
theorem pairTrial_order (st : Nat) (c0 c1 s0 s1 : Option ImageCopy) :
    (pairCause st c0 s0 = 0 → (pairTrial st c0 c1 s0 s1).1 = 0) ∧ (pairCause st c0 s0 ≠ 0 → pairCause st c0 s1 = 0 → (pairTrial st c0 c1 s0 s1).1 = 1) ∧
    (pairCause st c0 s0 ≠ 0 → pairCause st c0 s1 ≠ 0 → pairCause st c1 s0 = 0 → (pairTrial st c0 c1 s0 s1).1 = 2) ∧
    (pairCause st c0 s0 ≠ 0 → pairCause st c0 s1 ≠ 0 → pairCause st c1 s0 ≠ 0 → pairCause st c1 s1 = 0 → (pairTrial st c0 c1 s0 s1).1 = 3) ∧
    (pairCause st c0 s0 ≠ 0 → pairCause st c0 s1 ≠ 0 → pairCause st c1 s0 ≠ 0 → pairCause st c1 s1 ≠ 0 → (pairTrial st c0 c1 s0 s1).1 = 7) := by
  refine ⟨fun a => ?_, fun a b => ?_, fun a b c => ?_, fun a b c d => ?_, fun a b c d => ?_⟩
  · exact pairTrial_first (by simp [List.range_succ, a])
  · exact pairTrial_first (by simp [List.range_succ, a, b])
  · exact pairTrial_first (by simp [List.range_succ, a, b, c])
  · exact pairTrial_first (by simp [List.range_succ, a, b, c, d])
  · exact pairTrial_none (by simp [List.range_succ, a, b, c, d])

/-- An S-image that runs on a good domain and is not held. -/
theorem sImageReady_runs {s : State} (store : Option (Nat × Nat × List (Nat × Nat))) {i : ImageCopy} (image : s.hw.sys.imgS = some i)
    (power : s.hw.pg 4 = true) (free : s.hw.sec.latch = false) (unready : s.hw.flag Reg.SEC_STATUS Fld.SEC_STATUS_READY = false) :
    exec (.sImageReady store) s = .next (s.on (
      let h := (s.hw.wn Reg.MBX_S_VERSION i.version).wn Reg.MBX_EPOCHS (s.hw.rn Reg.MBX_EPOCHS / 2 ^ 16 * 2 ^ 16 + i.epoch % 2 ^ 16)
      let h := if h.rn Reg.SEC_AO_STORE_SEQ = 0 then (h.setFld Reg.SEC_STATUS Fld.SEC_STATUS_STORE_UNANCHORED 1).post 1 0x0B04 0 else h
      ((h.resumeStore store).writeStore.setFld Reg.SEC_JOB_CFG Fld.SEC_JOB_CFG_EN 1).setReady Reg.SEC_STATUS Fld.SEC_STATUS_READY 12)) := by
  refine goes_on (exec_sImageReady store s) ?_
  rw [image]
  exact if_neg (by simp [power, free, unready])

/-- The C-image in force: its version shown, the firmware sealed and ready, every owner that stays ready. -/
def Hw.controlReady (h : Hw) (c : ImageCopy) : Hw :=
  let y := (h.wn Reg.MBX_C_VERSION c.version).wn Reg.MBX_EPOCHS (c.epoch % 2 ^ 16 * 2 ^ 16 + h.rn Reg.MBX_EPOCHS % 2 ^ 16)
  let x := Hw.setReady { y with sys := { y.sys with isSealed := true } } Reg.MBX_STATUS Fld.MBX_STATUS_READY 13
  (x.own.active.filter (fun o => (kvGet x.own.tear o).isNone)).foldl (fun a o => a.setFld (Reg.MBX_OWNER_STATUS o) Fld.MBX_OWNER_STATUS_READY 1) x

/-- A C-image that runs on a good domain, outside the Safe Set and not held. -/
theorem cImageReady_runs {s : State} {c : ImageCopy} (image : s.hw.sys.imgC = some c) (power : s.hw.pg 5 = true)
    (unready : s.hw.flag Reg.MBX_STATUS Fld.MBX_STATUS_READY = false) (normal : s.hw.flag Reg.MBX_STATUS Fld.MBX_STATUS_SAFE_SET = false)
    (free : s.hw.sec.latch = false) :
    let r := (s.hw.controlReady c).tearDue.createVfs.settle
    let fu := if s.hw.sys.pair = 0 then s.fuse.raiseSvn [(1, s.hw.sys.imgS), (2, some c), (3, s.hw.sys.early.map (·.copy))] else s.fuse
    exec .cImageReady s = .next { s with hw := r.rebound r, fuse := fu } := by
  dsimp only
  rw [exec_cImageReady, execCImageReady, onBoth_next, image]
  dsimp only
  rw [if_neg (by simp [power, unready, normal, free])]
  rfl

/-- Otherwise it does not report. -/
theorem cImageReady_waits {s : State} (waits : s.hw.sys.imgC = none ∨ s.hw.pg 5 = false ∨ s.hw.flag Reg.MBX_STATUS Fld.MBX_STATUS_READY = true ∨
    s.hw.flag Reg.MBX_STATUS Fld.MBX_STATUS_SAFE_SET = true ∨ s.hw.sec.latch = true) : exec .cImageReady s = .next s := by
  rw [exec_cImageReady, execCImageReady, onBoth_next]
  cases image : s.hw.sys.imgC with
  | none => rfl
  | some c =>
    dsimp only
    rw [if_pos]
    obtain none_ | off | ready | safe | held := waits
    · simp [image] at none_
    · simp [off]
    · simp [ready]
    · simp [safe]
    · simp [held]

/-! ### Tamper response -/

/-- A detection that counts. -/
theorem tamperDetect_of {s : State} {sources : Nat} (on_ : s.hw.tamperOn s.fuse sources ≠ 0) (power : s.hw.pg 4 = true) (boots : s.fuse.boots = true)
    {x y : Hw}
    (counted : s.hw.add Reg.SEC_GLITCH_EVENTS ((bitsOf 5 (s.hw.tamperOn s.fuse sources)).filter (fun i => decide (2 ≤ i))).length = x)
    (effect : (if x.flag Reg.MBX_STATUS Fld.MBX_STATUS_SAFE_SET then (x.tamperLog (s.hw.tamperOn s.fuse sources)).stopFlash
      else if x.sec.tamper = 0 then x.tamperBegin (s.hw.tamperOn s.fuse sources)
      else if x.clk ≤ x.sec.tamperAt + 2500 then x.tamperLog (s.hw.tamperOn s.fuse sources) else x) = y) :
    exec (.tamperDetect sources) s = .next (s.on y) := by
  subst counted
  exact goes_on (exec_tamperDetect sources s) ((if_neg (by simp [on_, power, boots])).trans effect)

/-- The start of a tamper response latches it and stops admission. -/
theorem Hw.sec_tamperBegin (h : Hw) (src : Nat) :
    (h.tamperBegin src).sec = { h.sec with latch := true, admits := false, tamper := 1, tamperAt := h.clk } := by
  unfold Hw.tamperBegin
  exact Hw.post_sec _ _ _ _ _ _ _ _

/-- The device without its frames, tables and owners' keys, with a new key for owner 2. -/
def Hw.emptied (h : Hw) : Hw :=
  let y := h.drawn.drawn.onOwn (fun w => { w with keys := [(2, BitVec.ofNat 256 (h.draw * 2 ^ 128 + h.drawn.draw))] })
  { y with
    swc := { y.swc with
      frames := [], samples := [], lossQ := [], cells := emptyCells y.swc.cells, leaked := [], suspect := [], touched := [], rx := [], tx := [] }
    fwd := { y.fwd with
      em := [], stashAge := [], lagA := [], lagB := [], lpm := [], acl := [], changes := [], shadow := Shadow.reset, struck := [] }
    brg := { y.brg with rules := [] }
    vie := { y.vie with s := [] } }

/-- The Early Set in force applied again, without the public keys it brought. -/
def Hw.earlyAgain (h : Hw) : Hw :=
  match h.sys.early with
  | some e => (h.applyEarly e).onSec (fun x => { x with pubs := [] })
  | none => h

/-- In the third phase of a response the device resumes in the Safe Set. -/
theorem tamperSafeResume_phase {s : State} (phase : s.hw.sec.tamper = 3) :
    exec .tamperSafeResume s = .next (s.on ((s.hw.emptied.earlyAgain.onSec (fun x => { x with tamper := 4, admits := true })).safeSet 2)) :=
  goes_on (exec_tamperSafeResume s) (if_neg (not_not.mpr phase))

/-- Without an Early Set. -/
theorem Hw.earlyAgain_none {h : Hw} (none_ : h.sys.early = none) :
    (h.earlyAgain.onSec (fun x => { x with tamper := 4, admits := true })).safeSet 2 =
      (h.onSec (fun x => { x with tamper := 4, admits := true })).safeSet 2 := by
  unfold Hw.earlyAgain
  rw [none_]

/-- With one. -/
theorem Hw.earlyAgain_some {h : Hw} {e : EarlySet} (there : h.sys.early = some e) :
    (h.earlyAgain.onSec (fun x => { x with tamper := 4, admits := true })).safeSet 2 =
      (((h.applyEarly e).onSec (fun x => { x with pubs := [] })).onSec (fun x => { x with tamper := 4, admits := true })).safeSet 2 := by
  unfold Hw.earlyAgain
  rw [there]

/-! ### Debug and loss of power -/

/-- A JTAG session at a level that the lifecycle allows. -/
theorem jtagDebugUnlock_allowed {s : State} {level : Nat} (key sig : List Byte) (domain : s.hw.domOn 4 = true) (low : 2 ≤ level)
    (high : level ≤ debugMax s.fuse.life) :
    exec (.jtagDebugUnlock level key sig) s = .next (s.on (
      if sig.isEmpty then
        if s.hw.sec.trngDown || s.hw.flag Reg.SEC_STATUS Fld.SEC_STATUS_TRNG_FAIL then s.hw
        else (s.hw.challenge.2.onSec (fun x => { x with dbgChal := some s.hw.challenge.1 })).emit (.jtag (toBe 32 s.hw.challenge.1))
      else if s.fuse.debugProof level s.hw.sec.dbgChal key sig then s.hw.debugGrant level else s.hw)) :=
  goes_on (exec_jtagDebugUnlock level key sig s) (if_neg (by simp [domain, Nat.not_lt.mpr low, Nat.not_lt.mpr high]))

/-- The lifecycle advances under way at a loss of power. -/
def Hw.advances (h : Hw) : List Slot :=
  (h.mbx.slots.filter (fun x => x.2.st == 2 && x.2.opcode == 0x0A02 && !x.2.checkOnly && !x.2.committed)).map (·.2)

/-- The fuses after a loss of power: of an advance under way the copies are programmed or not. -/
def Fuse.afterLoss (fu : Fuse) (h : Hw) (programmed : Bool) : Fuse :=
  match programmed, h.advances with
  | true, q :: _ => (match h.gcsAdvance fu q with
    | .ok _ _ => (fu.advance (q.w 0) h.sec.chal q.buf).getD fu
    | _ => fu)
  | _, _ => fu

/-- What a loss of power leaves of the device: nothing but its clock, its free values and its outputs. -/
def Hw.unpowered (h : Hw) : Hw :=
  Hw.onPwr { Hw.reset with clk := h.clk, free := h.free, out := h.out } (fun p => { p with
    powered := false, busy := false, startUp := false, goal := 0, regUp := none })

/-- Loss of power. -/
theorem powerLoss_eq (s : State) (programmed : Bool) :
    exec (.powerLoss programmed) s = .next { s with fuse := s.fuse.afterLoss s.hw programmed, hw := s.hw.unpowered } := rfl

/-- Where none is programmed, or none is under way, the fuses stay. -/
theorem Fuse.afterLoss_none {fu : Fuse} {h : Hw} {programmed : Bool} (none_ : programmed = false ∨ h.advances = []) :
    fu.afterLoss h programmed = fu := by
  unfold Fuse.afterLoss
  obtain rfl | idle := none_
  · rfl
  · rw [idle]
    cases programmed <;> rfl

/-- An advance under way that is programmed and passes its checks gives its fuses. -/
theorem Fuse.afterLoss_programmed {fu new : Fuse} {h x : Hw} {q : Slot} {rest : List Slot} {ws : List Nat} (first : h.advances = q :: rest)
    (proof_ : fu.advance (q.w 0) h.sec.chal q.buf = some new) (passes : h.gcsAdvance fu q = .ok x ws) : fu.afterLoss h true = new := by
  unfold Fuse.afterLoss
  rw [first]
  dsimp only
  rw [passes, proof_]
  rfl

/-- Settles O43: for each command the branches of its row, one clause a branch. -/
theorem startUpRunsImagesAndTamperErases : Obligations.StartUpRunsImagesAndTamperErases := by
  unfold Obligations.StartUpRunsImagesAndTamperErases
  refine ⟨?_, ?_, ?_, pairTrial_order, ?_, ?_, ?_, ?_, ?_, ?_, ?_, ?_, ?_, ?_, ?_, ?_, ?_, ?_, ?_, ?_, ?_⟩
  · intro s tamper early copies boot rom barred
    exact goes_on (exec_bootRomStart tamper early copies s) ((if_neg (by simp [boot, rom])).trans (if_pos (by simp [barred])))
  · intro s tamper early copies boot rom boots control memory tested y x r
    have started := bootRomStart_boots tamper early copies boot rom boots control memory tested
    refine ⟨fun failed => ?_, fun fine down => ?_, fun fine up => ?_⟩
    · exact next_of_same started (if_pos failed)
    · exact next_of_same started ((ite_off fine).trans (if_pos down))
    · exact next_of_same started ((ite_off fine).trans (ite_off up))
  · intro s tamper early copies waits
    refine stays (exec_bootRomStart tamper early copies s) ?_
    obtain noBoot | noRom | ⟨boots, missing⟩ := waits
    · exact if_pos (by simp [noBoot])
    · exact if_pos (by simp [noRom])
    · refine ite_shared id rfl ((if_neg (by simp [boots])).trans (if_pos ?_))
      obtain control | memory | untested := missing
      · simp [control]
      · simp [memory]
      · simp [untested]
  · intro s store i image power free unready y z ready
    have started := sImageReady_runs store image power free unready
    exact ⟨fun unanchored => next_of_same started (by dsimp only; rw [if_pos unanchored]),
      fun anchored => next_of_same started (by dsimp only; rw [if_neg anchored])⟩
  · intro s store waits
    refine stays (exec_sImageReady store s) ?_
    cases image : s.hw.sys.imgS with
    | none => rfl
    | some i =>
      refine if_pos ?_
      obtain none_ | off | held | ready := waits
      · simp [image] at none_
      · simp [off]
      · simp [held]
      · simp [ready]
  · intro s c image power unready safe free y x z r fu
    exact cImageReady_runs image power unready safe free
  · intro s waits
    exact cImageReady_waits waits
  · intro s power l x
    exact ⟨fun few => goes_on (exec_trngHealthFail s) ((if_neg (by simp [power])).trans (if_neg (Nat.not_le.mpr few))),
      fun many => goes_on (exec_trngHealthFail s) ((if_neg (by simp [power])).trans (if_pos many))⟩
  · intro s off
    exact stays (exec_trngHealthFail s) (if_pos (by simp [off]))
  · intro s
    exact exec_trngRestartDone s
  · intro s sources on_ power boots src x
    refine ⟨fun notSafe first => ?_, fun notSafe again soon => ?_, fun notSafe again late => ?_, fun safe => ?_⟩
    · exact ⟨_, tamperDetect_of on_ power boots rfl ((ite_off notSafe).trans (if_pos first)), rfl, Hw.sec_tamperBegin _ _⟩
    · exact tamperDetect_of on_ power boots rfl ((ite_off notSafe).trans ((if_neg again).trans (if_pos soon)))
    · exact tamperDetect_of on_ power boots rfl ((ite_off notSafe).trans ((if_neg again).trans (if_neg (Nat.not_le.mpr late))))
    · exact tamperDetect_of on_ power boots rfl (if_pos safe)
  · intro s sources quiet
    exact stays (exec_tamperDetect sources s) (if_pos quiet)
  · intro s phase x y
    exact ⟨_, goes_on (exec_tamperKeyZeroise s) (if_neg (not_not.mpr phase)), rfl, rfl, rfl, rfl, rfl, rfl, rfl, rfl⟩
  · intro s phase
    exact goes_on (exec_tamperCisternWipe s) (if_neg (not_not.mpr phase))
  · intro s phase y z
    refine ⟨fun none_ => ?_, fun e there => ?_⟩
    · exact next_of_same (tamperSafeResume_phase phase) (Hw.earlyAgain_none (h := s.hw.emptied) none_)
    · exact next_of_same (tamperSafeResume_phase phase) (Hw.earlyAgain_some (h := s.hw.emptied) there)
  · intro s phase
    exact goes_on (exec_tamperControlRestart s) (if_neg (not_not.mpr phase))
  · intro s
    exact ⟨fun other => stays (exec_tamperKeyZeroise s) (if_pos other), fun other => stays (exec_tamperCisternWipe s) (if_pos other),
      fun other => stays (exec_tamperSafeResume s) (if_pos other), fun other => stays (exec_tamperControlRestart s) (if_pos other)⟩
  · intro s level key sig domain low high
    have session := jtagDebugUnlock_allowed key sig domain low high
    refine ⟨fun asks up fine => ?_, fun signed good => ?_, fun signed bad => ?_⟩
    · exact next_of_same session ((if_pos (by simp [asks])).trans (if_neg (by simp [up, fine])))
    · exact next_of_same session ((if_neg (by simpa using signed)).trans (if_pos good))
    · exact next_of_same session ((if_neg (by simpa using signed)).trans (ite_off bad))
  · intro s level key sig refused
    refine stays (exec_jtagDebugUnlock level key sig s) ?_
    obtain off | low | high | ⟨asks, down | failed⟩ := refused
    · exact if_pos (by simp [off])
    · exact if_pos (by simp [low])
    · exact if_pos (by simp [high])
    · exact ite_shared id rfl ((if_pos (by simp [asks])).trans (if_pos (by simp [down])))
    · exact ite_shared id rfl ((if_pos (by simp [asks])).trans (if_pos (by simp [failed])))
  · intro s programmed ws
    refine ⟨_, powerLoss_eq s programmed, rfl, rfl, rfl, rfl, rfl, rfl, rfl, fun none_ => Fuse.afterLoss_none none_, ?_⟩
    rintro q rest fu rfl first proof_ ⟨x, ws', passes⟩
    exact Fuse.afterLoss_programmed first proof_ passes

end Sys2Proof.Machine
end

section
/-!
PROOFS of 13_security.md: jobs take slots and end (R391 to R395).
-/
namespace Sys2Proof.Machine

/-- The oldest frame at P27 that nothing holds up. -/
theorem jobFrameReceive_of {s : State} {f : Frame}
    (there : s.hw.copyAt 27 (fun f => !s.hw.jobBlocked f && !s.hw.jobHeld f.owner (segOf (parseHdr (s.hw.jobBytes f)).body)) = some f) {x : Hw}
    (effect : (let d := parseHdr (s.hw.jobBytes f)
      if s.hw.isJobFrame f d = false then (s.hw.takeAt 27 f).inc Reg.SEC_JOB_REJECT
      else
        let g := segOf d.body
        match s.hw.jobOf f.owner g.tag with
        | some e => if g.first then ((s.hw.freeSlot e.1).jobEarlyEnd e.2 jsSeg).jobStart f d.sa g else (s.hw.takeAt 27 f).jobSegment e.1 e.2 g f.cls
        | none => if g.first then s.hw.jobStart f d.sa g else s.hw.takeAt 27 f) = x) :
    exec .jobFrameReceive s = .next (s.on x) := by
  refine goes_on (exec_jobFrameReceive s) ?_
  rw [there]
  exact effect

/-- A first segment of an owner with its limit of slots is refused. -/
theorem Hw.jobStart_limit {h : Hw} {f : Frame} (src : Nat) (g : Seg) (limit : h.fld Reg.SEC_JOB_CFG Fld.SEC_JOB_CFG_OWNER_MAX ≤ h.jobsOf f.owner) :
    h.jobStart f src g = (h.takeAt 27 f).jobEarlyEnd (g.job f src).1 jsLimit := if_pos limit

/-- With nobody waiting and a slot free it starts. -/
theorem Hw.jobStart_free {h : Hw} {f : Frame} {slot : Nat} (src : Nat) (g : Seg)
    (room : h.jobsOf f.owner < h.fld Reg.SEC_JOB_CFG Fld.SEC_JOB_CFG_OWNER_MAX) (nobody : h.jobQueue = []) (free : h.freeJobSlot = some slot) :
    h.jobStart f src g = (h.takeAt 27 f).jobFirst slot f src g := by
  refine (if_neg (Nat.not_le.mpr room)).trans ?_
  rw [nobody, free]

/-- Otherwise it waits in order. -/
theorem Hw.jobStart_waits {h : Hw} {f : Frame} (src : Nat) (g : Seg)
    (room : h.jobsOf f.owner < h.fld Reg.SEC_JOB_CFG Fld.SEC_JOB_CFG_OWNER_MAX) (behind : h.jobQueue ≠ [] ∨ h.freeJobSlot = none) :
    h.jobStart f src g = h.onSec (fun x => { x with waiting := x.waiting ++ [f.id] }) := by
  refine (if_neg (Nat.not_le.mpr room)).trans ?_
  cases free : h.freeJobSlot with
  | none => rfl
  | some slot =>
    cases queue : h.jobQueue with
    | nil =>
      obtain some_ | none_ := behind
      · exact absurd queue some_
      · simp [free] at none_
    | cons i rest => rfl

/-- An empty queue forgets nothing. -/
theorem Hw.jobQueue_empty {h : Hw} (nobody : h.sec.waiting = []) : h.onSec (fun x => { x with waiting := h.jobQueue }) = h := by
  have same : h.jobQueue = h.sec.waiting := by
    rw [Hw.jobQueue, nobody]
    rfl
  rw [same]
  rfl

/-- Settles O44: for each command the branches of its row, one clause a branch. -/
theorem jobsTakeSlotsAndEnd : Obligations.JobsTakeSlotsAndEnd := by
  unfold Obligations.JobsTakeSlotsAndEnd
  refine ⟨?_, ?_, ?_, ?_, ?_, ?_, ?_, ?_, ?_⟩
  · intro s f there rejected
    exact jobFrameReceive_of there (if_pos rejected)
  · intro s f there d g isJob
    have taken : ¬ s.hw.isJobFrame f (parseHdr (s.hw.jobBytes f)) = false := ne_false_of_eq_true isJob
    refine ⟨fun none_ first => ?_, fun none_ later => ?_, fun e running later => ?_, fun e running first => ?_⟩
    all_goals refine jobFrameReceive_of there ((if_neg taken).trans ?_); dsimp only
    · rw [show s.hw.jobOf f.owner (segOf (parseHdr (s.hw.jobBytes f)).body).tag = none from none_]
      exact if_pos first
    · rw [show s.hw.jobOf f.owner (segOf (parseHdr (s.hw.jobBytes f)).body).tag = none from none_]
      exact ite_off later
    · rw [show s.hw.jobOf f.owner (segOf (parseHdr (s.hw.jobBytes f)).body).tag = some e from running]
      exact ite_off later
    · rw [show s.hw.jobOf f.owner (segOf (parseHdr (s.hw.jobBytes f)).body).tag = some e from running]
      exact if_pos first
  · intro s none_
    refine stays (exec_jobFrameReceive s) ?_
    rw [none_]
  · intro h f src g
    exact ⟨fun limit => Hw.jobStart_limit src g limit, fun room nobody slot free => Hw.jobStart_free src g room nobody free,
      fun room behind => Hw.jobStart_waits src g room behind⟩
  · intro s i slot rest f
    dsimp only
    intro waiting free there open_
    refine ⟨fun room => ?_, fun limit => ?_⟩
    all_goals refine goes_on (exec_jobSlotAllocate s) ?_; dsimp only; rw [waiting, free]; dsimp only; rw [there]; dsimp only; rw [ite_off open_]
    · exact if_neg (Nat.not_le.mpr room)
    · exact if_pos limit
  · intro s
    dsimp only
    intro waits
    refine goes_on (exec_jobSlotAllocate s) ?_
    dsimp only
    obtain nobody | full | ⟨i, rest, f, waiting, there, held⟩ := waits
    · rw [nobody]
    · rw [full]
      cases (s.hw.onSec (fun x => { x with waiting := s.hw.jobQueue })).sec.waiting <;> rfl
    · rw [waiting]
      cases (s.hw.onSec (fun x => { x with waiting := s.hw.jobQueue })).freeJobSlot with
      | none => rfl
      | some slot =>
        dsimp only
        rw [there]
        exact if_pos held
  · intro s nobody
    refine stays (exec_jobSlotAllocate s) ?_
    dsimp only
    rw [Hw.jobQueue_empty nobody, nobody]
  · intro s slot j running
    refine ⟨fun idle => ?_, fun busy => ?_⟩
    · refine goes_on (exec_jobIdleTimeout slot s) ?_
      rw [running]
      exact if_neg (Nat.not_lt.mpr idle)
    · refine stays (exec_jobIdleTimeout slot s) ?_
      rw [running]
      exact if_pos busy
  · intro s slot none_
    refine stays (exec_jobIdleTimeout slot s) ?_
    rw [none_]

end Sys2Proof.Machine
end

section
/-!
PROOFS of 14_on_chip_memories.md: accesses of the general banks (R398 to R406, R408).
-/
namespace Sys2Proof.Machine

/-- A bank that its owner may access in this cycle: open, awake, nothing clearing, in test or waiting. -/
def Hw.bankOpen (h : Hw) (bank owner off : Nat) : Prop :=
  h.bankFld bank Fld.MEM_BANK_OWNER_OWNER = owner ∧ h.mem.off.contains (32 + bank) = false ∧ h.bankFld bank Fld.MEM_BANK_OWNER_RETAINED = 0 ∧
    h.bankFld bank Fld.MEM_BANK_OWNER_CLEARING = 0 ∧ h.marchHolds bank off = false ∧ h.bankTaken bank = false ∧ kvGetD h.mem.wait bank [] = []

/-- What an access leaves before it acts: its wait counted and the bank taken for the cycle. -/
def Hw.bankTook (h : Hw) (bank : Nat) (q : BankReq) : Hw :=
  (h.add (Reg.MEM_CONFLICT q.master) (h.clk - q.at_)).onMem (fun m => { m with last := kvPut m.last bank (h.clk, q.master) })

/-- An access of a bank that is open is served. -/
theorem Hw.bankAccess_open {h : Hw} {bank : Nat} {q : BankReq} (isOpen : h.bankOpen bank q.owner q.off) :
    h.bankAccess bank q = (h.bankTook bank q).bankDo bank q := by
  obtain ⟨owner, tested, awake, clear, free, untaken, nobody⟩ := isOpen
  have notHeld : h.bankHeld bank q = false := by simp [Hw.bankHeld, free, clear]
  refine (if_neg (not_not.mpr owner)).trans ((ite_off tested).trans ((if_neg (by omega)).trans ((if_neg ?_).trans rfl)))
  rw [notHeld, untaken, nobody]
  exact Bool.false_ne_true

/-- An access of another owner is refused. -/
theorem Hw.bankAccess_foreign {h : Hw} {bank : Nat} {q : BankReq} (foreign : h.bankFld bank Fld.MEM_BANK_OWNER_OWNER ≠ q.owner) :
    h.bankAccess bank q = h.bankRefuse bank q := if_pos foreign

/-- During a clear, in a chunk under test, or in a cycle that the bank has served an access in, an access waits. -/
theorem Hw.bankAccess_waits {h : Hw} {bank : Nat} {q : BankReq} (owner : h.bankFld bank Fld.MEM_BANK_OWNER_OWNER = q.owner)
    (tested : h.mem.off.contains (32 + bank) = false) (awake : h.bankFld bank Fld.MEM_BANK_OWNER_RETAINED = 0)
    (busy : h.bankFld bank Fld.MEM_BANK_OWNER_CLEARING = 1 ∨ h.marchHolds bank q.off = true ∨ h.bankTaken bank = true) :
    h.bankAccess bank q = h.onMem (fun m => { m with wait := kvMod m.wait bank [] (· ++ [q]) }) := by
  refine (if_neg (not_not.mpr owner)).trans ((ite_off tested).trans ((if_neg (by omega)).trans (if_pos ?_)))
  obtain clears | held | taken := busy
  · simp [Hw.bankHeld, clears, owner]
  · simp [Hw.bankHeld, held]
  · simp [taken]

/-- An access that names a bank, a master, a width and an operation. -/
theorem bankAccess_named {s : State} {bank master width off op : Nat} (owner value ecc : Nat) (named : bank < 16) (port : master < 7)
    (widths : width = 1 ∨ width = 2 ∨ width = 4 ∨ width = 8) (fits : off + width ≤ bankBytes) (operation : op < 4) (power : s.hw.pg 6 = true) :
    exec (.bankAccess bank master owner op width off value ecc) s =
      .next (s.on (s.hw.bankAccess bank ⟨master, presented master owner, op, width, off, value, 15, s.hw.clk, ecc⟩)) :=
  goes_on (exec_bankAccess bank master owner op width off value ecc s) (if_pos ⟨named, port, widths, fits, operation, power⟩)

/-- An operation on bytes without an uncorrectable error. -/
theorem Hw.bankDo_clean {h : Hw} {bank : Nat} {q : BankReq} (aligned : 2 ≤ q.op → q.off % q.width = 0 ∧ 4 ≤ q.width)
    (partial_ : ¬ (q.op = 1 ∧ q.width = 8 ∧ q.off % 8 = 0)) (ecc : q.ecc = 0) (full : q.en = 15)
    (good : h.mem.bad.contains ((bank * bankBytes + q.off) / 8) = false) :
    h.bankDo bank q =
      let a := bank * bankBytes + q.off
      let old := readMem h.mem.ram a q.width
      let x := h.emit (.bank q.master a old)
      match q.op with
      | 0 => x
      | 1 => h.onMem (fun m => { m with ram := writeMem m.ram a q.width q.value })
      | 2 => x.onMem (fun m => { m with ram := writeMem m.ram a q.width (old + q.value) })
      | _ => x.onMem (fun m => { m with ram := writeMem m.ram a q.width q.value }) := by
  obtain ⟨master, owner, op, width, off, value, en, at_, e⟩ := q
  dsimp only at aligned partial_ ecc full good
  subst ecc full
  refine (if_neg ?_).trans ((if_neg partial_).trans ((ite_off good).trans rfl))
  rintro ⟨atomic, wrong⟩
  obtain ⟨even, wide⟩ := aligned atomic
  exact wrong.elim (absurd even) (Nat.not_lt.mpr wide)

/-- An operation that reads and writes, on bytes it may not, is refused. -/
theorem Hw.bankDo_denied {h : Hw} {bank : Nat} {q : BankReq} (atomic : 2 ≤ q.op) (wrong : q.off % q.width ≠ 0 ∨ q.width < 4) :
    h.bankDo bank q = (h.emit (.bank q.master (bank * bankBytes + q.off) 0)).inc Reg.MEM_BANK_DENIED := if_pos ⟨atomic, wrong⟩

/-- A write stores its value; of the words with an uncorrectable error one less may be left. -/
theorem Hw.bankDo_write {h : Hw} {bank : Nat} {q : BankReq} (write : q.op = 1) (ecc : q.ecc = 0) (full : q.en = 15)
    (good : h.mem.bad.contains ((bank * bankBytes + q.off) / 8) = false) :
    ∃ bad, h.bankDo bank q = h.onMem (fun m => { m with bad := bad, ram := writeMem m.ram (bank * bankBytes + q.off) q.width q.value }) := by
  by_cases whole : q.op = 1 ∧ q.width = 8 ∧ q.off % 8 = 0
  · exact ⟨_, (if_neg (by omega)).trans (if_pos whole)⟩
  · refine ⟨h.mem.bad, (Hw.bankDo_clean (by omega) whole ecc full good).trans ?_⟩
    dsimp only
    rw [write]
    rfl

/-- Settles O45: an open bank serves its owner; what an access does to its bytes; who waits and who is refused. -/
theorem generalBanksReadWhatWasWritten : Obligations.GeneralBanksReadWhatWasWritten := by
  unfold Obligations.GeneralBanksReadWhatWasWritten
  refine ⟨?_, ?_, ?_, ?_, ?_, ?_, ?_, ?_⟩
  · intro s bank master owner width off value named port widths fits power own tested awake clear free untaken nobody good wf
    have isOpen : s.hw.bankOpen bank (presented master owner) off := ⟨own, tested, awake, clear, free, untaken, nobody⟩
    obtain ⟨bad, written⟩ := Hw.bankDo_write (h := s.hw.bankTook bank ⟨master, presented master owner, 1, width, off, value, 15, s.hw.clk, 0⟩)
      (bank := bank) (q := ⟨master, presented master owner, 1, width, off, value, 15, s.hw.clk, 0⟩) rfl rfl rfl good
    refine ⟨_, next_of_same (bankAccess_named owner value 0 named port widths fits (by decide) power) ((Hw.bankAccess_open isOpen).trans written), rfl,
      readMem_writeMem _ _ _ _ wf, fun a outside => readByte_writeMem_outside _ _ _ _ _ outside, memWf_writeMem _ _ _ _ wf, fun r other => ?_, rfl⟩
    exact Hw.rn_add_ne s.hw _ other
  · intro s bank master owner op width off value named port widths fits power own tested awake clear free untaken nobody good a old z x
    have isOpen : s.hw.bankOpen bank (presented master owner) off := ⟨own, tested, awake, clear, free, untaken, nobody⟩
    refine ⟨?_, ?_, ?_, ?_⟩
    · rintro rfl
      refine next_of_same (bankAccess_named owner value 0 named port widths fits (by decide) power) ((Hw.bankAccess_open isOpen).trans
        (Hw.bankDo_clean (q := ⟨master, presented master owner, 0, width, off, value, 15, s.hw.clk, 0⟩) (by simp) (by simp) rfl rfl good))
    · rintro rfl wide aligned
      refine next_of_same (bankAccess_named owner value 0 named port widths fits (by decide) power) ((Hw.bankAccess_open isOpen).trans
        (Hw.bankDo_clean (q := ⟨master, presented master owner, 2, width, off, value, 15, s.hw.clk, 0⟩) (fun _ => ⟨aligned, wide⟩) (by simp) rfl rfl good))
    · rintro rfl wide aligned
      refine next_of_same (bankAccess_named owner value 0 named port widths fits (by decide) power) ((Hw.bankAccess_open isOpen).trans
        (Hw.bankDo_clean (q := ⟨master, presented master owner, 3, width, off, value, 15, s.hw.clk, 0⟩) (fun _ => ⟨aligned, wide⟩) (by simp) rfl rfl good))
    · intro atomic wrong
      exact next_of_same (bankAccess_named owner value 0 named port widths fits (by omega) power) ((Hw.bankAccess_open isOpen).trans
        (Hw.bankDo_denied (q := ⟨master, presented master owner, op, width, off, value, 15, s.hw.clk, 0⟩) (by show 2 ≤ op; omega) wrong.symm))
  · intro s bank master owner op width off value ecc named port widths fits operation power
    exact bankAccess_named owner value ecc named port widths fits operation power
  · intro s bank master owner op width off value ecc unnamed
    refine stays (exec_bankAccess bank master owner op width off value ecc s) (if_neg ?_)
    rintro ⟨named, port, widths, fits, operation, power⟩
    obtain far | far | narrow | long | other | down := unnamed
    · omega
    · omega
    · omega
    · omega
    · omega
    · simp [power] at down
  · intro h bank q foreign
    exact Hw.bankAccess_foreign foreign
  · intro h bank q owner tested awake busy
    exact Hw.bankAccess_waits owner tested awake busy
  · intro s fn off en b
    refine ⟨fun at_ => ?_, fun at_ => ?_⟩
    · refine goes_on (exec_apertureAddRead fn off en s) ?_
      rw [at_]
      rfl
    · refine goes_on (exec_apertureSwapRead fn off en s) ?_
      rw [at_]
      rfl
  · intro s fn off en
    refine ⟨fun elsewhere => ?_, fun elsewhere => ?_⟩
    · refine stays (exec_apertureAddRead fn off en s) ?_
      split
      · next b at_ => exact absurd at_ (elsewhere b)
      · rfl
    · refine stays (exec_apertureSwapRead fn off en s) ?_
      split
      · next b at_ => exact absurd at_ (elsewhere b)
      · rfl

end Sys2Proof.Machine
end

section
/-!
PROOFS of 14_on_chip_memories.md: banks that clear and wake, and the March engine (R401, R402, R408 to R413, R455).
-/
namespace Sys2Proof.Machine

/-! ### Cleared bytes -/

/-- A memory reduced to some of its addresses reads 0 at the others. -/
theorem readByte_filter (m : List Host.Cell) (p : Nat → Bool) (a : Nat) :
    readByte (m.filter (fun c => p c.1)) a = if p a then readByte m a else 0 := by
  induction m with
  | nil => exact (ite_self _).symm
  | cons c m ih =>
    by_cases kept : p c.1 = true
    · rw [List.filter_cons_of_pos (p := fun c : Host.Cell => p c.1) kept, readByte, readByte, ih]
      by_cases here : c.1 = a
      · rw [if_pos here, if_pos here, if_pos (here ▸ kept)]
      · rw [if_neg here, if_neg here]
    · rw [List.filter_cons_of_neg (p := fun c : Host.Cell => p c.1) kept, readByte, ih]
      by_cases here : c.1 = a
      · rw [if_neg (here ▸ kept), if_neg (here ▸ kept)]
      · rw [if_neg here]

/-- A cleared range reads 0. -/
theorem readByte_clearMem_inside (m : List Host.Cell) {a n b : Nat} (low : a ≤ b) (high : b < a + n) : readByte (clearMem m a n) b = 0 := by
  refine (readByte_filter m (fun x => decide (x < a) || decide (a + n ≤ x)) b).trans (if_neg ?_)
  simp [low, high]

/-- Outside the range every byte stays. -/
theorem readByte_clearMem_outside (m : List Host.Cell) {a n b : Nat} (outside : b < a ∨ a + n ≤ b) :
    readByte (clearMem m a n) b = readByte m b := by
  refine (readByte_filter m (fun x => decide (x < a) || decide (a + n ≤ x)) b).trans (if_pos ?_)
  simpa using outside

/-! ### Ends of clears and tests -/

/-- A bank whose clear has ended: its bytes 0, handed over to its owner. -/
def Hw.clearHanded (h : Hw) (bank : Nat) : Hw :=
  let x := h.onMem (fun m => { m with
    ram := clearMem m.ram (bank * bankBytes) bankBytes, bad := m.bad.filter (fun w => w * 8 / bankBytes != bank), old := kvDel m.old bank })
  let y := ((x.setBank bank Fld.MEM_BANK_OWNER_CLEARING 0).setBank bank Fld.MEM_BANK_OWNER_RETAINED 0).setBank bank Fld.MEM_BANK_OWNER_WAKING 0
  (y.handover bank (kvGetD h.mem.old bank (1, 0)).1 (y.bankFld bank Fld.MEM_BANK_OWNER_OWNER) false).grantDone bank

/-- With no further hand-over pending, the bank resumes. -/
theorem Hw.clearEnd_last {h : Hw} {bank : Nat} (none_ : kvGetD (h.clearHanded bank).mem.pend bank [] = []) :
    h.clearEnd bank = (h.clearHanded bank).bankResume bank := by
  unfold Hw.clearHanded at none_
  unfold Hw.clearEnd
  dsimp only at none_ ⊢
  rw [none_]
  rfl

/-- Otherwise the next one begins. -/
theorem Hw.clearEnd_next {h : Hw} {bank o : Nat} {p : Bool} {k : Option Nat} {ps : List (Nat × Bool × Option Nat)}
    (next : kvGetD (h.clearHanded bank).mem.pend bank [] = (o, p, k) :: ps) :
    h.clearEnd bank =
      let z := h.clearHanded bank
      ((z.onMem (fun m => { m with pend := kvPut m.pend bank ps })).ownerWrite bank
        (if (z.own.active.contains o && (kvGet z.own.tear o).isNone) = true then o else 1) p k).bankResume bank := by
  unfold Hw.clearHanded at next
  unfold Hw.clearEnd
  dsimp only at next ⊢
  rw [next]
  rfl

/-- A run of the March engine that steps to its next chunk. -/
theorem marchChunkDone_due {s : State} {m : March} (running : s.hw.mem.march = some m) (preserve : m.preserve = true) (chunk : m.chunk < 512)
    (passed : m.from_ + 768 ≤ s.hw.clk) :
    let x := (s.hw.onMem (fun x => { x with march := some { m with chunk := 512, from_ := s.hw.clk } })).marchResume (m.banks.take 4)
    let nxt : March := if m.chunk + 1 < 512 then { m with chunk := m.chunk + 1, from_ := s.hw.clk }
      else if m.banks.length ≤ 4 then { m with chunk := 512, from_ := s.hw.clk }
      else { m with chunk := 0, banks := m.banks.drop 4, from_ := s.hw.clk }
    exec .marchChunkDone s = .next (s.on (x.onMem (fun y => { y with march := some nxt }))) := by
  dsimp only
  refine goes_on (exec_marchChunkDone s) ?_
  rw [running]
  exact if_pos (by simp [preserve, chunk, passed])

/-- Settles O46: for each command the branches of its row, one clause a branch. -/
theorem banksClearWakeAndAreTested : Obligations.BanksClearWakeAndAreTested := by
  unfold Obligations.BanksClearWakeAndAreTested
  refine ⟨?_, ?_, ?_, ?_, ?_, ?_, ?_, ?_, ?_, ?_, ?_, ?_, ?_⟩
  · intro s bank named clears passed
    exact goes_on (exec_bankClearDone bank s) (if_pos ⟨named, clears, passed⟩)
  · intro s bank waits
    exact stays (exec_bankClearDone bank s) (if_neg (by omega))
  · intro h bank _ x y z
    exact ⟨fun none_ => Hw.clearEnd_last none_, fun o p k ps next => Hw.clearEnd_next next⟩
  · intro m bank wf
    have next : (bank + 1) * bankBytes = bank * bankBytes + bankBytes := Nat.succ_mul _ _
    exact ⟨fun a low high => readByte_clearMem_inside m low (by omega), fun a outside => readByte_clearMem_outside m (by omega), memWf_clearMem _ _ _ wf⟩
  · intro s bank named wakes passed
    exact goes_on (exec_bankWakeDone bank s) (if_pos ⟨named, wakes, passed⟩)
  · intro s bank waits
    exact stays (exec_bankWakeDone bank s) (if_neg (by omega))
  · intro s m running preserve chunk passed
    exact marchChunkDone_due running preserve chunk passed
  · intro s waits
    refine stays (exec_marchChunkDone s) ?_
    cases running : s.hw.mem.march with
    | none => rfl
    | some m =>
      obtain none_ | ⟨m', same, why⟩ := waits
      · simp [running] at none_
      · obtain rfl := Option.some.inj (running.symm.trans same)
        refine if_neg ?_
        obtain destructive | last | early := why
        · simp [destructive]
        · simp [Nat.not_lt.mpr last]
        · simp [Nat.not_le.mpr early]
  · intro s m fails running preserve last
    refine goes_on (exec_marchTestDone fails s) ?_
    rw [running]
    obtain ⟨banks, p, chunk, slot, from_⟩ := m
    obtain rfl : p = true := preserve
    exact if_neg (by simpa using last)
  · intro s m fails running destructive passed
    refine goes_on (exec_marchTestDone fails s) ?_
    rw [running]
    obtain ⟨banks, p, chunk, slot, from_⟩ := m
    obtain rfl : p = false := destructive
    exact if_neg (by simpa using passed)
  · intro s fails waits
    refine stays (exec_marchTestDone fails s) ?_
    cases running : s.hw.mem.march with
    | none => rfl
    | some m =>
      obtain none_ | ⟨m', same, why⟩ := waits
      · simp [running] at none_
      · obtain rfl := Option.some.inj (running.symm.trans same)
        refine if_pos ?_
        obtain ⟨preserve, chunk⟩ | ⟨destructive, early⟩ := why
        · simp [preserve, chunk]
        · simp [destructive, early]
  · intro s good
    exact goes_on (exec_lpddrReady s) (if_pos good)
  · intro s off
    exact stays (exec_lpddrReady s) (ite_off off)

end Sys2Proof.Machine
end

section
/-!
PROOFS of 15_sideband_bridge.md: the transactions of the sideband bridge (R417 to R426).
-/
namespace Sys2Proof.Machine

/-! ### GO and cancel -/

/-- A GO write that reaches a slot. -/
theorem Hw.goWrite_reached (h : Hw) {slot : Nat} (op addr word ctrl : Nat) (data : List Byte) (there : slot < 16) (on : h.pg 48 = true) :
    h.goWrite op slot addr word ctrl data =
      h.sbbGo slot addr word (putF (putF ctrl Fld.SBB_REQ_CTRL_OP op) Fld.SBB_REQ_CTRL_GO 1) data none :=
  if_pos ⟨there, on⟩

/-- A GO write that reaches no slot, or with PD_SIDEBAND off. -/
theorem Hw.goWrite_lost (h : Hw) {slot : Nat} (op addr word ctrl : Nat) (data : List Byte) (off : 16 ≤ slot ∨ h.pg 48 = false) :
    h.goWrite op slot addr word ctrl data = h := by
  refine if_neg ?_
  rintro ⟨there, on⟩
  obtain beyond | off := off
  · omega
  · exact absurd (on.symm.trans off) (by decide)

/-- A free slot takes the request: it waits in order, unless it is malformed or its channel faulted. -/
theorem Hw.sbbGo_free (h : Hw) (slot addr word ctrl : Nat) (data : List Byte) (v : Option Nat) (free : kvGet h.sbb.tx slot = none) :
    let x := (h.wn (Reg.SBB_REQ_ADDR slot) addr).wn (Reg.SBB_REQ_DATA slot) word
    let t0 : SbbTx := ⟨addr, word, ctrl, data, [], 0, 0, [], 0, 0, none, none, h.sbb.order, v, h.clk⟩
    let t : SbbTx := { t0 with left := x.sbbPieces t0 }
    let y := x.onSbb (fun b => { b with tx := kvPut b.tx slot t, order := b.order + 1 })
    h.sbbGo slot addr word ctrl data v =
      if 2 < t.op ∨ 12 ≤ t.chan ∨ (t.op = 2 ∧ 4 ≤ t.chan) ∨ t.left.isEmpty then y.sbbFinish slot 8
      else if y.chanFault t.chan then y.sbbFinish slot 7
      else y.sbbStart t.chan :=
  if_neg (by simp [free])

/-- A cancel of a slot with a transaction, by its phase. -/
theorem Hw.sbbCancel_of (h : Hw) {slot : Nat} {t : SbbTx} (found : kvGet h.sbb.tx slot = some t) :
    h.sbbCancel slot = if t.phase = 4 then h
      else if t.phase = 1 then h.onTx slot (fun x => { x with cancel := some h.clk })
      else (h.sbbFinish slot 6).sbbStart t.chan := by
  unfold Hw.sbbCancel
  rw [found]

/-- A cancel of an empty slot ends the locks it holds. -/
theorem Hw.sbbCancel_free (h : Hw) {slot : Nat} (free : kvGet h.sbb.tx slot = none) :
    h.sbbCancel slot = ((h.sbb.lock.filter (fun l => l.2.1 == slot)).map (·.1)).foldl
      (fun a c => ((a.onSbb (fun b => { b with lock := kvDel b.lock c })).emit (.farBusEnd c)).sbbStart c) h := by
  unfold Hw.sbbCancel
  rw [free]

/-- The response of a transaction that serves no command leaves the device, and its slot is free. -/
theorem Hw.sbbRespond_own (h : Hw) (slot : Nat) (t : SbbTx) (own : t.serves = none) :
    h.sbbRespond slot t =
      (h.onSbb (fun b => { b with tx := kvDel b.tx slot, expired := without b.expired slot })).emit
        (.sbbResp slot (t.response (h.sbb.expired.contains slot))) := by
  unfold Hw.sbbRespond
  rw [own]

/-! ### Pieces -/

/-- The end of a piece at which the write cycle of an I2C device begins. -/
theorem polls_iff (c o w : Nat) : ((isI2c c && o == 1 && w != 0) = true) ↔ (isI2c c = true ∧ o = 1 ∧ w ≠ 0) := by
  simp [and_assoc]

/-- A cancelled piece ends its transfer unless the transfer completes in the very cycle of the cancel (R426). -/
theorem cancelled_of {k clk : Nat} {last : Bool} (c : Option Nat) (at_ : c = some k) (why : k ≠ clk ∨ last = false) :
    (c.isSome && !(c == some clk && last)) = true := by
  subst at_
  obtain other | more := why
  · simp [other]
  · simp [more]

/-- A piece that no cancel ends. -/
theorem not_cancelled_of {clk : Nat} {last : Bool} (c : Option Nat) (why : c = none ∨ (c = some clk ∧ last = true)) :
    (c.isSome && !(c == some clk && last)) = false := by
  obtain none_ | ⟨now, last⟩ := why
  · simp [none_]
  · simp [now, last]

section Piece
variable {s : State} {slot : Nat} {t : SbbTx} (found : kvGet s.hw.sbb.tx slot = some t)
include found

/-- A piece ends only in a transaction that runs. -/
theorem sbbPieceComplete_other (code n : Nat) (data : List Byte) (low : Bool) (phase : t.phase ≠ 1) :
    exec (.sbbPieceComplete slot code n data low) s = .next s := by
  refine stays (exec_sbbPieceComplete slot code n data low s) ?_
  dsimp only
  rw [found]
  exact if_pos phase

/-- A piece of a transaction that runs: SDA that stays low, a cancel, or the end of the piece. -/
theorem sbbPieceComplete_running (code n : Nat) (data : List Byte) (low : Bool) (phase : t.phase = 1) :
    let x := s.hw.onTx slot (fun x => { x with done := x.done + n })
    exec (.sbbPieceComplete slot code n data low) s = .next (s.on (
      if low && isI2c t.chan then x.chanFaults t.chan
      else if t.cancel.isSome && !(t.cancel == some s.hw.clk && s.hw.pieceLast code t) then
        ((if data.isEmpty then x else (x.inc Reg.SBB_LATE).lateResult 1).sbbFinish slot 6).sbbStart t.chan
      else s.hw.pieceEnd slot code n data t)) := by
  refine goes_on (exec_sbbPieceComplete slot code n data low s) ?_
  dsimp only
  rw [found]
  exact if_neg (not_not.mpr phase)

/-- A poll in a write cycle: the device answers, or the cycle's time has passed. -/
theorem sbbWritePoll_polling (acked : Bool) (phase : t.phase = 3) :
    exec (.sbbWritePoll slot acked) s = .next (s.on (
      if acked then s.hw.sbbAdvance slot
      else if s.hw.clk < t.since + s.hw.fld (Reg.SBB_CHAN_TIMING t.chan) Fld.SBB_CHAN_TIMING_WR_CYCLE_MS * 500000 then s.hw
      else (s.hw.sbbFinish slot 1).sbbStart t.chan)) := by
  refine goes_on (exec_sbbWritePoll slot acked s) ?_
  rw [found]
  exact if_neg (not_not.mpr phase)

/-- A poll outside a write cycle. -/
theorem sbbWritePoll_other (acked : Bool) (phase : t.phase ≠ 3) : exec (.sbbWritePoll slot acked) s = .next s := by
  refine stays (exec_sbbWritePoll slot acked s) ?_
  rw [found]
  exact if_pos phase

end Piece

/-- With no transaction in the slot its rows change nothing. -/
theorem sbb_without_transaction (s : State) (slot code n : Nat) (data : List Byte) (b : Bool) (free : kvGet s.hw.sbb.tx slot = none) :
    exec (.sbbHoldExpire slot) s = .next s ∧ exec (.sbbPieceComplete slot code n data b) s = .next s ∧
      exec (.sbbRetryGapExpire slot) s = .next s ∧ exec (.sbbWritePoll slot b) s = .next s := by
  refine ⟨stays (exec_sbbHoldExpire slot s) ?_, stays (exec_sbbPieceComplete slot code n data b s) ?_,
    stays (exec_sbbRetryGapExpire slot s) ?_, stays (exec_sbbWritePoll slot b s) ?_⟩
  all_goals rw [free]

/-! ### Channels -/

/-- A rewrite that reaches a channel is refused, or taken and its requests started. -/
theorem sbbChanRewrite_reached (s : State) {chan : Nat} (cfg timing : Nat) (hi : Bool) (there : chan < 12) (on : s.hw.pg 48 = true) :
    let x := (s.hw.image (Reg.SBB_CHAN_CFG chan) 0xFFF0FFFF cfg).wn (Reg.SBB_CHAN_TIMING chan) timing
    let f := x.fld Reg.SBB_STATUS Fld.SBB_STATUS_CHAN_FAULT
    exec (.sbbChanRewrite chan cfg timing hi) s = .next (s.on (
      if (x.worstBudgets chan).any (fun b => decide (10000000 ≤ b)) then s.hw
      else (if hi && f.testBit chan then x.setFld Reg.SBB_STATUS Fld.SBB_STATUS_CHAN_FAULT (f - 2 ^ chan) else x).sbbStart chan)) :=
  goes_on (exec_sbbChanRewrite chan cfg timing hi s) (if_pos ⟨there, on⟩)

/-- Settles O47: each row branches on its slot's transaction and phase; the lemmas above say what each branch leaves. -/
theorem sidebandTransactionsRunToTheirResponse : Obligations.SidebandTransactionsRunToTheirResponse := by
  unfold Obligations.SidebandTransactionsRunToTheirResponse
  refine ⟨?_, ?_, ?_, ?_, ?_, ?_, ?_, ?_, ?_, sbb_without_transaction, ?_, ?_, ?_, ?_, ?_, ?_, ?_, ?_, ?_⟩
  · intro s slot addr word ctrl data there on
    exact ⟨goes_on (exec_sbbGoRead slot addr ctrl s) (s.hw.goWrite_reached 0 addr 0 ctrl [] there on),
      goes_on (exec_sbbGoWrite slot addr ctrl data s) (s.hw.goWrite_reached 1 addr _ ctrl data there on),
      goes_on (exec_sbbGoRmw slot addr word ctrl s) (s.hw.goWrite_reached 2 addr word ctrl [] there on)⟩
  · intro s slot addr word ctrl data off
    exact ⟨stays (exec_sbbGoRead slot addr ctrl s) (s.hw.goWrite_lost 0 addr 0 ctrl [] off),
      stays (exec_sbbGoWrite slot addr ctrl data s) (s.hw.goWrite_lost 1 addr _ ctrl data off),
      stays (exec_sbbGoRmw slot addr word ctrl s) (s.hw.goWrite_lost 2 addr word ctrl [] off)⟩
  · intro h slot addr word ctrl data v busy
    exact if_pos busy
  · intro h slot addr word ctrl data v free
    have started := h.sbbGo_free slot addr word ctrl data v free
    exact ⟨fun bad => started.trans (if_pos bad), fun good fault => started.trans ((if_neg good).trans (if_pos fault)),
      fun good sound => started.trans ((if_neg good).trans (ite_off sound))⟩
  · intro s slot t found
    refine ⟨fun complete => stays (exec_sbbCancel slot s) ?_, fun running => goes_on (exec_sbbCancel slot s) ?_,
      fun open_ idle => goes_on (exec_sbbCancel slot s) ?_⟩
    · exact (s.hw.sbbCancel_of found).trans (if_pos complete)
    · exact (s.hw.sbbCancel_of found).trans ((if_neg (by omega)).trans (if_pos running))
    · exact (s.hw.sbbCancel_of found).trans ((if_neg open_).trans (if_neg idle))
  · intro s slot free
    refine ⟨goes_on (exec_sbbCancel slot s) (s.hw.sbbCancel_free free), fun no => stays (exec_sbbCancel slot s) ?_⟩
    refine (s.hw.sbbCancel_free free).trans ?_
    rw [no]
    rfl
  · intro s slot
    refine ⟨fun free => goes_on (exec_sbbSlotRespRead slot s) ?_,
      fun t found open_ => goes_on (exec_sbbSlotRespRead slot s) ?_, fun t found complete own =>
        ⟨_, goes_on (exec_sbbSlotRespRead slot s) rfl, ?_⟩⟩
    · rw [free]
    · rw [found]
      exact if_neg open_
    · rw [found]
      dsimp only
      rw [if_pos complete, own, s.hw.sbbRespond_own slot t own]
      exact ⟨rfl, kvGet_kvDel_same _ slot⟩
  · intro s slot t found complete
    refine goes_on (exec_sbbSlotRespRead slot s) ?_
    rw [found]
    exact if_pos complete
  · intro s slot t found
    refine ⟨fun c held passed => goes_on (exec_sbbHoldExpire slot s) ?_, fun c held early => stays (exec_sbbHoldExpire slot s) ?_,
      fun no => stays (exec_sbbHoldExpire slot s) ?_⟩
    · rw [found]
      dsimp only
      rw [held]
      exact if_neg (Nat.not_lt.mpr passed)
    · rw [found]
      dsimp only
      rw [held]
      exact if_pos early
    · rw [found]
      dsimp only
      rw [no]
  · intro s slot code n data low t found phase
    have ended := sbbPieceComplete_running found code n data low phase
    have high (ok : low = false ∨ isI2c t.chan = false) : (low && isI2c t.chan) = false := Bool.and_eq_false_iff.mpr ok
    dsimp only
    refine ⟨fun stuck i2c => next_of_same ended ?_, fun c ok at_ why => next_of_same ended ?_, fun ok why => next_of_same ended ?_⟩
    · exact if_pos (Bool.and_eq_true_iff.mpr ⟨stuck, i2c⟩)
    · exact (ite_off (high ok)).trans (if_pos (cancelled_of t.cancel at_ why))
    · exact (ite_off (high ok)).trans (ite_off (not_cancelled_of t.cancel why))
  · intro h slot code n data t
    dsimp only
    refine ⟨fun ok other no => (if_pos ok).trans ?_, fun ok polls => (if_pos ok).trans ?_, fun refused i2c tries => ?_, fun failed last => ?_⟩
    · rw [if_neg other]
      exact if_neg (mt (polls_iff _ _ _).mp no)
    · obtain ⟨i2c, write, cycle⟩ := polls
      have other : t.op ≠ 2 := by omega
      rw [if_neg other]
      exact if_pos ((polls_iff _ _ _).mpr ⟨i2c, write, cycle⟩)
    · exact (if_neg (by omega)).trans (if_pos ⟨refused, i2c, tries⟩)
    · exact (if_neg failed).trans (if_neg last)
  · intro s slot code n data b t found
    exact ⟨sbbPieceComplete_other found code n data b, sbbWritePoll_other found b⟩
  · intro s slot t found
    refine ⟨fun refused passed => goes_on (exec_sbbRetryGapExpire slot s) ?_, fun no => stays (exec_sbbRetryGapExpire slot s) ?_⟩
    · rw [found]
      exact if_pos ⟨refused, passed⟩
    · rw [found]
      exact if_neg no
  · intro s slot t found phase
    have unanswered := sbbWritePoll_polling found false phase
    exact ⟨sbbWritePoll_polling found true phase, fun passed => next_of_same unanswered (if_neg (Nat.not_lt.mpr passed)),
      fun early => next_of_same unanswered (if_pos early)⟩
  · intro s chan slot c locked
    refine ⟨fun passed => goes_on (exec_sbbLockTimeout chan s) ?_, fun early => stays (exec_sbbLockTimeout chan s) ?_⟩
    · rw [locked]
      exact if_neg (Nat.not_lt.mpr passed)
    · rw [locked]
      exact if_pos early
  · intro s chan no
    refine stays (exec_sbbLockTimeout chan s) ?_
    rw [no]
  · intro s chan cfg timing there on
    have rewritten hi := sbbChanRewrite_reached s cfg timing hi there on
    dsimp only
    refine ⟨fun hi slow => next_of_same (rewritten hi) (if_pos slow), fun fast => next_of_same (rewritten false) (ite_off fast),
      fun fast faulted => next_of_same (rewritten true) ((ite_off fast).trans ?_),
      fun fast sound => next_of_same (rewritten true) ((ite_off fast).trans ?_)⟩
    · exact congrArg (Hw.sbbStart · chan) (if_pos faulted)
    · exact congrArg (Hw.sbbStart · chan) (ite_off sound)
  · intro s chan cfg timing hi off
    refine stays (exec_sbbChanRewrite chan cfg timing hi s) (if_neg ?_)
    rintro ⟨there, on⟩
    obtain beyond | off := off
    · omega
    · exact absurd (on.symm.trans off) (by decide)

end Sys2Proof.Machine
end

section
/-!
PROOFS of 15_sideband_bridge.md: the lines and the rails (R427 to R429, R433).
-/
namespace Sys2Proof.Machine

/-! ### Lines -/

/-- A task without a run that waits for it. -/
theorem Hw.serveTask_none {h : Hw} {t : Nat} (eff : Hw → TaskRun → Hw) (none_ : h.taskRun? t = none) : h.serveTask t eff = h := by
  unfold Hw.serveTask
  rw [none_]

/-- A change of a line of PD_SIDEBAND is shown and fires what its edges enable. -/
theorem gpioEdge_on (s : State) {line : Nat} (level : Bool) (there : line < 48) (on : s.hw.pg 48 = true) :
    let x := s.hw.setFld (Reg.SBB_GPIO_CFG line) Fld.SBB_GPIO_CFG_IN (if level then 1 else 0)
    let e := x.fld (Reg.SBB_GPIO_CFG line) Fld.SBB_GPIO_CFG_EDGE
    exec (.gpioEdge line level) s = .next (s.on (
      if x.fld (Reg.SBB_GPIO_CFG line) Fld.SBB_GPIO_CFG_DIR = 0 ∧ ((level ∧ e % 2 = 1) ∨ (!level ∧ 2 ≤ e)) then x.fire [48 + line] else x)) :=
  goes_on (exec_gpioEdge line level s) ((if_neg (Nat.not_le.mpr there)).trans (if_pos on))

/-- The action of a GPIO task on its line (R428). -/
def Hw.gpioAct (h : Hw) (action n : Nat) : Hw :=
  match action with
  | 0 => h.gpioDrive n (some true)
  | 1 => h.gpioDrive n (some false)
  | 2 => h.gpioDrive n none
  | _ => h

/-- A run of a GPIO task that is enabled drives its line. -/
theorem gpioTask_enabled {s : State} {k : Nat} {r : TaskRun} (there : k < 16) (waiting : s.hw.taskRun? (8 + k) = some r)
    (enabled : s.hw.flag (Reg.SBB_GPIO_TASK k) Fld.SBB_GPIO_TASK_EN = true)
    (line : s.hw.fld (Reg.SBB_GPIO_TASK k) Fld.SBB_GPIO_TASK_LINE < 48)
    (ready : s.hw.flag Reg.SBB_STATUS Fld.SBB_STATUS_READY = true) :
    exec (.gpioTask k) s = .next (s.on (((({ s.hw with tasks := dropRun s.hw.tasks (8 + k) } : Hw).lateBy r 1000).gpioAct
      (s.hw.fld (Reg.SBB_GPIO_TASK k) Fld.SBB_GPIO_TASK_ACTION) (s.hw.fld (Reg.SBB_GPIO_TASK k) Fld.SBB_GPIO_TASK_LINE)).taskRecord r)) := by
  refine goes_on (exec_gpioTask k s) ((if_pos there).trans ((Hw.serveTask_runs _ waiting).trans (congrArg (Hw.taskRecord · r) ?_)))
  exact if_pos ⟨eq_of_beq enabled, line, ready⟩

/-- A run of a GPIO task that is not enabled only leaves the queue. -/
theorem gpioTask_disabled {s : State} {k : Nat} {r : TaskRun} (there : k < 16) (waiting : s.hw.taskRun? (8 + k) = some r)
    (disabled : s.hw.fld (Reg.SBB_GPIO_TASK k) Fld.SBB_GPIO_TASK_EN ≠ 1) :
    exec (.gpioTask k) s = .next (s.on (({ s.hw with tasks := dropRun s.hw.tasks (8 + k) } : Hw).taskRecord r)) :=
  goes_on (exec_gpioTask k s) ((if_pos there).trans ((Hw.serveTask_runs _ waiting).trans
    (congrArg (Hw.taskRecord · r) (if_neg fun on => disabled on.1))))

/-! ### Rails -/

/-- The retry of a rail after its fault is due. -/
def Hw.railRetryDue (h : Hw) (rail : Nat) : Bool :=
  match kvGet h.sbb.railTry rail with
  | some t => decide (t.2 + h.fld (Reg.SBB_RAIL_CFG rail) Fld.SBB_RAIL_CFG_RETRY_MS * 500000 ≤ h.clk)
  | none => false

/-- What a retry's end does to its rail. -/
theorem railRetryExpire_at (s : State) (rail : Nat) :
    exec (.railRetryExpire rail) s = .next (s.on (
      if rail < 12 ∧ s.hw.railRetryDue rail ∧ !s.hw.flag (Reg.SBB_RAIL_CFG rail) Fld.SBB_RAIL_CFG_FAULT
          ∧ !s.hw.flag (Reg.SBB_RAIL_CFG rail) Fld.SBB_RAIL_CFG_ON then s.hw.railEnable rail true else s.hw)) :=
  exec_railRetryExpire rail s

/-- A retry is due RETRY_MS after the fault. -/
theorem Hw.railRetryDue_of {h : Hw} {rail : Nat} {t : Nat × Nat} (tried : kvGet h.sbb.railTry rail = some t) :
    h.railRetryDue rail = decide (t.2 + h.fld (Reg.SBB_RAIL_CFG rail) Fld.SBB_RAIL_CFG_RETRY_MS * 500000 ≤ h.clk) := by
  unfold Hw.railRetryDue
  rw [tried]

/-- A rail that did not fault has no retry. -/
theorem Hw.railRetryDue_none {h : Hw} {rail : Nat} (no : kvGet h.sbb.railTry rail = none) : h.railRetryDue rail = false := by
  unfold Hw.railRetryDue
  rw [no]

/-- A retry of a rail in another state does not turn it on. -/
theorem railRetryExpire_other {s : State} {rail : Nat}
    (why : 12 ≤ rail ∨ s.hw.railRetryDue rail = false ∨ s.hw.flag (Reg.SBB_RAIL_CFG rail) Fld.SBB_RAIL_CFG_FAULT = true ∨
      s.hw.flag (Reg.SBB_RAIL_CFG rail) Fld.SBB_RAIL_CFG_ON = true) : exec (.railRetryExpire rail) s = .next s := by
  refine (railRetryExpire_at s rail).trans (congrArg (fun x => Host.Outcome.next (s.on x)) (if_neg ?_))
  obtain beyond | early | latched | on := why
  · simp [Nat.not_lt.mpr beyond]
  · simp [early]
  · simp [latched]
  · simp [on]

/-- Settles O48: each row branches on its line, run or rail; the lemmas above say what each branch leaves. -/
theorem linesAndRailsAct : Obligations.LinesAndRailsAct := by
  unfold Obligations.LinesAndRailsAct
  refine ⟨?_, ?_, ?_, ?_, ?_, ?_, ?_, ?_, ?_, ?_, ?_, ?_⟩
  · intro s line level there on
    have edge := gpioEdge_on s level there on
    dsimp only
    refine ⟨fun fires => next_of_same edge (if_pos ?_), fun no => next_of_same edge (if_neg ?_)⟩
    · simpa using fires
    · simpa using no
  · intro s line level there bad off
    refine goes_on (exec_gpioEdge line level s) ((if_neg (by omega)).trans ((ite_off bad).trans (if_pos ⟨there, ?_⟩)))
    rw [off]
    rfl
  · intro s line level why
    refine stays (exec_gpioEdge line level s) ?_
    obtain beyond | ⟨bad, inside⟩ := why
    · exact if_pos beyond
    · refine ite_shared id rfl ((ite_off bad).trans (if_neg ?_))
      rintro ⟨there, off⟩
      obtain beyond | on := inside
      · omega
      · simp [on] at off
  · intro s k r there waiting
    dsimp only
    intro enabled line ready
    have run := gpioTask_enabled there waiting enabled line ready
    refine ⟨fun action => ?_, fun action => ?_, fun action => ?_⟩
    all_goals
      rw [action] at run
      exact run
  · intro s k r there waiting disabled
    exact gpioTask_disabled there waiting disabled
  · intro s k why
    refine stays (exec_gpioTask k s) ?_
    obtain beyond | none_ := why
    · exact if_neg (Nat.not_lt.mpr beyond)
    · exact ite_shared id (Hw.serveTask_none _ none_) rfl
  · intro s rail there on why
    exact goes_on (exec_railFault rail s) (if_pos ⟨there, on, by simpa using why⟩)
  · intro s rail why
    refine stays (exec_railFault rail s) (if_neg ?_)
    rintro ⟨there, on, faulted⟩
    obtain beyond | off | ⟨bad, early⟩ := why
    · omega
    · exact absurd (on.symm.trans off) (by decide)
    · simp [bad, early] at faulted
  · intro s rail t there tried due sound off
    refine next_of_same (railRetryExpire_at s rail) (if_pos ⟨there, ?_, ?_, ?_⟩)
    · exact (Hw.railRetryDue_of tried).trans (decide_eq_true due)
    · rw [sound]
      rfl
    · rw [off]
      rfl
  · intro s rail why
    refine railRetryExpire_other ?_
    obtain beyond | no | ⟨t, tried, early⟩ | other := why
    · exact Or.inl beyond
    · exact Or.inr (Or.inl (Hw.railRetryDue_none no))
    · exact Or.inr (Or.inl ((Hw.railRetryDue_of tried).trans (decide_eq_false early)))
    · exact Or.inr (Or.inr other)
  · intro s rail there on
    dsimp only
    refine ⟨fun latched => goes_on (exec_railPowerGood rail s) ((if_pos ⟨there, on⟩).trans (if_pos latched)),
      fun sound => goes_on (exec_railPowerGood rail s) ((if_pos ⟨there, on⟩).trans (ite_off sound))⟩
  · intro s rail why
    refine stays (exec_railPowerGood rail s) (if_neg ?_)
    rintro ⟨there, on⟩
    obtain beyond | off := why
    · omega
    · exact absurd (on.symm.trans off) (by decide)

end Sys2Proof.Machine
end

section
/-!
PROOFS of 16_power_clocks_startup.md: resets and regulators (R14, R433, R435, R442 to R445, R449, R450).
-/
namespace Sys2Proof.Machine

/-! ### Resets -/

/-- The machine that POR with PWR_ON low leaves waits in OFF. -/
def Hw.offAfterPor (h : Hw) : Hw :=
  let x := ({ Hw.reset with clk := h.clk, free := h.free, out := h.out } : Hw).onPwr
    (fun p => { p with busy := false, startUp := false, goal := 0, regUp := none })
  (x.setFld Reg.PWR_STATUS Fld.PWR_STATUS_TRANSITION 0).setFld Reg.PWR_STATUS Fld.PWR_STATUS_TARGET 0

/-- PWR_ON acts by the power state while the device is powered, out of reset and not off for heat. -/
theorem pwrOnEdge_live {s : State} (powered : s.hw.pwr.powered = true) (released : s.hw.pwr.rstLow = false) (cool : s.hw.pwr.thermOff = false) :
    exec .pwrOnEdge s = .next (s.on (
      if s.hw.powerState = 0 ∧ !s.hw.pwr.busy then s.hw.startDevice 7 4
      else if s.hw.powerState = 1 ∧ !s.hw.pwr.busy then (if s.hw.regsOff2 then (s.hw.recordWake 28).wakeStart else s.hw.wakeDetect 28)
      else if s.hw.pwr.busy ∧ s.hw.pwr.startUp ∧ s.hw.pwr.cause = 3 then s.hw.recordWake 28
      else if s.hw.pwr.busy ∧ s.hw.pwr.goal = 1 then s.hw.wakeDetect 28
      else s.hw)) :=
  goes_on (exec_pwrOnEdge s) (ite_off (by rw [powered, released, cool]; rfl))

/-- PWR_ON does nothing without power, in reset, off for heat, or in a state that is neither OFF nor STANDBY nor on its way there. -/
theorem pwrOnEdge_ignored {s : State} (why : s.hw.pwr.powered = false ∨ s.hw.pwr.rstLow = true ∨ s.hw.pwr.thermOff = true ∨
    (s.hw.pwr.busy = false ∧ 2 ≤ s.hw.powerState) ∨
    (s.hw.pwr.busy = true ∧ s.hw.pwr.goal ≠ 1 ∧ (s.hw.pwr.startUp = false ∨ s.hw.pwr.cause ≠ 3))) : exec .pwrOnEdge s = .next s := by
  refine stays (exec_pwrOnEdge s) ?_
  obtain off | low | hot | ⟨idle, state⟩ | ⟨busy, goal, other⟩ := why
  · exact if_pos (by simp [off])
  · exact if_pos (by simp [low])
  · exact if_pos (by simp [hot])
  · refine ite_shared id rfl ((if_neg (by omega)).trans ((if_neg (by omega)).trans ((if_neg ?_).trans (if_neg ?_))))
    · simp [idle]
    · simp [idle]
  · refine ite_shared id rfl ((if_neg ?_).trans ((if_neg ?_).trans ((if_neg ?_).trans (if_neg fun c => goal c.2))))
    · simp [busy]
    · simp [busy]
    · rintro ⟨-, starting, cause⟩
      obtain no | cause' := other
      · exact absurd (starting.symm.trans no) (by decide)
      · exact cause' cause

/-! ### Regulators -/

/-- Power-good of a regulator that is on and had none is shown; for the one that comes up, the next is due or the device is good. -/
theorem regPowerGood_shown {s : State} {n : Nat} (there : n < 6) (on : s.hw.regOn n = true) (off : s.hw.regPg n = false) :
    let x := s.hw.setFld (Reg.PWR_REG_CFG n) Fld.PWR_REG_CFG_PG 1
    let z := x.onPwr (fun p => { p with regAt := x.clk })
    let limit := if s.hw.pwr.startUp = true then regCount s.hw.pwr.goal else 6
    let y := z.onPwr (fun p => { p with regUp := none })
    exec (.regPowerGood n) s = .next (s.on (
      if s.hw.pwr.regUp ≠ some n then x
      else match (List.range limit).find? (fun m => decide (n < m) && !z.regPg m) with
      | some m => z.onPwr (fun p => { p with regUp := some m })
      | none => if y.pwr.startUp && !y.flag Reg.PWR_STATUS Fld.PWR_STATUS_PG then y.powerGood else y.settle)) := by
  refine goes_on (exec_regPowerGood n s) ((if_neg ?_).trans rfl)
  simp [on, off, there]

/-- A regulator that is not on its way, or has power-good in time, does not time out. -/
theorem regPgTimeout_idle {s : State} {n : Nat}
    (why : 6 ≤ n ∨ s.hw.pwr.regUp ≠ some n ∨ s.hw.regOn n = false ∨ s.hw.regPg n = true ∨
      s.hw.clk < s.hw.pwr.regAt + s.hw.msLeast (s.hw.fld (Reg.PWR_REG_CFG n) Fld.PWR_REG_CFG_PG_TIMEOUT_MS)) :
    exec (.regPgTimeout n) s = .next s :=
  stays (exec_regPgTimeout n s) (if_pos (by simpa only [Bool.not_eq_true'] using why))

/-- A regulator that comes up without power-good in time: its fault is counted and latched, and its channels go off. -/
theorem regPgTimeout_late {s : State} {n : Nat} (there : n < 6) (next : s.hw.pwr.regUp = some n) (on : s.hw.regOn n = true)
    (off : s.hw.regPg n = false)
    (passed : s.hw.pwr.regAt + s.hw.msLeast (s.hw.fld (Reg.PWR_REG_CFG n) Fld.PWR_REG_CFG_PG_TIMEOUT_MS) ≤ s.hw.clk) :
    let x := (s.hw.inc (Reg.PWR_REG_FAULTS n)).latchReg n
    let goal := if s.hw.pwr.fromOff = true then 0 else 1
    exec (.regPgTimeout n) s = .next (s.on (
      if s.hw.pwr.startUp then (x.setFld Reg.PWR_STATUS Fld.PWR_STATUS_TARGET goal).onPwr (fun p =>
        { p with startUp := false, goal := goal, regUp := none, regDown := some 0, toOn := [], slot := none })
      else ((x.post 1 0x0D03 n 0).onPwr (fun p => { p with regUp := none, regDown := some 4 })).domainFault 47)) := by
  refine goes_on (exec_regPgTimeout n s) (if_neg ?_)
  rintro (beyond | other | no | good | early)
  · omega
  · exact other next
  · simp [on] at no
  · exact absurd (good.symm.trans off) (by decide)
  · omega

/-- Power-good lost of a regulator that had it: of 0 to 3 the device resets, of 4 and 5 the LPDDR memory goes off. -/
theorem regPgLost_lost {s : State} {n : Nat} (there : n < 6) (on : s.hw.regOn n = true) (good : s.hw.regPg n = true) :
    let x := (s.hw.setFld (Reg.PWR_REG_CFG n) Fld.PWR_REG_CFG_PG 0).inc (Reg.PWR_REG_FAULTS n)
    let w := x.wipe []
    let fails := w.pwr.fails.filter (fun t => decide (w.clk < t + 500000000)) ++ [w.clk]
    let y := (w.onPwr (fun p => { p with fails := fails, retry := !decide (3 ≤ fails.length), busy := true, startUp := false, waking := false, goal := 1, regUp := none, regDown := some 0, boot := false })).setFld
      Reg.PWR_STATUS Fld.PWR_STATUS_TARGET 1
    let z := ((if x.domOn 47 = true then x.domainOff 47 else x).post 1 0x0D03 n 1).latchReg n
    exec (.regPgLost n) s = .next (s.on (
      if n < 4 then (if decide (3 ≤ fails.length) then y.latchReg n else y)
      else z.onPwr (fun p => { p with toOn := without p.toOn 47, ramping := without p.ramping 47, regDown := some 4, regUp := none }))) := by
  refine goes_on (exec_regPgLost n s) (if_neg ?_)
  simp [on, good, there]

/-- The next regulator goes off once its millisecond has passed; after the last the sequence is over. -/
theorem regOffStep_due {s : State} {low : Nat} (down : s.hw.pwr.regDown = some low) :
    let on := (List.range 6).filter (fun n => decide (low ≤ n) && s.hw.regOn n)
    exec .regOffStep s = .next (s.on (
      if s.hw.clk < s.hw.pwr.offAt + s.hw.msLeast 1 then s.hw
      else
        let x := match on.getLast? with | some n => s.hw.setReg n false | none => s.hw
        if on.length ≤ 1 then (x.onPwr (fun p => { p with regDown := none })).settle else x)) := by
  refine goes_on (exec_regOffStep s) ?_
  rw [down] <;> rfl

/-- Settles O49: each row branches on the power state and its regulator; the lemmas above say what each branch leaves. -/
theorem resetsAndRegulatorsFollowTheirOrder : Obligations.ResetsAndRegulatorsFollowTheirOrder := by
  unfold Obligations.ResetsAndRegulatorsFollowTheirOrder
  refine ⟨?_, ?_, ?_, ?_, ?_, ?_, ?_, ?_, ?_, ?_, ?_, fun s n => regPgTimeout_idle, ?_, ?_, ?_, ?_, ?_⟩
  · intro s
    refine ⟨_, s.on s.hw.offAfterPor, goes_on (exec_por true s) rfl, goes_on (exec_por false s) rfl, rfl, rfl, rfl, rfl, rfl, rfl, ?_⟩
    exact Hw.fld_setFld_same _ _ 0 _ (by decide) (by decide)
  · intro s powered released cool
    have edge := pwrOnEdge_live powered released cool
    refine ⟨fun idle state => ?_, fun idle state passed => ?_, fun idle state early => ?_, fun busy starting cause => ?_,
      fun busy starting goal => ?_⟩
    · exact next_of_same edge (if_pos ⟨state, by rw [idle]; rfl⟩)
    · refine next_of_same edge ((if_neg (by omega)).trans ((if_pos ⟨state, by rw [idle]; rfl⟩).trans (if_pos ?_)))
      exact decide_eq_true passed
    · refine next_of_same edge ((if_neg (by omega)).trans ((if_pos ⟨state, by rw [idle]; rfl⟩).trans (ite_off ?_)))
      exact decide_eq_false (Nat.not_le.mpr early)
    · refine next_of_same edge ((if_neg ?_).trans ((if_neg ?_).trans (if_pos ⟨busy, starting, cause⟩)))
      · simp [busy]
      · simp [busy]
    · refine next_of_same edge ((if_neg ?_).trans ((if_neg ?_).trans ((if_neg ?_).trans (if_pos ⟨busy, goal⟩))))
      · simp [busy]
      · simp [busy]
      · simp [starting]
  · exact fun s => pwrOnEdge_ignored
  · intro s powered
    refine ⟨fun state idle => goes_on (exec_rstNLow s) ((ite_off (by rw [powered]; rfl)).trans (if_pos ⟨state, by rw [idle]; rfl⟩)),
      fun runs => goes_on (exec_rstNLow s) ((ite_off (by rw [powered]; rfl)).trans (if_neg ?_))⟩
    obtain on | busy := runs
    · simp [on]
    · simp [busy]
  · intro s unpowered
    exact stays (exec_rstNLow s) (if_pos (by rw [unpowered]; rfl))
  · intro s
    refine ⟨fun high => stays (exec_rstNHigh s) (if_pos (by rw [high]; rfl)), fun low => ?_⟩
    dsimp only
    refine ⟨fun state idle => goes_on (exec_rstNHigh s) ((ite_off (by rw [low]; rfl)).trans (if_pos ⟨state, ?_⟩)),
      fun runs => goes_on (exec_rstNHigh s) ((ite_off (by rw [low]; rfl)).trans (if_neg ?_))⟩
    · rintro ⟨state, idle⟩
      obtain on | busy := runs
      · exact on state
      · exact absurd ((congrArg (!·) busy).symm.trans idle) (by decide)
    · exact (congrArg (!·) idle).trans rfl
  · intro s
    refine ⟨fun on => goes_on (exec_treustLockstepFault s) (if_pos on), fun off => stays (exec_treustLockstepFault s) (ite_off off),
      fun on => goes_on (exec_controlPairFault s) (if_pos on), fun off => stays (exec_controlPairFault s) (ite_off off),
      fun c asked passed => goes_on (exec_sysResetExpire s) ?_, fun c asked early => stays (exec_sysResetExpire s) ?_,
      fun no => stays (exec_sysResetExpire s) ?_⟩
    · rw [asked]
      exact if_pos passed
    · rw [asked]
      exact if_neg (Nat.not_le.mpr early)
    · rw [no]
  · intro s
    refine ⟨fun no => stays (exec_regDelayExpire s) ?_, fun n next => ?_⟩
    · rw [no]
    · dsimp only
      refine ⟨fun why => stays (exec_regDelayExpire s) ?_, fun off passed => goes_on (exec_regDelayExpire s) ?_⟩
      · rw [next]
        exact if_pos (by simpa using why)
      · rw [next]
        exact ite_off (by rw [off, decide_eq_false (Nat.not_lt.mpr passed)]; rfl)
  · intro s n there on off
    have shown := regPowerGood_shown there on off
    dsimp only at shown ⊢
    refine ⟨fun other => next_of_same shown (if_pos other), fun own m later => next_of_same shown ((if_neg (not_not.mpr own)).trans ?_),
      fun own none_ starting bad => next_of_same shown ((if_neg (not_not.mpr own)).trans ?_),
      fun own none_ why => next_of_same shown ((if_neg (not_not.mpr own)).trans ?_)⟩
    · rw [later]
    · rw [none_]
      exact if_pos (by rw [bad]; exact (Bool.and_true _).trans starting)
    · rw [none_]
      refine ite_off ?_
      obtain running | good := why
      · exact (congrArg (· && _) running).trans (Bool.false_and _)
      · rw [good]
        exact Bool.and_false _
  · intro s n why
    exact stays (exec_regPowerGood n s) (if_pos (by simpa only [Bool.not_eq_true'] using why))
  · intro s n there next on off passed
    have late := regPgTimeout_late there next on off passed
    exact ⟨fun starting => next_of_same late (if_pos starting), fun running => next_of_same late (ite_off running)⟩
  · intro s n on good
    dsimp only
    refine ⟨fun core few => next_of_same (regPgLost_lost (by omega) on good) ((if_pos core).trans (ite_off ?_)),
      fun core many => next_of_same (regPgLost_lost (by omega) on good) ((if_pos core).trans (if_pos ?_)),
      fun memory there => next_of_same (regPgLost_lost there on good) (if_neg (Nat.not_lt.mpr memory))⟩
    · exact decide_eq_false (Nat.not_le.mpr few)
    · exact decide_eq_true many
  · intro s n why
    exact stays (exec_regPgLost n s) (if_pos (by simpa only [Bool.not_eq_true'] using why))
  · intro s
    refine ⟨fun retry passed off => goes_on (exec_regRetryExpire s) (if_pos ?_), fun why => stays (exec_regRetryExpire s) (ite_off ?_)⟩
    · rw [retry, decide_eq_true passed, off]
      rfl
    · obtain no | early | on := why
      · rw [no]
        rfl
      · rw [decide_eq_false (Nat.not_le.mpr early), Bool.and_false]
        rfl
      · rw [on]
        exact Bool.and_false _
  · intro s low down
    have step := regOffStep_due down
    dsimp only at step ⊢
    refine ⟨fun early => (next_of_same step (if_pos early)), fun passed => ?_⟩
    have off := next_of_same step (if_neg (Nat.not_lt.mpr passed))
    refine ⟨fun no => next_of_same off ?_, fun n last => ⟨fun only => next_of_same off ?_, fun more => next_of_same off ?_⟩⟩
    · rw [no]
      rfl
    · rw [last]
      exact if_pos only
    · rw [last]
      exact if_neg (Nat.not_le.mpr more)
  · intro s no
    refine stays (exec_regOffStep s) ?_
    rw [no]

end Sys2Proof.Machine
end

section
/-!
PROOFS of 16_power_clocks_startup.md: power states, domains, rails, wakes, the reference monitor and heat (R432 to R448).
-/
namespace Sys2Proof.Machine

/-! ### Transitions and domains -/

/-- A round goes on unless the transition, the rails, RST_N or the regulators hold it, or what it closed has not settled. -/
theorem domainSwitchRound_held {s : State}
    (why : s.hw.pwr.busy = false ∨ s.hw.pwr.rails = 2 ∨ s.hw.pwr.rstLow = true ∨
      (s.hw.pwr.startUp = true ∧ s.hw.flag Reg.PWR_STATUS Fld.PWR_STATUS_PG = false) ∨
      s.hw.pwr.ramping ≠ [] ∨ s.hw.sinceRound = true) : exec .domainSwitchRound s = .next s := by
  refine stays (exec_domainSwitchRound s) ?_
  obtain idle | rails | low | ⟨starting, bad⟩ | ramping | early := why
  · exact if_pos (by simp [idle])
  · exact if_pos (by simp [rails])
  · exact if_pos (by simp [low])
  · exact if_pos (by simp [starting, bad])
  · exact ite_shared id rfl (if_pos (by simp [ramping]))
  · exact ite_shared id rfl (if_pos (by simp [early]))

/-- A round that is due switches domains off first, then on. -/
theorem domainSwitchRound_due {s : State} (busy : s.hw.pwr.busy = true) (rails : s.hw.pwr.rails ≠ 2) (released : s.hw.pwr.rstLow = false)
    (good : s.hw.pwr.startUp = false ∨ s.hw.flag Reg.PWR_STATUS Fld.PWR_STATUS_PG = true) (still : s.hw.pwr.ramping = [])
    (settled : s.hw.sinceRound = false) :
    let x := s.hw.onPwr (fun p => { p with roundAt := some s.hw.clk })
    exec .domainSwitchRound s = .next (s.on (if s.hw.pwr.toOff.isEmpty then x.roundOn else x.roundOff)) := by
  refine goes_on (exec_domainSwitchRound s) ((ite_off ?_).trans (ite_off ?_))
  · obtain running | good := good
    · simp [busy, rails, released, running]
    · simp [busy, rails, released, good]
  · simp [still, settled]

/-- A domain that does not ramp neither comes up nor times out. -/
theorem domain_not_ramping {s : State} {d : Nat} (no : s.hw.pwr.ramping.contains d = false) :
    exec (.domainPowerGood d) s = .next s ∧ exec (.domainPgTimeout d) s = .next s :=
  ⟨stays (exec_domainPowerGood d s) (if_pos (by rw [no]; rfl)), stays (exec_domainPgTimeout d s) (if_pos (by rw [no]; rfl))⟩

/-- A domain that ramps too long faults; the last Basin group takes the Basin controller with it. -/
theorem domainPgTimeout_late {s : State} {d : Nat} (ramping : s.hw.pwr.ramping.contains d = true) (settled : s.hw.sinceRound = false) :
    let x := s.hw.domainFault d
    exec (.domainPgTimeout d) s = .next (s.on (Hw.settle (
      if (decide (7 ≤ d) && decide (d ≤ 22)) && x.domOn 25 && !(List.range 16).any (fun g => x.domOn (7 + g) || x.pwr.toOn.contains (7 + g)) then
        (x.onPwr (fun p => { p with toOn := dropDependents 8 [25] (without p.toOn 25), ramping := without p.ramping 25 })).domainOff 25
      else x))) :=
  goes_on (exec_domainPgTimeout d s) (ite_off (by rw [ramping, settled]; rfl))

/-! ### Rails -/

/-- Rails go on or off only in a transition that has reached them. -/
theorem railStageAdvance_idle {s : State}
    (why : s.hw.pwr.busy = false ∨ (s.hw.pwr.rails ≠ 2 ∧ (s.hw.pwr.rails ≠ 1 ∨ s.hw.railsSettled = false))) :
    exec .railStageAdvance s = .next s := by
  refine stays (exec_railStageAdvance s) ?_
  obtain idle | ⟨off, on⟩ := why
  · exact if_pos (by rw [idle]; rfl)
  · refine ite_shared id rfl ((if_neg off).trans (if_neg ?_))
    rintro ⟨rails, settled⟩
    obtain other | moving := on
    · exact other rails
    · exact absurd (settled.symm.trans moving) (by decide)

/-! ### Wakes -/

/-- The transition that brings the domains of a wake source on in the state there is (R433). -/
def Hw.wakeOn (h : Hw) (ds : List Nat) : Hw :=
  let h := h.setFld Reg.PWR_STATUS Fld.PWR_STATUS_TRANSITION 1
  let h := h.setFld Reg.PWR_STATUS Fld.PWR_STATUS_TARGET h.powerState
  h.onPwr (fun p => { p with busy := true, startUp := false, goal := h.powerState, roundAt := none, toOn := ds, rails := 3, waking := true })

/-- A wake that brings domains on keeps the power state as its goal. -/
theorem Hw.wakeOn_pwr (h : Hw) (ds : List Nat) : (h.wakeOn ds).pwr =
    { h.pwr with busy := true, startUp := false, goal := h.powerState, roundAt := none, toOn := ds, rails := 3, waking := true } := by
  have begun : (h.setFld Reg.PWR_STATUS Fld.PWR_STATUS_TRANSITION 1).powerState = h.powerState :=
    h.fld_setFld_apart _ _ _ _ (by decide) (by decide) (by decide)
  have shown (x : Hw) (v : Nat) : (x.setFld Reg.PWR_STATUS Fld.PWR_STATUS_TARGET v).powerState = x.powerState :=
    x.fld_setFld_apart _ _ _ _ (by decide) (by decide) (by decide)
  exact congrArg (fun n => { h.pwr with busy := true, startUp := false, goal := n, roundAt := none, toOn := ds, rails := 3, waking := true })
    ((shown _ _).trans begun)

/-- A latched source brings LISTEN up whole, or its domains on. -/
theorem listenWake_latched {s : State} {source : Nat} (state : 2 ≤ s.hw.powerState) (idle : s.hw.pwr.busy = false)
    (latched : s.hw.pwr.latched.contains source = true) :
    let x := s.hw.onPwr (fun p => { p with latched := without p.latched source })
    let ds := (wakeDomains source).filter (fun d => !x.domOn d)
    exec (.listenWake source) s = .next (s.on (
      if s.hw.powerState = 2 ∧ s.hw.flag Reg.PWR_WAKE_CFG Fld.PWR_WAKE_CFG_LISTEN_AUTO = true then
        (x.beginTransition ⟨4, 0, 0, none, 0⟩).onPwr (fun p => { p with waking := p.busy })
      else if ds.isEmpty then x else x.wakeOn ds)) :=
  goes_on (exec_listenWake source s) (if_pos ⟨state, by rw [idle]; rfl, latched⟩)

/-- A source that is not latched, or a device that is not up, starts no wake. -/
theorem listenWake_ignored {s : State} {source : Nat}
    (why : s.hw.powerState < 2 ∨ s.hw.pwr.busy = true ∨ s.hw.pwr.latched.contains source = false) : exec (.listenWake source) s = .next s := by
  refine stays (exec_listenWake source s) (if_neg ?_)
  rintro ⟨state, idle, latched⟩
  obtain down | busy | no := why
  · omega
  · simp [busy] at idle
  · exact absurd (latched.symm.trans no) (by decide)

/-! ### The reference monitor -/

/-- What a window of the reference monitor shows (R446). -/
def Hw.refShown (h : Hw) (ppm : Int) : Hw :=
  let l := (ppm :: h.pwr.ppm).take 8
  let w := ((h.onPwr (fun p => { p with ppm := l })).wn Reg.PWR_REF_PPM_LAST (twos 32 ppm)).wn Reg.PWR_REF_PPM (twos 32 (meanInt l))
  if decide (-1000000 * ppmUnit < ppm) = true then w.setFld Reg.PWR_CLK_STATUS Fld.PWR_CLK_STATUS_REF_LOST 0 else w

/-- Drift rises past 200 ppm of the mean with its record, and ends after eight windows within 180 ppm (R446). -/
def Hw.refDrift (h : Hw) (ppm mean : Int) : Hw :=
  let y := h.onPwr (fun p => { p with drift := if (ppm.natAbs : Int) ≤ 180 * ppmUnit then p.drift + 1 else 0 })
  let was := y.flag Reg.PWR_CLK_STATUS Fld.PWR_CLK_STATUS_REF_DRIFT
  let drifted := decide (200 * ppmUnit < (mean.natAbs : Int))
  if (drifted && !was) = true then ((y.setFld Reg.PWR_CLK_STATUS Fld.PWR_CLK_STATUS_REF_DRIFT 1).inc Reg.PWR_REF_DRIFT_EVENTS).post 1 0x0D04 0 (y.rn Reg.PWR_REF_PPM)
  else if (was && decide (8 ≤ y.pwr.drift) && !drifted) = true then y.setFld Reg.PWR_CLK_STATUS Fld.PWR_CLK_STATUS_REF_DRIFT 0 else y

/-- Of the power state the drift rule changes the count of windows alone. -/
theorem Hw.refDrift_pwr (h : Hw) (ppm mean : Int) : (h.refDrift ppm mean).pwr =
    { h.pwr with drift := if (ppm.natAbs : Int) ≤ 180 * ppmUnit then h.pwr.drift + 1 else 0 } :=
  ite_shared Hw.pwr (Hw.post_pwr _ _ _ _ _ _ _ _) (ite_shared Hw.pwr rfl rfl)

/-- A window without an edge leaves REF_LOST. -/
theorem Hw.refShown_absent {h : Hw} {ppm : Int} (absent : ppm ≤ -1000000 * ppmUnit) : h.refShown ppm =
    ((h.onPwr (fun p => { p with ppm := (ppm :: h.pwr.ppm).take 8 })).wn Reg.PWR_REF_PPM_LAST (twos 32 ppm)).wn Reg.PWR_REF_PPM
      (twos 32 (meanInt ((ppm :: h.pwr.ppm).take 8))) :=
  ite_off (decide_eq_false (Int.not_lt.mpr absent))

/-- A shown window is the newest of the eight kept. -/
theorem Hw.refShown_ppm (h : Hw) (ppm : Int) : (h.refShown ppm).pwr.ppm = (ppm :: h.pwr.ppm).take 8 :=
  ite_shared (fun x : Hw => x.pwr.ppm) rfl rfl

/-- What a window of the reference monitor does while the device is up or on its way. -/
theorem refMonitorWindow_up {s : State} (ppm : Int) (up : 2 ≤ s.hw.powerState ∨ s.hw.pwr.busy = true) :
    let mean := meanInt ((ppm :: s.hw.pwr.ppm).take 8)
    let x := s.hw.refShown ppm
    let z := x.refDrift ppm mean
    let n := if decide (-1000000 * ppmUnit < ppm) = true ∧ (ppm.natAbs : Int) ≤ 200 * ppmUnit then z.pwr.hold + 1 else 0
    let u := z.onPwr (fun p => { p with hold := n })
    exec (.refMonitorWindow ppm) s = .next (s.on (
      if x.flag Reg.PWR_CLK_STATUS Fld.PWR_CLK_STATUS_AO_XTAL_FAIL = true then x
      else if 1000 * ppmUnit < (mean.natAbs : Int) ∨ 1000 * ppmUnit < (ppm.natAbs : Int) then z.clockHoldover (z.pwr.ppm.getD 1 0)
      else if z.flag Reg.PWR_CLK_STATUS Fld.PWR_CLK_STATUS_HOLDOVER = true then
        (if 16 ≤ n then u.setFld Reg.PWR_CLK_STATUS Fld.PWR_CLK_STATUS_RELOCKING 1 else u)
      else z)) := by
  refine goes_on (exec_refMonitorWindow ppm s) (if_neg ?_)
  rintro ⟨down, idle⟩
  obtain up | busy := up
  · omega
  · simp [busy] at idle

/-! ### Heat -/

/-- A sample shown, with the warning past WARN_C and its end 5 degrees below (R447). -/
def Hw.thermShown (h : Hw) (temp : Int) : Hw :=
  let x := h.setFld Reg.PWR_THERM Fld.PWR_THERM_TEMP (twos 16 temp)
  let warn : Int := x.fld Reg.PWR_THERM Fld.PWR_THERM_WARN_C * 4
  let set := x.flag Reg.PWR_STATUS Fld.PWR_STATUS_THERM_WARN
  if warn ≤ temp ∧ set = false then (x.setFld Reg.PWR_STATUS Fld.PWR_STATUS_THERM_WARN 1).post 1 0x0D07 0 (x.rn Reg.PWR_THERM)
  else if temp ≤ warn - 20 ∧ set = true then x.setFld Reg.PWR_STATUS Fld.PWR_STATUS_THERM_WARN 0 else x

/-- A sample is shown, and past 130 degrees it shuts the device down. -/
theorem thermSample_powered {s : State} (temp : Int) (powered : s.hw.pwr.powered = true) :
    let y := s.hw.thermShown temp
    exec (.thermSample temp) s = .next (s.on (
      if 520 ≤ temp ∧ y.pwr.thermOff = false ∧ (List.range 6).any y.regOn = true then y.thermalShutdown temp else y)) := by
  have off (b : Bool) : (!b) = true ↔ b = false := iff_of_eq (Bool.not_eq_true' b)
  have judged (y : Hw) : (if 520 ≤ temp ∧ !y.pwr.thermOff ∧ (List.range 6).any y.regOn then y.thermalShutdown temp else y) =
      if 520 ≤ temp ∧ y.pwr.thermOff = false ∧ (List.range 6).any y.regOn = true then y.thermalShutdown temp else y :=
    if_congr (and_congr_right fun _ => and_congr_left fun _ => off _) rfl rfl
  refine goes_on (exec_thermSample temp s) ((ite_off (by rw [powered]; rfl)).trans ((judged _).trans ?_))
  exact congrArg (fun y : Hw => if 520 ≤ temp ∧ y.pwr.thermOff = false ∧ (List.range 6).any y.regOn = true then y.thermalShutdown temp else y)
    (if_congr (and_congr_right fun _ => off _) rfl rfl)

/-- The last restart after heat is 10 s past, or there was none. -/
def Hw.thermLate (h : Hw) : Bool := match h.pwr.thermAt with | some t => decide (t + 5000000000 ≤ h.clk) | none => true

/-- No restart yet. -/
theorem Hw.thermLate_none {h : Hw} (no : h.pwr.thermAt = none) : h.thermLate = true := by
  unfold Hw.thermLate
  rw [no]

/-- A restart at `t`. -/
theorem Hw.thermLate_some {h : Hw} {t : Nat} (last : h.pwr.thermAt = some t) : h.thermLate = decide (t + 5000000000 ≤ h.clk) := by
  unfold Hw.thermLate
  rw [last]

/-- What a restart after heat does. -/
theorem thermalRestart_at (s : State) : exec .thermalRestart s = .next (s.on (
    if s.hw.pwr.thermOff ∧ signed 16 (s.hw.fld Reg.PWR_THERM Fld.PWR_THERM_TEMP) < 440 ∧ s.hw.thermLate = true ∧
      !(List.range 6).any s.hw.regOn then
      (s.hw.onPwr (fun p => { p with thermAt := some s.hw.clk })).startDevice 5 4
    else s.hw)) :=
  exec_thermalRestart s

/-- Settles O50: each row branches on the power state and what is under way; the lemmas above say what each branch leaves. -/
theorem powerStatesClocksAndHeat : Obligations.PowerStatesClocksAndHeat := by
  unfold Obligations.PowerStatesClocksAndHeat
  refine ⟨?_, ?_, ?_, fun s => domainSwitchRound_held, ?_, fun s d => domain_not_ramping, ?_, ?_, ?_, ?_, ?_, ?_, fun s => railStageAdvance_idle, ?_, ?_,
    fun s source => listenWake_ignored, ?_, ?_, ?_, fun s ppm up => refMonitorWindow_up ppm up, ?_, ?_,
    fun s temp powered => thermSample_powered temp powered, ?_, ?_, ?_⟩
  · intro s q asked
    refine ⟨fun idle released due => goes_on (exec_pwrTransitionStart s) ?_, fun why => stays (exec_pwrTransitionStart s) ?_⟩
    · rw [asked]
      exact ite_off (by rw [idle, released, decide_eq_false (Nat.not_lt.mpr due)]; rfl)
    · rw [asked]
      exact if_pos (by simpa [or_assoc] using why)
  · intro s no
    refine stays (exec_pwrTransitionStart s) ?_
    rw [no]
  · intro s busy rails released good still settled
    have round := domainSwitchRound_due busy rails released good still settled
    exact ⟨fun none_ => next_of_same round (if_pos (by rw [none_]; rfl)),
      fun some_ => next_of_same round (if_neg (mt List.isEmpty_iff.mp some_))⟩
  · intro s d ramping
    have up := goes_on (exec_domainPowerGood d s) (ite_off (by rw [ramping]; rfl))
    exact ⟨fun memory => next_of_same up (congrArg Hw.settle (if_pos memory)), fun other => next_of_same up (congrArg Hw.settle (if_neg other))⟩
  · intro s d ramping settled outside
    refine next_of_same (domainPgTimeout_late ramping settled) (congrArg Hw.settle (if_neg ?_))
    simp only [Bool.and_eq_true, decide_eq_true_eq]
    omega
  · intro s d ramping settled low high
    have late := domainPgTimeout_late ramping settled
    dsimp only
    refine ⟨fun kept => next_of_same late (congrArg Hw.settle (if_neg ?_)), fun ⟨on, none_⟩ => next_of_same late (congrArg Hw.settle (if_pos ?_))⟩
    · intro alone
      obtain ⟨⟨-, on⟩, none_⟩ := (by simpa only [Bool.and_eq_true, Bool.not_eq_true'] using alone :
        (_ ∧ (s.hw.domainFault d).domOn 25 = true) ∧ _)
      exact kept ⟨on, none_⟩
    · rw [on, none_, decide_eq_true low, decide_eq_true high]
      rfl
  · intro s d early
    exact stays (exec_domainPgTimeout d s) (if_pos (by rw [early, Bool.or_true]))
  · intro s busy rails
    have advanced := goes_on (exec_railStageAdvance s) ((ite_off (by rw [busy]; rfl)).trans (if_pos rails))
    exact ⟨fun none_ => next_of_same advanced (if_pos (List.isEmpty_iff.mpr none_)),
      fun some_ => next_of_same advanced (if_neg (mt List.isEmpty_iff.mp some_))⟩
  · intro s k ks busy rails settled left
    refine goes_on (exec_railStageAdvance s) ((ite_off (by rw [busy]; rfl)).trans ((if_neg (by omega)).trans ((if_pos ⟨rails, settled⟩).trans ?_)))
    rw [left]
  · intro s busy rails settled left
    refine goes_on (exec_railStageAdvance s) ((ite_off (by rw [busy]; rfl)).trans ((if_neg (by omega)).trans ((if_pos ⟨rails, settled⟩).trans ?_)))
    rw [left]
  · intro s
    refine ⟨fun state idle some_ cool passed => goes_on (exec_standbyWake s) (if_pos ⟨state, ?_, ?_, ?_, decide_eq_true passed⟩),
      fun why => stays (exec_standbyWake s) (if_neg ?_)⟩
    · rintro ⟨state, idle, some_, cool, passed⟩
      obtain other | busy | none_ | hot | early := why
      · exact other state
      · simp [busy] at idle
      · simp [none_] at some_
      · simp [hot] at cool
      · exact Nat.not_le.mpr early (of_decide_eq_true passed)
    · rw [idle]
      rfl
    · simpa using some_
    · rw [cool]
      rfl
  · intro s source state idle latched
    have wake := listenWake_latched state idle latched
    dsimp only at wake ⊢
    refine ⟨fun auto => next_of_same wake (if_pos auto), fun manual none_ => next_of_same wake ((if_neg manual).trans (if_pos ?_)),
      fun manual some_ => ⟨_, next_of_same wake ((if_neg manual).trans (if_neg ?_)), Hw.wakeOn_pwr _ _⟩⟩
    · exact List.isEmpty_iff.mpr none_
    · exact mt List.isEmpty_iff.mp some_
  · intro s
    refine ⟨fun state set_ passed => goes_on (exec_wakeTimerExpire s) (if_pos ⟨state, set_, passed⟩), fun why => stays (exec_wakeTimerExpire s) (if_neg ?_)⟩
    rintro ⟨state, set_, passed⟩
    obtain other | zero | early := why
    · exact other state
    · exact set_ zero
    · exact Nat.not_le.mpr early passed
  · intro s ppm up far absent
    have window := refMonitorWindow_up ppm up
    have drift := (s.hw.refShown ppm).refDrift_pwr ppm (meanInt ((ppm :: s.hw.pwr.ppm).take 8))
    have kept := (congrArg PwrSt.ppm drift).trans (s.hw.refShown_ppm ppm)
    dsimp only
    rw [← Hw.refShown_absent absent]
    refine ⟨fun failed => next_of_same window (if_pos failed),
      fun ok => ⟨_, next_of_same window ((ite_off ok).trans ((if_pos (Or.inr far)).trans ?_)), (congrArg PwrSt.drift drift).trans ?_, kept⟩⟩
    · exact congrArg (fun l => Hw.clockHoldover _ (l.getD 1 0)) kept
    · exact if_neg (by unfold ppmUnit at far ⊢; omega)
  · intro s ppm down idle
    exact stays (exec_refMonitorWindow ppm s) (if_pos ⟨down, by rw [idle]; rfl⟩)
  · intro s
    exact ⟨fun locked => goes_on (exec_refEdgeLoss s) (if_pos locked), fun no => stays (exec_refEdgeLoss s) (ite_off no),
      fun powered => goes_on (exec_aoXtalFail s) (if_pos powered), fun off => stays (exec_aoXtalFail s) (ite_off off)⟩
  · intro s
    exact ⟨fun relocking => goes_on (exec_pllRelockDone s) (if_pos relocking), fun no => stays (exec_pllRelockDone s) (ite_off no)⟩
  · intro s temp off
    exact stays (exec_thermSample temp s) (if_pos (by rw [off]; rfl))
  · intro s hot cool off why
    refine next_of_same (thermalRestart_at s) (if_pos ⟨hot, cool, ?_, ?_⟩)
    · obtain no | ⟨t, last, passed⟩ := why
      · exact Hw.thermLate_none no
      · exact (Hw.thermLate_some last).trans (decide_eq_true passed)
    · rw [off]
      rfl
  · intro s why
    refine (thermalRestart_at s).trans (congrArg (fun x => Host.Outcome.next (s.on x)) (if_neg ?_))
    rintro ⟨hot, cool, late, off⟩
    obtain no | warm | on | ⟨t, last, early⟩ := why
    · exact absurd (hot.symm.trans no) (by decide)
    · omega
    · rw [on] at off
      exact absurd off (by decide)
    · exact Nat.not_le.mpr early (of_decide_eq_true ((Hw.thermLate_some last).symm.trans late))

end Sys2Proof.Machine
end
